-- ==== Sys2Proof/Word.lean ====
section
/-! DEFINITION. The word types of the device: a byte, a 64-bit register word, a bay id, a status code. -/

namespace Sys2Proof

/-- One byte of memory. -/
abbrev Byte := BitVec 8

/-- A 64-bit register or g-register word (R11, R41). -/
abbrev Word := BitVec 64

/-- The 10-bit bay id {die, y, x} of R10. -/
abbrev BayId := BitVec 10

/-- An 8-bit completion and status code (R17). -/
abbrev Code := BitVec 8

/-- A 16-bit device coordinate {row, rack, tray, slot} (R8). -/
abbrev DevCoord := BitVec 16

end Sys2Proof
end

