-- ==== Sys2Proof/Syntax.lean ====
section
/-! DEFINITION. The commands of the device, one constructor of `Instr` per row of spec/opcode_table.json, and the
operand types they carry. -/

namespace Sys2Proof

/-- The two hardware threads of a bay (R40, R41). -/
inductive Thread where
  | main
  | seam
  deriving DecidableEq, Repr

/-- S-format fields (R183); `z` is the field shown as zero, bits [36:32]. -/
structure SFields where
  gd : BitVec 5
  ga : BitVec 5
  gb : BitVec 5
  z : BitVec 5
  imm : BitVec 32
  deriving DecidableEq, Repr

/-- V-format fields (R187). -/
structure VFields where
  vd : BitVec 5
  va : BitVec 5
  vb : BitVec 5
  vc : BitVec 5
  fmt : BitVec 4
  me : BitVec 1
  msk : BitVec 3
  gx : BitVec 5
  gy : BitVec 5
  mod : BitVec 14
  deriving DecidableEq, Repr

/-- P-format fields (R191). -/
structure PFields where
  ga : BitVec 5
  gs : BitVec 5
  gr : BitVec 5
  fmt : BitVec 4
  acc : BitVec 1
  mod : BitVec 34
  deriving DecidableEq, Repr

/-- M-format fields (R194); `z` is the field shown as zero, bits [33:19]. -/
structure MFields where
  gl : BitVec 5
  gt : BitVec 5
  gn : BitVec 5
  gx : BitVec 5
  z : BitVec 15
  aop : BitVec 4
  cw : BitVec 1
  lr : BitVec 1
  len8 : BitVec 13
  deriving DecidableEq, Repr

/-- X-format fields (R196). -/
structure XFields where
  ga : BitVec 5
  gb : BitVec 5
  gc : BitVec 5
  gd : BitVec 5
  mod : BitVec 34
  deriving DecidableEq, Repr

/-- Who makes a register access, and by which path its outcome is reported: the MSC on its own account, the host
through BAR0, the host through a REG_WRITE command (R457), or a message request of a local bay (R486). -/
inductive RegPath where
  | msc
  | bar0
  | hostCmd
  | bay (b : BayId)
  deriving DecidableEq, Repr

/-- A die-to-die link of R22 and R26. -/
inductive DieLink where
  /-- a sill-to-sill link, numbered as the bits of SILL_DOWN (R27) -/
  | sill (i : Fin 4)
  /-- the link of sill `s` to its header -/
  | hdr (s : Fin 4)
  /-- bond port `y` of compute die `d` -/
  | bond (d : Fin 4) (y : Fin 16)
  deriving DecidableEq, Repr

/-- An IEEE 1500 wrapper instruction (R38): the uses always allowed, or any other. -/
inductive WrapperInstr where
  | identify
  | train
  | laneRepair
  | readTemperature
  | other
  deriving DecidableEq, Repr

/-- A fabric packet: the fields of the packet header of R287, the chunk header bytes of R213 (CHUNK packets only) and the payload. -/
structure Packet where
  type : BitVec 4
  vc : BitVec 2
  ce : BitVec 1
  ece : BitVec 1
  dst : BitVec 28
  src : BitVec 28
  seq : BitVec 16
  ackSeq : BitVec 16
  status : BitVec 8
  pinc : BitVec 8
  opn : BitVec 1
  hops : BitVec 4
  stage : BitVec 2
  plen : BitVec 9
  smark : BitVec 16
  addr : BitVec 48
  epoch : BitVec 32
  gen : BitVec 16
  slot : BitVec 8
  aop : BitVec 4
  z : BitVec 4
  chunkHdr : List Byte
  payload : List Byte
  deriving DecidableEq, Repr

/-- A frame as it lands (R286): the two link-header words, the packet (absent in a control frame) and the payload check. -/
structure Frame where
  l0 : Word
  l1 : Word
  packet : Option Packet
  pcrc : BitVec 32
  deriving DecidableEq, Repr

/-- Where a frame lands (R34): its port and the lane of arrival, true for the express wavelength. -/
structure Landing where
  port : Fin 16
  express : Bool
  deriving DecidableEq, Repr

/-- Who accesses the control registers of an optical engine (R35): the engine itself, or one of the two that pass by the windows. -/
inductive EngineAgent where
  | engine
  | lightController
  | msc
  deriving DecidableEq, Repr

/-- An access to an optical engine's control registers: who makes it, and the engine (R35). -/
structure EngineAccess where
  who : EngineAgent
  engine : Fin 8
  deriving DecidableEq, Repr

/-- A requester of the sill memory controllers (SRC of R273). A bay's request names its message slot. -/
inductive HbmSource where
  | bay (b : BayId) (slot : BitVec 8)
  | hostDma
  | peer
  | ledger
  deriving DecidableEq, Repr

/-- What an HBM request does (R246). -/
inductive HbmOp where
  | read (len : Nat)
  | write (data : List Byte)
  | amo (aop : BitVec 4) (operand compare : Word)
  deriving DecidableEq, Repr

/-- Errors read off the pins of one codeword (R249): symbol number and the bits flipped in that symbol. -/
abbrev SymErrs := List (Fin 36 × Byte)

/-- Why a retraining starts (R255). -/
inductive RetrainCause where
  | errorRate
  | temperature
  | marginPlan
  | host
  deriving DecidableEq, Repr

/-- How an attempt to train a pseudo-channel ended (R256). -/
inductive TrainResult where
  | ok
  | failed
  deriving DecidableEq, Repr

/-- A segment of the LLS or a band of HBM whose change finishes (R268). -/
inductive LlsTarget where
  | seg (j : Fin 64)
  | band (b : Fin 256)
  deriving DecidableEq, Repr

/-- Why a port went down (CAUSE of R316). -/
inductive DownCause where
  | lossOfSignal
  | replayLimit
  | silence
  | miswired
  deriving DecidableEq, Repr

/-- Why the reference was declared lost (R354). -/
inductive RefLostCause where
  | noEdge
  | frequency (ppmHundredths : Int)
  deriving DecidableEq, Repr

/-- Which condition of R364 sets DEGRADED. -/
inductive DegradedCause where
  | noExchange
  | offsetOutside
  | parentLost
  deriving DecidableEq, Repr

/-- A sensor of R497. -/
inductive Sensor where
  | bay (b : BayId)
  | sill (i : Fin 64)
  | hdr (i : Fin 24)
  | laser (e : Fin 8)
  | coolant
  deriving DecidableEq, Repr

/-- A reading of a sensor, in quarter degrees; `none` gives no count, or is open or shorted (R498). -/
abbrev Reading := Option Int

/-- Cause of a thermal shutdown (CAUSE of R523). -/
inductive ShutdownCause where
  | logic
  | hbm
  | laser
  | coolant
  | leak
  deriving DecidableEq, Repr

/-- Why a patrol wake occurs (CAUSE of R511). -/
inductive WakeCause where
  | threshold (q : Fin 5)
  | address
  | calendar
  deriving DecidableEq, Repr

/-- The straps of one sample (R537). -/
structure Straps where
  row : BitVec 6
  rack : BitVec 4
  tray : BitVec 3
  slot : BitVec 3
  par : BitVec 2
  prof : BitVec 3
  deriving DecidableEq, Repr

/-- The event that starts the sequence of R539. -/
inductive PowerEvent where
  /-- 48 V above 40 V with SENSE_EN joined and the reset contact released -/
  | powerOn
  | resetRelease
  /-- the MSC resets the device: recovery write done (R478), bench request (R541) -/
  | deviceReset
  deriving DecidableEq, Repr

/-- How the thermal latch is cleared (R505). -/
inductive LatchClear where
  /-- the 48 V input is below 30 V for 1 s -/
  | inputLow
  /-- an OFF or PATROL command in LATCHED -/
  | command
  deriving DecidableEq, Repr

/-- How a read of host memory ends (R467). -/
inductive HostReadResult where
  | data (bytes : List Byte)
  | unsupported
  | completerAbort
  | poison
  /-- no completion within 50 ms -/
  | timeout
  deriving DecidableEq, Repr

/-- How the write of a completion record ends: written; failed; or written, with the MSI-X message that it sends failed (R467). -/
inductive RecordWrite where
  | written
  | failed
  | messageFailed
  deriving DecidableEq, Repr

/-- The reset of the host interface that R445 and R552 name. -/
inductive HostReset where
  | flr
  | hotReset
  | linkDown
  deriving DecidableEq, Repr

/-- A running value a partner sends for one bay (R396). -/
structure PlumbPair where
  bay : BayId
  n : Nat
  p : Word
  deriving DecidableEq, Repr

/-- The key of a chunk entry and its check (R395). -/
structure PlumbChunk where
  bay : BayId
  group : BitVec 12
  seq : BitVec 32
  idx : BitVec 16
  check : Word
  offLo : BitVec 20
  offHi : BitVec 20
  deriving DecidableEq, Repr

/-- A strip entry of a bay's ring (R395, R396). -/
structure PlumbStrip where
  n : Nat
  check : Word
  p : Word
  offLo : BitVec 20
  offHi : BitVec 20
  deriving DecidableEq, Repr

/-- The three report words of R405. -/
structure PlumbReport where
  rep0 : Word
  rep1 : Word
  rep2 : Word
  deriving DecidableEq, Repr

/-- What a re-plan measures (R517 to R519): SLACK of each die in 1/10,000, first as it stands and then after each 5 mV step of its
supply; the shares DRIFT, LASER and EYE in 1/10,000; the lasers at maximum bias (engine, laser); the pseudo-channels whose EYE is
below 0.5; whether one failed its retraining; and the run time in hours. -/
structure AgeMeasure where
  slackByStep : List (List Nat)
  drift : Nat
  laser : Nat
  eye : Nat
  atMax : List (Fin 8 × Fin 37)
  weak : List (BitVec 8)
  failed : Bool
  hours : Nat
  deriving DecidableEq, Repr

/-- The five quantities of a patrol sample (R510). -/
structure PatrolReadings where
  coolant : Int
  junction : Int
  inputMv : Int
  auxMv : Int
  leak : Bool
  deriving DecidableEq, Repr

/-- The row FOLD names two operations of the spec: the vector instruction of R158, and the host command FOLD of
R456, which acts on the fetched command number `k`. -/
inductive FoldOp where
  | vec (b : BayId) (t : Thread) (f : VFields)
  | host (k : Nat)
  deriving DecidableEq, Repr

/-- The commands: one constructor per row of spec/opcode_table.json, in the table's order. A bay instruction names the
bay, the issuing thread and every field of its format; `k` numbers a fetched host command. -/
inductive Instr where
  /-- REGISTER_WRITE (R563) -/
  | registerWrite (p : RegPath) (addr : BitVec 48) (size : Nat) (v : Word)
  /-- FLIT_REPLAY (R26) -/
  | flitReplay (l : DieLink) (ok : Bool)
  /-- FRAME_LANDING (R34) -/
  | frameLanding (to_ : Landing) (f : Frame) (corr : Nat) (uncorr : Nat)
  /-- ENGINE_REG_ACCESS (R35) -/
  | engineRegAccess (by_ : EngineAccess) (wr : Bool) (off : BitVec 16) (len : Nat) (data : List Byte)
  /-- ENGINE_EVENT (R33) -/
  | engineEvent (e : Fin 8) (ev : Word)
  /-- OPT_FW_CTRL_WRITE (R35) -/
  | optFwCtrlWrite (p : RegPath) (v : Word)
  /-- OPT_FW_WIN_WRITE (R35) -/
  | optFwWinWrite (p : RegPath) (e : Fin 8) (w : Fin 8) (v : Word)
  /-- HBM1500_INSTRUCTION (R38) -/
  | hbm1500Instruction (p : RegPath) (stack : Fin 8) (w : WrapperInstr)
  /-- HBM_TEMP_READ (R253) -/
  | hbmTempRead (stack : Fin 8) (temp : Option Nat)
  /-- BAY_GO (R73) -/
  | bayGo (p : RegPath) (b : BayId)
  /-- BAY_STOP (R73) -/
  | bayStop (p : RegPath) (b : BayId)
  /-- SEAM_EN_WRITE (R73) -/
  | seamEnWrite (p : RegPath) (b : BayId) (en : Bool)
  /-- THREAD_DRAIN_DONE (R76) -/
  | threadDrainDone (b : BayId) (t : Thread)
  /-- ADD (R184) -/
  | add (b : BayId) (t : Thread) (f : SFields)
  /-- SUB (R184) -/
  | sub (b : BayId) (t : Thread) (f : SFields)
  /-- AND (R184) -/
  | and (b : BayId) (t : Thread) (f : SFields)
  /-- OR (R184) -/
  | or (b : BayId) (t : Thread) (f : SFields)
  /-- XOR (R184) -/
  | xor (b : BayId) (t : Thread) (f : SFields)
  /-- SHL (R184) -/
  | shl (b : BayId) (t : Thread) (f : SFields)
  /-- SHR (R184) -/
  | shr (b : BayId) (t : Thread) (f : SFields)
  /-- SRA (R184) -/
  | sra (b : BayId) (t : Thread) (f : SFields)
  /-- SLT (R184) -/
  | slt (b : BayId) (t : Thread) (f : SFields)
  /-- SLTU (R184) -/
  | sltu (b : BayId) (t : Thread) (f : SFields)
  /-- SEQ (R184) -/
  | seq (b : BayId) (t : Thread) (f : SFields)
  /-- MIN (R184) -/
  | min (b : BayId) (t : Thread) (f : SFields)
  /-- MAX (R184) -/
  | max (b : BayId) (t : Thread) (f : SFields)
  /-- MINU (R184) -/
  | minu (b : BayId) (t : Thread) (f : SFields)
  /-- MAXU (R184) -/
  | maxu (b : BayId) (t : Thread) (f : SFields)
  /-- ADD_IMM (R184) -/
  | addImm (b : BayId) (t : Thread) (f : SFields)
  /-- SUB_IMM (R184) -/
  | subImm (b : BayId) (t : Thread) (f : SFields)
  /-- AND_IMM (R184) -/
  | andImm (b : BayId) (t : Thread) (f : SFields)
  /-- OR_IMM (R184) -/
  | orImm (b : BayId) (t : Thread) (f : SFields)
  /-- XOR_IMM (R184) -/
  | xorImm (b : BayId) (t : Thread) (f : SFields)
  /-- SHL_IMM (R184) -/
  | shlImm (b : BayId) (t : Thread) (f : SFields)
  /-- SHR_IMM (R184) -/
  | shrImm (b : BayId) (t : Thread) (f : SFields)
  /-- SRA_IMM (R184) -/
  | sraImm (b : BayId) (t : Thread) (f : SFields)
  /-- SLT_IMM (R184) -/
  | sltImm (b : BayId) (t : Thread) (f : SFields)
  /-- SLTU_IMM (R184) -/
  | sltuImm (b : BayId) (t : Thread) (f : SFields)
  /-- SEQ_IMM (R184) -/
  | seqImm (b : BayId) (t : Thread) (f : SFields)
  /-- MIN_IMM (R184) -/
  | minImm (b : BayId) (t : Thread) (f : SFields)
  /-- MAX_IMM (R184) -/
  | maxImm (b : BayId) (t : Thread) (f : SFields)
  /-- MINU_IMM (R184) -/
  | minuImm (b : BayId) (t : Thread) (f : SFields)
  /-- MAXU_IMM (R184) -/
  | maxuImm (b : BayId) (t : Thread) (f : SFields)
  /-- LI (R184) -/
  | li (b : BayId) (t : Thread) (f : SFields)
  /-- LIH (R184) -/
  | lih (b : BayId) (t : Thread) (f : SFields)
  /-- MUL (R184) -/
  | mul (b : BayId) (t : Thread) (f : SFields)
  /-- MULH (R184) -/
  | mulh (b : BayId) (t : Thread) (f : SFields)
  /-- MULHU (R184) -/
  | mulhu (b : BayId) (t : Thread) (f : SFields)
  /-- DIV (R47) -/
  | div (b : BayId) (t : Thread) (f : SFields)
  /-- DIVU (R47) -/
  | divu (b : BayId) (t : Thread) (f : SFields)
  /-- REM (R47) -/
  | rem (b : BayId) (t : Thread) (f : SFields)
  /-- REMU (R47) -/
  | remu (b : BayId) (t : Thread) (f : SFields)
  /-- LB (R185) -/
  | lb (b : BayId) (t : Thread) (f : SFields)
  /-- LH (R185) -/
  | lh (b : BayId) (t : Thread) (f : SFields)
  /-- LW (R185) -/
  | lw (b : BayId) (t : Thread) (f : SFields)
  /-- LD (R185) -/
  | ld (b : BayId) (t : Thread) (f : SFields)
  /-- LBU (R185) -/
  | lbu (b : BayId) (t : Thread) (f : SFields)
  /-- LHU (R185) -/
  | lhu (b : BayId) (t : Thread) (f : SFields)
  /-- LWU (R185) -/
  | lwu (b : BayId) (t : Thread) (f : SFields)
  /-- SB (R562) -/
  | sb (b : BayId) (t : Thread) (f : SFields)
  /-- SH (R562) -/
  | sh (b : BayId) (t : Thread) (f : SFields)
  /-- SW (R562) -/
  | sw (b : BayId) (t : Thread) (f : SFields)
  /-- SD (R185) -/
  | sd (b : BayId) (t : Thread) (f : SFields)
  /-- BEQ (R184) -/
  | beq (b : BayId) (t : Thread) (f : SFields)
  /-- BNE (R184) -/
  | bne (b : BayId) (t : Thread) (f : SFields)
  /-- BLT (R184) -/
  | blt (b : BayId) (t : Thread) (f : SFields)
  /-- BGE (R184) -/
  | bge (b : BayId) (t : Thread) (f : SFields)
  /-- BLTU (R184) -/
  | bltu (b : BayId) (t : Thread) (f : SFields)
  /-- BGEU (R184) -/
  | bgeu (b : BayId) (t : Thread) (f : SFields)
  /-- JAL (R184) -/
  | jal (b : BayId) (t : Thread) (f : SFields)
  /-- JALR (R185) -/
  | jalr (b : BayId) (t : Thread) (f : SFields)
  /-- SETVL (R148) -/
  | setvl (b : BayId) (t : Thread) (f : SFields)
  /-- RDSYS (R186) -/
  | rdsys (b : BayId) (t : Thread) (f : SFields)
  /-- VADD (R151) -/
  | vadd (b : BayId) (t : Thread) (f : VFields)
  /-- VSUB (R151) -/
  | vsub (b : BayId) (t : Thread) (f : VFields)
  /-- VMUL (R151) -/
  | vmul (b : BayId) (t : Thread) (f : VFields)
  /-- VFMA (R151) -/
  | vfma (b : BayId) (t : Thread) (f : VFields)
  /-- VMIN (R151) -/
  | vmin (b : BayId) (t : Thread) (f : VFields)
  /-- VMAX (R151) -/
  | vmax (b : BayId) (t : Thread) (f : VFields)
  /-- VABS (R151) -/
  | vabs (b : BayId) (t : Thread) (f : VFields)
  /-- VNEG (R151) -/
  | vneg (b : BayId) (t : Thread) (f : VFields)
  /-- VCMP (R151) -/
  | vcmp (b : BayId) (t : Thread) (f : VFields)
  /-- VIADD (R189) -/
  | viadd (b : BayId) (t : Thread) (f : VFields)
  /-- VISUB (R189) -/
  | visub (b : BayId) (t : Thread) (f : VFields)
  /-- VIMUL (R189) -/
  | vimul (b : BayId) (t : Thread) (f : VFields)
  /-- VAND (R189) -/
  | vand (b : BayId) (t : Thread) (f : VFields)
  /-- VOR (R189) -/
  | vor (b : BayId) (t : Thread) (f : VFields)
  /-- VXOR (R189) -/
  | vxor (b : BayId) (t : Thread) (f : VFields)
  /-- VSHL (R189) -/
  | vshl (b : BayId) (t : Thread) (f : VFields)
  /-- VSHR (R189) -/
  | vshr (b : BayId) (t : Thread) (f : VFields)
  /-- EXP2 (R164) -/
  | exp2 (b : BayId) (t : Thread) (f : VFields)
  /-- LOG2 (R164) -/
  | log2 (b : BayId) (t : Thread) (f : VFields)
  /-- RCP (R164) -/
  | rcp (b : BayId) (t : Thread) (f : VFields)
  /-- RSQRT (R164) -/
  | rsqrt (b : BayId) (t : Thread) (f : VFields)
  /-- SIN (R165) -/
  | sin (b : BayId) (t : Thread) (f : VFields)
  /-- COS (R165) -/
  | cos (b : BayId) (t : Thread) (f : VFields)
  /-- SINCOS_P (R165) -/
  | sincosP (b : BayId) (t : Thread) (f : VFields)
  /-- VDIV (R164) -/
  | vdiv (b : BayId) (t : Thread) (f : VFields)
  /-- VSQRT (R164) -/
  | vsqrt (b : BayId) (t : Thread) (f : VFields)
  /-- VCVT (R152) -/
  | vcvt (b : BayId) (t : Thread) (f : VFields)
  /-- VLD (R153) -/
  | vld (b : BayId) (t : Thread) (f : VFields)
  /-- VST (R153) -/
  | vst (b : BayId) (t : Thread) (f : VFields)
  /-- VLD_R (R155) -/
  | vldR (b : BayId) (t : Thread) (f : VFields)
  /-- VST_R (R155) -/
  | vstR (b : BayId) (t : Thread) (f : VFields)
  /-- FOLD (R158) -/
  | fold (o : FoldOp)
  /-- UNFOLD (R158) -/
  | unfold (b : BayId) (t : Thread) (f : VFields)
  /-- PERM (R159) -/
  | perm (b : BayId) (t : Thread) (f : VFields)
  /-- MAND (R189) -/
  | mand (b : BayId) (t : Thread) (f : VFields)
  /-- MOR (R189) -/
  | mor (b : BayId) (t : Thread) (f : VFields)
  /-- MXOR (R189) -/
  | mxor (b : BayId) (t : Thread) (f : VFields)
  /-- MNOT (R189) -/
  | mnot (b : BayId) (t : Thread) (f : VFields)
  /-- MPOP (R189) -/
  | mpop (b : BayId) (t : Thread) (f : VFields)
  /-- RED_SUM (R160) -/
  | redSum (b : BayId) (t : Thread) (f : VFields)
  /-- RED_MAX (R161) -/
  | redMax (b : BayId) (t : Thread) (f : VFields)
  /-- RED_MIN (R161) -/
  | redMin (b : BayId) (t : Thread) (f : VFields)
  /-- RED_ARGMAX (R161) -/
  | redArgmax (b : BayId) (t : Thread) (f : VFields)
  /-- RED_SUMX (R162) -/
  | redSumx (b : BayId) (t : Thread) (f : VFields)
  /-- XCVT (R162) -/
  | xcvt (b : BayId) (t : Thread) (f : VFields)
  /-- RED_TOPK_INIT (R163) -/
  | redTopkInit (b : BayId) (t : Thread) (f : VFields)
  /-- RED_TOPK (R163) -/
  | redTopk (b : BayId) (t : Thread) (f : VFields)
  /-- SOFTMAX_INIT (R166) -/
  | softmaxInit (b : BayId) (t : Thread) (f : VFields)
  /-- SOFTMAX_ACC (R167) -/
  | softmaxAcc (b : BayId) (t : Thread) (f : VFields)
  /-- SOFTMAX_FIN (R168) -/
  | softmaxFin (b : BayId) (t : Thread) (f : VFields)
  /-- SOFTMAX_OUT (R169) -/
  | softmaxOut (b : BayId) (t : Thread) (f : VFields)
  /-- VECTOR_START (R156) -/
  | vectorStart (b : BayId) (q : Thread)
  /-- MM (R93) -/
  | mm (b : BayId) (t : Thread) (f : PFields)
  /-- LDS (R89) -/
  | lds (b : BayId) (t : Thread) (f : PFields)
  /-- TURN (R90) -/
  | turn (b : BayId) (t : Thread) (f : PFields)
  /-- ACC_CLR (R105) -/
  | accClr (b : BayId) (t : Thread) (f : PFields)
  /-- ACC_ST (R105) -/
  | accSt (b : BayId) (t : Thread) (f : PFields)
  /-- ACC_LD (R107) -/
  | accLd (b : BayId) (t : Thread) (f : PFields)
  /-- ACC_WIN (R132) -/
  | accWin (b : BayId) (t : Thread) (f : PFields)
  /-- PRESS_ACCEPT (R101) -/
  | pressAccept (b : BayId)
  /-- PUT (R59) -/
  | put (b : BayId) (t : Thread) (f : MFields)
  /-- PUT_F (R61) -/
  | putF (b : BayId) (t : Thread) (f : MFields)
  /-- GET (R59) -/
  | get (b : BayId) (t : Thread) (f : MFields)
  /-- AMO (R59) -/
  | amo (b : BayId) (t : Thread) (f : MFields)
  /-- FENCE (R62) -/
  | fence (b : BayId) (t : Thread) (f : XFields)
  /-- FENCE_COMPLETE (R62) -/
  | fenceComplete (b : BayId) (t : Thread)
  /-- MESSAGE_PACKET_ARRIVAL (R63) -/
  | messagePacketArrival (b : BayId) (src : BayId) (slot : BitVec 8)
  /-- MESSAGE_ACK_ARRIVAL (R60) -/
  | messageAckArrival (b : BayId) (slot : BitVec 8)
  /-- SYNC (R54) -/
  | sync (b : BayId) (t : Thread) (f : XFields)
  /-- SYNC_RELEASE (R54) -/
  | syncRelease (b : BayId) (t : Thread)
  /-- WAIT_FLAG (R198) -/
  | waitFlag (b : BayId) (t : Thread) (f : XFields)
  /-- WAIT_FLAG_REREAD (R198) -/
  | waitFlagReread (b : BayId) (t : Thread)
  /-- WAIT_FLAG_TIMEOUT (R198) -/
  | waitFlagTimeout (b : BayId) (t : Thread)
  /-- WAIT_SCRIBE (R199) -/
  | waitScribe (b : BayId) (t : Thread) (f : XFields)
  /-- WAIT_SCRIBE_RELEASE (R199) -/
  | waitScribeRelease (b : BayId) (t : Thread)
  /-- END (R76) -/
  | endThread (b : BayId) (t : Thread) (f : XFields)
  /-- SPLICE_MMB (R216) -/
  | spliceMmb (b : BayId) (t : Thread) (f : XFields)
  /-- SPLICE_MMR (R217) -/
  | spliceMmr (b : BayId) (t : Thread) (f : XFields)
  /-- SPLICE_VB (R216) -/
  | spliceVb (b : BayId) (t : Thread) (f : XFields)
  /-- SPLICE_VR (R217) -/
  | spliceVr (b : BayId) (t : Thread) (f : XFields)
  /-- SPLICE_DSP (R233) -/
  | spliceDsp (b : BayId) (t : Thread) (f : XFields)
  /-- SPLICE_CMB (R236) -/
  | spliceCmb (b : BayId) (t : Thread) (f : XFields)
  /-- COLLECTIVE_JOIN (R219) -/
  | collectiveJoin (b : BayId) (group : BitVec 12) (seq : BitVec 32)
  /-- JOIN_NOTICE_ARRIVAL (R219) -/
  | joinNoticeArrival (b : BayId) (group : BitVec 12) (seq : BitVec 32) (rank : BitVec 16) (digest : BitVec 32)
  /-- CHUNK_ARRIVAL (R214) -/
  | chunkArrival (b : BayId) (rank : BitVec 16) (hdr : List Byte) (data : List Byte)
  /-- CREDIT_ARRIVAL (R217) -/
  | creditArrival (b : BayId) (group : BitVec 12) (seq : BitVec 32)
  /-- CHUNK_ACK_ARRIVAL (R218) -/
  | chunkAckArrival (b : BayId) (group : BitVec 12) (seq : BitVec 32) (rank : BitVec 16) (idx : BitVec 16) (status : Code)
  /-- ABORT_NOTICE_ARRIVAL (R228) -/
  | abortNoticeArrival (b : BayId) (group : BitVec 12) (seq : BitVec 32) (code : Code) (detector : BitVec 16)
  /-- EARLY_RECORD_EXPIRY (R223) -/
  | earlyRecordExpiry (b : BayId) (group : BitVec 12) (seq : BitVec 32)
  /-- NOTICE_RESEND (R224) -/
  | noticeResend (k : Nat)
  /-- SLOW_NOTICE_SEND (R225) -/
  | slowNoticeSend (b : BayId) (group : BitVec 12) (seq : BitVec 32) (rank : BitVec 16)
  /-- SLOW_NOTICE_ARRIVAL (R226) -/
  | slowNoticeArrival (b : BayId) (group : BitVec 12) (seq : BitVec 32) (rank : BitVec 16)
  /-- SILENCE_TIMEOUT (R226) -/
  | silenceTimeout (b : BayId) (group : BitVec 12) (seq : BitVec 32) (rank : BitVec 16)
  /-- TALLY_NOTICE_ARRIVAL (R234) -/
  | tallyNoticeArrival (b : BayId) (group : BitVec 12) (seq : BitVec 32) (rank : BitVec 16) (expert : BitVec 15)
  /-- RELEASE_NOTICE_ARRIVAL (R236) -/
  | releaseNoticeArrival (b : BayId) (group : BitVec 12) (seq : BitVec 32) (rank : BitVec 16)
  /-- DONE_NOTICE_ARRIVAL (R235) -/
  | doneNoticeArrival (b : BayId) (group : BitVec 12) (seq : BitVec 32) (rank : BitVec 16)
  /-- GROUP_ENTRY_W0_WRITE (R238) -/
  | groupEntryW0Write (p : RegPath) (g : BitVec 12) (v : Word)
  /-- GROUP_CHECK_DONE (R209) -/
  | groupCheckDone (g : BitVec 12)
  /-- HBM_REQUEST (R246) -/
  | hbmRequest (src : HbmSource) (addr : BitVec 48) (op : HbmOp) (errs : List SymErrs)
  /-- ECC_WRITEBACK (R250) -/
  | eccWriteback (addr : BitVec 48)
  /-- PATROL_SCRUB (R252) -/
  | patrolScrub (addr : BitVec 48) (errs : SymErrs)
  /-- RETRAIN_START (R255) -/
  | retrainStart (pc : BitVec 8) (cause : RetrainCause)
  /-- RETRAIN_DONE (R256) -/
  | retrainDone (pc : BitVec 8) (r : TrainResult)
  /-- FOLD_START (R259) -/
  | foldStart (pc : BitVec 8)
  /-- FOLD_PIECE_COPY (R262) -/
  | foldPieceCopy (lost : List (Fin 2048))
  /-- LLS_SEG_WRITE (R268) -/
  | llsSegWrite (p : RegPath) (j : Fin 64) (v : Word)
  /-- HBM_BAND_WRITE (R268) -/
  | hbmBandWrite (p : RegPath) (band : Fin 256) (v : Word)
  /-- LLS_CHANGE_DONE (R268) -/
  | llsChangeDone (t : LlsTarget)
  /-- PACKET_FORWARD (R283) -/
  | packetForward (hdr : Fin 2)
  /-- CREDIT_RETURN (R289) -/
  | creditReturn (port : Fin 16) (cred : BitVec 32)
  /-- LEAD_PAUSE_EXPIRY (R290) -/
  | leadPauseExpiry (port : Fin 16)
  /-- NAK_ARRIVAL (R291) -/
  | nakArrival (port : Fin 16) (express : Bool) (lseq : BitVec 16)
  /-- CONTROL_FRAME_TICK (R292) -/
  | controlFrameTick (port : Fin 16)
  /-- PORT_SILENCE_TIMEOUT (R292) -/
  | portSilenceTimeout (port : Fin 16)
  /-- PORT_UP (R281) -/
  | portUp (port : Fin 16) (peerDev : DevCoord) (peerPort : BitVec 4) (rttNs : Nat)
  /-- PORT_DOWN (R306) -/
  | portDown (port : Fin 16) (cause : DownCause)
  /-- SEQUENCED_PACKET_ARRIVAL (R294) -/
  | sequencedPacketArrival (p : Packet)
  /-- ACK_ARRIVAL (R296) -/
  | ackArrival (p : Packet)
  /-- RTO_EXPIRY (R297) -/
  | rtoExpiry (dev : DevCoord)
  /-- PAIR_BREAK_TIMEOUT (R298) -/
  | pairBreakTimeout (dev : DevCoord)
  /-- PAIR_HOLDOFF_EXPIRY (R298) -/
  | pairHoldoffExpiry (dev : DevCoord)
  /-- UNREACHABLE_NOTICE_ARRIVAL (R299) -/
  | unreachableNoticeArrival (dev : DevCoord)
  /-- GET_RSP_ARRIVAL (R300) -/
  | getRspArrival (p : Packet)
  /-- GET_RETRY_TIMEOUT (R300) -/
  | getRetryTimeout (ep : BitVec 12) (slot : BitVec 8)
  /-- AMO_REQ_ARRIVAL (R308) -/
  | amoReqArrival (p : Packet)
  /-- AMO_RSP_ARRIVAL (R309) -/
  | amoRspArrival (p : Packet)
  /-- AMO_REL_ARRIVAL (R308) -/
  | amoRelArrival (p : Packet)
  /-- AMO_RESEND_TIMEOUT (R309) -/
  | amoResendTimeout (b : BayId) (slot : BitVec 8)
  /-- ATOMIC_RECORD_EXPIRY (R308) -/
  | atomicRecordExpiry (hdr : Fin 2) (dev : DevCoord) (b : BayId) (slot : BitVec 8)
  /-- ABR_LEVEL_WRITE (R317) -/
  | abrLevelWrite (p : RegPath) (level : Fin 3) (v : Fin 64) (value : Word)
  /-- LANE_DRAIN_MESSAGE (R332) -/
  | laneDrainMessage (port : Fin 16) (w : Fin 16) (x : Nat)
  /-- LANE_DRAINED_MESSAGE (R332) -/
  | laneDrainedMessage (port : Fin 16) (w : Fin 16) (y : Nat)
  /-- LANE_RUNG_MESSAGE (R332) -/
  | laneRungMessage (port : Fin 16) (w : Fin 16) (r : Fin 4)
  /-- LANE_JOIN_MESSAGE (R332) -/
  | laneJoinMessage (port : Fin 16) (w : Fin 16) (r : Fin 4) (z : Nat)
  /-- SNR_MEASUREMENT (R329) -/
  | snrMeasurement (port : Fin 16) (w : Fin 17) (snr : BitVec 8) (uncorr : Nat)
  /-- LANE_TRAINING (R330) -/
  | laneTraining (port : Fin 16) (snrs : List (Option (BitVec 8)))
  /-- LOSS_OF_SIGNAL (R331) -/
  | lossOfSignal (port : Fin 16)
  /-- LANE_HOLD (R333) -/
  | laneHold (port : Fin 16) (w : Fin 16)
  /-- RING_LOOP_UPDATE (R334) -/
  | ringLoopUpdate (e : Fin 8) (ring : Fin 101) (errMhz : Int) (tags : List (Fin 17))
  /-- RING_RELOCK_DONE (R334) -/
  | ringRelockDone (e : Fin 8) (ring : Fin 101)
  /-- WRONG_LINE_SWEEP_DONE (R336) -/
  | wrongLineSweepDone (e : Fin 8) (ring : Fin 101) (found : Bool)
  /-- LASER_POWER_MEASUREMENT (R338) -/
  | laserPowerMeasurement (e : Fin 8) (l : Fin 37) (power : BitVec 16)
  /-- PATCH_SWAP_STEP (R339) -/
  | patchSwapStep (e : Fin 8)
  /-- EXPRESS_PATCH_SWAP (R341) -/
  | expressPatchSwap (e : Fin 8)
  /-- EXPRESS_BURST (R344) -/
  | expressBurst (e : Fin 8) (port : Fin 2)
  /-- CIRCUIT_START (R349) -/
  | circuitStart (p : RegPath) (v : Word)
  /-- CIRCUIT_CHANGE_AT_MARK (R345) -/
  | circuitChangeAtMark
  /-- CIRCUIT_TIMEOUT (R349) -/
  | circuitTimeout
  /-- REF_LOST (R355) -/
  | refLost (c : RefLostCause)
  /-- REF_RETURN (R356) -/
  | refReturn
  /-- SCRIBE_TICK (R358) -/
  | scribeTick (adv : Fin 3)
  /-- SCR_SET_WRITE (R358) -/
  | scrSetWrite (p : RegPath) (size : Nat) (v : Word)
  /-- TIME_EXCHANGE_SEND (R360) -/
  | timeExchangeSend (xseq : BitVec 16) (t1 : Word)
  /-- TIME_REQUEST_ARRIVAL (R360) -/
  | timeRequestArrival (port : Fin 16) (words : List Word) (t2 t3 : Word)
  /-- TIME_REPLY_ARRIVAL (R361) -/
  | timeReplyArrival (port : Fin 16) (words : List Word) (t4 : Word)
  /-- TIME_REPLY_TIMEOUT (R361) -/
  | timeReplyTimeout
  /-- DEGRADED_TIMEOUT (R364) -/
  | degradedTimeout (c : DegradedCause)
  /-- DEGRADED_CLEAR (R364) -/
  | degradedClear
  /-- LAUNCH_FIRE (R366) -/
  | launchFire
  /-- CALENDAR_TICK (R369) -/
  | calendarTick
  /-- CELL_EMPTY (R370) -/
  | cellEmpty
  /-- SCR_LATCH_GO (R373) -/
  | scrLatchGo (p : RegPath) (v : Word)
  /-- STEP_ADVANCE (R384) -/
  | stepAdvance (p : RegPath) (v : Word)
  /-- DIGEST_START (R389) -/
  | digestStart (p : RegPath) (v : Word)
  /-- LEAF_DIGEST_DONE (R388) -/
  | leafDigestDone
  /-- PLUMB_START_AT_MARK (R394) -/
  | plumbStartAtMark (partnerDigest : List Word)
  /-- PLUMB_BATCH_SEND (R396) -/
  | plumbBatchSend
  /-- PLUMB_BATCH_ARRIVAL (R396) -/
  | plumbBatchArrival (pairs : List PlumbPair) (chunks : List PlumbChunk)
  /-- PLUMB_ENTRY_EXCHANGE (R398) -/
  | plumbEntryExchange (b : BayId) (entries : List PlumbStrip)
  /-- PLUMB_UNMATCHED_TIMEOUT (R397) -/
  | plumbUnmatchedTimeout (c : PlumbChunk)
  /-- PLUMB_STOP_MARK_ARRIVAL (R399) -/
  | plumbStopMarkArrival (mark : Word) (rep : PlumbReport)
  /-- PLUMB_STOP_AT_MARK (R399) -/
  | plumbStopAtMark
  /-- PLUMB_PARTNER_LOST (R400) -/
  | plumbPartnerLost
  /-- BASTE_FORCE (R412) -/
  | basteForce (p : RegPath) (v : Word)
  /-- BASTE_COPY_DONE (R415) -/
  | basteCopyDone
  /-- BASTE_TRICKLE_LEAF (R416) -/
  | basteTrickleLeaf (status : Code)
  /-- BASTE_PARTNERED (R416) -/
  | bastePartnered (status : Code)
  /-- RISK_UPDATE (R413) -/
  | riskUpdate
  /-- EPOCH_ARM (R426) -/
  | epochArm (p : RegPath) (v : Word)
  /-- EPOCH_CHANGE_AT_MARK (R426) -/
  | epochChangeAtMark
  /-- LEASE_EXPIRY (R429) -/
  | leaseExpiry
  /-- LEASE_GRACE_EXPIRY (R429) -/
  | leaseGraceExpiry
  /-- SQ_TAIL_DOORBELL (R448) -/
  | sqTailDoorbell (q : Fin 16) (v : Word)
  /-- CQ_HEAD_DOORBELL (R449) -/
  | cqHeadDoorbell (q : Fin 16) (v : Word)
  /-- DESCRIPTOR_FETCH (R453) -/
  | descriptorFetch (q : Fin 16) (r : HostReadResult)
  /-- COMPLETION_RECORD_WRITE (R449) -/
  | completionRecordWrite (q : Fin 16) (ok : RecordWrite)
  /-- INTERRUPT_COALESCE_TIMEOUT (R451) -/
  | interruptCoalesceTimeout (q : Fin 16)
  /-- RING_CONFIG_WRITE (R471) -/
  | ringConfigWrite (off : BitVec 20) (v : Word)
  /-- DEBUG_APERTURE_ACCESS (R444) -/
  | debugApertureAccess (wr : Bool) (off : BitVec 28) (size : Nat) (v : Word)
  /-- FUNCTION_LEVEL_RESET (R445) -/
  | functionLevelReset (k : HostReset)
  /-- NOP (R456) -/
  | nop (k : Nat)
  /-- WRITE (R457) -/
  | write (k : Nat)
  /-- READ (R457) -/
  | read (k : Nat)
  /-- COPY (R458) -/
  | copy (k : Nat)
  /-- FILL (R456) -/
  | fill (k : Nat)
  /-- REG_WRITE (R457) -/
  | regWrite (k : Nat)
  /-- XFER (R458) -/
  | xfer (k : Nat)
  /-- JOB_LOAD (R459) -/
  | jobLoad (k : Nat)
  /-- JOB_START (R460) -/
  | jobStart (k : Nat) (mask : HostReadResult)
  /-- JOB_END (R460) -/
  | jobEnd
  /-- JOB_STOP (R456) -/
  | jobStop (k : Nat)
  /-- HOLD (R461) -/
  | hold (k : Nat)
  /-- RESUME (R461) -/
  | resume (k : Nat)
  /-- BASTE (R456) -/
  | baste (k : Nat)
  /-- HEM (R418) -/
  | hem (k : Nat)
  /-- HEM_DONE (R418) -/
  | hemDone (status : Code)
  /-- RESTORE (R422) -/
  | restore (k : Nat) (values : HostReadResult) (more : HostReadResult)
  /-- DIGEST (R389) -/
  | digest (k : Nat)
  /-- RECORD (R392) -/
  | record (k : Nat)
  /-- SCRUB (R252) -/
  | scrub (k : Nat)
  /-- RETRAIN (R255) -/
  | retrain (k : Nat)
  /-- CIRCUIT (R345) -/
  | circuit (k : Nat)
  /-- BOOT_ROM (R476) -/
  | bootRom (flashError : Bool)
  /-- FUSE_BLOW (R475) -/
  | fuseBlow
  /-- MAILBOX_GO (R479) -/
  | mailboxGo (v : Word)
  /-- MAILBOX_RESTART (R479) -/
  | mailboxRestart (v : Word)
  /-- FIRMWARE_WRITE_DONE (R477) -/
  | firmwareWriteDone
  /-- MEAS_EXTEND (R496) -/
  | measExtend (p : RegPath) (v : Word)
  /-- ACCESS_TABLE_WRITE (R490) -/
  | accessTableWrite (p : RegPath) (addr : BitVec 48) (v : Word)
  /-- ACCESS_TABLE_LOCK (R492) -/
  | accessTableLock (p : RegPath) (t : Fin 1116) (v : Word)
  /-- SENSOR_READ (R498) -/
  | sensorRead (x : Sensor) (r : Reading)
  /-- TPC_UPDATE (R501) -/
  | tpcUpdate
  /-- POWER_SAMPLE (R507) -/
  | powerSample (mv : Nat) (watts : Nat)
  /-- THERMAL_SHUTDOWN (R504) -/
  | thermalShutdown (c : ShutdownCause) (inst : BitVec 4) (temp : BitVec 16)
  /-- LEAK_DETECT (R557) -/
  | leakDetect
  /-- DVFS_WRITE (R506) -/
  | dvfsWrite (p : RegPath) (v : Word)
  /-- DVFS_CHANGE_DONE (R506) -/
  | dvfsChangeDone (die : Fin 4)
  /-- PATROL_SAMPLE (R510) -/
  | patrolSample (r : PatrolReadings)
  /-- PATROL_WAKE (R512) -/
  | patrolWake (c : WakeCause) (failStep : Option (Fin 4)) (samples : List Straps) (refOk : Bool)
  /-- PATROL_ENTRY_STEP (R514) -/
  | patrolEntryStep
  /-- PATROL_ENTRY_ABANDON (R515) -/
  | patrolEntryAbandon (c : WakeCause)
  /-- REPLAN_DUE (R518) -/
  | replanDue (m : AgeMeasure)
  /-- MAX_POINT_APPLY (R518) -/
  | maxPointApply (die : Fin 4)
  /-- MGMT_REQUEST (R532) -/
  | mgmtRequest (frame : List Byte)
  /-- MGMT_REPLY_READ (R531) -/
  | mgmtReplyRead
  /-- BUS_CLOCK_TIMEOUT (R529) -/
  | busClockTimeout
  /-- FRAME_INCOMPLETE_TIMEOUT (R529) -/
  | frameIncompleteTimeout
  /-- ENTDAA (R527) -/
  | entdaa (addr : BitVec 7)
  /-- SETDASA (R527) -/
  | setdasa (static : BitVec 7) (addr : BitVec 7)
  /-- SETNEWDA (R527) -/
  | setnewda (addr : BitVec 7)
  /-- RSTDAA (R527) -/
  | rstdaa
  /-- ENEC (R527) -/
  | enec
  /-- DISEC (R527) -/
  | disec
  /-- GETPID (R527) -/
  | getpid
  /-- GETBCR (R527) -/
  | getbcr
  /-- GETDCR (R527) -/
  | getdcr
  /-- GETSTATUS (R527) -/
  | getstatus
  /-- GETMWL (R527) -/
  | getmwl
  /-- GETMRL (R527) -/
  | getmrl
  /-- STATUS (R533) -/
  | status
  /-- EVENTS (R536) -/
  | events
  /-- SENSORS (R533) -/
  | sensors
  /-- LEASE (R534) -/
  | lease
  /-- RENEW (R428) -/
  | renew
  /-- EXPEL (R432) -/
  | expel
  /-- QUARANTINE (R433) -/
  | quarantine
  /-- RELEASE (R433) -/
  | release
  /-- NBR (R533) -/
  | nbr
  /-- OFF (R516) -/
  | off
  /-- PATROL (R513) -/
  | patrol
  /-- PATROL_SET (R510) -/
  | patrolSet
  /-- POWER_CAP (R507) -/
  | powerCap
  /-- REPLAN (R518) -/
  | replan (m : AgeMeasure)
  /-- CAL_SET (R371) -/
  | calSet
  /-- ALARM_SET (R372) -/
  | alarmSet
  /-- FW_WRITE (R534) -/
  | fwWrite
  /-- QUOTE (R484) -/
  | quote
  /-- CERT_READ (R481) -/
  | certRead
  /-- CHALLENGE (R535) -/
  | challenge
  /-- PERMIT (R39) -/
  | permit
  /-- BENCH (R541) -/
  | bench
  /-- BENCH_CHECK (R541) -/
  | benchCheck
  /-- POWER_ON (R539) -/
  | powerOn (ev : PowerEvent) (samples : List Straps) (refOk : Bool)
  /-- RESET_ASSERT (R540) -/
  | resetAssert (ns : Nat)
  /-- INPUT_LOSS (R547) -/
  | inputLoss
  /-- AUX_INPUT_LOSS (R548) -/
  | auxInputLoss
  /-- LATCH_CLEAR (R505) -/
  | latchClear (c : LatchClear)
  /-- PERST_ASSERT (R552) -/
  | perstAssert
  /-- RESERVED_ENCODING (R177) -/
  | reservedEncoding (b : BayId) (t : Thread) (w : Word)
  /-- HOST_READ_COMPLETION (R459) -/
  | hostReadCompletion (k : Nat) (r : HostReadResult)
  /-- HOST_COMPLETION_TIMEOUT (R467) -/
  | hostCompletionTimeout (k : Nat)
  /-- FW_WRITE_IDLE_TIMEOUT (R534) -/
  | fwWriteIdleTimeout
  /-- AUX_INPUT_RETURN (R549) -/
  | auxInputReturn (mv : Nat)
  /-- SELF_REFRESH_ENTRY (R509) -/
  | selfRefreshEntry (stack : Fin 8)
  /-- BANK_REFRESH (R253) -/
  | bankRefresh (pc : BitVec 8) (bank : Nat)
  /-- HEM_STORE (R418) -/
  | hemStore (status : Code)
  deriving DecidableEq, Repr

end Sys2Proof
end

