-- ==== Sys2Proof/Config.lean ====
section
/-! DEFINITION. What an implementation fixes and the spec leaves open: opaque constants without a body, so that no proof can
see a value of them. -/

namespace Sys2Proof

/-- Which of the binary32 values within 1 ulp of the exact result a special function gives for an input (R164, R165): a
fixed function of the function's number and the input, that the spec bounds and does not state. -/
opaque Config.sfuPick : Nat → Nat → Nat

/-- The value of the n-th open value that a run draws: where the spec states no result, or calls one undefined, and the
machine goes on. `State.fresh` counts the draws. -/
opaque Config.freeValue : Nat → Nat

/-- The byte that a device address holds whose contents the spec calls undefined (R229, R268, R424): by the draw that opened it
and the device address. -/
opaque Config.freeByte : Nat → Nat → BitVec 8

/-- The payload words of a NOTICE or PLUMB packet (R288): the spec names what such a packet carries and not where. A function of the
kind of its content and of the numbers it carries. -/
opaque Config.noteWords : Nat → List Nat → List (BitVec 64)

/-- The two certificates of the on-module store in DER (R481): 0 device, 1 intermediate. -/
opaque Config.certificate : Nat → List (BitVec 8)

/-- The identity public key derived from the device-unique secret (R480), 2,592 bytes. -/
opaque Config.identityKey : List (BitVec 8)

/-- The hash of the signing key in a key slot of the ROM (R474), 64 bytes. -/
opaque Config.romKeyHash : Nat → List (BitVec 8)

/-- Commissioning power of a laser in µW, measured at manufacture and stored in the module (R337): engine, laser. -/
opaque Config.commissioned : Nat → Nat → Nat

/-- The windows that the MSC firmware sets in the engines' firewall at boot (R36, R539): engine, window. -/
opaque Config.firewallWindow : Nat → Nat → BitVec 64

/-- The bytes over which the digest of the sampled straps is taken (R483): position, profile, bench mode. -/
opaque Config.strapImage : Nat → Nat → Bool → List (BitVec 8)

/-- What the management port answers to the I3C commands GETPID (0), GETBCR (1), GETDCR (2), GETMWL (3) and GETMRL (4) (R527). -/
opaque Config.i3cAnswer : Nat → List (BitVec 8)

/-- ML-DSA-87 signing with the identity key in its deterministic variant (FIPS 204, R482): context string, message. -/
opaque Config.sign : List (BitVec 8) → List (BitVec 8) → List (BitVec 8)

/-- ML-DSA-87 verification (FIPS 204, R473): public key, context string, message, signature. -/
opaque Config.verify : List (BitVec 8) → List (BitVec 8) → List (BitVec 8) → List (BitVec 8) → Bool

end Sys2Proof
end

