-- ==== Sys2Proof/Machine/RegMap.lean ====
section
/-! DEFINITION. The register map: for every register of the spec its place in the register space (R7) and its fields with
their access codes (R13) and reset values, as the register tables of the spec give them. -/

namespace Sys2Proof.Machine

/-- Access codes of register fields (R13). -/
inductive Access where
  | ro
  | rw
  | w1c
  | wo
  | rw1s
  deriving DecidableEq, Repr

/-- A row of a register table: bits [hi:lo], the access code and the reset value. -/
structure FieldRow where
  hi : Nat
  lo : Nat
  acc : Access
  reset : Nat
  deriving DecidableEq, Repr

/-- The place of a register kind (register `i`, `j` of the kind lies at base + i × s1 + j × s2) and its field rows. -/
structure RegSpec where
  base : Nat
  n1 : Nat
  s1 : Nat
  n2 : Nat
  s2 : Nat
  rows : List FieldRow

/-- The register kinds, by their names in the spec. -/
inductive RegId where
  /-- BAY_CTRL (R73) -/
  | BAY_CTRL
  /-- BAY_MAIN_PC (R74) -/
  | BAY_MAIN_PC
  /-- BAY_SEAM_PC (R74) -/
  | BAY_SEAM_PC
  /-- BAY_TRAP_EN (R75) -/
  | BAY_TRAP_EN
  /-- BAY_MAIN_STATUS (R76) -/
  | BAY_MAIN_STATUS
  /-- BAY_SEAM_STATUS (R76) -/
  | BAY_SEAM_STATUS
  /-- BAY_MSG_ERR (R77) -/
  | BAY_MSG_ERR
  /-- BAY_MSG_ERR_CNT (R77) -/
  | BAY_MSG_ERR_CNT
  /-- BAY_MEM_ECC (R78) -/
  | BAY_MEM_ECC
  /-- BAY_QUEUE (R79) -/
  | BAY_QUEUE
  /-- PRS_FLAGS (R111) -/
  | PRS_FLAGS
  /-- PRS_ACC_SAT_CNT (R111) -/
  | PRS_ACC_SAT_CNT
  /-- PRS_UFLOW_CNT (R112) -/
  | PRS_UFLOW_CNT
  /-- PRS_BANK (R113) -/
  | PRS_BANK
  /-- PRS_FED (R112) -/
  | PRS_FED
  /-- PRS_SKIPS (R112) -/
  | PRS_SKIPS
  /-- PRS_ECC (R114) -/
  | PRS_ECC
  /-- PRS_WIN0 (R143) -/
  | PRS_WIN0
  /-- PRS_WIN1 (R143) -/
  | PRS_WIN1
  /-- PRS_NAR_CNT (R144) -/
  | PRS_NAR_CNT
  /-- PRS_ROWWIN_SEL (R145) -/
  | PRS_ROWWIN_SEL
  /-- PRS_ROWWIN (R145) -/
  | PRS_ROWWIN
  /-- VEC_FLAGS (R172) -/
  | VEC_FLAGS
  /-- VEC_LANE_RANGE_CNT (R173) -/
  | VEC_LANE_RANGE_CNT
  /-- VEC_EMPTY_ROW_CNT (R173) -/
  | VEC_EMPTY_ROW_CNT
  /-- VEC_NAN_ROW_CNT (R173) -/
  | VEC_NAN_ROW_CNT
  /-- VEC_VL (R174) -/
  | VEC_VL
  /-- SIL_LINK_STATUS (R27) -/
  | SIL_LINK_STATUS
  /-- LLS_SEG (R278) -/
  | LLS_SEG
  /-- LLS_STATS (R278) -/
  | LLS_STATS
  /-- LLS_ECC (R278) -/
  | LLS_ECC
  /-- HBM_BAND (R272) -/
  | HBM_BAND
  /-- HBM_CAP (R272) -/
  | HBM_CAP
  /-- HBM_UE_LOG (R273) -/
  | HBM_UE_LOG
  /-- HBM_ECC (R273) -/
  | HBM_ECC
  /-- HBM_FOLD_CTRL (R274) -/
  | HBM_FOLD_CTRL
  /-- HBM_FOLD_PROG (R275) -/
  | HBM_FOLD_PROG
  /-- HBM_FOLD_LOST (R274) -/
  | HBM_FOLD_LOST
  /-- HBM_SCRUB (R276) -/
  | HBM_SCRUB
  /-- HBM_SCRUB_PROG (R275) -/
  | HBM_SCRUB_PROG
  /-- HBM_STACK (R277) -/
  | HBM_STACK
  /-- HBM_PC_FAILED (R277) -/
  | HBM_PC_FAILED
  /-- ABR_CTRL (R314) -/
  | ABR_CTRL
  /-- ABR_E2E_CTRL (R314) -/
  | ABR_E2E_CTRL
  /-- ABR_FAB_ERR (R315) -/
  | ABR_FAB_ERR
  /-- ABR_FAB_ERR_CNT (R315) -/
  | ABR_FAB_ERR_CNT
  /-- ABR_E2E_STATS (R318) -/
  | ABR_E2E_STATS
  /-- ABR_ATOM_STATS (R318) -/
  | ABR_ATOM_STATS
  /-- ABR_PORT_STATUS (R316) -/
  | ABR_PORT_STATUS
  /-- ABR_PORT_CNT (R316) -/
  | ABR_PORT_CNT
  /-- ABR_LEVEL (R317) -/
  | ABR_LEVEL
  /-- ABR_DETOUR (R317) -/
  | ABR_DETOUR
  /-- ABR_EPOCH (R439) -/
  | ABR_EPOCH
  /-- ABR_EPOCH_MARK (R439) -/
  | ABR_EPOCH_MARK
  /-- ABR_EPOCH_CTRL (R439) -/
  | ABR_EPOCH_CTRL
  /-- ABR_GRP_W0 (R238) -/
  | ABR_GRP_W0
  /-- ABR_GRP_W1 (R238) -/
  | ABR_GRP_W1
  /-- ABR_GRP_W2 (R238) -/
  | ABR_GRP_W2
  /-- ABR_EXP_W0 (R239) -/
  | ABR_EXP_W0
  /-- ABR_EXP_W1 (R239) -/
  | ABR_EXP_W1
  /-- ABR_EXP_W2 (R239) -/
  | ABR_EXP_W2
  /-- ABR_EXP_W3 (R239) -/
  | ABR_EXP_W3
  /-- ABR_COLL_ABORT (R240) -/
  | ABR_COLL_ABORT
  /-- ABR_COLL_ABORT_CNT (R240) -/
  | ABR_COLL_ABORT_CNT
  /-- ABR_COLL_STATS (R240) -/
  | ABR_COLL_STATS
  /-- OPT_FLAGS (R348) -/
  | OPT_FLAGS
  /-- OPT_FADE_CNT (R348) -/
  | OPT_FADE_CNT
  /-- OPT_WRONG_LINE_CNT (R348) -/
  | OPT_WRONG_LINE_CNT
  /-- OPT_WRONG_LINE_LOG (R348) -/
  | OPT_WRONG_LINE_LOG
  /-- OPT_CIRCUIT (R349) -/
  | OPT_CIRCUIT
  /-- OPT_CIRCUIT_MARK (R349) -/
  | OPT_CIRCUIT_MARK
  /-- OPT_ENG_STATUS (R350) -/
  | OPT_ENG_STATUS
  /-- OPT_PORT_FEC (R350) -/
  | OPT_PORT_FEC
  /-- OPT_PATCH_PROG (R351) -/
  | OPT_PATCH_PROG
  /-- OPT_LANE (R352) -/
  | OPT_LANE
  /-- OPT_LASER (R353) -/
  | OPT_LASER
  /-- OPT_FW_CTRL (R35) -/
  | OPT_FW_CTRL
  /-- OPT_FW_WIN (R35) -/
  | OPT_FW_WIN
  /-- OPT_FW_STATUS (R36) -/
  | OPT_FW_STATUS
  /-- SCR_COUNT (R375) -/
  | SCR_COUNT
  /-- SCR_STATUS (R375) -/
  | SCR_STATUS
  /-- SCR_FLAGS (R375) -/
  | SCR_FLAGS
  /-- SCR_REF_LOST_CNT (R375) -/
  | SCR_REF_LOST_CNT
  /-- SCR_REF_FREQ (R375) -/
  | SCR_REF_FREQ
  /-- SCR_SYNC (R376) -/
  | SCR_SYNC
  /-- SCR_SET (R376) -/
  | SCR_SET
  /-- SCR_LAUNCH (R376) -/
  | SCR_LAUNCH
  /-- SCR_CAL (R377) -/
  | SCR_CAL
  /-- SCR_CAL_ALARM (R377) -/
  | SCR_CAL_ALARM
  /-- SCR_CAL_STATUS (R377) -/
  | SCR_CAL_STATUS
  /-- SCR_LATCH (R377) -/
  | SCR_LATCH
  /-- SCR_LATCH_COUNT (R377) -/
  | SCR_LATCH_COUNT
  /-- SCR_LATCH_CAL (R377) -/
  | SCR_LATCH_CAL
  /-- SCR_ASYM (R376) -/
  | SCR_ASYM
  /-- LDG_STEP (R402) -/
  | LDG_STEP
  /-- LDG_STEP_STATUS (R402) -/
  | LDG_STEP_STATUS
  /-- LDG_DIGEST_CTRL (R403) -/
  | LDG_DIGEST_CTRL
  /-- LDG_DIGEST_PROG (R403) -/
  | LDG_DIGEST_PROG
  /-- LDG_REGION_A (R403) -/
  | LDG_REGION_A
  /-- LDG_REGION_B (R403) -/
  | LDG_REGION_B
  /-- LDG_RNG_KEY (R404) -/
  | LDG_RNG_KEY
  /-- LDG_RNG_CTR (R404) -/
  | LDG_RNG_CTR
  /-- LDG_PLUMB (R405) -/
  | LDG_PLUMB
  /-- LDG_PLUMB_START (R405) -/
  | LDG_PLUMB_START
  /-- LDG_PLUMB_REP0 (R405) -/
  | LDG_PLUMB_REP0
  /-- LDG_PLUMB_REP1 (R405) -/
  | LDG_PLUMB_REP1
  /-- LDG_PLUMB_REP2 (R405) -/
  | LDG_PLUMB_REP2
  /-- LDG_PLUMB_STOP (R405) -/
  | LDG_PLUMB_STOP
  /-- LDG_PLUMB_STATS (R405) -/
  | LDG_PLUMB_STATS
  /-- LDG_CLASS_DIG (R403) -/
  | LDG_CLASS_DIG
  /-- LDG_BASTE_CTRL (R435) -/
  | LDG_BASTE_CTRL
  /-- LDG_RES (R435) -/
  | LDG_RES
  /-- LDG_BASTE_STATUS (R436) -/
  | LDG_BASTE_STATUS
  /-- LDG_BASTE_PROG (R437) -/
  | LDG_BASTE_PROG
  /-- LDG_BASTE_STATS (R436) -/
  | LDG_BASTE_STATS
  /-- LDG_RISK (R436) -/
  | LDG_RISK
  /-- LDG_CURSOR (R438) -/
  | LDG_CURSOR
  /-- LDG_HEM_PROG (R437) -/
  | LDG_HEM_PROG
  /-- LDG_RESTORE_PROG (R437) -/
  | LDG_RESTORE_PROG
  /-- LDG_RESTORE_STATUS (R438) -/
  | LDG_RESTORE_STATUS
  /-- LDG_SEC_A (R438) -/
  | LDG_SEC_A
  /-- LDG_SEC_B (R438) -/
  | LDG_SEC_B
  /-- MSC_HBM1500_PERMIT (R39) -/
  | MSC_HBM1500_PERMIT
  /-- MSC_LEASE (R440) -/
  | MSC_LEASE
  /-- MSC_LEASE_CNT (R440) -/
  | MSC_LEASE_CNT
  /-- MSC_FW_STATUS (R496) -/
  | MSC_FW_STATUS
  /-- MSC_ACC_DENY (R494) -/
  | MSC_ACC_DENY
  /-- MSC_ACC_DENY_CNT (R494) -/
  | MSC_ACC_DENY_CNT
  /-- MSC_FW_VERSION (R496) -/
  | MSC_FW_VERSION
  /-- MSC_MEAS_EXT (R496) -/
  | MSC_MEAS_EXT
  /-- MSC_MEAS_DATA (R496) -/
  | MSC_MEAS_DATA
  /-- MSC_MEAS (R496) -/
  | MSC_MEAS
  /-- MSC_PEER_RANGE (R494) -/
  | MSC_PEER_RANGE
  /-- MSC_BAY_GROUP (R494) -/
  | MSC_BAY_GROUP
  /-- MSC_STRAP (R543) -/
  | MSC_STRAP
  /-- MSC_STRAP_CNT (R543) -/
  | MSC_STRAP_CNT
  /-- MSC_MGMT (R543) -/
  | MSC_MGMT
  /-- MSC_MGMT_ERR (R543) -/
  | MSC_MGMT_ERR
  /-- MSC_ACC_CTRL (R492) -/
  | MSC_ACC_CTRL
  /-- MSC_ACC_A (R491) -/
  | MSC_ACC_A
  /-- MSC_ACC_B (R491) -/
  | MSC_ACC_B
  /-- MSC_HOST_ID (R468) -/
  | MSC_HOST_ID
  /-- MSC_STATE (R468) -/
  | MSC_STATE
  /-- MSC_EVENT (R469) -/
  | MSC_EVENT
  /-- MSC_EVENT_CNT (R469) -/
  | MSC_EVENT_CNT
  /-- MSC_HOST_ERR (R469) -/
  | MSC_HOST_ERR
  /-- MSC_HOST_ERR_CNT (R469) -/
  | MSC_HOST_ERR_CNT
  /-- MSC_LOAD_PROG (R469) -/
  | MSC_LOAD_PROG
  /-- MSC_FW_PROG (R469) -/
  | MSC_FW_PROG
  /-- MSC_DBG_WIN (R470) -/
  | MSC_DBG_WIN
  /-- MSC_SQ_BASE (R471) -/
  | MSC_SQ_BASE
  /-- MSC_SQ_CFG (R471) -/
  | MSC_SQ_CFG
  /-- MSC_CQ_BASE (R471) -/
  | MSC_CQ_BASE
  /-- MSC_CQ_CFG (R471) -/
  | MSC_CQ_CFG
  /-- MSC_SQ_TAIL (R472) -/
  | MSC_SQ_TAIL
  /-- MSC_CQ_HEAD (R472) -/
  | MSC_CQ_HEAD
  /-- MSC_SQ_STATUS (R472) -/
  | MSC_SQ_STATUS
  /-- MSC_MBX_CTRL (R479) -/
  | MSC_MBX_CTRL
  /-- MSC_MBX_STATUS (R479) -/
  | MSC_MBX_STATUS
  /-- MSC_MBX_DATA (R479) -/
  | MSC_MBX_DATA
  /-- MSC_MSIX_ADDR (R446) -/
  | MSC_MSIX_ADDR
  /-- MSC_MSIX_CTRL (R446) -/
  | MSC_MSIX_CTRL
  /-- MSC_MSIX_PBA (R446) -/
  | MSC_MSIX_PBA
  /-- TPC_TEMP (R521) -/
  | TPC_TEMP
  /-- TPC_TEMP_DIE (R521) -/
  | TPC_TEMP_DIE
  /-- TPC_TEMP_HDR (R521) -/
  | TPC_TEMP_HDR
  /-- TPC_LEVELS (R521) -/
  | TPC_LEVELS
  /-- TPC_CLOCK (R522) -/
  | TPC_CLOCK
  /-- TPC_DVFS (R522) -/
  | TPC_DVFS
  /-- TPC_POWER (R523) -/
  | TPC_POWER
  /-- TPC_SHUTDOWN (R523) -/
  | TPC_SHUTDOWN
  /-- TPC_FLAGS (R524) -/
  | TPC_FLAGS
  /-- TPC_LEVEL_CNT (R524) -/
  | TPC_LEVEL_CNT
  /-- TPC_MARGIN_LOW_CNT (R524) -/
  | TPC_MARGIN_LOW_CNT
  /-- TPC_SENSOR_FAULT (R524) -/
  | TPC_SENSOR_FAULT
  /-- TPC_PATROL (R525) -/
  | TPC_PATROL
  /-- TPC_PATROL_LIM (R525) -/
  | TPC_PATROL_LIM
  /-- TPC_WAKE (R525) -/
  | TPC_WAKE
  /-- TPC_AGE (R526) -/
  | TPC_AGE
  /-- TPC_AGE_SHARE (R526) -/
  | TPC_AGE_SHARE
  /-- TPC_AGE_SUPPLY (R526) -/
  | TPC_AGE_SUPPLY
  deriving DecidableEq, Repr

/-- Place and fields of each register kind. Reserved bits have no row: they read as zero and ignore writes (R12). A
reset value that the spec does not state as a number is zero here; `regResetAt` gives it. -/
def RegId.spec : RegId → RegSpec
  | .BAY_CTRL => ⟨0x1f000000000, 1024, 0x4000, 1, 0x8,
    [⟨2, 2, .wo, 0⟩, ⟨1, 1, .rw, 0⟩, ⟨0, 0, .wo, 0⟩]⟩
  | .BAY_MAIN_PC => ⟨0x1f000000008, 1024, 0x4000, 1, 0x8,
    [⟨19, 3, .rw, 0⟩]⟩
  | .BAY_SEAM_PC => ⟨0x1f000000010, 1024, 0x4000, 1, 0x8,
    [⟨19, 3, .rw, 0⟩]⟩
  | .BAY_TRAP_EN => ⟨0x1f000000018, 1024, 0x4000, 1, 0x8,
    [⟨3, 3, .rw, 0⟩, ⟨2, 2, .rw, 0⟩, ⟨1, 1, .rw, 0⟩, ⟨0, 0, .rw, 0⟩]⟩
  | .BAY_MAIN_STATUS => ⟨0x1f000000020, 1024, 0x4000, 1, 0x8,
    [⟨63, 44, .ro, 0⟩, ⟨43, 32, .ro, 0⟩, ⟨31, 24, .ro, 0⟩, ⟨23, 20, .ro, 0⟩, ⟨19, 16, .ro, 0⟩, ⟨15, 15, .ro, 0⟩, ⟨12, 8, .ro, 0⟩, ⟨2, 0, .ro, 0⟩]⟩
  | .BAY_SEAM_STATUS => ⟨0x1f000000028, 1024, 0x4000, 1, 0x8,
    [⟨63, 44, .ro, 0⟩, ⟨43, 32, .ro, 0⟩, ⟨31, 24, .ro, 0⟩, ⟨23, 20, .ro, 0⟩, ⟨19, 16, .ro, 0⟩, ⟨15, 15, .ro, 0⟩, ⟨12, 8, .ro, 0⟩, ⟨2, 0, .ro, 0⟩]⟩
  | .BAY_MSG_ERR => ⟨0x1f000000030, 1024, 0x4000, 1, 0x8,
    [⟨63, 63, .w1c, 0⟩, ⟨62, 62, .ro, 0⟩, ⟨55, 48, .ro, 0⟩, ⟨47, 40, .ro, 0⟩, ⟨39, 24, .ro, 0⟩]⟩
  | .BAY_MSG_ERR_CNT => ⟨0x1f000000038, 1024, 0x4000, 1, 0x8,
    [⟨31, 0, .ro, 0⟩]⟩
  | .BAY_MEM_ECC => ⟨0x1f000000040, 1024, 0x4000, 1, 0x8,
    [⟨63, 32, .ro, 0⟩, ⟨31, 0, .ro, 0⟩]⟩
  | .BAY_QUEUE => ⟨0x1f000000048, 1024, 0x4000, 1, 0x8,
    [⟨40, 32, .ro, 0⟩, ⟨30, 24, .ro, 0⟩, ⟨19, 16, .ro, 0⟩, ⟨13, 8, .ro, 0⟩, ⟨5, 0, .ro, 0⟩]⟩
  | .PRS_FLAGS => ⟨0x1f001000000, 1024, 0x4000, 1, 0x8,
    [⟨0, 0, .w1c, 0⟩]⟩
  | .PRS_ACC_SAT_CNT => ⟨0x1f001000008, 1024, 0x4000, 1, 0x8,
    [⟨31, 0, .ro, 0⟩]⟩
  | .PRS_UFLOW_CNT => ⟨0x1f001000010, 1024, 0x4000, 1, 0x8,
    [⟨63, 0, .ro, 0⟩]⟩
  | .PRS_BANK => ⟨0x1f001000018, 1024, 0x4000, 1, 0x8,
    [⟨63, 32, .ro, 0⟩, ⟨12, 12, .ro, 0⟩, ⟨11, 8, .ro, 4⟩, ⟨4, 4, .ro, 0⟩, ⟨3, 0, .ro, 4⟩]⟩
  | .PRS_FED => ⟨0x1f001000020, 1024, 0x4000, 1, 0x8,
    [⟨63, 0, .ro, 0⟩]⟩
  | .PRS_SKIPS => ⟨0x1f001000028, 1024, 0x4000, 1, 0x8,
    [⟨63, 32, .ro, 0⟩, ⟨31, 0, .ro, 0⟩]⟩
  | .PRS_ECC => ⟨0x1f001000030, 1024, 0x4000, 1, 0x8,
    [⟨63, 32, .ro, 0⟩, ⟨31, 0, .ro, 0⟩]⟩
  | .PRS_WIN0 => ⟨0x1f001000100, 1024, 0x4000, 1, 0x8,
    [⟨24, 24, .ro, 0⟩, ⟨21, 16, .ro, 0⟩, ⟨9, 0, .ro, 0⟩]⟩
  | .PRS_WIN1 => ⟨0x1f001000108, 1024, 0x4000, 1, 0x8,
    [⟨24, 24, .ro, 0⟩, ⟨21, 16, .ro, 0⟩, ⟨9, 0, .ro, 0⟩]⟩
  | .PRS_NAR_CNT => ⟨0x1f001000110, 1024, 0x4000, 1, 0x8,
    [⟨31, 0, .ro, 0⟩]⟩
  | .PRS_ROWWIN_SEL => ⟨0x1f001000118, 1024, 0x4000, 1, 0x8,
    [⟨7, 7, .rw, 0⟩, ⟨6, 0, .rw, 0⟩]⟩
  | .PRS_ROWWIN => ⟨0x1f001000120, 1024, 0x4000, 1, 0x8,
    [⟨63, 63, .ro, 1⟩, ⟨9, 0, .ro, 0⟩]⟩
  | .VEC_FLAGS => ⟨0x1f002000000, 1024, 0x4000, 1, 0x8,
    [⟨2, 2, .w1c, 0⟩, ⟨1, 1, .w1c, 0⟩, ⟨0, 0, .w1c, 0⟩]⟩
  | .VEC_LANE_RANGE_CNT => ⟨0x1f002000008, 1024, 0x4000, 1, 0x8,
    [⟨31, 0, .ro, 0⟩]⟩
  | .VEC_EMPTY_ROW_CNT => ⟨0x1f002000010, 1024, 0x4000, 1, 0x8,
    [⟨31, 0, .ro, 0⟩]⟩
  | .VEC_NAN_ROW_CNT => ⟨0x1f002000018, 1024, 0x4000, 1, 0x8,
    [⟨31, 0, .ro, 0⟩]⟩
  | .VEC_VL => ⟨0x1f002000020, 1024, 0x4000, 1, 0x8,
    [⟨40, 32, .ro, 0⟩, ⟨8, 0, .ro, 0⟩]⟩
  | .SIL_LINK_STATUS => ⟨0x1f003000100, 1, 0x8, 1, 0x8,
    [⟨63, 32, .ro, 0⟩, ⟨7, 4, .ro, 0⟩, ⟨3, 0, .ro, 0⟩]⟩
  | .LLS_SEG => ⟨0x1f004000000, 64, 0x8, 1, 0x8,
    [⟨1, 1, .ro, 0⟩, ⟨0, 0, .rw, 0⟩]⟩
  | .LLS_STATS => ⟨0x1f004000200, 4, 0x8, 1, 0x8,
    [⟨63, 32, .ro, 0⟩, ⟨31, 0, .ro, 0⟩]⟩
  | .LLS_ECC => ⟨0x1f004000220, 1, 0x8, 1, 0x8,
    [⟨63, 32, .ro, 0⟩, ⟨31, 0, .ro, 0⟩]⟩
  | .HBM_BAND => ⟨0x1f005000000, 256, 0x8, 1, 0x8,
    [⟨2, 2, .ro, 0⟩, ⟨1, 1, .rw, 1⟩, ⟨0, 0, .rw, 0⟩]⟩
  | .HBM_CAP => ⟨0x1f005001000, 1, 0x8, 1, 0x8,
    [⟨40, 32, .ro, 256⟩, ⟨20, 16, .ro, 0⟩, ⟨8, 0, .ro, 256⟩]⟩
  | .HBM_UE_LOG => ⟨0x1f005001008, 1, 0x8, 1, 0x8,
    [⟨63, 63, .w1c, 0⟩, ⟨62, 60, .ro, 0⟩, ⟨55, 48, .ro, 0⟩, ⟨47, 0, .ro, 0⟩]⟩
  | .HBM_ECC => ⟨0x1f005001010, 1, 0x8, 1, 0x8,
    [⟨63, 32, .ro, 0⟩, ⟨31, 0, .ro, 0⟩]⟩
  | .HBM_FOLD_CTRL => ⟨0x1f005001018, 1, 0x8, 1, 0x8,
    [⟨15, 8, .rw, 10⟩, ⟨1, 1, .ro, 0⟩, ⟨0, 0, .rw, 1⟩]⟩
  | .HBM_FOLD_PROG => ⟨0x1f005001020, 1, 0x8, 1, 0x8,
    [⟨63, 48, .ro, 0⟩, ⟨47, 46, .ro, 0⟩, ⟨39, 32, .ro, 0⟩, ⟨31, 0, .ro, 0⟩]⟩
  | .HBM_FOLD_LOST => ⟨0x1f005001028, 1, 0x8, 1, 0x8,
    [⟨31, 0, .ro, 0⟩]⟩
  | .HBM_SCRUB => ⟨0x1f005001030, 1, 0x8, 1, 0x8,
    [⟨7, 0, .rw, 24⟩]⟩
  | .HBM_SCRUB_PROG => ⟨0x1f005001038, 1, 0x8, 1, 0x8,
    [⟨63, 48, .ro, 0⟩, ⟨47, 46, .ro, 0⟩, ⟨39, 32, .ro, 0⟩, ⟨31, 0, .ro, 0⟩]⟩
  | .HBM_STACK => ⟨0x1f005001040, 8, 0x8, 1, 0x8,
    [⟨63, 32, .ro, 0⟩, ⟨31, 16, .ro, 0⟩, ⟨9, 8, .ro, 0⟩, ⟨7, 0, .ro, 0⟩]⟩
  | .HBM_PC_FAILED => ⟨0x1f005001080, 4, 0x8, 1, 0x8,
    [⟨63, 0, .ro, 0⟩]⟩
  | .ABR_CTRL => ⟨0x1f006000000, 1, 0x8, 1, 0x8,
    [⟨7, 5, .ro, 0⟩, ⟨0, 0, .ro, 0⟩]⟩
  | .ABR_E2E_CTRL => ⟨0x1f006000008, 1, 0x8, 1, 0x8,
    [⟨47, 32, .rw, 32⟩, ⟨31, 16, .rw, 100⟩, ⟨0, 0, .rw, 1⟩]⟩
  | .ABR_FAB_ERR => ⟨0x1f006000010, 1, 0x8, 1, 0x8,
    [⟨63, 63, .w1c, 0⟩, ⟨55, 48, .ro, 0⟩, ⟨47, 32, .ro, 0⟩, ⟨31, 28, .ro, 0⟩]⟩
  | .ABR_FAB_ERR_CNT => ⟨0x1f006000018, 1, 0x8, 1, 0x8,
    [⟨31, 0, .ro, 0⟩]⟩
  | .ABR_E2E_STATS => ⟨0x1f006000020, 1, 0x8, 1, 0x8,
    [⟨63, 48, .ro, 0⟩, ⟨47, 32, .ro, 0⟩, ⟨31, 0, .ro, 0⟩]⟩
  | .ABR_ATOM_STATS => ⟨0x1f006000028, 1, 0x8, 1, 0x8,
    [⟨63, 48, .ro, 0⟩, ⟨47, 32, .ro, 0⟩, ⟨31, 16, .ro, 0⟩, ⟨15, 0, .ro, 0⟩]⟩
  | .ABR_PORT_STATUS => ⟨0x1f006000100, 16, 0x8, 1, 0x8,
    [⟨63, 63, .ro, 0⟩, ⟨62, 62, .ro, 0⟩, ⟨61, 60, .ro, 0⟩, ⟨59, 56, .ro, 0⟩, ⟨55, 40, .ro, 0⟩, ⟨39, 36, .ro, 0⟩]⟩
  | .ABR_PORT_CNT => ⟨0x1f006000200, 16, 0x8, 1, 0x8,
    [⟨63, 32, .ro, 0⟩, ⟨31, 0, .ro, 0⟩]⟩
  | .ABR_LEVEL => ⟨0x1f006010000, 4, 0x200, 64, 0x8,
    [⟨63, 63, .rw, 0⟩, ⟨34, 32, .rw, 0⟩, ⟨15, 0, .rw, 0⟩]⟩
  | .ABR_DETOUR => ⟨0x1f006020000, 4096, 0x8, 1, 0x8,
    [⟨63, 62, .rw, 0⟩, ⟨7, 4, .rw, 0⟩, ⟨2, 0, .rw, 0⟩]⟩
  | .ABR_EPOCH => ⟨0x1f006030000, 1, 0x8, 1, 0x8,
    [⟨63, 32, .ro, 0⟩, ⟨31, 0, .rw, 0⟩]⟩
  | .ABR_EPOCH_MARK => ⟨0x1f006030008, 1, 0x8, 1, 0x8,
    [⟨63, 0, .rw, 0⟩]⟩
  | .ABR_EPOCH_CTRL => ⟨0x1f006030010, 1, 0x8, 1, 0x8,
    [⟨63, 63, .wo, 0⟩, ⟨62, 61, .ro, 0⟩, ⟨31, 0, .ro, 0⟩]⟩
  | .ABR_GRP_W0 => ⟨0x1f006800000, 4096, 0x20, 1, 0x8,
    [⟨63, 63, .rw, 0⟩, ⟨62, 61, .ro, 0⟩, ⟨55, 48, .ro, 0⟩, ⟨42, 40, .rw, 0⟩, ⟨31, 16, .rw, 0⟩, ⟨15, 0, .rw, 0⟩]⟩
  | .ABR_GRP_W1 => ⟨0x1f006800008, 4096, 0x20, 1, 0x8,
    [⟨63, 32, .rw, 0⟩, ⟨15, 0, .ro, 0⟩]⟩
  | .ABR_GRP_W2 => ⟨0x1f006800010, 4096, 0x20, 1, 0x8,
    [⟨47, 0, .rw, 0⟩]⟩
  | .ABR_EXP_W0 => ⟨0x1f006a00000, 32768, 0x20, 1, 0x8,
    [⟨63, 63, .rw, 0⟩, ⟨55, 48, .rw, 0⟩, ⟨47, 32, .rw, 0⟩, ⟨25, 16, .rw, 0⟩]⟩
  | .ABR_EXP_W1 => ⟨0x1f006a00008, 32768, 0x20, 1, 0x8,
    [⟨47, 0, .rw, 0⟩]⟩
  | .ABR_EXP_W2 => ⟨0x1f006a00010, 32768, 0x20, 1, 0x8,
    [⟨47, 0, .rw, 0⟩]⟩
  | .ABR_EXP_W3 => ⟨0x1f006a00018, 32768, 0x20, 1, 0x8,
    [⟨63, 48, .rw, 0⟩, ⟨23, 0, .rw, 0⟩]⟩
  | .ABR_COLL_ABORT => ⟨0x1f006c00000, 1, 0x8, 1, 0x8,
    [⟨63, 63, .w1c, 0⟩, ⟨55, 48, .ro, 0⟩, ⟨47, 36, .ro, 0⟩, ⟨31, 16, .ro, 0⟩, ⟨15, 0, .ro, 0⟩]⟩
  | .ABR_COLL_ABORT_CNT => ⟨0x1f006c00008, 1, 0x8, 1, 0x8,
    [⟨31, 0, .ro, 0⟩]⟩
  | .ABR_COLL_STATS => ⟨0x1f006c00010, 1, 0x8, 1, 0x8,
    [⟨63, 48, .ro, 0⟩, ⟨47, 32, .ro, 0⟩, ⟨31, 0, .ro, 0⟩]⟩
  | .OPT_FLAGS => ⟨0x1f007000000, 1, 0x8, 1, 0x8,
    [⟨1, 1, .w1c, 0⟩, ⟨0, 0, .w1c, 0⟩]⟩
  | .OPT_FADE_CNT => ⟨0x1f007000008, 1, 0x8, 1, 0x8,
    [⟨31, 0, .ro, 0⟩]⟩
  | .OPT_WRONG_LINE_CNT => ⟨0x1f007000010, 1, 0x8, 1, 0x8,
    [⟨31, 0, .ro, 0⟩]⟩
  | .OPT_WRONG_LINE_LOG => ⟨0x1f007000018, 1, 0x8, 1, 0x8,
    [⟨63, 63, .w1c, 0⟩, ⟨58, 56, .ro, 0⟩, ⟨55, 48, .ro, 0⟩, ⟨36, 32, .ro, 0⟩, ⟨4, 0, .ro, 0⟩]⟩
  | .OPT_CIRCUIT => ⟨0x1f007000020, 1, 0x8, 1, 0x8,
    [⟨63, 63, .wo, 0⟩, ⟨62, 61, .ro, 0⟩, ⟨55, 48, .ro, 0⟩, ⟨47, 32, .ro, 0⟩, ⟨15, 0, .rw, 0⟩]⟩
  | .OPT_CIRCUIT_MARK => ⟨0x1f007000028, 1, 0x8, 1, 0x8,
    [⟨63, 0, .rw, 0⟩]⟩
  | .OPT_ENG_STATUS => ⟨0x1f007000100, 8, 0x8, 1, 0x8,
    [⟨63, 61, .ro, 4⟩, ⟨54, 48, .ro, 0⟩, ⟨39, 32, .ro, 0⟩, ⟨21, 21, .ro, 0⟩, ⟨20, 20, .ro, 0⟩, ⟨13, 8, .ro, 0⟩, ⟨1, 1, .ro, 0⟩, ⟨0, 0, .ro, 0⟩]⟩
  | .OPT_PORT_FEC => ⟨0x1f007000200, 16, 0x8, 1, 0x8,
    [⟨63, 32, .ro, 0⟩, ⟨31, 0, .ro, 0⟩]⟩
  | .OPT_PATCH_PROG => ⟨0x1f007000300, 8, 0x8, 1, 0x8,
    [⟨63, 61, .ro, 0⟩, ⟨57, 56, .ro, 0⟩, ⟨53, 53, .ro, 0⟩, ⟨52, 48, .ro, 0⟩, ⟨31, 0, .ro, 0⟩]⟩
  | .OPT_LANE => ⟨0x1f007010000, 16, 0x80, 16, 0x8,
    [⟨63, 61, .ro, 0⟩, ⟨60, 59, .ro, 0⟩, ⟨58, 57, .ro, 0⟩, ⟨55, 48, .ro, 0⟩, ⟨47, 47, .ro, 0⟩, ⟨46, 45, .ro, 0⟩, ⟨31, 16, .ro, 0⟩, ⟨15, 0, .ro, 0⟩]⟩
  | .OPT_LASER => ⟨0x1f007020000, 8, 0x200, 37, 0x8,
    [⟨63, 62, .ro, 0⟩, ⟨61, 59, .ro, 0⟩, ⟨47, 32, .ro, 0⟩, ⟨31, 16, .ro, 0⟩, ⟨4, 0, .ro, 31⟩]⟩
  | .OPT_FW_CTRL => ⟨0x1f0070f0000, 1, 0x8, 1, 0x8,
    [⟨8, 8, .rw1s, 0⟩, ⟨7, 0, .rw, 0⟩]⟩
  | .OPT_FW_WIN => ⟨0x1f0070f0100, 8, 0x40, 8, 0x8,
    [⟨63, 63, .rw, 0⟩, ⟨62, 62, .rw, 0⟩, ⟨61, 61, .rw, 0⟩, ⟨31, 16, .rw, 0⟩, ⟨15, 0, .rw, 0⟩]⟩
  | .OPT_FW_STATUS => ⟨0x1f0070f0400, 8, 0x8, 1, 0x8,
    [⟨63, 32, .ro, 0⟩, ⟨31, 0, .ro, 0⟩]⟩
  | .SCR_COUNT => ⟨0x1f008000000, 1, 0x8, 1, 0x8,
    [⟨63, 0, .ro, 0⟩]⟩
  | .SCR_STATUS => ⟨0x1f008000008, 1, 0x8, 1, 0x8,
    [⟨63, 63, .ro, 0⟩, ⟨62, 62, .ro, 0⟩, ⟨61, 61, .ro, 0⟩, ⟨47, 32, .ro, 0⟩, ⟨31, 16, .ro, 0⟩, ⟨15, 0, .ro, 0⟩]⟩
  | .SCR_FLAGS => ⟨0x1f008000010, 1, 0x8, 1, 0x8,
    [⟨0, 0, .w1c, 0⟩]⟩
  | .SCR_REF_LOST_CNT => ⟨0x1f008000018, 1, 0x8, 1, 0x8,
    [⟨31, 0, .ro, 0⟩]⟩
  | .SCR_REF_FREQ => ⟨0x1f008000020, 1, 0x8, 1, 0x8,
    [⟨31, 0, .ro, 0⟩]⟩
  | .SCR_SYNC => ⟨0x1f008000028, 1, 0x8, 1, 0x8,
    [⟨9, 8, .rw, 0⟩, ⟨7, 4, .rw, 15⟩, ⟨3, 0, .rw, 0⟩]⟩
  | .SCR_SET => ⟨0x1f008000030, 1, 0x8, 1, 0x8,
    [⟨63, 0, .wo, 0⟩]⟩
  | .SCR_LAUNCH => ⟨0x1f008000038, 1, 0x8, 1, 0x8,
    [⟨63, 48, .ro, 0⟩, ⟨47, 32, .ro, 0⟩, ⟨31, 0, .ro, 0⟩]⟩
  | .SCR_CAL => ⟨0x1f008000040, 1, 0x8, 1, 0x8,
    [⟨63, 16, .ro, 0⟩, ⟨15, 0, .ro, 0⟩]⟩
  | .SCR_CAL_ALARM => ⟨0x1f008000048, 1, 0x8, 1, 0x8,
    [⟨63, 0, .ro, 0⟩]⟩
  | .SCR_CAL_STATUS => ⟨0x1f008000050, 1, 0x8, 1, 0x8,
    [⟨3, 3, .ro, 0⟩, ⟨2, 2, .ro, 0⟩, ⟨1, 1, .ro, 0⟩, ⟨0, 0, .ro, 0⟩]⟩
  | .SCR_LATCH => ⟨0x1f008000058, 1, 0x8, 1, 0x8,
    [⟨1, 1, .ro, 0⟩, ⟨0, 0, .wo, 0⟩]⟩
  | .SCR_LATCH_COUNT => ⟨0x1f008000060, 1, 0x8, 1, 0x8,
    [⟨63, 0, .ro, 0⟩]⟩
  | .SCR_LATCH_CAL => ⟨0x1f008000068, 1, 0x8, 1, 0x8,
    [⟨63, 0, .ro, 0⟩]⟩
  | .SCR_ASYM => ⟨0x1f008000100, 16, 0x8, 1, 0x8,
    [⟨15, 0, .rw, 0⟩]⟩
  | .LDG_STEP => ⟨0x1f009000000, 1, 0x8, 1, 0x8,
    [⟨63, 63, .wo, 0⟩, ⟨47, 0, .rw, 0⟩]⟩
  | .LDG_STEP_STATUS => ⟨0x1f009000008, 1, 0x8, 1, 0x8,
    [⟨63, 63, .ro, 1⟩, ⟨62, 62, .ro, 1⟩, ⟨55, 48, .ro, 0⟩, ⟨31, 0, .ro, 0⟩]⟩
  | .LDG_DIGEST_CTRL => ⟨0x1f009000040, 1, 0x8, 1, 0x8,
    [⟨3, 3, .wo, 0⟩, ⟨2, 0, .rw, 0⟩]⟩
  | .LDG_DIGEST_PROG => ⟨0x1f009000048, 1, 0x8, 1, 0x8,
    [⟨63, 48, .ro, 0⟩, ⟨47, 46, .ro, 0⟩, ⟨39, 32, .ro, 0⟩, ⟨31, 0, .ro, 0⟩]⟩
  | .LDG_REGION_A => ⟨0x1f009000100, 64, 0x10, 1, 0x8,
    [⟨63, 63, .rw, 0⟩, ⟨62, 60, .rw, 0⟩, ⟨47, 0, .rw, 0⟩]⟩
  | .LDG_REGION_B => ⟨0x1f009000108, 64, 0x10, 1, 0x8,
    [⟨40, 0, .rw, 0⟩]⟩
  | .LDG_RNG_KEY => ⟨0x1f009000800, 64, 0x8, 1, 0x8,
    [⟨63, 0, .rw, 0⟩]⟩
  | .LDG_RNG_CTR => ⟨0x1f009000a00, 64, 0x8, 1, 0x8,
    [⟨63, 0, .rw, 0⟩]⟩
  | .LDG_PLUMB => ⟨0x1f009001000, 1, 0x8, 1, 0x8,
    [⟨63, 63, .rw, 0⟩, ⟨62, 60, .ro, 0⟩, ⟨55, 48, .ro, 0⟩, ⟨47, 32, .rw, 0⟩]⟩
  | .LDG_PLUMB_START => ⟨0x1f009001008, 1, 0x8, 1, 0x8,
    [⟨63, 0, .rw, 0⟩]⟩
  | .LDG_PLUMB_REP0 => ⟨0x1f009001010, 1, 0x8, 1, 0x8,
    [⟨63, 63, .w1c, 0⟩, ⟨62, 61, .ro, 0⟩, ⟨57, 48, .ro, 0⟩, ⟨47, 0, .ro, 0⟩]⟩
  | .LDG_PLUMB_REP1 => ⟨0x1f009001018, 1, 0x8, 1, 0x8,
    [⟨63, 44, .ro, 0⟩, ⟨43, 24, .ro, 0⟩, ⟨23, 0, .ro, 0⟩]⟩
  | .LDG_PLUMB_REP2 => ⟨0x1f009001020, 1, 0x8, 1, 0x8,
    [⟨63, 32, .ro, 0⟩, ⟨11, 0, .ro, 0⟩]⟩
  | .LDG_PLUMB_STOP => ⟨0x1f009001028, 1, 0x8, 1, 0x8,
    [⟨63, 0, .ro, 0⟩]⟩
  | .LDG_PLUMB_STATS => ⟨0x1f009001030, 1, 0x8, 1, 0x8,
    [⟨63, 32, .ro, 0⟩, ⟨31, 16, .ro, 0⟩, ⟨15, 0, .ro, 0⟩]⟩
  | .LDG_CLASS_DIG => ⟨0x1f009002000, 4, 0x40, 8, 0x8,
    [⟨63, 0, .ro, 0⟩]⟩
  | .LDG_BASTE_CTRL => ⟨0x1f009003000, 1, 0x8, 1, 0x8,
    [⟨63, 63, .wo, 0⟩, ⟨62, 62, .rw, 0⟩, ⟨61, 61, .rw, 0⟩, ⟨47, 32, .rw, 0⟩, ⟨23, 16, .rw, 25⟩, ⟨12, 0, .rw, 64⟩]⟩
  | .LDG_RES => ⟨0x1f009003008, 1, 0x8, 1, 0x8,
    [⟨63, 48, .rw, 0⟩, ⟨47, 30, .rw, 0⟩, ⟨17, 9, .rw, 0⟩, ⟨8, 0, .rw, 0⟩]⟩
  | .LDG_BASTE_STATUS => ⟨0x1f009003010, 1, 0x8, 1, 0x8,
    [⟨63, 61, .ro, 0⟩, ⟨55, 48, .ro, 0⟩, ⟨47, 0, .ro, 0⟩]⟩
  | .LDG_BASTE_PROG => ⟨0x1f009003018, 1, 0x8, 1, 0x8,
    [⟨63, 48, .ro, 0⟩, ⟨47, 46, .ro, 0⟩, ⟨39, 32, .ro, 0⟩, ⟨31, 0, .ro, 0⟩]⟩
  | .LDG_BASTE_STATS => ⟨0x1f009003020, 1, 0x8, 1, 0x8,
    [⟨63, 63, .ro, 0⟩, ⟨47, 32, .ro, 0⟩, ⟨31, 16, .ro, 0⟩, ⟨15, 0, .ro, 0⟩]⟩
  | .LDG_RISK => ⟨0x1f009003028, 1, 0x8, 1, 0x8,
    [⟨63, 56, .ro, 0⟩, ⟨55, 48, .ro, 0⟩, ⟨47, 40, .ro, 0⟩, ⟨39, 32, .ro, 0⟩, ⟨31, 24, .ro, 0⟩, ⟨23, 16, .ro, 0⟩, ⟨15, 8, .rw, 0⟩]⟩
  | .LDG_CURSOR => ⟨0x1f009003030, 1, 0x8, 1, 0x8,
    [⟨63, 0, .rw, 0⟩]⟩
  | .LDG_HEM_PROG => ⟨0x1f009003038, 1, 0x8, 1, 0x8,
    [⟨63, 48, .ro, 0⟩, ⟨47, 46, .ro, 0⟩, ⟨39, 32, .ro, 0⟩, ⟨31, 0, .ro, 0⟩]⟩
  | .LDG_RESTORE_PROG => ⟨0x1f009003040, 1, 0x8, 1, 0x8,
    [⟨63, 48, .ro, 0⟩, ⟨47, 46, .ro, 0⟩, ⟨39, 32, .ro, 0⟩, ⟨31, 0, .ro, 0⟩]⟩
  | .LDG_RESTORE_STATUS => ⟨0x1f009003048, 1, 0x8, 1, 0x8,
    [⟨63, 56, .ro, 255⟩, ⟨55, 48, .ro, 255⟩, ⟨47, 32, .ro, 0⟩, ⟨31, 16, .ro, 0⟩]⟩
  | .LDG_SEC_A => ⟨0x1f009003100, 64, 0x10, 1, 0x8,
    [⟨63, 63, .rw, 0⟩, ⟨62, 62, .rw, 0⟩, ⟨47, 0, .rw, 0⟩]⟩
  | .LDG_SEC_B => ⟨0x1f009003108, 64, 0x10, 1, 0x8,
    [⟨40, 0, .rw, 0⟩]⟩
  | .MSC_HBM1500_PERMIT => ⟨0x1f00a000200, 1, 0x8, 1, 0x8,
    [⟨7, 0, .rw1s, 0⟩]⟩
  | .MSC_LEASE => ⟨0x1f00a000300, 1, 0x8, 1, 0x8,
    [⟨63, 63, .ro, 0⟩, ⟨62, 60, .ro, 0⟩, ⟨47, 32, .ro, 2000⟩, ⟨31, 16, .ro, 500⟩, ⟨15, 0, .ro, 0⟩]⟩
  | .MSC_LEASE_CNT => ⟨0x1f00a000308, 1, 0x8, 1, 0x8,
    [⟨63, 32, .ro, 0⟩, ⟨31, 0, .ro, 0⟩]⟩
  | .MSC_FW_STATUS => ⟨0x1f00a000400, 1, 0x8, 1, 0x8,
    [⟨63, 56, .ro, 0⟩, ⟨55, 48, .ro, 0⟩, ⟨47, 46, .ro, 0⟩, ⟨45, 42, .ro, 0⟩, ⟨41, 40, .ro, 0⟩, ⟨2, 0, .ro, 0⟩]⟩
  | .MSC_ACC_DENY => ⟨0x1f00a000408, 1, 0x8, 1, 0x8,
    [⟨63, 63, .w1c, 0⟩, ⟨62, 58, .ro, 0⟩, ⟨57, 54, .ro, 0⟩, ⟨53, 43, .ro, 0⟩, ⟨39, 16, .ro, 0⟩, ⟨15, 0, .ro, 0⟩]⟩
  | .MSC_ACC_DENY_CNT => ⟨0x1f00a000410, 1, 0x8, 1, 0x8,
    [⟨31, 0, .ro, 0⟩]⟩
  | .MSC_FW_VERSION => ⟨0x1f00a000418, 1, 0x8, 1, 0x8,
    [⟨63, 0, .ro, 0⟩]⟩
  | .MSC_MEAS_EXT => ⟨0x1f00a000420, 1, 0x8, 1, 0x8,
    [⟨63, 63, .wo, 0⟩, ⟨2, 0, .rw, 5⟩]⟩
  | .MSC_MEAS_DATA => ⟨0x1f00a000500, 8, 0x8, 1, 0x8,
    [⟨63, 0, .rw, 0⟩]⟩
  | .MSC_MEAS => ⟨0x1f00a000600, 8, 0x40, 8, 0x8,
    [⟨63, 0, .ro, 0⟩]⟩
  | .MSC_PEER_RANGE => ⟨0x1f00a000800, 8, 0x8, 1, 0x8,
    [⟨63, 63, .rw, 0⟩, ⟨31, 16, .rw, 0⟩, ⟨15, 0, .rw, 0⟩]⟩
  | .MSC_BAY_GROUP => ⟨0x1f00a000900, 64, 0x8, 1, 0x8,
    [⟨63, 0, .rw, 0⟩]⟩
  | .MSC_STRAP => ⟨0x1f00a000b00, 1, 0x8, 1, 0x8,
    [⟨63, 63, .w1c, 0⟩, ⟨62, 60, .ro, 0⟩, ⟨20, 5, .ro, 0⟩, ⟨4, 2, .ro, 0⟩, ⟨1, 0, .ro, 0⟩]⟩
  | .MSC_STRAP_CNT => ⟨0x1f00a000b08, 1, 0x8, 1, 0x8,
    [⟨31, 0, .ro, 0⟩]⟩
  | .MSC_MGMT => ⟨0x1f00a000b10, 1, 0x8, 1, 0x8,
    [⟨63, 57, .ro, 0⟩, ⟨56, 50, .ro, 0⟩, ⟨49, 48, .ro, 0⟩, ⟨47, 47, .ro, 0⟩, ⟨46, 39, .ro, 0⟩, ⟨31, 0, .ro, 0⟩]⟩
  | .MSC_MGMT_ERR => ⟨0x1f00a000b18, 1, 0x8, 1, 0x8,
    [⟨63, 48, .ro, 0⟩, ⟨47, 32, .ro, 0⟩, ⟨31, 16, .ro, 0⟩, ⟨15, 0, .ro, 0⟩]⟩
  | .MSC_ACC_CTRL => ⟨0x1f00a300000, 1116, 0x8, 1, 0x8,
    [⟨63, 63, .rw1s, 0⟩, ⟨6, 0, .ro, 0⟩]⟩
  | .MSC_ACC_A => ⟨0x1f00a400000, 1116, 0x400, 64, 0x10,
    [⟨63, 63, .rw, 0⟩, ⟨62, 62, .rw, 0⟩, ⟨61, 61, .rw, 0⟩, ⟨60, 60, .rw, 0⟩, ⟨59, 59, .rw, 0⟩, ⟨27, 12, .rw, 0⟩, ⟨11, 4, .rw, 0⟩, ⟨3, 3, .rw, 0⟩, ⟨2, 2, .rw, 0⟩, ⟨1, 1, .rw, 0⟩, ⟨0, 0, .rw, 0⟩]⟩
  | .MSC_ACC_B => ⟨0x1f00a400008, 1116, 0x400, 64, 0x10,
    [⟨55, 32, .rw, 0⟩, ⟨23, 0, .rw, 0⟩]⟩
  | .MSC_HOST_ID => ⟨0x1f00a100000, 1, 0x8, 1, 0x8,
    [⟨31, 24, .ro, 16⟩, ⟨23, 16, .ro, 16⟩, ⟨15, 8, .ro, 64⟩, ⟨7, 0, .ro, 1⟩]⟩
  | .MSC_STATE => ⟨0x1f00a100008, 1, 0x8, 1, 0x8,
    [⟨7, 7, .ro, 0⟩, ⟨6, 6, .ro, 0⟩, ⟨3, 0, .ro, 2⟩]⟩
  | .MSC_EVENT => ⟨0x1f00a100010, 1, 0x8, 1, 0x8,
    [⟨1, 1, .w1c, 0⟩, ⟨0, 0, .w1c, 0⟩]⟩
  | .MSC_EVENT_CNT => ⟨0x1f00a100018, 1, 0x8, 1, 0x8,
    [⟨63, 32, .ro, 0⟩, ⟨31, 0, .ro, 0⟩]⟩
  | .MSC_HOST_ERR => ⟨0x1f00a100020, 1, 0x8, 1, 0x8,
    [⟨63, 63, .w1c, 0⟩, ⟨62, 60, .ro, 0⟩, ⟨59, 56, .ro, 0⟩, ⟨55, 48, .ro, 0⟩, ⟨47, 0, .ro, 0⟩]⟩
  | .MSC_HOST_ERR_CNT => ⟨0x1f00a100028, 1, 0x8, 1, 0x8,
    [⟨31, 0, .ro, 0⟩]⟩
  | .MSC_LOAD_PROG => ⟨0x1f00a100030, 1, 0x8, 1, 0x8,
    [⟨63, 48, .ro, 0⟩, ⟨47, 46, .ro, 0⟩, ⟨39, 32, .ro, 0⟩, ⟨31, 0, .ro, 0⟩]⟩
  | .MSC_FW_PROG => ⟨0x1f00a100038, 1, 0x8, 1, 0x8,
    [⟨63, 48, .ro, 0⟩, ⟨47, 46, .ro, 0⟩, ⟨39, 32, .ro, 0⟩, ⟨31, 0, .ro, 0⟩]⟩
  | .MSC_DBG_WIN => ⟨0x1f00a100040, 1, 0x8, 1, 0x8,
    [⟨63, 63, .rw, 0⟩, ⟨47, 28, .rw, 0⟩]⟩
  | .MSC_SQ_BASE => ⟨0x1f00a100100, 16, 0x20, 1, 0x8,
    [⟨63, 12, .rw, 0⟩]⟩
  | .MSC_SQ_CFG => ⟨0x1f00a100108, 16, 0x20, 1, 0x8,
    [⟨63, 63, .rw, 0⟩, ⟨62, 61, .ro, 0⟩, ⟨55, 52, .rw, 0⟩, ⟨51, 48, .rw, 1⟩, ⟨4, 0, .rw, 4⟩]⟩
  | .MSC_CQ_BASE => ⟨0x1f00a100110, 16, 0x20, 1, 0x8,
    [⟨63, 12, .rw, 0⟩]⟩
  | .MSC_CQ_CFG => ⟨0x1f00a100118, 16, 0x20, 1, 0x8,
    [⟨63, 63, .rw, 0⟩, ⟨62, 61, .ro, 0⟩, ⟨55, 50, .rw, 1⟩, ⟨49, 49, .rw, 0⟩, ⟨47, 32, .rw, 0⟩, ⟨31, 16, .rw, 1⟩, ⟨4, 0, .rw, 4⟩]⟩
  | .MSC_SQ_TAIL => ⟨0x1f00a101000, 16, 0x8, 1, 0x8,
    [⟨15, 0, .rw, 0⟩]⟩
  | .MSC_CQ_HEAD => ⟨0x1f00a101080, 16, 0x8, 1, 0x8,
    [⟨15, 0, .rw, 0⟩]⟩
  | .MSC_SQ_STATUS => ⟨0x1f00a102000, 16, 0x8, 1, 0x8,
    [⟨63, 48, .ro, 0⟩, ⟨42, 32, .ro, 0⟩, ⟨31, 0, .ro, 0⟩]⟩
  | .MSC_MBX_CTRL => ⟨0x1f00a104000, 1, 0x8, 1, 0x8,
    [⟨63, 63, .wo, 0⟩, ⟨62, 62, .wo, 0⟩, ⟨11, 0, .rw, 0⟩]⟩
  | .MSC_MBX_STATUS => ⟨0x1f00a104008, 1, 0x8, 1, 0x8,
    [⟨63, 63, .ro, 1⟩, ⟨55, 48, .ro, 0⟩, ⟨31, 0, .ro, 0⟩]⟩
  | .MSC_MBX_DATA => ⟨0x1f00a104800, 256, 0x8, 1, 0x8,
    [⟨63, 0, .rw, 0⟩]⟩
  | .MSC_MSIX_ADDR => ⟨0x1f00a108000, 64, 0x10, 1, 0x8,
    [⟨63, 0, .rw, 0⟩]⟩
  | .MSC_MSIX_CTRL => ⟨0x1f00a108008, 64, 0x10, 1, 0x8,
    [⟨32, 32, .rw, 0⟩, ⟨31, 0, .rw, 0⟩]⟩
  | .MSC_MSIX_PBA => ⟨0x1f00a109000, 1, 0x8, 1, 0x8,
    [⟨63, 0, .ro, 0⟩]⟩
  | .TPC_TEMP => ⟨0x1f00b000000, 1, 0x8, 1, 0x8,
    [⟨63, 48, .ro, 0⟩, ⟨47, 32, .ro, 0⟩, ⟨31, 16, .ro, 0⟩, ⟨15, 0, .ro, 0⟩]⟩
  | .TPC_TEMP_DIE => ⟨0x1f00b000008, 4, 0x8, 1, 0x8,
    [⟨63, 48, .ro, 0⟩, ⟨47, 32, .ro, 0⟩, ⟨25, 16, .ro, 0⟩]⟩
  | .TPC_TEMP_HDR => ⟨0x1f00b000028, 1, 0x8, 1, 0x8,
    [⟨63, 48, .ro, 0⟩, ⟨47, 32, .ro, 0⟩, ⟨31, 16, .ro, 0⟩, ⟨15, 0, .ro, 0⟩]⟩
  | .TPC_LEVELS => ⟨0x1f00b000030, 1, 0x8, 1, 0x8,
    [⟨19, 0, .ro, 0⟩]⟩
  | .TPC_CLOCK => ⟨0x1f00b000040, 1, 0x8, 1, 0x8,
    [⟨62, 54, .ro, 256⟩, ⟨53, 45, .ro, 256⟩, ⟨44, 36, .ro, 256⟩, ⟨35, 0, .ro, 34426978560⟩]⟩
  | .TPC_DVFS => ⟨0x1f00b000048, 1, 0x8, 1, 0x8,
    [⟨31, 16, .ro, 0⟩, ⟨15, 0, .rw, 0⟩]⟩
  | .TPC_POWER => ⟨0x1f00b000050, 1, 0x8, 1, 0x8,
    [⟨63, 61, .ro, 0⟩, ⟨55, 48, .ro, 0⟩, ⟨47, 32, .ro, 2100⟩, ⟨31, 16, .ro, 0⟩, ⟨15, 0, .ro, 0⟩]⟩
  | .TPC_SHUTDOWN => ⟨0x1f00b000058, 1, 0x8, 1, 0x8,
    [⟨63, 63, .ro, 0⟩, ⟨62, 60, .ro, 0⟩, ⟨59, 56, .ro, 0⟩, ⟨47, 32, .ro, 0⟩, ⟨31, 0, .ro, 0⟩]⟩
  | .TPC_FLAGS => ⟨0x1f00b000060, 1, 0x8, 1, 0x8,
    [⟨2, 2, .w1c, 0⟩, ⟨1, 1, .w1c, 0⟩, ⟨0, 0, .w1c, 0⟩]⟩
  | .TPC_LEVEL_CNT => ⟨0x1f00b000068, 1, 0x8, 1, 0x8,
    [⟨63, 32, .ro, 0⟩, ⟨31, 0, .ro, 0⟩]⟩
  | .TPC_MARGIN_LOW_CNT => ⟨0x1f00b000070, 1, 0x8, 1, 0x8,
    [⟨31, 0, .ro, 0⟩]⟩
  | .TPC_SENSOR_FAULT => ⟨0x1f00b000078, 1, 0x8, 1, 0x8,
    [⟨63, 32, .ro, 0⟩, ⟨31, 16, .ro, 0⟩, ⟨15, 0, .ro, 0⟩]⟩
  | .TPC_PATROL => ⟨0x1f00b000080, 1, 0x8, 1, 0x8,
    [⟨43, 32, .ro, 60⟩, ⟨2, 2, .ro, 0⟩, ⟨1, 1, .ro, 1⟩, ⟨0, 0, .ro, 1⟩]⟩
  | .TPC_PATROL_LIM => ⟨0x1f00b000088, 5, 0x8, 1, 0x8,
    [⟨63, 63, .ro, 0⟩, ⟨47, 32, .ro, 0⟩, ⟨15, 0, .ro, 0⟩]⟩
  | .TPC_WAKE => ⟨0x1f00b0000c0, 1, 0x8, 1, 0x8,
    [⟨63, 61, .ro, 0⟩, ⟨60, 60, .ro, 0⟩, ⟨59, 57, .ro, 0⟩, ⟨50, 48, .ro, 0⟩, ⟨31, 0, .ro, 0⟩]⟩
  | .TPC_AGE => ⟨0x1f00b000100, 1, 0x8, 1, 0x8,
    [⟨63, 48, .ro, 0⟩, ⟨47, 32, .ro, 0⟩, ⟨31, 0, .ro, 0⟩]⟩
  | .TPC_AGE_SHARE => ⟨0x1f00b000108, 1, 0x8, 1, 0x8,
    [⟨63, 48, .ro, 0⟩, ⟨47, 32, .ro, 0⟩, ⟨31, 16, .ro, 0⟩, ⟨15, 0, .ro, 0⟩]⟩
  | .TPC_AGE_SUPPLY => ⟨0x1f00b000110, 1, 0x8, 1, 0x8,
    [⟨63, 63, .ro, 0⟩, ⟨47, 32, .ro, 0⟩, ⟨31, 0, .ro, 0⟩]⟩

/-- Register kinds, part 1. -/
def regKinds1 : List RegId :=
  [.BAY_CTRL, .BAY_MAIN_PC, .BAY_SEAM_PC, .BAY_TRAP_EN, .BAY_MAIN_STATUS,
   .BAY_SEAM_STATUS, .BAY_MSG_ERR, .BAY_MSG_ERR_CNT, .BAY_MEM_ECC, .BAY_QUEUE,
   .PRS_FLAGS, .PRS_ACC_SAT_CNT, .PRS_UFLOW_CNT, .PRS_BANK, .PRS_FED,
   .PRS_SKIPS, .PRS_ECC, .PRS_WIN0, .PRS_WIN1, .PRS_NAR_CNT,
   .PRS_ROWWIN_SEL, .PRS_ROWWIN, .VEC_FLAGS, .VEC_LANE_RANGE_CNT, .VEC_EMPTY_ROW_CNT,
   .VEC_NAN_ROW_CNT, .VEC_VL, .SIL_LINK_STATUS, .LLS_SEG, .LLS_STATS]

/-- Register kinds, part 2. -/
def regKinds2 : List RegId :=
  [.LLS_ECC, .HBM_BAND, .HBM_CAP, .HBM_UE_LOG, .HBM_ECC,
   .HBM_FOLD_CTRL, .HBM_FOLD_PROG, .HBM_FOLD_LOST, .HBM_SCRUB, .HBM_SCRUB_PROG,
   .HBM_STACK, .HBM_PC_FAILED, .ABR_CTRL, .ABR_E2E_CTRL, .ABR_FAB_ERR,
   .ABR_FAB_ERR_CNT, .ABR_E2E_STATS, .ABR_ATOM_STATS, .ABR_PORT_STATUS, .ABR_PORT_CNT,
   .ABR_LEVEL, .ABR_DETOUR, .ABR_EPOCH, .ABR_EPOCH_MARK, .ABR_EPOCH_CTRL,
   .ABR_GRP_W0, .ABR_GRP_W1, .ABR_GRP_W2, .ABR_EXP_W0, .ABR_EXP_W1]

/-- Register kinds, part 3. -/
def regKinds3 : List RegId :=
  [.ABR_EXP_W2, .ABR_EXP_W3, .ABR_COLL_ABORT, .ABR_COLL_ABORT_CNT, .ABR_COLL_STATS,
   .OPT_FLAGS, .OPT_FADE_CNT, .OPT_WRONG_LINE_CNT, .OPT_WRONG_LINE_LOG, .OPT_CIRCUIT,
   .OPT_CIRCUIT_MARK, .OPT_ENG_STATUS, .OPT_PORT_FEC, .OPT_PATCH_PROG, .OPT_LANE,
   .OPT_LASER, .OPT_FW_CTRL, .OPT_FW_WIN, .OPT_FW_STATUS, .SCR_COUNT,
   .SCR_STATUS, .SCR_FLAGS, .SCR_REF_LOST_CNT, .SCR_REF_FREQ, .SCR_SYNC,
   .SCR_SET, .SCR_LAUNCH, .SCR_CAL, .SCR_CAL_ALARM, .SCR_CAL_STATUS]

/-- Register kinds, part 4. -/
def regKinds4 : List RegId :=
  [.SCR_LATCH, .SCR_LATCH_COUNT, .SCR_LATCH_CAL, .SCR_ASYM, .LDG_STEP,
   .LDG_STEP_STATUS, .LDG_DIGEST_CTRL, .LDG_DIGEST_PROG, .LDG_REGION_A, .LDG_REGION_B,
   .LDG_RNG_KEY, .LDG_RNG_CTR, .LDG_PLUMB, .LDG_PLUMB_START, .LDG_PLUMB_REP0,
   .LDG_PLUMB_REP1, .LDG_PLUMB_REP2, .LDG_PLUMB_STOP, .LDG_PLUMB_STATS, .LDG_CLASS_DIG,
   .LDG_BASTE_CTRL, .LDG_RES, .LDG_BASTE_STATUS, .LDG_BASTE_PROG, .LDG_BASTE_STATS,
   .LDG_RISK, .LDG_CURSOR, .LDG_HEM_PROG, .LDG_RESTORE_PROG, .LDG_RESTORE_STATUS]

/-- Register kinds, part 5. -/
def regKinds5 : List RegId :=
  [.LDG_SEC_A, .LDG_SEC_B, .MSC_HBM1500_PERMIT, .MSC_LEASE, .MSC_LEASE_CNT,
   .MSC_FW_STATUS, .MSC_ACC_DENY, .MSC_ACC_DENY_CNT, .MSC_FW_VERSION, .MSC_MEAS_EXT,
   .MSC_MEAS_DATA, .MSC_MEAS, .MSC_PEER_RANGE, .MSC_BAY_GROUP, .MSC_STRAP,
   .MSC_STRAP_CNT, .MSC_MGMT, .MSC_MGMT_ERR, .MSC_ACC_CTRL, .MSC_ACC_A,
   .MSC_ACC_B, .MSC_HOST_ID, .MSC_STATE, .MSC_EVENT, .MSC_EVENT_CNT,
   .MSC_HOST_ERR, .MSC_HOST_ERR_CNT, .MSC_LOAD_PROG, .MSC_FW_PROG, .MSC_DBG_WIN]

/-- Register kinds, part 6. -/
def regKinds6 : List RegId :=
  [.MSC_SQ_BASE, .MSC_SQ_CFG, .MSC_CQ_BASE, .MSC_CQ_CFG, .MSC_SQ_TAIL,
   .MSC_CQ_HEAD, .MSC_SQ_STATUS, .MSC_MBX_CTRL, .MSC_MBX_STATUS, .MSC_MBX_DATA,
   .MSC_MSIX_ADDR, .MSC_MSIX_CTRL, .MSC_MSIX_PBA, .TPC_TEMP, .TPC_TEMP_DIE,
   .TPC_TEMP_HDR, .TPC_LEVELS, .TPC_CLOCK, .TPC_DVFS, .TPC_POWER,
   .TPC_SHUTDOWN, .TPC_FLAGS, .TPC_LEVEL_CNT, .TPC_MARGIN_LOW_CNT, .TPC_SENSOR_FAULT,
   .TPC_PATROL, .TPC_PATROL_LIM, .TPC_WAKE, .TPC_AGE, .TPC_AGE_SHARE]

/-- Register kinds, part 7. -/
def regKinds7 : List RegId :=
  [.TPC_AGE_SUPPLY]

/-- All register kinds, in the order of the address map. -/
def regKinds : List RegId :=
  regKinds1 ++ regKinds2 ++ regKinds3 ++ regKinds4 ++ regKinds5 ++ regKinds6 ++ regKinds7

/-- Address of register `i`, `j` of a kind. -/
def RegId.addr (r : RegId) (i : Nat := 0) (j : Nat := 0) : Nat := r.spec.base + i * r.spec.s1 + j * r.spec.s2

/-- Bits [hi:lo] set. -/
def bitsMask (hi lo : Nat) : Word := BitVec.ofNat 64 ((2 ^ (hi + 1 - lo) - 1) * 2 ^ lo)

/-- The bits of a register whose fields have one of the given access codes. -/
def RegId.mask (r : RegId) (p : Access → Bool) : Word :=
  r.spec.rows.foldl (fun m f => if p f.acc then m ||| bitsMask f.hi f.lo else m) 0

/-- The reset value that the field rows of a register state. -/
def RegId.resetRows (r : RegId) : Word :=
  r.spec.rows.foldl (fun m f => m ||| BitVec.ofNat 64 (f.reset * 2 ^ f.lo)) 0

/-- The instance of kind `r` that holds byte address `a`, if one does. -/
def RegId.instAt (r : RegId) (a : Nat) : Option (Nat × Nat) :=
  let p := r.spec
  if a < p.base then none
  else
    let o := a - p.base
    let i := o / p.s1
    let j := o % p.s1 / p.s2
    if i < p.n1 ∧ j < p.n2 ∧ o % p.s1 % p.s2 < 8 then some (i, j) else none

/-- Offsets of the level table without an entry (R282, R313): level 0, and values beyond the 8 of a rack's and the 16 of a row's
field. -/
def levelHole (l v : Nat) : Bool := l == 0 || (l == 1 && decide (8 ≤ v)) || (l == 2 && decide (16 ≤ v))

/-- The register that holds byte address `a` of register space; `none` where no register lies (R12). -/
def regLocate (a : Nat) : Option (RegId × Nat × Nat) :=
  (regKinds.findSome? fun r => (r.instAt a).map fun p => (r, p.1, p.2)).filter fun x => !(x.1 == .ABR_LEVEL && levelHole x.2.1 x.2.2)

/-- A field of one register: the register's address, its lowest bit and its width. -/
structure Field where
  reg : Nat
  lo : Nat
  width : Nat
  deriving DecidableEq, Repr

/-! The fields, by the names of the spec. -/

/-- `BAY_CTRL.STOP`, bits [2:2] (R73). -/
def Fld.BAY_CTRL_STOP (i : Nat) : Field := ⟨RegId.BAY_CTRL.addr i, 2, 1⟩
/-- `BAY_CTRL.SEAM_EN`, bits [1:1] (R73). -/
def Fld.BAY_CTRL_SEAM_EN (i : Nat) : Field := ⟨RegId.BAY_CTRL.addr i, 1, 1⟩
/-- `BAY_CTRL.GO`, bits [0:0] (R73). -/
def Fld.BAY_CTRL_GO (i : Nat) : Field := ⟨RegId.BAY_CTRL.addr i, 0, 1⟩
/-- `BAY_MAIN_PC.PC`, bits [19:3] (R74). -/
def Fld.BAY_MAIN_PC_PC (i : Nat) : Field := ⟨RegId.BAY_MAIN_PC.addr i, 3, 17⟩
/-- `BAY_SEAM_PC.PC`, bits [19:3] (R74). -/
def Fld.BAY_SEAM_PC_PC (i : Nat) : Field := ⟨RegId.BAY_SEAM_PC.addr i, 3, 17⟩
/-- `BAY_TRAP_EN.NAN_ROW`, bits [3:3] (R75). -/
def Fld.BAY_TRAP_EN_NAN_ROW (i : Nat) : Field := ⟨RegId.BAY_TRAP_EN.addr i, 3, 1⟩
/-- `BAY_TRAP_EN.EMPTY_ROW`, bits [2:2] (R75). -/
def Fld.BAY_TRAP_EN_EMPTY_ROW (i : Nat) : Field := ⟨RegId.BAY_TRAP_EN.addr i, 2, 1⟩
/-- `BAY_TRAP_EN.LANE_RANGE`, bits [1:1] (R75). -/
def Fld.BAY_TRAP_EN_LANE_RANGE (i : Nat) : Field := ⟨RegId.BAY_TRAP_EN.addr i, 1, 1⟩
/-- `BAY_TRAP_EN.ACC_SAT`, bits [0:0] (R75). -/
def Fld.BAY_TRAP_EN_ACC_SAT (i : Nat) : Field := ⟨RegId.BAY_TRAP_EN.addr i, 0, 1⟩
/-- `BAY_MAIN_STATUS.FAULT_PC`, bits [63:44] (R76). -/
def Fld.BAY_MAIN_STATUS_FAULT_PC (i : Nat) : Field := ⟨RegId.BAY_MAIN_STATUS.addr i, 44, 20⟩
/-- `BAY_MAIN_STATUS.QSEQ`, bits [43:32] (R76). -/
def Fld.BAY_MAIN_STATUS_QSEQ (i : Nat) : Field := ⟨RegId.BAY_MAIN_STATUS.addr i, 32, 12⟩
/-- `BAY_MAIN_STATUS.CAUSE`, bits [31:24] (R76). -/
def Fld.BAY_MAIN_STATUS_CAUSE (i : Nat) : Field := ⟨RegId.BAY_MAIN_STATUS.addr i, 24, 8⟩
/-- `BAY_MAIN_STATUS.SOURCE`, bits [23:20] (R76). -/
def Fld.BAY_MAIN_STATUS_SOURCE (i : Nat) : Field := ⟨RegId.BAY_MAIN_STATUS.addr i, 20, 4⟩
/-- `BAY_MAIN_STATUS.FLAG`, bits [19:16] (R76). -/
def Fld.BAY_MAIN_STATUS_FLAG (i : Nat) : Field := ⟨RegId.BAY_MAIN_STATUS.addr i, 16, 4⟩
/-- `BAY_MAIN_STATUS.MULTI`, bits [15:15] (R76). -/
def Fld.BAY_MAIN_STATUS_MULTI (i : Nat) : Field := ⟨RegId.BAY_MAIN_STATUS.addr i, 15, 1⟩
/-- `BAY_MAIN_STATUS.PEND_G`, bits [12:8] (R76). -/
def Fld.BAY_MAIN_STATUS_PEND_G (i : Nat) : Field := ⟨RegId.BAY_MAIN_STATUS.addr i, 8, 5⟩
/-- `BAY_MAIN_STATUS.STATE`, bits [2:0] (R76). -/
def Fld.BAY_MAIN_STATUS_STATE (i : Nat) : Field := ⟨RegId.BAY_MAIN_STATUS.addr i, 0, 3⟩
/-- `BAY_SEAM_STATUS.FAULT_PC`, bits [63:44] (R76). -/
def Fld.BAY_SEAM_STATUS_FAULT_PC (i : Nat) : Field := ⟨RegId.BAY_SEAM_STATUS.addr i, 44, 20⟩
/-- `BAY_SEAM_STATUS.QSEQ`, bits [43:32] (R76). -/
def Fld.BAY_SEAM_STATUS_QSEQ (i : Nat) : Field := ⟨RegId.BAY_SEAM_STATUS.addr i, 32, 12⟩
/-- `BAY_SEAM_STATUS.CAUSE`, bits [31:24] (R76). -/
def Fld.BAY_SEAM_STATUS_CAUSE (i : Nat) : Field := ⟨RegId.BAY_SEAM_STATUS.addr i, 24, 8⟩
/-- `BAY_SEAM_STATUS.SOURCE`, bits [23:20] (R76). -/
def Fld.BAY_SEAM_STATUS_SOURCE (i : Nat) : Field := ⟨RegId.BAY_SEAM_STATUS.addr i, 20, 4⟩
/-- `BAY_SEAM_STATUS.FLAG`, bits [19:16] (R76). -/
def Fld.BAY_SEAM_STATUS_FLAG (i : Nat) : Field := ⟨RegId.BAY_SEAM_STATUS.addr i, 16, 4⟩
/-- `BAY_SEAM_STATUS.MULTI`, bits [15:15] (R76). -/
def Fld.BAY_SEAM_STATUS_MULTI (i : Nat) : Field := ⟨RegId.BAY_SEAM_STATUS.addr i, 15, 1⟩
/-- `BAY_SEAM_STATUS.PEND_G`, bits [12:8] (R76). -/
def Fld.BAY_SEAM_STATUS_PEND_G (i : Nat) : Field := ⟨RegId.BAY_SEAM_STATUS.addr i, 8, 5⟩
/-- `BAY_SEAM_STATUS.STATE`, bits [2:0] (R76). -/
def Fld.BAY_SEAM_STATUS_STATE (i : Nat) : Field := ⟨RegId.BAY_SEAM_STATUS.addr i, 0, 3⟩
/-- `BAY_MSG_ERR.VALID`, bits [63:63] (R77). -/
def Fld.BAY_MSG_ERR_VALID (i : Nat) : Field := ⟨RegId.BAY_MSG_ERR.addr i, 63, 1⟩
/-- `BAY_MSG_ERR.THREAD`, bits [62:62] (R77). -/
def Fld.BAY_MSG_ERR_THREAD (i : Nat) : Field := ⟨RegId.BAY_MSG_ERR.addr i, 62, 1⟩
/-- `BAY_MSG_ERR.CODE`, bits [55:48] (R77). -/
def Fld.BAY_MSG_ERR_CODE (i : Nat) : Field := ⟨RegId.BAY_MSG_ERR.addr i, 48, 8⟩
/-- `BAY_MSG_ERR.SLOT`, bits [47:40] (R77). -/
def Fld.BAY_MSG_ERR_SLOT (i : Nat) : Field := ⟨RegId.BAY_MSG_ERR.addr i, 40, 8⟩
/-- `BAY_MSG_ERR.DEST_DEV`, bits [39:24] (R77). -/
def Fld.BAY_MSG_ERR_DEST_DEV (i : Nat) : Field := ⟨RegId.BAY_MSG_ERR.addr i, 24, 16⟩
/-- `BAY_MSG_ERR_CNT.COUNT`, bits [31:0] (R77). -/
def Fld.BAY_MSG_ERR_CNT_COUNT (i : Nat) : Field := ⟨RegId.BAY_MSG_ERR_CNT.addr i, 0, 32⟩
/-- `BAY_MEM_ECC.CORR_CNT`, bits [63:32] (R78). -/
def Fld.BAY_MEM_ECC_CORR_CNT (i : Nat) : Field := ⟨RegId.BAY_MEM_ECC.addr i, 32, 32⟩
/-- `BAY_MEM_ECC.UNCORR_CNT`, bits [31:0] (R78). -/
def Fld.BAY_MEM_ECC_UNCORR_CNT (i : Nat) : Field := ⟨RegId.BAY_MEM_ECC.addr i, 0, 32⟩
/-- `BAY_QUEUE.SLOTS_BUSY`, bits [40:32] (R79). -/
def Fld.BAY_QUEUE_SLOTS_BUSY (i : Nat) : Field := ⟨RegId.BAY_QUEUE.addr i, 32, 9⟩
/-- `BAY_QUEUE.SEAM_WORK`, bits [30:24] (R79). -/
def Fld.BAY_QUEUE_SEAM_WORK (i : Nat) : Field := ⟨RegId.BAY_QUEUE.addr i, 24, 7⟩
/-- `BAY_QUEUE.SEAM_VQ`, bits [19:16] (R79). -/
def Fld.BAY_QUEUE_SEAM_VQ (i : Nat) : Field := ⟨RegId.BAY_QUEUE.addr i, 16, 4⟩
/-- `BAY_QUEUE.MAIN_VQ`, bits [13:8] (R79). -/
def Fld.BAY_QUEUE_MAIN_VQ (i : Nat) : Field := ⟨RegId.BAY_QUEUE.addr i, 8, 6⟩
/-- `BAY_QUEUE.PQ`, bits [5:0] (R79). -/
def Fld.BAY_QUEUE_PQ (i : Nat) : Field := ⟨RegId.BAY_QUEUE.addr i, 0, 6⟩
/-- `PRS_FLAGS.ACC_SAT`, bits [0:0] (R111). -/
def Fld.PRS_FLAGS_ACC_SAT (i : Nat) : Field := ⟨RegId.PRS_FLAGS.addr i, 0, 1⟩
/-- `PRS_ACC_SAT_CNT.COUNT`, bits [31:0] (R111). -/
def Fld.PRS_ACC_SAT_CNT_COUNT (i : Nat) : Field := ⟨RegId.PRS_ACC_SAT_CNT.addr i, 0, 32⟩
/-- `PRS_UFLOW_CNT.COUNT`, bits [63:0] (R112). -/
def Fld.PRS_UFLOW_CNT_COUNT (i : Nat) : Field := ⟨RegId.PRS_UFLOW_CNT.addr i, 0, 64⟩
/-- `PRS_BANK.TURN_CNT`, bits [63:32] (R113). -/
def Fld.PRS_BANK_TURN_CNT (i : Nat) : Field := ⟨RegId.PRS_BANK.addr i, 32, 32⟩
/-- `PRS_BANK.SH_SPARSE`, bits [12:12] (R113). -/
def Fld.PRS_BANK_SH_SPARSE (i : Nat) : Field := ⟨RegId.PRS_BANK.addr i, 12, 1⟩
/-- `PRS_BANK.SH_FMT`, bits [11:8] (R113). -/
def Fld.PRS_BANK_SH_FMT (i : Nat) : Field := ⟨RegId.PRS_BANK.addr i, 8, 4⟩
/-- `PRS_BANK.ACT_SPARSE`, bits [4:4] (R113). -/
def Fld.PRS_BANK_ACT_SPARSE (i : Nat) : Field := ⟨RegId.PRS_BANK.addr i, 4, 1⟩
/-- `PRS_BANK.ACT_FMT`, bits [3:0] (R113). -/
def Fld.PRS_BANK_ACT_FMT (i : Nat) : Field := ⟨RegId.PRS_BANK.addr i, 0, 4⟩
/-- `PRS_FED.ROWS`, bits [63:0] (R112). -/
def Fld.PRS_FED_ROWS (i : Nat) : Field := ⟨RegId.PRS_FED.addr i, 0, 64⟩
/-- `PRS_SKIPS.ZERO_SKIPPED`, bits [63:32] (R112). -/
def Fld.PRS_SKIPS_ZERO_SKIPPED (i : Nat) : Field := ⟨RegId.PRS_SKIPS.addr i, 32, 32⟩
/-- `PRS_SKIPS.MASK_FOLDED`, bits [31:0] (R112). -/
def Fld.PRS_SKIPS_MASK_FOLDED (i : Nat) : Field := ⟨RegId.PRS_SKIPS.addr i, 0, 32⟩
/-- `PRS_ECC.CORR_CNT`, bits [63:32] (R114). -/
def Fld.PRS_ECC_CORR_CNT (i : Nat) : Field := ⟨RegId.PRS_ECC.addr i, 32, 32⟩
/-- `PRS_ECC.UNCORR_CNT`, bits [31:0] (R114). -/
def Fld.PRS_ECC_UNCORR_CNT (i : Nat) : Field := ⟨RegId.PRS_ECC.addr i, 0, 32⟩
/-- `PRS_WIN0.MODE`, bits [24:24] (R143). -/
def Fld.PRS_WIN0_MODE (i : Nat) : Field := ⟨RegId.PRS_WIN0.addr i, 24, 1⟩
/-- `PRS_WIN0.KLOG`, bits [21:16] (R143). -/
def Fld.PRS_WIN0_KLOG (i : Nat) : Field := ⟨RegId.PRS_WIN0.addr i, 16, 6⟩
/-- `PRS_WIN0.WIN`, bits [9:0] (R143). -/
def Fld.PRS_WIN0_WIN (i : Nat) : Field := ⟨RegId.PRS_WIN0.addr i, 0, 10⟩
/-- `PRS_WIN1.MODE`, bits [24:24] (R143). -/
def Fld.PRS_WIN1_MODE (i : Nat) : Field := ⟨RegId.PRS_WIN1.addr i, 24, 1⟩
/-- `PRS_WIN1.KLOG`, bits [21:16] (R143). -/
def Fld.PRS_WIN1_KLOG (i : Nat) : Field := ⟨RegId.PRS_WIN1.addr i, 16, 6⟩
/-- `PRS_WIN1.WIN`, bits [9:0] (R143). -/
def Fld.PRS_WIN1_WIN (i : Nat) : Field := ⟨RegId.PRS_WIN1.addr i, 0, 10⟩
/-- `PRS_NAR_CNT.COUNT`, bits [31:0] (R144). -/
def Fld.PRS_NAR_CNT_COUNT (i : Nat) : Field := ⟨RegId.PRS_NAR_CNT.addr i, 0, 32⟩
/-- `PRS_ROWWIN_SEL.BLOCK`, bits [7:7] (R145). -/
def Fld.PRS_ROWWIN_SEL_BLOCK (i : Nat) : Field := ⟨RegId.PRS_ROWWIN_SEL.addr i, 7, 1⟩
/-- `PRS_ROWWIN_SEL.ROW`, bits [6:0] (R145). -/
def Fld.PRS_ROWWIN_SEL_ROW (i : Nat) : Field := ⟨RegId.PRS_ROWWIN_SEL.addr i, 0, 7⟩
/-- `PRS_ROWWIN.SET`, bits [63:63] (R145). -/
def Fld.PRS_ROWWIN_SET (i : Nat) : Field := ⟨RegId.PRS_ROWWIN.addr i, 63, 1⟩
/-- `PRS_ROWWIN.WIN`, bits [9:0] (R145). -/
def Fld.PRS_ROWWIN_WIN (i : Nat) : Field := ⟨RegId.PRS_ROWWIN.addr i, 0, 10⟩
/-- `VEC_FLAGS.NAN_ROW`, bits [2:2] (R172). -/
def Fld.VEC_FLAGS_NAN_ROW (i : Nat) : Field := ⟨RegId.VEC_FLAGS.addr i, 2, 1⟩
/-- `VEC_FLAGS.EMPTY_ROW`, bits [1:1] (R172). -/
def Fld.VEC_FLAGS_EMPTY_ROW (i : Nat) : Field := ⟨RegId.VEC_FLAGS.addr i, 1, 1⟩
/-- `VEC_FLAGS.LANE_RANGE`, bits [0:0] (R172). -/
def Fld.VEC_FLAGS_LANE_RANGE (i : Nat) : Field := ⟨RegId.VEC_FLAGS.addr i, 0, 1⟩
/-- `VEC_LANE_RANGE_CNT.COUNT`, bits [31:0] (R173). -/
def Fld.VEC_LANE_RANGE_CNT_COUNT (i : Nat) : Field := ⟨RegId.VEC_LANE_RANGE_CNT.addr i, 0, 32⟩
/-- `VEC_EMPTY_ROW_CNT.COUNT`, bits [31:0] (R173). -/
def Fld.VEC_EMPTY_ROW_CNT_COUNT (i : Nat) : Field := ⟨RegId.VEC_EMPTY_ROW_CNT.addr i, 0, 32⟩
/-- `VEC_NAN_ROW_CNT.COUNT`, bits [31:0] (R173). -/
def Fld.VEC_NAN_ROW_CNT_COUNT (i : Nat) : Field := ⟨RegId.VEC_NAN_ROW_CNT.addr i, 0, 32⟩
/-- `VEC_VL.SEAM_VL`, bits [40:32] (R174). -/
def Fld.VEC_VL_SEAM_VL (i : Nat) : Field := ⟨RegId.VEC_VL.addr i, 32, 9⟩
/-- `VEC_VL.MAIN_VL`, bits [8:0] (R174). -/
def Fld.VEC_VL_MAIN_VL (i : Nat) : Field := ⟨RegId.VEC_VL.addr i, 0, 9⟩
/-- `SIL_LINK_STATUS.REPLAYS`, bits [63:32] (R27). -/
def Fld.SIL_LINK_STATUS_REPLAYS : Field := ⟨RegId.SIL_LINK_STATUS.addr, 32, 32⟩
/-- `SIL_LINK_STATUS.HDR_DOWN`, bits [7:4] (R27). -/
def Fld.SIL_LINK_STATUS_HDR_DOWN : Field := ⟨RegId.SIL_LINK_STATUS.addr, 4, 4⟩
/-- `SIL_LINK_STATUS.SILL_DOWN`, bits [3:0] (R27). -/
def Fld.SIL_LINK_STATUS_SILL_DOWN : Field := ⟨RegId.SIL_LINK_STATUS.addr, 0, 4⟩
/-- `LLS_SEG.BUSY`, bits [1:1] (R278). -/
def Fld.LLS_SEG_BUSY (i : Nat) : Field := ⟨RegId.LLS_SEG.addr i, 1, 1⟩
/-- `LLS_SEG.MODE`, bits [0:0] (R278). -/
def Fld.LLS_SEG_MODE (i : Nat) : Field := ⟨RegId.LLS_SEG.addr i, 0, 1⟩
/-- `LLS_STATS.HITS`, bits [63:32] (R278). -/
def Fld.LLS_STATS_HITS (i : Nat) : Field := ⟨RegId.LLS_STATS.addr i, 32, 32⟩
/-- `LLS_STATS.MISSES`, bits [31:0] (R278). -/
def Fld.LLS_STATS_MISSES (i : Nat) : Field := ⟨RegId.LLS_STATS.addr i, 0, 32⟩
/-- `LLS_ECC.CORR_CNT`, bits [63:32] (R278). -/
def Fld.LLS_ECC_CORR_CNT : Field := ⟨RegId.LLS_ECC.addr, 32, 32⟩
/-- `LLS_ECC.UNCORR_CNT`, bits [31:0] (R278). -/
def Fld.LLS_ECC_UNCORR_CNT : Field := ⟨RegId.LLS_ECC.addr, 0, 32⟩
/-- `HBM_BAND.BUSY`, bits [2:2] (R272). -/
def Fld.HBM_BAND_BUSY (i : Nat) : Field := ⟨RegId.HBM_BAND.addr i, 2, 1⟩
/-- `HBM_BAND.CACHE`, bits [1:1] (R272). -/
def Fld.HBM_BAND_CACHE (i : Nat) : Field := ⟨RegId.HBM_BAND.addr i, 1, 1⟩
/-- `HBM_BAND.MODE`, bits [0:0] (R272). -/
def Fld.HBM_BAND_MODE (i : Nat) : Field := ⟨RegId.HBM_BAND.addr i, 0, 1⟩
/-- `HBM_CAP.LIVE_BANDS`, bits [40:32] (R272). -/
def Fld.HBM_CAP_LIVE_BANDS : Field := ⟨RegId.HBM_CAP.addr, 32, 9⟩
/-- `HBM_CAP.FOLDS`, bits [20:16] (R272). -/
def Fld.HBM_CAP_FOLDS : Field := ⟨RegId.HBM_CAP.addr, 16, 5⟩
/-- `HBM_CAP.LIVE_PC`, bits [8:0] (R272). -/
def Fld.HBM_CAP_LIVE_PC : Field := ⟨RegId.HBM_CAP.addr, 0, 9⟩
/-- `HBM_UE_LOG.VALID`, bits [63:63] (R273). -/
def Fld.HBM_UE_LOG_VALID : Field := ⟨RegId.HBM_UE_LOG.addr, 63, 1⟩
/-- `HBM_UE_LOG.SRC`, bits [62:60] (R273). -/
def Fld.HBM_UE_LOG_SRC : Field := ⟨RegId.HBM_UE_LOG.addr, 60, 3⟩
/-- `HBM_UE_LOG.PC`, bits [55:48] (R273). -/
def Fld.HBM_UE_LOG_PC : Field := ⟨RegId.HBM_UE_LOG.addr, 48, 8⟩
/-- `HBM_UE_LOG.ADDR`, bits [47:0] (R273). -/
def Fld.HBM_UE_LOG_ADDR : Field := ⟨RegId.HBM_UE_LOG.addr, 0, 48⟩
/-- `HBM_ECC.CORR_CNT`, bits [63:32] (R273). -/
def Fld.HBM_ECC_CORR_CNT : Field := ⟨RegId.HBM_ECC.addr, 32, 32⟩
/-- `HBM_ECC.UNCORR_CNT`, bits [31:0] (R273). -/
def Fld.HBM_ECC_UNCORR_CNT : Field := ⟨RegId.HBM_ECC.addr, 0, 32⟩
/-- `HBM_FOLD_CTRL.RATE`, bits [15:8] (R274). -/
def Fld.HBM_FOLD_CTRL_RATE : Field := ⟨RegId.HBM_FOLD_CTRL.addr, 8, 8⟩
/-- `HBM_FOLD_CTRL.PENDING`, bits [1:1] (R274). -/
def Fld.HBM_FOLD_CTRL_PENDING : Field := ⟨RegId.HBM_FOLD_CTRL.addr, 1, 1⟩
/-- `HBM_FOLD_CTRL.AUTO`, bits [0:0] (R274). -/
def Fld.HBM_FOLD_CTRL_AUTO : Field := ⟨RegId.HBM_FOLD_CTRL.addr, 0, 1⟩
/-- `HBM_FOLD_PROG.PCT`, bits [63:48] (R275). -/
def Fld.HBM_FOLD_PROG_PCT : Field := ⟨RegId.HBM_FOLD_PROG.addr, 48, 16⟩
/-- `HBM_FOLD_PROG.STATE`, bits [47:46] (R275). -/
def Fld.HBM_FOLD_PROG_STATE : Field := ⟨RegId.HBM_FOLD_PROG.addr, 46, 2⟩
/-- `HBM_FOLD_PROG.PC`, bits [39:32] (R275). -/
def Fld.HBM_FOLD_PROG_PC : Field := ⟨RegId.HBM_FOLD_PROG.addr, 32, 8⟩
/-- `HBM_FOLD_PROG.POSITION`, bits [31:0] (R275). -/
def Fld.HBM_FOLD_PROG_POSITION : Field := ⟨RegId.HBM_FOLD_PROG.addr, 0, 32⟩
/-- `HBM_FOLD_LOST.UNITS`, bits [31:0] (R274). -/
def Fld.HBM_FOLD_LOST_UNITS : Field := ⟨RegId.HBM_FOLD_LOST.addr, 0, 32⟩
/-- `HBM_SCRUB.INTERVAL`, bits [7:0] (R276). -/
def Fld.HBM_SCRUB_INTERVAL : Field := ⟨RegId.HBM_SCRUB.addr, 0, 8⟩
/-- `HBM_SCRUB_PROG.PCT`, bits [63:48] (R275). -/
def Fld.HBM_SCRUB_PROG_PCT : Field := ⟨RegId.HBM_SCRUB_PROG.addr, 48, 16⟩
/-- `HBM_SCRUB_PROG.STATE`, bits [47:46] (R275). -/
def Fld.HBM_SCRUB_PROG_STATE : Field := ⟨RegId.HBM_SCRUB_PROG.addr, 46, 2⟩
/-- `HBM_SCRUB_PROG.PC`, bits [39:32] (R275). -/
def Fld.HBM_SCRUB_PROG_PC : Field := ⟨RegId.HBM_SCRUB_PROG.addr, 32, 8⟩
/-- `HBM_SCRUB_PROG.POSITION`, bits [31:0] (R275). -/
def Fld.HBM_SCRUB_PROG_POSITION : Field := ⟨RegId.HBM_SCRUB_PROG.addr, 0, 32⟩
/-- `HBM_STACK.CORR_CNT`, bits [63:32] (R277). -/
def Fld.HBM_STACK_CORR_CNT (i : Nat) : Field := ⟨RegId.HBM_STACK.addr i, 32, 32⟩
/-- `HBM_STACK.RETRAIN_CNT`, bits [31:16] (R277). -/
def Fld.HBM_STACK_RETRAIN_CNT (i : Nat) : Field := ⟨RegId.HBM_STACK.addr i, 16, 16⟩
/-- `HBM_STACK.RATE`, bits [9:8] (R277). -/
def Fld.HBM_STACK_RATE (i : Nat) : Field := ⟨RegId.HBM_STACK.addr i, 8, 2⟩
/-- `HBM_STACK.TEMP`, bits [7:0] (R277). -/
def Fld.HBM_STACK_TEMP (i : Nat) : Field := ⟨RegId.HBM_STACK.addr i, 0, 8⟩
/-- `HBM_PC_FAILED.FAILED`, bits [63:0] (R277). -/
def Fld.HBM_PC_FAILED_FAILED (i : Nat) : Field := ⟨RegId.HBM_PC_FAILED.addr i, 0, 64⟩
/-- `ABR_CTRL.PROF`, bits [7:5] (R314). -/
def Fld.ABR_CTRL_PROF : Field := ⟨RegId.ABR_CTRL.addr, 5, 3⟩
/-- `ABR_CTRL.FAB_EN`, bits [0:0] (R314). -/
def Fld.ABR_CTRL_FAB_EN : Field := ⟨RegId.ABR_CTRL.addr, 0, 1⟩
/-- `ABR_E2E_CTRL.CREASE_TH`, bits [47:32] (R314). -/
def Fld.ABR_E2E_CTRL_CREASE_TH : Field := ⟨RegId.ABR_E2E_CTRL.addr, 32, 16⟩
/-- `ABR_E2E_CTRL.RTO`, bits [31:16] (R314). -/
def Fld.ABR_E2E_CTRL_RTO : Field := ⟨RegId.ABR_E2E_CTRL.addr, 16, 16⟩
/-- `ABR_E2E_CTRL.LEAD_EN`, bits [0:0] (R314). -/
def Fld.ABR_E2E_CTRL_LEAD_EN : Field := ⟨RegId.ABR_E2E_CTRL.addr, 0, 1⟩
/-- `ABR_FAB_ERR.VALID`, bits [63:63] (R315). -/
def Fld.ABR_FAB_ERR_VALID : Field := ⟨RegId.ABR_FAB_ERR.addr, 63, 1⟩
/-- `ABR_FAB_ERR.CODE`, bits [55:48] (R315). -/
def Fld.ABR_FAB_ERR_CODE : Field := ⟨RegId.ABR_FAB_ERR.addr, 48, 8⟩
/-- `ABR_FAB_ERR.DEST_DEV`, bits [47:32] (R315). -/
def Fld.ABR_FAB_ERR_DEST_DEV : Field := ⟨RegId.ABR_FAB_ERR.addr, 32, 16⟩
/-- `ABR_FAB_ERR.PORT`, bits [31:28] (R315). -/
def Fld.ABR_FAB_ERR_PORT : Field := ⟨RegId.ABR_FAB_ERR.addr, 28, 4⟩
/-- `ABR_FAB_ERR_CNT.COUNT`, bits [31:0] (R315). -/
def Fld.ABR_FAB_ERR_CNT_COUNT : Field := ⟨RegId.ABR_FAB_ERR_CNT.addr, 0, 32⟩
/-- `ABR_E2E_STATS.PAIRS_SRC`, bits [63:48] (R318). -/
def Fld.ABR_E2E_STATS_PAIRS_SRC : Field := ⟨RegId.ABR_E2E_STATS.addr, 48, 16⟩
/-- `ABR_E2E_STATS.PAIRS_DST`, bits [47:32] (R318). -/
def Fld.ABR_E2E_STATS_PAIRS_DST : Field := ⟨RegId.ABR_E2E_STATS.addr, 32, 16⟩
/-- `ABR_E2E_STATS.ECHOES`, bits [31:0] (R318). -/
def Fld.ABR_E2E_STATS_ECHOES : Field := ⟨RegId.ABR_E2E_STATS.addr, 0, 32⟩
/-- `ABR_ATOM_STATS.LOG_USED`, bits [63:48] (R318). -/
def Fld.ABR_ATOM_STATS_LOG_USED : Field := ⟨RegId.ABR_ATOM_STATS.addr, 48, 16⟩
/-- `ABR_ATOM_STATS.DUP_SERVED`, bits [47:32] (R318). -/
def Fld.ABR_ATOM_STATS_DUP_SERVED : Field := ⟨RegId.ABR_ATOM_STATS.addr, 32, 16⟩
/-- `ABR_ATOM_STATS.CAP_REFUSED`, bits [31:16] (R318). -/
def Fld.ABR_ATOM_STATS_CAP_REFUSED : Field := ⟨RegId.ABR_ATOM_STATS.addr, 16, 16⟩
/-- `ABR_ATOM_STATS.UNKNOWN`, bits [15:0] (R318). -/
def Fld.ABR_ATOM_STATS_UNKNOWN : Field := ⟨RegId.ABR_ATOM_STATS.addr, 0, 16⟩
/-- `ABR_PORT_STATUS.UP`, bits [63:63] (R316). -/
def Fld.ABR_PORT_STATUS_UP (i : Nat) : Field := ⟨RegId.ABR_PORT_STATUS.addr i, 63, 1⟩
/-- `ABR_PORT_STATUS.DOWN`, bits [62:62] (R316). -/
def Fld.ABR_PORT_STATUS_DOWN (i : Nat) : Field := ⟨RegId.ABR_PORT_STATUS.addr i, 62, 1⟩
/-- `ABR_PORT_STATUS.LEVEL`, bits [61:60] (R316). -/
def Fld.ABR_PORT_STATUS_LEVEL (i : Nat) : Field := ⟨RegId.ABR_PORT_STATUS.addr i, 60, 2⟩
/-- `ABR_PORT_STATUS.CAUSE`, bits [59:56] (R316). -/
def Fld.ABR_PORT_STATUS_CAUSE (i : Nat) : Field := ⟨RegId.ABR_PORT_STATUS.addr i, 56, 4⟩
/-- `ABR_PORT_STATUS.PEER_DEV`, bits [55:40] (R316). -/
def Fld.ABR_PORT_STATUS_PEER_DEV (i : Nat) : Field := ⟨RegId.ABR_PORT_STATUS.addr i, 40, 16⟩
/-- `ABR_PORT_STATUS.PEER_PORT`, bits [39:36] (R316). -/
def Fld.ABR_PORT_STATUS_PEER_PORT (i : Nat) : Field := ⟨RegId.ABR_PORT_STATUS.addr i, 36, 4⟩
/-- `ABR_PORT_CNT.REPLAYS`, bits [63:32] (R316). -/
def Fld.ABR_PORT_CNT_REPLAYS (i : Nat) : Field := ⟨RegId.ABR_PORT_CNT.addr i, 32, 32⟩
/-- `ABR_PORT_CNT.SEQ_DISCARD`, bits [31:0] (R316). -/
def Fld.ABR_PORT_CNT_SEQ_DISCARD (i : Nat) : Field := ⟨RegId.ABR_PORT_CNT.addr i, 0, 32⟩
/-- `ABR_LEVEL.VALID`, bits [63:63] (R317). -/
def Fld.ABR_LEVEL_VALID (i j : Nat) : Field := ⟨RegId.ABR_LEVEL.addr i j, 63, 1⟩
/-- `ABR_LEVEL.RELAY`, bits [34:32] (R317). -/
def Fld.ABR_LEVEL_RELAY (i j : Nat) : Field := ⟨RegId.ABR_LEVEL.addr i j, 32, 3⟩
/-- `ABR_LEVEL.PORTMASK`, bits [15:0] (R317). -/
def Fld.ABR_LEVEL_PORTMASK (i j : Nat) : Field := ⟨RegId.ABR_LEVEL.addr i j, 0, 16⟩
/-- `ABR_DETOUR.KIND`, bits [63:62] (R317). -/
def Fld.ABR_DETOUR_KIND (i : Nat) : Field := ⟨RegId.ABR_DETOUR.addr i, 62, 2⟩
/-- `ABR_DETOUR.ALT_PORT`, bits [7:4] (R317). -/
def Fld.ABR_DETOUR_ALT_PORT (i : Nat) : Field := ⟨RegId.ABR_DETOUR.addr i, 4, 4⟩
/-- `ABR_DETOUR.RELAY`, bits [2:0] (R317). -/
def Fld.ABR_DETOUR_RELAY (i : Nat) : Field := ⟨RegId.ABR_DETOUR.addr i, 0, 3⟩
/-- `ABR_EPOCH.CURRENT`, bits [63:32] (R439). -/
def Fld.ABR_EPOCH_CURRENT : Field := ⟨RegId.ABR_EPOCH.addr, 32, 32⟩
/-- `ABR_EPOCH.NEXT`, bits [31:0] (R439). -/
def Fld.ABR_EPOCH_NEXT : Field := ⟨RegId.ABR_EPOCH.addr, 0, 32⟩
/-- `ABR_EPOCH_MARK.MARK`, bits [63:0] (R439). -/
def Fld.ABR_EPOCH_MARK_MARK : Field := ⟨RegId.ABR_EPOCH_MARK.addr, 0, 64⟩
/-- `ABR_EPOCH_CTRL.ARM`, bits [63:63] (R439). -/
def Fld.ABR_EPOCH_CTRL_ARM : Field := ⟨RegId.ABR_EPOCH_CTRL.addr, 63, 1⟩
/-- `ABR_EPOCH_CTRL.STATE`, bits [62:61] (R439). -/
def Fld.ABR_EPOCH_CTRL_STATE : Field := ⟨RegId.ABR_EPOCH_CTRL.addr, 61, 2⟩
/-- `ABR_EPOCH_CTRL.ABORTS`, bits [31:0] (R439). -/
def Fld.ABR_EPOCH_CTRL_ABORTS : Field := ⟨RegId.ABR_EPOCH_CTRL.addr, 0, 32⟩
/-- `ABR_GRP_W0.VALID`, bits [63:63] (R238). -/
def Fld.ABR_GRP_W0_VALID (i : Nat) : Field := ⟨RegId.ABR_GRP_W0.addr i, 63, 1⟩
/-- `ABR_GRP_W0.STATE`, bits [62:61] (R238). -/
def Fld.ABR_GRP_W0_STATE (i : Nat) : Field := ⟨RegId.ABR_GRP_W0.addr i, 61, 2⟩
/-- `ABR_GRP_W0.CHECK_CODE`, bits [55:48] (R238). -/
def Fld.ABR_GRP_W0_CHECK_CODE (i : Nat) : Field := ⟨RegId.ABR_GRP_W0.addr i, 48, 8⟩
/-- `ABR_GRP_W0.FANOUT`, bits [42:40] (R238). -/
def Fld.ABR_GRP_W0_FANOUT (i : Nat) : Field := ⟨RegId.ABR_GRP_W0.addr i, 40, 3⟩
/-- `ABR_GRP_W0.ROOT`, bits [31:16] (R238). -/
def Fld.ABR_GRP_W0_ROOT (i : Nat) : Field := ⟨RegId.ABR_GRP_W0.addr i, 16, 16⟩
/-- `ABR_GRP_W0.COUNT`, bits [15:0] (R238). -/
def Fld.ABR_GRP_W0_COUNT (i : Nat) : Field := ⟨RegId.ABR_GRP_W0.addr i, 0, 16⟩
/-- `ABR_GRP_W1.EPOCH`, bits [63:32] (R238). -/
def Fld.ABR_GRP_W1_EPOCH (i : Nat) : Field := ⟨RegId.ABR_GRP_W1.addr i, 32, 32⟩
/-- `ABR_GRP_W1.OPEN`, bits [15:0] (R238). -/
def Fld.ABR_GRP_W1_OPEN (i : Nat) : Field := ⟨RegId.ABR_GRP_W1.addr i, 0, 16⟩
/-- `ABR_GRP_W2.LIST`, bits [47:0] (R238). -/
def Fld.ABR_GRP_W2_LIST (i : Nat) : Field := ⟨RegId.ABR_GRP_W2.addr i, 0, 48⟩
/-- `ABR_EXP_W0.VALID`, bits [63:63] (R239). -/
def Fld.ABR_EXP_W0_VALID (i : Nat) : Field := ⟨RegId.ABR_EXP_W0.addr i, 63, 1⟩
/-- `ABR_EXP_W0.VERSION`, bits [55:48] (R239). -/
def Fld.ABR_EXP_W0_VERSION (i : Nat) : Field := ⟨RegId.ABR_EXP_W0.addr i, 48, 8⟩
/-- `ABR_EXP_W0.DEV`, bits [47:32] (R239). -/
def Fld.ABR_EXP_W0_DEV (i : Nat) : Field := ⟨RegId.ABR_EXP_W0.addr i, 32, 16⟩
/-- `ABR_EXP_W0.BAY`, bits [25:16] (R239). -/
def Fld.ABR_EXP_W0_BAY (i : Nat) : Field := ⟨RegId.ABR_EXP_W0.addr i, 16, 10⟩
/-- `ABR_EXP_W1.IN_BASE`, bits [47:0] (R239). -/
def Fld.ABR_EXP_W1_IN_BASE (i : Nat) : Field := ⟨RegId.ABR_EXP_W1.addr i, 0, 48⟩
/-- `ABR_EXP_W2.OUT_BASE`, bits [47:0] (R239). -/
def Fld.ABR_EXP_W2_OUT_BASE (i : Nat) : Field := ⟨RegId.ABR_EXP_W2.addr i, 0, 48⟩
/-- `ABR_EXP_W3.QUOTA`, bits [63:48] (R239). -/
def Fld.ABR_EXP_W3_QUOTA (i : Nat) : Field := ⟨RegId.ABR_EXP_W3.addr i, 48, 16⟩
/-- `ABR_EXP_W3.SLOT_STRIDE`, bits [23:0] (R239). -/
def Fld.ABR_EXP_W3_SLOT_STRIDE (i : Nat) : Field := ⟨RegId.ABR_EXP_W3.addr i, 0, 24⟩
/-- `ABR_COLL_ABORT.VALID`, bits [63:63] (R240). -/
def Fld.ABR_COLL_ABORT_VALID : Field := ⟨RegId.ABR_COLL_ABORT.addr, 63, 1⟩
/-- `ABR_COLL_ABORT.CODE`, bits [55:48] (R240). -/
def Fld.ABR_COLL_ABORT_CODE : Field := ⟨RegId.ABR_COLL_ABORT.addr, 48, 8⟩
/-- `ABR_COLL_ABORT.GROUP`, bits [47:36] (R240). -/
def Fld.ABR_COLL_ABORT_GROUP : Field := ⟨RegId.ABR_COLL_ABORT.addr, 36, 12⟩
/-- `ABR_COLL_ABORT.DETECTOR`, bits [31:16] (R240). -/
def Fld.ABR_COLL_ABORT_DETECTOR : Field := ⟨RegId.ABR_COLL_ABORT.addr, 16, 16⟩
/-- `ABR_COLL_ABORT.SEQ_LO`, bits [15:0] (R240). -/
def Fld.ABR_COLL_ABORT_SEQ_LO : Field := ⟨RegId.ABR_COLL_ABORT.addr, 0, 16⟩
/-- `ABR_COLL_ABORT_CNT.COUNT`, bits [31:0] (R240). -/
def Fld.ABR_COLL_ABORT_CNT_COUNT : Field := ⟨RegId.ABR_COLL_ABORT_CNT.addr, 0, 32⟩
/-- `ABR_COLL_STATS.EARLY`, bits [63:48] (R240). -/
def Fld.ABR_COLL_STATS_EARLY : Field := ⟨RegId.ABR_COLL_STATS.addr, 48, 16⟩
/-- `ABR_COLL_STATS.SLOW_TX`, bits [47:32] (R240). -/
def Fld.ABR_COLL_STATS_SLOW_TX : Field := ⟨RegId.ABR_COLL_STATS.addr, 32, 16⟩
/-- `ABR_COLL_STATS.ZERO_CHUNKS`, bits [31:0] (R240). -/
def Fld.ABR_COLL_STATS_ZERO_CHUNKS : Field := ⟨RegId.ABR_COLL_STATS.addr, 0, 32⟩
/-- `OPT_FLAGS.WRONG_LINE`, bits [1:1] (R348). -/
def Fld.OPT_FLAGS_WRONG_LINE : Field := ⟨RegId.OPT_FLAGS.addr, 1, 1⟩
/-- `OPT_FLAGS.FADE`, bits [0:0] (R348). -/
def Fld.OPT_FLAGS_FADE : Field := ⟨RegId.OPT_FLAGS.addr, 0, 1⟩
/-- `OPT_FADE_CNT.COUNT`, bits [31:0] (R348). -/
def Fld.OPT_FADE_CNT_COUNT : Field := ⟨RegId.OPT_FADE_CNT.addr, 0, 32⟩
/-- `OPT_WRONG_LINE_CNT.COUNT`, bits [31:0] (R348). -/
def Fld.OPT_WRONG_LINE_CNT_COUNT : Field := ⟨RegId.OPT_WRONG_LINE_CNT.addr, 0, 32⟩
/-- `OPT_WRONG_LINE_LOG.VALID`, bits [63:63] (R348). -/
def Fld.OPT_WRONG_LINE_LOG_VALID : Field := ⟨RegId.OPT_WRONG_LINE_LOG.addr, 63, 1⟩
/-- `OPT_WRONG_LINE_LOG.ENGINE`, bits [58:56] (R348). -/
def Fld.OPT_WRONG_LINE_LOG_ENGINE : Field := ⟨RegId.OPT_WRONG_LINE_LOG.addr, 56, 3⟩
/-- `OPT_WRONG_LINE_LOG.RING`, bits [55:48] (R348). -/
def Fld.OPT_WRONG_LINE_LOG_RING : Field := ⟨RegId.OPT_WRONG_LINE_LOG.addr, 48, 8⟩
/-- `OPT_WRONG_LINE_LOG.EXPECTED`, bits [36:32] (R348). -/
def Fld.OPT_WRONG_LINE_LOG_EXPECTED : Field := ⟨RegId.OPT_WRONG_LINE_LOG.addr, 32, 5⟩
/-- `OPT_WRONG_LINE_LOG.FOUND`, bits [4:0] (R348). -/
def Fld.OPT_WRONG_LINE_LOG_FOUND : Field := ⟨RegId.OPT_WRONG_LINE_LOG.addr, 0, 5⟩
/-- `OPT_CIRCUIT.START`, bits [63:63] (R349). -/
def Fld.OPT_CIRCUIT_START : Field := ⟨RegId.OPT_CIRCUIT.addr, 63, 1⟩
/-- `OPT_CIRCUIT.STATE`, bits [62:61] (R349). -/
def Fld.OPT_CIRCUIT_STATE : Field := ⟨RegId.OPT_CIRCUIT.addr, 61, 2⟩
/-- `OPT_CIRCUIT.CODE`, bits [55:48] (R349). -/
def Fld.OPT_CIRCUIT_CODE : Field := ⟨RegId.OPT_CIRCUIT.addr, 48, 8⟩
/-- `OPT_CIRCUIT.UP`, bits [47:32] (R349). -/
def Fld.OPT_CIRCUIT_UP : Field := ⟨RegId.OPT_CIRCUIT.addr, 32, 16⟩
/-- `OPT_CIRCUIT.PORTS`, bits [15:0] (R349). -/
def Fld.OPT_CIRCUIT_PORTS : Field := ⟨RegId.OPT_CIRCUIT.addr, 0, 16⟩
/-- `OPT_CIRCUIT_MARK.MARK`, bits [63:0] (R349). -/
def Fld.OPT_CIRCUIT_MARK_MARK : Field := ⟨RegId.OPT_CIRCUIT_MARK.addr, 0, 64⟩
/-- `OPT_ENG_STATUS.PATCH_FREE`, bits [63:61] (R350). -/
def Fld.OPT_ENG_STATUS_PATCH_FREE (i : Nat) : Field := ⟨RegId.OPT_ENG_STATUS.addr i, 61, 3⟩
/-- `OPT_ENG_STATUS.EVQ`, bits [54:48] (R350). -/
def Fld.OPT_ENG_STATUS_EVQ (i : Nat) : Field := ⟨RegId.OPT_ENG_STATUS.addr i, 48, 7⟩
/-- `OPT_ENG_STATUS.RINGS_LOCKED`, bits [39:32] (R350). -/
def Fld.OPT_ENG_STATUS_RINGS_LOCKED (i : Nat) : Field := ⟨RegId.OPT_ENG_STATUS.addr i, 32, 8⟩
/-- `OPT_ENG_STATUS.TOO_LONG1`, bits [21:21] (R350). -/
def Fld.OPT_ENG_STATUS_TOO_LONG1 (i : Nat) : Field := ⟨RegId.OPT_ENG_STATUS.addr i, 21, 1⟩
/-- `OPT_ENG_STATUS.TOO_LONG0`, bits [20:20] (R350). -/
def Fld.OPT_ENG_STATUS_TOO_LONG0 (i : Nat) : Field := ⟨RegId.OPT_ENG_STATUS.addr i, 20, 1⟩
/-- `OPT_ENG_STATUS.LANES_REMOVED`, bits [13:8] (R350). -/
def Fld.OPT_ENG_STATUS_LANES_REMOVED (i : Nat) : Field := ⟨RegId.OPT_ENG_STATUS.addr i, 8, 6⟩
/-- `OPT_ENG_STATUS.EXP_LOST`, bits [1:1] (R350). -/
def Fld.OPT_ENG_STATUS_EXP_LOST (i : Nat) : Field := ⟨RegId.OPT_ENG_STATUS.addr i, 1, 1⟩
/-- `OPT_ENG_STATUS.SWAP_BUSY`, bits [0:0] (R350). -/
def Fld.OPT_ENG_STATUS_SWAP_BUSY (i : Nat) : Field := ⟨RegId.OPT_ENG_STATUS.addr i, 0, 1⟩
/-- `OPT_PORT_FEC.CORR_CW`, bits [63:32] (R350). -/
def Fld.OPT_PORT_FEC_CORR_CW (i : Nat) : Field := ⟨RegId.OPT_PORT_FEC.addr i, 32, 32⟩
/-- `OPT_PORT_FEC.UNCORR_CW`, bits [31:0] (R350). -/
def Fld.OPT_PORT_FEC_UNCORR_CW (i : Nat) : Field := ⟨RegId.OPT_PORT_FEC.addr i, 0, 32⟩
/-- `OPT_PATCH_PROG.STEP`, bits [63:61] (R351). -/
def Fld.OPT_PATCH_PROG_STEP (i : Nat) : Field := ⟨RegId.OPT_PATCH_PROG.addr i, 61, 3⟩
/-- `OPT_PATCH_PROG.PATCH`, bits [57:56] (R351). -/
def Fld.OPT_PATCH_PROG_PATCH (i : Nat) : Field := ⟨RegId.OPT_PATCH_PROG.addr i, 56, 2⟩
/-- `OPT_PATCH_PROG.EXPRESS`, bits [53:53] (R351). -/
def Fld.OPT_PATCH_PROG_EXPRESS (i : Nat) : Field := ⟨RegId.OPT_PATCH_PROG.addr i, 53, 1⟩
/-- `OPT_PATCH_PROG.LANE`, bits [52:48] (R351). -/
def Fld.OPT_PATCH_PROG_LANE (i : Nat) : Field := ⟨RegId.OPT_PATCH_PROG.addr i, 48, 5⟩
/-- `OPT_PATCH_PROG.SWAPS`, bits [31:0] (R351). -/
def Fld.OPT_PATCH_PROG_SWAPS (i : Nat) : Field := ⟨RegId.OPT_PATCH_PROG.addr i, 0, 32⟩
/-- `OPT_LANE.STATE`, bits [63:61] (R352). -/
def Fld.OPT_LANE_STATE (i j : Nat) : Field := ⟨RegId.OPT_LANE.addr i j, 61, 3⟩
/-- `OPT_LANE.RUNG`, bits [60:59] (R352). -/
def Fld.OPT_LANE_RUNG (i j : Nat) : Field := ⟨RegId.OPT_LANE.addr i j, 59, 2⟩
/-- `OPT_LANE.TX_RUNG`, bits [58:57] (R352). -/
def Fld.OPT_LANE_TX_RUNG (i j : Nat) : Field := ⟨RegId.OPT_LANE.addr i j, 57, 2⟩
/-- `OPT_LANE.SNR`, bits [55:48] (R352). -/
def Fld.OPT_LANE_SNR (i j : Nat) : Field := ⟨RegId.OPT_LANE.addr i j, 48, 8⟩
/-- `OPT_LANE.PATCHED`, bits [47:47] (R352). -/
def Fld.OPT_LANE_PATCHED (i j : Nat) : Field := ⟨RegId.OPT_LANE.addr i j, 47, 1⟩
/-- `OPT_LANE.PATCH`, bits [46:45] (R352). -/
def Fld.OPT_LANE_PATCH (i j : Nat) : Field := ⟨RegId.OPT_LANE.addr i j, 45, 2⟩
/-- `OPT_LANE.LADDER_CNT`, bits [31:16] (R352). -/
def Fld.OPT_LANE_LADDER_CNT (i j : Nat) : Field := ⟨RegId.OPT_LANE.addr i j, 16, 16⟩
/-- `OPT_LANE.HOLD_CNT`, bits [15:0] (R352). -/
def Fld.OPT_LANE_HOLD_CNT (i j : Nat) : Field := ⟨RegId.OPT_LANE.addr i j, 0, 16⟩
/-- `OPT_LASER.ROLE`, bits [63:62] (R353). -/
def Fld.OPT_LASER_ROLE (i j : Nat) : Field := ⟨RegId.OPT_LASER.addr i j, 62, 2⟩
/-- `OPT_LASER.STATE`, bits [61:59] (R353). -/
def Fld.OPT_LASER_STATE (i j : Nat) : Field := ⟨RegId.OPT_LASER.addr i j, 59, 3⟩
/-- `OPT_LASER.POWER`, bits [47:32] (R353). -/
def Fld.OPT_LASER_POWER (i j : Nat) : Field := ⟨RegId.OPT_LASER.addr i j, 32, 16⟩
/-- `OPT_LASER.COMM_UW`, bits [31:16] (R353). -/
def Fld.OPT_LASER_COMM_UW (i j : Nat) : Field := ⟨RegId.OPT_LASER.addr i j, 16, 16⟩
/-- `OPT_LASER.CHAN`, bits [4:0] (R353). -/
def Fld.OPT_LASER_CHAN (i j : Nat) : Field := ⟨RegId.OPT_LASER.addr i j, 0, 5⟩
/-- `OPT_FW_CTRL.LOCK`, bits [8:8] (R35). -/
def Fld.OPT_FW_CTRL_LOCK : Field := ⟨RegId.OPT_FW_CTRL.addr, 8, 1⟩
/-- `OPT_FW_CTRL.ENG_EN`, bits [7:0] (R35). -/
def Fld.OPT_FW_CTRL_ENG_EN : Field := ⟨RegId.OPT_FW_CTRL.addr, 0, 8⟩
/-- `OPT_FW_WIN.EN`, bits [63:63] (R35). -/
def Fld.OPT_FW_WIN_EN (i j : Nat) : Field := ⟨RegId.OPT_FW_WIN.addr i j, 63, 1⟩
/-- `OPT_FW_WIN.WRITE`, bits [62:62] (R35). -/
def Fld.OPT_FW_WIN_WRITE (i j : Nat) : Field := ⟨RegId.OPT_FW_WIN.addr i j, 62, 1⟩
/-- `OPT_FW_WIN.READ`, bits [61:61] (R35). -/
def Fld.OPT_FW_WIN_READ (i j : Nat) : Field := ⟨RegId.OPT_FW_WIN.addr i j, 61, 1⟩
/-- `OPT_FW_WIN.LIMIT`, bits [31:16] (R35). -/
def Fld.OPT_FW_WIN_LIMIT (i j : Nat) : Field := ⟨RegId.OPT_FW_WIN.addr i j, 16, 16⟩
/-- `OPT_FW_WIN.BASE`, bits [15:0] (R35). -/
def Fld.OPT_FW_WIN_BASE (i j : Nat) : Field := ⟨RegId.OPT_FW_WIN.addr i j, 0, 16⟩
/-- `OPT_FW_STATUS.REFUSE_CNT`, bits [63:32] (R36). -/
def Fld.OPT_FW_STATUS_REFUSE_CNT (i : Nat) : Field := ⟨RegId.OPT_FW_STATUS.addr i, 32, 32⟩
/-- `OPT_FW_STATUS.DROP_CNT`, bits [31:0] (R36). -/
def Fld.OPT_FW_STATUS_DROP_CNT (i : Nat) : Field := ⟨RegId.OPT_FW_STATUS.addr i, 0, 32⟩
/-- `SCR_COUNT.COUNT`, bits [63:0] (R375). -/
def Fld.SCR_COUNT_COUNT : Field := ⟨RegId.SCR_COUNT.addr, 0, 64⟩
/-- `SCR_STATUS.DEGRADED`, bits [63:63] (R375). -/
def Fld.SCR_STATUS_DEGRADED : Field := ⟨RegId.SCR_STATUS.addr, 63, 1⟩
/-- `SCR_STATUS.LOCKED`, bits [62:62] (R375). -/
def Fld.SCR_STATUS_LOCKED : Field := ⟨RegId.SCR_STATUS.addr, 62, 1⟩
/-- `SCR_STATUS.REF_SRC`, bits [61:61] (R375). -/
def Fld.SCR_STATUS_REF_SRC : Field := ⟨RegId.SCR_STATUS.addr, 61, 1⟩
/-- `SCR_STATUS.OFFSET`, bits [47:32] (R375). -/
def Fld.SCR_STATUS_OFFSET : Field := ⟨RegId.SCR_STATUS.addr, 32, 16⟩
/-- `SCR_STATUS.DELAY`, bits [31:16] (R375). -/
def Fld.SCR_STATUS_DELAY : Field := ⟨RegId.SCR_STATUS.addr, 16, 16⟩
/-- `SCR_STATUS.EXCH`, bits [15:0] (R375). -/
def Fld.SCR_STATUS_EXCH : Field := ⟨RegId.SCR_STATUS.addr, 0, 16⟩
/-- `SCR_FLAGS.REF_LOST`, bits [0:0] (R375). -/
def Fld.SCR_FLAGS_REF_LOST : Field := ⟨RegId.SCR_FLAGS.addr, 0, 1⟩
/-- `SCR_REF_LOST_CNT.COUNT`, bits [31:0] (R375). -/
def Fld.SCR_REF_LOST_CNT_COUNT : Field := ⟨RegId.SCR_REF_LOST_CNT.addr, 0, 32⟩
/-- `SCR_REF_FREQ.PPM`, bits [31:0] (R375). -/
def Fld.SCR_REF_FREQ_PPM : Field := ⟨RegId.SCR_REF_FREQ.addr, 0, 32⟩
/-- `SCR_SYNC.ROLE`, bits [9:8] (R376). -/
def Fld.SCR_SYNC_ROLE : Field := ⟨RegId.SCR_SYNC.addr, 8, 2⟩
/-- `SCR_SYNC.BACKUP`, bits [7:4] (R376). -/
def Fld.SCR_SYNC_BACKUP : Field := ⟨RegId.SCR_SYNC.addr, 4, 4⟩
/-- `SCR_SYNC.PARENT`, bits [3:0] (R376). -/
def Fld.SCR_SYNC_PARENT : Field := ⟨RegId.SCR_SYNC.addr, 0, 4⟩
/-- `SCR_SET.VALUE`, bits [63:0] (R376). -/
def Fld.SCR_SET_VALUE : Field := ⟨RegId.SCR_SET.addr, 0, 64⟩
/-- `SCR_LAUNCH.PENDING`, bits [63:48] (R376). -/
def Fld.SCR_LAUNCH_PENDING : Field := ⟨RegId.SCR_LAUNCH.addr, 48, 16⟩
/-- `SCR_LAUNCH.DEG_FIRED`, bits [47:32] (R376). -/
def Fld.SCR_LAUNCH_DEG_FIRED : Field := ⟨RegId.SCR_LAUNCH.addr, 32, 16⟩
/-- `SCR_LAUNCH.LATE`, bits [31:0] (R376). -/
def Fld.SCR_LAUNCH_LATE : Field := ⟨RegId.SCR_LAUNCH.addr, 0, 32⟩
/-- `SCR_CAL.SECONDS`, bits [63:16] (R377). -/
def Fld.SCR_CAL_SECONDS : Field := ⟨RegId.SCR_CAL.addr, 16, 48⟩
/-- `SCR_CAL.FRACTION`, bits [15:0] (R377). -/
def Fld.SCR_CAL_FRACTION : Field := ⟨RegId.SCR_CAL.addr, 0, 16⟩
/-- `SCR_CAL_ALARM.ALARM`, bits [63:0] (R377). -/
def Fld.SCR_CAL_ALARM_ALARM : Field := ⟨RegId.SCR_CAL_ALARM.addr, 0, 64⟩
/-- `SCR_CAL_STATUS.VALID`, bits [3:3] (R377). -/
def Fld.SCR_CAL_STATUS_VALID : Field := ⟨RegId.SCR_CAL_STATUS.addr, 3, 1⟩
/-- `SCR_CAL_STATUS.CELL_LOW`, bits [2:2] (R377). -/
def Fld.SCR_CAL_STATUS_CELL_LOW : Field := ⟨RegId.SCR_CAL_STATUS.addr, 2, 1⟩
/-- `SCR_CAL_STATUS.FIRED`, bits [1:1] (R377). -/
def Fld.SCR_CAL_STATUS_FIRED : Field := ⟨RegId.SCR_CAL_STATUS.addr, 1, 1⟩
/-- `SCR_CAL_STATUS.ARMED`, bits [0:0] (R377). -/
def Fld.SCR_CAL_STATUS_ARMED : Field := ⟨RegId.SCR_CAL_STATUS.addr, 0, 1⟩
/-- `SCR_LATCH.READY`, bits [1:1] (R377). -/
def Fld.SCR_LATCH_READY : Field := ⟨RegId.SCR_LATCH.addr, 1, 1⟩
/-- `SCR_LATCH.GO`, bits [0:0] (R377). -/
def Fld.SCR_LATCH_GO : Field := ⟨RegId.SCR_LATCH.addr, 0, 1⟩
/-- `SCR_LATCH_COUNT.COUNT`, bits [63:0] (R377). -/
def Fld.SCR_LATCH_COUNT_COUNT : Field := ⟨RegId.SCR_LATCH_COUNT.addr, 0, 64⟩
/-- `SCR_LATCH_CAL.CAL`, bits [63:0] (R377). -/
def Fld.SCR_LATCH_CAL_CAL : Field := ⟨RegId.SCR_LATCH_CAL.addr, 0, 64⟩
/-- `SCR_ASYM.ASYM`, bits [15:0] (R376). -/
def Fld.SCR_ASYM_ASYM (i : Nat) : Field := ⟨RegId.SCR_ASYM.addr i, 0, 16⟩
/-- `LDG_STEP.ADV`, bits [63:63] (R402). -/
def Fld.LDG_STEP_ADV : Field := ⟨RegId.LDG_STEP.addr, 63, 1⟩
/-- `LDG_STEP.NUMBER`, bits [47:0] (R402). -/
def Fld.LDG_STEP_NUMBER : Field := ⟨RegId.LDG_STEP.addr, 0, 48⟩
/-- `LDG_STEP_STATUS.VALID`, bits [63:63] (R402). -/
def Fld.LDG_STEP_STATUS_VALID : Field := ⟨RegId.LDG_STEP_STATUS.addr, 63, 1⟩
/-- `LDG_STEP_STATUS.TICK_CLEAN`, bits [62:62] (R402). -/
def Fld.LDG_STEP_STATUS_TICK_CLEAN : Field := ⟨RegId.LDG_STEP_STATUS.addr, 62, 1⟩
/-- `LDG_STEP_STATUS.CAUSE`, bits [55:48] (R402). -/
def Fld.LDG_STEP_STATUS_CAUSE : Field := ⟨RegId.LDG_STEP_STATUS.addr, 48, 8⟩
/-- `LDG_STEP_STATUS.TICK_EVENTS`, bits [31:0] (R402). -/
def Fld.LDG_STEP_STATUS_TICK_EVENTS : Field := ⟨RegId.LDG_STEP_STATUS.addr, 0, 32⟩
/-- `LDG_DIGEST_CTRL.START`, bits [3:3] (R403). -/
def Fld.LDG_DIGEST_CTRL_START : Field := ⟨RegId.LDG_DIGEST_CTRL.addr, 3, 1⟩
/-- `LDG_DIGEST_CTRL.CLASS`, bits [2:0] (R403). -/
def Fld.LDG_DIGEST_CTRL_CLASS : Field := ⟨RegId.LDG_DIGEST_CTRL.addr, 0, 3⟩
/-- `LDG_DIGEST_PROG.PCT`, bits [63:48] (R403). -/
def Fld.LDG_DIGEST_PROG_PCT : Field := ⟨RegId.LDG_DIGEST_PROG.addr, 48, 16⟩
/-- `LDG_DIGEST_PROG.STATE`, bits [47:46] (R403). -/
def Fld.LDG_DIGEST_PROG_STATE : Field := ⟨RegId.LDG_DIGEST_PROG.addr, 46, 2⟩
/-- `LDG_DIGEST_PROG.CODE`, bits [39:32] (R403). -/
def Fld.LDG_DIGEST_PROG_CODE : Field := ⟨RegId.LDG_DIGEST_PROG.addr, 32, 8⟩
/-- `LDG_DIGEST_PROG.POSITION`, bits [31:0] (R403). -/
def Fld.LDG_DIGEST_PROG_POSITION : Field := ⟨RegId.LDG_DIGEST_PROG.addr, 0, 32⟩
/-- `LDG_REGION_A.EN`, bits [63:63] (R403). -/
def Fld.LDG_REGION_A_EN (i : Nat) : Field := ⟨RegId.LDG_REGION_A.addr i, 63, 1⟩
/-- `LDG_REGION_A.CLASS`, bits [62:60] (R403). -/
def Fld.LDG_REGION_A_CLASS (i : Nat) : Field := ⟨RegId.LDG_REGION_A.addr i, 60, 3⟩
/-- `LDG_REGION_A.BASE`, bits [47:0] (R403). -/
def Fld.LDG_REGION_A_BASE (i : Nat) : Field := ⟨RegId.LDG_REGION_A.addr i, 0, 48⟩
/-- `LDG_REGION_B.LENGTH`, bits [40:0] (R403). -/
def Fld.LDG_REGION_B_LENGTH (i : Nat) : Field := ⟨RegId.LDG_REGION_B.addr i, 0, 41⟩
/-- `LDG_RNG_KEY.KEY`, bits [63:0] (R404). -/
def Fld.LDG_RNG_KEY_KEY (i : Nat) : Field := ⟨RegId.LDG_RNG_KEY.addr i, 0, 64⟩
/-- `LDG_RNG_CTR.CTR`, bits [63:0] (R404). -/
def Fld.LDG_RNG_CTR_CTR (i : Nat) : Field := ⟨RegId.LDG_RNG_CTR.addr i, 0, 64⟩
/-- `LDG_PLUMB.EN`, bits [63:63] (R405). -/
def Fld.LDG_PLUMB_EN : Field := ⟨RegId.LDG_PLUMB.addr, 63, 1⟩
/-- `LDG_PLUMB.STATE`, bits [62:60] (R405). -/
def Fld.LDG_PLUMB_STATE : Field := ⟨RegId.LDG_PLUMB.addr, 60, 3⟩
/-- `LDG_PLUMB.CODE`, bits [55:48] (R405). -/
def Fld.LDG_PLUMB_CODE : Field := ⟨RegId.LDG_PLUMB.addr, 48, 8⟩
/-- `LDG_PLUMB.PARTNER`, bits [47:32] (R405). -/
def Fld.LDG_PLUMB_PARTNER : Field := ⟨RegId.LDG_PLUMB.addr, 32, 16⟩
/-- `LDG_PLUMB_START.MARK`, bits [63:0] (R405). -/
def Fld.LDG_PLUMB_START_MARK : Field := ⟨RegId.LDG_PLUMB_START.addr, 0, 64⟩
/-- `LDG_PLUMB_REP0.VALID`, bits [63:63] (R405). -/
def Fld.LDG_PLUMB_REP0_VALID : Field := ⟨RegId.LDG_PLUMB_REP0.addr, 63, 1⟩
/-- `LDG_PLUMB_REP0.KIND`, bits [62:61] (R405). -/
def Fld.LDG_PLUMB_REP0_KIND : Field := ⟨RegId.LDG_PLUMB_REP0.addr, 61, 2⟩
/-- `LDG_PLUMB_REP0.BAY`, bits [57:48] (R405). -/
def Fld.LDG_PLUMB_REP0_BAY : Field := ⟨RegId.LDG_PLUMB_REP0.addr, 48, 10⟩
/-- `LDG_PLUMB_REP0.STEP`, bits [47:0] (R405). -/
def Fld.LDG_PLUMB_REP0_STEP : Field := ⟨RegId.LDG_PLUMB_REP0.addr, 0, 48⟩
/-- `LDG_PLUMB_REP1.OFF_LO`, bits [63:44] (R405). -/
def Fld.LDG_PLUMB_REP1_OFF_LO : Field := ⟨RegId.LDG_PLUMB_REP1.addr, 44, 20⟩
/-- `LDG_PLUMB_REP1.OFF_HI`, bits [43:24] (R405). -/
def Fld.LDG_PLUMB_REP1_OFF_HI : Field := ⟨RegId.LDG_PLUMB_REP1.addr, 24, 20⟩
/-- `LDG_PLUMB_REP1.INDEX`, bits [23:0] (R405). -/
def Fld.LDG_PLUMB_REP1_INDEX : Field := ⟨RegId.LDG_PLUMB_REP1.addr, 0, 24⟩
/-- `LDG_PLUMB_REP2.SEQ`, bits [63:32] (R405). -/
def Fld.LDG_PLUMB_REP2_SEQ : Field := ⟨RegId.LDG_PLUMB_REP2.addr, 32, 32⟩
/-- `LDG_PLUMB_REP2.GROUP`, bits [11:0] (R405). -/
def Fld.LDG_PLUMB_REP2_GROUP : Field := ⟨RegId.LDG_PLUMB_REP2.addr, 0, 12⟩
/-- `LDG_PLUMB_STOP.MARK`, bits [63:0] (R405). -/
def Fld.LDG_PLUMB_STOP_MARK : Field := ⟨RegId.LDG_PLUMB_STOP.addr, 0, 64⟩
/-- `LDG_PLUMB_STATS.DIVERGE_CNT`, bits [63:32] (R405). -/
def Fld.LDG_PLUMB_STATS_DIVERGE_CNT : Field := ⟨RegId.LDG_PLUMB_STATS.addr, 32, 32⟩
/-- `LDG_PLUMB_STATS.HOLDS`, bits [31:16] (R405). -/
def Fld.LDG_PLUMB_STATS_HOLDS : Field := ⟨RegId.LDG_PLUMB_STATS.addr, 16, 16⟩
/-- `LDG_PLUMB_STATS.BATCHES`, bits [15:0] (R405). -/
def Fld.LDG_PLUMB_STATS_BATCHES : Field := ⟨RegId.LDG_PLUMB_STATS.addr, 0, 16⟩
/-- `LDG_CLASS_DIG.WORD`, bits [63:0] (R403). -/
def Fld.LDG_CLASS_DIG_WORD (i j : Nat) : Field := ⟨RegId.LDG_CLASS_DIG.addr i j, 0, 64⟩
/-- `LDG_BASTE_CTRL.FORCE`, bits [63:63] (R435). -/
def Fld.LDG_BASTE_CTRL_FORCE : Field := ⟨RegId.LDG_BASTE_CTRL.addr, 63, 1⟩
/-- `LDG_BASTE_CTRL.EN`, bits [62:62] (R435). -/
def Fld.LDG_BASTE_CTRL_EN : Field := ⟨RegId.LDG_BASTE_CTRL.addr, 62, 1⟩
/-- `LDG_BASTE_CTRL.PART_EN`, bits [61:61] (R435). -/
def Fld.LDG_BASTE_CTRL_PART_EN : Field := ⟨RegId.LDG_BASTE_CTRL.addr, 61, 1⟩
/-- `LDG_BASTE_CTRL.PARTNER`, bits [47:32] (R435). -/
def Fld.LDG_BASTE_CTRL_PARTNER : Field := ⟨RegId.LDG_BASTE_CTRL.addr, 32, 16⟩
/-- `LDG_BASTE_CTRL.TRICKLE`, bits [23:16] (R435). -/
def Fld.LDG_BASTE_CTRL_TRICKLE : Field := ⟨RegId.LDG_BASTE_CTRL.addr, 16, 8⟩
/-- `LDG_BASTE_CTRL.S`, bits [12:0] (R435). -/
def Fld.LDG_BASTE_CTRL_S : Field := ⟨RegId.LDG_BASTE_CTRL.addr, 0, 13⟩
/-- `LDG_RES.PEER_SRC`, bits [63:48] (R435). -/
def Fld.LDG_RES_PEER_SRC : Field := ⟨RegId.LDG_RES.addr, 48, 16⟩
/-- `LDG_RES.BASE`, bits [47:30] (R435). -/
def Fld.LDG_RES_BASE : Field := ⟨RegId.LDG_RES.addr, 30, 18⟩
/-- `LDG_RES.PEER_GIB`, bits [17:9] (R435). -/
def Fld.LDG_RES_PEER_GIB : Field := ⟨RegId.LDG_RES.addr, 9, 9⟩
/-- `LDG_RES.LOCAL_GIB`, bits [8:0] (R435). -/
def Fld.LDG_RES_LOCAL_GIB : Field := ⟨RegId.LDG_RES.addr, 0, 9⟩
/-- `LDG_BASTE_STATUS.STATE`, bits [63:61] (R436). -/
def Fld.LDG_BASTE_STATUS_STATE : Field := ⟨RegId.LDG_BASTE_STATUS.addr, 61, 3⟩
/-- `LDG_BASTE_STATUS.CODE`, bits [55:48] (R436). -/
def Fld.LDG_BASTE_STATUS_CODE : Field := ⟨RegId.LDG_BASTE_STATUS.addr, 48, 8⟩
/-- `LDG_BASTE_STATUS.STEP`, bits [47:0] (R436). -/
def Fld.LDG_BASTE_STATUS_STEP : Field := ⟨RegId.LDG_BASTE_STATUS.addr, 0, 48⟩
/-- `LDG_BASTE_PROG.PCT`, bits [63:48] (R437). -/
def Fld.LDG_BASTE_PROG_PCT : Field := ⟨RegId.LDG_BASTE_PROG.addr, 48, 16⟩
/-- `LDG_BASTE_PROG.STATE`, bits [47:46] (R437). -/
def Fld.LDG_BASTE_PROG_STATE : Field := ⟨RegId.LDG_BASTE_PROG.addr, 46, 2⟩
/-- `LDG_BASTE_PROG.CODE`, bits [39:32] (R437). -/
def Fld.LDG_BASTE_PROG_CODE : Field := ⟨RegId.LDG_BASTE_PROG.addr, 32, 8⟩
/-- `LDG_BASTE_PROG.POSITION`, bits [31:0] (R437). -/
def Fld.LDG_BASTE_PROG_POSITION : Field := ⟨RegId.LDG_BASTE_PROG.addr, 0, 32⟩
/-- `LDG_BASTE_STATS.PEER_VALID`, bits [63:63] (R436). -/
def Fld.LDG_BASTE_STATS_PEER_VALID : Field := ⟨RegId.LDG_BASTE_STATS.addr, 63, 1⟩
/-- `LDG_BASTE_STATS.BASTES`, bits [47:32] (R436). -/
def Fld.LDG_BASTE_STATS_BASTES : Field := ⟨RegId.LDG_BASTE_STATS.addr, 32, 16⟩
/-- `LDG_BASTE_STATS.DEFERS`, bits [31:16] (R436). -/
def Fld.LDG_BASTE_STATS_DEFERS : Field := ⟨RegId.LDG_BASTE_STATS.addr, 16, 16⟩
/-- `LDG_BASTE_STATS.RISK_BASTES`, bits [15:0] (R436). -/
def Fld.LDG_BASTE_STATS_RISK_BASTES : Field := ⟨RegId.LDG_BASTE_STATS.addr, 0, 16⟩
/-- `LDG_RISK.TOTAL`, bits [63:56] (R436). -/
def Fld.LDG_RISK_TOTAL : Field := ⟨RegId.LDG_RISK.addr, 56, 8⟩
/-- `LDG_RISK.MEM`, bits [55:48] (R436). -/
def Fld.LDG_RISK_MEM : Field := ⟨RegId.LDG_RISK.addr, 48, 8⟩
/-- `LDG_RISK.LINK`, bits [47:40] (R436). -/
def Fld.LDG_RISK_LINK : Field := ⟨RegId.LDG_RISK.addr, 40, 8⟩
/-- `LDG_RISK.LASER`, bits [39:32] (R436). -/
def Fld.LDG_RISK_LASER : Field := ⟨RegId.LDG_RISK.addr, 32, 8⟩
/-- `LDG_RISK.THERMAL`, bits [31:24] (R436). -/
def Fld.LDG_RISK_THERMAL : Field := ⟨RegId.LDG_RISK.addr, 24, 8⟩
/-- `LDG_RISK.AGE`, bits [23:16] (R436). -/
def Fld.LDG_RISK_AGE : Field := ⟨RegId.LDG_RISK.addr, 16, 8⟩
/-- `LDG_RISK.NBR`, bits [15:8] (R436). -/
def Fld.LDG_RISK_NBR : Field := ⟨RegId.LDG_RISK.addr, 8, 8⟩
/-- `LDG_CURSOR.CURSOR`, bits [63:0] (R438). -/
def Fld.LDG_CURSOR_CURSOR : Field := ⟨RegId.LDG_CURSOR.addr, 0, 64⟩
/-- `LDG_HEM_PROG.PCT`, bits [63:48] (R437). -/
def Fld.LDG_HEM_PROG_PCT : Field := ⟨RegId.LDG_HEM_PROG.addr, 48, 16⟩
/-- `LDG_HEM_PROG.STATE`, bits [47:46] (R437). -/
def Fld.LDG_HEM_PROG_STATE : Field := ⟨RegId.LDG_HEM_PROG.addr, 46, 2⟩
/-- `LDG_HEM_PROG.CODE`, bits [39:32] (R437). -/
def Fld.LDG_HEM_PROG_CODE : Field := ⟨RegId.LDG_HEM_PROG.addr, 32, 8⟩
/-- `LDG_HEM_PROG.POSITION`, bits [31:0] (R437). -/
def Fld.LDG_HEM_PROG_POSITION : Field := ⟨RegId.LDG_HEM_PROG.addr, 0, 32⟩
/-- `LDG_RESTORE_PROG.PCT`, bits [63:48] (R437). -/
def Fld.LDG_RESTORE_PROG_PCT : Field := ⟨RegId.LDG_RESTORE_PROG.addr, 48, 16⟩
/-- `LDG_RESTORE_PROG.STATE`, bits [47:46] (R437). -/
def Fld.LDG_RESTORE_PROG_STATE : Field := ⟨RegId.LDG_RESTORE_PROG.addr, 46, 2⟩
/-- `LDG_RESTORE_PROG.CODE`, bits [39:32] (R437). -/
def Fld.LDG_RESTORE_PROG_CODE : Field := ⟨RegId.LDG_RESTORE_PROG.addr, 32, 8⟩
/-- `LDG_RESTORE_PROG.POSITION`, bits [31:0] (R437). -/
def Fld.LDG_RESTORE_PROG_POSITION : Field := ⟨RegId.LDG_RESTORE_PROG.addr, 0, 32⟩
/-- `LDG_RESTORE_STATUS.FIRST_FAIL`, bits [63:56] (R438). -/
def Fld.LDG_RESTORE_STATUS_FIRST_FAIL : Field := ⟨RegId.LDG_RESTORE_STATUS.addr, 56, 8⟩
/-- `LDG_RESTORE_STATUS.SKEW_ITEM`, bits [55:48] (R438). -/
def Fld.LDG_RESTORE_STATUS_SKEW_ITEM : Field := ⟨RegId.LDG_RESTORE_STATUS.addr, 48, 8⟩
/-- `LDG_RESTORE_STATUS.FAILS`, bits [47:32] (R438). -/
def Fld.LDG_RESTORE_STATUS_FAILS : Field := ⟨RegId.LDG_RESTORE_STATUS.addr, 32, 16⟩
/-- `LDG_RESTORE_STATUS.REFETCHED`, bits [31:16] (R438). -/
def Fld.LDG_RESTORE_STATUS_REFETCHED : Field := ⟨RegId.LDG_RESTORE_STATUS.addr, 16, 16⟩
/-- `LDG_SEC_A.EN`, bits [63:63] (R438). -/
def Fld.LDG_SEC_A_EN (i : Nat) : Field := ⟨RegId.LDG_SEC_A.addr i, 63, 1⟩
/-- `LDG_SEC_A.SHARED`, bits [62:62] (R438). -/
def Fld.LDG_SEC_A_SHARED (i : Nat) : Field := ⟨RegId.LDG_SEC_A.addr i, 62, 1⟩
/-- `LDG_SEC_A.BASE`, bits [47:0] (R438). -/
def Fld.LDG_SEC_A_BASE (i : Nat) : Field := ⟨RegId.LDG_SEC_A.addr i, 0, 48⟩
/-- `LDG_SEC_B.LENGTH`, bits [40:0] (R438). -/
def Fld.LDG_SEC_B_LENGTH (i : Nat) : Field := ⟨RegId.LDG_SEC_B.addr i, 0, 41⟩
/-- `MSC_HBM1500_PERMIT.STACK`, bits [7:0] (R39). -/
def Fld.MSC_HBM1500_PERMIT_STACK : Field := ⟨RegId.MSC_HBM1500_PERMIT.addr, 0, 8⟩
/-- `MSC_LEASE.EN`, bits [63:63] (R440). -/
def Fld.MSC_LEASE_EN : Field := ⟨RegId.MSC_LEASE.addr, 63, 1⟩
/-- `MSC_LEASE.STATE`, bits [62:60] (R440). -/
def Fld.MSC_LEASE_STATE : Field := ⟨RegId.MSC_LEASE.addr, 60, 3⟩
/-- `MSC_LEASE.LENGTH`, bits [47:32] (R440). -/
def Fld.MSC_LEASE_LENGTH : Field := ⟨RegId.MSC_LEASE.addr, 32, 16⟩
/-- `MSC_LEASE.GRACE`, bits [31:16] (R440). -/
def Fld.MSC_LEASE_GRACE : Field := ⟨RegId.MSC_LEASE.addr, 16, 16⟩
/-- `MSC_LEASE.REMAIN`, bits [15:0] (R440). -/
def Fld.MSC_LEASE_REMAIN : Field := ⟨RegId.MSC_LEASE.addr, 0, 16⟩
/-- `MSC_LEASE_CNT.RENEWALS`, bits [63:32] (R440). -/
def Fld.MSC_LEASE_CNT_RENEWALS : Field := ⟨RegId.MSC_LEASE_CNT.addr, 32, 32⟩
/-- `MSC_LEASE_CNT.EXPIRIES`, bits [31:0] (R440). -/
def Fld.MSC_LEASE_CNT_EXPIRIES : Field := ⟨RegId.MSC_LEASE_CNT.addr, 0, 32⟩
/-- `MSC_FW_STATUS.RUN_SVN`, bits [63:56] (R496). -/
def Fld.MSC_FW_STATUS_RUN_SVN : Field := ⟨RegId.MSC_FW_STATUS.addr, 56, 8⟩
/-- `MSC_FW_STATUS.FUSE_COUNT`, bits [55:48] (R496). -/
def Fld.MSC_FW_STATUS_FUSE_COUNT : Field := ⟨RegId.MSC_FW_STATUS.addr, 48, 8⟩
/-- `MSC_FW_STATUS.KEY_SLOT`, bits [47:46] (R496). -/
def Fld.MSC_FW_STATUS_KEY_SLOT : Field := ⟨RegId.MSC_FW_STATUS.addr, 46, 2⟩
/-- `MSC_FW_STATUS.REVOKED`, bits [45:42] (R496). -/
def Fld.MSC_FW_STATUS_REVOKED : Field := ⟨RegId.MSC_FW_STATUS.addr, 42, 4⟩
/-- `MSC_FW_STATUS.IMAGE`, bits [41:40] (R496). -/
def Fld.MSC_FW_STATUS_IMAGE : Field := ⟨RegId.MSC_FW_STATUS.addr, 40, 2⟩
/-- `MSC_FW_STATUS.BOOT_FAIL`, bits [2:0] (R496). -/
def Fld.MSC_FW_STATUS_BOOT_FAIL : Field := ⟨RegId.MSC_FW_STATUS.addr, 0, 3⟩
/-- `MSC_ACC_DENY.VALID`, bits [63:63] (R494). -/
def Fld.MSC_ACC_DENY_VALID : Field := ⟨RegId.MSC_ACC_DENY.addr, 63, 1⟩
/-- `MSC_ACC_DENY.CLASS`, bits [62:58] (R494). -/
def Fld.MSC_ACC_DENY_CLASS : Field := ⟨RegId.MSC_ACC_DENY.addr, 58, 5⟩
/-- `MSC_ACC_DENY.PERM`, bits [57:54] (R494). -/
def Fld.MSC_ACC_DENY_PERM : Field := ⟨RegId.MSC_ACC_DENY.addr, 54, 4⟩
/-- `MSC_ACC_DENY.TARGET`, bits [53:43] (R494). -/
def Fld.MSC_ACC_DENY_TARGET : Field := ⟨RegId.MSC_ACC_DENY.addr, 43, 11⟩
/-- `MSC_ACC_DENY.PAGE`, bits [39:16] (R494). -/
def Fld.MSC_ACC_DENY_PAGE : Field := ⟨RegId.MSC_ACC_DENY.addr, 16, 24⟩
/-- `MSC_ACC_DENY.SRC_DEV`, bits [15:0] (R494). -/
def Fld.MSC_ACC_DENY_SRC_DEV : Field := ⟨RegId.MSC_ACC_DENY.addr, 0, 16⟩
/-- `MSC_ACC_DENY_CNT.COUNT`, bits [31:0] (R494). -/
def Fld.MSC_ACC_DENY_CNT_COUNT : Field := ⟨RegId.MSC_ACC_DENY_CNT.addr, 0, 32⟩
/-- `MSC_FW_VERSION.VERSION`, bits [63:0] (R496). -/
def Fld.MSC_FW_VERSION_VERSION : Field := ⟨RegId.MSC_FW_VERSION.addr, 0, 64⟩
/-- `MSC_MEAS_EXT.GO`, bits [63:63] (R496). -/
def Fld.MSC_MEAS_EXT_GO : Field := ⟨RegId.MSC_MEAS_EXT.addr, 63, 1⟩
/-- `MSC_MEAS_EXT.REG`, bits [2:0] (R496). -/
def Fld.MSC_MEAS_EXT_REG : Field := ⟨RegId.MSC_MEAS_EXT.addr, 0, 3⟩
/-- `MSC_MEAS_DATA.DATA`, bits [63:0] (R496). -/
def Fld.MSC_MEAS_DATA_DATA (i : Nat) : Field := ⟨RegId.MSC_MEAS_DATA.addr i, 0, 64⟩
/-- `MSC_MEAS.VALUE`, bits [63:0] (R496). -/
def Fld.MSC_MEAS_VALUE (i j : Nat) : Field := ⟨RegId.MSC_MEAS.addr i j, 0, 64⟩
/-- `MSC_PEER_RANGE.EN`, bits [63:63] (R494). -/
def Fld.MSC_PEER_RANGE_EN (i : Nat) : Field := ⟨RegId.MSC_PEER_RANGE.addr i, 63, 1⟩
/-- `MSC_PEER_RANGE.HI`, bits [31:16] (R494). -/
def Fld.MSC_PEER_RANGE_HI (i : Nat) : Field := ⟨RegId.MSC_PEER_RANGE.addr i, 16, 16⟩
/-- `MSC_PEER_RANGE.LO`, bits [15:0] (R494). -/
def Fld.MSC_PEER_RANGE_LO (i : Nat) : Field := ⟨RegId.MSC_PEER_RANGE.addr i, 0, 16⟩
/-- `MSC_BAY_GROUP.GROUP`, bits [63:0] (R494). -/
def Fld.MSC_BAY_GROUP_GROUP (i : Nat) : Field := ⟨RegId.MSC_BAY_GROUP.addr i, 0, 64⟩
/-- `MSC_STRAP.STRAP_FAULT`, bits [63:63] (R543). -/
def Fld.MSC_STRAP_STRAP_FAULT : Field := ⟨RegId.MSC_STRAP.addr, 63, 1⟩
/-- `MSC_STRAP.CAUSE`, bits [62:60] (R543). -/
def Fld.MSC_STRAP_CAUSE : Field := ⟨RegId.MSC_STRAP.addr, 60, 3⟩
/-- `MSC_STRAP.DEV`, bits [20:5] (R543). -/
def Fld.MSC_STRAP_DEV : Field := ⟨RegId.MSC_STRAP.addr, 5, 16⟩
/-- `MSC_STRAP.PROF`, bits [4:2] (R543). -/
def Fld.MSC_STRAP_PROF : Field := ⟨RegId.MSC_STRAP.addr, 2, 3⟩
/-- `MSC_STRAP.PAR`, bits [1:0] (R543). -/
def Fld.MSC_STRAP_PAR : Field := ⟨RegId.MSC_STRAP.addr, 0, 2⟩
/-- `MSC_STRAP_CNT.COUNT`, bits [31:0] (R543). -/
def Fld.MSC_STRAP_CNT_COUNT : Field := ⟨RegId.MSC_STRAP_CNT.addr, 0, 32⟩
/-- `MSC_MGMT.STATIC`, bits [63:57] (R543). -/
def Fld.MSC_MGMT_STATIC : Field := ⟨RegId.MSC_MGMT.addr, 57, 7⟩
/-- `MSC_MGMT.DYN`, bits [56:50] (R543). -/
def Fld.MSC_MGMT_DYN : Field := ⟨RegId.MSC_MGMT.addr, 50, 7⟩
/-- `MSC_MGMT.MODE`, bits [49:48] (R543). -/
def Fld.MSC_MGMT_MODE : Field := ⟨RegId.MSC_MGMT.addr, 48, 2⟩
/-- `MSC_MGMT.IBI_EN`, bits [47:47] (R543). -/
def Fld.MSC_MGMT_IBI_EN : Field := ⟨RegId.MSC_MGMT.addr, 47, 1⟩
/-- `MSC_MGMT.EVQ`, bits [46:39] (R543). -/
def Fld.MSC_MGMT_EVQ : Field := ⟨RegId.MSC_MGMT.addr, 39, 8⟩
/-- `MSC_MGMT.DROPPED`, bits [31:0] (R543). -/
def Fld.MSC_MGMT_DROPPED : Field := ⟨RegId.MSC_MGMT.addr, 0, 32⟩
/-- `MSC_MGMT_ERR.TIMEOUTS`, bits [63:48] (R543). -/
def Fld.MSC_MGMT_ERR_TIMEOUTS : Field := ⟨RegId.MSC_MGMT_ERR.addr, 48, 16⟩
/-- `MSC_MGMT_ERR.CRC_FAIL`, bits [47:32] (R543). -/
def Fld.MSC_MGMT_ERR_CRC_FAIL : Field := ⟨RegId.MSC_MGMT_ERR.addr, 32, 16⟩
/-- `MSC_MGMT_ERR.BUSY_DROP`, bits [31:16] (R543). -/
def Fld.MSC_MGMT_ERR_BUSY_DROP : Field := ⟨RegId.MSC_MGMT_ERR.addr, 16, 16⟩
/-- `MSC_MGMT_ERR.REJECTS`, bits [15:0] (R543). -/
def Fld.MSC_MGMT_ERR_REJECTS : Field := ⟨RegId.MSC_MGMT_ERR.addr, 0, 16⟩
/-- `MSC_ACC_CTRL.LOCK`, bits [63:63] (R492). -/
def Fld.MSC_ACC_CTRL_LOCK (i : Nat) : Field := ⟨RegId.MSC_ACC_CTRL.addr i, 63, 1⟩
/-- `MSC_ACC_CTRL.USED`, bits [6:0] (R492). -/
def Fld.MSC_ACC_CTRL_USED (i : Nat) : Field := ⟨RegId.MSC_ACC_CTRL.addr i, 0, 7⟩
/-- `MSC_ACC_A.EN`, bits [63:63] (R491). -/
def Fld.MSC_ACC_A_EN (i j : Nat) : Field := ⟨RegId.MSC_ACC_A.addr i j, 63, 1⟩
/-- `MSC_ACC_A.R`, bits [62:62] (R491). -/
def Fld.MSC_ACC_A_R (i j : Nat) : Field := ⟨RegId.MSC_ACC_A.addr i j, 62, 1⟩
/-- `MSC_ACC_A.W`, bits [61:61] (R491). -/
def Fld.MSC_ACC_A_W (i j : Nat) : Field := ⟨RegId.MSC_ACC_A.addr i j, 61, 1⟩
/-- `MSC_ACC_A.X`, bits [60:60] (R491). -/
def Fld.MSC_ACC_A_X (i j : Nat) : Field := ⟨RegId.MSC_ACC_A.addr i j, 60, 1⟩
/-- `MSC_ACC_A.A`, bits [59:59] (R491). -/
def Fld.MSC_ACC_A_A (i j : Nat) : Field := ⟨RegId.MSC_ACC_A.addr i j, 59, 1⟩
/-- `MSC_ACC_A.GROUPS`, bits [27:12] (R491). -/
def Fld.MSC_ACC_A_GROUPS (i j : Nat) : Field := ⟨RegId.MSC_ACC_A.addr i j, 12, 16⟩
/-- `MSC_ACC_A.PEERS`, bits [11:4] (R491). -/
def Fld.MSC_ACC_A_PEERS (i j : Nat) : Field := ⟨RegId.MSC_ACC_A.addr i j, 4, 8⟩
/-- `MSC_ACC_A.PLUMB`, bits [3:3] (R491). -/
def Fld.MSC_ACC_A_PLUMB (i j : Nat) : Field := ⟨RegId.MSC_ACC_A.addr i j, 3, 1⟩
/-- `MSC_ACC_A.HDMA`, bits [2:2] (R491). -/
def Fld.MSC_ACC_A_HDMA (i j : Nat) : Field := ⟨RegId.MSC_ACC_A.addr i j, 2, 1⟩
/-- `MSC_ACC_A.MSC`, bits [1:1] (R491). -/
def Fld.MSC_ACC_A_MSC (i j : Nat) : Field := ⟨RegId.MSC_ACC_A.addr i j, 1, 1⟩
/-- `MSC_ACC_A.HOST`, bits [0:0] (R491). -/
def Fld.MSC_ACC_A_HOST (i j : Nat) : Field := ⟨RegId.MSC_ACC_A.addr i j, 0, 1⟩
/-- `MSC_ACC_B.LIMIT`, bits [55:32] (R491). -/
def Fld.MSC_ACC_B_LIMIT (i j : Nat) : Field := ⟨RegId.MSC_ACC_B.addr i j, 32, 24⟩
/-- `MSC_ACC_B.BASE`, bits [23:0] (R491). -/
def Fld.MSC_ACC_B_BASE (i j : Nat) : Field := ⟨RegId.MSC_ACC_B.addr i j, 0, 24⟩
/-- `MSC_HOST_ID.SQS`, bits [31:24] (R468). -/
def Fld.MSC_HOST_ID_SQS : Field := ⟨RegId.MSC_HOST_ID.addr, 24, 8⟩
/-- `MSC_HOST_ID.CQS`, bits [23:16] (R468). -/
def Fld.MSC_HOST_ID_CQS : Field := ⟨RegId.MSC_HOST_ID.addr, 16, 8⟩
/-- `MSC_HOST_ID.VECTORS`, bits [15:8] (R468). -/
def Fld.MSC_HOST_ID_VECTORS : Field := ⟨RegId.MSC_HOST_ID.addr, 8, 8⟩
/-- `MSC_HOST_ID.VERSION`, bits [7:0] (R468). -/
def Fld.MSC_HOST_ID_VERSION : Field := ⟨RegId.MSC_HOST_ID.addr, 0, 8⟩
/-- `MSC_STATE.BENCH`, bits [7:7] (R468). -/
def Fld.MSC_STATE_BENCH : Field := ⟨RegId.MSC_STATE.addr, 7, 1⟩
/-- `MSC_STATE.JOB_LOADED`, bits [6:6] (R468). -/
def Fld.MSC_STATE_JOB_LOADED : Field := ⟨RegId.MSC_STATE.addr, 6, 1⟩
/-- `MSC_STATE.STATE`, bits [3:0] (R468). -/
def Fld.MSC_STATE_STATE : Field := ⟨RegId.MSC_STATE.addr, 0, 4⟩
/-- `MSC_EVENT.PLUMB_LOST`, bits [1:1] (R469). -/
def Fld.MSC_EVENT_PLUMB_LOST : Field := ⟨RegId.MSC_EVENT.addr, 1, 1⟩
/-- `MSC_EVENT.STATE`, bits [0:0] (R469). -/
def Fld.MSC_EVENT_STATE : Field := ⟨RegId.MSC_EVENT.addr, 0, 1⟩
/-- `MSC_EVENT_CNT.PLUMB_LOST`, bits [63:32] (R469). -/
def Fld.MSC_EVENT_CNT_PLUMB_LOST : Field := ⟨RegId.MSC_EVENT_CNT.addr, 32, 32⟩
/-- `MSC_EVENT_CNT.STATE`, bits [31:0] (R469). -/
def Fld.MSC_EVENT_CNT_STATE : Field := ⟨RegId.MSC_EVENT_CNT.addr, 0, 32⟩
/-- `MSC_HOST_ERR.VALID`, bits [63:63] (R469). -/
def Fld.MSC_HOST_ERR_VALID : Field := ⟨RegId.MSC_HOST_ERR.addr, 63, 1⟩
/-- `MSC_HOST_ERR.KIND`, bits [62:60] (R469). -/
def Fld.MSC_HOST_ERR_KIND : Field := ⟨RegId.MSC_HOST_ERR.addr, 60, 3⟩
/-- `MSC_HOST_ERR.RING`, bits [59:56] (R469). -/
def Fld.MSC_HOST_ERR_RING : Field := ⟨RegId.MSC_HOST_ERR.addr, 56, 4⟩
/-- `MSC_HOST_ERR.CODE`, bits [55:48] (R469). -/
def Fld.MSC_HOST_ERR_CODE : Field := ⟨RegId.MSC_HOST_ERR.addr, 48, 8⟩
/-- `MSC_HOST_ERR.ADDR`, bits [47:0] (R469). -/
def Fld.MSC_HOST_ERR_ADDR : Field := ⟨RegId.MSC_HOST_ERR.addr, 0, 48⟩
/-- `MSC_HOST_ERR_CNT.COUNT`, bits [31:0] (R469). -/
def Fld.MSC_HOST_ERR_CNT_COUNT : Field := ⟨RegId.MSC_HOST_ERR_CNT.addr, 0, 32⟩
/-- `MSC_LOAD_PROG.PCT`, bits [63:48] (R469). -/
def Fld.MSC_LOAD_PROG_PCT : Field := ⟨RegId.MSC_LOAD_PROG.addr, 48, 16⟩
/-- `MSC_LOAD_PROG.STATE`, bits [47:46] (R469). -/
def Fld.MSC_LOAD_PROG_STATE : Field := ⟨RegId.MSC_LOAD_PROG.addr, 46, 2⟩
/-- `MSC_LOAD_PROG.CODE`, bits [39:32] (R469). -/
def Fld.MSC_LOAD_PROG_CODE : Field := ⟨RegId.MSC_LOAD_PROG.addr, 32, 8⟩
/-- `MSC_LOAD_PROG.POSITION`, bits [31:0] (R469). -/
def Fld.MSC_LOAD_PROG_POSITION : Field := ⟨RegId.MSC_LOAD_PROG.addr, 0, 32⟩
/-- `MSC_FW_PROG.PCT`, bits [63:48] (R469). -/
def Fld.MSC_FW_PROG_PCT : Field := ⟨RegId.MSC_FW_PROG.addr, 48, 16⟩
/-- `MSC_FW_PROG.STATE`, bits [47:46] (R469). -/
def Fld.MSC_FW_PROG_STATE : Field := ⟨RegId.MSC_FW_PROG.addr, 46, 2⟩
/-- `MSC_FW_PROG.CODE`, bits [39:32] (R469). -/
def Fld.MSC_FW_PROG_CODE : Field := ⟨RegId.MSC_FW_PROG.addr, 32, 8⟩
/-- `MSC_FW_PROG.POSITION`, bits [31:0] (R469). -/
def Fld.MSC_FW_PROG_POSITION : Field := ⟨RegId.MSC_FW_PROG.addr, 0, 32⟩
/-- `MSC_DBG_WIN.EN`, bits [63:63] (R470). -/
def Fld.MSC_DBG_WIN_EN : Field := ⟨RegId.MSC_DBG_WIN.addr, 63, 1⟩
/-- `MSC_DBG_WIN.BASE`, bits [47:28] (R470). -/
def Fld.MSC_DBG_WIN_BASE : Field := ⟨RegId.MSC_DBG_WIN.addr, 28, 20⟩
/-- `MSC_SQ_BASE.BASE`, bits [63:12] (R471). -/
def Fld.MSC_SQ_BASE_BASE (i : Nat) : Field := ⟨RegId.MSC_SQ_BASE.addr i, 12, 52⟩
/-- `MSC_SQ_CFG.EN`, bits [63:63] (R471). -/
def Fld.MSC_SQ_CFG_EN (i : Nat) : Field := ⟨RegId.MSC_SQ_CFG.addr i, 63, 1⟩
/-- `MSC_SQ_CFG.STATE`, bits [62:61] (R471). -/
def Fld.MSC_SQ_CFG_STATE (i : Nat) : Field := ⟨RegId.MSC_SQ_CFG.addr i, 61, 2⟩
/-- `MSC_SQ_CFG.CQ`, bits [55:52] (R471). -/
def Fld.MSC_SQ_CFG_CQ (i : Nat) : Field := ⟨RegId.MSC_SQ_CFG.addr i, 52, 4⟩
/-- `MSC_SQ_CFG.WEIGHT`, bits [51:48] (R471). -/
def Fld.MSC_SQ_CFG_WEIGHT (i : Nat) : Field := ⟨RegId.MSC_SQ_CFG.addr i, 48, 4⟩
/-- `MSC_SQ_CFG.SIZE_LOG2`, bits [4:0] (R471). -/
def Fld.MSC_SQ_CFG_SIZE_LOG2 (i : Nat) : Field := ⟨RegId.MSC_SQ_CFG.addr i, 0, 5⟩
/-- `MSC_CQ_BASE.BASE`, bits [63:12] (R471). -/
def Fld.MSC_CQ_BASE_BASE (i : Nat) : Field := ⟨RegId.MSC_CQ_BASE.addr i, 12, 52⟩
/-- `MSC_CQ_CFG.EN`, bits [63:63] (R471). -/
def Fld.MSC_CQ_CFG_EN (i : Nat) : Field := ⟨RegId.MSC_CQ_CFG.addr i, 63, 1⟩
/-- `MSC_CQ_CFG.STATE`, bits [62:61] (R471). -/
def Fld.MSC_CQ_CFG_STATE (i : Nat) : Field := ⟨RegId.MSC_CQ_CFG.addr i, 61, 2⟩
/-- `MSC_CQ_CFG.VECTOR`, bits [55:50] (R471). -/
def Fld.MSC_CQ_CFG_VECTOR (i : Nat) : Field := ⟨RegId.MSC_CQ_CFG.addr i, 50, 6⟩
/-- `MSC_CQ_CFG.INT_EN`, bits [49:49] (R471). -/
def Fld.MSC_CQ_CFG_INT_EN (i : Nat) : Field := ⟨RegId.MSC_CQ_CFG.addr i, 49, 1⟩
/-- `MSC_CQ_CFG.COAL_US`, bits [47:32] (R471). -/
def Fld.MSC_CQ_CFG_COAL_US (i : Nat) : Field := ⟨RegId.MSC_CQ_CFG.addr i, 32, 16⟩
/-- `MSC_CQ_CFG.COAL_CNT`, bits [31:16] (R471). -/
def Fld.MSC_CQ_CFG_COAL_CNT (i : Nat) : Field := ⟨RegId.MSC_CQ_CFG.addr i, 16, 16⟩
/-- `MSC_CQ_CFG.SIZE_LOG2`, bits [4:0] (R471). -/
def Fld.MSC_CQ_CFG_SIZE_LOG2 (i : Nat) : Field := ⟨RegId.MSC_CQ_CFG.addr i, 0, 5⟩
/-- `MSC_SQ_TAIL.TAIL`, bits [15:0] (R472). -/
def Fld.MSC_SQ_TAIL_TAIL (i : Nat) : Field := ⟨RegId.MSC_SQ_TAIL.addr i, 0, 16⟩
/-- `MSC_CQ_HEAD.HEAD`, bits [15:0] (R472). -/
def Fld.MSC_CQ_HEAD_HEAD (i : Nat) : Field := ⟨RegId.MSC_CQ_HEAD.addr i, 0, 16⟩
/-- `MSC_SQ_STATUS.HEAD`, bits [63:48] (R472). -/
def Fld.MSC_SQ_STATUS_HEAD (i : Nat) : Field := ⟨RegId.MSC_SQ_STATUS.addr i, 48, 16⟩
/-- `MSC_SQ_STATUS.OUTSTANDING`, bits [42:32] (R472). -/
def Fld.MSC_SQ_STATUS_OUTSTANDING (i : Nat) : Field := ⟨RegId.MSC_SQ_STATUS.addr i, 32, 11⟩
/-- `MSC_SQ_STATUS.FETCHED`, bits [31:0] (R472). -/
def Fld.MSC_SQ_STATUS_FETCHED (i : Nat) : Field := ⟨RegId.MSC_SQ_STATUS.addr i, 0, 32⟩
/-- `MSC_MBX_CTRL.GO`, bits [63:63] (R479). -/
def Fld.MSC_MBX_CTRL_GO : Field := ⟨RegId.MSC_MBX_CTRL.addr, 63, 1⟩
/-- `MSC_MBX_CTRL.RESTART`, bits [62:62] (R479). -/
def Fld.MSC_MBX_CTRL_RESTART : Field := ⟨RegId.MSC_MBX_CTRL.addr, 62, 1⟩
/-- `MSC_MBX_CTRL.LEN`, bits [11:0] (R479). -/
def Fld.MSC_MBX_CTRL_LEN : Field := ⟨RegId.MSC_MBX_CTRL.addr, 0, 12⟩
/-- `MSC_MBX_STATUS.READY`, bits [63:63] (R479). -/
def Fld.MSC_MBX_STATUS_READY : Field := ⟨RegId.MSC_MBX_STATUS.addr, 63, 1⟩
/-- `MSC_MBX_STATUS.CODE`, bits [55:48] (R479). -/
def Fld.MSC_MBX_STATUS_CODE : Field := ⟨RegId.MSC_MBX_STATUS.addr, 48, 8⟩
/-- `MSC_MBX_STATUS.BYTES`, bits [31:0] (R479). -/
def Fld.MSC_MBX_STATUS_BYTES : Field := ⟨RegId.MSC_MBX_STATUS.addr, 0, 32⟩
/-- `MSC_MBX_DATA.DATA`, bits [63:0] (R479). -/
def Fld.MSC_MBX_DATA_DATA (i : Nat) : Field := ⟨RegId.MSC_MBX_DATA.addr i, 0, 64⟩
/-- `MSC_MSIX_ADDR.ADDR`, bits [63:0] (R446). -/
def Fld.MSC_MSIX_ADDR_ADDR (i : Nat) : Field := ⟨RegId.MSC_MSIX_ADDR.addr i, 0, 64⟩
/-- `MSC_MSIX_CTRL.MASK`, bits [32:32] (R446). -/
def Fld.MSC_MSIX_CTRL_MASK (i : Nat) : Field := ⟨RegId.MSC_MSIX_CTRL.addr i, 32, 1⟩
/-- `MSC_MSIX_CTRL.DATA`, bits [31:0] (R446). -/
def Fld.MSC_MSIX_CTRL_DATA (i : Nat) : Field := ⟨RegId.MSC_MSIX_CTRL.addr i, 0, 32⟩
/-- `MSC_MSIX_PBA.PENDING`, bits [63:0] (R446). -/
def Fld.MSC_MSIX_PBA_PENDING : Field := ⟨RegId.MSC_MSIX_PBA.addr, 0, 64⟩
/-- `TPC_TEMP.LOGIC`, bits [63:48] (R521). -/
def Fld.TPC_TEMP_LOGIC : Field := ⟨RegId.TPC_TEMP.addr, 48, 16⟩
/-- `TPC_TEMP.HBM`, bits [47:32] (R521). -/
def Fld.TPC_TEMP_HBM : Field := ⟨RegId.TPC_TEMP.addr, 32, 16⟩
/-- `TPC_TEMP.LASER`, bits [31:16] (R521). -/
def Fld.TPC_TEMP_LASER : Field := ⟨RegId.TPC_TEMP.addr, 16, 16⟩
/-- `TPC_TEMP.COOLANT`, bits [15:0] (R521). -/
def Fld.TPC_TEMP_COOLANT : Field := ⟨RegId.TPC_TEMP.addr, 0, 16⟩
/-- `TPC_TEMP_DIE.BAY_MAX`, bits [63:48] (R521). -/
def Fld.TPC_TEMP_DIE_BAY_MAX (i : Nat) : Field := ⟨RegId.TPC_TEMP_DIE.addr i, 48, 16⟩
/-- `TPC_TEMP_DIE.SILL_MAX`, bits [47:32] (R521). -/
def Fld.TPC_TEMP_DIE_SILL_MAX (i : Nat) : Field := ⟨RegId.TPC_TEMP_DIE.addr i, 32, 16⟩
/-- `TPC_TEMP_DIE.HOT_BAY`, bits [25:16] (R521). -/
def Fld.TPC_TEMP_DIE_HOT_BAY (i : Nat) : Field := ⟨RegId.TPC_TEMP_DIE.addr i, 16, 10⟩
/-- `TPC_TEMP_HDR.LASER1`, bits [63:48] (R521). -/
def Fld.TPC_TEMP_HDR_LASER1 : Field := ⟨RegId.TPC_TEMP_HDR.addr, 48, 16⟩
/-- `TPC_TEMP_HDR.LOGIC1`, bits [47:32] (R521). -/
def Fld.TPC_TEMP_HDR_LOGIC1 : Field := ⟨RegId.TPC_TEMP_HDR.addr, 32, 16⟩
/-- `TPC_TEMP_HDR.LASER0`, bits [31:16] (R521). -/
def Fld.TPC_TEMP_HDR_LASER0 : Field := ⟨RegId.TPC_TEMP_HDR.addr, 16, 16⟩
/-- `TPC_TEMP_HDR.LOGIC0`, bits [15:0] (R521). -/
def Fld.TPC_TEMP_HDR_LOGIC0 : Field := ⟨RegId.TPC_TEMP_HDR.addr, 0, 16⟩
/-- `TPC_LEVELS.LEVEL`, bits [19:0] (R521). -/
def Fld.TPC_LEVELS_LEVEL : Field := ⟨RegId.TPC_LEVELS.addr, 0, 20⟩
/-- `TPC_CLOCK.CAP`, bits [62:54] (R522). -/
def Fld.TPC_CLOCK_CAP : Field := ⟨RegId.TPC_CLOCK.addr, 54, 9⟩
/-- `TPC_CLOCK.HDR1`, bits [53:45] (R522). -/
def Fld.TPC_CLOCK_HDR1 : Field := ⟨RegId.TPC_CLOCK.addr, 45, 9⟩
/-- `TPC_CLOCK.HDR0`, bits [44:36] (R522). -/
def Fld.TPC_CLOCK_HDR0 : Field := ⟨RegId.TPC_CLOCK.addr, 36, 9⟩
/-- `TPC_CLOCK.DIE`, bits [35:0] (R522). -/
def Fld.TPC_CLOCK_DIE : Field := ⟨RegId.TPC_CLOCK.addr, 0, 36⟩
/-- `TPC_DVFS.MAX_POINT`, bits [31:16] (R522). -/
def Fld.TPC_DVFS_MAX_POINT : Field := ⟨RegId.TPC_DVFS.addr, 16, 16⟩
/-- `TPC_DVFS.POINT`, bits [15:0] (R522). -/
def Fld.TPC_DVFS_POINT : Field := ⟨RegId.TPC_DVFS.addr, 0, 16⟩
/-- `TPC_POWER.ENTRY`, bits [63:61] (R523). -/
def Fld.TPC_POWER_ENTRY : Field := ⟨RegId.TPC_POWER.addr, 61, 3⟩
/-- `TPC_POWER.ABANDON_CNT`, bits [55:48] (R523). -/
def Fld.TPC_POWER_ABANDON_CNT : Field := ⟨RegId.TPC_POWER.addr, 48, 8⟩
/-- `TPC_POWER.CAP_W`, bits [47:32] (R523). -/
def Fld.TPC_POWER_CAP_W : Field := ⟨RegId.TPC_POWER.addr, 32, 16⟩
/-- `TPC_POWER.INPUT_MV`, bits [31:16] (R523). -/
def Fld.TPC_POWER_INPUT_MV : Field := ⟨RegId.TPC_POWER.addr, 16, 16⟩
/-- `TPC_POWER.INPUT_W`, bits [15:0] (R523). -/
def Fld.TPC_POWER_INPUT_W : Field := ⟨RegId.TPC_POWER.addr, 0, 16⟩
/-- `TPC_SHUTDOWN.LATCH`, bits [63:63] (R523). -/
def Fld.TPC_SHUTDOWN_LATCH : Field := ⟨RegId.TPC_SHUTDOWN.addr, 63, 1⟩
/-- `TPC_SHUTDOWN.CAUSE`, bits [62:60] (R523). -/
def Fld.TPC_SHUTDOWN_CAUSE : Field := ⟨RegId.TPC_SHUTDOWN.addr, 60, 3⟩
/-- `TPC_SHUTDOWN.INSTANCE`, bits [59:56] (R523). -/
def Fld.TPC_SHUTDOWN_INSTANCE : Field := ⟨RegId.TPC_SHUTDOWN.addr, 56, 4⟩
/-- `TPC_SHUTDOWN.TEMP`, bits [47:32] (R523). -/
def Fld.TPC_SHUTDOWN_TEMP : Field := ⟨RegId.TPC_SHUTDOWN.addr, 32, 16⟩
/-- `TPC_SHUTDOWN.COUNT`, bits [31:0] (R523). -/
def Fld.TPC_SHUTDOWN_COUNT : Field := ⟨RegId.TPC_SHUTDOWN.addr, 0, 32⟩
/-- `TPC_FLAGS.THROTTLE`, bits [2:2] (R524). -/
def Fld.TPC_FLAGS_THROTTLE : Field := ⟨RegId.TPC_FLAGS.addr, 2, 1⟩
/-- `TPC_FLAGS.WARN`, bits [1:1] (R524). -/
def Fld.TPC_FLAGS_WARN : Field := ⟨RegId.TPC_FLAGS.addr, 1, 1⟩
/-- `TPC_FLAGS.MARGIN_LOW`, bits [0:0] (R524). -/
def Fld.TPC_FLAGS_MARGIN_LOW : Field := ⟨RegId.TPC_FLAGS.addr, 0, 1⟩
/-- `TPC_LEVEL_CNT.WARN`, bits [63:32] (R524). -/
def Fld.TPC_LEVEL_CNT_WARN : Field := ⟨RegId.TPC_LEVEL_CNT.addr, 32, 32⟩
/-- `TPC_LEVEL_CNT.THROTTLE`, bits [31:0] (R524). -/
def Fld.TPC_LEVEL_CNT_THROTTLE : Field := ⟨RegId.TPC_LEVEL_CNT.addr, 0, 32⟩
/-- `TPC_MARGIN_LOW_CNT.COUNT`, bits [31:0] (R524). -/
def Fld.TPC_MARGIN_LOW_CNT_COUNT : Field := ⟨RegId.TPC_MARGIN_LOW_CNT.addr, 0, 32⟩
/-- `TPC_SENSOR_FAULT.RING`, bits [63:32] (R524). -/
def Fld.TPC_SENSOR_FAULT_RING : Field := ⟨RegId.TPC_SENSOR_FAULT.addr, 32, 32⟩
/-- `TPC_SENSOR_FAULT.HBM`, bits [31:16] (R524). -/
def Fld.TPC_SENSOR_FAULT_HBM : Field := ⟨RegId.TPC_SENSOR_FAULT.addr, 16, 16⟩
/-- `TPC_SENSOR_FAULT.COOLANT`, bits [15:0] (R524). -/
def Fld.TPC_SENSOR_FAULT_COOLANT : Field := ⟨RegId.TPC_SENSOR_FAULT.addr, 0, 16⟩
/-- `TPC_PATROL.PERIOD`, bits [43:32] (R525). -/
def Fld.TPC_PATROL_PERIOD : Field := ⟨RegId.TPC_PATROL.addr, 32, 12⟩
/-- `TPC_PATROL.WAKE_ALARM`, bits [2:2] (R525). -/
def Fld.TPC_PATROL_WAKE_ALARM : Field := ⟨RegId.TPC_PATROL.addr, 2, 1⟩
/-- `TPC_PATROL.WAKE_ADDR`, bits [1:1] (R525). -/
def Fld.TPC_PATROL_WAKE_ADDR : Field := ⟨RegId.TPC_PATROL.addr, 1, 1⟩
/-- `TPC_PATROL.WAKE_THRESH`, bits [0:0] (R525). -/
def Fld.TPC_PATROL_WAKE_THRESH : Field := ⟨RegId.TPC_PATROL.addr, 0, 1⟩
/-- `TPC_PATROL_LIM.WAKE_EN`, bits [63:63] (R525). -/
def Fld.TPC_PATROL_LIM_WAKE_EN (i : Nat) : Field := ⟨RegId.TPC_PATROL_LIM.addr i, 63, 1⟩
/-- `TPC_PATROL_LIM.HIGH`, bits [47:32] (R525). -/
def Fld.TPC_PATROL_LIM_HIGH (i : Nat) : Field := ⟨RegId.TPC_PATROL_LIM.addr i, 32, 16⟩
/-- `TPC_PATROL_LIM.LOW`, bits [15:0] (R525). -/
def Fld.TPC_PATROL_LIM_LOW (i : Nat) : Field := ⟨RegId.TPC_PATROL_LIM.addr i, 0, 16⟩
/-- `TPC_WAKE.CAUSE`, bits [63:61] (R525). -/
def Fld.TPC_WAKE_CAUSE : Field := ⟨RegId.TPC_WAKE.addr, 61, 3⟩
/-- `TPC_WAKE.FAIL`, bits [60:60] (R525). -/
def Fld.TPC_WAKE_FAIL : Field := ⟨RegId.TPC_WAKE.addr, 60, 1⟩
/-- `TPC_WAKE.FAIL_STEP`, bits [59:57] (R525). -/
def Fld.TPC_WAKE_FAIL_STEP : Field := ⟨RegId.TPC_WAKE.addr, 57, 3⟩
/-- `TPC_WAKE.QUANT`, bits [50:48] (R525). -/
def Fld.TPC_WAKE_QUANT : Field := ⟨RegId.TPC_WAKE.addr, 48, 3⟩
/-- `TPC_WAKE.WAKES`, bits [31:0] (R525). -/
def Fld.TPC_WAKE_WAKES : Field := ⟨RegId.TPC_WAKE.addr, 0, 32⟩
/-- `TPC_AGE.MARGIN`, bits [63:48] (R526). -/
def Fld.TPC_AGE_MARGIN : Field := ⟨RegId.TPC_AGE.addr, 48, 16⟩
/-- `TPC_AGE.YEARS`, bits [47:32] (R526). -/
def Fld.TPC_AGE_YEARS : Field := ⟨RegId.TPC_AGE.addr, 32, 16⟩
/-- `TPC_AGE.RUN_HOURS`, bits [31:0] (R526). -/
def Fld.TPC_AGE_RUN_HOURS : Field := ⟨RegId.TPC_AGE.addr, 0, 32⟩
/-- `TPC_AGE_SHARE.SLACK`, bits [63:48] (R526). -/
def Fld.TPC_AGE_SHARE_SLACK : Field := ⟨RegId.TPC_AGE_SHARE.addr, 48, 16⟩
/-- `TPC_AGE_SHARE.DRIFT`, bits [47:32] (R526). -/
def Fld.TPC_AGE_SHARE_DRIFT : Field := ⟨RegId.TPC_AGE_SHARE.addr, 32, 16⟩
/-- `TPC_AGE_SHARE.LASER`, bits [31:16] (R526). -/
def Fld.TPC_AGE_SHARE_LASER : Field := ⟨RegId.TPC_AGE_SHARE.addr, 16, 16⟩
/-- `TPC_AGE_SHARE.EYE`, bits [15:0] (R526). -/
def Fld.TPC_AGE_SHARE_EYE : Field := ⟨RegId.TPC_AGE_SHARE.addr, 0, 16⟩
/-- `TPC_AGE_SUPPLY.PENDING`, bits [63:63] (R526). -/
def Fld.TPC_AGE_SUPPLY_PENDING : Field := ⟨RegId.TPC_AGE_SUPPLY.addr, 63, 1⟩
/-- `TPC_AGE_SUPPLY.REPLANS`, bits [47:32] (R526). -/
def Fld.TPC_AGE_SUPPLY_REPLANS : Field := ⟨RegId.TPC_AGE_SUPPLY.addr, 32, 16⟩
/-- `TPC_AGE_SUPPLY.OFFSET`, bits [31:0] (R526). -/
def Fld.TPC_AGE_SUPPLY_OFFSET : Field := ⟨RegId.TPC_AGE_SUPPLY.addr, 0, 32⟩

end Sys2Proof.Machine
end

