-- ==== Sys2Proof/Machine/RegReset.lean ====
section
/-! DEFINITION. Reset values of registers: those that the field rows state, and those that depend on the register's number or
that the spec leaves to straps, fuses, the image or stored values (log entry 2). -/

namespace Sys2Proof.Machine

/-- Default limits of a patrol quantity (R510): LOW, HIGH and WAKE_EN; temperatures in quarter degrees. -/
def patrolDefault (q : Nat) : Word :=
  match q with
  | 0 => BitVec.ofNat 64 (160 * 2 ^ 32 + 20)
  | 1 => BitVec.ofNat 64 (340 * 2 ^ 32)
  | 2 => BitVec.ofNat 64 (60000 * 2 ^ 32 + 40000)
  | 3 => BitVec.ofNat 64 (3600 * 2 ^ 32 + 3000)
  | _ => BitVec.ofNat 64 (2 ^ 63)

/-- The reset value of register `i`, `j` of a kind: that of its rows, but for the patrol limits of R510 and, in a module that has
done nothing yet (DESIGN CHOICE, log entry 2), full shares and margin and the static address of slot 0; MSI-X entries are
masked, as PCI Express resets them (PRESUMED, log entry 2). -/
def regResetAt (r : RegId) (i _j : Nat) : Word :=
  match r with
  | .TPC_PATROL_LIM => patrolDefault i
  | .TPC_AGE => BitVec.ofNat 64 (10000 * 2 ^ 48 + 0xFFFF * 2 ^ 32)
  | .TPC_AGE_SHARE => BitVec.ofNat 64 (10000 * (2 ^ 48 + 2 ^ 32 + 2 ^ 16 + 1))
  | .MSC_MSIX_CTRL => BitVec.ofNat 64 (2 ^ 32)
  | .MSC_MGMT => BitVec.ofNat 64 (0x50 * 2 ^ 57)
  | _ => r.resetRows

/-- What an unlisted address of the register map holds: the reset value of the register there. -/
def regDefault (a : Nat) : Word :=
  match regLocate a with
  | some (r, i, j) => regResetAt r i j
  | none => 0

end Sys2Proof.Machine
end

