-- ==== Sys2Proof/Machine/Encoding.lean ====
section
/-! DEFINITION. The encoding of bay instructions (R175 to R200): codes, field layouts, decoder, encoder, and the rule of R177
for a reserved encoding. -/

namespace Sys2Proof.Machine

/-- S-format instructions (R184). -/
inductive SCode where
  | add
  | sub
  | and
  | or
  | xor
  | shl
  | shr
  | sra
  | slt
  | sltu
  | seq
  | min
  | max
  | minu
  | maxu
  | addImm
  | subImm
  | andImm
  | orImm
  | xorImm
  | shlImm
  | shrImm
  | sraImm
  | sltImm
  | sltuImm
  | seqImm
  | minImm
  | maxImm
  | minuImm
  | maxuImm
  | li
  | lih
  | mul
  | mulh
  | mulhu
  | div
  | divu
  | rem
  | remu
  | lb
  | lh
  | lw
  | ld
  | lbu
  | lhu
  | lwu
  | sb
  | sh
  | sw
  | sd
  | beq
  | bne
  | blt
  | bge
  | bltu
  | bgeu
  | jal
  | jalr
  | setvl
  | rdsys
  deriving DecidableEq, Repr

/-- Major opcode and minor code. -/
def SCode.code : SCode → Nat × Nat
  | .add => (0x1, 0x0)
  | .sub => (0x1, 0x1)
  | .and => (0x1, 0x2)
  | .or => (0x1, 0x3)
  | .xor => (0x1, 0x4)
  | .shl => (0x1, 0x5)
  | .shr => (0x1, 0x6)
  | .sra => (0x1, 0x7)
  | .slt => (0x1, 0x8)
  | .sltu => (0x1, 0x9)
  | .seq => (0x1, 0xa)
  | .min => (0x1, 0xb)
  | .max => (0x1, 0xc)
  | .minu => (0x1, 0xd)
  | .maxu => (0x1, 0xe)
  | .addImm => (0x2, 0x0)
  | .subImm => (0x2, 0x1)
  | .andImm => (0x2, 0x2)
  | .orImm => (0x2, 0x3)
  | .xorImm => (0x2, 0x4)
  | .shlImm => (0x2, 0x5)
  | .shrImm => (0x2, 0x6)
  | .sraImm => (0x2, 0x7)
  | .sltImm => (0x2, 0x8)
  | .sltuImm => (0x2, 0x9)
  | .seqImm => (0x2, 0xa)
  | .minImm => (0x2, 0xb)
  | .maxImm => (0x2, 0xc)
  | .minuImm => (0x2, 0xd)
  | .maxuImm => (0x2, 0xe)
  | .li => (0x2, 0x10)
  | .lih => (0x2, 0x11)
  | .mul => (0x3, 0x0)
  | .mulh => (0x3, 0x1)
  | .mulhu => (0x3, 0x2)
  | .div => (0x3, 0x4)
  | .divu => (0x3, 0x5)
  | .rem => (0x3, 0x6)
  | .remu => (0x3, 0x7)
  | .lb => (0x4, 0x0)
  | .lh => (0x4, 0x1)
  | .lw => (0x4, 0x2)
  | .ld => (0x4, 0x3)
  | .lbu => (0x4, 0x4)
  | .lhu => (0x4, 0x5)
  | .lwu => (0x4, 0x6)
  | .sb => (0x5, 0x0)
  | .sh => (0x5, 0x1)
  | .sw => (0x5, 0x2)
  | .sd => (0x5, 0x3)
  | .beq => (0x6, 0x0)
  | .bne => (0x6, 0x1)
  | .blt => (0x6, 0x2)
  | .bge => (0x6, 0x3)
  | .bltu => (0x6, 0x4)
  | .bgeu => (0x6, 0x5)
  | .jal => (0x7, 0x0)
  | .jalr => (0x7, 0x1)
  | .setvl => (0x8, 0x0)
  | .rdsys => (0x8, 0x1)

/-- The instruction of a major opcode and a minor code; every other pair is reserved (R176, R177). -/
def SCode.ofCode (op fn : Nat) : Option SCode :=
  match op, fn with
  | 0x1, 0x0 => some .add
  | 0x1, 0x1 => some .sub
  | 0x1, 0x2 => some .and
  | 0x1, 0x3 => some .or
  | 0x1, 0x4 => some .xor
  | 0x1, 0x5 => some .shl
  | 0x1, 0x6 => some .shr
  | 0x1, 0x7 => some .sra
  | 0x1, 0x8 => some .slt
  | 0x1, 0x9 => some .sltu
  | 0x1, 0xa => some .seq
  | 0x1, 0xb => some .min
  | 0x1, 0xc => some .max
  | 0x1, 0xd => some .minu
  | 0x1, 0xe => some .maxu
  | 0x2, 0x0 => some .addImm
  | 0x2, 0x1 => some .subImm
  | 0x2, 0x2 => some .andImm
  | 0x2, 0x3 => some .orImm
  | 0x2, 0x4 => some .xorImm
  | 0x2, 0x5 => some .shlImm
  | 0x2, 0x6 => some .shrImm
  | 0x2, 0x7 => some .sraImm
  | 0x2, 0x8 => some .sltImm
  | 0x2, 0x9 => some .sltuImm
  | 0x2, 0xa => some .seqImm
  | 0x2, 0xb => some .minImm
  | 0x2, 0xc => some .maxImm
  | 0x2, 0xd => some .minuImm
  | 0x2, 0xe => some .maxuImm
  | 0x2, 0x10 => some .li
  | 0x2, 0x11 => some .lih
  | 0x3, 0x0 => some .mul
  | 0x3, 0x1 => some .mulh
  | 0x3, 0x2 => some .mulhu
  | 0x3, 0x4 => some .div
  | 0x3, 0x5 => some .divu
  | 0x3, 0x6 => some .rem
  | 0x3, 0x7 => some .remu
  | 0x4, 0x0 => some .lb
  | 0x4, 0x1 => some .lh
  | 0x4, 0x2 => some .lw
  | 0x4, 0x3 => some .ld
  | 0x4, 0x4 => some .lbu
  | 0x4, 0x5 => some .lhu
  | 0x4, 0x6 => some .lwu
  | 0x5, 0x0 => some .sb
  | 0x5, 0x1 => some .sh
  | 0x5, 0x2 => some .sw
  | 0x5, 0x3 => some .sd
  | 0x6, 0x0 => some .beq
  | 0x6, 0x1 => some .bne
  | 0x6, 0x2 => some .blt
  | 0x6, 0x3 => some .bge
  | 0x6, 0x4 => some .bltu
  | 0x6, 0x5 => some .bgeu
  | 0x7, 0x0 => some .jal
  | 0x7, 0x1 => some .jalr
  | 0x8, 0x0 => some .setvl
  | 0x8, 0x1 => some .rdsys
  | _, _ => none

/-- V-format instructions (R189). -/
inductive VCode where
  | vadd
  | vsub
  | vmul
  | vfma
  | vmin
  | vmax
  | vabs
  | vneg
  | vcmp
  | viadd
  | visub
  | vimul
  | vand
  | vor
  | vxor
  | vshl
  | vshr
  | exp2
  | log2
  | rcp
  | rsqrt
  | sin
  | cos
  | sincosP
  | vdiv
  | vsqrt
  | vcvt
  | vld
  | vst
  | vldR
  | vstR
  | fold
  | unfold
  | perm
  | mand
  | mor
  | mxor
  | mnot
  | mpop
  | redSum
  | redMax
  | redMin
  | redArgmax
  | redSumx
  | xcvt
  | redTopkInit
  | redTopk
  | softmaxInit
  | softmaxAcc
  | softmaxFin
  | softmaxOut
  deriving DecidableEq, Repr

/-- Major opcode and minor code. -/
def VCode.code : VCode → Nat × Nat
  | .vadd => (0x10, 0x0)
  | .vsub => (0x10, 0x1)
  | .vmul => (0x10, 0x2)
  | .vfma => (0x10, 0x3)
  | .vmin => (0x10, 0x4)
  | .vmax => (0x10, 0x5)
  | .vabs => (0x10, 0x6)
  | .vneg => (0x10, 0x7)
  | .vcmp => (0x10, 0x8)
  | .viadd => (0x11, 0x0)
  | .visub => (0x11, 0x1)
  | .vimul => (0x11, 0x2)
  | .vand => (0x11, 0x3)
  | .vor => (0x11, 0x4)
  | .vxor => (0x11, 0x5)
  | .vshl => (0x11, 0x6)
  | .vshr => (0x11, 0x7)
  | .exp2 => (0x12, 0x0)
  | .log2 => (0x12, 0x1)
  | .rcp => (0x12, 0x2)
  | .rsqrt => (0x12, 0x3)
  | .sin => (0x12, 0x4)
  | .cos => (0x12, 0x5)
  | .sincosP => (0x12, 0x6)
  | .vdiv => (0x12, 0x7)
  | .vsqrt => (0x12, 0x8)
  | .vcvt => (0x13, 0x0)
  | .vld => (0x14, 0x0)
  | .vst => (0x14, 0x1)
  | .vldR => (0x14, 0x2)
  | .vstR => (0x14, 0x3)
  | .fold => (0x15, 0x0)
  | .unfold => (0x15, 0x1)
  | .perm => (0x15, 0x2)
  | .mand => (0x16, 0x0)
  | .mor => (0x16, 0x1)
  | .mxor => (0x16, 0x2)
  | .mnot => (0x16, 0x3)
  | .mpop => (0x16, 0x4)
  | .redSum => (0x17, 0x0)
  | .redMax => (0x17, 0x1)
  | .redMin => (0x17, 0x2)
  | .redArgmax => (0x17, 0x3)
  | .redSumx => (0x17, 0x4)
  | .xcvt => (0x17, 0x5)
  | .redTopkInit => (0x17, 0x6)
  | .redTopk => (0x17, 0x7)
  | .softmaxInit => (0x18, 0x0)
  | .softmaxAcc => (0x18, 0x1)
  | .softmaxFin => (0x18, 0x2)
  | .softmaxOut => (0x18, 0x3)

/-- The instruction of a major opcode and a minor code; every other pair is reserved (R176, R177). -/
def VCode.ofCode (op fn : Nat) : Option VCode :=
  match op, fn with
  | 0x10, 0x0 => some .vadd
  | 0x10, 0x1 => some .vsub
  | 0x10, 0x2 => some .vmul
  | 0x10, 0x3 => some .vfma
  | 0x10, 0x4 => some .vmin
  | 0x10, 0x5 => some .vmax
  | 0x10, 0x6 => some .vabs
  | 0x10, 0x7 => some .vneg
  | 0x10, 0x8 => some .vcmp
  | 0x11, 0x0 => some .viadd
  | 0x11, 0x1 => some .visub
  | 0x11, 0x2 => some .vimul
  | 0x11, 0x3 => some .vand
  | 0x11, 0x4 => some .vor
  | 0x11, 0x5 => some .vxor
  | 0x11, 0x6 => some .vshl
  | 0x11, 0x7 => some .vshr
  | 0x12, 0x0 => some .exp2
  | 0x12, 0x1 => some .log2
  | 0x12, 0x2 => some .rcp
  | 0x12, 0x3 => some .rsqrt
  | 0x12, 0x4 => some .sin
  | 0x12, 0x5 => some .cos
  | 0x12, 0x6 => some .sincosP
  | 0x12, 0x7 => some .vdiv
  | 0x12, 0x8 => some .vsqrt
  | 0x13, 0x0 => some .vcvt
  | 0x14, 0x0 => some .vld
  | 0x14, 0x1 => some .vst
  | 0x14, 0x2 => some .vldR
  | 0x14, 0x3 => some .vstR
  | 0x15, 0x0 => some .fold
  | 0x15, 0x1 => some .unfold
  | 0x15, 0x2 => some .perm
  | 0x16, 0x0 => some .mand
  | 0x16, 0x1 => some .mor
  | 0x16, 0x2 => some .mxor
  | 0x16, 0x3 => some .mnot
  | 0x16, 0x4 => some .mpop
  | 0x17, 0x0 => some .redSum
  | 0x17, 0x1 => some .redMax
  | 0x17, 0x2 => some .redMin
  | 0x17, 0x3 => some .redArgmax
  | 0x17, 0x4 => some .redSumx
  | 0x17, 0x5 => some .xcvt
  | 0x17, 0x6 => some .redTopkInit
  | 0x17, 0x7 => some .redTopk
  | 0x18, 0x0 => some .softmaxInit
  | 0x18, 0x1 => some .softmaxAcc
  | 0x18, 0x2 => some .softmaxFin
  | 0x18, 0x3 => some .softmaxOut
  | _, _ => none

/-- P-format instructions (R192). -/
inductive PCode where
  | mm
  | lds
  | turn
  | accClr
  | accSt
  | accLd
  | accWin
  deriving DecidableEq, Repr

/-- Major opcode and minor code. -/
def PCode.code : PCode → Nat × Nat
  | .mm => (0x20, 0x0)
  | .lds => (0x20, 0x1)
  | .turn => (0x20, 0x2)
  | .accClr => (0x20, 0x3)
  | .accSt => (0x20, 0x4)
  | .accLd => (0x20, 0x5)
  | .accWin => (0x20, 0x6)

/-- The instruction of a major opcode and a minor code; every other pair is reserved (R176, R177). -/
def PCode.ofCode (op fn : Nat) : Option PCode :=
  match op, fn with
  | 0x20, 0x0 => some .mm
  | 0x20, 0x1 => some .lds
  | 0x20, 0x2 => some .turn
  | 0x20, 0x3 => some .accClr
  | 0x20, 0x4 => some .accSt
  | 0x20, 0x5 => some .accLd
  | 0x20, 0x6 => some .accWin
  | _, _ => none

/-- M-format instructions (R195). -/
inductive MCode where
  | put
  | putF
  | get
  | amo
  deriving DecidableEq, Repr

/-- Major opcode and minor code. -/
def MCode.code : MCode → Nat × Nat
  | .put => (0x28, 0x0)
  | .putF => (0x28, 0x1)
  | .get => (0x28, 0x2)
  | .amo => (0x28, 0x3)

/-- The instruction of a major opcode and a minor code; every other pair is reserved (R176, R177). -/
def MCode.ofCode (op fn : Nat) : Option MCode :=
  match op, fn with
  | 0x28, 0x0 => some .put
  | 0x28, 0x1 => some .putF
  | 0x28, 0x2 => some .get
  | 0x28, 0x3 => some .amo
  | _, _ => none

/-- X-format instructions (R197, R200). -/
inductive XCode where
  | sync
  | fence
  | waitFlag
  | waitScribe
  | endThread
  | spliceMmb
  | spliceMmr
  | spliceVb
  | spliceVr
  | spliceDsp
  | spliceCmb
  deriving DecidableEq, Repr

/-- Major opcode and minor code. -/
def XCode.code : XCode → Nat × Nat
  | .sync => (0x30, 0x0)
  | .fence => (0x30, 0x1)
  | .waitFlag => (0x30, 0x2)
  | .waitScribe => (0x30, 0x3)
  | .endThread => (0x30, 0x4)
  | .spliceMmb => (0x31, 0x0)
  | .spliceMmr => (0x31, 0x1)
  | .spliceVb => (0x31, 0x2)
  | .spliceVr => (0x31, 0x3)
  | .spliceDsp => (0x31, 0x4)
  | .spliceCmb => (0x31, 0x5)

/-- The instruction of a major opcode and a minor code; every other pair is reserved (R176, R177). -/
def XCode.ofCode (op fn : Nat) : Option XCode :=
  match op, fn with
  | 0x30, 0x0 => some .sync
  | 0x30, 0x1 => some .fence
  | 0x30, 0x2 => some .waitFlag
  | 0x30, 0x3 => some .waitScribe
  | 0x30, 0x4 => some .endThread
  | 0x31, 0x0 => some .spliceMmb
  | 0x31, 0x1 => some .spliceMmr
  | 0x31, 0x2 => some .spliceVb
  | 0x31, 0x3 => some .spliceVr
  | 0x31, 0x4 => some .spliceDsp
  | 0x31, 0x5 => some .spliceCmb
  | _, _ => none

/-- A bay instruction: its code and the fields of its format. -/
inductive BayInstr where
  | s (c : SCode) (f : SFields)
  | v (c : VCode) (f : VFields)
  | p (c : PCode) (f : PFields)
  | m (c : MCode) (f : MFields)
  | x (c : XCode) (f : XFields)
  deriving DecidableEq, Repr

/-- The fields of an S-format word (R183). -/
def sFieldsOf (w : Word) : SFields :=
  { gd := w.extractLsb' 47 5, ga := w.extractLsb' 42 5, gb := w.extractLsb' 37 5, z := w.extractLsb' 32 5
    imm := w.extractLsb' 0 32 }

/-- The fields of a V-format word (R187). -/
def vFieldsOf (w : Word) : VFields :=
  { vd := w.extractLsb' 47 5, va := w.extractLsb' 42 5, vb := w.extractLsb' 37 5, vc := w.extractLsb' 32 5
    fmt := w.extractLsb' 28 4, me := w.extractLsb' 27 1, msk := w.extractLsb' 24 3
    gx := w.extractLsb' 19 5, gy := w.extractLsb' 14 5, mod := w.extractLsb' 0 14 }

/-- The fields of a P-format word (R191). -/
def pFieldsOf (w : Word) : PFields :=
  { ga := w.extractLsb' 49 5, gs := w.extractLsb' 44 5, gr := w.extractLsb' 39 5
    fmt := w.extractLsb' 35 4, acc := w.extractLsb' 34 1, mod := w.extractLsb' 0 34 }

/-- The fields of an M-format word (R194). -/
def mFieldsOf (w : Word) : MFields :=
  { gl := w.extractLsb' 49 5, gt := w.extractLsb' 44 5, gn := w.extractLsb' 39 5, gx := w.extractLsb' 34 5
    z := w.extractLsb' 19 15, aop := w.extractLsb' 15 4, cw := w.extractLsb' 14 1, lr := w.extractLsb' 13 1
    len8 := w.extractLsb' 0 13 }

/-- The fields of an X-format word (R196). -/
def xFieldsOf (w : Word) : XFields :=
  { ga := w.extractLsb' 49 5, gb := w.extractLsb' 44 5, gc := w.extractLsb' 39 5, gd := w.extractLsb' 34 5
    mod := w.extractLsb' 0 34 }

/-- Decode of an instruction word (R175, R176): the format of the major opcode, the minor code of that format and the
fields. `none` for a reserved major opcode or minor code. -/
def decodeBay (w : Word) : Option BayInstr :=
  let op := (w.extractLsb' 58 6).toNat
  let fn6 := (w.extractLsb' 52 6).toNat
  let fn4 := (w.extractLsb' 54 4).toNat
  if op < 0x10 then (SCode.ofCode op fn6).map fun c => .s c (sFieldsOf w)
  else if op < 0x20 then (VCode.ofCode op fn6).map fun c => .v c (vFieldsOf w)
  else if op < 0x28 then (PCode.ofCode op fn4).map fun c => .p c (pFieldsOf w)
  else if op < 0x30 then (MCode.ofCode op fn4).map fun c => .m c (mFieldsOf w)
  else if op < 0x38 then (XCode.ofCode op fn4).map fun c => .x c (xFieldsOf w)
  else none

/-- The word of a bay instruction, from the layouts of R183, R187, R191, R194 and R196. -/
def encodeBay : BayInstr → Word
  | .s c f => BitVec.ofNat 6 c.code.1 ++ BitVec.ofNat 6 c.code.2 ++ f.gd ++ f.ga ++ f.gb ++ f.z ++ f.imm
  | .v c f => BitVec.ofNat 6 c.code.1 ++ BitVec.ofNat 6 c.code.2 ++ f.vd ++ f.va ++ f.vb ++ f.vc ++ f.fmt ++ f.me ++ f.msk
      ++ f.gx ++ f.gy ++ f.mod
  | .p c f => BitVec.ofNat 6 c.code.1 ++ BitVec.ofNat 4 c.code.2 ++ f.ga ++ f.gs ++ f.gr ++ f.fmt ++ f.acc ++ f.mod
  | .m c f => BitVec.ofNat 6 c.code.1 ++ BitVec.ofNat 4 c.code.2 ++ f.gl ++ f.gt ++ f.gn ++ f.gx ++ f.z ++ f.aop ++ f.cw
      ++ f.lr ++ f.len8
  | .x c f => BitVec.ofNat 6 c.code.1 ++ BitVec.ofNat 4 c.code.2 ++ f.ga ++ f.gb ++ f.gc ++ f.gd ++ f.mod

/-- The code lies between `lo` and `hi`, both included. -/
def codeIn (lo hi c : Nat) : Bool := decide (lo ≤ c) && decide (c ≤ hi)

/-- Which fields an S-format row names: GD, GA, GB, IMM (R184). -/
def SCode.uses : SCode → Bool × Bool × Bool × Bool
  | .add | .sub | .and | .or | .xor | .shl | .shr | .sra | .slt | .sltu | .seq | .min | .max | .minu | .maxu =>
    (true, true, true, false)
  | .addImm | .subImm | .andImm | .orImm | .xorImm | .shlImm | .shrImm | .sraImm | .sltImm | .sltuImm | .seqImm | .minImm
  | .maxImm | .minuImm | .maxuImm | .lih => (true, true, false, true)
  | .li | .jal | .rdsys => (true, false, false, true)
  | .mul | .mulh | .mulhu | .div | .divu | .rem | .remu => (true, true, true, false)
  | .lb | .lh | .lw | .ld | .lbu | .lhu | .lwu | .jalr | .setvl => (true, true, false, true)
  | .sb | .sh | .sw | .sd | .beq | .bne | .blt | .bge | .bltu | .bgeu => (false, true, true, true)

/-- The field rules of an S-format instruction: every field its row does not name is zero, and a modifier lies among the
values listed (R177, R184, R186). -/
def SCode.fieldsOk (c : SCode) (f : SFields) : Bool :=
  let u := c.uses
  f.z == 0 && (u.1 || f.gd == 0) && (u.2.1 || f.ga == 0) && (u.2.2.1 || f.gb == 0) && (u.2.2.2 || f.imm == 0)
    && (match c with
      | .setvl => decide (f.imm.toNat < 4)
      | .rdsys => decide (f.imm.toNat < 5)
      | _ => true)

/-- A V-format row: whether it names VD, VA, VB, VC, GX, GY; the FMT codes it accepts; whether it may be masked; the MOD bits
it names (R189). -/
structure VRow where
  vd : Bool
  va : Bool
  vb : Bool
  vc : Bool
  gx : Bool
  gy : Bool
  fmtLo : Nat
  fmtHi : Nat
  masked : Bool
  mod : Nat
  deriving DecidableEq, Repr

/-- The rows of R189. -/
def VCode.row : VCode → VRow
  | .vadd | .vsub | .vmul | .vmin | .vmax => ⟨true, true, true, false, false, false, 0, 3, true, 0⟩
  | .vfma => ⟨true, true, true, true, false, false, 0, 3, true, 0⟩
  | .vabs | .vneg => ⟨true, true, false, false, false, false, 0, 3, true, 0⟩
  | .vcmp => ⟨true, true, true, false, false, false, 0, 3, true, 0x7⟩
  | .viadd | .visub | .vimul | .vand | .vor | .vxor | .vshl => ⟨true, true, true, false, false, false, 0, 3, true, 0⟩
  | .vshr => ⟨true, true, true, false, false, false, 0, 3, true, 0x1⟩
  | .exp2 | .log2 | .rcp | .rsqrt | .sin | .cos => ⟨true, true, false, false, false, false, 1, 3, true, 0⟩
  | .sincosP => ⟨true, true, true, false, false, false, 1, 1, true, 0⟩
  | .vdiv => ⟨true, true, true, false, false, false, 0, 3, true, 0⟩
  | .vsqrt => ⟨true, true, false, false, false, false, 0, 3, true, 0⟩
  | .vcvt => ⟨true, true, false, false, true, true, 0, 0xA, true, 0x303F⟩
  | .vld | .vst => ⟨true, false, false, false, true, true, 0, 0xA, true, 0x7F⟩
  | .vldR | .vstR => ⟨true, false, false, false, true, false, 0, 0, false, 0⟩
  | .fold => ⟨true, true, false, false, true, false, 0, 5, true, 0⟩
  | .unfold => ⟨true, true, false, false, true, false, 0, 5, true, 0x1⟩
  | .perm => ⟨true, true, true, false, false, false, 0, 3, true, 0⟩
  | .mand | .mor | .mxor => ⟨true, true, true, false, false, false, 0, 0, false, 0⟩
  | .mnot => ⟨true, true, false, false, false, false, 0, 0, false, 0⟩
  | .mpop => ⟨false, true, false, false, true, false, 0, 3, false, 0⟩
  | .redSum | .redMax | .redMin | .redArgmax => ⟨false, true, false, false, true, false, 0, 3, true, 0⟩
  | .redSumx => ⟨true, true, false, false, true, false, 0, 3, true, 0x1⟩
  | .xcvt => ⟨true, true, false, false, true, false, 0, 1, false, 0⟩
  | .redTopkInit => ⟨true, false, false, false, false, false, 0, 0, false, 0xF⟩
  | .redTopk => ⟨true, true, false, false, true, false, 1, 3, true, 0⟩
  | .softmaxInit | .softmaxFin => ⟨true, false, false, false, false, false, 0, 0, false, 0⟩
  | .softmaxAcc => ⟨true, true, false, false, false, false, 1, 3, true, 0⟩
  | .softmaxOut => ⟨true, true, true, false, false, false, 1, 3, true, 0⟩

/-- Which of VD, VA, VB name mask registers: their upper two bits must be zero (R179). -/
def VCode.maskRegs : VCode → Bool × Bool × Bool
  | .vcmp => (true, false, false)
  | .mand | .mor | .mxor => (true, true, true)
  | .mnot => (true, true, false)
  | .mpop => (false, true, false)
  | _ => (false, false, false)

/-- The modifier rules of single V-format instructions (R158, R165, R189, R190). -/
def VCode.modOk (c : VCode) (f : VFields) : Bool :=
  match c with
  | .vcmp => decide (f.mod.toNat ≤ 4) && (!codeIn 2 3 f.fmt.toNat || decide (f.vd.toNat % 2 = 0))
  | .sincosP => decide (f.vd.toNat % 2 = 0)
  | .vcvt =>
    let src := f.mod.toNat % 16
    let tgtW := f.mod.getLsbD 12
    let srcW := f.mod.getLsbD 13
    !(tgtW && srcW) && (if tgtW then decide (f.fmt.toNat ≤ 3) else true)
      && (if srcW then decide (src ≤ 3) else decide (src ≤ 0xA))
      && (!f.mod.getLsbD 5 || (!tgtW && codeIn 4 0xA f.fmt.toNat))
  | .vld =>
    let fr := f.mod.toNat % 16
    (decide (fr ≤ 3) || decide (fr = f.fmt.toNat)) && !f.mod.getLsbD 5
  | .vst =>
    let fr := f.mod.toNat % 16
    decide (fr ≤ 3) || decide (fr = f.fmt.toNat)
  | .fold | .unfold => f.me == 1
  | _ => true

/-- The field rules of a V-format instruction (R177, R179, R189). -/
def VCode.fieldsOk (c : VCode) (f : VFields) : Bool :=
  let r := c.row
  let k := c.maskRegs
  (r.vd || f.vd == 0) && (r.va || f.va == 0) && (r.vb || f.vb == 0) && (r.vc || f.vc == 0) && (r.gx || f.gx == 0)
    && (r.gy || f.gy == 0) && codeIn r.fmtLo r.fmtHi f.fmt.toNat && (r.masked || f.me == 0) && (f.me == 1 || f.msk == 0)
    && (f.mod &&& ~~~ (BitVec.ofNat 14 r.mod)) == 0
    && (!k.1 || decide (f.vd.toNat < 8)) && (!k.2.1 || decide (f.va.toNat < 8)) && (!k.2.2 || decide (f.vb.toNat < 8))
    && c.modOk f

/-- The field rules of a P-format instruction (R177, R192). -/
def PCode.fieldsOk (c : PCode) (f : PFields) : Bool :=
  let named (ga gs gr acc : Bool) (mod : Nat) : Bool :=
    (ga || f.ga == 0) && (gs || f.gs == 0) && (gr || f.gr == 0) && (acc || f.acc == 0)
      && (f.mod &&& ~~~ (BitVec.ofNat 34 mod)) == 0
  match c with
  | .mm => named true true true true 0x3F && codeIn 2 0xA f.fmt.toNat && decide ((f.mod.extractLsb' 2 3).toNat ≤ 4)
  | .lds => named true false false false 0x21 && codeIn 2 0xA f.fmt.toNat
  | .turn => named false false false false 0 && f.fmt == 0
  | .accClr => named false false false true 0 && f.fmt == 0
  | .accSt => named true true true true 0x40 && (codeIn 0 0xA f.fmt.toNat || f.fmt == 0xF)
  | .accLd => named true false true true 0x80 && f.fmt == 0xF
  | .accWin => named false false false true 0x1FFFF00 && f.fmt == 0

/-- The field rules of an M-format instruction (R177, R195). -/
def MCode.fieldsOk (c : MCode) (f : MFields) : Bool :=
  let lenOk := (f.lr == 1 || f.gn == 0) && (f.lr == 0 || f.len8 == 0)
  f.z == 0 && (match c with
    | .put => f.gx == 0 && f.aop == 0 && f.cw == 0 && lenOk
    | .putF => f.aop == 0 && f.cw == 0 && lenOk
    | .get => f.aop == 0 && (f.cw == 1 || f.gx == 0) && lenOk
    | .amo => decide (f.aop.toNat ≤ 8) && (f.aop == 2 || f.gx == 0) && f.cw == 0 && f.lr == 0 && f.len8 == 0)

/-- The field rules of an X-format instruction (R177, R197, R200, R204). -/
def XCode.fieldsOk (c : XCode) (f : XFields) : Bool :=
  let named (ga gb gc gd : Bool) (mod : Nat) : Bool :=
    (ga || f.ga == 0) && (gb || f.gb == 0) && (gc || f.gc == 0) && (gd || f.gd == 0)
      && (f.mod &&& ~~~ (BitVec.ofNat 34 mod)) == 0
  let m := f.mod.toNat
  match c with
  | .sync => named false false false false 0x7
  | .fence => named false false false true 0
  | .waitFlag => named true true true true 0x3 && decide (m ≤ 2)
  | .waitScribe => named true false false true 0
  | .endThread => named false false false false 0
  | .spliceMmb | .spliceMmr => named true true true true 0x3F && (codeIn 0 0xA (m % 16) || m % 16 == 0xF)
  | .spliceVb | .spliceVr =>
    named true true false true 0xFFFFF
      && (if m % 16 = 0xF then (f.mod.extractLsb' 4 11) == 0
          else codeIn 0 0xA (m % 16) && (decide (m / 16 % 16 ≤ 3) || decide (m / 16 % 16 = m % 16))
            && (f.mod.getLsbD 11 || (f.mod.extractLsb' 12 3) == 0))
  | .spliceDsp => named true true true true 0xF && codeIn 0 0xA m
  | .spliceCmb => named true true true true 0xF && codeIn 0 3 m

/-- Whether the fields follow the row of the instruction (R177). -/
def BayInstr.fieldsOk : BayInstr → Bool
  | .s c f => c.fieldsOk f
  | .v c f => c.fieldsOk f
  | .p c f => c.fieldsOk f
  | .m c f => c.fieldsOk f
  | .x c f => c.fieldsOk f

/-- A reserved encoding (R177): a reserved opcode or minor code, or a field against its row. -/
def isReserved (w : Word) : Bool :=
  match decodeBay w with
  | none => true
  | some i => !i.fieldsOk

end Sys2Proof.Machine
end

