-- ==== Sys2Proof/Machine/SMap.lean ====
section
/-! DEFINITION. Sparse maps: an association list in one canonical form (keys strictly rising, no entry equal to what an
unlisted key reads as), so that equal maps are equal data. -/

namespace Sys2Proof.Machine

/-- A sparse map from numbers to values; what an unlisted key reads as is given to each operation. -/
abbrev SMap (α : Type) := List (Nat × α)

/-- The value at key `k`, `d k` where the key is not listed. -/
def smapGet {α : Type} (d : Nat → α) : SMap α → Nat → α
  | [], k => d k
  | (a, x) :: m, k => if k = a then x else if k < a then d k else smapGet d m k

/-- The map without its leading entries whose keys are at most `k`. -/
def smapTrim {α : Type} (k : Nat) : SMap α → SMap α
  | [] => []
  | (a, x) :: m => if k < a then (a, x) :: m else smapTrim k m

/-- The map with `v` at key `k`; writing the unlisted value removes the entry. -/
def smapSet {α : Type} [DecidableEq α] (d : Nat → α) : SMap α → Nat → α → SMap α
  | [], k, v => if v = d k then [] else [(k, v)]
  | (a, x) :: m, k, v =>
    if k < a then (if v = d k then (a, x) :: m else (k, v) :: (a, x) :: m)
    else if k = a then (if v = d k then smapTrim k m else (k, v) :: smapTrim k m)
    else (a, x) :: smapSet d m k v

/-- The map with `v` at key `k`, listed whatever `v` is: for values that are not compared (digests). -/
def smapPut {α : Type} : SMap α → Nat → α → SMap α
  | [], k, v => [(k, v)]
  | (a, x) :: m, k, v => if k < a then (k, v) :: (a, x) :: m else if k = a then (k, v) :: m else (a, x) :: smapPut m k v

/-- Above the last key, where there is one. -/
def smapAbove : Option Nat → Nat → Bool
  | none, _ => true
  | some l, a => decide (l < a)

/-- Keys strictly rising from above `lo` and no entry at its unlisted value. -/
def smapWfFrom {α : Type} [DecidableEq α] (d : Nat → α) : Option Nat → SMap α → Bool
  | _, [] => true
  | lo, (a, x) :: m => smapAbove lo a && decide (x ≠ d a) && smapWfFrom d (some a) m

/-- The canonical form. -/
def smapWf {α : Type} [DecidableEq α] (d : Nat → α) (m : SMap α) : Bool := smapWfFrom d none m

end Sys2Proof.Machine
end

