-- ==== Sys2Proof/Machine/State.lean ====
section
/-! DEFINITION. The state of the device as plain data, and the state after reset. -/

namespace Sys2Proof.Machine

/-- A fault would end a run. No command of this device does: what the spec calls a fault of a bay thread is an effect of the
command on the thread's status (R67 to R70), and the thread stops, not the device. So no reason is listed. -/
inductive Fault where
  deriving DecidableEq, Repr

/-- Why the model gives a command no meaning. -/
inductive Refusal where
  /-- The command's arm has no meaning yet; raised by `exec` alone, under the command's mnemonic. Safe: the run stops where
  the hardware goes on. -/
  | notModelled (mnemonic : String)
  deriving DecidableEq, Repr

/-- State of a thread (R76). -/
inductive ThreadState where
  | idle
  | run
  | wait
  | drain
  | fault
  | stopped
  deriving DecidableEq, Repr

/-- The fields of a thread's status register (R76). -/
structure ThreadStatus where
  faultPc : BitVec 20
  qseq : BitVec 12
  cause : Code
  source : BitVec 4
  flag : BitVec 4
  multi : Bool
  pendG : BitVec 5
  st : ThreadState
  deriving DecidableEq, Repr

/-- The status register after reset and after GO (R73, R76). -/
def ThreadStatus.clear : ThreadStatus := ⟨0, 0, 0, 0, 0, false, 0, .idle⟩

/-- What a thread in WAIT waits for (R54, R62, R198, R199). -/
inductive WaitFor where
  | none
  /-- SYNC with its operand bits M, V, P -/
  | sync (m v p : Bool)
  /-- FENCE: every PUT, PUT.F and AMO of the bay with an issue number below `limit`; the first failure among them that the other
  thread's FENCE has taken from the bay's list meanwhile -/
  | fence (limit : Nat) (gd : BitVec 5) (seen : Option Code)
  /-- WAIT.FLAG: word offset, compare value, condition, scribe count of the timeout (zero timeout: none) -/
  | flag (off : BitVec 20) (cmp : Word) (cond : BitVec 2) (deadline : Option Nat) (gd : BitVec 5)
  /-- WAIT.SCRIBE -/
  | scribe (mark : Word) (gd : BitVec 5)
  deriving DecidableEq, Repr

/-- A g register marked pending (R48): the QSEQ of the instruction that will write it, whether that is an AMO, and once the
AMO has failed its code (R63). -/
structure PendingG where
  reg : BitVec 5
  qseq : BitVec 12
  amo : Bool
  pc : BitVec 20
  failed : Option Code
  deriving DecidableEq, Repr

/-- A stop condition of a thread, before the thread has drained (R68 to R70, R73). -/
structure StopRec where
  /-- the state entered after DRAIN -/
  goal : ThreadState
  qseq : BitVec 12
  /-- the condition came from a queued instruction, whose age is its QSEQ -/
  engine : Bool
  deriving DecidableEq, Repr

/-- One hardware thread (R41): its program counter, general registers, VL, and what it waits for. -/
structure ThreadRec where
  pc : BitVec 20
  g : Vector Word 32
  pend : List PendingG
  qseq : BitVec 12
  vl : BitVec 9
  status : ThreadStatus
  stop : Option StopRec
  waitFor : WaitFor
  /-- the 64-byte line of bay memory in the instruction buffer, by its number, and the places of its words that the fetch found
  uncorrectable (R49, R55) -/
  line : Option (Nat × List Nat)
  deriving DecidableEq, Repr

/-- A thread after reset. -/
def ThreadRec.reset : ThreadRec :=
  { pc := 0, g := Vector.replicate 32 0, pend := [], qseq := 0, vl := 0, status := .clear, stop := none, waitFor := .none, line := none }

/-- Format and sparsity of a stationary block, as a bank or the issue record holds them (R88, R94). -/
structure BankFmt where
  fmt : BitVec 4
  sparse : Bool
  deriving DecidableEq, Repr

/-- A stationary bank (R88): its format, the three parts of the block as read (R85; missing bytes are zero), whether its
scales are absent, and the exponent of the block (R133). -/
structure Bank where
  kind : BankFmt
  ns : Bool
  vals : List Byte
  idx : List Byte
  scales : List Byte
  exp : Option Int
  deriving DecidableEq, Repr

/-- A bank after device reset: zeros, FP8 E4M3, dense (R92). -/
def Bank.reset : Bank := { kind := ⟨4, false⟩, ns := false, vals := [], idx := [], scales := [], exp := none }

/-- An accumulator row: its 32 columns and, in auto mode, the window of a set row (R104, R134). -/
structure AccRow where
  cols : Vector (BitVec 128) 32
  win : Option (BitVec 10)
  deriving DecidableEq, Repr

/-- A cleared row (R136). -/
def AccRow.zero : AccRow := { cols := Vector.replicate 32 0, win := none }

/-- An accumulator block: window mode, fixed window, KLOG and rows (R104, R131). -/
structure AccBlock where
  auto : Bool
  win : BitVec 10
  klog : BitVec 6
  rows : SMap AccRow
  /-- accumulators (row × 32 + column) that hold a single-bit error, and a double-bit error (R104) -/
  weak : List Nat
  bad : List Nat
  deriving DecidableEq, Repr

/-- A block after device reset: fixed mode, WIN 0, KLOG 0 (R138). -/
def AccBlock.reset : AccBlock := { auto := false, win := 0, klog := 0, rows := [], weak := [], bad := [] }

/-- Words 0 to 4 of a collective block and its offset (R202, R203). -/
structure CollBlock where
  off : BitVec 20
  w0 : Word
  w1 : Word
  w2 : Word
  w3 : Word
  w4 : Word
  deriving DecidableEq, Repr

/-- An instruction in the press queue, its operands read at issue (R48, R93, R192). -/
inductive PressOp where
  | mm (f : PFields) (ga gs gr : Word) (mask : Option (BitVec 128))
  | lds (f : PFields) (ga : Word)
  | turn
  | accClr (f : PFields)
  | accSt (f : PFields) (ga gs gr : Word)
  | accLd (f : PFields) (ga gr : Word)
  | accWin (f : PFields)
  | splice (reduce : Bool) (f : XFields) (ga gb gc : Word) (blk : CollBlock)
  deriving DecidableEq, Repr

/-- An entry of the press queue (R45, R64). -/
structure PressEntry where
  qseq : BitVec 12
  pc : BitVec 20
  op : PressOp
  deriving DecidableEq, Repr

/-- An instruction in a vector queue with the g operands read at issue (R48). -/
inductive VecOp where
  | instr (c : VCode) (f : VFields) (x y : Word)
  | splice (c : XCode) (f : XFields) (ga gb gc : Word) (blk : CollBlock)
  deriving DecidableEq, Repr

/-- An entry of a vector queue: VL is that of the thread at issue (R148). -/
structure VecEntry where
  qseq : BitVec 12
  pc : BitVec 20
  vl : BitVec 9
  op : VecOp
  deriving DecidableEq, Repr

/-- The message instructions (R59). -/
inductive MsgKind where
  | put
  | putF
  | get
  | amo
  deriving DecidableEq, Repr

/-- An acknowledgement or response on its way back to a slot inside the device: its code, the bytes of the request it covers, and
the data it carries. -/
structure MsgAck where
  code : Code
  n : Nat
  data : List Byte
  deriving DecidableEq, Repr

/-- A message request in a slot of the message engine (R58 to R63). -/
structure Slot where
  t : Thread
  kind : MsgKind
  qseq : BitVec 12
  pc : BitVec 20
  /-- issue number of the request within the bay, counted over both threads -/
  ord : Nat
  /-- local bay-memory offset of the data (PUT, PUT.F, GET) -/
  loc : Nat
  /-- destination operand (R61), and the device it names -/
  dest : Word
  dev : DevCoord
  /-- length in bytes; 8 for an AMO -/
  len : Nat
  /-- flag-word address of PUT.F -/
  flag : BitVec 48
  /-- completion-word offset of GET -/
  cw : Option Nat
  aop : BitVec 4
  x : Word
  cmp : Word
  gd : BitVec 5
  /-- bytes carried so far inside the device, or formed into fabric packets -/
  moved : Nat
  /-- the flag increment of PUT.F is done (inside the device) or sent (fabric) -/
  flagDone : Bool
  /-- acknowledgements on their way back inside the device, oldest first -/
  acks : List MsgAck
  /-- bytes acknowledged (PUT) or received (GET) -/
  acked : Nat
  /-- 2 KiB pieces of a remote GET that have arrived (R300) -/
  pieces : List Nat
  /-- first failure of the request -/
  fail : Option Code
  /-- generation of a remote atomic (R309) and the pair SEQ it must follow, with its incarnation (R303) -/
  gen : BitVec 16
  smark : BitVec 16
  spinc : BitVec 8
  /-- sends of a remote atomic without a reply so far, whether its last send was answered with CAPACITY, and the scribe count at its
  first send (R309) -/
  sends : Nat
  refused : Bool
  first : Nat
  /-- a read of a collective's seam handler (R236), whose data goes to the collective and not to bay memory -/
  forColl : Option (BitVec 12 × BitVec 32)
  buf : List (Nat × List Byte)
  deriving DecidableEq, Repr

/-- A tree neighbour of an open collective, by rank (R210, R216, R217). -/
structure Neighbour where
  rank : Nat
  /-- its join notice has arrived, with an equal digest (R219, R221) -/
  joined : Bool
  /-- chunks sent to it, and acknowledged by it -/
  sent : Nat
  acked : Nat
  /-- a credit for its staging slot is held (the parent of a reduce) -/
  credit : Bool
  /-- chunk held in its staging slot, waiting for its turn (the child of a reduce; R211) -/
  staged : Option Nat
  deriving DecidableEq, Repr

/-- A token's route: token, place in its top-k list, expert, slot among the source's slots there, and weight (R233, R236). -/
structure Route where
  tok : Nat
  j : Nat
  expert : Nat
  slot : Nat
  weight : BitVec 32
  deriving DecidableEq, Repr

/-- A read of expert memory that a combine needs (R236): expert, device address, and length. -/
structure Fetch where
  expert : Nat
  addr : Nat
  len : Nat
  deriving DecidableEq, Repr

/-- A collective open at a bay (R206 to R218, R230 to R236). -/
structure Coll where
  blk : CollBlock
  /-- joined with every check of R219 passed -/
  joined : Bool
  parent : Option Neighbour
  children : List Neighbour
  /-- one past the highest region byte written by a completed store part (R212) -/
  high : Nat
  /-- chunks posted to the seam work queue -/
  posted : Nat
  /-- chunks present in the region (broadcast), or combined with every child (reduce) -/
  done : Nat
  /-- children already combined into chunk `done` (reduce; R211) -/
  turn : Nat
  /-- chunk flags settled -/
  settled : List Nat
  /-- DSP and CMB: roles, token count, row operand, top-k array and token or output format (R200, R231) -/
  source : Bool
  expert : Bool
  ntok : Nat
  rows : Word
  topk : Nat
  fmt : BitVec 4
  /-- DSP and CMB: the source part has finished; tokens it dropped -/
  srcDone : Bool
  dropped : Nat
  /-- scribe counts of the last packet of the collective by rank, and of the join (R226) -/
  heard : List (Nat × Nat)
  opened : Nat
  /-- scribe counts of the last packet of the collective sent to a rank (R225) -/
  told : List (Nat × Nat)
  /-- tallies seen as (rank, expert), releases seen and done notices seen, by rank -/
  tallies : List (Nat × Nat)
  releases : List Nat
  dones : List Nat
  /-- the routes are computed; CMB: the reads finished, with their data -/
  routed : Bool
  routes : List Route
  fetched : List (Fetch × List Byte)
  deriving DecidableEq, Repr

/-- Entry of the seam work queue: a chunk to send (R43, R212). -/
structure SeamWork where
  group : BitVec 12
  seq : BitVec 32
  idx : Nat
  deriving DecidableEq, Repr

/-- One bay (R40). -/
structure Bay where
  main : ThreadRec
  seam : ThreadRec
  v : Vector (BitVec 2048) 32
  m : Vector Word 8
  /-- the press queue, and the format records of the scalar core (R94, R132) -/
  pq : List PressEntry
  recAct : BankFmt
  recShadow : BankFmt
  recAuto0 : Bool
  recAuto1 : Bool
  active : Bank
  shadow : Bank
  turnCnt : BitVec 32
  acc0 : AccBlock
  acc1 : AccBlock
  mainVq : List VecEntry
  seamVq : List VecEntry
  /-- the last instruction that the vector engine took came from the seam queue (R45) -/
  seamLast : Bool
  seamWork : List SeamWork
  /-- message slots, generations of the slots (R58), failures not yet returned by a FENCE, and the issue count -/
  slots : SMap (Option Slot)
  slotGen : SMap (BitVec 16)
  fenceFails : List (Nat × Code)
  msgCount : Nat
  /-- blocks recorded from issue until the pair closes (R206), and the open collectives -/
  recorded : List CollBlock
  colls : List Coll
  deriving DecidableEq, Repr

/-- A bay after device reset. -/
def Bay.reset : Bay :=
  { main := .reset, seam := .reset, v := Vector.replicate 32 0, m := Vector.replicate 8 0
    pq := [], recAct := ⟨4, false⟩, recShadow := ⟨4, false⟩, recAuto0 := false, recAuto1 := false
    active := .reset, shadow := .reset, turnCnt := 0, acc0 := .reset, acc1 := .reset
    mainVq := [], seamVq := [], seamLast := false, seamWork := []
    slots := [], slotGen := [], fenceFails := [], msgCount := 0, recorded := [], colls := [] }

/-- How a pseudo-channel is trained (R256). -/
inductive PcTrain where
  | full
  | half
  | quarter
  /-- not trained: every request to it fails -/
  | dead
  deriving DecidableEq, Repr

/-- A line of the LLS cache (R266, R267): its sill, place and granule (device address / 256). -/
structure LlsLine where
  sill : Nat
  slot : Nat
  set : Nat
  gran : Nat
  dirty : Bool
  /-- bytes of a clean line that differ from the cells it was filled from, a miscorrected read; none otherwise (R267) -/
  fill : List Byte
  deriving DecidableEq, Repr

/-- Slice-table entry (R261): the home of slice (band, virtual pseudo-channel): physical pseudo-channel and slice position. -/
structure SliceEntry where
  band : Nat
  vpc : Nat
  pc : Nat
  pos : Nat
  deriving DecidableEq, Repr

/-- A fold in progress (R259 to R262): the failed pseudo-channel, the moves in list order, and the 64 KiB pieces copied. -/
structure FoldJob where
  pc : Nat
  moves : List SliceEntry
  copied : Nat
  deriving DecidableEq, Repr

/-- A retraining in progress (R255, R256): its pseudo-channel, cause and attempts made, and the rate being tried. -/
structure Retrain where
  pc : Nat
  cause : RetrainCause
  tries : Nat
  rate : PcTrain
  deriving DecidableEq, Repr

/-- A request that waits in the queues of a pseudo-channel under retraining (R247, R255): what it asks, whether its piece there is a
whole granule, and how often a later burst has passed it. -/
structure HbmWait where
  pc : Nat
  main : Bool
  src : HbmSource
  addr : Nat
  op : HbmOp
  errs : List SymErrs
  passed : Nat
  deriving DecidableEq, Repr

/-- State of HBM and the LLS that no register holds. -/
structure Hbm where
  /-- training of each physical pseudo-channel -/
  train : SMap PcTrain
  /-- retrainings in progress, at most one per stack (R255) -/
  retrains : List Retrain
  /-- units (device address / 32) corrected on a read and not yet written back, with the corrected bytes (R250) -/
  writeback : List (Nat × List Byte)
  slices : List SliceEntry
  fold : Option FoldJob
  /-- failed pseudo-channels that await their fold, oldest first (R257) -/
  waiting : List Nat
  /-- stacks in self-refresh (R269) -/
  selfRefresh : List Nat
  lines : List LlsLine
  /-- bands whose contents a change of mode left undefined, with the open value they took, and the units since written or read
  (R268) -/
  open_ : List (Nat × Nat)
  settled : List Nat
  /-- uncorrectable errors of the last second: pseudo-channel and scribe count (R257) -/
  recent : List (Nat × Nat)
  /-- corrected units of the last second: pseudo-channel and scribe count (R255) -/
  fixed : List (Nat × Nat)
  /-- one more than the temperature at the first reading of a stack, and at a pseudo-channel's last training since; zero before
  any (R255) -/
  baseTemp : SMap Nat
  trainTemp : SMap Nat
  /-- requests that wait for a retraining, oldest first -/
  queue : List HbmWait
  /-- position of the full scrub in progress (R252) -/
  scrub : Option Nat
  deriving DecidableEq, Repr

/-- HBM and LLS after power-on. -/
def Hbm.reset : Hbm :=
  { train := [], retrains := [], writeback := [], slices := [], fold := none, waiting := [], selfRefresh := [], lines := []
    open_ := [], settled := [], recent := [], fixed := [], baseTemp := [], trainTemp := [], queue := [], scrub := none }

/-- What the Ledger sends stores and reads for (R416, R418, R421). -/
inductive LedgerUse where
  | baste
  | hem
  | restore
  deriving DecidableEq, Repr

/-- On whose behalf a sequenced packet travels (R293). -/
inductive Origin where
  /-- a message slot of a bay, and the issue number of its request -/
  | msg (b : BayId) (slot : Nat) (ord : Nat)
  /-- a chunk for the member of `rank` -/
  | chunk (b : BayId) (group : BitVec 12) (seq : BitVec 32) (rank : Nat) (idx : Nat) (last : Bool)
  /-- a store of a dispatch (R233) -/
  | dispatch (b : BayId) (group : BitVec 12) (seq : BitVec 32)
  /-- header DMA of host command number `k` -/
  | dma (k : Nat)
  /-- the Ledger's trickle and hem stores and restore reads -/
  | ledger (u : LedgerUse)
  deriving DecidableEq, Repr

/-- A sequenced packet to be sent or resent: its type and fields, and where its data is read (R293, R297). -/
structure Req where
  org : Origin
  type : BitVec 4
  srcEp : Nat
  dstEp : Nat
  addr : BitVec 48
  /-- payload bytes, or the bytes a GET_REQ asks for -/
  len : Nat
  /-- device address the payload is read from -/
  data : Nat
  /-- bytes given, in place of a read from memory -/
  given : List Byte
  hdr : List Byte
  slot : Nat
  deriving DecidableEq, Repr

/-- Source state of a pair (R293, R294, R296 to R298). -/
structure PairSrc where
  dev : DevCoord
  pinc : BitVec 8
  next : BitVec 16
  /-- the next packet is the first of its incarnation -/
  opens : Bool
  /-- no packet of the incarnation is acknowledged yet -/
  unheard : Bool
  window : Nat
  /-- sent and not acknowledged, oldest first -/
  unacked : List (BitVec 16 × Req)
  waiting : List Req
  /-- broken: every request to the device fails until the hold-off ends (R298) -/
  broken : Bool
  /-- the round trip in progress ends when this SEQ is acknowledged, and whether it returned an echo (R296) -/
  roundEnd : BitVec 16
  echoed : Bool
  /-- scribe count of its last traffic -/
  last : Nat
  deriving DecidableEq, Repr

/-- Destination state of a pair (R293, R294). -/
structure PairDst where
  dev : DevCoord
  pinc : BitVec 8
  expect : BitVec 16
  /-- packets held ahead of the expected SEQ -/
  ahead : List Packet
  /-- chunks of which only some packets have arrived: destination endpoint, chunk header, bytes so far -/
  parts : List (Nat × List Byte × List Byte)
  last : Nat
  deriving DecidableEq, Repr

/-- A record of the atomic log or the tombstone store of a header (R307, R308). -/
structure AtomRec where
  hdr : Nat
  dev : DevCoord
  bay : BayId
  slot : BitVec 8
  gen : BitVec 16
  /-- released by its requester; `parked` keeps its log entry because the tombstone store is full -/
  tomb : Bool
  parked : Bool
  status : Code
  result : Word
  /-- scribe count at which the atomic was performed -/
  time : Nat
  deriving DecidableEq, Repr

/-- How a packet arrived at the device that holds it (R285): injected here, or with the kind of its rung. -/
inductive ArrivedBy where
  | here
  | rung (kind : Nat)
  deriving DecidableEq, Repr

/-- A packet that a fabric engine holds, and the landing-buffer space it occupies: port, POOL, VC, rung and cells. -/
structure Held where
  p : Packet
  by_ : ArrivedBy
  space : Option (Nat × Bool × Nat × Nat × Nat)
  /-- a frame of a port that went down, which leaves on its detour before new frames of its route (R306) -/
  first : Bool
  deriving DecidableEq, Repr

/-- A frame sent and not yet covered by LACK (R291). -/
structure TxFrame where
  lseq : BitVec 16
  p : Packet
  rung : Nat
  shared : Bool
  /-- sent on lead (R290), and how the packet had come to this device -/
  lead : Bool
  by_ : ArrivedBy
  deriving DecidableEq, Repr

/-- A lane of a port's link: the bulk wavelengths or the express wavelength (R291). -/
structure LinkLane where
  tx : BitVec 16
  rx : BitVec 16
  replay : List TxFrame
  /-- LSEQs of frames that are still to leave on the link, oldest first: those to be replayed, and express frames that wait for a
  burst (R291, R344) -/
  todo : List (BitVec 16)
  /-- replays of the oldest frame in a row -/
  tries : Nat
  /-- first missing LSEQ, to be named in a NAK -/
  nak : Option (BitVec 16)
  deriving DecidableEq, Repr

/-- A lane before any frame. -/
def LinkLane.reset : LinkLane := ⟨0, 0, [], [], 0, none⟩

/-- An Abaro port (R289 to R292, R305). -/
structure Port where
  bulk : LinkLane
  express : LinkLane
  /-- sender: cells in use of each reserved space at the far end (16 × VC + rung), shared cells free there, and cells sent on lead -/
  resv : SMap Nat
  shared : Nat
  lead : Nat
  /-- the measured round trip in ticks, from which LEAD follows (R290); lead sending paused -/
  rtt : Nat
  leadPaused : Bool
  /-- receiver: cells occupied of each reserved space, shared cells occupied, and credits to return -/
  rxResv : SMap Nat
  rxShared : Nat
  owed : List (BitVec 16)
  /-- has come up since the device last entered READY or since a circuit change named it (R292) -/
  wasUp : Bool
  /-- detours taken from the table when it went down, by level × 64 + value (R305) -/
  detours : SMap Word
  /-- the last control frame sent, an express one that waits for its burst (R344), and the last frame put on the link -/
  ctl : Option Frame
  ctlDue : Option Frame
  wire : Option Frame
  deriving DecidableEq, Repr

/-- A port before it comes up. -/
def Port.reset : Port :=
  { bulk := .reset, express := .reset, resv := [], shared := 896, lead := 0, rtt := 0, leadPaused := false
    rxResv := [], rxShared := 0, owed := [], wasUp := false, detours := [], ctl := none, ctlDue := none, wire := none }

/-- The notices of a collective that are resent until accepted (R219, R224, R228, R233, R235, R236). -/
inductive NoticeKind where
  | join
  | abort
  | tally
  | release
  | done
  deriving DecidableEq, Repr

/-- A notice sent and not yet accepted. -/
structure Notice where
  kind : NoticeKind
  group : BitVec 12
  seq : BitVec 32
  /-- the bay and rank that sends it -/
  src : BayId
  rank : Nat
  /-- the member it goes to, by coordinate -/
  dst : BitVec 28
  digest : BitVec 32
  /-- abort: code for the others, and detecting rank; tally: expert -/
  code : Code
  detector : Nat
  expert : Nat
  /-- held until its device has acknowledged every earlier store (R233) -/
  held : Bool
  /-- refused with CAPACITY and to be resent (R224) -/
  refused : Bool
  deriving DecidableEq, Repr

/-- An early record (R223): what reached a bay that has not joined. -/
structure EarlyRec where
  group : BitVec 12
  seq : BitVec 32
  bay : BayId
  joins : List (Nat × BitVec 32)
  tallies : List (Nat × Nat)
  releases : List Nat
  dones : List Nat
  /-- the first abort received: code and detecting rank; the scribe count at which it came -/
  abort : Option (Code × Nat)
  since : Nat
  /-- scribe counts of the last packet of the collective sent to a rank (R225) -/
  told : List (Nat × Nat)
  deriving DecidableEq, Repr

/-- A chunk on its way between bays of the device: the bay it goes to, the rank that sends it, its header and bytes (R213). -/
structure InnerChunk where
  bay : BayId
  rank : Nat
  hdr : List Byte
  data : List Byte
  deriving DecidableEq, Repr

/-- Fabric and collective state outside the registers. -/
structure Fabric where
  ports : SMap Port
  srcs : List PairSrc
  /-- incarnation that the next new pair to a device takes (R298) -/
  pincs : SMap (BitVec 8)
  /-- traffic that waits for room for its pair (R293) -/
  stalled : List (DevCoord × Req)
  /-- requests that ended outside an acknowledgement, not yet handed to their requesters -/
  ended : List (Req × Code)
  dsts : List PairDst
  atoms : List AtomRec
  /-- atomics that wait for their pair to apply SMARK (R303) -/
  amoWait : List Packet
  /-- packets held by the two fabric engines, oldest first -/
  held0 : List Held
  held1 : List Held
  /-- packets delivered to this device that their arrival has not yet taken -/
  arrived : List Packet
  /-- member lists of checked group entries, by entry (R209) -/
  groups : SMap (List Nat)
  early : List EarlyRec
  notices : List Notice
  inner : List InnerChunk
  /-- devices to which a pair has broken, of which the collectives have not been told (R227) -/
  lost : List DevCoord
  deriving DecidableEq, Repr

/-- The fabric after reset. -/
def Fabric.reset : Fabric :=
  { ports := [], srcs := [], pincs := [], stalled := [], ended := [], dsts := [], atoms := [], amoWait := [], held0 := []
    held1 := [], arrived := [], groups := []
    early := [], notices := [], inner := [], lost := [] }

/-- State of a microring's loop (R334 to R336). -/
inductive RingState where
  /-- off every channel, its loop not running -/
  | parked
  | locked
  /-- the error is beyond the equivalent of 0.5 GHz and lock is not lost -/
  | drifting
  | lost
  /-- on the wrong line: sweeps ended without the target's tag -/
  | sweeping (n : Nat)
  deriving DecidableEq, Repr

/-- A change of a port's stripe that waits for the one in progress (R332, R342): a hold, a step of this end's ladder, a rung or a join
that the far end asked for. -/
inductive LaneDue where
  | hold
  | step (r : Nat)
  | rung (r : Nat)
  | join (r : Nat)
  deriving DecidableEq, Repr

/-- Light control outside the registers (R33, R329 to R344). -/
structure Optics where
  /-- event queue of each engine, oldest first -/
  evq : SMap (List Word)
  /-- an engine's own control registers: engine × 65,536 + byte offset -/
  engRegs : SMap Byte
  /-- rings by engine × 101 + ring -/
  rings : SMap RingState
  /-- lanes (16 × port + wavelength) whose SNR allows a step up, and the scribe count since which it has -/
  rise : SMap (Option Nat)
  /-- lanes drained in order to be removed, and whether for good (R329, R340) -/
  leaving : List (Nat × Bool)
  /-- changes of lanes that wait for the stripe change of their port in progress, oldest first (R332, R342) -/
  due : List (Nat × LaneDue)
  /-- port codeword counts at or after which the last change of a lane takes effect, as its lane messages named them (R332) -/
  agreed : List (Nat × Nat)
  /-- scribe count at which the circuit change in progress started -/
  circuitAt : Option Nat
  /-- lasers that wait for a patch swap, by engine, in order (R342) -/
  swapQ : SMap (List Nat)
  /-- the laser whose swap runs -/
  swapOf : SMap (Option Nat)
  /-- fibre that each express laser is steered to, and the local ports of the express frames that wait, oldest first (R344) -/
  steer : SMap Nat
  expressQ : SMap (List Nat)
  deriving DecidableEq, Repr

/-- Light control after reset. -/
def Optics.reset : Optics :=
  { evq := [], engRegs := [], rings := [], rise := [], leaving := [], due := [], agreed := [], circuitAt := none, swapQ := [], swapOf := []
    steer := [], expressQ := [] }

/-- The scribe timebase outside its registers (R354 to R373). -/
structure Scribe where
  /-- ticks since the servo last held or doubled one (R358) -/
  sinceSlew : Nat
  /-- exchange requests that wait for their reply: XSEQ and T1 -/
  sent : List (BitVec 16 × Word)
  /-- round trips of the last accepted exchanges (at most 64) and their offsets (at most 8), newest first, in eighths of a tick -/
  rtts : List Int
  offs : List Int
  /-- exchanges in a row whose median lay within ±2 ns, and outside ±50 ns -/
  within : Nat
  outside : Nat
  /-- conditions of R364 in force beside the reference's -/
  degraded : List DegradedCause
  /-- eighths of a tick the servo has still to slew by (none before the first median), and by how much the parent's count ran ahead of
  this one's between the last two medians (R362) -/
  owe : Option Int
  drift : Int
  /-- TIME packets landed that their arrival row has not taken: payload and count at the landing (R360) -/
  landed : List (List Byte × Nat)
  /-- a capture waits for the next calendar tick (R373) -/
  latchArmed : Bool
  /-- the scribe count as the domain of a bay last had it (R31, R32) -/
  copies : SMap Nat
  deriving DecidableEq, Repr

/-- The timebase after reset. -/
def Scribe.reset : Scribe :=
  { sinceSlew := 2048, sent := [], rtts := [], offs := [], within := 0, outside := 0, degraded := [], owe := none
    drift := 0, landed := [], latchArmed := false, copies := [] }

/-- Where a fetched host command stands. -/
inductive CmdStage where
  | fetched
  /-- in the launch queue (R366) -/
  | launch
  | running
  deriving DecidableEq, Repr

/-- A read of host memory that a command waits for: host address, bytes, device address they go to, and the region index of a
DIG write. -/
structure HostRead where
  host : Nat
  len : Nat
  dev : Nat
  dig : Option Nat
  /-- bytes of a DIG write that have arrived -/
  got : List Byte
  deriving DecidableEq, Repr

/-- An entry of a load list (R459): host address, device address and DIG field, length, and its last 8 bytes. -/
structure LoadEntry where
  host : Word
  dev : Word
  len : Word
  zero : Word
  deriving DecidableEq, Repr

/-- A host command (R448, R452). -/
structure HostCmd where
  /-- number of the command, counting fetched descriptors -/
  k : Nat
  sq : Nat
  cid : BitVec 16
  op : Nat
  flags : Nat
  pstep : Nat
  mark : Word
  p : List Word
  stage : CmdStage
  /-- ticks between MARK and firing -/
  late : Option Nat
  reads : List HostRead
  /-- JOB_LOAD (R459): entries of the load list still to be read, entries read and not yet copied, and the bytes of all -/
  toRead : Nat
  entries : List LoadEntry
  total : Nat
  /-- bytes moved -/
  moved : Nat
  /-- header DMA (R458): its number among those that run, the 2 KiB pieces of the current read that have arrived, and the first
  code that a request of it failed with -/
  dma : Nat
  pieces : List Nat
  fail : Option Code
  /-- interim records written -/
  shown : Nat
  deriving DecidableEq, Repr

/-- A completion record that waits for its ring (R449, R454): what is fixed when the command ends. -/
structure Record where
  cid : BitVec 16
  op : Nat
  code : Code
  sq : Nat
  /-- FLAGS without PHASE -/
  flags : Nat
  pct : Nat
  detail : Nat
  late : Nat
  result : Word
  /-- number of the command -/
  k : Nat
  deriving DecidableEq, Repr

/-- The job in execution (R460). -/
structure Job where
  /-- number of its JOB_START; none where a host reset has discarded its record -/
  cmd : Option Nat
  bays : List Nat
  lease : Bool
  plumb : Bool
  stopped : Bool
  /-- cause of the first thread to fault, and the threads whose event record is written (bay × 2 + thread) -/
  fault : Option Code
  told : List Nat
  deriving DecidableEq, Repr

/-- An access of the debug aperture that waits: whether it writes, `MSC_DBG_WIN` as it was when the access came, offset, size and value
(R444, R470). -/
structure LateAccess where
  write : Bool
  win : Word
  off : Nat
  size : Nat
  value : Word
  deriving DecidableEq, Repr

/-- The host interface outside its registers. -/
structure HostIf where
  next : Nat
  cmds : List HostCmd
  /-- the submission ring on turn, and the descriptors taken from it in this turn (R448) -/
  turn : Nat × Nat
  /-- records waiting by completion ring, and records written since the ring was enabled -/
  waiting : SMap (List Record)
  written : SMap Nat
  /-- records written since the ring's last message (R451) -/
  since : SMap Nat
  job : Option Job
  /-- the state before HOLD (R461) -/
  before : Nat
  /-- the HOLD command that waits for the end of the data commands (R461) -/
  holdAsked : Option Nat
  /-- accesses of the debug aperture that wait for their target, oldest first (R30, R255) -/
  late : List LateAccess
  /-- bytes the device has written to host memory, by host address -/
  mem : List Host.Cell
  deriving DecidableEq, Repr

/-- The host interface after reset. -/
def HostIf.reset : HostIf :=
  { next := 0, cmds := [], turn := (15, 15), waiting := [], written := [], since := [], job := none
    before := 0, holdAsked := none, late := [], mem := [] }

/-- A step of the history (R385). -/
structure StepRec where
  number : Nat
  valid : Bool
  cause : Code
  clean : Bool
  opened : Nat
  closed : Nat
  /-- key and counter of each stream when the step opened -/
  rng : List (Word × Word)
  /-- plumb mode matched the step; until that is settled, each bay's count of strips when the step closed, where plumb mode ran
  undiverged from its opening on (R390, R400) -/
  matched : Bool
  strips : Option (List (Nat × Nat))
  deriving DecidableEq, Repr

/-- A leaf to digest: region index, address and length (R388). -/
structure Leaf where
  region : Nat
  addr : Nat
  len : Nat
  deriving DecidableEq, Repr

/-- A class digest in progress (R389). -/
structure DigestJob where
  cls : Nat
  leaves : List Leaf
  /-- leaves in all, and digests of the leaves done, by region -/
  total : Nat
  done : List (Nat × List Byte)
  deriving DecidableEq, Repr

/-- Plumb state of a bay (R395, R396). -/
structure PlumbBay where
  count : Nat
  p : Word
  /-- the last 64 strip entries, newest first, with the step in which each was produced -/
  ring : List (PlumbStrip × Nat)
  matched : Nat
  /-- the partner's pairs that wait for this bay's own count -/
  theirs : List (Nat × Word)
  sent : Nat
  /-- a strip of the bay is held (R396) -/
  held : Bool
  deriving DecidableEq, Repr

/-- A bay at the start mark. -/
def PlumbBay.reset : PlumbBay := ⟨0, 0, [], 0, [], 0, false⟩

/-- An unmatched chunk entry: whether it is this device's own, the step in which it was produced, and the scribe count since which
it is held (R397). -/
structure PlumbEntry where
  chunk : PlumbChunk
  own : Bool
  step : Nat
  since : Nat
  deriving DecidableEq, Repr

/-- The key of a chunk (R395): bay, GROUP, SEQ and chunk index. -/
structure ChunkKey where
  bay : BayId
  group : BitVec 12
  seq : BitVec 32
  idx : BitVec 16
  deriving DecidableEq, Repr

/-- Plumb mode outside its registers. -/
structure Plumb where
  bays : SMap PlumbBay
  table : List PlumbEntry
  /-- own chunk entries not yet sent -/
  toSend : List PlumbChunk
  /-- chunks held because the table is full (R397) -/
  held : List ChunkKey
  heard : Nat
  /-- scribe count of the last match (R400) -/
  lastMatch : Nat
  deriving DecidableEq, Repr

/-- A region of a slot's manifest (R420). -/
structure ManRegion where
  base : Nat
  len : Nat
  off : Nat
  shared : Bool
  digest : List Byte
  deriving DecidableEq, Repr

/-- The baste in progress or last taken, outside the registers (R412 to R417). -/
structure BasteJob where
  due : Bool
  forced : Bool
  /-- step opened by the last baste that sealed -/
  last : Nat
  /-- manifest of the running baste: the bytes of its header, cursor and RNG image, and its regions -/
  head : List Byte
  regions : List ManRegion
  /-- leaves of the local slot to be digested, and their digests so far by region -/
  leaves : List Leaf
  total : Nat
  done : List (Nat × List Byte)
  /-- leaves digested and still to be trickled, oldest first; leaves trickled -/
  trickle : List Leaf
  trickled : Nat
  /-- code that ended the trickle before the baste was sealed -/
  cut : Option Code
  /-- the first trickle store and the manifest have been sent, and the code with which the partner refused a store or was lost (R416,
  R417) -/
  begun : Bool
  closing : Bool
  fail : Option Code
  /-- the due baste has been deferred and counted (R414) -/
  deferred : Bool
  deriving DecidableEq, Repr

/-- A hem in progress (R418). -/
structure HemJob where
  cmd : Option Nat
  coord : BitVec 28
  obj : Nat
  rate : Nat
  /-- pieces of the local slot's regions still to be sent, bytes to send in all, and bytes sent -/
  pieces : List (Nat × Nat)
  total : Nat
  sent : Nat
  /-- the first store and the manifest have been sent, and the code with which a store ended -/
  begun : Bool
  closing : Bool
  fail : Option Code
  deriving DecidableEq, Repr

/-- A source of a restore (R421): the local slot, or the object at an address of a fabric endpoint. -/
structure RestoreSource where
  here : Bool
  coord : BitVec 28
  addr : Nat
  deriving DecidableEq, Repr

/-- Parameters of a restore (R421, R456). -/
structure RestoreArgs where
  primary : RestoreSource
  fallback : Option RestoreSource
  set : Nat
  fromManifest : Bool
  deriving DecidableEq, Repr

/-- A part of a restore's source: of the fallback or the primary, its offset and length. -/
structure RestorePart where
  fallback : Bool
  off : Nat
  len : Nat
  deriving DecidableEq, Repr

/-- A restore in progress (R421 to R423): its command and parameters, the values supplied, the parts that the fabric brought with the
code of their read, and the part that is being read: its bytes so far, and the pieces of the next 64 KiB that have arrived. -/
structure RestoreJob where
  cmd : Nat
  args : RestoreArgs
  supplied : Code × List Byte
  got : List (RestorePart × Code × List Byte)
  want : Option RestorePart
  bytes : List Byte
  pieces : List (Nat × List Byte)
  deriving DecidableEq, Repr

/-- A sample of the counters that the risk estimate reads (R413). -/
structure RiskSample where
  time : Nat
  corrected : List Nat
  replays : List Nat
  level : Nat
  deriving DecidableEq, Repr

/-- The Ledger outside its registers. -/
structure Ledger where
  /-- closed steps, newest first, at most 256 -/
  history : List StepRec
  opened : Nat
  openRng : List (Word × Word)
  digest : Option DigestJob
  /-- digests taken of regions as they were written, by region index, with base and length (R389) -/
  asWritten : SMap (List Byte)
  /-- class digests (`LDG_CLASS_DIG`), 64 bytes each -/
  classDig : SMap (List Byte)
  doneAt : SMap Nat
  /-- launches fired: mark and scribe count, newest first (R391) -/
  launches : List (Nat × Nat)
  plumb : Plumb
  baste : BasteJob
  hem : Option HemJob
  restore : Option RestoreJob
  /-- devices whose Ledgers read the local slot, with the scribe count of the last read (R414) -/
  readers : List (DevCoord × Nat)
  risk : List RiskSample
  /-- scribe count at which NBR was last halved -/
  nbrAt : Nat
  deriving DecidableEq, Repr

/-- The Ledger after reset. -/
def Ledger.reset : Ledger :=
  { history := [], opened := 0, openRng := List.replicate 64 (0, 0), digest := none, asWritten := [], classDig := [], doneAt := [], launches := []
    plumb := ⟨[], [], [], [], 0, 0⟩
    baste := { due := false, forced := false, last := 0, head := [], regions := [], leaves := [], total := 0, done := []
               trickle := [], trickled := 0, cut := none, begun := false, closing := false, fail := none, deferred := false }
    hem := none, restore := none, readers := [], risk := [], nbrAt := 0 }

/-- The TPC outside its registers (R497 to R507). -/
structure Thermal where
  /-- values that sensors gave in the interval, in quarter degrees -/
  seen : List (Sensor × Int)
  /-- ring oscillators excluded (R498) -/
  excluded : List Sensor
  /-- failed temperature reads in a row, by stack -/
  hbmFails : SMap Nat
  coolFault : Bool
  /-- last reading and target of each domain instance, numbered as in `TPC_LEVELS` -/
  last : SMap Int
  target : SMap Nat
  /-- input samples of the last 1 ms, newest first: millivolts and watts -/
  power : List (Nat × Nat)
  /-- clock point each compute die has reached, and the change in progress (R506) -/
  point : SMap Nat
  moving : SMap (Option Nat)
  /-- dies whose MAX_POINT a re-plan in HOLD is to raise once READY is entered, once for each raise (R518) -/
  raise : List Nat
  deriving DecidableEq, Repr

/-- The TPC after reset. -/
def Thermal.reset : Thermal :=
  { seen := [], excluded := [], hbmFails := [], coolFault := false, last := [], target := [], power := [], point := [], moving := [], raise := [] }

/-- Power, straps and the boot sequence (R508 to R516, R537 to R541, R545 to R549). -/
structure Power where
  /-- the 48 V and 3.3 V auxiliary inputs are present -/
  v48 : Bool
  aux : Bool
  /-- the reset contact is asserted -/
  contact : Bool
  /-- PWR_GOOD: the rails are up -/
  good : Bool
  /-- the calendar has a source -/
  calOn : Bool
  /-- charge of the cell, `cellFull` when full (R370) -/
  cell : Nat
  charging : Bool
  /-- strap samples and reference of the boot in progress -/
  samples : List Straps
  refOk : Bool
  /-- the firmware runs -/
  booted : Bool
  /-- the boot waits for the bench check (R541) -/
  benching : Bool
  /-- the MSC is to reset the device (R478, R541) -/
  resetDue : Bool
  /-- a PATROL or OFF command waits for the end of the job (R513, R516) -/
  patrolDue : Bool
  offDue : Bool
  /-- the fabric was enabled before an entry into PATROL disabled it -/
  fabWas : Bool
  /-- after a failed wake, only an address match wakes (R512) -/
  addrOnly : Bool
  lastSample : Option PatrolReadings
  /-- quantities that the last patrol sample found to have crossed a limit -/
  crossed : List Nat
  deriving DecidableEq, Repr

/-- Charge of a full cell (R370), in what the calendar takes at most in one of its ticks: three years at 32,768 ticks a second. The
charger gives 548 of it in a tick, so that it fills an empty cell in 48 h. -/
def cellFull : Nat := 548 * 5662310400

/-- Power right after reset: both inputs present, nothing booted. -/
def Power.reset : Power :=
  { v48 := true, aux := true, contact := false, good := false, calOn := true, cell := cellFull, charging := true, samples := [], refOk := true
    booted := false, benching := false, resetDue := false, patrolDue := false, offDue := false, fabWas := false, addrOnly := false
    lastSample := none, crossed := [] }

/-- A firmware write in progress: bytes accepted, in image order (R477). -/
structure FwWrite where
  bytes : List Byte
  deriving DecidableEq, Repr

/-- What survives reset and power cycles beside the registers of `keptRegs`: flash, the on-module store and the fuses. -/
structure Store where
  flash : List Byte
  /-- records issued (R390) -/
  records : Nat
  bench : Bool
  /-- lanes removed for good (16 × port + wavelength), lasers retired (37 × engine + laser), patch lasers in service by lane
  (33 × engine + lane, 32 for express) (R353) -/
  gone : List Nat
  retired : List Nat
  patched : SMap (Option Nat)
  /-- margin and run hours of the last eight re-plans, newest first (R519) -/
  plans : List (Nat × Nat)
  deriving DecidableEq, Repr

/-- The store of a module that has done nothing yet. -/
def Store.reset : Store := { flash := [], records := 0, bench := false, gone := [], retired := [], patched := [], plans := [] }

/-- A reply of the management port (R531). -/
structure Reply where
  tag : Byte
  cmd : Nat
  code : Code
  pend : Bool
  payload : List Byte
  deriving DecidableEq, Repr

/-- An event of the management port (R536). -/
structure MgmtEvent where
  code : Nat
  detail : Nat
  dev : DevCoord
  cal : Word
  deriving DecidableEq, Repr

/-- The management port outside its registers. -/
structure Mgmt where
  /-- the request in execution: command, tag and payload -/
  req : Option (Nat × Byte × List Byte)
  reply : Option Reply
  /-- bytes of the last reply read, or of the last CCC's answer -/
  out : List Byte
  events : List MgmtEvent
  deriving DecidableEq, Repr

/-- The management port after reset. -/
def Mgmt.reset : Mgmt := { req := none, reply := none, out := [], events := [] }

/-- The state of the device. -/
structure State where
  /-- commands waiting, first in, first out -/
  pending : List Instr
  /-- registers by device address; an unlisted register holds its reset value -/
  regs : SMap Word
  /-- bays by bay id; an unlisted bay is as after reset -/
  bays : SMap Bay
  /-- bytes of HBM, the LLS scratchpad window and the bay memories by device address (R4, R5); an unlisted byte reads 0x00 -/
  mem : List Host.Cell
  /-- 64-bit words of bay memory and LLS (device address / 8) that hold a single-bit error, and a double-bit error -/
  ecc1 : List Nat
  ecc2 : List Nat
  /-- 32 B units of HBM (device address / 32) that hold an uncorrectable codeword (R251) -/
  hbmBad : List Nat
  /-- failed flit replays in a row by die-to-die link; 16 where the link is down (R26) -/
  flits : SMap Nat
  hbm : Hbm
  fab : Fabric
  opt : Optics
  scr : Scribe
  host : HostIf
  ldg : Ledger
  tpc : Thermal
  power : Power
  store : Store
  fwWrite : Option FwWrite
  mgmt : Mgmt
  /-- measurement registers M0 to M7, 64 bytes each (R483); an unlisted one holds zeros -/
  meas : SMap (List Byte)
  /-- MODEL'S OWN: open values drawn so far -/
  fresh : Nat
  /-- MODEL'S OWN: outcome code of the last access or command that reports one, and the data it returned -/
  lastCode : Code
  lastData : Word
  deriving DecidableEq, Repr

/-- The device right after reset. -/
def State.reset : State :=
  { pending := [], regs := [], bays := [], mem := [], ecc1 := [], ecc2 := [], hbmBad := [], flits := [], hbm := .reset, fab := .reset
    opt := .reset, scr := .reset, host := .reset, ldg := .reset, tpc := .reset, power := .reset, store := .reset, fwWrite := none
    mgmt := .reset, meas := []
    fresh := 0, lastCode := 0, lastData := 0 }

end Sys2Proof.Machine
end

