-- ==== Sys2Proof/Machine/Ops.lean ====
section
/-! DEFINITION. The named operations over registers, device memory, bays and threads, and the stop conditions of a thread
(R67 to R71), shared by every command family. -/

namespace Sys2Proof.Machine

/-- The outcome of every command that has its meaning. -/
abbrev Res := Host.Outcome State Fault Refusal

/-! ### Registers -/

/-- The value of the register at address `a`. -/
def State.reg (s : State) (a : Nat) : Word := smapGet regDefault s.regs a

/-- `s` with `v` in the register at address `a`. -/
def State.setReg (s : State) (a : Nat) (v : Word) : State := { s with regs := smapSet regDefault s.regs a v }

/-- The bits of field `lo`, `width` of a word. -/
def fieldOf (w : Word) (lo width : Nat) : Nat := (w.extractLsb' lo width).toNat

/-- The word with `v` in its field `lo`, `width`. -/
def putField (w : Word) (lo width v : Nat) : Word :=
  (w &&& ~~~ ((BitVec.allOnes width).setWidth 64 <<< lo)) ||| ((BitVec.ofNat width v).setWidth 64 <<< lo)

/-- Value of a register field. -/
def State.getF (s : State) (f : Field) : Nat := fieldOf (s.reg f.reg) f.lo f.width

/-- `s` with `v`, reduced to the field's width, in a register field. -/
def State.setF (s : State) (f : Field) (v : Nat) : State := s.setReg f.reg (putField (s.reg f.reg) f.lo f.width v)

/-- A counter field plus `n`, modulo its width. -/
def State.incF (s : State) (f : Field) (n : Nat := 1) : State := s.setF f (s.getF f + n)

/-- An event of a sticky flag: the flag is set and its counter gains one, whether or not the flag was set (R14). -/
def State.stick (s : State) (flag cnt : Field) : State := (s.setF flag 1).incF cnt

/-- Software's clear of a sticky flag: a 1 written to a W1C bit (R13). -/
def State.clearFlag (s : State) (flag : Field) : State := s.setF flag 0

/-- Several fields of registers written in order. -/
def State.setFs (s : State) (l : List (Field × Nat)) : State := l.foldl (fun s p => s.setF p.1 p.2) s

/-! ### Step validity (R383, R384) -/

/-- A Bits event with its code: the open step is no longer valid, and its CAUSE keeps the first code (R384). -/
def State.bitsEvent (s : State) (code : Code) : State :=
  let s := s.setF Fld.LDG_STEP_STATUS_VALID 0
  if s.getF Fld.LDG_STEP_STATUS_CAUSE = 0 then s.setF Fld.LDG_STEP_STATUS_CAUSE code.toNat else s

/-- `n` events that break tick-repeat (R383, R384). -/
def State.tickEvent (s : State) (n : Nat := 1) : State :=
  if n = 0 then s else (s.setF Fld.LDG_STEP_STATUS_TICK_CLEAN 0).incF Fld.LDG_STEP_STATUS_TICK_EVENTS n

/-! ### Bytes -/

/-- The little-endian number of a byte list. -/
def leNat : List Byte → Nat
  | [] => 0
  | b :: bs => b.toNat + 256 * leNat bs

/-- `n` little-endian bytes of a number. -/
def leBytes : Nat → Nat → List Byte
  | 0, _ => []
  | n + 1, v => BitVec.ofNat 8 v :: leBytes n (v / 256)

/-! ### Device memory -/

/-- What a byte of memory that nothing has written reads as: 0x00 (DESIGN CHOICE, log entry 1). -/
def memDefault (_a : Nat) : Byte := 0

/-- The byte at a device address. -/
def State.memByte (s : State) (a : Nat) : Byte := smapGet memDefault s.mem a

/-- `s` with one byte written. -/
def State.setMem (s : State) (a : Nat) (v : Byte) : State := { s with mem := smapSet memDefault s.mem a v }

/-- The `n` bytes from a device address, ascending. -/
def State.memBytes (s : State) (a : Nat) : Nat → List Byte
  | 0 => []
  | n + 1 => s.memByte a :: s.memBytes (a + 1) n

/-- `s` with bytes written from a device address, ascending. -/
def State.setMemBytes (s : State) (a : Nat) : List Byte → State
  | [] => s
  | v :: vs => (s.setMem a v).setMemBytes (a + 1) vs

/-- The canonical form of the memory: addresses strictly rising, no byte at its unlisted value. -/
def memWf (m : List Host.Cell) : Bool := smapWf memDefault m

/-! ### Address map (R4, R5) -/

/-- First address of the LLS scratchpad window. -/
def llsBase : Nat := 0x010000000000

/-- First address of the bay memories. -/
def bayMemBase : Nat := 0x011000000000

/-- First address of register space. -/
def regBase : Nat := 0x01F000000000

/-- Device address of byte `o` of the memory of bay `b` (R5). -/
def bayAddr (b : BayId) (o : Nat) : Nat := bayMemBase + b.toNat * 0x100000 + o

/-- The ranges of R4. -/
inductive Region where
  | hbm
  | lls
  | bay
  | regs
  /-- no range holds the address (R6) -/
  | none
  deriving DecidableEq, Repr

/-- The range of R4 that an address lies in. -/
def regionOf (a : Nat) : Region :=
  if a < llsBase then .hbm
  else if a < 0x010020000000 then .lls
  else if bayMemBase ≤ a ∧ a < 0x011040000000 then .bay
  else if regBase ≤ a ∧ a < 0x01F100000000 then .regs
  else .none

/-! ### Bays -/

/-- A bay by its id. -/
def State.bay (s : State) (b : BayId) : Bay := smapGet (fun _ => Bay.reset) s.bays b.toNat

/-- `s` with a bay replaced. -/
def State.setBay (s : State) (b : BayId) (y : Bay) : State :=
  { s with bays := smapSet (fun _ => Bay.reset) s.bays b.toNat y }

/-- `s` with a bay changed by `f`. -/
def State.updBay (s : State) (b : BayId) (f : Bay → Bay) : State := s.setBay b (f (s.bay b))

/-- The other thread of the bay. -/
def otherThread : Thread → Thread
  | .main => .seam
  | .seam => .main

/-- A thread of a bay. -/
def Bay.thr (y : Bay) : Thread → ThreadRec
  | .main => y.main
  | .seam => y.seam

/-- A bay with a thread replaced. -/
def Bay.setThr (y : Bay) (t : Thread) (r : ThreadRec) : Bay :=
  match t with
  | .main => { y with main := r }
  | .seam => { y with seam := r }

/-- A thread of a bay. -/
def State.thr (s : State) (b : BayId) (t : Thread) : ThreadRec := (s.bay b).thr t

/-- `s` with a thread changed by `f`. -/
def State.updThr (s : State) (b : BayId) (t : Thread) (f : ThreadRec → ThreadRec) : State :=
  s.updBay b fun y => y.setThr t (f (y.thr t))

/-- A general register: g0 reads as zero (R41, R179). -/
def ThreadRec.getG (r : ThreadRec) (i : BitVec 5) : Word := if i = 0 then 0 else r.g[i.toNat]'i.isLt

/-- A general register written: a write to g0 is discarded (R41, R179). -/
def ThreadRec.setG (r : ThreadRec) (i : BitVec 5) (v : Word) : ThreadRec :=
  if i = 0 then r else { r with g := r.g.set i.toNat v i.isLt }

/-- A thread with its state of R76 replaced. -/
def ThreadRec.setSt (r : ThreadRec) (st : ThreadState) : ThreadRec := { r with status := { r.status with st := st } }

/-- The g register `i` written by a finished instruction, its pending mark taken away (R48). -/
def ThreadRec.deliver (r : ThreadRec) (i : BitVec 5) (qseq : BitVec 12) (v : Word) : ThreadRec :=
  { r.setG i v with pend := r.pend.filter fun p => !(p.reg == i && p.qseq == qseq) }

/-- `a` is older than `b`, modulo 4,096 within half the modulus (R64). -/
def qseqOlder (a b : BitVec 12) : Bool := decide (0 < (b - a).toNat) && decide ((b - a).toNat < 2048)

/-! ### Bay memory with its check code (R50, R55, R562) -/

/-- Keys of the 64-bit words that `n` bytes from device address `a` touch. -/
def wordsOf (a n : Nat) : List Nat := (List.range ((a + n - 1) / 8 + 1 - a / 8)).map (· + a / 8)

/-- One access that reads `n` bytes of bay memory: single-bit errors are corrected, written back and counted; a double-bit
error is counted once for the access (R55). Answers the state and whether the access is uncorrectable. -/
def State.eccRead (s : State) (b : BayId) (o n : Nat) : State × Bool :=
  if n = 0 ∨ (s.ecc1 = [] ∧ s.ecc2 = []) then (s, false)
  else
    let ws := wordsOf (bayAddr b o) n
    let fixed := s.ecc1.filter fun k => ws.contains k
    let bad := s.ecc2.any fun k => ws.contains k
    let s := { s with ecc1 := s.ecc1.filter fun k => !ws.contains k }
    let s := (s.incF (Fld.BAY_MEM_ECC_CORR_CNT b.toNat) fixed.length).tickEvent fixed.length
    (if bad then s.incF (Fld.BAY_MEM_ECC_UNCORR_CNT b.toNat) else s, bad)

/-- The bytes of bay memory, ascending. -/
def State.bayBytes (s : State) (b : BayId) (o n : Nat) : List Byte := s.memBytes (bayAddr b o) n

/-- Whether every word of the range is written whole. -/
def wholeWords (o n : Nat) : Bool := decide (o % 8 = 0) && decide (n % 8 = 0)

/-- One access that writes bytes into bay memory: whole words take a fresh code; a part of a word merges, which fails where the
word is uncorrectable (R55, R562). Answers the state and whether the write failed. -/
def State.bayWrite (s : State) (b : BayId) (o : Nat) (bs : List Byte) : State × Bool :=
  if bs = [] then (s, false)
  else
    let n := bs.length
    let a := bayAddr b o
    let ws := wordsOf a n
    let part := ws.filter fun k => !(decide (a ≤ k * 8) && decide (k * 8 + 8 ≤ a + n))
    if s.ecc2.any fun k => part.contains k then (s.incF (Fld.BAY_MEM_ECC_UNCORR_CNT b.toNat), true)
    else
      let healed := s.ecc1.filter fun k => part.contains k
      let s := s.setMemBytes a bs
      let s := { s with
        ecc1 := s.ecc1.filter fun k => !ws.contains k
        ecc2 := s.ecc2.filter fun k => !ws.contains k }
      (if healed = [] then s
        else (s.incF (Fld.BAY_MEM_ECC_CORR_CNT b.toNat) healed.length).tickEvent healed.length, false)

/-! ### Open values -/

/-- The next open value: `Config.freeValue` at the state's counter, which advances. -/
def State.draw (s : State) : State × Nat := ({ s with fresh := s.fresh + 1 }, Config.freeValue s.fresh)

/-- `n` bytes from a device address take open values: contents that the spec calls undefined. -/
def State.openBytes (s : State) (a n : Nat) : State :=
  let d := s.draw
  d.1.setMemBytes a ((List.range n).map fun i => Config.freeByte d.2 (a + i))

end Sys2Proof.Machine
end

