-- ==== Sys2Proof/Machine/Flags.lean ====
section
/-! DEFINITION. Outcome codes (R17), device states (R19), the sticky flags of a bay with their traps (R65, R66, R108, R172),
and how a thread stops (R67 to R70). -/

namespace Sys2Proof.Machine

/-! ### Outcome codes (R17) -/

def cDONE : Code := 0x00
def cSTATE_REJECT : Code := 0x01
def cMALFORMED : Code := 0x02
def cACCESS_DENIED : Code := 0x03
def cRANGE : Code := 0x04
def cTIMEOUT : Code := 0x05
def cABORTED_GROUP : Code := 0x06
def cMISMATCH_GROUP : Code := 0x07
def cMEM_UNCORRECTABLE : Code := 0x08
def cSEAM_FAIL : Code := 0x09
def cDIGEST_FAIL : Code := 0x0A
def cRESTORE_SKEW : Code := 0x0B
def cOUTCOME_UNKNOWN : Code := 0x0C
def cTHERMAL_STOP : Code := 0x0D
def cLEASE_EXPIRED : Code := 0x0E
def cEPOCH_STALE : Code := 0x0F
def cCAPACITY : Code := 0x10
def cLINK_LOST : Code := 0x11
def cPLUMB_DIVERGED : Code := 0x12
def cTRAPPED : Code := 0x13

/-- An open failure code: one of R17's other than DONE (R18), where the spec names none. -/
def openFailure (n : Nat) : Code := BitVec.ofNat 8 (n % 0x13 + 1)

/-! ### Device states (R19), coded as `MSC_STATE.STATE` (R468) -/

def stOFF : Nat := 0
def stPATROL : Nat := 1
def stRESET : Nat := 2
def stRECOVERY : Nat := 3
def stREADY : Nat := 4
def stRUN : Nat := 5
def stHOLD : Nat := 6
def stHELD : Nat := 7
def stQUARANTINE : Nat := 8
def stLATCHED : Nat := 9

/-- The device state. -/
def State.devState (s : State) : Nat := s.getF Fld.MSC_STATE_STATE

/-- The scribe count of the headers. -/
def State.now (s : State) : Nat := s.getF Fld.SCR_COUNT_COUNT

/-! ### Thread state -/

/-- RUN, WAIT or DRAIN (R73). -/
def ThreadState.live : ThreadState → Bool
  | .run | .wait | .drain => true
  | _ => false

/-- A thread that issues: in RUN and held by nothing. -/
def ThreadRec.issues (r : ThreadRec) : Bool := decide (r.status.st = .run) && decide (r.waitFor = .none)

/-- The program counter moved past an instruction. -/
def ThreadRec.advance (r : ThreadRec) : ThreadRec := { r with pc := r.pc + 8 }

/-- The record of the first stop condition of a thread in its status register (R69, R76). -/
def ThreadRec.record (r : ThreadRec) (cause : Code) (source flag : BitVec 4) (qseq : BitVec 12) (pc : BitVec 20)
    (gd : BitVec 5) (engine : Bool) : ThreadRec :=
  { r with
    waitFor := .none
    stop := some { goal := .fault, qseq := qseq, engine := engine }
    status := { r.status with
      faultPc := pc, qseq := qseq, cause := cause, source := source, flag := flag, pendG := gd, st := .drain } }

/-- A stop condition met by a thread (R68 to R70): the first is recorded; of two, the older by QSEQ or program order is
recorded and MULTI is set. A condition of the scalar pipe is younger than every queued instruction. A thread that drains
towards IDLE or STOPPED turns towards FAULT. -/
def ThreadRec.stopOn (r : ThreadRec) (cause : Code) (source flag : BitVec 4) (qseq : BitVec 12) (pc : BitVec 20)
    (gd : BitVec 5) (engine : Bool) : ThreadRec :=
  if r.status.st.live then
    match r.stop with
    | none => r.record cause source flag qseq pc gd engine
    | some p =>
      if p.goal = .fault then
        let older := engine && (!p.engine || qseqOlder qseq p.qseq)
        let r' := if older then r.record cause source flag qseq pc gd engine else r
        { r' with status := { r'.status with multi := true } }
      else r.record cause source flag qseq pc gd engine
  else r

/-- A precise fault (R67, R68): SOURCE 1 and QSEQ 0 (R178), the pc of the instruction; the thread drains towards FAULT. -/
def State.preciseFault (s : State) (b : BayId) (t : Thread) (cause : Code) : State :=
  s.updThr b t fun r => r.stopOn cause 1 0 0 r.pc 0 false

/-- Which engine executes (R69). -/
inductive Engine where
  | press
  | vector (q : Thread)
  deriving DecidableEq, Repr

/-- SOURCE code of an engine (R76). -/
def Engine.source : Engine → BitVec 4
  | .press => 2
  | .vector _ => 3

/-- The thread whose instructions an engine queue holds (R45). -/
def Engine.thread : Engine → Thread
  | .press => .main
  | .vector q => q

/-- The stop of an engine by a trap, an uncorrectable error or a failed write (R69): the entries behind are discarded, the
thread's other engine queue keeps its older entries, and the thread stops. -/
def State.engineStop (s : State) (b : BayId) (e : Engine) (cause : Code) (flag : BitVec 4) (qseq : BitVec 12)
    (pc : BitVec 20) (gd : BitVec 5) : State :=
  s.updBay b fun y =>
    let y := match e with
      | .press => { y with pq := [], mainVq := y.mainVq.filter fun x => qseqOlder x.qseq qseq }
      | .vector .main => { y with mainVq := [], pq := y.pq.filter fun x => qseqOlder x.qseq qseq }
      | .vector .seam => { y with seamVq := [] }
    y.setThr e.thread ((y.thr e.thread).stopOn cause e.source flag qseq pc gd true)

/-- The sticky flags that can trap, by the FLAG code of R76. -/
inductive TrapFlag where
  | accSat
  | laneRange
  | emptyRow
  | nanRow
  deriving DecidableEq, Repr

/-- FLAG code (R76). -/
def TrapFlag.code : TrapFlag → BitVec 4
  | .accSat => 1
  | .laneRange => 2
  | .emptyRow => 3
  | .nanRow => 4

/-- The flag bit (R111, R172). -/
def TrapFlag.field (b : BayId) : TrapFlag → Field
  | .accSat => Fld.PRS_FLAGS_ACC_SAT b.toNat
  | .laneRange => Fld.VEC_FLAGS_LANE_RANGE b.toNat
  | .emptyRow => Fld.VEC_FLAGS_EMPTY_ROW b.toNat
  | .nanRow => Fld.VEC_FLAGS_NAN_ROW b.toNat

/-- The event counter of a flag (R14, R111, R173). -/
def TrapFlag.counter (b : BayId) : TrapFlag → Field
  | .accSat => Fld.PRS_ACC_SAT_CNT_COUNT b.toNat
  | .laneRange => Fld.VEC_LANE_RANGE_CNT_COUNT b.toNat
  | .emptyRow => Fld.VEC_EMPTY_ROW_CNT_COUNT b.toNat
  | .nanRow => Fld.VEC_NAN_ROW_CNT_COUNT b.toNat

/-- The trap enable (R65, R75). -/
def TrapFlag.enable (b : BayId) : TrapFlag → Field
  | .accSat => Fld.BAY_TRAP_EN_ACC_SAT b.toNat
  | .laneRange => Fld.BAY_TRAP_EN_LANE_RANGE b.toNat
  | .emptyRow => Fld.BAY_TRAP_EN_EMPTY_ROW b.toNat
  | .nanRow => Fld.BAY_TRAP_EN_NAN_ROW b.toNat

/-- The trap of a flag is enabled. -/
def State.trapOn (s : State) (b : BayId) (f : TrapFlag) : Bool := s.getF (f.enable b) == 1

/-- `n` events of a flag: the flag is set and its counter gains `n` (R14, R65). -/
def State.flagEvents (s : State) (b : BayId) (f : TrapFlag) (n : Nat) : State :=
  if n = 0 then s else (s.setF (f.field b) 1).incF (f.counter b) n

end Sys2Proof.Machine
end

