-- ==== Sys2Proof/Machine/Lanes.lean ====
section
/-! DEFINITION. The lanes of a port (R319, R324, R325, R329, R330, R340, R352): numbering, state, rungs, the stripe, removal, and a
port's lanes while it carries no traffic. -/

namespace Sys2Proof.Machine

/-- `s` with light control changed. -/
def State.updOpt (s : State) (f : Optics → Optics) : State := { s with opt := f s.opt }

/-- Lane number in its engine. -/
def laneNo (p w : Nat) : Nat := 16 * (p % 2) + w

/-- Port and wavelength of lane `i` of engine `e`. -/
def portOf (e i : Nat) : Nat := 2 * e + i / 16
def waveOf (i : Nat) : Nat := i % 16

/-- Key of a lane in the device. -/
def laneKey (p w : Nat) : Nat := 16 * p + w

/-- STATE of a lane. -/
def State.laneState (s : State) (p w : Nat) : Nat := s.getF (Fld.OPT_LANE_STATE p w)

/-- `s` with STATE of a lane, and the count of removed lanes of its engine. -/
def State.setLane (s : State) (p w st : Nat) : State :=
  let s := s.setF (Fld.OPT_LANE_STATE p w) st
  s.setF (Fld.OPT_ENG_STATUS_LANES_REMOVED (p / 2))
    ((List.range 32).filter fun i => s.laneState (portOf (p / 2) i) (waveOf i) == 5).length

/-- Receive and transmit rung of a lane. -/
def State.setRungs (s : State) (p w r t : Nat) : State := s.setFs [(Fld.OPT_LANE_RUNG p w, r), (Fld.OPT_LANE_TX_RUNG p w, t)]

/-- Since when a lane's SNR has allowed a step up. -/
def State.setRise (s : State) (p w : Nat) (x : Option Nat) : State :=
  s.updOpt fun o => { o with rise := smapSet (fun _ => none) o.rise (laneKey p w) x }

/-- The laser of lane `i` of engine `e`: its own or the patch in its place. -/
def State.laserOf (s : State) (e i : Nat) : Nat :=
  if s.getF (Fld.OPT_LANE_PATCHED (portOf e i) (waveOf i)) = 1 then 33 + s.getF (Fld.OPT_LANE_PATCH (portOf e i) (waveOf i)) else i

/-- A laser switched off. -/
def State.laserOff (s : State) (e l : Nat) : State := s.setFs [(Fld.OPT_LASER_STATE e l, 0), (Fld.OPT_LASER_CHAN e l, 0x1F)]

/-- A lane removed, for good or until the port's next link-up (R329, R336, R340). -/
def State.removeLane (s : State) (p w : Nat) (keep : Bool) : State :=
  let s := (s.setRungs p w 0 0).setLane p w 5
  let s := s.updOpt fun o => { o with leaving := o.leaving.filter fun x => x.1 != laneKey p w }
  if keep ∧ !s.store.gone.contains (laneKey p w) then
    { s with store := { s.store with gone := s.store.gone ++ [laneKey p w] } }
  else s

/-- A lane that was drained to be removed is; for good, its fading laser is switched off too (R340). -/
def State.leaveLane (s : State) (p w : Nat) : State :=
  match s.opt.leaving.find? fun x => x.1 == laneKey p w with
  | none => s
  | some x => (if x.2 then s.laserOff (p / 2) (s.laserOf (p / 2) (laneNo p w)) else s).removeLane p w x.2

/-! ### The stripe (R324, R325) -/

/-- Bits per symbol of a lane towards the far end: its transmit rung's, where it is in service. -/
def State.laneWeight (s : State) (p w : Nat) : Nat :=
  let t := s.getF (Fld.OPT_LANE_TX_RUNG p w)
  let r := if t = 0 then s.getF (Fld.OPT_LANE_RUNG p w) else t
  if s.laneState p w = 2 ∧ r ≠ 0 then r + 1 else 0

/-- One stripe cycle of a port: the wavelengths in the order in which codewords are dealt to them (R324). -/
def State.stripe (s : State) (p : Nat) : List Nat := (List.range 16).flatMap fun w => List.replicate (s.laneWeight p w) w

/-- Cells of one round trip at the port's payload rate, as its lanes carry it now (R290, R325). -/
def State.roundTrip (s : State) (p rtt : Nat) : Nat := rtt * (s.stripe p).length * 549406 / (100000 * 64)

/-! ### Ports without traffic (R330, R333, R342) -/

/-- A lane waits for light and trains anew. -/
def State.restLane (s : State) (p w : Nat) : State := ((s.setRungs p w 0 0).setRise p w none).setLane p w 1

/-- The lanes of a port that stops carrying traffic: drains that were under way are skipped, and what is not removed or off trains anew
when light comes (R330, R340, R342). -/
def State.stopLanes (s : State) (p : Nat) : State :=
  let s := s.updOpt fun o => { o with due := o.due.filter fun x => x.1 / 16 != p, agreed := o.agreed.filter fun x => x.1 / 16 != p }
  (List.range 16).foldl (fun s w =>
    let s := s.leaveLane p w
    if s.laneState p w = 0 ∨ s.laneState p w = 5 then s else s.restLane p w) s

/-- The lanes of a port before its next link-up (R329, R330): those that the ladder removed train again too. -/
def State.freshLanes (s : State) (p : Nat) : State :=
  (List.range 16).foldl (fun s w =>
    if s.laneState p w = 0 ∨ s.store.gone.contains (laneKey p w) then s else s.restLane p w) s

end Sys2Proof.Machine
end

