-- ==== Sys2Proof/Machine/RegAcc.lean ====
section
/-! DEFINITION. A register write by the access codes of its fields (R13), and the pieces that guards are made of (R563, R564). -/

namespace Sys2Proof.Machine

/-- Bits of a register with an access code. -/
def RegId.bits (r : RegId) (a : Access) : Word := r.mask (· == a)

/-- A register after a write of `v` (R13): RW bits take the value, ones clear W1C bits and set RW1S bits. -/
def RegId.written (r : RegId) (old v : Word) : Word :=
  let rw := r.bits .rw
  ((((old &&& ~~~ rw) ||| (v &&& rw)) &&& ~~~ (v &&& r.bits .w1c)) ||| (v &&& r.bits .rw1s))

/-- `s` after a plain write of register `i`, `j` of a kind. -/
def State.plainWrite (s : State) (r : RegId) (i j : Nat) (v : Word) : State :=
  s.setReg (r.addr i j) (r.written (s.reg (r.addr i j)) v)

/-- Every field of the register is RO (R563). -/
def RegId.readOnly (r : RegId) : Bool := r.mask (fun a => a != .ro) == 0

/-- The write would change a bit of `m` that it may write: what a refusing rule protects (R564); a 1 to a WO field always
counts. -/
def RegId.changes (r : RegId) (old v m : Word) : Bool :=
  (r.written old v &&& m) != (old &&& m) || (v &&& r.bits .wo &&& m) != 0

/-- The write would change anything at all. -/
def State.regChanges (s : State) (r : RegId) (i j : Nat) (v : Word) : Bool :=
  r.changes (s.reg (r.addr i j)) v (BitVec.allOnes 64)

/-- A write refused in a state unless it changes nothing (R563, R564). -/
def State.guarded (s : State) (r : RegId) (i j : Nat) (v : Word) (ok : Bool) (code : Code) (act : State → State × Code) :
    State × Code :=
  if ok || !s.regChanges r i j v then act s else (s, code)

/-- Value of a field in a word. -/
def Field.of (f : Field) (w : Word) : Nat := fieldOf w f.lo f.width

/-- A word with its field set to that of another. -/
def Field.keep (f : Field) (v old : Word) : Word := putField v f.lo f.width (f.of old)

/-- Fields whose written values have no effect keep theirs, and the write completes with RANGE (R563): each field with whether
its written value is legal. -/
def limitFields (old v : Word) (l : List (Field × Bool)) : Word × Code :=
  (l.foldl (fun v p => if p.2 then v else p.1.keep v old) v, if l.all Prod.snd then cDONE else cRANGE)

/-- A write whose only rules are limits on values. -/
def State.limitedWrite (s : State) (r : RegId) (i j : Nat) (v : Word) (l : List (Field × Bool)) : State × Code :=
  let x := limitFields (s.reg (r.addr i j)) v l
  (s.plainWrite r i j x.1, x.2)

end Sys2Proof.Machine
end

