-- ==== Sys2Proof/Machine/Sha3.lean ====
section
/-! DEFINITION. SHA3-512 of FIPS 202, as the measurements, the digests and the signed records name it (R386, R476, R483). -/

namespace Sys2Proof.Machine

/-- The lane of column `x` and row `y` of FIPS 202's 5 x 5 state, which is kept as 25 numbers below 2^64, rows one after another. -/
def laneAt (a : List Nat) (x y : Nat) : Nat := a.getD (5 * (y % 5) + x % 5) 0

/-- A state given lane by lane. -/
def lanes (f : Nat → Nat → Nat) : List Nat := (List.range 25).map fun i => f (i % 5) (i / 5)

/-- A 64-bit lane turned left by `n` bits. -/
def turnLane (v n : Nat) : Nat := v * 2 ^ (n % 64) % 2 ^ 64 + v / 2 ^ (64 - n % 64)

/-- By how far rho turns each lane (FIPS 202, 3.2.2): the walk starts at column 1 of row 0, goes from (x, y) to (y, 2x + 3y), and
its step `t` turns the lane it stands on by (t + 1)(t + 2) / 2. Of `n` steps from (x, y) with number `t`, the turn of lane
(`i`, `j`); a lane the walk never meets is not turned. -/
def rhoTurn (i j : Nat) : Nat → Nat → Nat → Nat → Nat
  | 0, _, _, _ => 0
  | n + 1, t, x, y => if i = x ∧ j = y then (t + 1) * (t + 2) / 2 else rhoTurn i j n (t + 1) y ((2 * x + 3 * y) % 5)

/-- The turns of all lanes, in the order of the state. -/
def rhoTurns : List Nat := lanes fun x y => rhoTurn x y 24 0 1 0

/-- Theta: each lane takes the parity of the column before it and of the column after it turned by one. -/
def thetaStep (a : List Nat) : List Nat :=
  let parity := (List.range 5).map fun x => (List.range 5).foldl (fun p y => p ^^^ laneAt a x y) 0
  lanes fun x y => laneAt a x y ^^^ laneAt parity (x + 4) 0 ^^^ turnLane (laneAt parity (x + 1) 0) 1

/-- Rho and pi: lane (x, y) is what lane (x + 3y, x) was, turned. -/
def rhoPiStep (a : List Nat) : List Nat :=
  lanes fun x y => turnLane (laneAt a (x + 3 * y) x) (laneAt rhoTurns (x + 3 * y) x)

/-- Chi: each lane takes the one after it inverted and the one after that. -/
def chiStep (a : List Nat) : List Nat :=
  lanes fun x y => laneAt a x y ^^^ ((2 ^ 64 - 1 - laneAt a (x + 1) y) &&& laneAt a (x + 2) y)

/-- The shift register behind the round constants (FIPS 202, 3.2.5): its next value. -/
def rcShift (r : Nat) : Nat := if 128 ≤ r then (2 * r - 256) ^^^ 0x71 else 2 * r

/-- The next `n` bits it gives from the value `r`, lowest bit first. -/
def rcBits : Nat → Nat → List Nat
  | 0, _ => []
  | n + 1, r => r % 2 :: rcBits n (rcShift r)

/-- The constants of `n` rounds out of that bit stream: seven bits each, the k-th at place 2^k - 1. -/
def rcWords : Nat → List Nat → List Nat
  | 0, _ => []
  | n + 1, bits =>
    ((List.range 7).foldl (fun v k => v + bits.getD k 0 * 2 ^ (2 ^ k - 1)) 0) :: rcWords n (bits.drop 7)

/-- The constants of the 24 rounds. -/
def keccakConstants : List Nat := rcWords 24 (rcBits 168 1)

/-- One round: theta, rho, pi, chi, and iota on lane (0, 0). -/
def keccakRound (a : List Nat) (c : Nat) : List Nat :=
  let z := chiStep (rhoPiStep (thetaStep a))
  lanes fun x y => if x + y = 0 then laneAt z 0 0 ^^^ c else laneAt z x y

/-- The permutation. -/
def keccak (a : List Nat) : List Nat := keccakConstants.foldl keccakRound a

/-- The state after blocks of 72 bytes are absorbed. -/
def absorb : Nat → List Nat → List Byte → List Nat
  | 0, a, _ => a
  | n + 1, a, bs =>
    absorb n (keccak ((List.range 25).map fun i =>
      if i < 9 then a.getD i 0 ^^^ leNat ((bs.drop (8 * i)).take 8) else a.getD i 0)) (bs.drop 72)

/-- A message with its suffix and padding to whole blocks. -/
def shaPad (bs : List Byte) : List Byte :=
  let k := 72 - bs.length % 72
  bs ++ (if k = 1 then [0x86] else 0x06 :: (List.replicate (k - 2) (0 : Byte) ++ [0x80]))

/-- SHA3-512 of a byte list: 64 bytes. -/
def sha3 (bs : List Byte) : List Byte :=
  ((absorb (bs.length / 72 + 1) (List.replicate 25 0) (shaPad bs)).take 8).flatMap (leBytes 8)

end Sys2Proof.Machine
end

