-- ==== Sys2Proof/Machine/Crc.lean ====
section
/-! DEFINITION. The check codes CRC-32C (R220, R286, R532) and CRC-64/ECMA-182 (R214). -/

namespace Sys2Proof.Machine

/-- `k` bits of the reflected CRC-32C register. -/
def crc32Bits : Nat → Nat → Nat
  | 0, c => c
  | k + 1, c => crc32Bits k ((c >>> 1) ^^^ ((c &&& 1) * 0x82F63B78))

/-- CRC-32C of bytes from a running register. -/
def crc32From : Nat → List Byte → Nat
  | c, [] => c
  | c, b :: bs => crc32From (crc32Bits 8 (c ^^^ b.toNat)) bs

/-- CRC-32C of a byte list. -/
def crc32c (bs : List Byte) : BitVec 32 := BitVec.ofNat 32 (crc32From 0xFFFFFFFF bs ^^^ 0xFFFFFFFF)

/-- `k` bits of the CRC-64/ECMA-182 register. -/
def crc64Bits : Nat → Nat → Nat
  | 0, c => c
  | k + 1, c => crc64Bits k (((c <<< 1) &&& 0xFFFFFFFFFFFFFFFF) ^^^ ((c >>> 63) * 0x42F0E1EBA9EA3693))

/-- CRC-64/ECMA-182 of bytes from a running register. -/
def crc64From : Nat → List Byte → Nat
  | c, [] => c
  | c, b :: bs => crc64From (crc64Bits 8 (c ^^^ (b.toNat <<< 56))) bs

/-- CRC-64/ECMA-182 of a byte list: initial value 0, no reflection, no final XOR (R214). -/
def crc64 (bs : List Byte) : Word := BitVec.ofNat 64 (crc64From 0 bs)

end Sys2Proof.Machine
end

