-- ==== Sys2Proof/Machine/Access.lean ====
section
/-! DEFINITION. Access tables (R485 to R494): targets, master classes, permissions, and the check with its denial log. -/

namespace Sys2Proof.Machine

/-- Master classes (R486). -/
inductive Master where
  | msc
  | host
  | group (g : Nat)
  | plumb
  | hdma
  | peer (k : Nat)
  | none
  deriving DecidableEq, Repr

/-- CLASS code of the denial log (R494). -/
def Master.code : Master → Nat
  | .host => 0
  | .msc => 1
  | .hdma => 2
  | .plumb => 3
  | .peer k => 4 + k
  | .group g => 12 + g
  | .none => 28

/-- The bit of word A that names the class (R491); class None is named by no bit. -/
def Master.bit : Master → Option Nat
  | .host => some 0
  | .msc => some 1
  | .hdma => some 2
  | .plumb => some 3
  | .peer k => some (4 + k)
  | .group g => some (12 + g)
  | .none => Option.none

/-- The permissions an access needs (R487). -/
structure Perms where
  r : Bool
  w : Bool
  x : Bool
  a : Bool
  deriving DecidableEq, Repr

/-- A read. -/
def permR : Perms := ⟨true, false, false, false⟩

/-- A write. -/
def permW : Perms := ⟨false, true, false, false⟩

/-- A trigger write of a register. -/
def permX : Perms := ⟨false, false, true, false⟩

/-- An atomic. -/
def permA : Perms := ⟨false, false, false, true⟩

/-- Target and page of a device address (R485). -/
def targetOf (a : Nat) : Option (Nat × Nat) :=
  match regionOf a with
  | .hbm => some (a / 2 ^ 36, a % 2 ^ 36 / 4096)
  | .lls => some (16 + (a - llsBase) / 0x800000, (a - llsBase) % 0x800000 / 4096)
  | .bay => some (80 + (a - bayMemBase) / 0x100000, (a - bayMemBase) % 0x100000 / 4096)
  | .regs =>
    if (a - regBase) / 0x1000000 < 12 then some (1104 + (a - regBase) / 0x1000000, (a - regBase) % 0x1000000 / 4096)
    else none
  | .none => none

/-- The last page of a target (R485). -/
def lastPage (t : Nat) : Nat :=
  if t < 16 then 2 ^ 24 - 1 else if t < 80 then 2047 else if t < 1104 then 255 else 4095

/-- The enabled entries of table `t`: word A and word B. Reset leaves EN clear (R491), so only written words can be enabled. -/
def State.accEntries (s : State) (t : Nat) : List (Word × Word) :=
  let base := RegId.MSC_ACC_A.addr t 0
  (((s.regs.map Prod.fst).filter fun a => decide (base ≤ a) && decide (a < base + 0x400) && decide ((a - base) % 16 = 0)).map
    fun a => (s.reg a, s.reg (a + 8))).filter fun e => e.1.getLsbD 63

/-- The entry covers the page (R491). -/
def entryCovers (t page : Nat) (e : Word × Word) : Bool :=
  decide (fieldOf e.2 0 24 ≤ page) && decide (page ≤ min (fieldOf e.2 32 24) (lastPage t))
    && decide (fieldOf e.2 0 24 ≤ fieldOf e.2 32 24)

/-- The entry names the class (R491). -/
def entryNames (m : Master) (e : Word × Word) : Bool :=
  match m.bit with
  | some i => e.1.getLsbD i
  | none => false

/-- The permissions denied to class `m` on a page of table `t` (R488). -/
def State.deniedOn (s : State) (m : Master) (t page : Nat) (p : Perms) : Perms :=
  let es := (s.accEntries t).filter fun e => entryCovers t page e && entryNames m e
  let free := m == .host || m == .msc
  let no := fun (need : Bool) (bit : Nat) =>
    need && (if es.isEmpty then !free else !(es.any fun e => e.1.getLsbD bit))
  ⟨no p.r 62, no p.w 61, no p.x 60, no p.a 59⟩

/-- No permission. -/
def Perms.isNone (p : Perms) : Bool := !p.r && !p.w && !p.x && !p.a

/-- PERM field of the denial log (R494). -/
def Perms.code (p : Perms) : Nat :=
  (if p.r then 8 else 0) + (if p.w then 4 else 0) + (if p.x then 2 else 0) + (if p.a then 1 else 0)

/-- A denial: counted, and recorded while no denial is held (R488, R494). -/
def State.logDeny (s : State) (m : Master) (dev : DevCoord) (t page : Nat) (p : Perms) : State :=
  let s := s.incF Fld.MSC_ACC_DENY_CNT_COUNT
  if s.getF Fld.MSC_ACC_DENY_VALID = 1 then s
  else
    s.setFs [(Fld.MSC_ACC_DENY_VALID, 1), (Fld.MSC_ACC_DENY_CLASS, m.code), (Fld.MSC_ACC_DENY_PERM, p.code),
      (Fld.MSC_ACC_DENY_TARGET, t), (Fld.MSC_ACC_DENY_PAGE, page), (Fld.MSC_ACC_DENY_SRC_DEV, dev.toNat)]

/-- The pages of `n` 4 KiB pages from page number `q` (device address / 4,096) checked in order; the first denied decides. -/
def checkPages (s : State) (m : Master) (dev : DevCoord) (p : Perms) : Nat → Nat → State × Bool
  | 0, _ => (s, true)
  | n + 1, q =>
    match targetOf (q * 4096) with
    | none => checkPages s m dev p n (q + 1)
    | some (t, page) =>
      let d := s.deniedOn m t page p
      if d.isNone then checkPages s m dev p n (q + 1) else (s.logDeny m dev t page d, false)

/-- An access of `n` bytes at device address `a` checked against the tables (R488): the state with a denial logged, and whether
it is allowed. -/
def State.checkAccess (s : State) (m : Master) (dev : DevCoord) (p : Perms) (a n : Nat) : State × Bool :=
  if n = 0 then (s, true) else checkPages s m dev p ((a + n - 1) / 4096 + 1 - a / 4096) (a / 4096)

/-- The group of a bay (R494). -/
def State.bayGroup (s : State) (b : BayId) : Nat :=
  s.getF (Fld.MSC_BAY_GROUP_GROUP (b.toNat / 16)) / 16 ^ (b.toNat % 16) % 16

/-- The class of a fabric request from an endpoint of another device (R486): the first row that fits. -/
def State.fabricMaster (s : State) (dev : DevCoord) (endpoint : Nat) : Master :=
  if s.getF Fld.LDG_PLUMB_EN = 1 ∧ s.getF Fld.LDG_PLUMB_PARTNER = dev.toNat then .plumb
  else if 1024 ≤ endpoint then .hdma
  else
    match (List.range 8).find? fun k =>
      s.getF (Fld.MSC_PEER_RANGE_EN k) == 1 && decide (s.getF (Fld.MSC_PEER_RANGE_LO k) ≤ dev.toNat)
        && decide (dev.toNat ≤ s.getF (Fld.MSC_PEER_RANGE_HI k)) with
    | some k => .peer k
    | none => .none

/-! ### The reserve (R410, R411) -/

/-- First address of the reserve, and one past the last of its local slot and of its peer slot. -/
def State.reserve (s : State) : Nat × Nat × Nat :=
  let base := s.getF Fld.LDG_RES_BASE * 2 ^ 30
  let mid := base + s.getF Fld.LDG_RES_LOCAL_GIB * 2 ^ 30
  (base, mid, mid + s.getF Fld.LDG_RES_PEER_GIB * 2 ^ 30)

/-- A range touches the reserve; one of no size is touched by none. -/
def State.inReserve (s : State) (a n : Nat) : Bool :=
  let r := s.reserve
  decide (0 < n) && decide (r.1 < r.2.2) && decide (a < r.2.2) && decide (r.1 < a + n)

/-- A range lies in the peer slot. -/
def State.inPeerSlot (s : State) (a n : Nat) : Bool :=
  let r := s.reserve
  decide (r.2.1 ≤ a) && decide (a + n ≤ r.2.2)

/-- The endpoints of the header engines that form packets on their own account: host and header DMA, and the Ledger. -/
def dmaEp : Nat := 1024
def ledgerEp : Nat := 1025

/-- An access to memory decided: the reserve refuses every write but its own (R411), then the tables decide (R488). -/
def State.access (s : State) (m : Master) (dev : DevCoord) (p : Perms) (a n : Nat) : State × Bool :=
  if (p.w || p.a) && s.inReserve a n then (s, false) else s.checkAccess m dev p a n

/-- An access that a fabric packet from endpoint `ep` of device `dev` makes (R411, R486): in the reserve a Ledger of the device
in PEER_SRC stores into the peer slot, and a Ledger reads; nothing else is served there. -/
def State.fabricAccess (s : State) (dev : DevCoord) (ep : Nat) (p : Perms) (a n : Nat) : State × Bool :=
  if s.inReserve a n then
    (s, decide (ep = ledgerEp) && !p.a
      && (if p.w then s.inPeerSlot a n && s.getF Fld.LDG_RES_PEER_SRC == dev.toNat else true))
  else s.checkAccess (s.fabricMaster dev ep) dev p a n

end Sys2Proof.Machine
end

