-- ==== Sys2Proof/Machine/DevMem.lean ====
section
/-! DEFINITION. The data path to HBM, the LLS and bay memory: interleave (R243 to R245), slice table (R261), check code (R249 to
R251), LLS cache and scratchpad (R264 to R267, R270), and reads, writes and atomics of device addresses. -/

namespace Sys2Proof.Machine

/-! ### Check code (R249) -/

/-- A byte times α in GF(2⁸) with polynomial x⁸ + x⁴ + x³ + x² + 1. -/
def gfStep (a : Byte) : Byte := if a.getLsbD 7 then (a <<< 1) ^^^ 0x1D else a <<< 1

/-- A byte times αⁿ. -/
def gfAlpha (a : Byte) : Nat → Byte
  | 0 => a
  | n + 1 => gfStep (gfAlpha a n)

/-- Bits flipped in symbol `j`. -/
def errAt (e : SymErrs) (j : Nat) : Byte := e.foldl (fun x p => if p.1.val = j then x ^^^ p.2 else x) 0

/-- Syndrome `i` of an error pattern: symbol `j` is the coefficient of xʲ. -/
def syndrome (e : SymErrs) (i : Nat) : Byte := (List.range 36).foldl (fun x j => x ^^^ gfAlpha (errAt e j) (i * j)) 0

/-- The decoder on an error pattern: `none` where it detects an uncorrectable error; otherwise the symbol it corrects and the
value it takes away, if any. -/
def rsDecode (e : SymErrs) : Option (Option (Nat × Byte)) :=
  let s0 := syndrome e 0
  let s1 := syndrome e 1
  let s2 := syndrome e 2
  let s3 := syndrome e 3
  if s0 = 0 ∧ s1 = 0 ∧ s2 = 0 ∧ s3 = 0 then some none
  else
    match (List.range 36).find? fun j =>
      s0 != 0 && gfAlpha s0 j == s1 && gfAlpha s0 (2 * j) == s2 && gfAlpha s0 (3 * j) == s3 with
    | some j => some (some (j, s0))
    | none => none

/-- The flips left in byte `k` of a unit after the decoder took `c` away: data pin `j` carries bit `j` of the 32 bits of each
beat, and beat `t` carries bytes 4t to 4t + 3. -/
def residualByte (e : SymErrs) (c : Option (Nat × Byte)) (k : Nat) : Byte :=
  (List.range 8).foldl (fun x i =>
    let j := k % 4 * 8 + i
    let left := errAt e j ^^^ (match c with
      | some (q, v) => if q = j then v else 0
      | none => 0)
    if left.getLsbD (k / 4) then x ||| ((1 : Byte) <<< i) else x) 0

/-! ### Interleave and slices -/

/-- Band of an HBM address (R243). -/
def bandOf (a : Nat) : Nat := a / 2 ^ 32 % 256

/-- Virtual pseudo-channel and local granule number of an address in a band of the given mode (R244). -/
def interleave (sillLocal : Bool) (a : Nat) : Nat × Nat :=
  let o := a % 2 ^ 32
  if sillLocal then
    let q := o / 2 ^ 30
    let h := o / 256 % 2 ^ 22
    let l := (h % 64) ^^^ (h / 64 % 64) ^^^ (h / 4096 % 64) ^^^ (h / 2 ^ 18 % 16)
    (l / 32 * 128 + l / 2 % 16 * 8 + (2 * q + l % 2), h / 64)
  else
    let g := o / 256
    ((g % 256) ^^^ (g / 256 % 256) ^^^ (g / 65536 % 256), g / 256)

/-- The address in its slice that holds local granule `local_` of virtual pseudo-channel `p` (R244 inverted): offset in the
band of the granule. -/
def deinterleave (sillLocal : Bool) (p local_ : Nat) : Nat :=
  if sillLocal then
    let l := p / 128 * 32 + p / 8 % 16 * 2 + p % 2
    let h0 := l ^^^ (local_ % 64) ^^^ (local_ / 64 % 64) ^^^ (local_ / 4096 % 16)
    p / 2 % 4 * 2 ^ 30 + (local_ * 64 + h0) * 256
  else
    ((p ^^^ (local_ % 256) ^^^ (local_ / 256 % 256)) + local_ * 256) * 256

/-- `HBM_BAND.MODE` of a band. -/
def State.sillLocal (s : State) (b : Nat) : Bool := s.getF (Fld.HBM_BAND_MODE b) == 1

/-- The band is live (R258, R259). -/
def State.bandLive (s : State) (b : Nat) : Bool := decide (b < s.getF Fld.HBM_CAP_LIVE_BANDS)

/-- Home of a slice in the slice table, and its own pseudo-channel where the table has no entry (R261). -/
def Hbm.sliceHome (h : Hbm) (band vpc : Nat) : Nat × Nat :=
  match h.slices.find? fun e => e.band == band && e.vpc == vpc with
  | some e => (e.pc, e.pos)
  | none => (vpc, band)

/-- Index of a slice in the list of moves of the fold in progress. -/
def FoldJob.indexOf (j : FoldJob) (band vpc : Nat) : Option Nat := j.moves.findIdx? fun e => e.band == band && e.vpc == vpc

/-- Physical pseudo-channel, slice position and local granule that serve an HBM address (R244, R261, R262). -/
def State.placeOf (s : State) (a : Nat) : Nat × Nat × Nat :=
  let band := bandOf a
  let vl := interleave (s.sillLocal band) a
  let home := s.hbm.sliceHome band vl.1
  match s.hbm.fold with
  | some j =>
    match j.indexOf band vl.1 with
    | some i =>
      if i * 256 + vl.2 / 256 < j.copied then
        match j.moves[i]? with
        | some e => (e.pc, e.pos, vl.2)
        | none => (home.1, home.2, vl.2)
      else (home.1, home.2, vl.2)
    | none => (home.1, home.2, vl.2)
  | none => (home.1, home.2, vl.2)

/-- Sill of a pseudo-channel (R245). -/
def sillOfPc (pc : Nat) : Nat := pc % 8 / 2

/-- How a pseudo-channel is trained. -/
def State.trainOf (s : State) (pc : Nat) : PcTrain := smapGet (fun _ => PcTrain.full) s.hbm.train pc

/-! ### HBM units -/

/-- An uncorrectable unit found: logged while the log is free and counted (R251), and a Bits event unless the scrub found it
(R252). -/
def State.ueLog (s : State) (src pc addr : Nat) : State :=
  let s := s.incF Fld.HBM_ECC_UNCORR_CNT
  let s := if s.getF Fld.HBM_UE_LOG_VALID = 1 then s
    else s.setFs [(Fld.HBM_UE_LOG_VALID, 1), (Fld.HBM_UE_LOG_SRC, src), (Fld.HBM_UE_LOG_PC, pc), (Fld.HBM_UE_LOG_ADDR, addr)]
  if src = 5 then s else s.bitsEvent cMEM_UNCORRECTABLE

/-- A corrected unit: counted for the device and its stack, an event that breaks tick-repeat, and queued for its write-back
(R250, R383). -/
def State.corrected (s : State) (pc u : Nat) (bs : List Byte) : State :=
  let s := ((s.incF Fld.HBM_ECC_CORR_CNT).incF (Fld.HBM_STACK_CORR_CNT (pc % 8))).tickEvent
  { s with hbm := { s.hbm with
    writeback := (u, bs) :: s.hbm.writeback.filter fun e => e.1 != u
    fixed := (pc, s.now) :: s.hbm.fixed.filter fun e => decide (s.now < e.2 + 1000000000) } }

/-- PENDING: a failed pseudo-channel awaits a fold that no event starts at once (R257, R274). -/
def State.foldPending (s : State) : State :=
  s.setF Fld.HBM_FOLD_CTRL_PENDING
    (if !s.hbm.waiting.isEmpty && (s.getF Fld.HBM_FOLD_CTRL_AUTO == 0 || s.hbm.fold.isSome) then 1 else 0)

/-- A failed pseudo-channel awaits its fold (R257, R274). -/
def State.failPc (s : State) (pc : Nat) : State :=
  let w := pc / 64
  let old := s.getF (Fld.HBM_PC_FAILED_FAILED w)
  if old.testBit (pc % 64) then s
  else
    let s := s.setF (Fld.HBM_PC_FAILED_FAILED w) (old ||| 2 ^ (pc % 64))
    State.foldPending { s with hbm := { s.hbm with waiting := s.hbm.waiting ++ [pc] } }

/-- An uncorrectable error on a pseudo-channel: more than 16 within 1 s fail it (R257). -/
def State.pcError (s : State) (pc : Nat) : State :=
  let l := (pc, s.now) :: s.hbm.recent.filter fun e => decide (s.now < e.2 + 1000000000)
  let s := { s with hbm := { s.hbm with recent := l } }
  if 16 < (l.filter fun e => e.1 == pc).length then s.failPc pc else s

/-- Units of a band whose contents a change of mode left undefined take open values when first touched (R268). -/
def State.settleUnit (s : State) (u : Nat) : State :=
  match s.hbm.open_.find? fun e => e.1 == u / 2 ^ 27 with
  | none => s
  | some e =>
    if s.hbm.settled.contains u then s
    else
      let s := s.setMemBytes (u * 32) ((List.range 32).map fun i => Config.freeByte e.2 (u * 32 + i))
      { s with hbm := { s.hbm with settled := u :: s.hbm.settled } }

/-- A read of one 32 B unit (device address / 32) from its pins (R249 to R251, R256): its bytes, or `none` where it is
uncorrectable. -/
def State.unitRead (s : State) (src u : Nat) (errs : SymErrs) : State × Option (List Byte) :=
  let a := u * 32
  let pc := (s.placeOf a).1
  if s.trainOf pc = .dead ∨ s.hbmBad.contains u then ((s.ueLog src pc a).pcError pc, none)
  else if errs = [] then (s, some (s.memBytes a 32))
  else
    match rsDecode errs with
    | none => (({ s with hbmBad := u :: s.hbmBad }.ueLog src pc a).pcError pc, none)
    | some c =>
      let bs := (List.range 32).map fun k => s.memByte (a + k) ^^^ residualByte errs c k
      match c with
      | none => (s, some bs)
      | some _ => (s.corrected pc u bs, some bs)

/-- A write of a whole unit to its pins (R250, R251). -/
def State.unitStore (s : State) (u : Nat) (bs : List Byte) : State :=
  let s := s.setMemBytes (u * 32) bs
  { s with
    hbmBad := s.hbmBad.filter fun k => k != u
    hbm := { s.hbm with writeback := s.hbm.writeback.filter fun e => e.1 != u } }

/-- Bytes `bs` laid over `old` from index `i`. -/
def overlay (old : List Byte) (i : Nat) (bs : List Byte) : List Byte := old.take i ++ bs ++ old.drop (i + bs.length)

/-- A write of bytes of one unit from offset `i` in it: a part is a locked read and write (R246, R251). Answers the state and
whether it succeeded. -/
def State.unitWrite (s : State) (src u i : Nat) (bs : List Byte) (errs : SymErrs) : State × Bool :=
  if bs.length = 32 then
    let pc := (s.placeOf (u * 32)).1
    if s.trainOf pc = .dead then (s.ueLog src pc (u * 32), false) else (s.unitStore u bs, true)
  else
    let r := s.unitRead src u errs
    match r.2 with
    | none => (r.1, false)
    | some old => (r.1.unitStore u (overlay old i bs), true)

/-- Units that a range of an HBM granule touches. -/
def unitsOf (a n : Nat) : List Nat := (List.range ((a + n - 1) / 32 + 1 - a / 32)).map (· + a / 32)

/-- A read of a range from HBM: every unit is read; `none` where one is uncorrectable. `errs` lists the errors unit by unit. -/
def State.hbmRead (s : State) (src a n : Nat) (errs : List SymErrs) : State × Option (List Byte) :=
  let us := unitsOf a n
  let r := us.foldl (fun (acc : State × Option (List Byte)) u =>
    let x := acc.1.unitRead src u (errs.getD (u - a / 32) [])
    (x.1, match acc.2, x.2 with
      | some l, some bs => some (l ++ bs)
      | _, _ => none)) (s, some [])
  (r.1, r.2.map fun l => (l.drop (a % 32)).take n)

/-- A write of a range to HBM, unit by unit. -/
def State.hbmWrite (s : State) (src a : Nat) (bs : List Byte) (errs : List SymErrs) : State × Bool :=
  (unitsOf a bs.length).foldl (fun (acc : State × Bool) u =>
    let lo := max a (u * 32)
    let hi := min (a + bs.length) (u * 32 + 32)
    let x := acc.1.unitWrite src u (lo - u * 32) ((bs.drop (lo - a)).take (hi - lo)) (errs.getD (u - a / 32) [])
    (x.1, acc.2 && x.2)) (s, true)

/-! ### LLS cache (R266, R267, R270) -/

/-- Number of cache segments of a sill. -/
def State.cacheSegs (s : State) (sill : Nat) : Nat :=
  ((List.range 16).filter fun k => s.getF (Fld.LLS_SEG_MODE (sill * 16 + k)) == 0).length

/-- Sill, cache segment (by its place among the sill's cache segments) and set of the granule at an address (R266). -/
def State.lineHome (s : State) (a : Nat) : Nat × Nat × Nat :=
  let p := s.placeOf a
  let sill := sillOfPc p.1
  let n := s.cacheSegs sill
  let h := (p.2.1 * 65536 + p.2.2) * 64 + (p.1 / 8 * 2 + p.1 % 2)
  (sill, h % n, h / n % 2048)

/-- Requests for an address pass through a cache: its band has CACHE set and its home sill has a cache segment. -/
def State.cachedAt (s : State) (a : Nat) : Bool :=
  s.getF (Fld.HBM_BAND_CACHE (bandOf a)) == 1 && decide (0 < s.cacheSegs (sillOfPc (s.placeOf a).1))

/-- The line that holds a granule. -/
def Hbm.line (h : Hbm) (g : Nat) : Option LlsLine := h.lines.find? fun l => l.gran == g

/-- A line dropped, with its check marks. -/
def State.dropLine (s : State) (g : Nat) : State :=
  { s with
    ecc1 := s.ecc1.filter fun k => k / 32 != g
    ecc2 := s.ecc2.filter fun k => k / 32 != g
    hbm := { s.hbm with lines := s.hbm.lines.filter fun l => l.gran != g } }

/-- Corrected single-bit errors of the LLS words that satisfy `p` (R270). -/
def State.llsFix (s : State) (p : Nat → Bool) : State :=
  let k := (s.ecc1.filter p).length
  if k = 0 then s
  else (({ s with ecc1 := s.ecc1.filter fun w => !p w }).incF Fld.LLS_ECC_CORR_CNT k).tickEvent k

/-- A dirty line written back to its home as read: an error found is logged with SRC 4 and marks the step (R267, R270). -/
def State.writeBackLine (s : State) (g : Nat) : State :=
  let s := s.llsFix fun w => w / 32 == g
  let pc := (s.placeOf (g * 256)).1
  let s := match s.ecc2.find? fun w => w / 32 == g with
    | some w => (s.incF Fld.LLS_ECC_UNCORR_CNT (s.ecc2.filter fun w => w / 32 == g).length).ueLog 4 pc (w * 8 / 32 * 32)
    | none => s
  { s with
    ecc2 := s.ecc2.filter fun w => w / 32 != g
    hbmBad := s.hbmBad.filter fun u => u / 8 != g
    hbm := { s.hbm with
      writeback := s.hbm.writeback.filter fun e => e.1 / 8 != g
      lines := s.hbm.lines.map fun l => if l.gran = g then { l with dirty := false } else l } }

/-- A line leaves the cache: written back first where dirty. -/
def State.evict (s : State) (l : LlsLine) : State := ((if l.dirty then s.writeBackLine l.gran else s).dropLine l.gran)

/-- A line allocated for a granule, with the bytes of its fill where they differ from its cells; a full set
gives up one of its 16 lines, which one the spec leaves open (pseudo-LRU). -/
def State.allocate (s : State) (g : Nat) (dirty : Bool) (fill : List Byte := []) : State :=
  let h := s.lineHome (g * 256)
  let inSet := s.hbm.lines.filter fun l => l.sill == h.1 && l.slot == h.2.1 && l.set == h.2.2
  let s := if inSet.length < 16 then s
    else
      let d := s.draw
      match inSet[d.2 % inSet.length]? with
      | some l => d.1.evict l
      | none => d.1
  { s with hbm := { s.hbm with lines := ⟨h.1, h.2.1, h.2.2, g, dirty, fill⟩ :: s.hbm.lines } }

/-- Words of a range of device addresses hold a double-bit error of the LLS code. -/
def State.llsBad (s : State) (a n : Nat) : Bool := s.ecc2.any fun w => (wordsOf a n).contains w

/-- A hit on the line of granule `g` for the words of a range: `some true` served, `some false` fails, `none` the clean line was
dropped and HBM serves (R270). -/
def State.llsHit (s : State) (src a n : Nat) (dirty : Bool) : State × Option Bool :=
  let g := a / 256
  let s := s.llsFix fun w => (wordsOf a n).contains w
  if s.llsBad a n then
    let k := (s.ecc2.filter fun w => (wordsOf a n).contains w).length
    let s := s.incF Fld.LLS_ECC_UNCORR_CNT k
    let w := ((s.ecc2.filter fun w => (wordsOf a n).contains w).foldl min (a / 8 + n))
    if dirty then (s.ueLog src (s.placeOf a).1 (w * 8 / 32 * 32), some false)
    else (s.dropLine g, none)
  else (s, some true)

/-- The units of a range settled. -/
def State.settleRange (s : State) (a n : Nat) : State :=
  if s.hbm.open_ = [] then s else (unitsOf a n).foldl (fun s u => s.settleUnit u) s

/-- Bytes of a granule's line. -/
def State.lineBytes (s : State) (l : LlsLine) (a n : Nat) : List Byte :=
  if l.fill = [] then s.memBytes a n else (l.fill.drop (a % 256)).take n

/-- A line allocated with what a read of its whole granule brought. -/
def State.fillLine (s : State) (g : Nat) (bs : List Byte) : State :=
  s.allocate g false (if bs = s.memBytes (g * 256) 256 then [] else bs)

/-- A granule read again after its clean line was dropped (R270): every unit of it, the errors of the request's own units given. The
line comes back if every unit is readable; the bytes of the request are answered if its own are. -/
def State.refetch (s : State) (src a n : Nat) (errs : List SymErrs) : State × Option (List Byte) :=
  let g := a / 256
  let r := ((List.range 8).map (· + g * 8)).foldl (fun (acc : State × List (Option (List Byte))) u =>
    let x := acc.1.unitRead src u (if a / 32 ≤ u then errs.getD (u - a / 32) [] else [])
    (x.1, acc.2 ++ [x.2])) (s, [])
  let s := if r.2.all Option.isSome then r.1.fillLine g (r.2.flatMap fun x => x.getD []) else r.1
  let own := (unitsOf a n).map fun u => (r.2[u - g * 8]?).getD none
  (s, if own.all Option.isSome then some (((own.flatMap fun x => x.getD []).drop (a % 32)).take n) else none)

/-- A read of a piece inside one granule (R246, R267). -/
def State.granRead (s : State) (src a n : Nat) (errs : List SymErrs) : State × Option (List Byte) :=
  let s := s.settleRange a n
  let main := decide (n = 256)
  if s.cachedAt a then
    let sill := sillOfPc (s.placeOf a).1
    let miss := fun (s : State) =>
      let s := s.incF (Fld.LLS_STATS_MISSES sill)
      let r := s.hbmRead src a n errs
      match r.2 with
      | some bs => ((if main then r.1.fillLine (a / 256) bs else r.1), some bs)
      | none => (r.1, none)
    match s.hbm.line (a / 256) with
    | none => miss s
    | some l =>
      let r := (s.incF (Fld.LLS_STATS_HITS sill)).llsHit src a n l.dirty
      match r.2 with
      | some true => (r.1, some (r.1.lineBytes l a n))
      | some false => (r.1, none)
      | none => r.1.refetch src a n errs
  else s.hbmRead src a n errs

/-- Words of a range that a write covers only in part. -/
def partWords (a n : Nat) : List Nat := (wordsOf a n).filter fun w => !(decide (a ≤ w * 8) && decide (w * 8 + 8 ≤ a + n))

/-- A write of bytes into the line of their granule: whole words take a fresh code. What the line was filled with stands in it. -/
def State.lineWrite (s : State) (a : Nat) (bs : List Byte) : State :=
  let s := match s.hbm.line (a / 256) with
    | some l => s.setMemBytes (a / 256 * 256) l.fill
    | none => s
  let s := s.setMemBytes a bs
  let ws := wordsOf a bs.length
  { s with
    ecc1 := s.ecc1.filter fun w => !ws.contains w
    ecc2 := s.ecc2.filter fun w => !ws.contains w
    hbm := { s.hbm with lines := s.hbm.lines.map fun l => if l.gran = a / 256 then { l with dirty := true, fill := [] } else l } }

/-- A write of a piece inside one granule (R246, R267). A part of an LLS word is read first. -/
def State.granWrite (s : State) (src a : Nat) (bs : List Byte) (errs : List SymErrs) : State × Bool :=
  let s := s.settleRange a bs.length
  let main := decide (bs.length = 256)
  if s.cachedAt a then
    let sill := sillOfPc (s.placeOf a).1
    match s.hbm.line (a / 256) with
    | none =>
      let s := s.incF (Fld.LLS_STATS_MISSES sill)
      if main then
        let s := (s.allocate (a / 256) true).lineWrite a bs
        (s, true)
      else s.hbmWrite src a bs errs
    | some l =>
      let s := s.incF (Fld.LLS_STATS_HITS sill)
      if (partWords a bs.length).any fun w => s.ecc2.contains w then
        let r := s.llsHit src a bs.length l.dirty
        match r.2 with
        | none =>
          let q := r.1.refetch src a bs.length errs
          if (q.1.hbm.line (a / 256)).isSome then (q.1.lineWrite a bs, true) else q.1.hbmWrite src a bs []
        | _ => (r.1, false)
      else ((s.llsFix fun w => (partWords a bs.length).contains w).lineWrite a bs, true)
  else s.hbmWrite src a bs errs

/-- A word of a unit changed in HBM under one lock (R246): the old word, or `none` where the unit is uncorrectable. -/
def State.unitAmo (s : State) (src a : Nat) (f : Word → Word) (errs : SymErrs) : State × Option Word :=
  let r := s.unitRead src (a / 32) errs
  match r.2 with
  | none => (r.1, none)
  | some bs =>
    let old : Word := BitVec.ofNat 64 (leNat ((bs.drop (a % 32)).take 8))
    (r.1.unitStore (a / 32) (overlay bs (a % 32) (leBytes 8 (f old).toNat)), some old)

/-- An atomic on a word of HBM as one request (R246, R267): a hit updates the line, a miss is performed in HBM. -/
def State.granAmo (s : State) (src a : Nat) (f : Word → Word) (errs : SymErrs) : State × Option Word :=
  let s := s.settleRange a 8
  if s.cachedAt a then
    let sill := sillOfPc (s.placeOf a).1
    let put := fun (s : State) (bs : List Byte) =>
      let old : Word := BitVec.ofNat 64 (leNat bs)
      (s.lineWrite a (leBytes 8 (f old).toNat), some old)
    match s.hbm.line (a / 256) with
    | none => (s.incF (Fld.LLS_STATS_MISSES sill)).unitAmo src a f errs
    | some l =>
      let r := (s.incF (Fld.LLS_STATS_HITS sill)).llsHit src a 8 l.dirty
      match r.2 with
      | some true => put r.1 (r.1.lineBytes l a 8)
      | some false => (r.1, none)
      | none =>
        let q := r.1.refetch src a 8 [errs]
        match q.2 with
        | none => (q.1, none)
        | some bs => if (q.1.hbm.line (a / 256)).isSome then put q.1 bs else q.1.unitAmo src a f []
  else s.unitAmo src a f errs

/-! ### Device addresses -/

/-- The pieces of a range that whole granules cut (R246): address and length of each, in ascending order. -/
def granPieces : Nat → Nat → Nat → List (Nat × Nat)
  | 0, _, _ => []
  | _ + 1, _, 0 => []
  | k + 1, a, n =>
    let m := min n (256 - a % 256)
    (a, m) :: granPieces k (a + m) (n - m)

/-- The pieces of a range that the bay memories cut (R5): address and length of each, in ascending order. -/
def bayPieces : Nat → Nat → Nat → List (Nat × Nat)
  | 0, _, _ => []
  | _ + 1, _, 0 => []
  | k + 1, a, n =>
    let m := min n (0x100000 - a % 0x100000)
    (a, m) :: bayPieces k (a + m) (n - m)

/-- Bay and offset of an address of bay memory (R5). -/
def bayOf (a : Nat) : BayId × Nat := (BitVec.ofNat 10 ((a - bayMemBase) / 0x100000), a % 0x100000)

/-! ### Bay memory from outside its die (R23, R26, R57) -/

/-- Number of a link among all. -/
def linkKey : DieLink → Nat
  | .sill i => i
  | .hdr s => 4 + s
  | .bond d y => 8 + 16 * d + y

/-- The bond port of a bay: port y of its die serves row y (R23). -/
def bondOf (b : BayId) : DieLink := .bond (Fin.ofNat 4 (b.toNat / 256)) (Fin.ofNat 16 (b.toNat / 16 % 16))

/-- The bay has lost its path to the sill: its bond port is down (R26). -/
def State.cut (s : State) (b : BayId) : Bool := smapGet (fun _ => 0) s.flits (linkKey (bondOf b)) == 16

/-- A range of device addresses lies in bay memories of bay `b`'s own die, which the bay reaches by the mesh (R56, R57). -/
def sameDie (b : BayId) (a n : Nat) : Bool :=
  regionOf a == .bay && regionOf (a + n - 1) == .bay && decide ((a - bayMemBase) / 2 ^ 28 = b.toNat / 256)
    && decide ((a + n - 1 - bayMemBase) / 2 ^ 28 = b.toNat / 256)

/-- The map of R4 holds every byte of a range, HBM only in live bands and the LLS window only in scratchpad segments (R5, R6,
R259, R265). A range that runs from one range of R4 into the adjoining one is not held by any as a whole, so the access is RANGE
(DESIGN CHOICE, log entry 71: the spec does not say). -/
def State.mapped (s : State) (a n : Nat) : Bool :=
  let z := a + n - 1
  if n = 0 then true
  else
    match regionOf a with
    | .hbm => decide (regionOf z = .hbm) && s.bandLive (bandOf z) && s.bandLive (bandOf a)
    | .lls =>
      decide (regionOf z = .lls)
        && ((List.range ((z - llsBase) / 0x800000 + 1 - (a - llsBase) / 0x800000)).all fun k =>
          s.getF (Fld.LLS_SEG_MODE ((a - llsBase) / 0x800000 + k)) == 1)
    | .bay => decide (regionOf z = .bay)
    | .regs => decide (regionOf z = .regs)
    | .none => false

/-- A bay whose memory a range of bay memories touches has lost its path. -/
def State.cutRange (s : State) (a n : Nat) : Bool := (bayPieces (n / 0x100000 + 2) a n).any fun p => s.cut (bayOf p.1).1

/-- A read of a range of bay memories. -/
def State.bayRangeRead (s : State) (a n : Nat) : State × Code × List Byte :=
  let r := (bayPieces (n / 0x100000 + 2) a n).foldl (fun (acc : State × Bool) p =>
    let x := acc.1.eccRead (bayOf p.1).1 (bayOf p.1).2 p.2
    (x.1, acc.2 || x.2)) (s, false)
  if r.2 then (r.1.bitsEvent cMEM_UNCORRECTABLE, cMEM_UNCORRECTABLE, []) else (r.1, cDONE, r.1.memBytes a n)

/-- A write of a range of bay memories. -/
def State.bayRangeWrite (s : State) (a : Nat) (bs : List Byte) : State × Code :=
  let r := (bayPieces (bs.length / 0x100000 + 2) a bs.length).foldl (fun (acc : State × Bool) p =>
    let x := acc.1.bayWrite (bayOf p.1).1 (bayOf p.1).2 ((bs.drop (p.1 - a)).take p.2)
    (x.1, acc.2 || x.2)) (s, false)
  if r.2 then (r.1.bitsEvent cMEM_UNCORRECTABLE, cMEM_UNCORRECTABLE) else (r.1, cDONE)

/-- A read of `n` bytes of memory at a device address, not register space: the outcome code and the bytes. `src` is the SRC code
of R273; `errs` the errors of the HBM units read. The memory of a bay whose bond port is down is not reached: LINK_LOST (log entry 73). -/
def State.devRead (s : State) (src a n : Nat) (errs : List SymErrs := []) : State × Code × List Byte :=
  if !s.mapped a n then (s, cRANGE, [])
  else
    match regionOf a with
    | .hbm =>
      let r := (granPieces (n / 256 + 2) a n).foldl (fun (acc : State × Option (List Byte)) p =>
        let x := acc.1.granRead src p.1 p.2 (errs.drop (p.1 / 32 - a / 32))
        (x.1, match acc.2, x.2 with
          | some l, some bs => some (l ++ bs)
          | _, _ => none)) (s, some [])
      match r.2 with
      | some bs => (r.1, cDONE, bs)
      | none => (r.1, cMEM_UNCORRECTABLE, [])
    | .lls =>
      let s := s.llsFix fun w => (wordsOf a n).contains w
      match s.ecc2.find? fun w => (wordsOf a n).contains w with
      | some w =>
        let k := (s.ecc2.filter fun w => (wordsOf a n).contains w).length
        ((s.incF Fld.LLS_ECC_UNCORR_CNT k).ueLog src 0 (w * 8 / 32 * 32), cMEM_UNCORRECTABLE, [])
      | none => (s, cDONE, s.memBytes a n)
    | .bay =>
      if s.cutRange a n then (s, cLINK_LOST, []) else s.bayRangeRead a n
    | _ => (s, cRANGE, [])

/-- A write of bytes of memory at a device address, not register space: the outcome code. -/
def State.devWrite (s : State) (src a : Nat) (bs : List Byte) (errs : List SymErrs := []) : State × Code :=
  if !s.mapped a bs.length then (s, cRANGE)
  else
    match regionOf a with
    | .hbm =>
      let r := (granPieces (bs.length / 256 + 2) a bs.length).foldl (fun (acc : State × Bool) p =>
        let x := acc.1.granWrite src p.1 ((bs.drop (p.1 - a)).take p.2) (errs.drop (p.1 / 32 - a / 32))
        (x.1, acc.2 && x.2)) (s, true)
      (r.1, if r.2 then cDONE else cMEM_UNCORRECTABLE)
    | .lls =>
      let part := partWords a bs.length
      let s := s.llsFix fun w => part.contains w
      match s.ecc2.find? fun w => part.contains w with
      | some w =>
        ((s.incF Fld.LLS_ECC_UNCORR_CNT (s.ecc2.filter fun w => part.contains w).length).ueLog src 0 (w * 8 / 32 * 32),
          cMEM_UNCORRECTABLE)
      | none =>
        let ws := wordsOf a bs.length
        let s := s.setMemBytes a bs
        ({ s with
          ecc1 := s.ecc1.filter fun w => !ws.contains w
          ecc2 := s.ecc2.filter fun w => !ws.contains w }, cDONE)
    | .bay =>
      if s.cutRange a bs.length then (s, cLINK_LOST) else s.bayRangeWrite a bs
    | _ => (s, cRANGE)

/-- The atomics by AOP (R195): the new value from the old, the operand and the compare value. -/
def amoResult (aop : Nat) (old x cmp : Word) : Word :=
  match aop with
  | 0 => old + x
  | 1 => x
  | 2 => if old = cmp then x else old
  | 3 => old &&& x
  | 4 => old ||| x
  | 5 => if old.slt x then x else old
  | 6 => if x.slt old then x else old
  | 7 => if old.ult x then x else old
  | _ => if x.ult old then x else old

/-- The new value of an atomic stored after its old one was read: the code and the old value. -/
def amoStore (r : State × Code × List Byte) (f : Word → Word) (wr : State → List Byte → State × Code) : State × Code × Word :=
  if r.2.1 ≠ cDONE then (r.1, r.2.1, 0)
  else
    let old : Word := BitVec.ofNat 64 (leNat r.2.2)
    let w := wr r.1 (leBytes 8 (f old).toNat)
    (w.1, w.2, old)

/-- An atomic on an aligned word of bay memory. -/
def State.bayAmo (s : State) (a aop : Nat) (x cmp : Word) : State × Code × Word :=
  amoStore (s.bayRangeRead a 8) (fun old => amoResult aop old x cmp) fun s bs => s.bayRangeWrite a bs

/-- An atomic on the aligned 64-bit word at a device address (R59, R246): the code and the old value. -/
def State.devAmo (s : State) (src a : Nat) (aop : Nat) (x cmp : Word) (errs : List SymErrs := []) : State × Code × Word :=
  let f := fun (old : Word) => amoResult aop old x cmp
  if s.mapped a 8 && regionOf a == .hbm && decide (a % 8 = 0) then
    let r := s.granAmo src a f (errs.getD 0 [])
    match r.2 with
    | some old => (r.1, cDONE, old)
    | none => (r.1, cMEM_UNCORRECTABLE, 0)
  else amoStore (s.devRead src a 8 errs) f fun s bs => s.devWrite src a bs

end Sys2Proof.Machine
end

