-- ==== Sys2Proof/Machine/Float.lean ====
section
/-! DEFINITION. The element formats and their arithmetic (R82, R115 to R125, R151): exact dyadic values, rounding to nearest
with ties to even, and conversion into every format with and without block scales. -/

namespace Sys2Proof.Machine

/-- The eleven element formats (R82, R115). -/
inductive Fmt where
  | binary64
  | binary32
  | binary16
  | bfloat16
  | e4m3
  | e5m2
  | e3m2
  | e2m3
  | e2m1
  | int8
  | int4
  deriving DecidableEq, Repr

/-- The format of a code of R82; 0xB to 0xE are reserved and 0xF is W128, no element format. -/
def Fmt.ofCode (c : Nat) : Option Fmt :=
  match c with
  | 0 => some .binary64
  | 1 => some .binary32
  | 2 => some .binary16
  | 3 => some .bfloat16
  | 4 => some .e4m3
  | 5 => some .e5m2
  | 6 => some .e3m2
  | 7 => some .e2m3
  | 8 => some .e2m1
  | 9 => some .int8
  | 10 => some .int4
  | _ => none

/-- Bits of one element. -/
def Fmt.bits : Fmt → Nat
  | .binary64 => 64
  | .binary32 => 32
  | .binary16 => 16
  | .bfloat16 => 16
  | .e4m3 => 8
  | .e5m2 => 8
  | .e3m2 => 6
  | .e2m3 => 6
  | .e2m1 => 4
  | .int8 => 8
  | .int4 => 4

/-- Trailing significand bits (R115); zero for the integer formats. -/
def Fmt.mant : Fmt → Nat
  | .binary64 => 52
  | .binary32 => 23
  | .binary16 => 10
  | .bfloat16 => 7
  | .e4m3 => 3
  | .e5m2 => 2
  | .e3m2 => 2
  | .e2m3 => 3
  | .e2m1 => 1
  | .int8 => 0
  | .int4 => 0

/-- Exponent bias (R115). -/
def Fmt.bias : Fmt → Nat
  | .binary64 => 1023
  | .binary32 => 127
  | .binary16 => 15
  | .bfloat16 => 127
  | .e4m3 => 7
  | .e5m2 => 15
  | .e3m2 => 3
  | .e2m3 => 1
  | .e2m1 => 1
  | .int8 => 0
  | .int4 => 0

/-- The integer formats. -/
def Fmt.isInt : Fmt → Bool
  | .int8 => true
  | .int4 => true
  | _ => false

/-- Formats in which an exponent of all ones stands for infinity and NaN (R115). -/
def Fmt.ieee : Fmt → Bool
  | .binary64 => true
  | .binary32 => true
  | .binary16 => true
  | .bfloat16 => true
  | .e5m2 => true
  | _ => false

/-- The scaled formats, codes 0x4 to 0xA (R118). -/
def Fmt.scaled : Fmt → Bool
  | .binary64 => false
  | .binary32 => false
  | .binary16 => false
  | .bfloat16 => false
  | _ => true

/-- The 16-bit formats of the press. -/
def Fmt.is16 : Fmt → Bool
  | .binary16 => true
  | .bfloat16 => true
  | _ => false

/-- Magnitude code of the largest finite value (R115). -/
def Fmt.maxCode : Fmt → Nat
  | .binary64 => 0x7FEFFFFFFFFFFFFF
  | .binary32 => 0x7F7FFFFF
  | .binary16 => 0x7BFF
  | .bfloat16 => 0x7F7F
  | .e4m3 => 0x7E
  | .e5m2 => 0x7B
  | .e3m2 => 0x1F
  | .e2m3 => 0x1F
  | .e2m1 => 0x7
  | .int8 => 127
  | .int4 => 7

/-- Code of infinity, without its sign (R115). -/
def Fmt.infCode : Fmt → Nat
  | .binary64 => 0x7FF0000000000000
  | .binary32 => 0x7F800000
  | .binary16 => 0x7C00
  | .bfloat16 => 0x7F80
  | .e5m2 => 0x7C
  | f => f.maxCode

/-- The canonical NaN (R117); zero for the formats that have none. -/
def Fmt.nanCode : Fmt → Nat
  | .binary64 => 0x7FF8000000000000
  | .binary32 => 0x7FC00000
  | .binary16 => 0x7E00
  | .bfloat16 => 0x7FC0
  | .e4m3 => 0x7F
  | .e5m2 => 0x7E
  | _ => 0

/-- Exponent of the largest finite value, for computed scales (R124). -/
def Fmt.emax : Fmt → Int
  | .e4m3 => 8
  | .e5m2 => 15
  | .e3m2 => 4
  | .e2m3 => 2
  | .e2m1 => 2
  | .int8 => 6
  | .int4 => 2
  | .binary64 => 1023
  | .binary32 => 127
  | .binary16 => 15
  | .bfloat16 => 127

/-- An exact value: not a number, an infinity, or the dyadic (−1)^neg × m × 2^e (a zero keeps its sign). -/
inductive Num where
  | nan
  | inf (neg : Bool)
  | fin (neg : Bool) (m : Nat) (e : Int)
  deriving DecidableEq, Repr

/-- Positive zero. -/
def Num.zero : Num := .fin false 0 0

/-- A NaN. -/
def Num.isNan : Num → Bool
  | .nan => true
  | _ => false

/-- A zero of either sign. -/
def Num.isZero : Num → Bool
  | .fin _ 0 _ => true
  | _ => false

/-- An exact value from an integer. -/
def Num.ofInt (i : Int) : Num := .fin (i < 0) i.natAbs 0

/-- The value of the element code `c` (R115): the element value for float formats, the integer for INT8 and INT4. -/
def Fmt.decode (f : Fmt) (c : Nat) : Num :=
  let w := f.bits
  if f.isInt then Num.ofInt (if c % 2 ^ w < 2 ^ (w - 1) then (c % 2 ^ w : Nat) else (c % 2 ^ w : Nat) - (2 ^ w : Nat))
  else
    let neg := decide (c / 2 ^ (w - 1) % 2 = 1)
    let mag := c % 2 ^ (w - 1)
    let e := mag / 2 ^ f.mant
    let m := mag % 2 ^ f.mant
    if f.ieee && decide (f.infCode ≤ mag) then (if mag = f.infCode then .inf neg else .nan)
    else if f = .e4m3 ∧ mag = 0x7F then .nan
    else if e = 0 then .fin neg m (1 - (f.bias : Int) - f.mant)
    else .fin neg (m + 2 ^ f.mant) ((e : Int) - f.bias - f.mant)

/-- n / d to the nearest integer, ties to even. -/
def rneQuot (n d : Nat) : Nat :=
  let q := n / d
  let r := n % d
  if 2 * r < d then q else if d < 2 * r then q + 1 else if q % 2 = 0 then q else q + 1

/-- n / d × 2^s to the nearest integer, ties to even. -/
def rneScale (n d : Nat) (s : Int) : Nat :=
  if 0 ≤ s then rneQuot (n * 2 ^ s.toNat) d else rneQuot n (d * 2 ^ (-s).toNat)

/-- Floor of the base-2 logarithm of n / d × 2^e, for positive n and d. -/
def floorLog (n d : Nat) (e : Int) : Int :=
  let l : Int := (Nat.log2 n : Int) - Nat.log2 d
  let fits := if 0 ≤ l then decide (d * 2 ^ l.toNat ≤ n) else decide (d ≤ n * 2 ^ (-l).toNat)
  (if fits then l else l - 1) + e

/-- Magnitude code of n / d × 2^e in a float format, rounded to nearest with ties to even and without a bound: codes
above the largest finite code are overflows (R121, R122). -/
def Fmt.roundMag (f : Fmt) (n d : Nat) (e : Int) : Nat :=
  if n = 0 then 0
  else
    let low : Int := 1 - (f.bias : Int) - f.mant
    let q := max (floorLog n d e - f.mant) low
    rneScale n d (e - q) + (q - low).toNat * 2 ^ f.mant

/-- Sign bit of a code. -/
def Fmt.signBit (f : Fmt) (neg : Bool) : Nat := if neg then 2 ^ (f.bits - 1) else 0

/-- An integer as the two's-complement code of an integer format, clamped to ±127 or ±7 (R122). -/
def Fmt.intCode (f : Fmt) (neg : Bool) (mag : Nat) : Nat :=
  let m := min mag f.maxCode
  if neg ∧ m ≠ 0 then 2 ^ f.bits - m else m

/-- What a finite magnitude beyond the largest finite value is written as (R122). -/
def Fmt.overflow (f : Fmt) (sat : Bool) (neg : Bool) : Nat :=
  match f with
  | .e5m2 => f.signBit neg + (if sat then f.maxCode else f.infCode)
  | .e4m3 => if sat then f.signBit neg + f.maxCode else f.nanCode
  | _ => f.signBit neg + f.infCode

/-- The value n / d × 2^e with a sign, written in a format (R121, R122). -/
def Fmt.encodeQuot (f : Fmt) (sat neg : Bool) (n d : Nat) (e : Int) : Nat :=
  if f.isInt then f.intCode neg (rneScale n d e)
  else
    let c := f.roundMag n d e
    if c ≤ f.maxCode then f.signBit neg + c else f.overflow sat neg

/-- A value written in a format (R121, R122); the block forms of NaN sources are in `convertBlock`. -/
def Fmt.encode (f : Fmt) (sat : Bool) (x : Num) : Nat :=
  match x with
  | .nan => f.nanCode
  | .inf neg =>
    if f.isInt then f.intCode neg f.maxCode
    else if f = .e4m3 then f.overflow sat neg
    else f.signBit neg + f.infCode
  | .fin neg m e => f.encodeQuot sat neg m 1 e

/-- A value times 2^k. -/
def Num.scale (x : Num) (k : Int) : Num :=
  match x with
  | .fin neg m e => .fin neg m (e + k)
  | y => y

/-- The value with its sign reversed. -/
def Num.neg : Num → Num
  | .nan => .nan
  | .inf s => .inf (!s)
  | .fin s m e => .fin (!s) m e

/-- The value without its sign. -/
def Num.abs : Num → Num
  | .nan => .nan
  | .inf _ => .inf false
  | .fin _ m e => .fin false m e

/-- Signed significand of a dyadic over the exponent `q`, where q is at most its own exponent. -/
def signedAt (neg : Bool) (m : Nat) (e q : Int) : Int :=
  let v : Nat := m * 2 ^ (e - q).toNat
  if neg then -(v : Int) else v

/-- Exact sum (R151): a zero sum of nonzero parts, or of zeros of both signs, is +0. -/
def Num.add (x y : Num) : Num :=
  match x, y with
  | .nan, _ => .nan
  | _, .nan => .nan
  | .inf s, .inf t => if s = t then .inf s else .nan
  | .inf s, .fin _ _ _ => .inf s
  | .fin _ _ _, .inf t => .inf t
  | .fin s m e, .fin t n g =>
    let q := min e g
    let v := signedAt s m e q + signedAt t n g q
    if v = 0 then .fin (s && t && decide (m = 0) && decide (n = 0)) 0 0
    else .fin (v < 0) v.natAbs q

/-- Exact product. -/
def Num.mul (x y : Num) : Num :=
  match x, y with
  | .nan, _ => .nan
  | _, .nan => .nan
  | .inf s, .inf t => .inf (s != t)
  | .inf s, .fin t n _ => if n = 0 then .nan else .inf (s != t)
  | .fin s m _, .inf t => if m = 0 then .nan else .inf (s != t)
  | .fin s m e, .fin t n g => .fin (s != t) (m * n) (e + g)

/-- x < y; false where either is NaN (R151). -/
def Num.lt (x y : Num) : Bool :=
  match x, y with
  | .nan, _ => false
  | _, .nan => false
  | .inf s, .inf t => s && !t
  | .inf s, .fin _ _ _ => s
  | .fin _ _ _, .inf t => !t
  | .fin s m e, .fin t n g => decide (signedAt s m e (min e g) < signedAt t n g (min e g))

/-- x = y as numbers; +0 equals −0, and a NaN equals nothing (R116, R151). -/
def Num.eq (x y : Num) : Bool :=
  match x, y with
  | .nan, _ => false
  | _, .nan => false
  | .inf s, .inf t => s == t
  | .inf _, .fin _ _ _ => false
  | .fin _ _ _, .inf _ => false
  | .fin s m e, .fin t n g => decide (signedAt s m e (min e g) = signedAt t n g (min e g))

/-- x precedes y in the order of RED.MAX: as numbers, with −0 below +0 (R151, R161). -/
def Num.below (x y : Num) : Bool :=
  x.lt y || (match x, y with
    | .fin true 0 _, .fin false 0 _ => true
    | _, _ => false)

/-- Larger of two values; the other where one is NaN (R151). -/
def Num.max2 (x y : Num) : Num := if x.isNan then y else if y.isNan then x else if x.below y then y else x

/-- Smaller of two values; the other where one is NaN (R151). -/
def Num.min2 (x y : Num) : Num := if x.isNan then y else if y.isNan then x else if y.below x then y else x

/-- Quotient, correctly rounded into the format (R164, IEEE 754). -/
def Fmt.divide (f : Fmt) (x y : Num) : Nat :=
  match x, y with
  | .nan, _ => f.nanCode
  | _, .nan => f.nanCode
  | .inf s, .fin t _ _ => f.signBit (s != t) + f.infCode
  | .inf _, .inf _ => f.nanCode
  | .fin s _ _, .inf t => f.signBit (s != t)
  | .fin s m e, .fin t n g =>
    if n = 0 then (if m = 0 then f.nanCode else f.signBit (s != t) + f.infCode)
    else f.encodeQuot false (s != t) m n (e - g)

/-- Integer square root, `k` bits above bit 0 still open. -/
def isqrtFrom : Nat → Nat → Nat → Nat
  | 0, n, r => if (r + 1) * (r + 1) ≤ n then r + 1 else r
  | k + 1, n, r => isqrtFrom k n (if (r + 2 ^ (k + 1)) * (r + 2 ^ (k + 1)) ≤ n then r + 2 ^ (k + 1) else r)

/-- Floor of the square root. -/
def isqrt (n : Nat) : Nat := isqrtFrom (Nat.log2 n / 2 + 1) n 0

/-- Square root, correctly rounded into the format (R164, IEEE 754). -/
def Fmt.squareRoot (f : Fmt) (x : Num) : Nat :=
  match x with
  | .nan => f.nanCode
  | .inf s => if s then f.nanCode else f.infCode
  | .fin s m e =>
    if m = 0 then f.signBit s
    else if s then f.nanCode
    else
      let k : Int := if e % 2 = 0 then 140 else 141
      let n := m * 2 ^ k.toNat
      let r := isqrt n
      let sticky := if r * r = n then 0 else 1
      f.encodeQuot false false (2 * r + sticky) 1 ((e - k) / 2 - 1)

/-- Operand of a scaled format under its scale byte (R119); the other formats take no scale. -/
def Fmt.scaledValue (f : Fmt) (c scale : Nat) : Num :=
  if f.scaled then
    (if scale = 0xFF then .nan else (f.decode c).scale ((scale : Int) - 127))
  else f.decode c

/-- Exponent ⌊log₂ |x|⌋ of a finite nonzero value. -/
def Num.exponent : Num → Option Int
  | .fin _ m e => if m = 0 then none else some ((Nat.log2 m : Int) + e)
  | _ => none

/-- The largest exponent of a list of values (R133). -/
def maxExponent (xs : List Num) : Option Int :=
  xs.foldl (fun a x => match a, x.exponent with
    | none, r => r
    | some p, some q => some (max p q)
    | some p, none => some p) none

/-- The computed scale code of a block for target format `f`, from the values given (R124). -/
def Fmt.computedScale (f : Fmt) (xs : List Num) : Nat :=
  match maxExponent xs with
  | none => 0x7F
  | some e => (max 0 (min 254 (e - f.emax + 127))).toNat

/-- A target without NaN codes: a NaN source, or a given scale of 0xFF, marks its whole block (R123, R124). -/
def Fmt.noNan : Fmt → Bool
  | .e3m2 => true
  | .e2m3 => true
  | .e2m1 => true
  | .int8 => true
  | .int4 => true
  | _ => false

/-- One block converted into a scaled format (R123, R124): the scale byte and the element codes. `given` is the given
scale; `some` positions of `xs` are the sources, `none` positions take no part. -/
def Fmt.convertBlock (f : Fmt) (sat : Bool) (given : Option Nat) (xs : List (Option Num)) : Nat × List (Option Nat) :=
  let srcs := xs.filterMap id
  let hasNan := srcs.any Num.isNan
  match given with
  | some x =>
    if x = 0xFF ∨ (f.noNan ∧ hasNan) then (0xFF, xs.map (Option.map fun _ => 0))
    else (x, xs.map (Option.map fun v => f.encode sat (v.scale (127 - (x : Int)))))
  | none =>
    if f.noNan ∧ hasNan then (0xFF, xs.map (Option.map fun _ => 0))
    else
      let x := f.computedScale srcs
      (x, xs.map (Option.map fun v => f.encode
        (match v with
         | .fin _ _ _ => true
         | _ => sat) (v.scale (127 - (x : Int)))))

/-- The exact value to the nearest integer, ties to even, clamped to a two's-complement width (R152). -/
def toIntWidth (w : Nat) (x : Num) : Int :=
  match x with
  | .nan => 0
  | .inf s => if s then -(2 ^ (w - 1) : Nat) else (2 ^ (w - 1) : Nat) - 1
  | .fin s m e =>
    let n : Int := rneScale m 1 e
    max (-(2 ^ (w - 1) : Nat)) (min ((2 ^ (w - 1) : Nat) - 1) (if s then -n else n))

end Sys2Proof.Machine
end

