-- ==== Sys2Proof/Machine/Operands.lean ====
section
/-! DEFINITION. Operand forms of bay instructions: elements of vector registers (R147), masks (R149), ownership (R44),
address operands (R93, R105, R153, R193), and the g registers an instruction reads and writes (R48). -/

namespace Sys2Proof.Machine

/-! ### Elements of a vector register (R147) -/

/-- Element `i` of width `w`. -/
def vElem (r : BitVec 2048) (w i : Nat) : Nat := (r.extractLsb' (w * i) w).toNat

/-- The elements of a register or bit string, packed upwards from bit 0. -/
def packElems (w : Nat) : List Nat → Nat
  | [] => 0
  | x :: xs => x % 2 ^ w + 2 ^ w * packElems w xs

/-- A register from its elements; elements not given are zero. -/
def vPack (w : Nat) (xs : List Nat) : BitVec 2048 := BitVec.ofNat 2048 (packElems w xs)

/-- Elements per register of a width (R146). -/
def vCap (w : Nat) : Nat := if w < 8 then 256 else 2048 / w

/-- Bits of a width code (R188). -/
def widthOf (code : Nat) : Nat :=
  match code with
  | 0 => 8
  | 1 => 16
  | 2 => 32
  | 3 => 64
  | 4 => 6
  | _ => 4

/-- Bits of an element of a format code. -/
def fmtBits (code : Nat) : Nat :=
  match Fmt.ofCode code with
  | some f => f.bits
  | none => 128

/-- Bit `i` of a mask named by its first register, for elements of width `w` (R149): one register at 32 and 64 bits, a pair
at 16, a quad at 8 and below. -/
def maskBitAt (m : Vector Word 8) (n w i : Nat) : Bool :=
  if 32 ≤ w then decide (i < 64) && (m[n]?.getD 0).getLsbD i
  else (m[n + i / 64]?.getD 0).getLsbD (i % 64)

/-- Whether a mask may be named by register `n` for elements of width `w` (R149). -/
def maskNameOk (w n : Nat) : Bool :=
  if 32 ≤ w then true else if w = 16 then decide (n % 2 = 0) else decide (n % 4 = 0)

/-- The mask registers a mask reaches. -/
def maskRegsOf (w n : Nat) : List Nat := if 32 ≤ w then [n] else if w = 16 then [n, n + 1] else [n, n + 1, n + 2, n + 3]

/-- A destination register under R147: active elements take `val`, inactive ones keep the old value, elements at VL and above
are zero. -/
def writeActive (old : BitVec 2048) (w vl : Nat) (act : Nat → Bool) (val : Nat → Nat) : BitVec 2048 :=
  vPack w ((List.range vl).map fun i => if act i then val i else vElem old w i)

/-! ### Widths, registers and masks of a V-format instruction -/

/-- The element widths a V-format instruction reads or writes under VL (R148); none for those that ignore VL. -/
def VCode.widths (c : VCode) (f : VFields) : List Nat :=
  let fm := f.fmt.toNat
  let sub := f.mod.toNat % 16
  match c with
  | .vadd | .vsub | .vmul | .vfma | .vmin | .vmax | .vabs | .vneg | .vcmp | .vdiv | .vsqrt => [fmtBits fm]
  | .viadd | .visub | .vimul | .vand | .vor | .vxor | .vshl | .vshr => [widthOf fm]
  | .exp2 | .log2 | .rcp | .rsqrt | .sin | .cos => [fmtBits fm]
  | .sincosP => [32]
  | .vcvt => [if f.mod.getLsbD 12 then widthOf fm else fmtBits fm, if f.mod.getLsbD 13 then widthOf sub else fmtBits sub]
  | .vld | .vst => [fmtBits fm, fmtBits sub]
  | .fold | .unfold | .perm => [widthOf fm]
  | .redSum | .redMax | .redMin | .redArgmax | .redSumx | .redTopk | .softmaxAcc | .softmaxOut => [fmtBits fm]
  | .vldR | .vstR | .mand | .mor | .mxor | .mnot | .mpop | .xcvt | .redTopkInit | .softmaxInit | .softmaxFin => []

/-- The widest of the widths: it decides the layout of the mask (R149). -/
def VCode.widest (c : VCode) (f : VFields) : Nat := (c.widths f).foldl max 0

/-- The vector registers an instruction reaches (R179). -/
def VCode.vregs (c : VCode) (f : VFields) : List Nat :=
  let r := c.row
  let k := c.maskRegs
  (if r.vd && !k.1 then [f.vd.toNat] else []) ++ (if r.va && !k.2.1 then [f.va.toNat] else [])
    ++ (if r.vb && !k.2.2 then [f.vb.toNat] else []) ++ (if r.vc then [f.vc.toNat] else [])
    ++ (match c with
      | .sincosP => [f.vd.toNat + 1]
      | _ => [])

/-- The mask registers an instruction reaches, the mask operand included (R179). -/
def VCode.mregs (c : VCode) (f : VFields) : List Nat :=
  let d := f.vd.toNat % 8
  let a := f.va.toNat % 8
  let b := f.vb.toNat % 8
  (if f.me = 1 then maskRegsOf (c.widest f) f.msk.toNat else [])
    ++ (match c with
      | .vcmp => maskRegsOf (c.widest f) d
      | .mand | .mor | .mxor => [d, a, b]
      | .mnot => [d, a]
      | .mpop => maskRegsOf (widthOf f.fmt.toNat) a
      | _ => [])

/-- Naming of masks and mask pairs (R149, R190). -/
def VCode.maskNamesOk (c : VCode) (f : VFields) : Bool :=
  (f.me == 0 || maskNameOk (c.widest f) f.msk.toNat)
    && (match c with
      | .vcmp => maskNameOk (c.widest f) (f.vd.toNat % 8)
      | .mpop => maskNameOk (widthOf f.fmt.toNat) (f.va.toNat % 8)
      | _ => true)

/-- Ownership of vector and mask registers (R44). -/
def ownsRegs (seamEn : Bool) (t : Thread) (vs ms : List Nat) : Bool :=
  match t with
  | .main => !seamEn || (vs.all (fun i => decide (i < 28)) && ms.all (fun i => decide (i < 7)))
  | .seam => vs.all (fun i => decide (28 ≤ i)) && ms.all (fun i => decide (i = 7))

/-! ### Address operands -/

/-- A base and stride operand: base in [19:0], stride in [51:32] (R93, R105, R153). -/
structure Strided where
  base : Nat
  stride : Nat
  deriving DecidableEq, Repr

/-- The base and the stride of an operand. -/
def strided (w : Word) : Strided := ⟨fieldOf w 0 20, fieldOf w 32 20⟩

/-- Every other bit of a base and stride operand is zero. -/
def stridedClean (w : Word) : Bool := fieldOf w 20 12 == 0 && fieldOf w 52 12 == 0

/-- Last byte of row `n` − 1 of rows of `len` bytes lies within bay memory. -/
def Strided.fits (p : Strided) (n len : Nat) : Bool :=
  decide (n = 0) || decide (len = 0) || decide (p.base + (n - 1) * p.stride + len ≤ 0x100000)

/-- Base and stride are multiples of `k`. -/
def Strided.aligned (p : Strided) (k : Nat) : Bool := decide (p.base % k = 0) && decide (p.stride % k = 0)

/-- Row range operand gR: first row in [6:0], row count in [15:8] (R93). -/
structure RowRange where
  r0 : Nat
  m : Nat
  deriving DecidableEq, Repr

/-- The first row and the row count. -/
def rowRange (w : Word) : RowRange := ⟨fieldOf w 0 7, fieldOf w 8 8⟩

/-- Every other bit of a row range operand is zero. -/
def rowRangeClean (w : Word) : Bool := fieldOf w 7 1 == 0 && fieldOf w 16 48 == 0

/-- The row count is 1 to 128 and the rows lie in the block (R94). -/
def RowRange.ok (r : RowRange) : Bool := decide (1 ≤ r.m) && decide (r.m ≤ 128) && decide (r.r0 + r.m ≤ 128)

/-! ### Formats of the press (R81, R85) -/

/-- The class of a press format: 0 the 8-bit class, 1 the 4-bit class, 2 the 16-bit class. -/
def pressClass (code : Nat) : Option Nat :=
  match code with
  | 2 | 3 => some 2
  | 4 | 5 | 6 | 7 | 9 => some 0
  | 8 | 10 => some 1
  | _ => none

/-- Logical depth K of a stationary block (R81). -/
def pressK (cls : Nat) (sparse : Bool) : Nat :=
  (if cls = 1 then 128 else 64) * (if sparse then 2 else 1)

/-- Kept rows of a stationary block: K of a dense block, K/2 of a 2:4 block (R85), which is the same number. -/
def keptRows (cls : Nat) : Nat := if cls = 1 then 128 else 64

/-! ### g registers read and written at issue (R48) -/

/-- g registers that an S-format instruction reads. -/
def SCode.reads (c : SCode) (f : SFields) : List (BitVec 5) :=
  (if c.uses.2.1 then [f.ga] else []) ++ (if c.uses.2.2.1 then [f.gb] else [])

/-- g registers that an S-format instruction writes. -/
def SCode.writes (c : SCode) (f : SFields) : List (BitVec 5) := if c.uses.1 then [f.gd] else []

/-- The source format code of VCVT is a scaled format. -/
def vcvtSrcScaled (f : VFields) : Bool := !f.mod.getLsbD 13 && codeIn 4 0xA (f.mod.toNat % 16)

/-- The target format of VCVT is a scaled format. -/
def vcvtTgtScaled (f : VFields) : Bool := !f.mod.getLsbD 12 && codeIn 4 0xA f.fmt.toNat

/-- A VLD or VST that converts into or from a scaled memory format with its scales present: it reads its gS operand (R153). -/
def vmemScaled (fm fr : Nat) (ns : Bool) : Bool := decide (fm ≠ fr) && codeIn 4 0xA fm && !ns

/-- g registers that a V-format instruction reads at issue. -/
def VCode.reads (c : VCode) (f : VFields) : List (BitVec 5) :=
  match c with
  | .vcvt => (if vcvtSrcScaled f then [f.gx] else []) ++ (if vcvtTgtScaled f && !f.mod.getLsbD 5 then [f.gy] else [])
  | .vld | .vst =>
    f.gx :: (if vmemScaled f.fmt.toNat (f.mod.toNat % 16) (f.mod.getLsbD 6) then [f.gy] else [])
  | .vldR | .vstR | .redSumx | .xcvt | .redTopk => [f.gx]
  | _ => []

/-- The g register that a V-format instruction writes when it executes. -/
def VCode.writes (c : VCode) (f : VFields) : Option (BitVec 5) :=
  match c with
  | .fold | .unfold | .mpop | .redSum | .redMax | .redMin | .redArgmax => some f.gx
  | .vcvt => if vcvtTgtScaled f && f.mod.getLsbD 5 then some f.gy else none
  | _ => none

/-- g registers that a P-format instruction reads at issue. -/
def PCode.reads (c : PCode) (f : PFields) : List (BitVec 5) :=
  match c with
  | .mm => if f.mod.getLsbD 5 || (f.fmt == 2 || f.fmt == 3) then [f.ga, f.gr] else [f.ga, f.gs, f.gr]
  | .lds => [f.ga]
  | .accSt => if codeIn 4 0xA f.fmt.toNat then [f.ga, f.gs, f.gr] else [f.ga, f.gr]
  | .accLd => [f.ga, f.gr]
  | _ => []

/-- g registers that an M-format instruction reads at issue. -/
def MCode.reads (c : MCode) (f : MFields) : List (BitVec 5) :=
  match c with
  | .put => [f.gl, f.gt] ++ (if f.lr = 1 then [f.gn] else [])
  | .putF => [f.gl, f.gt, f.gx] ++ (if f.lr = 1 then [f.gn] else [])
  | .get => [f.gl, f.gt] ++ (if f.lr = 1 then [f.gn] else []) ++ (if f.cw = 1 then [f.gx] else [])
  | .amo => [f.gt, f.gn] ++ (if f.aop = 2 then [f.gx] else [])

/-- The g register that an M-format instruction writes. -/
def MCode.writes (c : MCode) (f : MFields) : Option (BitVec 5) :=
  match c with
  | .amo => some f.gl
  | _ => none

/-- g registers that an X-format instruction reads at issue. -/
def XCode.reads (c : XCode) (f : XFields) : List (BitVec 5) :=
  match c with
  | .waitFlag => [f.ga, f.gb, f.gc]
  | .waitScribe => [f.ga]
  | .spliceMmb | .spliceMmr =>
    if codeIn 4 0xA (f.mod.toNat % 16) then [f.ga, f.gb, f.gc, f.gd] else [f.ga, f.gc, f.gd]
  | .spliceVb | .spliceVr =>
    if vmemScaled (f.mod.toNat % 16) (f.mod.toNat / 16 % 16) (f.mod.getLsbD 10) then [f.ga, f.gb, f.gd] else [f.ga, f.gd]
  | .spliceDsp | .spliceCmb => [f.ga, f.gb, f.gc, f.gd]
  | .sync | .fence | .endThread => []

/-- The g register that an X-format instruction writes. -/
def XCode.writes (c : XCode) (f : XFields) : Option (BitVec 5) :=
  match c with
  | .fence | .waitFlag | .waitScribe => some f.gd
  | _ => none

/-- Every g register an instruction reads or writes. -/
def BayInstr.gregs : BayInstr → List (BitVec 5)
  | .s c f => c.reads f ++ c.writes f
  | .v c f => c.reads f ++ (c.writes f).toList
  | .p c f => c.reads f
  | .m c f => c.reads f ++ (c.writes f).toList
  | .x c f => c.reads f ++ (c.writes f).toList

end Sys2Proof.Machine
end

