-- ==== Sys2Proof/Machine/Issue.lean ====
section
/-! DEFINITION. Issue of a bay instruction (R42, R44, R48, R55, R63, R68, R178, R181): when it issues, stalls or faults. -/

namespace Sys2Proof.Machine

/-- Failed issue checks of the two kinds (R178). -/
structure Check where
  mal : Bool
  rng : Bool
  deriving DecidableEq, Repr

/-- No check failed. -/
def Check.none : Check := ⟨false, false⟩

/-- Both sets of checks. -/
def Check.and (a b : Check) : Check := ⟨a.mal || b.mal, a.rng || b.rng⟩

/-- What becomes of an instruction that reaches a thread. -/
inductive Gate where
  /-- the thread does not issue it now: no effect -/
  | stall
  /-- a precise fault or a stop; the state after it -/
  | stop (s : State)
  /-- it issues, from this state -/
  | go (s : State)
  deriving DecidableEq, Repr

/-- The bay clocks do not run: gated by HOLD (R19, R76), or stopped by a thermal shutdown (R504). -/
def State.clockOff (s : State) : Bool := s.devState == stHOLD || s.devState == stLATCHED

/-- No thread issues or leaves a wait: the bay clocks do not run, or a baste pauses the threads (R415). -/
def State.gated (s : State) : Bool := s.clockOff || s.getF Fld.LDG_BASTE_STATUS_STATE == 1

/-- `BAY_CTRL.SEAM_EN` of a bay. -/
def State.seamEn (s : State) (b : BayId) : Bool := s.getF (Fld.BAY_CTRL_SEAM_EN b.toNat) == 1

/-- The last instruction offset of bay memory (R181). -/
def lastPc : BitVec 20 := 0xFFFF8

/-- Ownership of what an instruction names (R44, R180). -/
def BayInstr.owned (seamEn : Bool) (t : Thread) : BayInstr → Bool
  | .s _ _ => true
  | .v c f => ownsRegs seamEn t (c.vregs f) (c.mregs f)
  | .p c f =>
    t == .main && (match c with
      | .mm => !(seamEn && decide ((f.mod.extractLsb' 2 3).toNat = 4))
      | _ => true)
  | .m _ _ => true
  | .x c f =>
    match c with
    | .sync | .fence | .waitFlag | .waitScribe | .endThread => true
    | .spliceMmb | .spliceMmr | .spliceDsp | .spliceCmb => t == .main
    | .spliceVb | .spliceVr =>
      t == .main && ownsRegs seamEn t [f.mod.toNat / 2 ^ 15 % 32]
        (if f.mod.getLsbD 11 then
          maskRegsOf (max (fmtBits (f.mod.toNat % 16)) (fmtBits (f.mod.toNat / 16 % 16))) (f.mod.toNat / 2 ^ 12 % 8)
         else [])

/-- The instruction stops its thread when an AMO whose result register it names, or any AMO at a FENCE or END, has failed
(R63). -/
def BayInstr.amoGate (i : BayInstr) (p : PendingG) : Bool :=
  p.failed.isSome && ((p.reg != 0 && i.gregs.contains p.reg) || (match i with
    | .x .fence _ => true
    | .x .endThread _ => true
    | _ => false))

/-- The unit of an instruction cannot accept it (R45, R58). -/
def Bay.full (y : Bay) (t : Thread) : BayInstr → Bool
  | .s _ _ => false
  | .v _ _ =>
    match t with
    | .main => decide (32 ≤ y.mainVq.length)
    | .seam => decide (8 ≤ y.seamVq.length)
  | .p _ _ => decide (32 ≤ y.pq.length)
  | .m _ _ =>
    decide (256 ≤ y.slots.length)
      || (t == .main && decide (224 ≤ (y.slots.filter fun e => (e.2.map fun x => x.t) == some Thread.main).length))
  | .x c _ =>
    match c with
    | .spliceMmb | .spliceMmr => decide (32 ≤ y.pq.length)
    | .spliceVb | .spliceVr | .spliceDsp | .spliceCmb => decide (32 ≤ y.mainVq.length)
    | _ => false

/-- The places in its line of the 64-bit words of a 64-byte line of bay memory that hold a double-bit error. -/
def State.badPlaces (s : State) (b : BayId) (n : Nat) : List Nat :=
  (List.range 8).filter fun k => s.ecc2.contains (bayAddr b (64 * n) / 8 + k)

/-- The line of bay memory at offset `pc` read into a thread's instruction buffer in one access, its bad words marked there (R49,
R55). -/
def State.readLine (s : State) (b : BayId) (t : Thread) (pc : Nat) : State :=
  let bad := s.badPlaces b (pc / 64)
  (s.eccRead b (pc / 64 * 64) 64).1.updThr b t fun r => { r with line := some (pc / 64, bad) }

/-- The thread's next instruction word is in its buffer. -/
def ThreadRec.buffered (r : ThreadRec) : Bool := (r.line.map Prod.fst) == some (r.pc.toNat / 64)

/-- The fetch of a thread's next instruction word: a line that is not in the instruction buffer is read first. Answers the state and
whether the word is marked bad. A line is fetched when the thread reaches it and issues or faults there (DESIGN CHOICE, log entry 72:
the spec does not say how far ahead a thread fetches). -/
def State.fetchLine (s : State) (b : BayId) (t : Thread) : State × Bool :=
  let pc := (s.thr b t).pc.toNat
  let s := if (s.thr b t).buffered then s else s.readLine b t pc
  (s, ((s.thr b t).line.map Prod.snd).any fun l => l.contains (pc % 64 / 8))

/-- Issue of an instruction with its dynamic checks `chk`: stalls (R42, R45, R48, R58), faults (R67, R177, R178) and the stop
of a failed AMO (R63) come first. -/
def issueGate (s : State) (b : BayId) (t : Thread) (i : BayInstr) (chk : Check) : Gate :=
  let y := s.bay b
  let r := y.thr t
  if s.gated || !r.issues then .stall
  else
    let e := s.fetchLine b t
    if e.2 then .stop ((e.1.bitsEvent cMEM_UNCORRECTABLE).preciseFault b t cMEM_UNCORRECTABLE)
    else if !i.fieldsOk || !i.owned (s.seamEn b) t then .stop (e.1.preciseFault b t cMALFORMED)
    else
      match r.pend.find? i.amoGate with
      | some p =>
        .stop (e.1.updThr b t fun r => r.stopOn (p.failed.getD 0) 4 0 p.qseq p.pc p.reg true)
      | none =>
        if r.pend.any fun p => i.gregs.contains p.reg && p.reg != 0 then .stall
        else if y.full t i then .stall
        else if chk.mal then .stop (e.1.preciseFault b t cMALFORMED)
        else if chk.rng then .stop (e.1.preciseFault b t cRANGE)
        else .go e.1

/-- The state after an instruction that issues with effect `go`, or stalls, or faults. -/
def Gate.run (g : Gate) (s : State) (eff : State → State) : State :=
  match g with
  | .stall => s
  | .stop s' => s'
  | .go s' => eff s'

/-- The check of R181 on an instruction that is neither END nor a taken jump: it must not lie at the last offset. -/
def endCheck (pc : BitVec 20) : Check := ⟨false, decide (pc = lastPc)⟩

/-- A RESERVED_ENCODING word reached by a thread (R177): a precise fault with MALFORMED; a word that is no reserved encoding is
no such event. -/
def opReserved (s : State) (b : BayId) (t : Thread) (w : Word) : State :=
  let r := s.thr b t
  if s.gated || !r.issues || !isReserved w then s
  else
    let e := s.fetchLine b t
    if e.2 then (e.1.bitsEvent cMEM_UNCORRECTABLE).preciseFault b t cMEM_UNCORRECTABLE
    else e.1.preciseFault b t cMALFORMED

end Sys2Proof.Machine
end

