-- ==== Sys2Proof/Machine/Scalar.lean ====
section
/-! DEFINITION. S-format instructions (R46, R47, R148, R181, R184 to R186, R562) and RESERVED_ENCODING. -/

namespace Sys2Proof.Machine

/-- Sign-extended immediate (R183). -/
def sext32 (i : BitVec 32) : Word := i.signExtend 64

/-- The register-register operations of R184. -/
inductive AluOp where
  | add | sub | and | or | xor | shl | shr | sra | slt | sltu | seq | min | max | minu | maxu
  deriving DecidableEq, Repr

/-- GA op GB (R184): shifts use the low six bits of the second operand; comparisons give 1 or 0; MIN and MAX are signed. -/
def AluOp.eval (o : AluOp) (a b : Word) : Word :=
  match o with
  | .add => a + b
  | .sub => a - b
  | .and => a &&& b
  | .or => a ||| b
  | .xor => a ^^^ b
  | .shl => a <<< (b.toNat % 64)
  | .shr => a >>> (b.toNat % 64)
  | .sra => a.sshiftRight (b.toNat % 64)
  | .slt => if a.toInt < b.toInt then 1 else 0
  | .sltu => if a.toNat < b.toNat then 1 else 0
  | .seq => if a = b then 1 else 0
  | .min => if a.toInt < b.toInt then a else b
  | .max => if a.toInt < b.toInt then b else a
  | .minu => if a.toNat < b.toNat then a else b
  | .maxu => if a.toNat < b.toNat then b else a

/-- Multiplication and division (R47, R184). -/
inductive MulOp where
  | mul | mulh | mulhu | div | divu | rem | remu
  deriving DecidableEq, Repr

/-- Low and high products, signed and unsigned quotients and remainders. A division by zero gives all ones and the dividend;
−2^63 by −1 gives −2^63 and 0 (R47). -/
def MulOp.eval (o : MulOp) (a b : Word) : Word :=
  match o with
  | .mul => a * b
  | .mulh => BitVec.ofInt 64 (a.toInt * b.toInt / 2 ^ 64)
  | .mulhu => BitVec.ofNat 64 (a.toNat * b.toNat / 2 ^ 64)
  | .div => if b = 0 then BitVec.allOnes 64 else BitVec.ofInt 64 (Int.tdiv a.toInt b.toInt)
  | .divu => if b = 0 then BitVec.allOnes 64 else BitVec.ofNat 64 (a.toNat / b.toNat)
  | .rem => if b = 0 then a else BitVec.ofInt 64 (Int.tmod a.toInt b.toInt)
  | .remu => if b = 0 then a else BitVec.ofNat 64 (a.toNat % b.toNat)

/-- The conditions of branches (R184). -/
inductive CondOp where
  | eq | ne | lt | ge | ltu | geu
  deriving DecidableEq, Repr

/-- Whether a condition holds on GA and GB. -/
def CondOp.holds (o : CondOp) (a b : Word) : Bool :=
  match o with
  | .eq => a == b
  | .ne => a != b
  | .lt => decide (a.toInt < b.toInt)
  | .ge => decide (b.toInt ≤ a.toInt)
  | .ltu => decide (a.toNat < b.toNat)
  | .geu => decide (b.toNat ≤ a.toNat)

/-- A g register written and the program counter moved on: what every scalar result does. -/
def State.putG (s : State) (b : BayId) (t : Thread) (i : BitVec 5) (v : Word) : State :=
  s.updThr b t fun r => (r.setG i v).advance

/-- An instruction whose result is a value of the operand registers alone: it issues under R178 and R181 and writes GD. -/
def opScalar (c : SCode) (val : ThreadRec → Word) (b : BayId) (t : Thread) (f : SFields) (s : State) : State :=
  let r := s.thr b t
  (issueGate s b t (.s c f) (endCheck r.pc)).run s fun s => s.putG b t f.gd (val r)

/-- Register-register form: GD ← GA op GB. -/
def opAlu (c : SCode) (o : AluOp) (b : BayId) (t : Thread) (f : SFields) (s : State) : State :=
  opScalar c (fun r => o.eval (r.getG f.ga) (r.getG f.gb)) b t f s

/-- Immediate form: GD ← GA op sext(IMM). -/
def opAluImm (c : SCode) (o : AluOp) (b : BayId) (t : Thread) (f : SFields) (s : State) : State :=
  opScalar c (fun r => o.eval (r.getG f.ga) (sext32 f.imm)) b t f s

/-- Multiply and divide: GD ← GA op GB (R47). -/
def opMul (c : SCode) (o : MulOp) (b : BayId) (t : Thread) (f : SFields) (s : State) : State :=
  opScalar c (fun r => o.eval (r.getG f.ga) (r.getG f.gb)) b t f s

/-- Checks of a scalar load or store of `n` bytes (R67, R185). -/
def memCheck (pc : BitVec 20) (a : Word) (n : Nat) : Check :=
  (endCheck pc).and ⟨decide (a.toNat % n ≠ 0), decide (0x100000 < a.toNat + n)⟩

/-- A loaded number of `n` bytes as the register takes it: sign-extended or zero-extended. -/
def loadExtend (signed : Bool) (n : Nat) (v : Nat) : Word :=
  if signed ∧ 2 ^ (8 * n - 1) ≤ v then BitVec.ofNat 64 (v + (2 ^ 64 - 2 ^ (8 * n))) else BitVec.ofNat 64 v

/-- Scalar load of `n` bytes at GA + sext(IMM) (R55, R184, R185). -/
def opLoad (c : SCode) (n : Nat) (signed : Bool) (b : BayId) (t : Thread) (f : SFields) (s : State) : State :=
  let r := s.thr b t
  let a := r.getG f.ga + sext32 f.imm
  (issueGate s b t (.s c f) (memCheck r.pc a n)).run s fun s =>
    let e := s.eccRead b a.toNat n
    if e.2 then (e.1.bitsEvent cMEM_UNCORRECTABLE).preciseFault b t cMEM_UNCORRECTABLE
    else e.1.putG b t f.gd (loadExtend signed n (leNat (s.bayBytes b a.toNat n)))

/-- Scalar store of the low `n` bytes of GB at GA + sext(IMM). A failed merge stops the thread at its next boundary (R562). -/
def opStore (c : SCode) (n : Nat) (b : BayId) (t : Thread) (f : SFields) (s : State) : State :=
  let r := s.thr b t
  let a := r.getG f.ga + sext32 f.imm
  (issueGate s b t (.s c f) (memCheck r.pc a n)).run s fun s =>
    let e := s.bayWrite b a.toNat (leBytes n (r.getG f.gb).toNat)
    if e.2 then
      (e.1.bitsEvent cMEM_UNCORRECTABLE).updThr b t fun r' =>
        r'.advance.stopOn cMEM_UNCORRECTABLE 1 0 0 r.pc 0 false
    else e.1.updThr b t fun r => r.advance

/-- A taken branch: the program counter takes the target, and the buffered instructions are discarded (R49). -/
def ThreadRec.jump (r : ThreadRec) (pc : BitVec 20) : ThreadRec := { r with pc := pc, line := none }

/-- Target of a branch or jump relative to the program counter, as a number. -/
def relTarget (pc : BitVec 20) (imm : BitVec 32) : Int := (pc.toNat : Int) + imm.toInt * 8

/-- A target outside 0 to 0xF_FFF8 (R181). -/
def targetBad (x : Int) : Bool := decide (x < 0) || decide (0xFFFF8 < x)

/-- Conditional branch: taken, PC ← PC + sext(IMM) × 8; a branch not taken at the last offset, or one whose target lies
outside bay memory, is RANGE (R181, R184). -/
def opBranch (c : SCode) (o : CondOp) (b : BayId) (t : Thread) (f : SFields) (s : State) : State :=
  let r := s.thr b t
  let taken := o.holds (r.getG f.ga) (r.getG f.gb)
  let x := relTarget r.pc f.imm
  let chk : Check := if taken then ⟨false, targetBad x⟩ else endCheck r.pc
  (issueGate s b t (.s c f) chk).run s fun s =>
    s.updThr b t fun r => if taken then r.jump (BitVec.ofInt 20 x) else r.advance

/-- The link value of a jump, PC + 8. -/
def linkOf (pc : BitVec 20) : Word := BitVec.ofNat 64 (pc.toNat + 8)

/-- JAL: GD ← PC + 8; PC ← PC + sext(IMM) × 8 (R181, R184). -/
def opJal (b : BayId) (t : Thread) (f : SFields) (s : State) : State :=
  let r := s.thr b t
  let x := relTarget r.pc f.imm
  (issueGate s b t (.s .jal f) ⟨false, targetBad x⟩).run s fun s =>
    s.updThr b t fun r => (r.setG f.gd (linkOf r.pc)).jump (BitVec.ofInt 20 x)

/-- JALR: GD ← PC + 8; PC ← GA + sext(IMM), read before GD is written (R179, R181, R185). -/
def opJalr (b : BayId) (t : Thread) (f : SFields) (s : State) : State :=
  let r := s.thr b t
  let x := r.getG f.ga + sext32 f.imm
  (issueGate s b t (.s .jalr f) ⟨decide (x.toNat % 8 ≠ 0), decide (0xFFFF8 < x.toNat)⟩).run s fun s =>
    s.updThr b t fun r => (r.setG f.gd (linkOf r.pc)).jump (x.setWidth 20)

/-- SETVL: VL is the smaller of 2,048 / width and the requested length, and GD receives it (R148). -/
def opSetvl (b : BayId) (t : Thread) (f : SFields) (s : State) : State :=
  let r := s.thr b t
  let vl := min (2048 / widthOf (f.imm.toNat % 4)) (r.getG f.ga).toNat
  (issueGate s b t (.s .setvl f) (endCheck r.pc)).run s fun s =>
    s.updThr b t fun r => { (r.setG f.gd (BitVec.ofNat 64 vl)).advance with vl := BitVec.ofNat 9 vl }

/-- This device's coordinate, from the position straps (R8). -/
def State.devCoord (s : State) : DevCoord :=
  if (s.power.benching || s.getF Fld.MSC_STATE_BENCH == 1) && s.getF Fld.MSC_STRAP_CAUSE != 0 then 0
  else BitVec.ofNat 16 (s.getF Fld.MSC_STRAP_DEV)

/-- Bay clock in MHz at a DVFS point (R3, R28). -/
def pointMhz (p : Nat) : Nat :=
  match p with
  | 0 => 1500
  | 1 => 1350
  | 2 => 1200
  | 3 => 900
  | _ => 600

/-- The point that a die has reached. -/
def State.reached (s : State) (d : Nat) : Nat := smapGet (fun _ => 0) s.tpc.point d

/-- The greatest lag, in ticks, of a bay's copy of the scribe count: 2 ns + 4 Tr, with the bay clock period in force (R31): that of the
point its die has reached, also while a change to another is in progress (R506). -/
def State.bayLagMax (s : State) (b : BayId) : Nat :=
  let die := b.toNat / 256
  let mhz := pointMhz (s.reached die)
  let share := s.getF Fld.TPC_CLOCK_DIE / 512 ^ die % 512
  if share = 0 then 2 else 2 + (4 * 1000 * 256) / (mhz * share)

/-- The bay domain's copy of the scribe count (R31, R32): behind the count by an open lag within its bound, and never behind what
the domain already had, unless the count itself was set back. -/
def State.scribeCopy (s : State) (b : BayId) : State × Word :=
  let d := s.draw
  let now := s.getF Fld.SCR_COUNT_COUNT
  let v := min now (max (smapGet (fun _ => 0) s.scr.copies b.toNat) (now - d.2 % (s.bayLagMax b + 1)))
  ({ d.1 with scr := { d.1.scr with copies := smapSet (fun _ => 0) d.1.scr.copies b.toNat v } }, BitVec.ofNat 64 v)

/-- RDSYS (R186). -/
def opRdsys (b : BayId) (t : Thread) (f : SFields) (s : State) : State :=
  let r := s.thr b t
  (issueGate s b t (.s .rdsys f) (endCheck r.pc)).run s fun s =>
    match f.imm.toNat with
    | 0 => s.putG b t f.gd (b.setWidth 64)
    | 1 => s.putG b t f.gd (if t = .seam then 1 else 0)
    | 2 => s.putG b t f.gd (s.devCoord.setWidth 64)
    | 3 =>
      let c := s.scribeCopy b
      c.1.putG b t f.gd c.2
    | _ => s.putG b t f.gd (r.vl.setWidth 64)

/-! ### The meanings -/
/-- ADD (R184). -/
def execAdd (b : BayId) (t : Thread) (f : SFields) (s : State) : Res :=
  .next (opAlu .add .add b t f s)

/-- SUB (R184). -/
def execSub (b : BayId) (t : Thread) (f : SFields) (s : State) : Res :=
  .next (opAlu .sub .sub b t f s)

/-- AND (R184). -/
def execAnd (b : BayId) (t : Thread) (f : SFields) (s : State) : Res :=
  .next (opAlu .and .and b t f s)

/-- OR (R184). -/
def execOr (b : BayId) (t : Thread) (f : SFields) (s : State) : Res :=
  .next (opAlu .or .or b t f s)

/-- XOR (R184). -/
def execXor (b : BayId) (t : Thread) (f : SFields) (s : State) : Res :=
  .next (opAlu .xor .xor b t f s)

/-- SHL (R184). -/
def execShl (b : BayId) (t : Thread) (f : SFields) (s : State) : Res :=
  .next (opAlu .shl .shl b t f s)

/-- SHR (R184). -/
def execShr (b : BayId) (t : Thread) (f : SFields) (s : State) : Res :=
  .next (opAlu .shr .shr b t f s)

/-- SRA (R184). -/
def execSra (b : BayId) (t : Thread) (f : SFields) (s : State) : Res :=
  .next (opAlu .sra .sra b t f s)

/-- SLT (R184). -/
def execSlt (b : BayId) (t : Thread) (f : SFields) (s : State) : Res :=
  .next (opAlu .slt .slt b t f s)

/-- SLTU (R184). -/
def execSltu (b : BayId) (t : Thread) (f : SFields) (s : State) : Res :=
  .next (opAlu .sltu .sltu b t f s)

/-- SEQ (R184). -/
def execSeq (b : BayId) (t : Thread) (f : SFields) (s : State) : Res :=
  .next (opAlu .seq .seq b t f s)

/-- MIN (R184). -/
def execMin (b : BayId) (t : Thread) (f : SFields) (s : State) : Res :=
  .next (opAlu .min .min b t f s)

/-- MAX (R184). -/
def execMax (b : BayId) (t : Thread) (f : SFields) (s : State) : Res :=
  .next (opAlu .max .max b t f s)

/-- MINU (R184). -/
def execMinu (b : BayId) (t : Thread) (f : SFields) (s : State) : Res :=
  .next (opAlu .minu .minu b t f s)

/-- MAXU (R184). -/
def execMaxu (b : BayId) (t : Thread) (f : SFields) (s : State) : Res :=
  .next (opAlu .maxu .maxu b t f s)

/-- ADD_IMM (R184). -/
def execAddImm (b : BayId) (t : Thread) (f : SFields) (s : State) : Res :=
  .next (opAluImm .addImm .add b t f s)

/-- SUB_IMM (R184). -/
def execSubImm (b : BayId) (t : Thread) (f : SFields) (s : State) : Res :=
  .next (opAluImm .subImm .sub b t f s)

/-- AND_IMM (R184). -/
def execAndImm (b : BayId) (t : Thread) (f : SFields) (s : State) : Res :=
  .next (opAluImm .andImm .and b t f s)

/-- OR_IMM (R184). -/
def execOrImm (b : BayId) (t : Thread) (f : SFields) (s : State) : Res :=
  .next (opAluImm .orImm .or b t f s)

/-- XOR_IMM (R184). -/
def execXorImm (b : BayId) (t : Thread) (f : SFields) (s : State) : Res :=
  .next (opAluImm .xorImm .xor b t f s)

/-- SHL_IMM (R184). -/
def execShlImm (b : BayId) (t : Thread) (f : SFields) (s : State) : Res :=
  .next (opAluImm .shlImm .shl b t f s)

/-- SHR_IMM (R184). -/
def execShrImm (b : BayId) (t : Thread) (f : SFields) (s : State) : Res :=
  .next (opAluImm .shrImm .shr b t f s)

/-- SRA_IMM (R184). -/
def execSraImm (b : BayId) (t : Thread) (f : SFields) (s : State) : Res :=
  .next (opAluImm .sraImm .sra b t f s)

/-- SLT_IMM (R184). -/
def execSltImm (b : BayId) (t : Thread) (f : SFields) (s : State) : Res :=
  .next (opAluImm .sltImm .slt b t f s)

/-- SLTU_IMM (R184). -/
def execSltuImm (b : BayId) (t : Thread) (f : SFields) (s : State) : Res :=
  .next (opAluImm .sltuImm .sltu b t f s)

/-- SEQ_IMM (R184). -/
def execSeqImm (b : BayId) (t : Thread) (f : SFields) (s : State) : Res :=
  .next (opAluImm .seqImm .seq b t f s)

/-- MIN_IMM (R184). -/
def execMinImm (b : BayId) (t : Thread) (f : SFields) (s : State) : Res :=
  .next (opAluImm .minImm .min b t f s)

/-- MAX_IMM (R184). -/
def execMaxImm (b : BayId) (t : Thread) (f : SFields) (s : State) : Res :=
  .next (opAluImm .maxImm .max b t f s)

/-- MINU_IMM (R184). -/
def execMinuImm (b : BayId) (t : Thread) (f : SFields) (s : State) : Res :=
  .next (opAluImm .minuImm .minu b t f s)

/-- MAXU_IMM (R184). -/
def execMaxuImm (b : BayId) (t : Thread) (f : SFields) (s : State) : Res :=
  .next (opAluImm .maxuImm .maxu b t f s)

/-- LI (R184). -/
def execLi (b : BayId) (t : Thread) (f : SFields) (s : State) : Res :=
  .next (opScalar .li (fun _ => sext32 f.imm) b t f s)

/-- LIH (R184). -/
def execLih (b : BayId) (t : Thread) (f : SFields) (s : State) : Res :=
  .next (opScalar .lih (fun r => f.imm ++ (r.getG f.ga).setWidth 32) b t f s)

/-- MUL (R184). -/
def execMul (b : BayId) (t : Thread) (f : SFields) (s : State) : Res :=
  .next (opMul .mul .mul b t f s)

/-- MULH (R184). -/
def execMulh (b : BayId) (t : Thread) (f : SFields) (s : State) : Res :=
  .next (opMul .mulh .mulh b t f s)

/-- MULHU (R184). -/
def execMulhu (b : BayId) (t : Thread) (f : SFields) (s : State) : Res :=
  .next (opMul .mulhu .mulhu b t f s)

/-- DIV (R184). -/
def execDiv (b : BayId) (t : Thread) (f : SFields) (s : State) : Res :=
  .next (opMul .div .div b t f s)

/-- DIVU (R184). -/
def execDivu (b : BayId) (t : Thread) (f : SFields) (s : State) : Res :=
  .next (opMul .divu .divu b t f s)

/-- REM (R184). -/
def execRem (b : BayId) (t : Thread) (f : SFields) (s : State) : Res :=
  .next (opMul .rem .rem b t f s)

/-- REMU (R184). -/
def execRemu (b : BayId) (t : Thread) (f : SFields) (s : State) : Res :=
  .next (opMul .remu .remu b t f s)

/-- LB (R184). -/
def execLb (b : BayId) (t : Thread) (f : SFields) (s : State) : Res :=
  .next (opLoad .lb 1 true b t f s)

/-- LH (R184). -/
def execLh (b : BayId) (t : Thread) (f : SFields) (s : State) : Res :=
  .next (opLoad .lh 2 true b t f s)

/-- LW (R184). -/
def execLw (b : BayId) (t : Thread) (f : SFields) (s : State) : Res :=
  .next (opLoad .lw 4 true b t f s)

/-- LD (R184). -/
def execLd (b : BayId) (t : Thread) (f : SFields) (s : State) : Res :=
  .next (opLoad .ld 8 true b t f s)

/-- LBU (R184). -/
def execLbu (b : BayId) (t : Thread) (f : SFields) (s : State) : Res :=
  .next (opLoad .lbu 1 false b t f s)

/-- LHU (R184). -/
def execLhu (b : BayId) (t : Thread) (f : SFields) (s : State) : Res :=
  .next (opLoad .lhu 2 false b t f s)

/-- LWU (R184). -/
def execLwu (b : BayId) (t : Thread) (f : SFields) (s : State) : Res :=
  .next (opLoad .lwu 4 false b t f s)

/-- SB (R184). -/
def execSb (b : BayId) (t : Thread) (f : SFields) (s : State) : Res :=
  .next (opStore .sb 1 b t f s)

/-- SH (R184). -/
def execSh (b : BayId) (t : Thread) (f : SFields) (s : State) : Res :=
  .next (opStore .sh 2 b t f s)

/-- SW (R184). -/
def execSw (b : BayId) (t : Thread) (f : SFields) (s : State) : Res :=
  .next (opStore .sw 4 b t f s)

/-- SD (R184). -/
def execSd (b : BayId) (t : Thread) (f : SFields) (s : State) : Res :=
  .next (opStore .sd 8 b t f s)

/-- BEQ (R184). -/
def execBeq (b : BayId) (t : Thread) (f : SFields) (s : State) : Res :=
  .next (opBranch .beq .eq b t f s)

/-- BNE (R184). -/
def execBne (b : BayId) (t : Thread) (f : SFields) (s : State) : Res :=
  .next (opBranch .bne .ne b t f s)

/-- BLT (R184). -/
def execBlt (b : BayId) (t : Thread) (f : SFields) (s : State) : Res :=
  .next (opBranch .blt .lt b t f s)

/-- BGE (R184). -/
def execBge (b : BayId) (t : Thread) (f : SFields) (s : State) : Res :=
  .next (opBranch .bge .ge b t f s)

/-- BLTU (R184). -/
def execBltu (b : BayId) (t : Thread) (f : SFields) (s : State) : Res :=
  .next (opBranch .bltu .ltu b t f s)

/-- BGEU (R184). -/
def execBgeu (b : BayId) (t : Thread) (f : SFields) (s : State) : Res :=
  .next (opBranch .bgeu .geu b t f s)

/-- JAL (R184). -/
def execJal (b : BayId) (t : Thread) (f : SFields) (s : State) : Res :=
  .next (opJal b t f s)

/-- JALR (R184). -/
def execJalr (b : BayId) (t : Thread) (f : SFields) (s : State) : Res :=
  .next (opJalr b t f s)

/-- SETVL (R184). -/
def execSetvl (b : BayId) (t : Thread) (f : SFields) (s : State) : Res :=
  .next (opSetvl b t f s)

/-- RDSYS (R184). -/
def execRdsys (b : BayId) (t : Thread) (f : SFields) (s : State) : Res :=
  .next (opRdsys b t f s)

/-- RESERVED_ENCODING (R177). -/
def execReservedEncoding (b : BayId) (t : Thread) (w : Word) (s : State) : Res :=
  .next (opReserved s b t w)

end Sys2Proof.Machine
end

