-- ==== Sys2Proof/Machine/Pairs.lean ====
section
/-! DEFINITION. The fabric's core: coordinates and ports (R280, R281), routing, detours and rungs (R283 to R285, R305), injection
of packets, and the source side of a pair (R293, R294, R296 to R299). -/

namespace Sys2Proof.Machine

/-! ### Memory accesses on the device's own account -/

/-- A read that the Ledger or a fabric engine makes on the device's own account, under the MSC class (R486, R493). -/
def State.ownRead (s : State) (src a n : Nat) : State × Code × List Byte :=
  if !s.mapped a n then (s, cRANGE, [])
  else
    let c := s.checkAccess .msc s.devCoord permR a n
    if c.2 then c.1.devRead src a n else (c.1, cACCESS_DENIED, [])

/-- A write on the device's own account, under the MSC class. -/
def State.ownWrite (s : State) (src a : Nat) (bs : List Byte) : State × Code :=
  if !s.mapped a bs.length then (s, cRANGE)
  else
    let c := s.checkAccess .msc s.devCoord permW a bs.length
    if c.2 then c.1.devWrite src a bs else (c.1, cACCESS_DENIED)

/-! ### Message slots -/

/-- A slot of a bay. -/
def Bay.slot (y : Bay) (i : Nat) : Option Slot := smapGet (fun _ => none) y.slots i

/-- A bay with a slot replaced. -/
def Bay.setSlot (y : Bay) (i : Nat) (x : Option Slot) : Bay := { y with slots := smapSet (fun _ => none) y.slots i x }

/-- `s` with a slot of a bay replaced. -/
def State.setSlot (s : State) (b : BayId) (i : Nat) (x : Option Slot) : State := s.updBay b fun y => y.setSlot i x

/-- Endpoint that serves a device address in another device: the bay whose memory it is, else a header engine. -/
def servingEp (a : Nat) : Nat := if regionOf a = .bay then (a - bayMemBase) / 0x100000 else dmaEp

/-! ### Coordinates and ports -/

/-- Device part of an endpoint coordinate (R8). -/
def devOf (c : BitVec 28) : DevCoord := c.extractLsb' 12 16

/-- Endpoint part of an endpoint coordinate (R8). -/
def epOf (c : BitVec 28) : Nat := (c.extractLsb' 0 12).toNat

/-- Endpoint coordinate of an endpoint of a device (R8). -/
def coordOf (d : DevCoord) (ep : Nat) : BitVec 28 := d ++ BitVec.ofNat 12 ep

/-- The field of a device coordinate that level `l` compares: slot, tray, rack, row (R279). -/
def levelField (l : Nat) (d : DevCoord) : Nat :=
  match l with
  | 0 => fieldOf (d.setWidth 64) 0 3
  | 1 => fieldOf (d.setWidth 64) 3 3
  | 2 => fieldOf (d.setWidth 64) 6 4
  | _ => fieldOf (d.setWidth 64) 10 6

/-- The highest level whose field differs (R283). -/
def topLevel (x d : DevCoord) : Nat :=
  if levelField 3 x ≠ levelField 3 d then 3
  else if levelField 2 x ≠ levelField 2 d then 2
  else if levelField 1 x ≠ levelField 1 d then 1 else 0

/-- The stage between two devices (R284). -/
def stageOf (x d : DevCoord) : Nat :=
  ([1, 2, 3].filter fun l => levelField l x != levelField l d).length

/-- Level of port `p` under a port profile (R280). -/
def portLevel (prof p : Nat) : Nat :=
  if p < 7 then 0
  else
    match prof with
    | 1 => if p < 13 then 1 else 2
    | 2 => 1
    | 3 => if p < 11 then 1 else if p < 14 then 2 else 3
    | _ => if p < 12 then 1 else if p < 15 then 2 else 3

/-- The tray port of this device that faces a slot (R281). -/
def State.trayPort (s : State) (slot : Nat) : Nat := (slot + 15 - levelField 0 s.devCoord) % 8

/-- A port by number. -/
def State.port (s : State) (p : Nat) : Port := smapGet (fun _ => Port.reset) s.fab.ports p

/-- `s` with a port replaced. -/
def State.setPort (s : State) (p : Nat) (x : Port) : State :=
  { s with fab := { s.fab with ports := smapSet (fun _ => Port.reset) s.fab.ports p x } }

/-- The port carries traffic. -/
def State.portUp (s : State) (p : Nat) : Bool := s.getF (Fld.ABR_PORT_STATUS_UP p) == 1

/-! ### Routing -/

/-- Where a packet goes next. -/
inductive Hop where
  | deliver
  /-- out of a port, arriving with a kind (R285) -/
  | send (port kind : Nat)
  /-- it cannot be forwarded; the port that was down, if one was (R299) -/
  | lost (port : Option Nat)
  /-- its port is neither up nor down (R292): it waits for the port to come up -/
  | wait
  deriving DecidableEq, Repr

/-- Number of the `n`-th set bit of a port mask. -/
def nthPort (mask n : Nat) : Nat := (((List.range 16).filter fun i => mask.testBit i)[n]?).getD 0

/-- A packet offered to a port with a kind: its rung must lie below the rung it arrived in (R285), and the port must be up. -/
def State.offer (s : State) (by_ : ArrivedBy) (d : DevCoord) (port kind : Nat) : Hop :=
  let peer : DevCoord := BitVec.ofNat 16 (s.getF (Fld.ABR_PORT_STATUS_PEER_DEV port))
  let here := stageOf s.devCoord d
  let fits := match by_ with
    | .here => true
    | .rung k => decide (4 * stageOf peer d + kind < 4 * here + k)
  if s.portUp port && fits then .send port kind else .lost none

/-- A tray hop's kind: onward from a detour it is 0 (R285). -/
def trayKind (by_ : ArrivedBy) : Nat :=
  match by_ with
  | .rung 1 => 0
  | .rung 0 => 0
  | _ => 2

/-- The detour of a route whose port is down (R305): the table entries the port took when it went down. -/
def State.detour (s : State) (by_ : ArrivedBy) (d : DevCoord) (port level value : Nat) : Hop :=
  let e := smapGet (fun _ => (0 : Word)) (s.port port).detours (level * 64 + value)
  match fieldOf e 62 2 with
  | 1 =>
    let alt := fieldOf e 4 4
    let kind := if portLevel (s.getF Fld.ABR_CTRL_PROF) alt = 0 then trayKind by_ else 3
    match s.offer by_ d alt kind with
    | .lost _ => .lost (some port)
    | h => h
  | 2 =>
    match s.offer by_ d (s.trayPort (fieldOf e 0 3)) 1 with
    | .lost _ => .lost (some port)
    | h => h
  | _ => .lost (some port)

/-- The route of a packet (R283); in bench mode no other device is reached (R542). -/
def State.route (s : State) (by_ : ArrivedBy) (src dst : DevCoord) : Hop :=
  let x := s.devCoord
  if x = dst then .deliver
  else if s.getF Fld.MSC_STATE_BENCH = 1 then .lost none
  else
    let l := topLevel x dst
    let v := levelField l dst
    let choose := fun (port kind : Nat) =>
      if s.getF (Fld.ABR_PORT_STATUS_DOWN port) = 1 then s.detour by_ dst port l v
      else if s.portUp port then s.offer by_ dst port kind else .wait
    if l = 0 then choose (s.trayPort v) (trayKind by_)
    else
      let e := s.reg (RegId.ABR_LEVEL.addr l v)
      if e.getLsbD 63 = false then .lost none
      else
        let mask := ((List.range 16).filter fun p =>
          (fieldOf e 0 16).testBit p && portLevel (s.getF Fld.ABR_CTRL_PROF) p == l).foldl (fun m p => m + 2 ^ p) 0
        if mask ≠ 0 then
          let h := src ^^^ dst
          let h8 := (h.extractLsb' 8 8 ^^^ h.extractLsb' 0 8).toNat
          choose (nthPort mask (h8 % ((List.range 16).filter fun i => mask.testBit i).length)) 3
        else choose (s.trayPort (fieldOf e 32 3)) (trayKind by_)

/-- Virtual channel of a packet type (R288). -/
def vcOfType (t : Nat) : Nat :=
  if t < 3 then 3 else if t = 3 then 1 else if t < 6 then 2 else 0

/-- The header whose engine holds a packet that leaves this device: that of the port it is routed to. -/
def State.headerFor (s : State) (src dst : DevCoord) : Nat :=
  match s.route .here src dst with
  | .send p _ => p / 8
  | _ => 0

/-- A packet handed to a fabric engine. -/
def State.hold (s : State) (h : Nat) (x : Held) : State :=
  { s with fab := if h = 0 then { s.fab with held0 := s.fab.held0 ++ [x] } else { s.fab with held1 := s.fab.held1 ++ [x] } }

/-- A packet formed in this device handed to a fabric engine, with its stage (R284). -/
def State.inject (s : State) (p : Packet) : State :=
  let p := { p with stage := BitVec.ofNat 2 (stageOf s.devCoord (devOf p.dst)) }
  s.hold (s.headerFor (devOf p.src) (devOf p.dst)) { p := p, by_ := .here, space := none, first := false }

/-- A packet with every field zero but its type, ends and epoch. -/
def State.blankPacket (s : State) (type : BitVec 4) (srcEp : Nat) (dst : BitVec 28) : Packet :=
  { type := type, vc := BitVec.ofNat 2 (vcOfType type.toNat), ce := 0, ece := 0, dst := dst
    src := coordOf s.devCoord srcEp, seq := 0, ackSeq := 0, status := 0, pinc := 0, opn := 0, hops := 0, stage := 0
    plen := 0, smark := 0, addr := 0, epoch := BitVec.ofNat 32 (s.getF Fld.ABR_EPOCH_CURRENT), gen := 0, slot := 0, aop := 0
    z := 0, chunkHdr := [], payload := [] }

/-- Kinds of content of NOTICE and PLUMB packets (R288), as `Config.noteWords` numbers them. -/
inductive NoteKind where
  | join
  | slow
  | abort
  | tally
  | release
  | done
  | credit
  | plumbProgram
  | plumbStrip
  | plumbChunk
  | plumbRing
  | plumbReport
  | plumbStop
  | plumbAsk
  deriving DecidableEq, Repr

/-- Number of a kind of content. -/
def NoteKind.code : NoteKind → Nat
  | .join => 0 | .slow => 1 | .abort => 2 | .tally => 3 | .release => 4 | .done => 5 | .credit => 6
  | .plumbProgram => 7 | .plumbStrip => 8 | .plumbChunk => 9 | .plumbRing => 10 | .plumbReport => 11 | .plumbStop => 12 | .plumbAsk => 13

/-- The payload of a NOTICE or PLUMB packet: the words an implementation chooses for what it carries, at most the nine of a 128 B
frame (R286, R288; log entry 76). -/
def notePayload (k : NoteKind) (fs : List Nat) : List Byte :=
  ((Config.noteWords k.code fs).take 9).flatMap fun w => leBytes 8 w.toNat

/-- A NOTICE (type 9) or PLUMB (type 0xB) packet formed (R288). -/
def State.sendNote (s : State) (type : BitVec 4) (srcEp : Nat) (dst : BitVec 28) (k : NoteKind) (fs : List Nat) : State :=
  let bs := notePayload k fs
  s.inject { s.blankPacket type srcEp dst with plen := BitVec.ofNat 9 (bs.length / 8), payload := bs }

/-- A delivered packet of a type and content taken by its arrival. -/
def State.takeNote (s : State) (type : BitVec 4) (dstEp : Nat) (k : NoteKind) (fs : List Nat) : State :=
  { s with fab := { s.fab with arrived := s.fab.arrived.eraseP fun p =>
    p.type == type && p.dst == coordOf s.devCoord dstEp && p.payload == notePayload k fs } }

/-! ### Failures (R315) -/

/-- A fabric failure recorded while none is held (R315). -/
def State.fabLog (s : State) (code : Code) (d : DevCoord) (port : Nat) : State :=
  if s.getF Fld.ABR_FAB_ERR_VALID = 1 then s
  else s.setFs [(Fld.ABR_FAB_ERR_VALID, 1), (Fld.ABR_FAB_ERR_CODE, code.toNat), (Fld.ABR_FAB_ERR_DEST_DEV, d.toNat),
    (Fld.ABR_FAB_ERR_PORT, port)]

/-- A fabric failure counted and, while none is held, recorded (R14, R315). -/
def State.fabErr (s : State) (code : Code) (d : DevCoord) (port : Nat) : State :=
  (s.incF Fld.ABR_FAB_ERR_CNT_COUNT).fabLog code d port

/-! ### The source side of a pair -/

/-- A sequence number is covered by an acknowledgement, modulo 2¹⁶ within half the range. -/
def seqCovered (seq ack : BitVec 16) : Bool := decide ((ack - seq).toNat < 32768)

/-- The source state of the pair to a device. -/
def Fabric.src (f : Fabric) (d : DevCoord) : Option PairSrc := f.srcs.find? fun p => p.dev == d

/-- The fabric with a pair's source state replaced. -/
def Fabric.setSrc (f : Fabric) (x : PairSrc) : Fabric :=
  { f with srcs := if f.srcs.any fun p => p.dev == x.dev then f.srcs.map fun p => if p.dev = x.dev then x else p
                   else f.srcs ++ [x] }

/-- `s` with a pair's source state replaced. -/
def State.setSrc (s : State) (x : PairSrc) : State := { s with fab := s.fab.setSrc x }

/-- A request that ended outside an acknowledgement; one that a lost link fails changes bits (R383). -/
def State.endReq (s : State) (r : Req) (c : Code) : State :=
  let s := if c = cLINK_LOST then s.bitsEvent cLINK_LOST else s
  { s with fab := { s.fab with ended := s.fab.ended ++ [(r, c)] } }

/-- The SRC code of R273 under which an originating engine reads. -/
def Origin.ueSrc : Origin → Nat
  | .msg _ _ _ => 0
  | .chunk _ _ _ _ _ _ => 0
  | .dispatch _ _ _ => 0
  | .dma _ => 1
  | .ledger _ => 3

/-- Bytes filled up to whole 8-byte units of PLEN (R287) with open values: the spec does not say what the rest of the last unit holds
(log entry 76). -/
def State.padded (s : State) (bs : List Byte) : State × List Byte :=
  if bs.length % 8 = 0 then (s, bs)
  else
    let d := s.draw
    (d.1, bs ++ (List.range (8 - bs.length % 8)).map fun i => Config.freeByte d.2 i)

/-- The payload of a sequenced packet, read at its originating engine (R297): the code of the read and the bytes. -/
def State.payloadOf (s : State) (r : Req) : State × Code × List Byte :=
  if r.type = 1 ∨ r.type = 3 then (s, cDONE, [])
  else if r.given ≠ [] then
    let x := s.padded r.given
    (x.1, cDONE, x.2)
  else
    let x := s.devRead r.org.ueSrc r.data r.len
    let y := x.1.padded x.2.2
    (y.1, x.2.1, y.2)

/-- The packet of a request with its place in the pair's sequence (R287). -/
def State.packetOf (s : State) (x : PairSrc) (r : Req) (seq : BitVec 16) (opens : Bool) (data : List Byte) : Packet :=
  { s.blankPacket r.type r.srcEp (coordOf x.dev r.dstEp) with
    seq := seq, pinc := x.pinc, opn := if opens then 1 else 0, plen := BitVec.ofNat 9 (if r.type = 3 then (r.len + 7) / 8 else data.length / 8)
    addr := r.addr
    slot := BitVec.ofNat 8 r.slot, smark := if r.type = 3 then BitVec.ofNat 16 (r.data / 2048) else 0
    chunkHdr := r.hdr, payload := data }

/-- The AMO_REQ of a slot (R287, R303): its payload is the operand and the compare value. -/
def State.amoReq (s : State) (b : BayId) (i : Nat) (x : Slot) : Packet :=
  let a := fieldOf x.dest 0 48
  { s.blankPacket 6 b.toNat (coordOf x.dev (servingEp a)) with
    smark := x.smark, pinc := x.spinc, addr := BitVec.ofNat 48 a, gen := x.gen, slot := BitVec.ofNat 8 i, aop := x.aop, plen := 2
    payload := leBytes 8 x.x.toNat ++ leBytes 8 x.cmp.toNat }

/-- The atomic that a request of type 6 stands for leaves, with the SEQ last sent to its device (R303): its first send (R309). -/
def State.sendAmo (s : State) (r : Req) (smark : BitVec 16) (pinc : BitVec 8) : State :=
  match r.org with
  | .msg b i ord =>
    match (s.bay b).slot i with
    | none => s
    | some x =>
      if x.ord ≠ ord then s
      else
        let x := { x with smark := smark, spinc := pinc, first := s.now }
        let s := s.updBay b fun y => y.setSlot i (some x)
        s.inject (s.amoReq b i x)
  | _ => s

/-- The data of a request lies in bay memory whose clocks do not run: it waits (R30). -/
def State.reqWaits (s : State) (r : Req) : Bool :=
  s.clockOff && r.given.isEmpty && !(r.type == 1 || r.type == 3 || r.type == 6) && regionOf r.data == .bay

/-- Waiting packets of a pair sent while the window has room (R296). A packet whose data cannot be read ends its request, and
the packets of the request behind it are not sent (R63). An atomic leaves in its turn and takes no place in the window (R303). -/
def State.pump (s : State) (d : DevCoord) : Nat → State
  | 0 => s
  | n + 1 =>
    match s.fab.src d with
    | none => s
    | some x =>
      match x.waiting with
      | [] => s
      | r :: rest =>
        if r.type = 6 then ((s.setSrc { x with waiting := rest }).sendAmo r (x.next - 1) x.pinc).pump d n
        else if x.window ≤ x.unacked.length ∨ s.reqWaits r then s
        else
          let q := s.payloadOf r
          if q.2.1 ≠ cDONE then
            let s := q.1.setSrc { x with waiting := rest.filter fun r' => r'.org != r.org }
            (s.endReq r q.2.1).pump d n
          else
            let p := q.1.packetOf x r x.next x.opens q.2.2
            let s := q.1.setSrc { x with
              next := x.next + 1, opens := false, waiting := rest, unacked := x.unacked ++ [(x.next, r)], last := q.1.now }
            (s.inject p).pump d n

/-- All that waits at a pair offered to its window. -/
def State.pumpAll (s : State) (d : DevCoord) : State :=
  match s.fab.src d with
  | some x => s.pump d x.waiting.length
  | none => s

/-- A pair may be retired (R293). -/
def PairSrc.idle (x : PairSrc) (now : Nat) : Bool :=
  x.unacked.isEmpty && x.waiting.isEmpty && !x.broken && decide (x.last + 16000000 < now)

/-- Room made for a new pair: one retired where all 16,384 are in use (R293). -/
def Fabric.roomForPair (f : Fabric) (now : Nat) : Option Fabric :=
  if f.srcs.length < 16384 then some f
  else
    match f.srcs.find? fun x => x.idle now with
    | some x =>
      some { f with
        srcs := f.srcs.filter fun y => y.dev != x.dev
        pincs := smapSet (fun _ => 0) f.pincs x.dev.toNat (x.pinc + 1) }
    | none => none

/-- A new pair to a device: SEQ 0, a window of 128, and its incarnation (R294, R296, R298). -/
def Fabric.newPair (f : Fabric) (d : DevCoord) (now : Nat) : PairSrc :=
  { dev := d, pinc := smapGet (fun _ => 0) f.pincs d.toNat, next := 0, opens := true, unheard := true, window := 128, unacked := []
    waiting := [], broken := false, roundEnd := 0, echoed := false, last := now }

/-- Requests handed to the pair of a device, in order (R293, R298): a broken pair fails them, and an atomic to a device without a pair
leaves at once. -/
def State.sendNow (s : State) (d : DevCoord) (rs : List Req) : State :=
  match s.fab.src d with
  | some x =>
    if x.broken then rs.foldl (fun s r => s.endReq r cLINK_LOST) s
    else (s.setSrc { x with waiting := x.waiting ++ rs }).pumpAll d
  | none =>
    if rs.all fun r => r.type == 6 then rs.foldl (fun s r => s.sendAmo r 0xFFFF (smapGet (fun _ => 0) s.fab.pincs d.toNat)) s
    else
      match s.fab.roomForPair s.now with
      | none => { s with fab := { s.fab with stalled := s.fab.stalled ++ rs.map fun r => (d, r) } }
      | some f =>
        ({ s with fab := f.setSrc { f.newPair d s.now with waiting := rs } }).pumpAll d

/-- Requests to a device behind those to it that wait for room (R293, R302). -/
def State.sendReqs (s : State) (d : DevCoord) (rs : List Req) : State :=
  if s.fab.stalled.any fun e => e.1 == d then { s with fab := { s.fab with stalled := s.fab.stalled ++ rs.map fun r => (d, r) } }
  else s.sendNow d rs

/-- Traffic that waited for room for its pair is handed on, in order (R293). -/
def State.unstall (s : State) : Nat → State
  | 0 => s
  | n + 1 =>
    match s.fab.stalled with
    | [] => s
    | e :: rest =>
      if (s.fab.src e.1).isNone ∧ (s.fab.roomForPair s.now).isNone then s
      else (({ s with fab := { s.fab with stalled := rest } }).sendNow e.1 [e.2]).unstall n

/-- A pair broken (R298, R299): its requests end with LINK_LOST, the failure is recorded and counted; a device without a pair gets
one, which is broken. A failure to a device whose pair is broken already is counted too (R14, R315). -/
def State.breakPair (s : State) (d : DevCoord) (code : Code) (port : Nat) : State :=
  let s := (({ s with fab := { s.fab with lost := s.fab.lost ++ [d] } }).fabErr code d port).bitsEvent cLINK_LOST
  let fab := if (s.fab.src d).isSome then some s.fab
    else (s.fab.roomForPair s.now).map fun f => f.setSrc (f.newPair d s.now)
  match fab.bind fun f => f.src d with
  | none => s
  | some x =>
    if x.broken then s
    else
      let f := fab.getD s.fab
      let rs := x.unacked.map Prod.snd ++ x.waiting ++ (f.stalled.filter fun e => e.1 == d).map Prod.snd
      let s : State := { s with fab :=
        { (f.setSrc { x with unacked := [], waiting := [], broken := true }) with stalled := f.stalled.filter fun e => e.1 != d } }
      rs.foldl (fun s r => s.endReq r cLINK_LOST) s

end Sys2Proof.Machine
end

