-- ==== Sys2Proof/Machine/Entries.lean ====
section
/-! DEFINITION. Plumb-mode entries as the bays produce them (R395 to R397): strips with their running value, and chunks; the
packets to the partner (R394, R398, R399), and which steps plumb mode matched (R390, R400). -/

namespace Sys2Proof.Machine

/-- Plumb mode compares: `LDG_PLUMB.STATE` is matching (R405). -/
def State.plumbing (s : State) : Bool := s.getF Fld.LDG_PLUMB_STATE == 2

/-- The plumb state of a bay. -/
def State.plumbBay (s : State) (b : Nat) : PlumbBay := smapGet (fun _ => PlumbBay.reset) s.ldg.plumb.bays b

/-- `s` with plumb mode changed. -/
def State.updPlumb (s : State) (f : Plumb → Plumb) : State := { s with ldg := { s.ldg with plumb := f s.ldg.plumb } }

/-- `s` with the plumb state of a bay replaced. -/
def State.setPlumbBay (s : State) (b : Nat) (x : PlumbBay) : State :=
  s.updPlumb fun p => { p with bays := smapSet (fun _ => PlumbBay.reset) p.bays b x }

/-- The bay's next strip is held: its count would reach 64 beyond the last count matched (R396). -/
def State.stripHeld (s : State) (b : BayId) : Bool :=
  s.plumbing && decide ((s.plumbBay b.toNat).matched + 64 ≤ (s.plumbBay b.toNat).count + 1)

/-- A held strip counted once in HOLDS (R405). -/
def State.noteHold (s : State) (b : BayId) : State :=
  let x := s.plumbBay b.toNat
  if x.held then s else (s.setPlumbBay b.toNat { x with held := true }).incF Fld.LDG_PLUMB_STATS_HOLDS

/-- The running value after a strip (R396). -/
def runningValue (p check : Word) : Word := crc64 (leBytes 8 p.toNat ++ leBytes 8 check.toNat)

/-- A PLUMB packet to the partner's Ledger (R288, R394). -/
def State.plumbSay (s : State) (k : NoteKind) (fs : List Nat) : State :=
  s.sendNote 0xB ledgerEp (coordOf (BitVec.ofNat 16 (s.getF Fld.LDG_PLUMB_PARTNER)) ledgerEp) k fs

/-- A PLUMB packet of the partner taken by its arrival. -/
def State.plumbHeard (s : State) (k : NoteKind) (fs : List Nat) : State := s.takeNote 0xB ledgerEp k fs

/-! ### Matched steps (R390, R400) -/

/-- Plumb mode matched a closed step: every strip of its bays and every chunk entry produced until it closed, and a match came after
it opened. -/
def State.stepMatched (s : State) (r : StepRec) : Bool :=
  r.matched || r.strips.any fun l =>
    l.all (fun e => decide (e.2 ≤ (s.plumbBay e.1).matched)) && decide (r.opened ≤ s.ldg.plumb.lastMatch)
      && s.ldg.plumb.table.all fun e => decide (r.closed < e.since)

/-- The steps matched so far stay matched, the others unmatched: nothing more is compared with them. -/
def State.settleSteps (s : State) : State :=
  { s with ldg := { s.ldg with history := s.ldg.history.map fun r => { r with matched := s.stepMatched r, strips := none } } }

/-! ### Divergence (R398, R399) -/

/-- Kinds of a divergence (KIND of R405). -/
inductive PlumbKind where
  | strip
  | chunk
  | unmatched
  | program
  deriving DecidableEq, Repr

/-- KIND code. -/
def PlumbKind.code : PlumbKind → Nat
  | .strip => 0
  | .chunk => 1
  | .unmatched => 2
  | .program => 3

/-- The smallest multiple of 65,536 at least 20,000 ticks from now (R399). -/
def State.ownStop (s : State) : Nat := (s.now + 20000 + 65535) / 65536 * 65536

/-- A stop mark taken: the earlier of those known (R399). -/
def State.takeStop (s : State) (mark : Nat) : State :=
  let old := s.getF Fld.LDG_PLUMB_STOP_MARK
  s.setF Fld.LDG_PLUMB_STOP_MARK (if old = 0 then mark else min old mark)

/-- The device's own stop mark chosen and sent to the partner; the earlier mark is in force (R399). -/
def State.chooseStop (s : State) : State := (s.takeStop s.ownStop).plumbSay .plumbStop [s.ownStop]

/-- The reports sent to the partner (R398). -/
def State.sendReport (s : State) : State :=
  s.plumbSay .plumbReport ([RegId.LDG_PLUMB_REP0, .LDG_PLUMB_REP1, .LDG_PLUMB_REP2].map fun r => (s.reg r.addr).toNat)

/-- A divergence found: counted, its report filled while none is held, a stop mark chosen, and both sent (R398, R399, R405). -/
def State.diverge (s : State) (kind : PlumbKind) (bay step lo hi idx seq group : Nat) : State :=
  let s := s.settleSteps.incF Fld.LDG_PLUMB_STATS_DIVERGE_CNT
  let s := if s.getF Fld.LDG_PLUMB_REP0_VALID = 1 then s
    else s.setFs [(Fld.LDG_PLUMB_REP0_VALID, 1), (Fld.LDG_PLUMB_REP0_KIND, kind.code), (Fld.LDG_PLUMB_REP0_BAY, bay),
      (Fld.LDG_PLUMB_REP0_STEP, step), (Fld.LDG_PLUMB_REP1_OFF_LO, lo), (Fld.LDG_PLUMB_REP1_OFF_HI, hi),
      (Fld.LDG_PLUMB_REP1_INDEX, idx), (Fld.LDG_PLUMB_REP2_SEQ, seq), (Fld.LDG_PLUMB_REP2_GROUP, group)]
  ((s.setF Fld.LDG_PLUMB_CODE cPLUMB_DIVERGED.toNat).sendReport).chooseStop

/-- A divergence at a chunk entry. -/
def State.divergeChunk (s : State) (kind : PlumbKind) (e : PlumbEntry) : State :=
  s.diverge kind e.chunk.bay.toNat e.step e.chunk.offLo.toNat e.chunk.offHi.toNat e.chunk.idx.toNat e.chunk.seq.toNat
    e.chunk.group.toNat

/-! ### Strips (R396) -/

/-- The running value of a bay at a count, where the ring still holds it; P₀ is 0. -/
def PlumbBay.valueAt (x : PlumbBay) (n : Nat) : Option Word :=
  if n = 0 then some 0 else (x.ring.find? fun e => e.1.n + 1 == n).map fun e => e.1.p

/-- The partner's pairs that the bay's own count has reached. -/
def PlumbBay.due (x : PlumbBay) : List (Nat × Word) := x.theirs.filter fun p => decide (p.1 ≤ x.count)

/-- A running value of the bay's own differs from one of those pairs (R398). -/
def PlumbBay.differs (x : PlumbBay) : Bool := x.due.any fun p => (x.valueAt p.1).any fun v => v != p.2

/-- The partner's pairs that the bay's own count has reached compared: an equal value is a match (R396). -/
def PlumbBay.compare (x : PlumbBay) : PlumbBay :=
  { x with
    theirs := x.theirs.filter fun p => decide (x.count < p.1)
    matched := x.due.foldl (fun m p => if x.valueAt p.1 = some p.2 then max m p.1 else m) x.matched }

/-- The plumb state of a bay with its due pairs compared: a match is noted, and a value that differs makes the device ask the partner
for its ring entries of the bay (R396, R398). -/
def State.comparePairs (s : State) (b : Nat) (x : PlumbBay) : State :=
  let y := x.compare
  let s := s.setPlumbBay b y
  let s := if x.matched < y.matched then s.updPlumb fun p => { p with lastMatch := s.now } else s
  if x.differs then s.plumbSay .plumbAsk [b] else s

/-- A strip that completes (R395, R396): the bay's count, running value and ring of 64. -/
def State.strip (s : State) (b : BayId) (any : Bool) (check : Word) (lo hi : Nat) : State :=
  if !s.plumbing || !any then s
  else
    let x := s.plumbBay b.toNat
    let p := runningValue x.p check
    let e : PlumbStrip := { n := x.count, check := check, p := p, offLo := BitVec.ofNat 20 lo, offHi := BitVec.ofNat 20 hi }
    s.comparePairs b.toNat
      { x with count := x.count + 1, p := p, ring := ((e, s.getF Fld.LDG_STEP_NUMBER) :: x.ring).take 64, held := false }

/-- The table of unmatched chunk entries is full (R397). -/
def State.plumbFull (s : State) : Bool := s.plumbing && decide (8192 ≤ s.ldg.plumb.table.length)

/-- A chunk held because the table is full, counted once in HOLDS. -/
def State.chunkHold (s : State) (k : ChunkKey) : Option State :=
  if s.ldg.plumb.held.contains k then none
  else some ((s.updPlumb fun p => { p with held := p.held ++ [k] }).incF Fld.LDG_PLUMB_STATS_HOLDS)

/-- The key of a chunk entry. -/
def keyOf (c : PlumbChunk) : ChunkKey := ⟨c.bay, c.group, c.seq, c.idx⟩

/-- The entry of a chunk: its key, its seam check and the offsets of its bytes. -/
def chunkOf (k : ChunkKey) (check : Word) (o n : Nat) : PlumbChunk :=
  { bay := k.bay, group := k.group, seq := k.seq, idx := k.idx, check := check, offLo := BitVec.ofNat 20 o
    offHi := BitVec.ofNat 20 (o + n - 1) }

/-- The words of a ring entry in its packet. -/
def ringWords (b : Nat) (e : PlumbStrip) : List Nat := [b, e.n, e.check.toNat, e.p.toNat, e.offLo.toNat, e.offHi.toNat]

/-- The ring entries of a bay after the last matched count sent to the partner, oldest first (R398). -/
def State.sendRing (s : State) (b : Nat) : State :=
  let x := s.plumbBay b
  ((x.ring.filter fun e => decide (x.matched ≤ e.1.n)).reverse).foldl (fun s e => s.plumbSay .plumbRing (ringWords b e.1)) s

/-- A chunk entry against the table of unmatched entries (R397): one of the other device with the same key is compared and both go;
otherwise it is kept. -/
def State.meetEntry (s : State) (e : PlumbEntry) : State :=
  match s.ldg.plumb.table.find? fun x => x.own != e.own && keyOf x.chunk == keyOf e.chunk with
  | some x =>
    let s := if x.chunk.check = e.chunk.check then s.updPlumb fun p => { p with lastMatch := s.now }
      else s.divergeChunk .chunk (if e.own then e else x)
    s.updPlumb fun p => { p with table := p.table.filter fun y => !(y.own != e.own && keyOf y.chunk == keyOf e.chunk) }
  | none => s.updPlumb fun p => { p with table := p.table ++ [e] }

/-- A chunk that the bay sends enters the next batch and the table of unmatched entries (R395, R397). -/
def State.chunkEntry (s : State) (c : PlumbChunk) : State :=
  if !s.plumbing then s
  else
    (s.updPlumb fun p => { p with toSend := p.toSend ++ [c], held := p.held.filter fun k => k != keyOf c }).meetEntry
      { chunk := c, own := true, step := s.getF Fld.LDG_STEP_NUMBER, since := s.now }

end Sys2Proof.Machine
end

