-- ==== Sys2Proof/Machine/Sfu.lean ====
section
/-! DEFINITION. The special-function unit (R164, R165). The exact result is bracketed in fixed-point arithmetic of 512
fraction bits; the unit gives one of the binary32 values within 1 ulp of it, chosen by `Config.sfuPick`, which is open. -/

namespace Sys2Proof.Machine

/-- The approximated functions of the special-function unit. -/
inductive SfuFn where
  | exp2
  | log2
  | rcp
  | rsqrt
  | sin
  | cos
  deriving DecidableEq, Repr

/-- Number of a function, for `Config.sfuPick`. -/
def SfuFn.num : SfuFn → Nat
  | .exp2 => 0
  | .log2 => 1
  | .rcp => 2
  | .rsqrt => 3
  | .sin => 4
  | .cos => 5

/-- Fraction bits of the bracketing arithmetic. -/
def fixBits : Nat := 512

/-- One in fixed point. -/
def fixOne : Int := 2 ^ 512

/-- Σ t^(2i+1) / (2i+1) with sign σ^i over the last `n` terms, from power `p` and index `i`: the series of atanh (σ = 1)
and atan (σ = −1), in fixed point. -/
def oddSeries (sq sigma : Int) : Nat → Int → Nat → Int
  | 0, _, _ => 0
  | n + 1, p, i => p / ((2 * i + 1 : Nat) : Int) + oddSeries sq sigma n (sigma * (p * sq / fixOne)) (i + 1)

/-- atanh t for 0 ≤ t ≤ 1/3, in fixed point. -/
def fixAtanh (t : Int) : Int := oddSeries (t * t / fixOne) 1 170 t 0

/-- atan (1/k), in fixed point. -/
def fixAtanInv (k : Nat) : Int :=
  let t := fixOne / (k : Int)
  oddSeries (t * t / fixOne) (-1) 120 t 0

/-- ln 2, in fixed point. -/
def fixLn2 : Int := 2 * fixAtanh (fixOne / 3)

/-- π, in fixed point (Machin's formula). -/
def fixPi : Int := 16 * fixAtanInv 5 - 4 * fixAtanInv 239

/-- Σ y^i σ^… / i! : the exponential series over `n` terms from term `term` with index `i`. -/
def expSeries (y : Int) : Nat → Int → Nat → Int
  | 0, _, _ => 0
  | n + 1, term, i => term + expSeries y n (term * y / fixOne / ((i + 1 : Nat) : Int)) (i + 1)

/-- e^y for 0 ≤ y < 1, in fixed point. -/
def fixExp (y : Int) : Int := expSeries y 110 fixOne 0

/-- Alternating series of sine (first index 1) and cosine (first index 0): term ← −term × y² / ((i+1)(i+2)). -/
def trigSeries (sq : Int) : Nat → Int → Nat → Int
  | 0, _, _ => 0
  | n + 1, term, i => term + trigSeries sq n (-(term * sq / fixOne / (((i + 1) * (i + 2) : Nat) : Int))) (i + 2)

/-- sin r for 0 ≤ r < 2, in fixed point. -/
def fixSin (r : Int) : Int := trigSeries (r * r / fixOne) 60 r 1

/-- cos r for 0 ≤ r < 2, in fixed point. -/
def fixCos (r : Int) : Int := trigSeries (r * r / fixOne) 60 fixOne 0

/-- A dyadic in fixed point (exact when its fraction has at most 512 bits). -/
def fixOf (neg : Bool) (m : Nat) (e : Int) : Int :=
  let v : Int := if 0 ≤ e + fixBits then ((m * 2 ^ (e + fixBits).toNat : Nat) : Int) else ((m / 2 ^ (-(e + fixBits)).toNat : Nat) : Int)
  if neg then -v else v

/-- sin and cos of a dyadic, reduced exactly modulo 2π, in fixed point. -/
def fixSinCos (neg : Bool) (m : Nat) (e : Int) : Int × Int :=
  let x := fixOf neg m e
  let half := fixPi / 2
  let q := Int.fdiv x half
  let r := x - q * half
  let s := fixSin r
  let c := fixCos r
  match (q % 4).toNat with
  | 0 => (s, c)
  | 1 => (c, -s)
  | 2 => (-s, -c)
  | _ => (-c, s)

/-- A binary32 value within 1 ulp of an exact result that lies within `err` of v × 2^(e − 512): the value is one of two
neighbours where the bracket does not contain a binary32 value, one of three where it does; `pick` chooses. `posZero`: a
zero is +0. -/
def ulpChoice (posZero : Bool) (v err e : Int) (pick : Nat) : Nat :=
  let q : Int := if v = 0 then -149 else max (floorLog v.natAbs 1 (e - fixBits) - 23) (-149)
  let sh := q - (e - fixBits)
  let unit : Int := if 0 ≤ sh then ((2 ^ sh.toNat : Nat) : Int) else 1
  let up : Int := if 0 ≤ sh then 1 else ((2 ^ (-sh).toNat : Nat) : Int)
  let lo := Int.fdiv ((v - err) * up) unit
  let hi := Int.fdiv ((v + err) * up) unit
  let n : Int := if lo = hi then lo + (pick % 2 : Nat) else hi - 1 + (pick % 3 : Nat)
  if n = 0 then Fmt.binary32.signBit (!posZero && decide (pick / 6 % 2 = 1))
  else if posZero ∧ n < 0 then 0
  else Fmt.binary32.encodeQuot false (n < 0) n.natAbs 1 q

/-- Error bound of the bracketing arithmetic, in units of 2^−512 before scaling. -/
def fixErr : Int := 2 ^ 200

/-- EXP2, LOG2, RCP, RSQRT, SIN and COS of a binary32 code (R164, R165). RCP of a negative input so small that 1/x overflows gives −∞
(DESIGN CHOICE, log entry 75: the table says 1/x, the text that overflow gives +∞). -/
def sfu32 (fn : SfuFn) (c : Nat) : Nat :=
  let x := Fmt.binary32.decode c
  let nanC := Fmt.binary32.nanCode
  let infC := Fmt.binary32.infCode
  let negInf := infC + 2 ^ 31
  let pick := Config.sfuPick fn.num c
  match fn, x with
  | _, .nan => nanC
  | .exp2, .inf s => if s then 0 else infC
  | .exp2, .fin s m e =>
    if m = 0 then Fmt.binary32.encode false (.fin false 1 0)
    else if 0 ≤ e ∨ m % 2 ^ (-e).toNat = 0 then
      -- an integer-valued input: exact (R164)
      let n : Int := if 0 ≤ e then ((m * 2 ^ (min e 20).toNat : Nat) : Int) else ((m / 2 ^ (-e).toNat : Nat) : Int)
      let k : Int := if s then -n else n
      if 128 ≤ k then infC
      else if k < -149 then 0
      else Fmt.binary32.encode false (.fin false 1 k)
    else
      let v := fixOf s m e
      let i := Int.fdiv v fixOne
      if 128 ≤ i then infC
      else if i < -200 then ulpChoice true 1 1 (-300) pick
      else ulpChoice true (fixExp ((v - i * fixOne) * fixLn2 / fixOne)) fixErr i pick
  | .log2, .inf s => if s then nanC else infC
  | .log2, .fin s m e =>
    if m = 0 then negInf
    else if s then nanC
    else
      let l := Nat.log2 m
      let t := ((m : Int) - 2 ^ l) * fixOne / ((m : Int) + 2 ^ l)
      ulpChoice false (((l : Int) + e) * fixOne + 2 * fixAtanh t * fixOne / fixLn2) fixErr 0 pick
  | .rcp, .inf s => Fmt.binary32.signBit s
  | .rcp, .fin s m e =>
    if m = 0 then (if s then negInf else infC)
    else
      let v : Int := fixOne / (m : Int)
      ulpChoice false (if s then -v else v) 1 (-e) pick
  | .rsqrt, .inf s => if s then nanC else 0
  | .rsqrt, .fin s m e =>
    if m = 0 then (if s then negInf else infC)
    else if s then nanC
    else
      let odd : Nat := if e % 2 = 0 then 0 else 1
      let v : Int := (isqrt (2 ^ 1024 / (m * 2 ^ odd)) : Nat)
      ulpChoice true v 2 (-((e - odd) / 2)) pick
  | .sin, .inf _ => nanC
  | .cos, .inf _ => nanC
  | .sin, .fin s m e => ulpChoice false (fixSinCos s m e).1 fixErr 0 pick
  | .cos, .fin s m e => ulpChoice false (fixSinCos s m e).2 fixErr 0 pick

/-- A special function in one of its formats: computed in binary32, and rounded once for a 16-bit format (R164). -/
def sfuIn (fn : SfuFn) (f : Fmt) (c : Nat) : Nat :=
  let r := sfu32 fn (Fmt.binary32.encode false (f.decode c))
  if f = .binary32 then r else f.encode false (Fmt.binary32.decode r)

/-- One lane of SINCOS.P: sin and cos of the exact product of a position and a binary32 frequency (R165). -/
def sincosLane (p : Nat) (fc : Nat) : Nat × Nat :=
  let nanC := Fmt.binary32.nanCode
  match Fmt.binary32.decode fc with
  | .nan => (nanC, nanC)
  | .inf _ => (nanC, nanC)
  | .fin s m e =>
    if 2 ^ 23 < p then (nanC, nanC)
    else
      let r := fixSinCos s (p * m) e
      let key := p * 2 ^ 32 + fc
      (ulpChoice false r.1 fixErr 0 (Config.sfuPick 6 key), ulpChoice false r.2 fixErr 0 (Config.sfuPick 7 key))

end Sys2Proof.Machine
end

