-- ==== Sys2Proof/Machine/W128.lean ====
section
/-! DEFINITION. The W128 accumulator (R126 to R130, R134, R139): grid rounding, combination, saturation events, rescaling and
conversion out. -/

namespace Sys2Proof.Machine

/-- The bits of a W128 accumulator: a 128-bit two's-complement integer, or NaR (R126). -/
abbrev W128 := BitVec 128

/-- NaR, the pattern that would be −2^127 (R126). -/
def nar : W128 := BitVec.ofNat 128 (2 ^ 127)

/-- The largest W128 integer, 2^127 − 1 (R126). -/
def w128Max : Int := 2 ^ 127 - 1

/-- An integer clamped to ±(2^127 − 1). -/
def clampW (a : Int) : Int := max (-w128Max) (min w128Max a)

/-- A window from its 10-bit two's-complement field (R132, R143). -/
def winOfBits (b : BitVec 10) : Int := b.toInt

/-- A window as its 10-bit field. -/
def winBits (w : Int) : BitVec 10 := BitVec.ofInt 10 w

/-- A finite value as an integer of the grid of window `win`, before the clamp (R127). -/
def gridRound (win : Int) (neg : Bool) (m : Nat) (e : Int) : Int :=
  let n : Int := rneScale m 1 (e - (win - 126))
  if neg then -n else n

/-- A product of two factors (R96, R127): exactly zero when a factor is zero, whatever the other is. -/
def pressProduct (x y : Num) : Num := if x.isZero || y.isZero then Num.zero else x.mul y

/-- What one accumulator element write leaves (R128, R129): the new value, whether it is a saturation event, whether that
event produces NaR, and how many nonzero products rounded to zero. -/
structure ElemWrite where
  value : W128
  event : Bool
  narEvent : Bool
  uflow : Nat
  deriving DecidableEq, Repr

/-- Running classification of the products of one element write. -/
structure ProdSum where
  nan : Bool
  pinf : Bool
  ninf : Bool
  clamped : Bool
  sum : Int
  uflow : Nat
  deriving DecidableEq, Repr

/-- One product taken into the running classification (R127). -/
def ProdSum.take (win : Int) (a : ProdSum) (p : Num) : ProdSum :=
  match p with
  | .nan => { a with nan := true }
  | .inf s => if s then { a with ninf := true } else { a with pinf := true }
  | .fin s m e =>
    let g := gridRound win s m e
    { a with
      clamped := a.clamped || decide (clampW g ≠ g)
      sum := a.sum + clampW g
      uflow := a.uflow + (if m ≠ 0 ∧ g = 0 then 1 else 0) }

/-- All products of one element write. -/
def prodSum (win : Int) (ps : List Num) : ProdSum := ps.foldl (ProdSum.take win) ⟨false, false, false, false, 0, 0⟩

/-- The rule of R128 with the event of R129, from a classified sum. -/
def elemWrite (base : W128) (a : ProdSum) : ElemWrite :=
  if base = nar then ⟨nar, false, false, a.uflow⟩
  else if a.nan || (a.pinf && a.ninf) then ⟨nar, true, true, a.uflow⟩
  else if a.pinf then ⟨BitVec.ofInt 128 w128Max, true, false, a.uflow⟩
  else if a.ninf then ⟨BitVec.ofInt 128 (-w128Max), true, false, a.uflow⟩
  else
    let t := base.toInt + a.sum
    ⟨BitVec.ofInt 128 (clampW t), a.clamped || decide (clampW t ≠ t), false, a.uflow⟩

/-- An integer added into an accumulator: ACC.LD with ADD, and the element combine of W128 chunks (R128, R217). -/
def w128Add (base x : W128) : ElemWrite :=
  elemWrite base ⟨decide (x = nar), false, false, false, if x = nar then 0 else x.toInt, 0⟩

/-- The old integer when the window of its row grows by `d` (R134). -/
def w128Rescale (a : W128) (d : Nat) : W128 :=
  if a = nar then nar
  else
    let n : Int := rneQuot a.toInt.natAbs (2 ^ d)
    BitVec.ofInt 128 (if a.toInt < 0 then -n else n)

/-- The exact value of an accumulator on its window (R126, R139); NaR is a NaN, zero is +0. -/
def w128Value (win : Int) (a : W128) : Num :=
  if a = nar then .nan else .fin (a.toInt < 0) a.toInt.natAbs (win - 126)

/-- One row of 32 accumulators converted to an element format (R139, R140): the scale byte, used by the scaled formats only,
and the element codes. -/
def w128ConvertRow (f : Fmt) (win : Int) (row : List W128) : Nat × List Nat :=
  if f.scaled then
    if row.any (fun a => a == nar) then (0xFF, row.map fun _ => 0)
    else
      let r := f.convertBlock true none (row.map fun a => some (w128Value win a))
      (r.1, r.2.map fun c => c.getD 0)
  else (0x7F, row.map fun a => f.encode true (w128Value win a))

end Sys2Proof.Machine
end

