-- ==== Sys2Proof/Machine/VecEval.lean ====
section
/-! DEFINITION. What a queued vector instruction computes from the registers alone (R147 to R169): its register, mask and
g results and its events, as data. The memory forms are in Vector. -/

namespace Sys2Proof.Machine

/-- Results of one vector instruction: vector registers, mask registers, the g register, flag events, and the counts of
`PRS_UFLOW_CNT` and `PRS_NAR_CNT`. -/
structure VecOut where
  vs : List (Nat × BitVec 2048)
  ms : List (Nat × Word)
  g : Option Word
  events : List (TrapFlag × Nat)
  uflow : Nat
  nar : Nat
  deriving DecidableEq, Repr

/-- No result. -/
def VecOut.none : VecOut := ⟨[], [], Option.none, [], 0, 0⟩

/-- The vector and mask registers an instruction reads. -/
structure VecRegs where
  v : Vector (BitVec 2048) 32
  m : Vector Word 8
  deriving DecidableEq, Repr

/-- A vector register. -/
def VecRegs.vr (y : VecRegs) (i : BitVec 5) : BitVec 2048 := y.v[i.toNat]'i.isLt

/-- A mask register. -/
def VecRegs.mr (y : VecRegs) (i : Nat) : Word := y.m[i]?.getD 0

/-- The element at position `i` is active: unmasked, or its mask bit is set (R147, R149). -/
def VecRegs.act (y : VecRegs) (f : VFields) (w i : Nat) : Bool := f.me == 0 || maskBitAt y.m f.msk.toNat w i

/-- Bits below VL of a predicate, as the words of a mask named by register `n` for width `w`: one register, a pair or a
quad. -/
def maskWords (w vl n : Nat) (p : Nat → Bool) : List (Nat × Word) :=
  (maskRegsOf w n).map fun k =>
    (k, BitVec.ofNat 64 (packElems 1 ((List.range 64).map fun j =>
      let i := (k - n) * 64 + j
      if i < vl ∧ p i then 1 else 0)))

/-! ### Lane arithmetic -/

/-- A float lane operation of two or three operands (R151). -/
def laneFloat (c : VCode) (f : Fmt) (a b d : Nat) : Nat :=
  let x := f.decode a
  let y := f.decode b
  let z := f.decode d
  match c with
  | .vadd => f.encode false (x.add y)
  | .vsub => f.encode false (x.add y.neg)
  | .vmul => f.encode false (x.mul y)
  | .vfma => f.encode false ((x.mul y).add z)
  | .vmin => f.encode false (x.min2 y)
  | .vmax => f.encode false (x.max2 y)
  | .vabs => f.encode false x.abs
  | .vneg => f.encode false x.neg
  | .vdiv => f.divide x y
  | .vsqrt => f.squareRoot x
  | .exp2 => sfuIn .exp2 f a
  | .log2 => sfuIn .log2 f a
  | .rcp => sfuIn .rcp f a
  | .rsqrt => sfuIn .rsqrt f a
  | .sin => sfuIn .sin f a
  | .cos => sfuIn .cos f a
  | _ => 0

/-- An integer of `w` bits in two's complement. -/
def signedOf (w v : Nat) : Int := if v % 2 ^ w < 2 ^ (w - 1) then (v % 2 ^ w : Nat) else (v % 2 ^ w : Nat) - (2 ^ w : Nat)

/-- An integer lane operation at width `w` (R189). -/
def laneInt (c : VCode) (arith : Bool) (w a b : Nat) : Nat :=
  match c with
  | .viadd => (a + b) % 2 ^ w
  | .visub => (a + 2 ^ w - b % 2 ^ w) % 2 ^ w
  | .vimul => a * b % 2 ^ w
  | .vand => a &&& b
  | .vor => a ||| b
  | .vxor => a ^^^ b
  | .vshl => a * 2 ^ (b % w) % 2 ^ w
  | .vshr =>
    if arith then ((signedOf w a).fdiv (2 ^ (b % w)) % (2 ^ w : Nat)).toNat else a % 2 ^ w / 2 ^ (b % w)
  | _ => 0

/-- A comparison by its predicate code: 0 EQ, 1 LT, 2 LE, 3 GT, 4 GE (R151, R189). -/
def laneCmp (pred : Nat) (x y : Num) : Bool :=
  match pred with
  | 0 => x.eq y
  | 1 => x.lt y
  | 2 => x.lt y || x.eq y
  | 3 => y.lt x
  | _ => y.lt x || x.eq y

/-! ### Conversion (R152) -/

/-- Byte `j` of a g register. -/
def scaleByte (x : Word) (j : Nat) : Nat := x.toNat / 256 ^ j % 256

/-- The source value of element `i` of VCVT: an integer, or a format value under its block scale. -/
def vcvtSrc (f : VFields) (x : Word) (r : BitVec 2048) (i : Nat) : Num :=
  let sub := f.mod.toNat % 16
  if f.mod.getLsbD 13 then Num.ofInt (signedOf (widthOf sub) (vElem r (widthOf sub) i))
  else
    match Fmt.ofCode sub with
    | some g => g.scaledValue (vElem r g.bits i) (scaleByte x (i / 32))
    | none => .nan

/-- The 32 positions of block `j`: source values of the active elements below VL. -/
def blockOf (vl j : Nat) (act : Nat → Bool) (src : Nat → Num) : List (Option Num) :=
  (List.range 32).map fun k => let i := 32 * j + k; if i < vl ∧ act i then some (src i) else none

/-- Result of VCVT: the destination register and, for a computed scale, the bytes of the blocks. A block with a NaN source becomes zeros
under a given scale too, but the 0xFF of R123 is then written nowhere, since VCVT only reads its given scales (DESIGN CHOICE, log
entry 75: R123 says that the scale is written, R152 and R189 that GY is read). -/
def vcvtEval (f : VFields) (vl : Nat) (x y : Word) (r : VecRegs) : BitVec 2048 × List Nat :=
  let w := VCode.widest .vcvt f
  let act := r.act f w
  let src := vcvtSrc f x (r.vr f.va)
  let old := r.vr f.vd
  if f.mod.getLsbD 12 then
    let tw := widthOf f.fmt.toNat
    (writeActive old tw vl act fun i => (toIntWidth tw (src i) % (2 ^ tw : Nat)).toNat, [])
  else
    match Fmt.ofCode f.fmt.toNat with
    | none => (old, [])
    | some g =>
      if g.scaled then
        let computed := f.mod.getLsbD 5
        let blocks := (List.range (vl / 32)).map fun j =>
          let xs := blockOf vl j act src
          if computed ∧ xs.all Option.isNone then (0x7F, xs.map fun _ => none)
          else g.convertBlock (f.mod.getLsbD 4) (if computed then none else some (scaleByte y j)) xs
        let codes := blocks.flatMap Prod.snd
        (writeActive old g.bits vl act fun i => (codes[i]?.join).getD 0, blocks.map Prod.fst)
      else (writeActive old g.bits vl act fun i => g.encode (f.mod.getLsbD 4) (src i), [])

/-! ### Movement (R158, R159) -/

/-- Source elements whose mask bit is set, in order. -/
def foldElems (vl : Nat) (act : Nat → Bool) (get : Nat → Nat) : List Nat :=
  ((List.range vl).filter act).map get

/-- UNFOLD: the source elements in order at the positions whose mask bit is set. -/
def unfoldElems (act : Nat → Bool) (src old : Nat → Nat) (z : Bool) : List Nat → Nat → List Nat
  | [], _ => []
  | i :: is, j =>
    if act i then src j :: unfoldElems act src old z is (j + 1)
    else (if z then 0 else old i) :: unfoldElems act src old z is j

/-! ### Reductions (R160 to R163) -/

/-- One level of the fixed tree: each pair replaced by its rounded sum. -/
def sumLevel (f : Fmt) : List Num → List Num
  | a :: b :: r => f.decode (f.encode false (a.add b)) :: sumLevel f r
  | l => l

/-- The fixed tree over 2^n positions. -/
def treeSum (f : Fmt) : Nat → List Num → Num
  | 0, l => l.headD (.fin true 0 0)
  | n + 1, l => treeSum f n (sumLevel f l)

/-- −0, which leaves every sum unchanged. -/
def negZero : Num := .fin true 0 0

/-- RED.SUM of values at positions: 64 positions in binary32, 128 for 16-bit inputs, 32 in binary64 (R160). -/
def redSumOf (src : Fmt) (vl : Nat) (act : Nat → Bool) (val : Nat → Num) : Nat :=
  let f := if src = .binary64 then Fmt.binary64 else Fmt.binary32
  let lg := if src = .binary64 then 5 else if src = .binary32 then 6 else 7
  let xs := (List.range (2 ^ lg)).map fun i => if i < vl ∧ act i then val i else negZero
  f.encode false (treeSum f lg xs)

/-- The largest or smallest non-NaN value with its position; the lowest position among equal values. -/
def bestOf (better : Num → Num → Bool) (xs : List (Nat × Num)) : Option (Nat × Num) :=
  xs.foldl (fun a p => match a with
    | none => if p.2.isNan then none else some p
    | some q => if p.2.isNan then some q else if better p.2 q.2 then some p else some q) none

/-- Active elements below VL with their positions. -/
def actives (vl : Nat) (act : Nat → Bool) (val : Nat → Num) : List (Nat × Num) :=
  ((List.range vl).filter act).map fun i => (i, val i)

/-- RED.MAX or RED.MIN (R161, R190): the bits of the result in the source format. -/
def redBest (f : Fmt) (isMax : Bool) (xs : List (Nat × Num)) : Nat :=
  if xs = [] then (if isMax then f.signBit true + f.infCode else f.infCode)
  else
    match bestOf (if isMax then fun a b => b.below a else fun a b => a.below b) xs with
    | none => f.nanCode
    | some p => f.encode false p.2

/-- The order of top-k candidates: by value with +0 above −0, then by lower index (R163). -/
def topBetter (x : Num) (n : Nat) (y : Num) (m : Nat) : Bool :=
  y.below x || (x.eq y && !x.below y && decide (n < m))

/-- A candidate put in its place among the first `k` slots (R163). -/
def topInsert (k : Nat) (x n : Nat) (l : List (Nat × Nat)) : List (Nat × Nat) :=
  let better (p : Nat × Nat) : Bool := topBetter (Fmt.binary32.decode x) n (Fmt.binary32.decode p.1) p.2
  let head := l.take k
  match head.getLast? with
  | some last =>
    if better last then
      let keep := head.dropLast
      let front := keep.take (keep.length - (keep.reverse.takeWhile better).length)
      front ++ (x, n) :: (keep.drop front.length) ++ l.drop k
    else l
  | none => l

/-! ### Softmax (R166 to R169) -/

/-- The softmax state: M, S, k, element 3 and R as 32-bit words (R166). -/
structure SmState where
  m : Nat
  s : Nat
  k : Nat
  nan : Bool
  mode : Nat
  r : Nat
  deriving DecidableEq, Repr

/-- The state held in a register. -/
def smOf (v : BitVec 2048) : SmState :=
  let e := vElem v 32 3
  ⟨vElem v 32 0, vElem v 32 1, vElem v 32 2, decide (e % 2 = 1), e / 16 % 8, vElem v 32 4⟩

/-- The register of a state. -/
def smPack (x : SmState) : BitVec 2048 :=
  vPack 32 [x.m, x.s, x.k, (if x.nan then 1 else 0) + 16 * x.mode, x.r]

/-- −∞ in binary32. -/
def negInf32 : Nat := 0xFF800000

/-- SOFTMAX.INIT (R166). -/
def smInit : SmState := ⟨negInf32, 0, 0, false, 0, 0⟩

/-- L, the binary32 value nearest log₂ e (R167). -/
def smL : Num := Fmt.binary32.decode 0x3FB8AA3B

/-- exp2(rn(rn(x − m) × L)) in binary32 (R167). -/
def smExp (x m : Num) : Nat :=
  let d := Fmt.binary32.decode (Fmt.binary32.encode false (x.add m.neg))
  sfu32 .exp2 (Fmt.binary32.encode false (d.mul smL))

/-- SOFTMAX.ACC (R167). -/
def smAcc (src : Fmt) (vl : Nat) (act : Nat → Bool) (val : Nat → Num) (x : SmState) : SmState :=
  let f := Fmt.binary32
  let xs := actives vl act val
  let nan := x.nan || xs.any fun p => p.2.isNan
  let k := min (x.k + (xs.filter fun p => p.2 == .inf false).length) (2 ^ 32 - 1)
  let fin (v : Num) : Bool := match v with
    | .fin _ _ _ => true
    | _ => false
  let fs := xs.filter fun p => fin p.2
  if fs = [] then { x with nan := nan, k := k, mode := 0 }
  else
    let m0 := f.decode x.m
    let mnew := fs.foldl (fun a p => a.max2 p.2) m0
    let e := fun i => if act i && fin (val i) then f.decode (smExp (val i) mnew) else negZero
    let lg := if src = .binary32 then 6 else 7
    let seg := treeSum f lg ((List.range (2 ^ lg)).map fun i => if i < vl then e i else negZero)
    let s :=
      if x.m = negInf32 then f.encode false seg
      else
        let t := (f.decode x.s).mul (f.decode (smExp m0 mnew))
        f.encode false ((f.decode (f.encode false t)).add seg)
    { m := f.encode false mnew, s := s, k := k, nan := nan, mode := 0, r := x.r }

/-- The mode and factor that SOFTMAX.FIN gives (R168). -/
def smFin (x : SmState) : SmState :=
  let f := Fmt.binary32
  let one := Num.ofInt 1
  if x.nan then { x with mode := 4, r := 0 }
  else if 0 < x.k then { x with mode := 2, r := f.divide one (.fin false x.k 0) }
  else if x.m = negInf32 then { x with mode := 3, r := 0 }
  else { x with mode := 1, r := f.divide one (f.decode x.s) }

/-- One element of SOFTMAX.OUT in binary32 (R169). -/
def smOutElem (x : SmState) (act : Bool) (v : Num) : Nat :=
  let f := Fmt.binary32
  if x.mode = 4 then f.nanCode
  else if !act then 0
  else if x.mode = 3 then 0
  else if x.mode = 2 then (if v == .inf false then x.r else 0)
  else if v == .inf true then 0
  else f.encode false ((f.decode (smExp v (f.decode x.m))).mul (f.decode x.r))

/-! ### One instruction -/

/-- A binary32 code rounded once into a format. -/
def roundFrom32 (f : Fmt) (c : Nat) : Nat := if f = .binary32 then c else f.encode false (Fmt.binary32.decode c)

/-- The results of a V-format instruction that touches no memory, from VL, the g operands read at issue and the registers
(R151 to R169). `free` fills bytes of a written g register that no block defines. -/
def vecEval (c : VCode) (f : VFields) (vl : Nat) (x y : Word) (r : VecRegs) (free : Nat) : VecOut :=
  let w := c.widest f
  let act := r.act f w
  let a := r.vr f.va
  let bq := r.vr f.vb
  let d := r.vr f.vd
  let vd (v : BitVec 2048) : VecOut := { VecOut.none with vs := [(f.vd.toNat, v)] }
  let gd (n : Nat) : VecOut := { VecOut.none with g := some (BitVec.ofNat 64 n) }
  let fm := (Fmt.ofCode f.fmt.toNat).getD .binary32
  match c with
  | .vadd | .vsub | .vmul | .vfma | .vmin | .vmax | .vabs | .vneg | .vdiv | .vsqrt | .exp2 | .log2 | .rcp | .rsqrt | .sin
  | .cos => vd (writeActive d w vl act fun i => laneFloat c fm (vElem a w i) (vElem bq w i) (vElem (r.vr f.vc) w i))
  | .viadd | .visub | .vimul | .vand | .vor | .vxor | .vshl | .vshr =>
    vd (writeActive d w vl act fun i => laneInt c (f.mod.getLsbD 0) w (vElem a w i) (vElem bq w i))
  | .vcmp =>
    { VecOut.none with
      ms := maskWords w vl (f.vd.toNat % 8) fun i =>
        act i && laneCmp f.mod.toNat (fm.decode (vElem a w i)) (fm.decode (vElem bq w i)) }
  | .sincosP =>
    let p := fun i => sincosLane (vElem a 32 i) (vElem bq 32 i)
    { VecOut.none with
      vs := [(f.vd.toNat, writeActive d 32 vl act fun i => (p i).1),
             (f.vd.toNat + 1, writeActive (r.v[f.vd.toNat + 1]?.getD 0) 32 vl act fun i => (p i).2)] }
  | .vcvt =>
    let q := vcvtEval f vl x y r
    let gv := BitVec.ofNat 64 (packElems 8 q.2 + 256 ^ q.2.length * free)
    { vd q.1 with g := if vcvtTgtScaled f && f.mod.getLsbD 5 then some gv else Option.none }
  | .fold =>
    let l := foldElems vl act (vElem a w)
    { vd (vPack w l) with g := some (BitVec.ofNat 64 l.length) }
  | .unfold =>
    let l := unfoldElems act (vElem a w) (vElem d w) (f.mod.getLsbD 0) (List.range vl) 0
    { vd (vPack w l) with g := some (BitVec.ofNat 64 ((List.range vl).filter act).length) }
  | .perm =>
    let out := (List.range vl).any fun i => act i && decide (vl ≤ vElem bq w i)
    { vd (writeActive d w vl act fun i => if vElem bq w i < vl then vElem a w (vElem bq w i) else 0) with
      events := if out then [(.laneRange, 1)] else [] }
  | .mand => { VecOut.none with ms := [(f.vd.toNat % 8, r.mr (f.va.toNat % 8) &&& r.mr (f.vb.toNat % 8))] }
  | .mor => { VecOut.none with ms := [(f.vd.toNat % 8, r.mr (f.va.toNat % 8) ||| r.mr (f.vb.toNat % 8))] }
  | .mxor => { VecOut.none with ms := [(f.vd.toNat % 8, r.mr (f.va.toNat % 8) ^^^ r.mr (f.vb.toNat % 8))] }
  | .mnot => { VecOut.none with ms := [(f.vd.toNat % 8, ~~~ r.mr (f.va.toNat % 8))] }
  | .mpop =>
    let mw := widthOf f.fmt.toNat
    gd ((List.range (min vl (64 * (maskRegsOf mw (f.va.toNat % 8)).length))).filter fun i => maskBitAt r.m (f.va.toNat % 8) mw i).length
  | .redSum => gd (redSumOf fm vl act fun i => fm.decode (vElem a w i))
  | .redMax => gd (redBest fm true (actives vl act fun i => fm.decode (vElem a w i)))
  | .redMin => gd (redBest fm false (actives vl act fun i => fm.decode (vElem a w i)))
  | .redArgmax =>
    match bestOf (fun p q => q.below p) (actives vl act fun i => fm.decode (vElem a w i)) with
    | some p => gd p.1
    | none => gd (2 ^ 64 - 1)
  | .redSumx =>
    let win := winOfBits (x.extractLsb' 0 10)
    let base : W128 := if f.mod.getLsbD 0 then d.extractLsb' 0 128 else 0
    let e := elemWrite base (prodSum win ((actives vl act fun i => fm.decode (vElem a w i)).map Prod.snd))
    { vd (e.value.setWidth 2048) with
      events := if e.event then [(.accSat, 1)] else []
      uflow := e.uflow
      nar := if e.narEvent then 1 else 0 }
  | .xcvt =>
    vd (vPack fm.bits [fm.encode true (w128Value (winOfBits (x.extractLsb' 0 10)) (a.extractLsb' 0 128))])
  | .redTopkInit =>
    vd (vPack 32 (List.replicate 16 negInf32 ++ List.replicate 16 0xFFFFFFFF ++ [f.mod.toNat % 16]))
  | .redTopk =>
    let k := vElem d 32 32 % 16 + 1
    let st := (List.range 16).map fun i => (vElem d 32 i, vElem d 32 (16 + i))
    let base := fieldOf x 0 32
    let st' := (actives vl act fun i => fm.decode (vElem a w i)).foldl (fun l p =>
      if p.2.isNan then l else topInsert k (Fmt.binary32.encode false p.2) (base + p.1) l) st
    vd (vPack 32 (st'.map Prod.fst ++ st'.map Prod.snd ++ (List.range 32).map fun i => vElem d 32 (32 + i)))
  | .softmaxInit => vd (smPack smInit)
  | .softmaxAcc => vd (smPack (smAcc fm vl act (fun i => fm.decode (vElem a w i)) (smOf d)))
  | .softmaxFin =>
    let q := smFin (smOf d)
    { vd (smPack q) with
      events := if q.mode = 4 then [(.nanRow, 1)] else if q.mode = 3 then [(.emptyRow, 1)] else [] }
  | .softmaxOut =>
    let q := smOf bq
    let q := if q.mode = 0 then smFin q else q
    vd (vPack w ((List.range vl).map fun i => roundFrom32 fm (smOutElem q (act i) (fm.decode (vElem a w i)))))
  | .vld | .vst | .vldR | .vstR => VecOut.none

end Sys2Proof.Machine
end

