-- ==== Sys2Proof/Machine/Vector.lean ====
section
/-! DEFINITION. V-format instructions: issue checks and issue (R148, R149, R152, R153, R163, R178, R189), the vector loads and
stores (R153 to R155), and the execution of a queue entry with its events and traps (R55, R65, R69, R156, R172). -/

namespace Sys2Proof.Machine

/-! ### Vector loads and stores -/

/-- A vector memory access: formats, modifiers and operands of VLD or VST (R153), or the store part of SPLICE.VB and
SPLICE.VR. -/
structure VMem where
  fm : Nat
  fr : Nat
  sat : Bool
  sc : Bool
  ns : Bool
  ga : Word
  gs : Word
  deriving DecidableEq, Repr

/-- The access of a VLD or VST. -/
def vmemOf (f : VFields) (x y : Word) : VMem :=
  ⟨f.fmt.toNat, f.mod.toNat % 16, f.mod.getLsbD 4, f.mod.getLsbD 5, f.mod.getLsbD 6, x, y⟩

/-- The memory format is packed below a byte: contiguous, with no stride (R153). -/
def VMem.packed (p : VMem) : Bool := decide (fmtBits p.fm < 8)

/-- The access uses block scales in memory. -/
def VMem.scaled (p : VMem) : Bool := vmemScaled p.fm p.fr p.ns

/-- Bytes of one memory element of 8 bits or more. -/
def VMem.size (p : VMem) : Nat := fmtBits p.fm / 8

/-- First bit of element `i`, counted from offset 0 of bay memory. -/
def VMem.bitAt (p : VMem) (i : Nat) : Nat :=
  let a := strided p.ga
  if p.packed then a.base * 8 + i * fmtBits p.fm else (a.base + i * a.stride) * 8

/-- One past the last byte that elements 0 to `vl` − 1 touch; zero where nothing is touched. -/
def VMem.dataEnd (p : VMem) (vl : Nat) : Nat :=
  if vl = 0 then 0 else (p.bitAt (vl - 1) + fmtBits p.fm + 7) / 8

/-- One past the last scale byte; zero where no scale is used. -/
def VMem.scaleEnd (p : VMem) (vl : Nat) : Nat :=
  if vl = 0 ∨ !p.scaled then 0 else fieldOf p.gs 0 20 + (vl + 31) / 32

/-- The issue checks of R153. -/
def VMem.check (p : VMem) (vl : Nat) : Check :=
  let a := strided p.ga
  let al := if p.packed then decide (a.stride = 0) && decide (a.base % 8 = 0) else a.aligned p.size
  { mal := !stridedClean p.ga || !al || (p.scaled && fieldOf p.gs 20 44 != 0)
    rng := decide (0x100000 < p.dataEnd vl) || decide (0x100000 < p.scaleEnd vl) }

/-- One 64 B bank row after another read, until one carries an uncorrectable error (R50, R55, R153). -/
def readRows (b : BayId) : List Nat → State → State × Bool
  | [], s => (s, false)
  | r :: rs, s =>
    let e := s.eccRead b (r * 64) 64
    if e.2 then e else readRows b rs e.1

/-- Bank rows that bits `lo` to `lo` + `n` − 1 of bay memory touch. -/
def rowsOfBits (lo n : Nat) : List Nat :=
  if n = 0 then [] else (List.range ((lo + n - 1) / 512 + 1 - lo / 512)).map (· + lo / 512)

/-- An element of bay memory by its first bit. -/
def State.memElem (s : State) (b : BayId) (bit w : Nat) : Nat :=
  leNat (s.bayBytes b (bit / 8) ((bit % 8 + w + 7) / 8)) / 2 ^ (bit % 8) % 2 ^ w

/-- A load whose elements all lie at one place: the one element there is read, with the first scale byte where scales are present, and
goes to every active element (R154). -/
def VMem.broadcast (p : VMem) : Bool := !p.packed && (strided p.ga).stride == 0

/-- Index of the scale byte of element `i` of a load. -/
def VMem.scaleAt (p : VMem) (i : Nat) : Nat := if p.broadcast then 0 else i / 32

/-- A load: the destination value (R147, R153, R154), after the rows of its active elements and scales were read. -/
def vloadOf (p : VMem) (s : State) (b : BayId) (vl : Nat) (act : Nat → Bool) (old : BitVec 2048) : BitVec 2048 :=
  let w := fmtBits p.fm
  let get := fun i => s.memElem b (p.bitAt i) w
  if p.fm = p.fr then writeActive old w vl act get
  else
    match Fmt.ofCode p.fm, Fmt.ofCode p.fr with
    | some g, some h =>
      writeActive old h.bits vl act fun i =>
        let sc := if p.scaled then (s.memByte (bayAddr b (fieldOf p.gs 0 20 + p.scaleAt i))).toNat else 0x7F
        h.encode p.sat (g.scaledValue (get i) sc)
    | _, _ => old

/-- The bank rows a load (`data`) or a store with given scales reads: those of active elements, and of the scales of their blocks. -/
def VMem.readRows (p : VMem) (vl : Nat) (act : Nat → Bool) (data : Bool) : List Nat :=
  let is := (List.range vl).filter act
  let els := if data then is.flatMap fun i => rowsOfBits (p.bitAt i) (fmtBits p.fm) else []
  let scs := if p.scaled then is.flatMap fun i => rowsOfBits ((fieldOf p.gs 0 20 + (if data then p.scaleAt i else i / 32)) * 8) 8 else []
  (els ++ scs).eraseDups

/-- Consecutive bytes of one bank row form one access (R154). -/
def groupRows : List (Nat × Byte) → List (List (Nat × Byte))
  | [] => []
  | c :: cs =>
    match groupRows cs with
    | [] => [[c]]
    | g :: gs => if (g.headD c).1 / 64 = c.1 / 64 then (c :: g) :: gs else [c] :: g :: gs

/-- The bytes of one 64-bit word of an access written: a part of a word merges and may fail (R562). -/
def State.storeWord (s : State) (b : BayId) (cs : List (Nat × Byte)) (k : Nat) : State × Bool :=
  let here := cs.filter fun c => c.1 / 8 == k
  let key := bayAddr b (k * 8) / 8
  let whole := (List.range 8).all fun j => here.any fun c => c.1 == k * 8 + j
  if !whole && s.ecc2.contains key then (s.incF (Fld.BAY_MEM_ECC_UNCORR_CNT b.toNat), true)
  else
    let one := !whole && s.ecc1.contains key
    let s := here.foldl (fun s c => s.setMem (bayAddr b c.1) c.2) s
    let s := { s with ecc1 := s.ecc1.filter (· != key), ecc2 := s.ecc2.filter (· != key) }
    (if one then (s.incF (Fld.BAY_MEM_ECC_CORR_CNT b.toNat)).tickEvent else s, false)

/-- The words of an access written in order, until one fails. -/
def storeWords (b : BayId) (cs : List (Nat × Byte)) : List Nat → State → State × Bool
  | [], s => (s, false)
  | k :: ks, s =>
    let e := s.storeWord b cs k
    if e.2 then e else storeWords b cs ks e.1

/-- Accesses written in order, until one fails: bytes written before the failing word stay written (R562). -/
def storeGroups (b : BayId) : List (List (Nat × Byte)) → State → State × Bool
  | [], s => (s, false)
  | g :: gs, s =>
    let e := storeWords b g ((g.map fun c => c.1 / 8).eraseDups) s
    if e.2 then e else storeGroups b gs e.1

/-- Bytes written to bay memory in element order by an engine (R154, R562). -/
def State.storeBytes (s : State) (b : BayId) (cs : List (Nat × Byte)) : State × Bool := storeGroups b (groupRows cs) s

/-- The bytes of `w`-bit elements written at their first bits: whole bytes for elements of 8 bits or more; narrower elements
are merged into the bytes they share. -/
def elemCells (s : State) (b : BayId) (w : Nat) (els : List (Nat × Nat)) : List (Nat × Byte) :=
  if 8 ≤ w then els.flatMap fun e => (leBytes (w / 8) e.2).mapIdx fun j x => (e.1 / 8 + j, x)
  else
    let bytes := (els.flatMap fun e => [e.1 / 8, (e.1 + w - 1) / 8]).eraseDups
    bytes.map fun k =>
      (k, els.foldl (fun (x : Byte) e =>
        BitVec.ofNat 8 (packElems 1 ((List.range 8).map fun j =>
          let bit := k * 8 + j
          if e.1 ≤ bit ∧ bit < e.1 + w then e.2 / 2 ^ (bit - e.1) % 2 else x.toNat / 2 ^ j % 2))) (s.memByte (bayAddr b k)))

/-- The element codes of a store and the scale bytes it writes, by element and by block (R123, R124, R153). -/
def vstoreOf (p : VMem) (s : State) (b : BayId) (vl : Nat) (act : Nat → Bool) (src : BitVec 2048) :
    List (Nat × Nat) × List (Nat × Nat) :=
  let w := fmtBits p.fm
  let is := (List.range vl).filter act
  if p.fm = p.fr then (is.map fun i => (p.bitAt i, vElem src w i), [])
  else
    match Fmt.ofCode p.fm, Fmt.ofCode p.fr with
    | some g, some h =>
      let val := fun i => h.decode (vElem src h.bits i)
      if g.scaled then
        let blocks := ((List.range ((vl + 31) / 32)).map fun j =>
          let xs := blockOf vl j act val
          let given : Option Nat :=
            if p.ns then some 0x7F
            else if p.sc then none
            else some (s.memByte (bayAddr b (fieldOf p.gs 0 20 + j))).toNat
          (j, xs.all Option.isNone, g.convertBlock p.sat given xs))
        (blocks.flatMap fun q => (q.2.2.2.mapIdx fun k c => (q.1 * 32 + k, c)).filterMap fun e =>
            e.2.map fun c => (p.bitAt e.1, c),
         if p.ns then [] else (blocks.filter fun q => !q.2.1).map fun q => (fieldOf p.gs 0 20 + q.1, q.2.2.1))
      else (is.map fun i => (p.bitAt i, g.encode p.sat (val i)), [])
    | _, _ => ([], [])

/-- A vector store performed: answers the state and whether it failed. -/
def vstore (p : VMem) (b : BayId) (vl : Nat) (act : Nat → Bool) (src : BitVec 2048) (s : State) : State × Bool :=
  let rd := if !p.sc && p.scaled then readRows b (p.readRows vl act false) s else (s, false)
  if rd.2 then rd
  else
    let s := rd.1
    let q := vstoreOf p s b vl act src
    s.storeBytes b (elemCells s b (fmtBits p.fm) q.1 ++ q.2.map fun e => (e.1, BitVec.ofNat 8 e.2))

/-! ### Issue -/

/-- The dynamic issue checks of a V-format instruction (R148, R149, R152, R153, R155, R163, R181). -/
def vecCheck (r : ThreadRec) (c : VCode) (f : VFields) : Check :=
  let vl := r.vl.toNat
  let x := r.getG f.gx
  let base : Check :=
    { mal := !c.maskNamesOk f
      rng := decide (r.pc = lastPc) || (c.widths f).any fun w => decide (vCap w < vl) }
  base.and (match c with
    | .vcvt => ⟨false, (vcvtSrcScaled f || vcvtTgtScaled f) && decide (vl % 32 ≠ 0)⟩
    | .vld | .vst => (vmemOf f x (r.getG f.gy)).check vl
    | .vldR | .vstR =>
      ⟨decide (fieldOf x 0 20 % 64 ≠ 0) || fieldOf x 20 44 != 0, decide (0x100000 < fieldOf x 0 20 + 256)⟩
    | .redTopk => ⟨false, decide (0 < vl) && decide (0xFFFFFFFF ≤ fieldOf x 0 32 + vl - 1)⟩
    | _ => .none)

/-- A g register marked pending by an instruction (R48); g0 is never pending but for an AMO, whose failure is kept (R63). -/
def ThreadRec.mark (r : ThreadRec) (g : Option (BitVec 5)) (amo : Bool) : ThreadRec :=
  match g with
  | some i => if i = 0 ∧ amo = false then r else { r with pend := r.pend ++ [⟨i, r.qseq, amo, r.pc, none⟩] }
  | none => r

/-- The next QSEQ taken and the program counter moved on (R64). -/
def ThreadRec.took (r : ThreadRec) : ThreadRec := { r with qseq := r.qseq + 1, pc := r.pc + 8 }

/-- A V-format instruction issued: its operands are read, a g destination is marked pending, and it enters the queue of its
thread (R45, R48, R64, R180). -/
def opVecIssue (c : VCode) (b : BayId) (t : Thread) (f : VFields) (s : State) : State :=
  let r := s.thr b t
  (issueGate s b t (.v c f) (vecCheck r c f)).run s fun s =>
    s.updBay b fun y =>
      let r := y.thr t
      let e : VecEntry := { qseq := r.qseq, pc := r.pc, vl := r.vl, op := .instr c f (r.getG f.gx) (r.getG f.gy) }
      let y := match t with
        | .main => { y with mainVq := y.mainVq ++ [e] }
        | .seam => { y with seamVq := y.seamVq ++ [e] }
      y.setThr t ((r.mark (c.writes f) false).took)

/-! ### Execution -/

/-- Mask registers of a bay written. -/
def putMasks (m : Vector Word 8) (l : List (Nat × Word)) : Vector Word 8 :=
  l.foldl (fun m p => m.setIfInBounds p.1 p.2) m

/-- Vector registers of a bay written. -/
def putVregs (v : Vector (BitVec 2048) 32) (l : List (Nat × BitVec 2048)) : Vector (BitVec 2048) 32 :=
  l.foldl (fun v p => v.setIfInBounds p.1 p.2) v

/-- The results of an instruction written: registers, masks, and the g destination with its pending mark (R48). -/
def State.commitVec (s : State) (b : BayId) (q : Thread) (qseq : BitVec 12) (gd : Option (BitVec 5)) (o : VecOut) : State :=
  s.updBay b fun y =>
    let y := { y with v := putVregs y.v o.vs, m := putMasks y.m o.ms }
    match gd, o.g with
    | some i, some w => y.setThr q ((y.thr q).deliver i qseq w)
    | _, _ => y

/-- The events and counts of an instruction (R14, R108, R144). -/
def State.vecEvents (s : State) (b : BayId) (o : VecOut) : State :=
  let s := o.events.foldl (fun s p => s.flagEvents b p.1 p.2) s
  let s := if o.uflow = 0 then s else s.incF (Fld.PRS_UFLOW_CNT_COUNT b.toNat) o.uflow
  if o.nar = 0 then s else s.incF (Fld.PRS_NAR_CNT_COUNT b.toNat) o.nar

/-- The first event whose trap is enabled (R65, R66). -/
def State.trapOf (s : State) (b : BayId) (evs : List (TrapFlag × Nat)) : Option TrapFlag :=
  (evs.find? fun p => s.trapOn b p.1).map Prod.fst

/-- An instruction that stops its engine on an uncorrectable error or a failed write (R55, R69, R562). -/
def State.engineError (s : State) (b : BayId) (e : Engine) (qseq : BitVec 12) (pc : BitVec 20) (gd : BitVec 5) : State :=
  (s.bitsEvent cMEM_UNCORRECTABLE).engineStop b e cMEM_UNCORRECTABLE 0 qseq pc gd

/-- The registers of a bay as the vector engine reads them. -/
def Bay.vecRegs (y : Bay) : VecRegs := ⟨y.v, y.m⟩

/-- Execution of one V-format entry taken from queue `q` (R69, R156). -/
def vecInstr (b : BayId) (q : Thread) (e : VecEntry) (c : VCode) (f : VFields) (x y : Word) (s : State) : State :=
  let rg := (s.bay b).vecRegs
  let vl := e.vl.toNat
  let act := rg.act f (c.widest f)
  let stop := fun (s : State) => s.engineError b (.vector q) e.qseq e.pc ((c.writes f).getD 0)
  match c with
  | .vld =>
    let p := vmemOf f x y
    let rd := readRows b (p.readRows vl act true) s
    if rd.2 then stop rd.1
    else rd.1.commitVec b q e.qseq none
      { VecOut.none with vs := [(f.vd.toNat, vloadOf p rd.1 b vl act (rg.vr f.vd))] }
  | .vst =>
    let w := vstore (vmemOf f x y) b vl act (rg.vr f.vd) s
    if w.2 then stop w.1 else w.1
  | .vldR =>
    let o := fieldOf x 0 20
    let rd := readRows b ((List.range 4).map (· + o / 64)) s
    if rd.2 then stop rd.1
    else rd.1.commitVec b q e.qseq none
      { VecOut.none with vs := [(f.vd.toNat, BitVec.ofNat 2048 (leNat (rd.1.bayBytes b o 256)))] }
  | .vstR =>
    (s.bayWrite b (fieldOf x 0 20) (leBytes 256 (rg.vr f.vd).toNat)).1
  | _ =>
    let needsFree := c == .vcvt && vcvtTgtScaled f && f.mod.getLsbD 5 && decide (vl / 32 < 8)
    let d := if needsFree then s.draw else (s, 0)
    let o := vecEval c f vl x y rg d.2
    let s := d.1.vecEvents b o
    match s.trapOf b o.events with
    | some fl => s.engineStop b (.vector q) cTRAPPED fl.code e.qseq e.pc ((c.writes f).getD 0)
    | none => s.commitVec b q e.qseq (c.writes f) o

/-! ### The meanings -/

/-- VADD (R151). -/
def execVadd (b : BayId) (t : Thread) (f : VFields) (s : State) : Res :=
  .next (opVecIssue .vadd b t f s)

/-- VSUB (R151). -/
def execVsub (b : BayId) (t : Thread) (f : VFields) (s : State) : Res :=
  .next (opVecIssue .vsub b t f s)

/-- VMUL (R151). -/
def execVmul (b : BayId) (t : Thread) (f : VFields) (s : State) : Res :=
  .next (opVecIssue .vmul b t f s)

/-- VFMA (R151). -/
def execVfma (b : BayId) (t : Thread) (f : VFields) (s : State) : Res :=
  .next (opVecIssue .vfma b t f s)

/-- VMIN (R151). -/
def execVmin (b : BayId) (t : Thread) (f : VFields) (s : State) : Res :=
  .next (opVecIssue .vmin b t f s)

/-- VMAX (R151). -/
def execVmax (b : BayId) (t : Thread) (f : VFields) (s : State) : Res :=
  .next (opVecIssue .vmax b t f s)

/-- VABS (R151). -/
def execVabs (b : BayId) (t : Thread) (f : VFields) (s : State) : Res :=
  .next (opVecIssue .vabs b t f s)

/-- VNEG (R151). -/
def execVneg (b : BayId) (t : Thread) (f : VFields) (s : State) : Res :=
  .next (opVecIssue .vneg b t f s)

/-- VCMP (R151). -/
def execVcmp (b : BayId) (t : Thread) (f : VFields) (s : State) : Res :=
  .next (opVecIssue .vcmp b t f s)

/-- VIADD (R189). -/
def execViadd (b : BayId) (t : Thread) (f : VFields) (s : State) : Res :=
  .next (opVecIssue .viadd b t f s)

/-- VISUB (R189). -/
def execVisub (b : BayId) (t : Thread) (f : VFields) (s : State) : Res :=
  .next (opVecIssue .visub b t f s)

/-- VIMUL (R189). -/
def execVimul (b : BayId) (t : Thread) (f : VFields) (s : State) : Res :=
  .next (opVecIssue .vimul b t f s)

/-- VAND (R189). -/
def execVand (b : BayId) (t : Thread) (f : VFields) (s : State) : Res :=
  .next (opVecIssue .vand b t f s)

/-- VOR (R189). -/
def execVor (b : BayId) (t : Thread) (f : VFields) (s : State) : Res :=
  .next (opVecIssue .vor b t f s)

/-- VXOR (R189). -/
def execVxor (b : BayId) (t : Thread) (f : VFields) (s : State) : Res :=
  .next (opVecIssue .vxor b t f s)

/-- VSHL (R189). -/
def execVshl (b : BayId) (t : Thread) (f : VFields) (s : State) : Res :=
  .next (opVecIssue .vshl b t f s)

/-- VSHR (R189). -/
def execVshr (b : BayId) (t : Thread) (f : VFields) (s : State) : Res :=
  .next (opVecIssue .vshr b t f s)

/-- EXP2 (R164). -/
def execExp2 (b : BayId) (t : Thread) (f : VFields) (s : State) : Res :=
  .next (opVecIssue .exp2 b t f s)

/-- LOG2 (R164). -/
def execLog2 (b : BayId) (t : Thread) (f : VFields) (s : State) : Res :=
  .next (opVecIssue .log2 b t f s)

/-- RCP (R164). -/
def execRcp (b : BayId) (t : Thread) (f : VFields) (s : State) : Res :=
  .next (opVecIssue .rcp b t f s)

/-- RSQRT (R164). -/
def execRsqrt (b : BayId) (t : Thread) (f : VFields) (s : State) : Res :=
  .next (opVecIssue .rsqrt b t f s)

/-- SIN (R165). -/
def execSin (b : BayId) (t : Thread) (f : VFields) (s : State) : Res :=
  .next (opVecIssue .sin b t f s)

/-- COS (R165). -/
def execCos (b : BayId) (t : Thread) (f : VFields) (s : State) : Res :=
  .next (opVecIssue .cos b t f s)

/-- SINCOS_P (R165). -/
def execSincosP (b : BayId) (t : Thread) (f : VFields) (s : State) : Res :=
  .next (opVecIssue .sincosP b t f s)

/-- VDIV (R164). -/
def execVdiv (b : BayId) (t : Thread) (f : VFields) (s : State) : Res :=
  .next (opVecIssue .vdiv b t f s)

/-- VSQRT (R164). -/
def execVsqrt (b : BayId) (t : Thread) (f : VFields) (s : State) : Res :=
  .next (opVecIssue .vsqrt b t f s)

/-- VCVT (R152). -/
def execVcvt (b : BayId) (t : Thread) (f : VFields) (s : State) : Res :=
  .next (opVecIssue .vcvt b t f s)

/-- VLD (R153). -/
def execVld (b : BayId) (t : Thread) (f : VFields) (s : State) : Res :=
  .next (opVecIssue .vld b t f s)

/-- VST (R153). -/
def execVst (b : BayId) (t : Thread) (f : VFields) (s : State) : Res :=
  .next (opVecIssue .vst b t f s)

/-- VLD_R (R155). -/
def execVldR (b : BayId) (t : Thread) (f : VFields) (s : State) : Res :=
  .next (opVecIssue .vldR b t f s)

/-- VST_R (R155). -/
def execVstR (b : BayId) (t : Thread) (f : VFields) (s : State) : Res :=
  .next (opVecIssue .vstR b t f s)

/-- UNFOLD (R158). -/
def execUnfold (b : BayId) (t : Thread) (f : VFields) (s : State) : Res :=
  .next (opVecIssue .unfold b t f s)

/-- PERM (R159). -/
def execPerm (b : BayId) (t : Thread) (f : VFields) (s : State) : Res :=
  .next (opVecIssue .perm b t f s)

/-- MAND (R189). -/
def execMand (b : BayId) (t : Thread) (f : VFields) (s : State) : Res :=
  .next (opVecIssue .mand b t f s)

/-- MOR (R189). -/
def execMor (b : BayId) (t : Thread) (f : VFields) (s : State) : Res :=
  .next (opVecIssue .mor b t f s)

/-- MXOR (R189). -/
def execMxor (b : BayId) (t : Thread) (f : VFields) (s : State) : Res :=
  .next (opVecIssue .mxor b t f s)

/-- MNOT (R189). -/
def execMnot (b : BayId) (t : Thread) (f : VFields) (s : State) : Res :=
  .next (opVecIssue .mnot b t f s)

/-- MPOP (R189). -/
def execMpop (b : BayId) (t : Thread) (f : VFields) (s : State) : Res :=
  .next (opVecIssue .mpop b t f s)

/-- RED_SUM (R160). -/
def execRedSum (b : BayId) (t : Thread) (f : VFields) (s : State) : Res :=
  .next (opVecIssue .redSum b t f s)

/-- RED_MAX (R161). -/
def execRedMax (b : BayId) (t : Thread) (f : VFields) (s : State) : Res :=
  .next (opVecIssue .redMax b t f s)

/-- RED_MIN (R161). -/
def execRedMin (b : BayId) (t : Thread) (f : VFields) (s : State) : Res :=
  .next (opVecIssue .redMin b t f s)

/-- RED_ARGMAX (R161). -/
def execRedArgmax (b : BayId) (t : Thread) (f : VFields) (s : State) : Res :=
  .next (opVecIssue .redArgmax b t f s)

/-- RED_SUMX (R162). -/
def execRedSumx (b : BayId) (t : Thread) (f : VFields) (s : State) : Res :=
  .next (opVecIssue .redSumx b t f s)

/-- XCVT (R162). -/
def execXcvt (b : BayId) (t : Thread) (f : VFields) (s : State) : Res :=
  .next (opVecIssue .xcvt b t f s)

/-- RED_TOPK_INIT (R163). -/
def execRedTopkInit (b : BayId) (t : Thread) (f : VFields) (s : State) : Res :=
  .next (opVecIssue .redTopkInit b t f s)

/-- RED_TOPK (R163). -/
def execRedTopk (b : BayId) (t : Thread) (f : VFields) (s : State) : Res :=
  .next (opVecIssue .redTopk b t f s)

/-- SOFTMAX_INIT (R166). -/
def execSoftmaxInit (b : BayId) (t : Thread) (f : VFields) (s : State) : Res :=
  .next (opVecIssue .softmaxInit b t f s)

/-- SOFTMAX_ACC (R167). -/
def execSoftmaxAcc (b : BayId) (t : Thread) (f : VFields) (s : State) : Res :=
  .next (opVecIssue .softmaxAcc b t f s)

/-- SOFTMAX_FIN (R168). -/
def execSoftmaxFin (b : BayId) (t : Thread) (f : VFields) (s : State) : Res :=
  .next (opVecIssue .softmaxFin b t f s)

/-- SOFTMAX_OUT (R169). -/
def execSoftmaxOut (b : BayId) (t : Thread) (f : VFields) (s : State) : Res :=
  .next (opVecIssue .softmaxOut b t f s)

end Sys2Proof.Machine
end

