-- ==== Sys2Proof/Machine/Press.lean ====
section
/-! DEFINITION. The press (R80 to R114, R131 to R145): issue checks and issue of P-format instructions, and the execution of
the head of the press queue. -/

namespace Sys2Proof.Machine

/-! ### Issue checks (R93, R94, R105, R107, R132, R137, R193) -/

/-- Bytes of a row of `k` elements of a format code. -/
def rowBytes (code k : Nat) : Nat := (k * fmtBits code + 7) / 8

/-- Bytes of one accumulator row stored in a format (R104, R105). -/
def accRowBytes (code : Nat) : Nat := 32 * fmtBits code / 8

/-- The stationary format and sparsity recorded for the next MM, and the streaming format, lie in one class (R94). -/
def mmCheck (y : Bay) (r : ThreadRec) (f : PFields) : Check :=
  let fa := f.fmt.toNat
  let ga := r.getG f.ga
  let gs := r.getG f.gs
  let gr := r.getG f.gr
  let a := strided ga
  let sc := strided gs
  let rr := rowRange gr
  let cls := pressClass fa
  let useS := !f.mod.getLsbD 5 && codeIn 4 0xA fa
  match cls with
  | none => ⟨true, false⟩
  | some k =>
    let depth := pressK k y.recAct.sparse
    { mal := pressClass y.recAct.fmt.toNat != some k || !stridedClean ga || !rowRangeClean gr || !a.aligned 16
        || (useS && (!stridedClean gs || !sc.aligned 8))
      rng := !rr.ok || !a.fits rr.m (rowBytes fa depth) || (useS && !sc.fits rr.m (depth / 32)) }

/-- The parts of a stationary block: bytes of values, indices and scales (R85). -/
def ldsParts (code : Nat) (sparse ns : Bool) : Nat × Nat × Nat :=
  match pressClass code with
  | none => (0, 0, 0)
  | some k =>
    (keptRows k * 32 * fmtBits code / 8, if sparse then keptRows k * 8 else 0,
     if ns || k == 2 then 0 else pressK k sparse / 32 * 32)

/-- LDS: each part that is read is aligned to 64 B and lies within bay memory (R193). -/
def ldsCheck (r : ThreadRec) (f : PFields) : Check :=
  let g := r.getG f.ga
  let p := ldsParts f.fmt.toNat (f.mod.getLsbD 0) (f.mod.getLsbD 5)
  let part := fun (base n : Nat) => (decide (n ≠ 0 ∧ base % 64 ≠ 0), decide (n ≠ 0 ∧ 0x100000 < base + n))
  let v := part (fieldOf g 0 20) p.1
  let i := part (fieldOf g 20 20) p.2.1
  let c := part (fieldOf g 40 20) p.2.2
  ⟨fieldOf g 60 4 != 0 || v.1 || i.1 || c.1, v.2 || i.2 || c.2⟩

/-- ACC.ST: operands, alignment and rows (R105), and no raw store from a block recorded in auto mode (R137). -/
def accStCheck (y : Bay) (fo : Nat) (acc1 : Bool) (ga gs gr : Word) : Check :=
  let a := strided ga
  let sc := strided gs
  let rr := rowRange gr
  let scaled := codeIn 4 0xA fo
  { mal := !stridedClean ga || !rowRangeClean gr || !a.aligned (if fo = 0xF then 64 else 8)
      || (scaled && (!stridedClean gs || !sc.aligned 8))
      || (fo == 0xF && (if acc1 then y.recAuto1 else y.recAuto0))
    rng := !rr.ok || !a.fits rr.m (accRowBytes fo) || (scaled && !sc.fits rr.m 1) }

/-- ACC.LD: raw rows, aligned to 64 B, of a block in fixed mode (R107, R137). -/
def accLdCheck (y : Bay) (r : ThreadRec) (f : PFields) : Check :=
  let ga := r.getG f.ga
  let gr := r.getG f.gr
  let a := strided ga
  let rr := rowRange gr
  { mal := !stridedClean ga || !rowRangeClean gr || !a.aligned 64 || (if f.acc = 1 then y.recAuto1 else y.recAuto0)
    rng := !rr.ok || !a.fits rr.m 512 }

/-- The dynamic issue checks of a P-format instruction. -/
def pressCheck (y : Bay) (r : ThreadRec) (c : PCode) (f : PFields) : Check :=
  (endCheck r.pc).and (match c with
    | .mm => mmCheck y r f
    | .lds => ldsCheck r f
    | .accSt => accStCheck y f.fmt.toNat (f.acc == 1) (r.getG f.ga) (r.getG f.gs) (r.getG f.gr)
    | .accLd => accLdCheck y r f
    | .turn | .accClr | .accWin => .none)

/-- The row mask of an MM: bit i of the pair (R93). -/
def rowMask (m : Vector Word 8) (rm : Nat) : Option (BitVec 128) :=
  if rm = 0 then none
  else some ((m[2 * (rm - 1) + 1]?.getD 0) ++ (m[2 * (rm - 1)]?.getD 0))

/-- The queue entry of a P-format instruction, operands and mask pair copied at issue (R48, R93). -/
def pressOpOf (y : Bay) (r : ThreadRec) (c : PCode) (f : PFields) : PressOp :=
  match c with
  | .mm => .mm f (r.getG f.ga) (r.getG f.gs) (r.getG f.gr) (rowMask y.m (f.mod.extractLsb' 2 3).toNat)
  | .lds => .lds f (r.getG f.ga)
  | .turn => .turn
  | .accClr => .accClr f
  | .accSt => .accSt f (r.getG f.ga) (r.getG f.gs) (r.getG f.gr)
  | .accLd => .accLd f (r.getG f.ga) (r.getG f.gr)
  | .accWin => .accWin f

/-- The issue records of the scalar core: banks after LDS and TURN (R94), block modes after ACC.WIN (R132). -/
def Bay.recordPress (y : Bay) (c : PCode) (f : PFields) : Bay :=
  match c with
  | .lds => { y with recShadow := ⟨f.fmt, f.mod.getLsbD 0⟩ }
  | .turn => { y with recAct := y.recShadow, recShadow := y.recAct }
  | .accWin => if f.acc = 1 then { y with recAuto1 := f.mod.getLsbD 8 } else { y with recAuto0 := f.mod.getLsbD 8 }
  | _ => y

/-- A P-format instruction issued into the press queue (R45, R64, R94). -/
def opPressIssue (c : PCode) (b : BayId) (t : Thread) (f : PFields) (s : State) : State :=
  let y := s.bay b
  (issueGate s b t (.p c f) (pressCheck y (y.thr t) c f)).run s fun s =>
    s.updBay b fun y =>
      let r := y.thr t
      let e : PressEntry := { qseq := r.qseq, pc := r.pc, op := pressOpOf y r c f }
      ({ y with pq := y.pq ++ [e] }.recordPress c f).setThr t r.took

/-! ### Accumulator rows -/

/-- An accumulator block of a bay. -/
def Bay.acc (y : Bay) (one : Bool) : AccBlock := if one then y.acc1 else y.acc0

/-- A bay with an accumulator block replaced. -/
def Bay.setAcc (y : Bay) (one : Bool) (a : AccBlock) : Bay := if one then { y with acc1 := a } else { y with acc0 := a }

/-- A row of a block. -/
def AccBlock.row (a : AccBlock) (i : Nat) : AccRow := smapGet (fun _ => AccRow.zero) a.rows i

/-- A block with a row written; the accumulators of the row take fresh codes. -/
def AccBlock.setRow (a : AccBlock) (i : Nat) (r : AccRow) : AccBlock :=
  { a with
    rows := smapSet (fun _ => AccRow.zero) a.rows i r
    weak := a.weak.filter fun k => k / 32 != i
    bad := a.bad.filter fun k => k / 32 != i }

/-- The window of a row: the block window in fixed mode, the row window in auto mode; none for an unset row (R134, R145). -/
def AccBlock.window (a : AccBlock) (i : Nat) : Option Int :=
  if a.auto then (a.row i).win.map fun w => winOfBits w else some (winOfBits a.win)

/-- The row holds an accumulator with a double-bit error (R104). -/
def AccBlock.rowBad (a : AccBlock) (i : Nat) : Bool := a.bad.any fun k => k / 32 == i

/-- Row `i` of a block read: single-bit errors are corrected and counted, double-bit errors are counted, each accumulator for itself
(R104). Answers the state, the block, and whether the row is uncorrectable. -/
def accRead (b : BayId) (a : AccBlock) (i : Nat) (s : State) : State × AccBlock × Bool :=
  let soft := (a.weak.filter fun k => k / 32 == i).length
  let s := if soft = 0 then s else (s.incF (Fld.PRS_ECC_CORR_CNT b.toNat) soft).tickEvent soft
  let s := if a.rowBad i then s.incF (Fld.PRS_ECC_UNCORR_CNT b.toNat) (a.bad.filter fun k => k / 32 == i).length else s
  (s, { a with weak := a.weak.filter fun k => k / 32 != i }, a.rowBad i)

/-! ### Stationary blocks -/

/-- Element `j` of a packed sequence of `w`-bit elements (R84). -/
def packedElem (bs : List Byte) (w j : Nat) : Nat :=
  leNat ((bs.drop (w * j / 8)).take ((w * j % 8 + w + 7) / 8)) / 2 ^ (w * j % 8) % 2 ^ w

/-- Scale byte of column `n` for logical k of a block; 2^0 where scales are absent (R85, R118). -/
def Bank.scaleAt (y : Bank) (n k : Nat) : Nat :=
  if y.ns then 0x7F
  else
    match y.scales[k / 32 * 32 + n]? with
    | some x => x.toNat
    | none => 0x7F

/-- The format of a bank. -/
def Bank.format (y : Bank) : Fmt := (Fmt.ofCode y.kind.fmt.toNat).getD .e4m3

/-- The kept elements of column `n`: logical k and value under its scale (R85, R86). -/
def Bank.column (y : Bank) (n : Nat) : List (Nat × Num) :=
  let cls := (pressClass y.kind.fmt.toNat).getD 0
  let f := y.format
  (List.range (keptRows cls)).map fun row =>
    let k :=
      if y.kind.sparse then
        let ix := leNat ((y.idx.drop (8 * row)).take 8) / 4 ^ n % 4
        row / 2 * 4 + ix
      else row
    (k, f.scaledValue (packedElem y.vals f.bits (row * 32 + n)) (y.scaleAt n k))

/-- The exponent of a stationary block (R133). -/
def blockExponent (y : Bank) : Option Int := maxExponent ((List.range 32).flatMap fun n => (y.column n).map Prod.snd)

/-! ### Execution -/

/-- Rows of several byte ranges read by the press; an uncorrectable word stops it (R55). -/
def pressRead (b : BayId) (o n : Nat) (s : State) : State × Bool :=
  readRows b (rowsOfBits (o * 8) (n * 8)) s

/-- Outcome of a press instruction: the state, and whether it stopped its engine on an error. -/
inductive PressEnd where
  | done (s : State)
  /-- uncorrectable error or failed write: nothing of the destination is written -/
  | error (s : State)
  /-- an enabled ACC_SAT trap -/
  | trap (s : State)
  deriving DecidableEq, Repr

/-- LDS: the parts are read and the shadow bank is written only if every read succeeded (R89). -/
def runLds (b : BayId) (f : PFields) (g : Word) (s : State) : PressEnd :=
  let sp := f.mod.getLsbD 0
  let ns := f.mod.getLsbD 5
  let p := ldsParts f.fmt.toNat sp ns
  let vb := fieldOf g 0 20
  let ib := fieldOf g 20 20
  let cb := fieldOf g 40 20
  let r1 := pressRead b vb p.1 s
  if r1.2 then .error r1.1
  else
    let r2 := pressRead b ib p.2.1 r1.1
    if r2.2 then .error r2.1
    else
      let r3 := pressRead b cb p.2.2 r2.1
      if r3.2 then .error r3.1
      else
        let s := r3.1
        let k : Bank :=
          { kind := ⟨f.fmt, sp⟩, ns := decide (p.2.2 = 0)
            vals := s.bayBytes b vb p.1, idx := s.bayBytes b ib p.2.1, scales := s.bayBytes b cb p.2.2, exp := none }
        .done (s.updBay b fun y => { y with shadow := { k with exp := blockExponent k } })

/-- TURN: the banks exchange roles, format and sparsity included (R88). -/
def runTurn (b : BayId) (s : State) : State :=
  s.updBay b fun y => { y with active := y.shadow, shadow := y.active, turnCnt := y.turnCnt + 1 }

/-- Streaming row `i` of an MM: element values under their scales (R87, R119). -/
def streamRow (s : State) (b : BayId) (fa : Fmt) (depth : Nat) (a sc : Strided) (useS : Bool) (i : Nat) : List Num :=
  let bs := s.bayBytes b (a.base + i * a.stride) ((depth * fa.bits + 7) / 8)
  (List.range depth).map fun k =>
    let x := if useS then (s.memByte (bayAddr b (sc.base + i * sc.stride + k / 32))).toNat else 0x7F
    fa.scaledValue (packedElem bs fa.bits k) x

/-- Counts that an MM gathers: saturation events, those that produce NaR, products rounded to zero, rows fed, skipped and
folded out. -/
structure MmCounts where
  sat : Nat
  narN : Nat
  uflow : Nat
  fed : Nat
  skipped : Nat
  folded : Nat
  deriving DecidableEq, Repr

/-- No count. -/
def MmCounts.zero : MmCounts := ⟨0, 0, 0, 0, 0, 0⟩

/-- Counts of one accumulator row write added. -/
def MmCounts.addRow (c : MmCounts) (ws : List ElemWrite) : MmCounts :=
  { c with
    sat := c.sat + (ws.filter fun e => e.event).length
    narN := c.narN + (ws.filter fun e => e.narEvent).length
    uflow := c.uflow + (ws.map fun e => e.uflow).sum }

/-- The 32 columns of a row from a list. -/
def colsOf (l : List (BitVec 128)) : Vector (BitVec 128) 32 := Vector.ofFn fun (i : Fin 32) => l[i.val]?.getD 0

/-- Products of column `n` of the active bank with a streaming row (R86, R95, R96). -/
def columnProducts (k : Bank) (row : List Num) (n : Nat) : List Num :=
  (k.column n).map fun p => pressProduct (row[p.1]?.getD Num.zero) p.2

/-- One fed row written into accumulator row `old` of block `a` under OW (R128, R134). -/
def mmRow (a : AccBlock) (old : AccRow) (k : Bank) (row : List Num) (ow : Bool) : AccRow × List ElemWrite :=
  let prods := (List.range 32).map (columnProducts k row)
  let base := old.cols.toList
  if !a.auto then
    let win := winOfBits a.win
    let ws := (List.range 32).map fun n =>
      elemWrite (if ow then 0 else base[n]?.getD 0) (prodSum win (prods[n]?.getD []))
    ({ cols := colsOf (ws.map ElemWrite.value), win := none }, ws)
  else
    let cand : Option Int :=
      match maxExponent row, k.exp with
      | some ea, some eb => some (max (-512) (min 511 (ea + eb + a.klog.toNat + 1)))
      | _, _ => none
    let fresh := ow || old.win.isNone
    -- the window that results, and the growth of the old integers (R134)
    let res : Option Int × Nat :=
      if fresh then (cand, 0)
      else
        let w := winOfBits (old.win.getD 0)
        match cand with
        | none => (some w, 0)
        | some c => (some (max w c), (max w c - w).toNat)
    let bases := (List.range 32).map fun n => if fresh then (0 : W128) else w128Rescale (base[n]?.getD 0) res.2
    let ws := (List.range 32).map fun n => elemWrite (bases[n]?.getD 0) (prodSum (res.1.getD 0) (prods[n]?.getD []))
    let sat := ws.any fun e => e.value == BitVec.ofInt 128 w128Max || e.value == BitVec.ofInt 128 (-w128Max)
    let win : Option Int := match res.1 with
      | some w => some w
      | none => if sat then some 511 else none
    ({ cols := colsOf (ws.map ElemWrite.value), win := win.map winBits }, ws)

/-- Counts of a row whose accumulators cannot be read: its products are rounded, and nothing is summed. -/
def MmCounts.addLost (c : MmCounts) (ws : List ElemWrite) : MmCounts := { c with uflow := c.uflow + (ws.map fun e => e.uflow).sum }

/-- State of an MM or ACC.LD while its rows are taken: the block, the rows to zero, the counts, the condition that stops it, if one
has arisen, and how many rows that were in the pipe behind it are still to be taken (R109). -/
structure MmRun where
  s : State
  acc : AccBlock
  zero : List Nat
  cnt : MmCounts
  err : Bool
  trap : Bool
  left : Option Nat
  deriving DecidableEq, Repr

/-- An instruction before its first row. -/
def MmRun.start (s : State) (acc : AccBlock) : MmRun :=
  { s := s, acc := acc, zero := [], cnt := .zero, err := false, trap := false, left := none }

/-- No further row is taken. -/
def MmRun.over (x : MmRun) : Bool := x.left == some 0

/-- A read of bay memory that failed: the instruction takes no further row; an uncorrectable error stops it, unless a condition of an
earlier row does (DESIGN CHOICE, log entry 74). -/
def MmRun.badRead (x : MmRun) (s : State) : MmRun := { x with s := s, err := !x.trap, left := some 0 }

/-- A row has entered the pipe. Where it raises the first condition that stops the instruction, up to `pipe` rows are in the pipe behind
it, an open number that the timing decides (R102, R109; log entry 74). -/
def MmRun.tookRow (x : MmRun) (pipe : Nat) (bad trap : Bool) : MmRun :=
  match x.left with
  | some k => { x with left := some (k - 1) }
  | none =>
    if bad || trap then
      let d := x.s.draw
      { x with s := d.1, err := bad, trap := !bad, left := some (d.2 % (pipe + 1)) }
    else x

/-- Streaming rows `i`, `i` + 1, … of an MM (R97 to R100, the feeder's pseudocode). -/
def mmRows (b : BayId) (k : Bank) (fa : Fmt) (depth : Nat) (a sc : Strided) (useS ow zr : Bool)
    (mask : Option (BitVec 128)) (r0 pipe : Nat) : Nat → Nat → MmRun → MmRun
  | 0, _, x => x
  | n + 1, i, x =>
    if x.over then x
    else if !(match mask with
      | none => true
      | some m => m.getLsbD i) then
      mmRows b k fa depth a sc useS ow zr mask r0 pipe n (i + 1)
        { x with zero := if zr then x.zero ++ [r0 + i] else x.zero, cnt := { x.cnt with folded := x.cnt.folded + 1 } }
    else
      let d := pressRead b (a.base + i * a.stride) ((depth * fa.bits + 7) / 8) x.s
      let c := if useS then pressRead b (sc.base + i * sc.stride) (depth / 32) d.1 else (d.1, false)
      if d.2 || c.2 then x.badRead (if d.2 then d.1 else c.1)
      else
        let row := streamRow c.1 b fa depth a sc useS i
        if row.all Num.isZero then
          mmRows b k fa depth a sc useS ow zr mask r0 pipe n (i + 1)
            { x with s := c.1, zero := if ow then x.zero ++ [r0 + i] else x.zero
                     cnt := { x.cnt with skipped := x.cnt.skipped + 1 } }
        else
          let q := if ow then (c.1, x.acc, false) else accRead b x.acc (r0 + i) c.1
          let w := mmRow q.2.1 (q.2.1.row (r0 + i)) k row ow
          let sat := w.2.any fun e => e.event
          mmRows b k fa depth a sc useS ow zr mask r0 pipe n (i + 1)
            ({ x with
                s := q.1
                acc := if q.2.2 then q.2.1 else q.2.1.setRow (r0 + i) w.1
                cnt := { (if q.2.2 then x.cnt.addLost w.2 else x.cnt.addRow w.2) with fed := x.cnt.fed + 1 } }.tookRow
              pipe q.2.2 (sat && q.1.trapOn b .accSat))

/-- The counters of the press after an instruction (R108, R112, R144). -/
def State.mmCount (s : State) (b : BayId) (c : MmCounts) : State :=
  let s := s.flagEvents b .accSat c.sat
  let s := if c.narN = 0 then s else s.incF (Fld.PRS_NAR_CNT_COUNT b.toNat) c.narN
  let s := if c.uflow = 0 then s else s.incF (Fld.PRS_UFLOW_CNT_COUNT b.toNat) c.uflow
  let s := if c.fed = 0 then s else s.incF (Fld.PRS_FED_ROWS b.toNat) c.fed
  let s := if c.skipped = 0 then s else s.incF (Fld.PRS_SKIPS_ZERO_SKIPPED b.toNat) c.skipped
  if c.folded = 0 then s else s.incF (Fld.PRS_SKIPS_MASK_FOLDED b.toNat) c.folded

/-- The single-bit errors that an instruction's reads corrected stay corrected, though its rows go back to what they were (R104,
R109). -/
def State.healAcc (s : State) (b : BayId) (one : Bool) (a : AccBlock) : State :=
  s.updBay b fun y => y.setAcc one { y.acc one with weak := a.weak }

/-- Rows that can be in the pipe behind a row when that row is written: 6 cycles after its multiplication with one row a cycle, or 7
with one in two (R102). -/
def mmPipe (cls : Nat) : Nat := if cls = 2 then 3 else 6

/-- MM (R93 to R100, R128, R134). A trap or an error leaves every row as it was (R109). -/
def runMm (b : BayId) (f : PFields) (ga gs gr : Word) (mask : Option (BitVec 128)) (s : State) : PressEnd :=
  let y := s.bay b
  let one := f.acc == 1
  let k := y.active
  let fa := (Fmt.ofCode f.fmt.toNat).getD .e4m3
  let cls := (pressClass k.kind.fmt.toNat).getD 0
  let depth := pressK cls k.kind.sparse
  let useS := !f.mod.getLsbD 5 && fa.scaled
  let rr := rowRange gr
  let x := mmRows b k fa depth (strided ga) (strided gs) useS (f.mod.getLsbD 0) (f.mod.getLsbD 1) mask rr.r0 (mmPipe cls) rr.m 0
    (.start s (y.acc one))
  let s := x.s.mmCount b x.cnt
  if x.err then .error (s.healAcc b one x.acc)
  else if x.trap then .trap (s.healAcc b one x.acc)
  else
    let acc := x.zero.foldl (fun a r => a.setRow r .zero) x.acc
    .done (s.updBay b fun y => y.setAcc one acc)

/-- ACC.CLR: all 128 rows zero, and unset in auto mode (R105, R136). -/
def AccBlock.cleared (a : AccBlock) : AccBlock := { a with rows := [], weak := [], bad := [] }

/-- ACC.WIN: a clear that also sets mode, window and KLOG (R132, R143). -/
def accWinOf (f : PFields) (a : AccBlock) : AccBlock :=
  let auto := f.mod.getLsbD 8
  { a.cleared with auto := auto, win := if auto then 0 else f.mod.extractLsb' 9 10, klog := f.mod.extractLsb' 19 6 }

/-- The bytes of accumulator row `i` stored in a format, and its scale byte (R104, R105, R139, R140). -/
def accRowOut (a : AccBlock) (fo : Nat) (i : Nat) : List Byte × Option Byte :=
  let row := (a.row i).cols.toList
  if fo = 0xF then (row.flatMap fun x => leBytes 16 x.toNat, none)
  else
    match Fmt.ofCode fo with
    | none => ([], none)
    | some g =>
      let win := a.window i
      let q := w128ConvertRow g (win.getD 0) row
      (leBytes (32 * g.bits / 8) (packElems g.bits q.2), if g.scaled then some (BitVec.ofNat 8 q.1) else none)

/-- ACC.ST of rows, in order; it stops at a row it cannot read or write (R105, R109). Every row before the failing one is stored, though
rows are written 3 cycles after they are read (DESIGN CHOICE, log entry 74: the spec says only that no further row is written).
Answers the state, whether it failed, and the rows read. -/
def accStRows (b : BayId) (a : AccBlock) (fo : Nat) (dst sc : Strided) (r0 : Nat) : Nat → Nat → State → State × Bool × Nat
  | 0, i, s => (s, false, i)
  | n + 1, i, s =>
    let q := accRead b a (r0 + i) s
    if q.2.2 then (q.1, true, i + 1)
    else
      let o := accRowOut a fo (r0 + i)
      let w := q.1.bayWrite b (dst.base + i * dst.stride) o.1
      if w.2 then (w.1, true, i + 1)
      else
        match o.2 with
        | none => accStRows b a fo dst sc r0 n (i + 1) w.1
        | some x =>
          let w2 := w.1.bayWrite b (sc.base + i * sc.stride) [x]
          if w2.2 then (w2.1, true, i + 1) else accStRows b a fo dst sc r0 n (i + 1) w2.1

/-- The check of a strip (R395): each row's data followed by its scale byte. -/
def stripCheck (a : AccBlock) (fo r0 m : Nat) : Word :=
  crc64 ((List.range m).flatMap fun i => (accRowOut a fo (r0 + i)).1 ++ (accRowOut a fo (r0 + i)).2.toList)

/-- Offsets of the first byte of each row and scale that ACC.ST writes, with the bytes written there. -/
def stripSpans (fo : Nat) (dst sc : Strided) (m : Nat) : List (Nat × Nat) :=
  (List.range m).map (fun i => (dst.base + i * dst.stride, accRowBytes fo))
    ++ (if codeIn 4 0xA fo then (List.range m).map fun i => (sc.base + i * sc.stride, 1) else [])

/-- The lowest offset a strip writes. -/
def stripLo (fo : Nat) (dst sc : Strided) (m : Nat) : Nat :=
  (stripSpans fo dst sc m).foldl (fun x p => min x p.1) 0xFFFFF

/-- The highest offset a strip writes. -/
def stripHi (fo : Nat) (dst sc : Strided) (m : Nat) : Nat :=
  (stripSpans fo dst sc m).foldl (fun x p => max x (p.1 + p.2 - 1)) 0

/-- ACC.ST (R105, R139): with CLR the rows stored are cleared, unless the store fails (R109). -/
def runAccSt (b : BayId) (fo : Nat) (one clr : Bool) (ga gs gr : Word) (s : State) : PressEnd :=
  let a := (s.bay b).acc one
  let rr := rowRange gr
  let w := accStRows b a fo (strided ga) (strided gs) rr.r0 rr.m 0 s
  -- the single-bit errors that the reads found are written back corrected (R104)
  let heal := fun (a : AccBlock) => { a with weak := a.weak.filter fun k => k / 32 < rr.r0 || rr.r0 + w.2.2 ≤ k / 32 }
  if w.2.1 then .error (w.1.updBay b fun y => y.setAcc one (heal (y.acc one)))
  else .done ((w.1.strip b (rr.m != 0) (stripCheck a fo rr.r0 rr.m) (stripLo fo (strided ga) (strided gs) rr.m)
      (stripHi fo (strided ga) (strided gs) rr.m)).updBay b fun y =>
    y.setAcc one ((List.range rr.m).foldl (fun a i => if clr then a.setRow (rr.r0 + i) .zero else a) (heal (y.acc one))))

/-- Rows loaded by ACC.LD (R107, R128). With ADD clear a loaded row replaces the old one: a NaR pattern in it is no saturation and no NaR
event (DESIGN CHOICE, log entry 74: R129 speaks of sums). Where a row stops the instruction, an open number of the rows behind it
are in the pipe: the spec does not state the depth of this pipe. -/
def accLdRows (b : BayId) (src : Strided) (r0 : Nat) (add : Bool) : Nat → Nat → MmRun → MmRun
  | 0, _, x => x
  | n + 1, i, x =>
    if x.over then x
    else
      let o := src.base + i * src.stride
      let d := pressRead b o 512 x.s
      if d.2 then x.badRead d.1
      else
        let q := if add then accRead b x.acc (r0 + i) d.1 else (d.1, x.acc, false)
        let vals := (List.range 32).map fun c => BitVec.ofNat 128 (leNat (d.1.bayBytes b (o + 16 * c) 16))
        let old := (q.2.1.row (r0 + i)).cols.toList
        let ws : List ElemWrite := (List.range 32).map fun c =>
          if add then w128Add (old[c]?.getD 0) (vals[c]?.getD 0) else ⟨vals[c]?.getD 0, false, false, 0⟩
        accLdRows b src r0 add n (i + 1)
          ({ x with
              s := q.1
              acc := if q.2.2 then q.2.1 else q.2.1.setRow (r0 + i) { cols := colsOf (ws.map ElemWrite.value), win := none }
              cnt := if q.2.2 then x.cnt else x.cnt.addRow ws }.tookRow
            n q.2.2 (ws.any ElemWrite.event && q.1.trapOn b .accSat))

/-- ACC.LD (R107, R109). -/
def runAccLd (b : BayId) (f : PFields) (ga gr : Word) (s : State) : PressEnd :=
  let one := f.acc == 1
  let rr := rowRange gr
  let x := accLdRows b (strided ga) rr.r0 (f.mod.getLsbD 7) rr.m 0 (.start s ((s.bay b).acc one))
  let s := x.s.mmCount b x.cnt
  if x.err then .error (s.healAcc b one x.acc)
  else if x.trap then .trap (s.healAcc b one x.acc)
  else .done (s.updBay b fun y => y.setAcc one x.acc)

/-! ### The meanings -/

/-- MM (R93): issue into the press queue. -/
def execMm (b : BayId) (t : Thread) (f : PFields) (s : State) : Res :=
  .next (opPressIssue .mm b t f s)

/-- LDS (R89): issue into the press queue. -/
def execLds (b : BayId) (t : Thread) (f : PFields) (s : State) : Res :=
  .next (opPressIssue .lds b t f s)

/-- TURN (R90): issue into the press queue. -/
def execTurn (b : BayId) (t : Thread) (f : PFields) (s : State) : Res :=
  .next (opPressIssue .turn b t f s)

/-- ACC_CLR (R105): issue into the press queue. -/
def execAccClr (b : BayId) (t : Thread) (f : PFields) (s : State) : Res :=
  .next (opPressIssue .accClr b t f s)

/-- ACC_ST (R105): issue into the press queue. -/
def execAccSt (b : BayId) (t : Thread) (f : PFields) (s : State) : Res :=
  .next (opPressIssue .accSt b t f s)

/-- ACC_LD (R107): issue into the press queue. -/
def execAccLd (b : BayId) (t : Thread) (f : PFields) (s : State) : Res :=
  .next (opPressIssue .accLd b t f s)

/-- ACC_WIN (R132): issue into the press queue. -/
def execAccWin (b : BayId) (t : Thread) (f : PFields) (s : State) : Res :=
  .next (opPressIssue .accWin b t f s)

end Sys2Proof.Machine
end

