-- ==== Sys2Proof/Machine/Sync.lean ====
section
/-! DEFINITION. Synchronisation instructions and what releases them (R54, R62, R63, R76, R181, R197 to R199), and the start and
stop of threads (R73). -/

namespace Sys2Proof.Machine

/-- A launch fired at a scribe mark: counted when late by more than 100 ticks (R366), and while alignment is degraded (R368). -/
def State.launchFired (s : State) (mark now : Nat) : State :=
  let s := { s with ldg := { s.ldg with launches := (mark, now) :: s.ldg.launches } }
  let s := if mark + 100 < now then (s.incF Fld.SCR_LAUNCH_LATE).tickEvent else s
  if s.getF Fld.SCR_STATUS_DEGRADED = 1 then s.incF Fld.SCR_LAUNCH_DEG_FIRED else s

/-- A thread enters WAIT at its instruction (R76). -/
def State.enterWait (s : State) (b : BayId) (t : Thread) (w : WaitFor) : State :=
  s.updThr b t fun r => { r.setSt .wait with waitFor := w }

/-- A thread leaves WAIT: its g destination is written and the next instruction follows. -/
def State.leaveWait (s : State) (b : BayId) (t : Thread) (gd : BitVec 5) (v : Word) : State :=
  s.updThr b t fun r => { ((r.setG gd v).advance).setSt .run with waitFor := .none }

/-- A request in its slot has finished with local bay memory (R54): every PUT source read, the GET data that will be written
written and no completion word to come. -/
def Slot.localDone (x : Slot) : Bool :=
  match x.kind with
  | .put | .putF => decide (x.len ≤ x.moved)
  | .get => x.cw.isNone && (decide (x.len ≤ x.acked) || x.fail.isSome)
  | .amo => true

/-- The slots in use, with their numbers. -/
def Bay.usedSlots (y : Bay) : List (Nat × Slot) := y.slots.filterMap fun e => e.2.map fun x => (e.1, x)

/-- A sequenced packet of a request waits to be formed. -/
def Fabric.toForm (f : Fabric) (o : Origin) : Bool :=
  (f.srcs.any fun p => p.waiting.any fun r => r.org == o) || f.stalled.any fun e => e.2.org == o

/-- What SYNC waits for holds (R54). -/
def State.syncDone (s : State) (b : BayId) (t : Thread) (m v p : Bool) : Bool :=
  let y := s.bay b
  (!p || t == .seam || y.pq.isEmpty)
    && (!v || (match t with
      | .main => y.mainVq.isEmpty
      | .seam => y.seamVq.isEmpty))
    && (!m || y.usedSlots.all fun e => e.2.t != t || (e.2.localDone && (e.2.kind == .get || !s.fab.toForm (.msg b e.1 e.2.ord))))

/-- Every PUT, PUT.F and AMO with an issue number below `limit` has finished (R62). -/
def Bay.fenceDone (y : Bay) (limit : Nat) : Bool :=
  y.usedSlots.all fun e => e.2.kind == .get || decide (limit ≤ e.2.ord)

/-- SYNC (R54): an operand of zero does nothing; otherwise the thread goes on when the condition holds, and waits until
then. -/
def opSync (b : BayId) (t : Thread) (f : XFields) (s : State) : State :=
  let r := s.thr b t
  (issueGate s b t (.x .sync f) (endCheck r.pc)).run s fun s =>
    let m := f.mod.getLsbD 2
    let v := f.mod.getLsbD 1
    let p := f.mod.getLsbD 0
    if s.syncDone b t m v p then s.updThr b t fun r => r.advance
    else s.enterWait b t (.sync m v p)

/-- A waiting SYNC goes on when its condition holds. -/
def opSyncRelease (b : BayId) (t : Thread) (s : State) : State :=
  match (s.thr b t).waitFor with
  | .sync m v p =>
    if !s.gated && s.syncDone b t m v p then s.leaveWait b t 0 0 else s
  | _ => s

/-- The first failure in a list of failed requests among those with an issue number below `limit`. -/
def firstFail (l : List (Nat × Code)) (limit : Nat) : Option Code := (l.find? fun e => decide (e.1 < limit)).map Prod.snd

/-- A FENCE in which a thread waits keeps the first of the failures `l` among the requests it waits for. -/
def WaitFor.sees (w : WaitFor) (l : List (Nat × Code)) : WaitFor :=
  match w with
  | .fence limit gd seen => .fence limit gd (seen.orElse fun _ => firstFail l limit)
  | w => w

/-- FENCE completes: the code of the first failure among the requests it waited for, or DONE (R62); an AMO of the thread that
failed meanwhile stops it (R63). The failures returned leave the bay's list; a FENCE in which the other thread waits keeps the
first of those that it waits for too. -/
def State.fenceFinish (s : State) (b : BayId) (t : Thread) (limit : Nat) (gd : BitVec 5) (seen : Option Code) : State :=
  let y := s.bay b
  match (y.thr t).pend.find? fun p => p.failed.isSome with
  | some p => s.updThr b t fun r => r.stopOn (p.failed.getD 0) 4 0 p.qseq p.pc p.reg true
  | none =>
    let code := (seen.orElse fun _ => firstFail y.fenceFails limit).getD cDONE
    let gone := y.fenceFails.filter fun e => decide (e.1 < limit)
    ((s.updBay b fun y => { y with fenceFails := y.fenceFails.filter fun e => decide (limit ≤ e.1) }).updThr b (otherThread t) fun r =>
      { r with waitFor := r.waitFor.sees gone }).leaveWait b t gd (code.setWidth 64)

/-- FENCE (R62). -/
def opFence (b : BayId) (t : Thread) (f : XFields) (s : State) : State :=
  let r := s.thr b t
  (issueGate s b t (.x .fence f) (endCheck r.pc)).run s fun s =>
    let limit := (s.bay b).msgCount
    if (s.bay b).fenceDone limit then s.fenceFinish b t limit f.gd none
    else s.enterWait b t (.fence limit f.gd none)

/-- A waiting FENCE completes when every request it waits for has finished. -/
def opFenceComplete (b : BayId) (t : Thread) (s : State) : State :=
  match (s.thr b t).waitFor with
  | .fence limit gd seen => if !s.gated && (s.bay b).fenceDone limit then s.fenceFinish b t limit gd seen else s
  | _ => s

/-- The condition codes of WAIT.FLAG (R197): word ≥ GB unsigned, word = GB, word ≠ GB. -/
def flagHolds (cond : BitVec 2) (word cmp : Word) : Bool :=
  match cond.toNat with
  | 0 => decide (cmp.toNat ≤ word.toNat)
  | 1 => word == cmp
  | _ => word != cmp

/-- The flag word of bay memory at an offset. -/
def State.flagWord (s : State) (b : BayId) (off : BitVec 20) : Word := BitVec.ofNat 64 (leNat (s.bayBytes b off.toNat 8))

/-- One read of a flag word by a waiting thread (R198): a satisfied condition gives DONE, an uncorrectable error is a precise
fault, and otherwise `other` decides. -/
def State.readFlag (s : State) (b : BayId) (t : Thread) (off : BitVec 20) (cmp : Word) (cond : BitVec 2) (gd : BitVec 5)
    (other : State → State) : State :=
  let e := s.eccRead b off.toNat 8
  if e.2 then
    ((e.1.bitsEvent cMEM_UNCORRECTABLE).preciseFault b t cMEM_UNCORRECTABLE)
  else if flagHolds cond (e.1.flagWord b off) cmp then e.1.leaveWait b t gd (cDONE.setWidth 64)
  else other e.1

/-- WAIT.FLAG (R198). -/
def opWaitFlag (b : BayId) (t : Thread) (f : XFields) (s : State) : State :=
  let r := s.thr b t
  let a := r.getG f.ga
  let chk : Check := (endCheck r.pc).and ⟨decide (a.toNat % 8 ≠ 0) || fieldOf a 20 44 != 0, false⟩
  (issueGate s b t (.x .waitFlag f) chk).run s fun s =>
    let off : BitVec 20 := a.setWidth 20
    let cmp := r.getG f.gb
    let cond : BitVec 2 := f.mod.extractLsb' 0 2
    s.readFlag b t off cmp cond f.gd fun s =>
      let limit := (r.getG f.gc).toNat
      if limit = 0 then s.enterWait b t (.flag off cmp cond none f.gd)
      else
        let c := s.scribeCopy b
        c.1.enterWait b t (.flag off cmp cond (some (c.2.toNat + limit)) f.gd)

/-- The word is read again (R198). -/
def opWaitFlagReread (b : BayId) (t : Thread) (s : State) : State :=
  match (s.thr b t).waitFor with
  | .flag off cmp cond _ gd => if s.gated then s else s.readFlag b t off cmp cond gd fun s => s
  | _ => s

/-- The timeout of WAIT.FLAG passes on the bay's copy of the count: a satisfying read gives DONE, and otherwise GD receives
TIMEOUT (R198). -/
def opWaitFlagTimeout (b : BayId) (t : Thread) (s : State) : State :=
  match (s.thr b t).waitFor with
  | .flag off cmp cond (some d) gd =>
    let c := s.scribeCopy b
    if s.gated || decide (c.2.toNat < d) then s
    else c.1.readFlag b t off cmp cond gd fun s => s.leaveWait b t gd (cTIMEOUT.setWidth 64)
  | _ => s

/-- Release of WAIT.SCRIBE at count `now` on the bay's copy (R199): GD receives the copy. -/
def State.releaseScribe (s : State) (b : BayId) (t : Thread) (mark now : Word) (gd : BitVec 5) : State :=
  (s.launchFired mark.toNat now.toNat).leaveWait b t gd now

/-- WAIT.SCRIBE (R199): a mark already passed releases at once. -/
def opWaitScribe (b : BayId) (t : Thread) (f : XFields) (s : State) : State :=
  let r := s.thr b t
  (issueGate s b t (.x .waitScribe f) (endCheck r.pc)).run s fun s =>
    let mark := r.getG f.ga
    let c := s.scribeCopy b
    if mark.toNat ≤ c.2.toNat then c.1.releaseScribe b t mark c.2 f.gd
    else c.1.enterWait b t (.scribe mark f.gd)

/-- The bay's copy of the count reaches the mark of a waiting WAIT.SCRIBE (R199). -/
def opWaitScribeRelease (b : BayId) (t : Thread) (s : State) : State :=
  match (s.thr b t).waitFor with
  | .scribe mark gd =>
    let c := s.scribeCopy b
    if s.gated || decide (c.2.toNat < mark.toNat) then s else c.1.releaseScribe b t mark c.2 gd
  | _ => s

/-- END: the thread drains towards IDLE (R76). -/
def opEnd (b : BayId) (t : Thread) (f : XFields) (s : State) : State :=
  (issueGate s b t (.x .endThread f) .none).run s fun s =>
    s.updThr b t fun r => { r.setSt .drain with stop := some { goal := .idle, qseq := 0, engine := false } }

/-! ### Start and stop (R73) -/

/-- A thread started by GO: its status cleared, its VL zero, its program counter at `pc` (R73, R148). -/
def ThreadRec.start (r : ThreadRec) (pc : BitVec 20) : ThreadRec :=
  { r with pc := pc, vl := 0, pend := [], stop := none, waitFor := .none, line := none, status := { ThreadStatus.clear with st := .run } }

/-- A thread that GO does not start: its status is cleared (R73). -/
def ThreadRec.wipe (r : ThreadRec) : ThreadRec :=
  { r with vl := 0, pend := [], stop := none, waitFor := .none, line := none, status := .clear }

/-- GO: both status registers are cleared, the main thread starts, and the seam thread with it where SEAM_EN is set. The issue
records start from the banks and blocks as they are (R94, R132). -/
def State.bayGo (s : State) (b : BayId) : State :=
  let mpc := BitVec.ofNat 20 (8 * s.getF (Fld.BAY_MAIN_PC_PC b.toNat))
  let spc := BitVec.ofNat 20 (8 * s.getF (Fld.BAY_SEAM_PC_PC b.toNat))
  let seam := s.seamEn b
  s.updBay b fun y =>
    { y with
      main := y.main.start mpc
      seam := if seam then y.seam.start spc else y.seam.wipe
      recAct := y.active.kind
      recShadow := y.shadow.kind
      recAuto0 := y.acc0.auto
      recAuto1 := y.acc1.auto }

/-- STOP on one thread: a live one drains towards STOPPED, one that drains towards FAULT keeps its goal (R73). -/
def ThreadRec.halt (r : ThreadRec) : ThreadRec :=
  if r.status.st.live then
    match r.stop with
    | some p =>
      if p.goal = .fault then r
      else { r.setSt .drain with stop := some { goal := .stopped, qseq := 0, engine := false }, waitFor := .none }
    | none => { r.setSt .drain with stop := some { goal := .stopped, qseq := 0, engine := false }, waitFor := .none }
  else r

/-- STOP (R73). -/
def State.bayStop (s : State) (b : BayId) : State := s.updBay b fun y => { y with main := y.main.halt, seam := y.seam.halt }

/-- A thread of the bay is in RUN, WAIT or DRAIN (R73). -/
def Bay.live (y : Bay) : Bool := y.main.status.st.live || y.seam.status.st.live

/-! ### The meanings -/

/-- SYNC (R54). -/
def execSync (b : BayId) (t : Thread) (f : XFields) (s : State) : Res := .next (opSync b t f s)

/-- SYNC_RELEASE (R54). -/
def execSyncRelease (b : BayId) (t : Thread) (s : State) : Res := .next (opSyncRelease b t s)

/-- FENCE (R62). -/
def execFence (b : BayId) (t : Thread) (f : XFields) (s : State) : Res := .next (opFence b t f s)

/-- FENCE_COMPLETE (R62). -/
def execFenceComplete (b : BayId) (t : Thread) (s : State) : Res := .next (opFenceComplete b t s)

/-- WAIT_FLAG (R198). -/
def execWaitFlag (b : BayId) (t : Thread) (f : XFields) (s : State) : Res := .next (opWaitFlag b t f s)

/-- WAIT_FLAG_REREAD (R198). -/
def execWaitFlagReread (b : BayId) (t : Thread) (s : State) : Res := .next (opWaitFlagReread b t s)

/-- WAIT_FLAG_TIMEOUT (R198). -/
def execWaitFlagTimeout (b : BayId) (t : Thread) (s : State) : Res := .next (opWaitFlagTimeout b t s)

/-- WAIT_SCRIBE (R199). -/
def execWaitScribe (b : BayId) (t : Thread) (f : XFields) (s : State) : Res := .next (opWaitScribe b t f s)

/-- WAIT_SCRIBE_RELEASE (R199). -/
def execWaitScribeRelease (b : BayId) (t : Thread) (s : State) : Res := .next (opWaitScribeRelease b t s)

/-- END (R76). -/
def execEndThread (b : BayId) (t : Thread) (f : XFields) (s : State) : Res := .next (opEnd b t f s)

end Sys2Proof.Machine
end

