-- ==== Sys2Proof/Machine/Message.lean ====
section
/-! DEFINITION. The message engine (R58 to R63, R77, R194, R195): issue of PUT, PUT.F, GET and AMO, the slots, the packets inside
the device, and how a request fails or finishes. -/

namespace Sys2Proof.Machine

/-! ### Issue -/

/-- Length in bytes of a PUT, PUT.F or GET (R194). -/
def msgLen (r : ThreadRec) (f : MFields) : Nat :=
  if f.lr = 1 then (r.getG f.gn).toNat else 8 * (f.len8.toNat + 1)

/-- Every byte of a range lies in the map of R4. -/
def inMap (a n : Nat) : Bool := regionOf a != .none && regionOf (a + n - 1) != .none

/-- Bits of a destination operand that R61 requires to be zero. -/
def destClean (d : Word) : Bool :=
  fieldOf d 54 9 == 0 && (d.getLsbD 63 || fieldOf d 48 6 == 0)

/-- The issue checks of a message instruction (R63, R195). -/
def msgCheck (r : ThreadRec) (k : MsgKind) (f : MFields) : Check :=
  let d := r.getG f.gt
  let x := r.getG f.gx
  let loc := r.getG f.gl
  let n := if k = .amo then 8 else msgLen r f
  let lenBad := k != .amo && (decide (n < 8) || decide (65536 < n) || decide (n % 8 ≠ 0))
  let locBad := k != .amo && (fieldOf loc 20 44 != 0 || decide (fieldOf loc 0 20 % 8 ≠ 0))
  let here := !d.getLsbD 63
  { mal := !destClean d || decide (fieldOf d 0 48 % 8 ≠ 0) || lenBad || locBad
      || (k == .putF && (fieldOf x 48 16 != 0 || decide (fieldOf x 0 48 % 8 ≠ 0)))
      || (k == .get && f.cw == 1 && (fieldOf x 20 44 != 0 || decide (fieldOf x 0 20 % 8 ≠ 0)))
    rng := decide (r.pc = lastPc)
      || (k != .amo && decide (0x100000 < fieldOf loc 0 20 + n))
      || (here && !inMap (fieldOf d 0 48) n)
      || (here && k == .putF && !inMap (fieldOf x 0 48) 8) }

/-- The M-format code of a request. -/
def MsgKind.code : MsgKind → MCode
  | .put => .put
  | .putF => .putF
  | .get => .get
  | .amo => .amo

/-- Device that a destination operand names (R9, R61). -/
def State.destDev (s : State) (d : Word) : DevCoord :=
  if d.getLsbD 63 then
    (s.devCoord &&& 0xFFC0) ||| (d.extractLsb' 48 6).setWidth 16
  else s.devCoord

/-- The lowest free slot of a bay. -/
def Bay.freeSlot (y : Bay) : Nat :=
  ((List.range 256).find? fun i => !(y.slots.any fun e => e.1 == i)).getD 0

/-- Offsets and lengths of the parts of `n` bytes cut at `k` from its start. -/
def cutParts (k n : Nat) : List (Nat × Nat) := (List.range ((n + k - 1) / k)).map fun i => (i * k, min k (n - i * k))

/-- The packets of a request to another device (R59, R287, R288). -/
def slotReqs (b : BayId) (i : Nat) (x : Slot) : List Req :=
  let a := fieldOf x.dest 0 48
  let one := fun (type : BitVec 4) (addr len data : Nat) =>
    ({ org := .msg b i x.ord, type := type, srcEp := b.toNat, dstEp := servingEp addr, addr := BitVec.ofNat 48 addr, len := len
       data := data, given := [], hdr := [], slot := i } : Req)
  match x.kind with
  | .put => (cutParts 2048 x.len).map fun p => one 0 (a + p.1) p.2 (bayAddr b (x.loc + p.1))
  | .putF => (cutParts 2048 x.len).map fun p => one 0 (a + p.1) p.2 (bayAddr b (x.loc + p.1))
  | .get => (cutParts 2048 x.len).map fun p => one 3 (a + p.1) p.2 p.1
  | .amo => []

/-- The FLAG of a PUT.F (R61, R288). -/
def flagReq (b : BayId) (i : Nat) (x : Slot) : Req :=
  { org := .msg b i x.ord, type := 1, srcEp := b.toNat, dstEp := servingEp x.flag.toNat, addr := x.flag, len := 8, data := 0
    given := [], hdr := [], slot := i }

/-- The place of a remote atomic among the requests to its device: it leaves after those before it (R303). -/
def amoTurn (b : BayId) (i : Nat) (x : Slot) : Req := { flagReq b i x with type := 6 }

/-- A request handed on: a request to another device forms its packets (R301), or fails where the bay has no path to its sill; one
inside the device waits for its packets to arrive. -/
def State.startSlot (s : State) (b : BayId) (i : Nat) (x : Slot) : State :=
  if x.dev = s.devCoord then s
  else if s.cut b then s.endReq (amoTurn b i x) cLINK_LOST
  else if x.kind = MsgKind.amo then s.sendReqs x.dev [amoTurn b i x]
  else (s.setSlot b i (some { x with moved := x.len, flagDone := x.kind != .putF })).sendReqs x.dev (slotReqs b i x)

/-- A slot taken by an instruction that issues (R58, R64). -/
def State.takeSlot (s : State) (b : BayId) (t : Thread) (k : MsgKind) (f : MFields) : State :=
  let y := s.bay b
  let r := y.thr t
  let i := y.freeSlot
  let gx := r.getG f.gx
  let gen := smapGet (fun _ => (0 : BitVec 16)) y.slotGen i
  let dest := r.getG f.gt
  let remoteAmo := k == MsgKind.amo && s.destDev dest != s.devCoord
  let x : Slot :=
    { t := t, kind := k, qseq := r.qseq, pc := r.pc, ord := y.msgCount, loc := fieldOf (r.getG f.gl) 0 20, dest := dest
      dev := s.destDev dest, len := if k = .amo then 8 else msgLen r f, flag := gx.setWidth 48
      cw := if k = .get ∧ f.cw = 1 then some (fieldOf gx 0 20) else none
      aop := f.aop, x := r.getG f.gn, cmp := gx, gd := f.gl, moved := 0, flagDone := false, acks := [], acked := 0, pieces := []
      fail := none, gen := if remoteAmo then gen + 1 else gen, smark := 0, spinc := 0, sends := 1, refused := false, first := s.now
      forColl := none, buf := [] }
  let s := s.setBay b
    ({ y with
        slotGen := if remoteAmo then smapSet (fun _ => 0) y.slotGen i (gen + 1) else y.slotGen
        msgCount := y.msgCount + 1 }.setSlot i (some x) |>.setThr t
      ((r.mark (if k = MsgKind.amo then some f.gl else none) true).took))
  s.startSlot b i x

/-! ### Failure and end of a request -/

/-- Packets of a request that the fabric has not yet acknowledged. -/
def Fabric.reqsLeft (f : Fabric) (o : Origin) : Bool :=
  (f.srcs.any fun p => (p.unacked.any fun e => e.2.org == o) || p.waiting.any fun r => r.org == o)
    || (f.stalled.any fun e => e.2.org == o) || f.ended.any fun e => e.1.org == o

/-- An asynchronous failure of a request (R63, R77): the first is recorded, every one is counted, and the slot keeps its code. A request
fails once: further packets of it that fail are not counted again (DESIGN CHOICE, log entry 71: the spec does not say whether
COUNT counts requests or packets). -/
def State.failSlot (s : State) (b : BayId) (i : Nat) (code : Code) : State :=
  match (s.bay b).slot i with
  | none => s
  | some x =>
    if x.fail.isSome then s
    else
      let n := b.toNat
      let s := s.incF (Fld.BAY_MSG_ERR_CNT_COUNT n)
      let s := if s.getF (Fld.BAY_MSG_ERR_VALID n) = 1 then s
        else s.setFs [(Fld.BAY_MSG_ERR_VALID n, 1), (Fld.BAY_MSG_ERR_THREAD n, if x.t = .seam then 1 else 0),
          (Fld.BAY_MSG_ERR_CODE n, code.toNat), (Fld.BAY_MSG_ERR_SLOT n, i),
          (Fld.BAY_MSG_ERR_DEST_DEV n, x.dev.toNat)]
      s.setSlot b i (some { x with fail := some code })

/-- Nothing of a request is still to come. -/
def State.slotOver (s : State) (b : BayId) (i : Nat) (x : Slot) : Bool :=
  let fab := s.fab.reqsLeft (.msg b i x.ord)
  match x.kind with
  | .put => x.acks.isEmpty && !fab && decide (x.len ≤ x.moved) && (x.fail.isSome || decide (x.len ≤ x.acked))
  | .putF => x.acks.isEmpty && !fab && decide (x.len ≤ x.moved) && (x.fail.isSome || (decide (x.len ≤ x.acked) && x.flagDone))
  | .get => x.acks.isEmpty && (x.fail.isSome || decide (x.len ≤ x.acked))
  | .amo => x.acks.isEmpty && (x.fail.isSome || decide (x.len ≤ x.acked))

/-- A request that is over frees its slot (R60, R63): a GET writes its completion word, a failed store is kept for the next FENCE,
a failed AMO leaves its register pending with its code. -/
def State.endSlot (s : State) (b : BayId) (i : Nat) : State :=
  match (s.bay b).slot i with
  | none => s
  | some x =>
    if !s.slotOver b i x || x.forColl.isSome then s
    else
      let s := s.setSlot b i none
      match x.kind with
      | .get =>
        match x.cw with
        | some o => (s.bayWrite b o (leBytes 8 (0x8000000000000000 + (x.fail.getD 0).toNat))).1
        | none => s
      | .put | .putF =>
        match x.fail with
        | some c => s.updBay b fun y => { y with fenceFails := y.fenceFails ++ [(x.ord, c)] }
        | none => s
      | .amo =>
        match x.fail with
        | some c =>
          (s.updBay b fun y => { y with fenceFails := y.fenceFails ++ [(x.ord, c)] }).updThr b x.t fun r =>
            { r with pend := r.pend.map fun (p : PendingG) =>
                if p.amo = true ∧ p.qseq = x.qseq then { p with failed := some c } else p }
        | none => s

/-- The old value of an AMO written to its register (R59, R60). -/
def State.deliverAmo (s : State) (b : BayId) (i : Nat) (v : Word) : State :=
  match (s.bay b).slot i with
  | none => s
  | some x =>
    (s.setSlot b i (some { x with acked := x.len })).updThr b x.t fun r =>
      r.deliver x.gd x.qseq v

/-! ### Packets inside the device -/

/-- The next packet of a request inside the device. -/
inductive MsgPart where
  | put (addr n : Nat)
  | get (addr n : Nat)
  | amo (addr : Nat)
  | flag (addr : Nat)
  deriving DecidableEq, Repr

/-- The packet a request sends next (R59, R61): at most 256 B each, and the flag increment of a PUT.F last. -/
def Slot.nextPart (x : Slot) : Option MsgPart :=
  let a := fieldOf x.dest 0 48
  let n := min 256 (x.len - x.moved)
  match x.kind with
  | .put => if x.moved < x.len then some (.put (a + x.moved) n) else none
  | .putF =>
    if x.moved < x.len then some (.put (a + x.moved) n)
    else if x.flagDone || x.fail.isSome || x.acks.any fun a => a.code != cDONE then none
    else some (.flag x.flag.toNat)
  | .get => if x.moved < x.len ∧ x.fail = none then some (.get (a + x.moved) n) else none
  | .amo => if x.moved = 0 then some (.amo a) else none

/-- Device address and length of a packet. -/
def MsgPart.range : MsgPart → Nat × Nat
  | .put a n => (a, n)
  | .get a n => (a, n)
  | .amo a => (a, 8)
  | .flag a => (a, 8)

/-- Bytes of its request that a packet carries. -/
def MsgPart.bytes : MsgPart → Nat
  | .flag _ => 0
  | p => p.range.2

/-- A packet writes its target. -/
def MsgPart.stores : MsgPart → Bool
  | .get _ _ => false
  | _ => true

/-- What an older request has still to carry: the rest of its bytes, and the flag word of a PUT.F. -/
def Slot.left (x : Slot) : List (Nat × Nat) :=
  (if x.moved < x.len then [(fieldOf x.dest 0 48 + x.moved, x.len - x.moved)] else [])
    ++ (if x.kind = .putF ∧ x.flagDone = false ∧ x.fail = none then [(x.flag.toNat, 8)] else [])

/-- The targets of R485 that a range touches; one of at most 64 KiB touches two at most. -/
def targetsOf (p : Nat × Nat) : List Nat := ([p.1, p.1 + p.2 - 1].filterMap targetOf).map Prod.fst

/-- Two ranges share a byte. -/
def overlap (p q : Nat × Nat) : Bool :=
  decide (0 < p.2) && decide (0 < q.2) && decide (p.1 < q.1 + q.2) && decide (q.1 < p.1 + p.2)

/-- An older request of the same bay that must come first (R61): a store to the same target, any request to the same bytes, and
before a flag increment every store. -/
def partWaits (p : MsgPart) (x : Slot) : Bool :=
  let store := x.kind != .get
  x.left.any fun q =>
    (match p with
      | .flag _ => store
      | _ => false)
    || (p.stores && store && (targetsOf p.range).any fun k => (targetsOf q).contains k)
    || ((p.stores || store) && overlap p.range q)

/-- The packet may take effect now: no older request of the bay inside the device must come first. -/
def State.partReady (s : State) (b : BayId) (x : Slot) (p : MsgPart) : Bool :=
  (s.bay b).usedSlots.all fun e =>
    decide (x.ord ≤ e.2.ord) || e.2.dev != s.devCoord || e.2.forColl.isSome || !partWaits p e.2

/-- An acknowledgement set on its way to a slot. -/
def State.pushAck (s : State) (b : BayId) (i : Nat) (x : Slot) (a : MsgAck) : State :=
  s.setSlot b i (some { x with acks := x.acks ++ [a] })

/-- The packet of a slot takes effect (R59 to R63): its access is checked, a register write's by the write itself, and `rd`, `wr`
and `at_` reach the target. One that must leave the die while the bay's bond port is down is lost (R26). -/
def State.carryPart (s : State) (b : BayId) (i : Nat) (x : Slot) (p : MsgPart)
    (rd : State → Nat → Nat → State × Code × List Byte) (wr : State → Nat → List Byte → State × Code)
    (at_ : State → Nat → Nat → Word → Word → State × Code × Word) : State :=
  let m : Master := .group (s.bayGroup b)
  let own := decide (bayAddr b 0 ≤ p.range.1) && decide (p.range.1 + p.range.2 ≤ bayAddr b 0x100000)
  let chk := fun (s : State) (q : Perms) => if own then (s, true) else s.access m s.devCoord q p.range.1 p.range.2
  if s.cut b && !sameDie b p.range.1 p.range.2 then
    s.pushAck b i (match p with
      | .flag _ => { x with flagDone := true }
      | _ => { x with moved := x.moved + p.range.2 }) ⟨cLINK_LOST, p.bytes, []⟩
  else
  match p with
  | .put a n =>
    let src := s.eccRead b (x.loc + x.moved) n
    if src.2 then
      let s := (src.1.bitsEvent cMEM_UNCORRECTABLE).setSlot b i (some { x with moved := x.len })
      (s.failSlot b i cMEM_UNCORRECTABLE).endSlot b i
    else
      let bs := src.1.bayBytes b (x.loc + x.moved) n
      let x' := { x with moved := x.moved + n }
      let c := if regionOf a = .regs then (src.1, true) else chk src.1 permW
      if !c.2 then c.1.pushAck b i x' ⟨cACCESS_DENIED, n, []⟩
      else
        let w := wr c.1 a bs
        w.1.pushAck b i x' ⟨w.2, n, []⟩
  | .get a n =>
    let x' := { x with moved := x.moved + n }
    let c := chk s permR
    if !c.2 then c.1.pushAck b i x' ⟨cACCESS_DENIED, n, []⟩
    else
      let r := rd c.1 a n
      r.1.pushAck b i x' ⟨r.2.1, n, r.2.2⟩
  | .amo a =>
    let x' := { x with moved := x.len }
    let c := chk s permA
    if !c.2 || regionOf a == .regs then c.1.pushAck b i x' ⟨cACCESS_DENIED, 8, []⟩
    else
      let r := at_ c.1 a x.aop.toNat x.x x.cmp
      r.1.pushAck b i x' ⟨r.2.1, 8, leBytes 8 r.2.2.toNat⟩
  | .flag a =>
    let x' := { x with flagDone := true }
    let c := chk s permA
    if !c.2 || regionOf a == .regs then c.1.pushAck b i x' ⟨cACCESS_DENIED, 0, []⟩
    else
      let r := at_ c.1 a 0 1 0
      r.1.pushAck b i x' ⟨r.2.1, 0, []⟩

/-- MESSAGE_ACK_ARRIVAL: the oldest acknowledgement or response on its way reaches the message engine (R60, R63). -/
def opMessageAck (b : BayId) (slot : BitVec 8) (s : State) : State :=
  let i := slot.toNat
  match (s.bay b).slot i with
  | none => s
  | some x =>
    match x.acks with
    | [] => s
    | a :: rest =>
      if s.clockOff then s
      else
        let s := s.setSlot b i (some { x with
          acks := rest, acked := if a.code = cDONE ∧ x.kind ≠ .amo ∧ x.fail = none then x.acked + a.n else x.acked })
        let s :=
          if a.code ≠ cDONE then s.failSlot b i a.code
          else
            match x.kind with
            | .get => if x.fail.isSome then s else (s.bayWrite b (x.loc + x.acked) a.data).1
            | .amo => s.deliverAmo b i (BitVec.ofNat 64 (leNat a.data))
            | _ => s
        s.endSlot b i

/-! ### Completions from the fabric -/

/-- A packet of a slot's request acknowledged, or ended, with a code (R295, R298, R304). The FLAG of a PUT.F leaves once every store
of it is acknowledged, so that a failed PUT.F updates no flag word (R63). -/
def State.slotReqDone (s : State) (b : BayId) (i ord : Nat) (r : Req) (code : Code) : State :=
  match (s.bay b).slot i with
  | none => s
  | some x =>
    if x.ord ≠ ord then s
    else
      let s := if code ≠ cDONE then s.failSlot b i code
        else if r.type = 0 then
          let x := { x with acked := x.acked + r.len }
          if x.kind = .putF ∧ x.acked = x.len ∧ x.fail = none ∧ !x.flagDone then
            (s.setSlot b i (some { x with flagDone := true })).sendReqs x.dev [flagReq b i x]
          else s.setSlot b i (some x)
        else s
      s.endSlot b i

/-! ### The meanings -/

/-- Issue of a message instruction (R58 to R63). -/
def opMsgIssue (k : MsgKind) (b : BayId) (t : Thread) (f : MFields) (s : State) : State :=
  (issueGate s b t (.m k.code f) (msgCheck (s.thr b t) k f)).run s fun s => s.takeSlot b t k f

/-- Requests of message slots that ended outside an acknowledgement handed to their slots (R63, R298). -/
def State.settleMsgs (s : State) : State :=
  let l := s.fab.ended
  let s := { s with fab := { s.fab with ended := l.filter fun e => match e.1.org with
    | .msg _ _ _ => false
    | _ => true } }
  l.foldl (fun s e => match e.1.org with
    | .msg b i ord => s.slotReqDone b i ord e.1 e.2
    | _ => s) s

/-- PUT (R59). -/
def execPut (b : BayId) (t : Thread) (f : MFields) (s : State) : Res := .next (opMsgIssue .put b t f s).settleMsgs

/-- PUT_F (R61). -/
def execPutF (b : BayId) (t : Thread) (f : MFields) (s : State) : Res := .next (opMsgIssue .putF b t f s).settleMsgs

/-- GET (R59). -/
def execGet (b : BayId) (t : Thread) (f : MFields) (s : State) : Res := .next (opMsgIssue .get b t f s).settleMsgs

/-- AMO (R59). -/
def execAmo (b : BayId) (t : Thread) (f : MFields) (s : State) : Res := .next (opMsgIssue .amo b t f s).settleMsgs

/-- MESSAGE_ACK_ARRIVAL (R60). -/
def execMessageAckArrival (b : BayId) (slot : BitVec 8) (s : State) : Res := .next (opMessageAck b slot s)

end Sys2Proof.Machine
end

