-- ==== Sys2Proof/Machine/Coll.lean ====
section
/-! DEFINITION. Collectives at a bay (R202 to R229): blocks, groups and trees, chunks and seam checks, stitch flags, join, digest,
abort, and the work of the standard seam handlers (R201). -/

namespace Sys2Proof.Machine

/-! ### The collective block (R203) -/

def CollBlock.op (k : CollBlock) : Nat := fieldOf k.w0 56 8
def CollBlock.etype (k : CollBlock) : Nat := fieldOf k.w0 52 4
def CollBlock.chunkCode (k : CollBlock) : Nat := fieldOf k.w0 48 4
def CollBlock.group (k : CollBlock) : BitVec 12 := k.w0.extractLsb' 36 12
def CollBlock.rank (k : CollBlock) : Nat := fieldOf k.w0 16 16
def CollBlock.root (k : CollBlock) : Nat := fieldOf k.w0 0 16
def CollBlock.seq (k : CollBlock) : BitVec 32 := k.w1.extractLsb' 32 32
def CollBlock.count (k : CollBlock) : Nat := fieldOf k.w1 0 32
def CollBlock.flags (k : CollBlock) : Nat := fieldOf k.w2 32 20
def CollBlock.region (k : CollBlock) : Nat := fieldOf k.w2 0 20
def CollBlock.stage (k : CollBlock) : Nat := fieldOf k.w3 32 20
def CollBlock.len (k : CollBlock) : Nat := fieldOf k.w3 0 21
def CollBlock.e0 (k : CollBlock) : Nat := fieldOf k.w4 32 15
def CollBlock.srcs (k : CollBlock) : Nat := fieldOf k.w4 16 16
def CollBlock.ne (k : CollBlock) : Nat := fieldOf k.w4 0 15

/-- Chunk size C (R203). -/
def CollBlock.chunk (k : CollBlock) : Nat := 4096 * 2 ^ k.chunkCode

/-- Number of chunks (R212); none for DSP and CMB. -/
def CollBlock.nc (k : CollBlock) : Nat := (k.len + k.chunk - 1) / k.chunk

/-- End of chunk `c` within the region. -/
def CollBlock.chunkEnd (k : CollBlock) (c : Nat) : Nat := min ((c + 1) * k.chunk) k.len

/-- Length of chunk `c`. -/
def CollBlock.chunkLen (k : CollBlock) (c : Nat) : Nat := k.chunkEnd c - c * k.chunk

/-- A reduce-to-one: MMR or VR. -/
def CollBlock.reduce (k : CollBlock) : Bool := k.op == 2 || k.op == 4

/-- A dispatch or a combine: DSP or CMB. -/
def CollBlock.experts (k : CollBlock) : Bool := k.op == 5 || k.op == 6

/-- Experts of the dispatch range. -/
def CollBlock.range (k : CollBlock) : List Nat := (List.range (k.ne + 1)).map (· + k.e0)

/-- Words 0 to 4 are the same (R206). -/
def CollBlock.same (a b : CollBlock) : Bool :=
  a.w0 == b.w0 && a.w1 == b.w1 && a.w2 == b.w2 && a.w3 == b.w3 && a.w4 == b.w4

/-- Two blocks name one pair (R206). -/
def CollBlock.names (k : CollBlock) (g : BitVec 12) (q : BitVec 32) : Bool := k.group == g && k.seq == q

/-! ### Groups and trees (R207 to R210) -/

/-- The group entry is ready. -/
def State.grpReady (s : State) (g : BitVec 12) : Bool := s.getF (Fld.ABR_GRP_W0_STATE g.toNat) == 2

/-- Member count N. -/
def State.grpN (s : State) (g : BitVec 12) : Nat := s.getF (Fld.ABR_GRP_W0_COUNT g.toNat) + 1

/-- Fan-out F. -/
def State.grpF (s : State) (g : BitVec 12) : Nat := s.getF (Fld.ABR_GRP_W0_FANOUT g.toNat) + 1

/-- Rank of the root. -/
def State.grpRoot (s : State) (g : BitVec 12) : Nat := s.getF (Fld.ABR_GRP_W0_ROOT g.toNat)

/-- Coordinates of the members, by rank, as the check found them (R209). -/
def State.members (s : State) (g : BitVec 12) : List Nat := smapGet (fun _ => []) s.fab.groups g.toNat

/-- Coordinate of a member. -/
def State.memberCoord (s : State) (g : BitVec 12) (r : Nat) : BitVec 28 := BitVec.ofNat 28 ((s.members g)[r]?.getD 0)

/-- Rank of a coordinate. -/
def State.rankOf (s : State) (g : BitVec 12) (c : BitVec 28) : Option Nat := (s.members g).findIdx? fun m => m == c.toNat

/-- Position of a rank (R210). -/
def posOf (root r : Nat) : Nat := if r = root then 0 else if r < root then r + 1 else r

/-- Rank at a position (R210). -/
def rankAt (root p : Nat) : Nat := if p = 0 then root else if p ≤ root then p - 1 else p

/-- Rank of the parent of a rank. -/
def treeParent (f root r : Nat) : Option Nat :=
  let p := posOf root r
  if p = 0 then none else some (rankAt root ((p - 1) / f))

/-- Ranks of the children of a rank, in ascending position. -/
def treeChildren (n f root r : Nat) : List Nat :=
  let p := posOf root r
  (((List.range f).map fun i => f * p + 1 + i).filter fun q => decide (q < n)).map fun q => rankAt root q

/-! ### Descriptor digest (R220) -/

/-- The 32-byte image of a descriptor. -/
def digestImage (k : CollBlock) (n f epoch : Nat) : List Byte :=
  leBytes 1 k.op ++ leBytes 1 k.etype ++ leBytes 2 k.group.toNat ++ leBytes 4 k.count ++ leBytes 4 k.len ++ leBytes 2 k.root
    ++ leBytes 2 (n - 1) ++ leBytes 1 (f - 1) ++ leBytes 1 k.chunkCode ++ leBytes 2 k.srcs ++ leBytes 4 epoch
    ++ leBytes 4 k.seq.toNat ++ leBytes 2 k.e0 ++ leBytes 2 k.ne

/-- The descriptor digest of a collective at this device. -/
def State.digestOf (s : State) (k : CollBlock) : BitVec 32 :=
  crc32c (digestImage k (s.grpN k.group) (s.grpF k.group) (s.getF (Fld.ABR_GRP_W1_EPOCH k.group.toNat)))

/-! ### Open collectives -/

/-- The collective of a pair open at a bay. -/
def Bay.coll (y : Bay) (g : BitVec 12) (q : BitVec 32) : Option Coll := y.colls.find? fun c => c.blk.names g q

/-- `s` with an open collective of a bay replaced. -/
def State.setColl (s : State) (b : BayId) (c : Coll) : State :=
  s.updBay b fun y => { y with colls := y.colls.map fun d => if d.blk.names c.blk.group c.blk.seq then c else d }

/-- This member is the root. -/
def Coll.isRoot (c : Coll) : Bool := c.blk.rank == c.blk.root

/-- This member sends its region: the root of a broadcast, every member of a reduce (R212). -/
def Coll.sends (c : Coll) : Bool := !c.blk.experts && (c.blk.reduce || c.isRoot)

/-- A child of a collective with a change. -/
def Coll.updChild (c : Coll) (r : Nat) (f : Neighbour → Neighbour) : Coll :=
  { c with children := c.children.map fun n => if n.rank = r then f n else n }

/-- A packet of the collective came from a rank at a count (R226). -/
def Coll.hear (c : Coll) (r now : Nat) : Coll := { c with heard := (r, now) :: c.heard.filter fun e => e.1 != r }

/-- A flag settled: (SEQ << 32) | code, written by the message engine (R218). -/
def State.settle (s : State) (b : BayId) (k : CollBlock) (i : Nat) (code : Code) : State :=
  (s.bayWrite b (k.flags + 8 * i) (leBytes 8 (k.seq.toNat * 2 ^ 32 + code.toNat))).1

/-- A queued SPLICE names the pair. -/
def Bay.queues (y : Bay) (g : BitVec 12) (q : BitVec 32) : Bool :=
  (y.pq.any fun e => match e.op with
    | .splice _ _ _ _ _ k => k.names g q
    | _ => false)
  || y.mainVq.any fun e => match e.op with
    | .splice _ _ _ _ _ k => k.names g q
    | _ => false

/-- A request that carries a chunk, or a store of a dispatch, of a bay's collective. -/
def Req.ofColl (r : Req) (b : BayId) (g : BitVec 12) (q : BitVec 32) : Bool :=
  match r.org with
  | .chunk b' g' q' _ _ _ => b' == b && g' == g && q' == q
  | .dispatch b' g' q' => b' == b && g' == g && q' == q
  | _ => false

/-- The fabric without the requests of a kind that have not left yet. -/
def Fabric.dropReqs (f : Fabric) (p : Req → Bool) : Fabric :=
  { f with
    srcs := f.srcs.map fun x => { x with waiting := x.waiting.filter fun r => !p r }
    stalled := f.stalled.filter fun e => !p e.2 }

/-- The fabric without the packets of a bay's collective that have not left yet (R229). -/
def Fabric.withdraw (f : Fabric) (b : BayId) (g : BitVec 12) (q : BitVec 32) : Fabric := f.dropReqs fun r => r.ofColl b g q

/-- Stores and reads of the Ledger that have not left yet are not sent (R417, R429). -/
def State.withdrawLedger (s : State) (u : LedgerUse) : State := { s with fab := s.fab.dropReqs fun r => r.org == .ledger u }

/-- A collective no longer open at a bay: its posted chunks, the packets that have not left and its handler's reads go, and its record
where no queued SPLICE names the pair again (R206, R229). -/
def State.dropColl (s : State) (b : BayId) (g : BitVec 12) (q : BitVec 32) : State :=
  ({ s with fab := s.fab.withdraw b g q }).updBay b fun y =>
    { y with
      colls := y.colls.filter fun d => !d.blk.names g q
      recorded := y.recorded.filter fun k => !k.names g q || y.queues g q
      seamWork := y.seamWork.filter fun w => !(w.group == g && w.seq == q)
      slots := y.slots.filter fun e => (e.2.bind fun x => x.forColl) != some (g, q) }

/-! ### Notices (R219, R224, R228) -/

/-- The notices sent and not yet accepted, changed. -/
def State.mapNotices (s : State) (f : List Notice → List Notice) : State :=
  { s with fab := { s.fab with notices := f s.fab.notices } }

/-- Notices that match marked refused (R224). -/
def refuseWhere (p : Notice → Bool) (l : List Notice) : List Notice := l.map fun n => if p n then { n with refused := true } else n

/-- A packet of a bay's collective has gone to a rank (R225). -/
def State.tell (s : State) (b : BayId) (g : BitVec 12) (q : BitVec 32) (r : Nat) : State :=
  let put := fun (l : List (Nat × Nat)) => (r, s.now) :: l.filter fun e => e.1 != r
  match (s.bay b).coll g q with
  | some c => s.setColl b { c with told := put c.told }
  | none => { s with fab := { s.fab with early := s.fab.early.map fun e =>
      if e.bay = b ∧ e.group = g ∧ e.seq = q then { e with told := put e.told } else e } }

/-- A NOTICE packet of a bay's collective to a member (R219, R288); a member in the device needs none. -/
def State.noteTo (s : State) (b : BayId) (g : BitVec 12) (q : BitVec 32) (dst : BitVec 28) (kind : NoteKind) (fs : List Nat) : State :=
  let s := match s.rankOf g dst with
    | some r => s.tell b g q r
    | none => s
  if devOf dst = s.devCoord then s else s.sendNote 9 b.toNat dst kind ([g.toNat, q.toNat] ++ fs)

/-- What a notice's packet carries (R219, R228, R233). -/
def Notice.note (n : Notice) : NoteKind × List Nat :=
  match n.kind with
  | .join => (.join, [n.rank, n.digest.toNat])
  | .abort => (.abort, [n.code.toNat, n.detector])
  | .tally => (.tally, [n.rank, n.expert])
  | .release => (.release, [n.rank])
  | .done => (.done, [n.rank])

/-- The packet of a notice sent. -/
def State.sendNotice (s : State) (n : Notice) : State := s.noteTo n.src n.group n.seq n.dst n.note.1 n.note.2

/-- A notice sent, unless it is held: it is kept until accepted. -/
def State.notify (s : State) (n : Notice) : State :=
  let s : State := { s with fab := { s.fab with notices := s.fab.notices ++ [n] } }
  if n.held then s else s.sendNotice n

/-- A notice of a bay's collective to the member of `rank`. -/
def State.noticeTo (s : State) (kind : NoticeKind) (b : BayId) (k : CollBlock) (rank : Nat) : Notice :=
  { kind := kind, group := k.group, seq := k.seq, src := b, rank := k.rank, dst := s.memberCoord k.group rank
    digest := s.digestOf k, code := 0, detector := 0, expert := 0, held := false, refused := false }

/-- Abort notices to members by coordinate (R228). -/
def State.sendAborts (s : State) (b : BayId) (g : BitVec 12) (q : BitVec 32) (rank : Nat) (code : Code) (detector : Nat)
    (dest : List Nat) : State :=
  dest.foldl (fun s c =>
    s.notify { kind := .abort, group := g, seq := q, src := b, rank := rank, dst := BitVec.ofNat 28 c, digest := 0
               code := code, detector := detector, expert := 0, held := false, refused := false }) s

/-- Notices of a bay's collective that end when it completes by abort (R224): all but aborts. -/
def State.dropNotices (s : State) (b : BayId) (g : BitVec 12) (q : BitVec 32) : State :=
  { s with fab := { s.fab with notices := s.fab.notices.filter fun n =>
    n.kind == .abort || !(n.src == b && n.group == g && n.seq == q) } }

/-! ### Abort (R227 to R229) -/

/-- A member completes a collective by abort: every unsettled flag settles with the code, the closing flag last; the region bytes
of unsettled chunks are undefined; the abort is recorded and counted (R229). -/
def State.abortColl (s : State) (b : BayId) (g : BitVec 12) (q : BitVec 32) (code : Code) (detector : Nat) : State :=
  match (s.bay b).coll g q with
  | none => s
  | some c =>
    let s := (List.range (c.blk.nc + 1)).foldl (fun s i => if c.settled.contains i then s else s.settle b c.blk i code) s
    let s := ((List.range c.blk.nc).filter fun i => !c.settled.contains i).foldl (fun s i =>
      s.openBytes (bayAddr b (c.blk.region + i * c.blk.chunk)) (c.blk.chunkLen i)) s
    let s := ((s.dropColl b g q).dropNotices b g q).bitsEvent code
    let s := s.incF Fld.ABR_COLL_ABORT_CNT_COUNT
    if s.getF Fld.ABR_COLL_ABORT_VALID = 1 then s
    else s.setFs [(Fld.ABR_COLL_ABORT_VALID, 1), (Fld.ABR_COLL_ABORT_CODE, code.toNat), (Fld.ABR_COLL_ABORT_GROUP, g.toNat),
      (Fld.ABR_COLL_ABORT_DETECTOR, detector), (Fld.ABR_COLL_ABORT_SEQ_LO, q.toNat)]

/-- The code that the other members complete with (R227). -/
def otherCode (code : Code) : Code := if code = cMISMATCH_GROUP then cMISMATCH_GROUP else cABORTED_GROUP

/-- The first detection at a member: it aborts with its own code and sends abort notices to every other member (R227, R228). -/
def State.detect (s : State) (b : BayId) (g : BitVec 12) (q : BitVec 32) (code : Code) : State :=
  match (s.bay b).coll g q with
  | none => s
  | some c =>
    let rank := c.blk.rank
    (s.abortColl b g q code rank).sendAborts b g q rank (otherCode code) rank
      ((s.members g).filter fun m => m != (coordOf s.devCoord b.toNat).toNat)

/-- The collectives open at the bays of the device. -/
def State.openColls (s : State) : List (BayId × Coll) :=
  s.bays.flatMap fun e => e.2.colls.map fun c => (BitVec.ofNat 10 e.1, c)

/-- Every collective of a list aborted by a cause that acts on the whole device (R227): one abort notice for each, naming the
lowest rank of the device's members. -/
def State.abortDevice (s : State) (code : Code) (p : BitVec 12 → Bool) : State :=
  let all := s.openColls.filter fun e => p e.2.blk.group
  let keys := (all.map fun e => (e.2.blk.group, e.2.blk.seq)).eraseDups
  keys.foldl (fun s k =>
    let mine := all.filter fun e => e.2.blk.names k.1 k.2
    let low := (mine.map fun e => e.2.blk.rank).foldl min ((mine.head?.map fun e => e.2.blk.rank).getD 0)
    let s := mine.foldl (fun s e => s.abortColl e.1 k.1 k.2 code low) s
    let own := mine.map fun e => (coordOf s.devCoord e.1.toNat).toNat
    s.sendAborts ((mine.head?.map Prod.fst).getD 0) k.1 k.2 low (otherCode code) low
      ((s.members k.1).filter fun m => !own.contains m)) s

/-! ### Chunks (R212 to R217) -/

/-- Bytes of the region of chunk `i`; `none` where they are uncorrectable. -/
def State.chunkRead (s : State) (b : BayId) (k : CollBlock) (i : Nat) : State × Option (List Byte) :=
  let o := k.region + i * k.chunk
  let e := s.eccRead b o (k.chunkLen i)
  if e.2 then (e.1, none) else (e.1, some (e.1.bayBytes b o (k.chunkLen i)))

/-- All bytes are 0x00 (R215). -/
def allZero (bs : List Byte) : Bool := bs.all fun x => x == 0

/-- The 32 B chunk header (R213). -/
def chunkHeader (k : CollBlock) (digest : BitVec 32) (epoch i : Nat) (bs : List Byte) : List Byte :=
  leBytes 2 k.group.toNat ++ leBytes 2 i ++ leBytes 4 k.seq.toNat ++ leBytes 4 digest.toNat
    ++ leBytes 1 ((if allZero bs then 1 else 0) + (if i + 1 = k.nc then 2 else 0)) ++ leBytes 3 0
    ++ leBytes 8 (crc64 bs).toNat ++ leBytes 4 bs.length ++ leBytes 4 epoch

/-- A chunk sent to a member: over the fabric where it lies in another device (R213, R288); a chunk of zeros as its header only
(R215). Inside the device it waits for its CHUNK_ARRIVAL. -/
def State.sendChunk (s : State) (b : BayId) (k : CollBlock) (rank i : Nat) (bs : List Byte) : State :=
  let s := if allZero bs then s.incF Fld.ABR_COLL_STATS_ZERO_CHUNKS else s
  let s := s.tell b k.group k.seq rank
  let mem := s.memberCoord k.group rank
  let hdr := chunkHeader k (s.digestOf k) (s.getF (Fld.ABR_GRP_W1_EPOCH k.group.toNat)) i bs
  if devOf mem = s.devCoord then
    { s with fab := { s.fab with inner :=
      s.fab.inner ++ [⟨BitVec.ofNat 10 (epOf mem), k.rank, hdr, if allZero bs then [] else bs⟩] } }
  else
    let parts := if allZero bs then [(0, 0)] else cutParts 2048 bs.length
    let n := parts.length
    s.sendReqs (devOf mem) (parts.mapIdx fun j p =>
      { org := .chunk b k.group k.seq rank i (j + 1 == n), type := 2, srcEp := b.toNat, dstEp := epOf mem
        addr := BitVec.ofNat 48 (i * k.chunk + p.1), len := p.2, data := bayAddr b (k.region + i * k.chunk + p.1)
        given := [], hdr := hdr, slot := 0 })

/-- One element combined (R217): the bytes of the result, saturation and NaR events. -/
def combineElems (etype : Nat) : List Byte → List Byte → Nat → List Byte × Nat × Nat
  | _, _, 0 => ([], 0, 0)
  | own, kid, n + 1 =>
    if etype = 0xF then
      let e := w128Add (BitVec.ofNat 128 (leNat (own.take 16))) (BitVec.ofNat 128 (leNat (kid.take 16)))
      let r := combineElems etype (own.drop 16) (kid.drop 16) n
      (leBytes 16 e.value.toNat ++ r.1, r.2.1 + (MmCounts.zero.addRow [e]).sat, r.2.2 + (MmCounts.zero.addRow [e]).narN)
    else
      let f : Fmt := if etype = 0 then .binary64 else .binary32
      let w := f.bits / 8
      let v := f.encode false ((f.decode (leNat (own.take w))).add (f.decode (leNat (kid.take w))))
      let r := combineElems etype (own.drop w) (kid.drop w) n
      (leBytes w v ++ r.1, r.2.1, r.2.2)

/-- Bytes of an element of a reduce (R204). -/
def reduceBytes (etype : Nat) : Nat := if etype = 0 then 8 else if etype = 1 then 4 else 16

/-- Chunk `i` of the region combined with what lies in the staging slot of child number `j` (R211, R217). Answers the state and
whether a word could not be read. -/
def State.combine (s : State) (b : BayId) (k : CollBlock) (i j : Nat) : State × Bool :=
  let n := k.chunkLen i
  let own := s.chunkRead b k i
  let o := k.stage + j * k.chunk
  let e := own.1.eccRead b o n
  match own.2 with
  | none => (own.1, true)
  | some bs =>
    if e.2 then (e.1, true)
    else
      let r := combineElems k.etype bs (e.1.bayBytes b o n) (n / reduceBytes k.etype)
      let w := e.1.bayWrite b (k.region + i * k.chunk) r.1
      let s := w.1.flagEvents b .accSat r.2.1
      (if r.2.2 = 0 then s else s.incF (Fld.PRS_NAR_CNT_COUNT b.toNat) r.2.2, w.2)

/-! ### The seam handlers' work (R201, R212 to R218) -/

/-- The chunks of a broadcast member that its children may be sent. -/
def Coll.ready (c : Coll) : Nat := if c.isRoot then c.posted else c.done

/-- The handlers of a bay run: its seam thread is enabled and live (R43, R44, R201), and nothing gates the bay (R19, R415). -/
def State.seamRuns (s : State) (b : BayId) : Bool :=
  let st := (s.bay b).seam.status.st
  !s.gated && s.seamEn b && (st == .run || st == .wait)

/-- A posted chunk that is done with leaves the seam work queue. Its entry counts until the chunk is sent to every child, or to the
parent, or until its flag settles where the chunk is sent to nobody (DESIGN CHOICE, log entry 71: the spec says that the seam thread
takes work from the queue and not when an entry leaves it). -/
def State.takeWork (s : State) (b : BayId) (c : Coll) (limit : Nat) : State :=
  s.updBay b fun y =>
    { y with seamWork := y.seamWork.filter fun w => !(c.blk.names w.group w.seq && decide (w.idx < limit)) }

/-- The next chunk posted, where the high-water has reached its end and the seam work queue has room (R43, R212). -/
def stepPost (s : State) (b : BayId) (c : Coll) : Option State :=
  if c.sends && decide (c.posted < c.blk.nc) && decide (c.blk.chunkEnd c.posted ≤ c.high)
      && decide ((s.bay b).seamWork.length < 64) then
    some ((s.setColl b { c with posted := c.posted + 1 }).updBay b fun y =>
      { y with seamWork := y.seamWork ++ [⟨c.blk.group, c.blk.seq, c.posted⟩] })
  else none

/-- The next chunk of a broadcast sent to a child that has joined (R216). -/
def stepForward (s : State) (b : BayId) (c : Coll) : Option State :=
  if c.blk.reduce then none
  else
    match c.children.find? fun n => n.joined && decide (n.sent < c.ready) with
    | none => none
    | some n =>
      let key := ⟨b, c.blk.group, c.blk.seq, BitVec.ofNat 16 n.sent⟩
      if s.plumbFull then s.chunkHold key else
      let r := s.chunkRead b c.blk n.sent
      match r.2 with
      | none => some ((r.1.bitsEvent cMEM_UNCORRECTABLE).detect b c.blk.group c.blk.seq cMEM_UNCORRECTABLE)
      | some bs =>
        let c' := c.updChild n.rank fun m => { m with sent := m.sent + 1 }
        let s := r.1.setColl b c'
        let least := (c'.children.map fun m => m.sent).foldl min (n.sent + 1)
        let s := if c.children.all fun m => decide (m.sent ≤ n.sent) then
          s.chunkEntry (chunkOf key (crc64 bs) (c.blk.region + n.sent * c.blk.chunk) bs.length) else s
        some ((s.takeWork b c' least).sendChunk b c.blk n.rank n.sent bs)

/-- The next combine of a reduce, in the order of R211: the staging slot is then free, and the child gets a credit while it has a chunk
left to send (R217). -/
def stepCombine (s : State) (b : BayId) (c : Coll) : Option State :=
  if !c.blk.reduce || !decide (c.done < c.posted) then none
  else
    match c.children[c.turn]? with
    | none => some (s.setColl b { c with done := c.done + 1, turn := 0 })
    | some n =>
      if n.staged = some c.done then
        let r := s.combine b c.blk c.done c.turn
        if r.2 then some ((r.1.bitsEvent cMEM_UNCORRECTABLE).detect b c.blk.group c.blk.seq cMEM_UNCORRECTABLE)
        else
          let c' := { c.updChild n.rank fun m => { m with staged := none } with turn := c.turn + 1 }
          let s := r.1.setColl b c'
          some (if c.done + 1 < c.blk.nc then
            s.noteTo b c.blk.group c.blk.seq (s.memberCoord c.blk.group n.rank) .credit [] else s)
      else none

/-- The next combined chunk sent to the parent, where a credit for the slot is held (R217). -/
def stepUp (s : State) (b : BayId) (c : Coll) : Option State :=
  if !c.blk.reduce then none
  else
    match c.parent with
    | none => none
    | some p =>
      if p.joined && p.credit && decide (p.sent < c.done) then
        let key := ⟨b, c.blk.group, c.blk.seq, BitVec.ofNat 16 p.sent⟩
        if s.plumbFull then s.chunkHold key else
        let r := s.chunkRead b c.blk p.sent
        match r.2 with
        | none => some ((r.1.bitsEvent cMEM_UNCORRECTABLE).detect b c.blk.group c.blk.seq cMEM_UNCORRECTABLE)
        | some bs =>
          let c' := { c with parent := some { p with sent := p.sent + 1, credit := false } }
          let s := r.1.chunkEntry (chunkOf key (crc64 bs) (c.blk.region + p.sent * c.blk.chunk) bs.length)
          some (((s.setColl b c').takeWork b c' (p.sent + 1)).sendChunk b c.blk p.rank p.sent bs)
      else none

/-- Chunk flag `i` may settle (R218). -/
def Coll.mayFlag (c : Coll) (i : Nat) : Bool :=
  if c.blk.reduce then
    match c.parent with
    | none => decide (i < c.done)
    | some p => decide (i < p.acked)
  else if c.isRoot then decide (i < c.posted) && c.children.all fun n => decide (i < n.acked)
  else decide (i < c.done)

/-- The next chunk flag settled. -/
def stepFlag (s : State) (b : BayId) (c : Coll) : Option State :=
  match (List.range c.blk.nc).find? fun i => !c.settled.contains i && c.mayFlag i with
  | none => none
  | some i =>
    let s := s.settle b c.blk i cDONE
    let ends := if c.blk.reduce then c.parent.isNone else c.children.isEmpty
    some ((if ends then s.takeWork b c (i + 1) else s).setColl b { c with settled := i :: c.settled })

/-- The closing flag settled after every chunk flag, and at a forwarding member after every child has acknowledged every chunk;
the collective closes (R206, R218). -/
def stepClose (s : State) (b : BayId) (c : Coll) : Option State :=
  if c.blk.experts then none
  else if decide (c.settled.length = c.blk.nc)
      && (c.blk.reduce || c.children.all fun n => decide (n.acked = c.blk.nc)) then
    some (((s.settle b c.blk c.blk.nc cDONE).dropColl b c.blk.group c.blk.seq).dropNotices b c.blk.group c.blk.seq)
  else none

/-- One piece of work on a collective, if any can be done: the engines post chunks, the handlers do the rest (R43, R201). -/
def collStep (s : State) (b : BayId) (c : Coll) : Option State :=
  if !c.joined then none
  else
    (stepPost s b c).orElse fun _ =>
      if !s.seamRuns b then none
      else (stepForward s b c).orElse fun _ => (stepCombine s b c).orElse fun _ => (stepUp s b c).orElse fun _ =>
        (stepFlag s b c).orElse fun _ => stepClose s b c

/-- The handlers' work on a collective until nothing more can be done; none while HOLD gates the bay (R19). -/
def State.runColl (s : State) (b : BayId) (g : BitVec 12) (q : BitVec 32) : Nat → State
  | 0 => s
  | n + 1 =>
    if s.gated then s
    else
      match (s.bay b).coll g q with
      | none => s
      | some c =>
        match collStep s b c with
        | none => s
        | some s' => s'.runColl b g q n

/-- Enough pieces of work for any collective: at most 256 chunks, 8 children. -/
def collFuel : Nat := 8192

end Sys2Proof.Machine
end

