-- ==== Sys2Proof/Machine/Splice.lean ====
section
/-! DEFINITION. SPLICE forms (R200 to R206, R230 to R236): issue checks and issue, opening and joining a collective, dispatch and
combine, and the notices and chunks that reach a bay (R219 to R229). -/

namespace Sys2Proof.Machine

/-! ### Issue -/

/-- Words 0 to 4 of the collective block at an offset (R202). -/
def State.readBlock (s : State) (b : BayId) (o : Nat) : CollBlock :=
  let w := fun (i : Nat) => BitVec.ofNat 64 (leNat (s.bayBytes b (o + 8 * i) 8))
  { off := BitVec.ofNat 20 o, w0 := w 0, w1 := w 1, w2 := w 2, w3 := w 3, w4 := w 4 }

/-- OP of a form (R203). -/
def spliceOp : XCode → Nat
  | .spliceMmb => 1
  | .spliceMmr => 2
  | .spliceVb => 3
  | .spliceVr => 4
  | .spliceDsp => 5
  | _ => 6

/-- The block's fields follow R203 and R204. -/
def blockBad (c : XCode) (fmt : Nat) (k : CollBlock) : Bool :=
  let op := spliceOp c
  let et := k.etype
  k.op != op
    || (match op with
      | 1 | 3 => !(codeIn 0 0xA et || et == 0xF)
      | 2 | 4 => !(et == 0 || et == 1 || et == 0xF)
      | 5 => !codeIn 0 0xA et || et != fmt
      | _ => !codeIn 0 3 et)
    || decide (8 < k.chunkCode) || fieldOf k.w0 32 4 != 0
    || fieldOf k.w2 52 12 != 0 || fieldOf k.w2 20 12 != 0 || fieldOf k.w3 52 12 != 0 || fieldOf k.w3 21 11 != 0
    || fieldOf k.w4 47 17 != 0 || fieldOf k.w4 15 1 != 0 || (decide (op ≤ 4) && k.w4 != 0)
    || (!k.reduce && decide (k.stage ≠ 0))
    || decide (k.flags % 8 ≠ 0) || decide (k.region % 64 ≠ 0) || decide (k.stage % 64 ≠ 0)
    || (if k.experts then decide (k.len ≠ 0) else decide (k.len < 8) || decide (0x100000 < k.len))
    || (k.reduce && decide (k.len ≠ k.count * reduceBytes et))

/-- The region and the stitch flags leave bay memory (R205). -/
def blockOut (k : CollBlock) : Bool := decide (0x100000 < k.region + k.len) || decide (0x100000 < k.flags + 8 * (k.nc + 1))

/-- The bytes `lo` to `hi` − 1 lie inside the region, or there are none. -/
def inRegion (k : CollBlock) (lo hi : Nat) : Bool :=
  decide (hi ≤ lo) || (decide (k.region ≤ lo) && decide (hi ≤ k.region + k.len))

/-- The VST that the vector part of a form performs (R200). -/
def vstOf (f : XFields) : VFields :=
  { vd := f.mod.extractLsb' 15 5, va := 0, vb := 0, vc := 0, fmt := f.mod.extractLsb' 0 4, me := f.mod.extractLsb' 11 1
    msk := f.mod.extractLsb' 12 3, gx := f.ga, gy := f.gb, mod := (f.mod.extractLsb' 4 7).setWidth 14 }

/-- The part stores the whole source register raw (R204). -/
def rawVst (f : XFields) : Bool := f.mod.extractLsb' 0 4 == 0xF

/-- The checks of the press or vector part (R200, R204, R205): its own, and that it stores inside the region. -/
def partCheck (y : Bay) (r : ThreadRec) (c : XCode) (f : XFields) (k : CollBlock) : Check :=
  let ga := r.getG f.ga
  let gb := r.getG f.gb
  let gc := r.getG f.gc
  let stores := k.reduce || k.rank == k.root
  match c with
  | .spliceMmb | .spliceMmr =>
    let fo := f.mod.toNat % 16
    let a := strided ga
    let sc := strided gb
    let rr := rowRange gc
    let out := !inRegion k a.base (a.base + (rr.m - 1) * a.stride + accRowBytes fo)
      || (codeIn 4 0xA fo && !inRegion k sc.base (sc.base + (rr.m - 1) * sc.stride + 1))
    (accStCheck y fo (f.mod.getLsbD 4) ga gb gc).and ⟨false, stores && out⟩
  | .spliceVb | .spliceVr =>
    if rawVst f then
      let o := fieldOf ga 0 20
      ⟨decide (o % 64 ≠ 0) || fieldOf ga 20 44 != 0, decide (0x100000 < o + 256) || (stores && !inRegion k o (o + 256))⟩
    else
      let v := vstOf f
      let p := vmemOf v ga gb
      let vl := r.vl.toNat
      let out := (decide (0 < vl) && !inRegion k (fieldOf ga 0 20) (p.dataEnd vl))
        || (p.scaled && decide (0 < vl) && !inRegion k (fieldOf gb 0 20) (p.scaleEnd vl))
      (vecCheck r .vst v).and ⟨false, stores && out⟩
  | _ =>
    let src := gc.getLsbD 62
    let ntok := fieldOf gc 0 16
    let a := strided ga
    let w := if c = .spliceDsp then fmtBits k.etype else fmtBits (f.mod.toNat % 16)
    { mal := fieldOf gc 16 46 != 0 || !(src || gc.getLsbD 63) || (!src && decide (ntok ≠ 0)) || !stridedClean ga
        || decide (fieldOf gb 0 20 % 64 ≠ 0) || fieldOf gb 20 44 != 0
      rng := decide (4096 < ntok) || (src && decide (k.srcs < k.rank))
        || (decide (0 < ntok) && (!a.fits ntok ((k.count * w + 7) / 8) || decide (0x100000 < fieldOf gb 0 20 + 256 * ntok))) }

/-- The issue checks of a SPLICE (R178, R202, R205, R206, R231, R433). A block that cannot be read is left to the fault it raises. -/
def spliceCheck (s : State) (b : BayId) (r : ThreadRec) (c : XCode) (f : XFields) : Check :=
  let gd := r.getG f.gd
  let o := fieldOf gd 0 20
  (endCheck r.pc).and (
    if fieldOf gd 20 44 != 0 || decide (o % 64 ≠ 0) then ⟨true, false⟩
    else if s.ecc2.any fun w => (wordsOf (bayAddr b o) 40).contains w then .none
    else
      let y := s.bay b
      let k := s.readBlock b o
      let other := y.recorded.any fun q => q.names k.group k.seq && !q.same k
      let expert := (c == .spliceDsp || c == .spliceCmb) && (r.getG f.gc).getLsbD 63 && s.devState == stQUARANTINE
      (Check.mk (blockBad c (f.mod.toNat % 16) k || other) (blockOut k || expert)).and (partCheck y r c f k))

/-- A SPLICE issued: its block is read as one load, the pair recorded, and the form enters its queue (R180, R202, R206). -/
def opSplice (c : XCode) (b : BayId) (t : Thread) (f : XFields) (s : State) : State :=
  (issueGate s b t (.x c f) (spliceCheck s b (s.thr b t) c f)).run s fun s =>
    let o := fieldOf ((s.thr b t).getG f.gd) 0 20
    let e := s.eccRead b o 40
    if e.2 then (e.1.bitsEvent cMEM_UNCORRECTABLE).preciseFault b t cMEM_UNCORRECTABLE
    else
      let k := e.1.readBlock b o
      e.1.updBay b fun y =>
        let r := y.thr t
        let y := if y.recorded.any fun q => q.names k.group k.seq then y else { y with recorded := y.recorded ++ [k] }
        let y := match c with
          | .spliceMmb | .spliceMmr =>
            let x : PressEntry := ⟨r.qseq, r.pc, .splice (c == XCode.spliceMmr) f (r.getG f.ga) (r.getG f.gb) (r.getG f.gc) k⟩
            { y with pq := y.pq ++ [x] }
          | _ =>
            let x : VecEntry := ⟨r.qseq, r.pc, r.vl, .splice c f (r.getG f.ga) (r.getG f.gb) (r.getG f.gc) k⟩
            { y with mainVq := y.mainVq ++ [x] }
        y.setThr t r.took

/-! ### Experts (R230 to R236) -/

/-- A directory entry in use, with its alignment fields zero (R239). -/
def State.expValid (s : State) (e : Nat) : Bool :=
  s.getF (Fld.ABR_EXP_W0_VALID e) == 1 && decide (s.getF (Fld.ABR_EXP_W1_IN_BASE e) % 256 = 0)
    && decide (s.getF (Fld.ABR_EXP_W2_OUT_BASE e) % 256 = 0) && decide (s.getF (Fld.ABR_EXP_W3_SLOT_STRIDE e) % 64 = 0)

/-- Device of an expert's member. -/
def State.expDev (s : State) (e : Nat) : DevCoord := BitVec.ofNat 16 (s.getF (Fld.ABR_EXP_W0_DEV e))

/-- Endpoint coordinate of an expert's member. -/
def State.expCoord (s : State) (e : Nat) : BitVec 28 := coordOf (s.expDev e) (s.getF (Fld.ABR_EXP_W0_BAY e))

/-- Rank of an expert's member in a group. -/
def State.expRank (s : State) (g : BitVec 12) (e : Nat) : Option Nat := s.rankOf g (s.expCoord e)

/-- Address of an expert's input slot, output slot and tally word (R232). -/
def State.inSlot (s : State) (e sources i : Nat) : Nat :=
  s.getF (Fld.ABR_EXP_W1_IN_BASE e) + (8 * sources + 255) / 256 * 256 + i * s.getF (Fld.ABR_EXP_W3_SLOT_STRIDE e)
def State.outSlot (s : State) (e i : Nat) : Nat :=
  s.getF (Fld.ABR_EXP_W2_OUT_BASE e) + i * s.getF (Fld.ABR_EXP_W3_SLOT_STRIDE e)
def State.tallyWord (s : State) (e r : Nat) : Nat := s.getF (Fld.ABR_EXP_W1_IN_BASE e) + 8 * r

/-- Tokens routed so far: routes in order, counts by expert, tokens dropped, and a failure. -/
structure Routing where
  routes : List Route
  cnt : List (Nat × Nat)
  dropped : Nat
  fail : Option Code
  deriving DecidableEq, Repr

/-- Tokens routed to an expert. -/
def Routing.count (x : Routing) (e : Nat) : Nat := ((x.cnt.find? fun p => p.1 == e).map Prod.snd).getD 0

/-- One top-k entry of a token (R233). -/
def Routing.take (s : State) (k : CollBlock) (tok j e : Nat) (w : BitVec 32) (x : Routing) : Routing :=
  if x.fail.isSome || e == 0xFFFFFFFF || decide (e < k.e0) || decide (k.e0 + k.ne < e) then x
  else if !s.expValid e then { x with fail := some cRANGE }
  else
    let n := x.count e
    let q := s.getF (Fld.ABR_EXP_W3_QUOTA e)
    if n < q then
      { x with
        routes := x.routes ++ [⟨tok, j, e, k.rank * q + n, w⟩]
        cnt := (e, n + 1) :: x.cnt.filter fun p => p.1 != e }
    else { x with dropped := x.dropped + 1 }

/-- The routes of tokens in order, experts best first (R233, R236); an uncorrectable top-k state fails them. -/
def routeTokens (b : BayId) (k : CollBlock) (topk : Nat) : Nat → Nat → State × Routing → State × Routing
  | 0, _, x => x
  | n + 1, i, x =>
    if x.2.fail.isSome then x
    else
      let o := topk + 256 * i
      let e := x.1.eccRead b o 256
      if e.2 then (e.1.bitsEvent cMEM_UNCORRECTABLE, { x.2 with fail := some cMEM_UNCORRECTABLE })
      else
        let word := fun (j : Nat) => leNat (e.1.bayBytes b (o + 4 * j) 4)
        let m := word 32 % 16 + 1
        routeTokens b k topk n (i + 1)
          (e.1, (List.range m).foldl (fun r j => r.take e.1 k i j (word (16 + j)) (BitVec.ofNat 32 (word j))) x.2)

/-- A store of a dispatch to an expert's memory: inside the device it is done and its code is known, over the fabric it is handed
to the pair (R233, R301). -/
def State.expertStore (s : State) (b : BayId) (k : CollBlock) (d : DevCoord) (addr from_ : Nat) (bs : List Byte) :
    State × Code :=
  if d = s.devCoord then
    let c := s.access (.group (s.bayGroup b)) d permW addr bs.length
    if c.2 then c.1.devWrite 0 addr bs else (c.1, cACCESS_DENIED)
  else
    (s.sendReqs d ((cutParts 2048 bs.length).map fun p =>
      { org := .dispatch b k.group k.seq, type := 0, srcEp := b.toNat, dstEp := servingEp addr
        addr := BitVec.ofNat 48 (addr + p.1), len := p.2, data := from_ + p.1
        given := if from_ = 0 then (bs.drop p.1).take p.2 else [], hdr := [], slot := 0 }), cDONE)

/-- Bytes of a token row (R232). -/
def CollBlock.rowb (k : CollBlock) : Nat := (k.count * fmtBits k.etype + 7) / 8

/-- The rows of routes stored to their slots, in order, until one is refused. -/
def storeRows (b : BayId) (c : Coll) : List Route → State → State × Code
  | [], s => (s, cDONE)
  | r :: rs, s =>
    let k := c.blk
    let a := strided c.rows
    let o := a.base + r.tok * a.stride
    let e := s.eccRead b o k.rowb
    if e.2 then (e.1.bitsEvent cMEM_UNCORRECTABLE, cMEM_UNCORRECTABLE)
    else if s.getF (Fld.ABR_EXP_W3_SLOT_STRIDE r.expert) < k.rowb then (e.1, cRANGE)
    else
      let w := e.1.expertStore b k (s.expDev r.expert) (s.inSlot r.expert (k.srcs + 1) r.slot) (bayAddr b o)
        (e.1.bayBytes b o k.rowb)
      if w.2 ≠ cDONE then w else storeRows b c rs w.1

/-- Stores of a bay's dispatch to a device that it has not acknowledged (R233). -/
def Fabric.storesLeft (f : Fabric) (b : BayId) (g : BitVec 12) (q : BitVec 32) (d : DevCoord) : Bool :=
  (f.srcs.any fun p => p.dev == d && ((p.unacked.any fun e => e.2.ofColl b g q) || p.waiting.any fun r => r.ofColl b g q))
    || (f.stalled.any fun e => e.1 == d && e.2.ofColl b g q) || f.ended.any fun e => e.1.ofColl b g q

/-- The tally words of the valid experts of the range, and their notices, each held until its device has acknowledged the stores to it
(R232, R233). -/
def storeTallies (b : BayId) (k : CollBlock) (x : Routing) : List Nat → State → State × Code
  | [], s => (s, cDONE)
  | e :: es, s =>
    if !s.expValid e then storeTallies b k x es s
    else
      let v := k.seq.toNat * 2 ^ 32 + s.getF (Fld.ABR_EXP_W0_VERSION e) * 2 ^ 24 + x.count e
      let w := s.expertStore b k (s.expDev e) (s.tallyWord e k.rank) 0 (leBytes 8 v)
      if w.2 ≠ cDONE then w
      else
        storeTallies b k x es
          (w.1.notify { (w.1.noticeTo .tally b k 0) with
            dst := s.expCoord e, expert := e, held := w.1.fab.storesLeft b k.group k.seq (s.expDev e) })

/-- The source part of a dispatch (R233). -/
def State.dispatch (s : State) (b : BayId) (c : Coll) : State :=
  let k := c.blk
  let x := routeTokens b k c.topk c.ntok 0 (s, ⟨[], [], 0, none⟩)
  let w := storeRows b c x.2.routes x.1
  if w.2 ≠ cDONE then w.1.detect b k.group k.seq w.2
  else
    match x.2.fail with
    | some code => w.1.detect b k.group k.seq code
    | none =>
      let t := storeTallies b k x.2 k.range w.1
      if t.2 ≠ cDONE then t.1.detect b k.group k.seq t.2
      else
        match (t.1.bay b).coll k.group k.seq with
        | none => t.1
        | some c => t.1.setColl b { c with srcDone := true, dropped := x.2.dropped, routed := true, routes := x.2.routes }

/-- The routes of a combine recomputed (R236). -/
def State.reroute (s : State) (b : BayId) (c : Coll) : State :=
  let k := c.blk
  let x := routeTokens b k c.topk c.ntok 0 (s, ⟨[], [], 0, none⟩)
  match x.2.fail with
  | some code => x.1.detect b k.group k.seq code
  | none => x.1.setColl b { c with routed := true, routes := x.2.routes }

/-- Experts that a combine uses: those with a slotted token. -/
def Coll.used (c : Coll) : List Nat := (c.routes.map fun r => r.expert).eraseDups

/-- Every read a combine needs, tally words first (R236). -/
def State.needed (s : State) (c : Coll) : List Fetch :=
  (c.used.map fun e => ⟨e, s.tallyWord e c.blk.rank, 8⟩)
    ++ c.routes.flatMap fun r => (cutParts 65536 c.blk.rowb).map fun p => ⟨r.expert, s.outSlot r.expert r.slot + p.1, p.2⟩

/-- A finished read: a tally word is compared with the directory's version and the recomputed count (R236). -/
def State.fetchDone (s : State) (b : BayId) (c : Coll) (x : Fetch) (bs : List Byte) : State :=
  let k := c.blk
  let s := s.setColl b { c with fetched := c.fetched ++ [(x, bs)] }
  if x.len = 8 ∧ x.addr = s.tallyWord x.expert k.rank then
    let v := leNat bs
    if v / 2 ^ 24 % 256 ≠ s.getF (Fld.ABR_EXP_W0_VERSION x.expert) then s.detect b k.group k.seq cEPOCH_STALE
    else if v % 65536 ≠ (c.routes.filter fun r => r.expert == x.expert).length then s.detect b k.group k.seq cMISMATCH_GROUP
    else s
  else s

/-- A read of a combine started: inside the device it ends at once, over the fabric it takes a slot of the bay (R301). -/
def State.fetch (s : State) (b : BayId) (c : Coll) (x : Fetch) : Option State :=
  let k := c.blk
  let d := s.expDev x.expert
  if d = s.devCoord then
    let a := s.access (.group (s.bayGroup b)) d permR x.addr x.len
    if !a.2 then some (a.1.detect b k.group k.seq cACCESS_DENIED)
    else
      let r := a.1.devRead 0 x.addr x.len
      some (if r.2.1 ≠ cDONE then r.1.detect b k.group k.seq r.2.1 else r.1.fetchDone b c x r.2.2)
  else
    let y := s.bay b
    if (y.slots.any fun e => (e.2.bind fun z => z.forColl) == some (k.group, k.seq)) || decide (256 ≤ y.slots.length) then none
    else
      let i := y.freeSlot
      let z : Slot :=
        { t := .seam, kind := .get, qseq := 0, pc := 0, ord := y.msgCount, loc := 0
          dest := (1 : Word) <<< 63 ||| ((d.setWidth 64 &&& 0x3F) <<< 48) ||| BitVec.ofNat 64 x.addr, dev := d, len := x.len, flag := 0
          cw := none, aop := 0, x := 0, cmp := 0, gd := 0, moved := x.len, flagDone := true, acks := [], acked := 0, pieces := []
          fail := none, gen := 0, smark := 0, spinc := 0, sends := 1, refused := false, first := s.now, forColl := some (k.group, k.seq), buf := [] }
      let s := s.setBay b ({ y with msgCount := y.msgCount + 1 }.setSlot i (some z))
      some (s.sendReqs d (slotReqs b i z))

/-- One output element of a token (R236). -/
def combineElem (acc out : Fmt) (rows : List (BitVec 32 × List Byte)) (src : Fmt) (c : Nat) : Nat :=
  let w := src.bits / 8
  let total := rows.foldl (fun (a : Num) r =>
    let y := src.decode (leNat ((r.2.drop (c * w)).take w))
    acc.decode (acc.encode false ((Num.mul (Fmt.binary32.decode r.1.toNat) y).add a))) Num.zero
  out.encode false total

/-- The output rows of a combine stored, in order; `false` where a word could not be written (R236, R562). -/
def storeOutputs (b : BayId) (c : Coll) (s0 : State) : Nat → Nat → State → State × Bool
  | 0, _, s => (s, true)
  | n + 1, i, s =>
    let k := c.blk
    let src := (Fmt.ofCode k.etype).getD .binary32
    let out := (Fmt.ofCode c.fmt.toNat).getD .binary32
    let acc : Fmt := if src = .binary64 ∨ out = .binary64 then .binary64 else .binary32
    let rows := (c.routes.filter fun r => r.tok == i).map fun r =>
      (r.weight, ((cutParts 65536 k.rowb).flatMap fun p =>
        ((c.fetched.find? fun q => decide (q.1 = ⟨r.expert, s0.outSlot r.expert r.slot + p.1, p.2⟩)).map Prod.snd).getD []))
    let bs := (List.range k.count).flatMap fun j => leBytes (out.bits / 8) (combineElem acc out rows src j)
    let a := strided c.rows
    let w := s.bayWrite b (a.base + i * a.stride) bs
    if w.2 then (w.1, false) else storeOutputs b c s0 n (i + 1) w.1

/-- The source part of a combine, piece by piece: reads from experts that have released, then the rows and the done notices
(R236). -/
def stepCombineSource (s : State) (b : BayId) (c : Coll) : Option State :=
  let k := c.blk
  if !c.source || c.srcDone then none
  else
    match (s.needed c).find? fun x => !c.fetched.any fun q => decide (q.1 = x) with
    | some x =>
      match s.expRank k.group x.expert with
      | some r => if c.releases.contains r then s.fetch b c x else none
      | none => some (s.detect b k.group k.seq cRANGE)
    | none =>
      let w := storeOutputs b c s c.ntok 0 s
      if !w.2 then some ((w.1.bitsEvent cMEM_UNCORRECTABLE).detect b k.group k.seq cMEM_UNCORRECTABLE)
      else
        let s := w.1.setColl b { c with srcDone := true }
        let ranks := (c.used.filterMap fun e => s.expRank k.group e).eraseDups
        some (ranks.foldl (fun s r => s.notify (s.noticeTo .done b k r)) s)

/-- Notices of a kind of a bay's collective still to be accepted. -/
def State.noticesLeft (s : State) (kind : NoticeKind) (b : BayId) (k : CollBlock) : Bool :=
  s.fab.notices.any fun n => n.kind == kind && n.src == b && k.names n.group n.seq

/-- Experts of the range that this bay hosts. -/
def State.hosted (s : State) (b : BayId) (k : CollBlock) : List Nat :=
  k.range.filter fun e => s.expValid e && s.expCoord e == coordOf s.devCoord b.toNat

/-- The closing flag of a dispatch or a combine settles (R233 to R236); a dispatch writes DROPPED first (R203). -/
def stepCloseExperts (s : State) (b : BayId) (c : Coll) : Option State :=
  let k := c.blk
  let ranks := List.range (k.srcs + 1)
  let srcOk := !c.source || (c.srcDone && !s.noticesLeft (if k.op = 5 then .tally else .done) b k)
  let expOk := !c.expert || (if k.op = 5 then ranks.all fun r => (s.hosted b k).all fun e => c.tallies.contains (r, e)
    else ranks.all fun r => c.dones.contains r)
  if srcOk && expOk then
    let s := if k.op = 5 ∧ c.source then (s.bayWrite b (k.off.toNat + 40) (leBytes 8 (c.dropped % 2 ^ 32))).1 else s
    some (((s.settle b k 0 cDONE).dropColl b k.group k.seq).dropNotices b k.group k.seq)
  else none

/-- One piece of the handlers' work on a dispatch or combine, if any can be done. -/
def expertStep (s : State) (b : BayId) (c : Coll) : Option State :=
  if c.source && c.blk.op == 5 && !c.srcDone then some (s.dispatch b c)
  else if c.source && c.blk.op == 6 && !c.routed then some (s.reroute b c)
  else (if c.blk.op = 6 then stepCombineSource s b c else none).orElse fun _ => stepCloseExperts s b c

/-- The handlers' work on a dispatch or combine until nothing more can be done. -/
def State.runExperts (s : State) (b : BayId) (g : BitVec 12) (q : BitVec 32) : Nat → State
  | 0 => s
  | n + 1 =>
    if !s.seamRuns b then s
    else
      match (s.bay b).coll g q with
      | none => s
      | some c =>
        if !c.joined then s
        else
          match expertStep s b c with
          | none => s
          | some s' => s'.runExperts b g q n

/-- The handlers' work on a collective. -/
def State.work (s : State) (b : BayId) (g : BitVec 12) (q : BitVec 32) : State :=
  match (s.bay b).coll g q with
  | none => s
  | some c => if c.blk.experts then s.runExperts b g q 70000 else s.runColl b g q collFuel

/-- The work on every collective of a bay, as when its handlers start to run. -/
def State.workBay (s : State) (b : BayId) : State :=
  (s.bay b).colls.foldl (fun s c => s.work b c.blk.group c.blk.seq) s

/-- The work on every collective of the device, as when a pause ends. -/
def State.workAll (s : State) : State := s.openColls.foldl (fun s e => s.work e.1 e.2.blk.group e.2.blk.seq) s

/-! ### Requests that end (R227, R233, R295, R298) -/

/-- The receiver of a chunk has detected a failure of its own and tells every member (R227): the chunk's answer tells the sender
nothing. -/
def farDetects (code : Code) : Bool := code == cSEAM_FAIL || code == cMISMATCH_GROUP || code == cMEM_UNCORRECTABLE

/-- A chunk acknowledged, or refused, by a member (R216, R218, R224). -/
def State.chunkAck (s : State) (b : BayId) (g : BitVec 12) (q : BitVec 32) (rank idx : Nat) (code : Code) : State :=
  match (s.bay b).coll g q with
  | none => s
  | some c =>
    if farDetects code then s
    else if code ≠ cDONE then s.detect b g q code
    else
      let c := match c.parent with
        | some p => if p.rank = rank ∧ p.acked = idx ∧ c.blk.reduce then { c with parent := some { p with acked := p.acked + 1 } } else c
        | none => c
      let c := if c.blk.reduce then c
        else c.updChild rank fun n => if n.acked = idx ∧ idx < n.sent then { n with acked := n.acked + 1 } else n
      (s.setColl b c).work b g q

/-- Held tally notices of a bay's dispatch leave whose device has acknowledged every store to it (R233). -/
def State.freeTallies (s : State) (b : BayId) (g : BitVec 12) (q : BitVec 32) : State :=
  (s.fab.notices.filter fun n =>
    n.held && n.src == b && n.group == g && n.seq == q && !s.fab.storesLeft b g q (devOf n.dst)).foldl (fun s n =>
      (s.mapNotices fun l => l.map fun m => if m = n then { m with held := false } else m).sendNotice n) s

/-- A read of a combine that failed ends its collective (R227, R236). -/
def State.fetchFails (s : State) (b : BayId) (i : Nat) : State :=
  match (s.bay b).slot i with
  | none => s
  | some x =>
    match x.forColl, x.fail with
    | some k, some code => (s.setSlot b i none).detect b k.1 k.2 code
    | _, _ => s

/-- A sequenced packet of this device ended with a code: acknowledged, refused or lost. Header DMA and the Ledger count theirs on
their own. -/
def State.reqDone (s : State) (r : Req) (code : Code) : State :=
  match r.org with
  | .msg b i ord => (s.slotReqDone b i ord r code).fetchFails b i
  | .chunk b g q rank idx last => if last ∨ code ≠ cDONE then s.chunkAck b g q rank idx code else s
  | .dispatch b g q => if code ≠ cDONE then s.detect b g q code else (s.freeTallies b g q).work b g q
  | .dma _ => s
  | .ledger _ => s

/-- A request whose end its requester reads on its own. -/
def Req.own (r : Req) : Bool :=
  match r.org with
  | .dma _ => true
  | .ledger _ => true
  | _ => false

/-- Requests that ended outside an acknowledgement handed to their requesters. -/
def State.settleEnded (s : State) : Nat → State
  | 0 => s
  | n + 1 =>
    let l := s.fab.ended.filter fun e => !e.1.own
    if l.isEmpty then s
    else
      let s := { s with fab := { s.fab with ended := s.fab.ended.filter fun e => e.1.own } }
      (l.foldl (fun s e => match e.1.org with
        | .chunk b g q _ _ _ => s.detect b g q e.2
        | _ => s.reqDone e.1 e.2) s).settleEnded n

/-! ### Opening and joining (R206, R219 to R223) -/

/-- The checks of R219 and R433: the state after the member list is read, and the code of the failure. -/
def State.joinCheck (s : State) (b : BayId) (k : CollBlock) : State × Option Code :=
  let g := k.group
  let h := (treeChildren (s.grpN g) (s.grpF g) k.root k.rank).length
  if !s.grpReady g || s.grpRoot g != k.root || decide (s.grpN g ≤ k.rank) then (s, some cRANGE)
  else
    let r := s.ownRead 7 (s.getF (Fld.ABR_GRP_W2_LIST g.toNat) + 4 * k.rank) 4
    if r.2.1 ≠ cDONE then (r.1, some r.2.1)
    else if leNat r.2.2 ≠ (coordOf s.devCoord b.toNat).toNat then (r.1, some cRANGE)
    else if !k.experts && k.rank == k.root && s.devState == stQUARANTINE then (r.1, some cRANGE)
    else if k.reduce && decide (0x100000 < k.stage + h * k.chunk) then (r.1, some cRANGE)
    else if s.getF (Fld.ABR_GRP_W1_EPOCH g.toNat) ≠ s.getF Fld.ABR_EPOCH_CURRENT then (r.1, some cEPOCH_STALE)
    else (r.1, none)

/-- Ranks that get a member's join notice (R219): its parent and children; of a dispatch or combine, a source's expert members and
an expert member's sources. -/
def State.joinTo (s : State) (c : Coll) : List Nat :=
  let k := c.blk
  if k.experts then
    ((if c.source then (k.range.filter s.expValid).filterMap fun e => s.expRank k.group e else [])
      ++ (if c.expert then List.range (k.srcs + 1) else [])).eraseDups.filter fun r => r != k.rank
  else (c.parent.map fun p => p.rank).toList ++ c.children.map fun n => n.rank

/-- A neighbour before anything has passed. -/
def Neighbour.fresh (r : Nat) : Neighbour := { rank := r, joined := false, sent := 0, acked := 0, credit := false, staged := none }

/-- A collective as it opens (R206, R210). -/
def State.newColl (s : State) (k : CollBlock) (ga gb gc : Word) (fmt : BitVec 4) : Coll :=
  let g := k.group
  let tree := !k.experts
  { blk := k, joined := false
    parent := if tree then (treeParent (s.grpF g) k.root k.rank).map Neighbour.fresh else none
    children := if tree then (treeChildren (s.grpN g) (s.grpF g) k.root k.rank).map Neighbour.fresh else []
    high := 0, posted := 0, done := 0, turn := 0, settled := []
    source := gc.getLsbD 62, expert := gc.getLsbD 63, ntok := fieldOf gc 0 16, rows := ga, topk := fieldOf gb 0 20, fmt := fmt
    srcDone := false, dropped := 0, heard := [], opened := s.now, told := [], tallies := [], releases := [], dones := []
    routed := false, routes := []
    fetched := [] }

/-- A join with an equal digest taken (R217, R219): a parent's carries the first credit of a reduce. -/
def Coll.takeJoin (c : Coll) (r now : Nat) : Coll :=
  let c := (c.hear r now).updChild r fun n => { n with joined := true }
  match c.parent with
  | some p =>
    if p.rank = r then { c with parent := some { p with joined := true, credit := p.credit || (c.blk.reduce && !p.joined) } } else c
  | none => c

/-- The early record of a pair at a bay. -/
def Fabric.earlyOf (f : Fabric) (b : BayId) (g : BitVec 12) (q : BitVec 32) : Option EarlyRec :=
  f.early.find? fun e => e.bay == b && e.group == g && e.seq == q

/-- The fabric without the early record of a pair at a bay. -/
def Fabric.dropEarly (f : Fabric) (b : BayId) (g : BitVec 12) (q : BitVec 32) : Fabric :=
  { f with early := f.early.filter fun e => !(e.bay == b && e.group == g && e.seq == q) }

/-- What an early record held taken into a member that has joined (R223, R228). -/
def State.takeEarly (s : State) (b : BayId) (k : CollBlock) (e : EarlyRec) : State :=
  match e.abort with
  | some a => s.abortColl b k.group k.seq a.1 a.2
  | none =>
    match (s.bay b).coll k.group k.seq with
    | none => s
    | some c =>
      if e.joins.any fun j => j.2 != s.digestOf k then s.detect b k.group k.seq cMISMATCH_GROUP
      else
        let c := e.joins.foldl (fun c j => c.takeJoin j.1 s.now) c
        s.setColl b { c with tallies := e.tallies, releases := e.releases, dones := e.dones, told := c.told ++ e.told }

/-- A collective opened and joined at a bay (R206, R219). -/
def State.openColl (s : State) (b : BayId) (k : CollBlock) (ga gb gc : Word) (fmt : BitVec 4) : State :=
  let c := s.newColl k ga gb gc fmt
  let s := s.updBay b fun y => { y with colls := y.colls ++ [c] }
  let j := s.joinCheck b k
  match j.2 with
  | some code => ({ j.1 with fab := j.1.fab.dropEarly b k.group k.seq }).detect b k.group k.seq code
  | none =>
    let s := j.1.setColl b { c with joined := true }
    let s := (s.joinTo c).foldl (fun s r => s.notify (s.noticeTo .join b k r)) s
    match s.fab.earlyOf b k.group k.seq with
    | none => s
    | some e => { s with fab := s.fab.dropEarly b k.group k.seq }.takeEarly b k e

/-- A unit accepts a SPLICE: its pair is open, or opens; a ninth collective waits (R206). -/
def State.acceptColl (s : State) (b : BayId) (k : CollBlock) (ga gb gc : Word) (fmt : BitVec 4) : Option State :=
  let y := s.bay b
  if (y.coll k.group k.seq).isSome then some s
  else if 8 ≤ y.colls.length then none
  else some (s.openColl b k ga gb gc fmt)

/-- A completed store part raises the high-water (R212). -/
def State.raiseHigh (s : State) (b : BayId) (k : CollBlock) (hi : Nat) : State :=
  match (s.bay b).coll k.group k.seq with
  | none => s
  | some c => (s.setColl b { c with high := max c.high (hi - k.region) }).work b k.group k.seq

/-! ### What reaches a bay -/

/-- A member waits on a rank (R222). -/
def State.waitsOn (s : State) (b : BayId) (c : Coll) (r : Nat) : Bool :=
  let k := c.blk
  if k.op = 5 then c.expert && decide (r ≤ k.srcs) && !(s.hosted b k).all fun e => c.tallies.contains (r, e)
  else if k.op = 6 then
    (c.source && (c.used.any fun e => s.expRank k.group e == some r) && !c.releases.contains r)
      || (c.expert && decide (r ≤ k.srcs) && !c.dones.contains r)
  else
    (c.children.any fun n => n.rank == r && (if k.reduce then decide (n.sent < k.nc) else !n.joined))
      || (match c.parent with
        | some p => p.rank == r && (if k.reduce then !p.joined else decide (c.done < k.nc))
        | none => false)

/-- A notice of a bay's collective to a rank that it has not accepted yet. -/
def State.owes (s : State) (kind : NoticeKind) (b : BayId) (k : CollBlock) (r : Nat) : Bool :=
  s.fab.notices.any fun n => n.kind == kind && n.src == b && k.names n.group n.seq && n.dst == s.memberCoord k.group r

/-- A rank waits on this member: the other side of R222. A join counts as arrived once a chunk has come from its receiver. -/
def State.waitedBy (s : State) (b : BayId) (c : Coll) (r : Nat) : Bool :=
  let k := c.blk
  if k.op = 5 then
    c.source && (k.range.any fun e => s.expValid e && s.expRank k.group e == some r) && (!c.srcDone || s.owes .tally b k r)
  else if k.op = 6 then
    (c.source && (c.used.any fun e => s.expRank k.group e == some r) && (!c.srcDone || s.owes .done b k r))
      || (c.expert && decide (r ≤ k.srcs) && s.owes .release b k r)
  else
    (c.children.any fun n => n.rank == r && (if k.reduce then s.owes .join b k r && decide (n.sent = 0) else decide (n.acked < k.nc)))
      || (match c.parent with
        | some p => p.rank == r && (if k.reduce then decide (p.acked < k.nc) else s.owes .join b k r && decide (c.done = 0))
        | none => false)

/-- A collective with a neighbour that it waits on, or that waits on it, in a device that no path reaches any more (R227, R298,
R299) aborts. -/
def State.loseNeighbours (s : State) : State :=
  let l := s.fab.lost
  if l.isEmpty then s
  else
    s.openColls.foldl (fun s e =>
      let k := e.2.blk
      match (s.bay e.1).coll k.group k.seq with
      | none => s
      | some c =>
        if c.joined && (s.joinTo c).any fun r =>
            l.contains (devOf (s.memberCoord k.group r)) && (s.waitsOn e.1 c r || s.waitedBy e.1 c r) then
          s.detect e.1 k.group k.seq cLINK_LOST
        else s) { s with fab := { s.fab with lost := [] } }

/-- Requests that ended, and pairs that broke, made known to the collectives; as often as one failure can cause another. -/
def State.settled (s : State) : State := (s.settleEnded 64).loseNeighbours

/-- The outcome that a packet's sender learns: acceptance, or a refusal (R224, R295). -/
def State.answer (s : State) (code : Code) : State := { s with lastCode := code }

/-- Notices of members of this device that match an arrival: taken off when accepted, marked when refused with CAPACITY (R224). -/
def State.noticeFate (s : State) (kind : NoticeKind) (b : BayId) (g : BitVec 12) (q : BitVec 32) (rank expert : Nat)
    (accepted : Bool) : State :=
  let hit := fun (n : Notice) => n.kind == kind && n.group == g && n.seq == q && n.dst == coordOf s.devCoord b.toNat
    && n.rank == rank && n.expert == expert
  s.mapNotices fun l => if accepted then l.filter fun n => !hit n else refuseWhere hit l

/-- An empty early record. -/
def EarlyRec.blank (b : BayId) (g : BitVec 12) (q : BitVec 32) : EarlyRec :=
  { group := g, seq := q, bay := b, joins := [], tallies := [], releases := [], dones := [], abort := none, since := 0, told := [] }

/-- A packet for a collective not joined kept in an early record (R223): `limit` records at most may be in use for it to make
one. -/
def State.early (s : State) (b : BayId) (g : BitVec 12) (q : BitVec 32) (limit : Nat) (f : EarlyRec → EarlyRec) : State × Bool :=
  match s.fab.earlyOf b g q with
  | some e => ({ s with fab := { s.fab.dropEarly b g q with early := (s.fab.dropEarly b g q).early ++ [f e] } }, true)
  | none =>
    if s.fab.early.length < limit then
      ({ s with fab := { s.fab with early := s.fab.early ++ [f (EarlyRec.blank b g q)] } }.tickEvent, true)
    else (s, false)

/-- A notice that reaches a bay: to an open collective, or into an early record, or refused (R223, R224). -/
def State.notice (s : State) (kind : NoticeKind) (b : BayId) (g : BitVec 12) (q : BitVec 32) (rank expert : Nat)
    (take : State → Coll → State) (keep : EarlyRec → EarlyRec) : State :=
  match (s.bay b).coll g q with
  | some c =>
    if c.joined then (take (s.noticeFate kind b g q rank expert true) (c.hear rank s.now)).answer cDONE
    else s
  | none =>
    let e := s.early b g q 7168 keep
    if e.2 then (e.1.noticeFate kind b g q rank expert true).answer cDONE
    else (s.noticeFate kind b g q rank expert false).answer cCAPACITY

/-- JOIN_NOTICE_ARRIVAL (R219, R221, R223). -/
def opJoinNotice (b : BayId) (g : BitVec 12) (q : BitVec 32) (rank : BitVec 16) (digest : BitVec 32) (s : State) : State :=
  ((s.takeNote 9 b.toNat .join [g.toNat, q.toNat, rank.toNat, digest.toNat]).notice .join b g q rank.toNat 0
    (fun s c =>
      if digest ≠ s.digestOf c.blk then s.detect b g q cMISMATCH_GROUP
      else (s.setColl b (c.takeJoin rank.toNat s.now)).work b g q)
    fun e => { e with joins := e.joins ++ [(rank.toNat, digest)] }).settled

/-- TALLY_NOTICE_ARRIVAL (R234). -/
def opTallyNotice (b : BayId) (g : BitVec 12) (q : BitVec 32) (rank : BitVec 16) (expert : BitVec 15) (s : State) : State :=
  ((s.takeNote 9 b.toNat .tally [g.toNat, q.toNat, rank.toNat, expert.toNat]).notice .tally b g q rank.toNat expert.toNat
    (fun s c => (s.setColl b { c with tallies := c.tallies ++ [(rank.toNat, expert.toNat)] }).work b g q)
    fun e => { e with tallies := e.tallies ++ [(rank.toNat, expert.toNat)] }).settled

/-- RELEASE_NOTICE_ARRIVAL (R236). -/
def opReleaseNotice (b : BayId) (g : BitVec 12) (q : BitVec 32) (rank : BitVec 16) (s : State) : State :=
  ((s.takeNote 9 b.toNat .release [g.toNat, q.toNat, rank.toNat]).notice .release b g q rank.toNat 0
    (fun s c => (s.setColl b { c with releases := c.releases ++ [rank.toNat] }).work b g q)
    fun e => { e with releases := e.releases ++ [rank.toNat] }).settled

/-- DONE_NOTICE_ARRIVAL (R235). -/
def opDoneNotice (b : BayId) (g : BitVec 12) (q : BitVec 32) (rank : BitVec 16) (s : State) : State :=
  ((s.takeNote 9 b.toNat .done [g.toNat, q.toNat, rank.toNat]).notice .done b g q rank.toNat 0
    (fun s c => (s.setColl b { c with dones := c.dones ++ [rank.toNat] }).work b g q)
    fun e => { e with dones := e.dones ++ [rank.toNat] }).settled

/-- Number from bytes of a chunk header. -/
def hdrField (h : List Byte) (o n : Nat) : Nat := leNat ((h.drop o).take n)

/-- A chunk of a member of this device that its arrival takes. -/
def State.takeInner (s : State) (b : BayId) (rank : Nat) (h : List Byte) : State :=
  { s with fab := { s.fab with inner := s.fab.inner.eraseP fun x => x.bay == b && x.rank == rank && x.hdr == h } }

/-- CHUNK_ARRIVAL at a bay from the member of `rank` (R213 to R217, R221, R224), whose handlers take it. A chunk whose length or index
does not fit the collective is not usable, as one whose check fails (DESIGN CHOICE, log entry 71: the spec names no such chunk). -/
def opChunk (b : BayId) (rank : Nat) (h : List Byte) (data : List Byte) (s : State) : State :=
  let g := BitVec.ofNat 12 (hdrField h 0 2)
  let i := hdrField h 2 2
  let q := BitVec.ofNat 32 (hdrField h 4 4)
  match (s.bay b).coll g q with
  | none => (s.takeInner b rank h).answer cRANGE
  | some c =>
    if !s.seamRuns b then s
    else
    let s := s.takeInner b rank h
    if !c.joined then s.answer cRANGE
    else if hdrField h 28 4 ≠ s.getF Fld.ABR_EPOCH_CURRENT then s.answer cEPOCH_STALE
    else
      let k := c.blk
      let c := c.hear rank s.now
      let s := s.setColl b c
      if hdrField h 8 4 ≠ (s.digestOf k).toNat then (s.detect b g q cMISMATCH_GROUP).answer cMISMATCH_GROUP
      else
        let n := hdrField h 24 4
        let bs := if hdrField h 12 1 % 2 = 1 then List.replicate n (0 : Byte) else data
        if crc64 bs ≠ BitVec.ofNat 64 (hdrField h 16 8) ∨ bs.length ≠ k.chunkLen i ∨ k.nc ≤ i then
          (s.detect b g q cSEAM_FAIL).answer cSEAM_FAIL
        else if k.reduce then
          match c.children.findIdx? fun m => m.rank == rank with
          | none => s.answer cRANGE
          | some j =>
            match c.children[j]? with
            | none => s
            | some m =>
              if i < m.sent then s.answer cDONE
              else if m.staged.isSome || i != m.sent then s.answer cRANGE
              else
                let w := s.bayWrite b (k.stage + j * k.chunk) bs
                if w.2 then ((w.1.bitsEvent cMEM_UNCORRECTABLE).detect b g q cMEM_UNCORRECTABLE).answer cMEM_UNCORRECTABLE
                else
                  ((w.1.setColl b (c.updChild rank fun m => { m with staged := some i, sent := i + 1 })).work b g q).answer cDONE
        else
          if (c.parent.map fun p => p.rank) ≠ some rank then s.answer cRANGE
          else if i < c.done then s.answer cDONE
          else if i ≠ c.done then s.answer cRANGE
          else
            let w := s.bayWrite b (k.region + i * k.chunk) bs
            if w.2 then ((w.1.bitsEvent cMEM_UNCORRECTABLE).detect b g q cMEM_UNCORRECTABLE).answer cMEM_UNCORRECTABLE
            else ((w.1.setColl b { c with done := i + 1 }).work b g q).answer cDONE

/-- CREDIT_ARRIVAL (R217, R224). -/
def opCredit (b : BayId) (g : BitVec 12) (q : BitVec 32) (s : State) : State :=
  let s := s.takeNote 9 b.toNat .credit [g.toNat, q.toNat]
  match (s.bay b).coll g q with
  | none => s.answer cRANGE
  | some c =>
    match c.parent with
    | some p =>
      if c.joined && c.blk.reduce then
        (((s.setColl b ({ c with parent := some { p with credit := true } }.hear p.rank s.now)).work b g q).settled).answer cDONE
      else s
    | none => s

/-- CHUNK_ACK_ARRIVAL (R216 to R218): a child's, or a parent's, acknowledgement of a chunk; of a dispatch or combine, or of a collective
that has ended, the acceptance or refusal of a notice by the member of `rank`; with CAPACITY, which no chunk is answered with, the
refusal of a join (R224, R233, R236). A refusal restarts the silence timer of the rank (R224, R226). -/
def opChunkAck (b : BayId) (g : BitVec 12) (q : BitVec 32) (rank : BitVec 16) (idx : BitVec 16) (status : Code) (s : State) : State :=
  let to_ := s.memberCoord g rank.toNat
  let hit := fun (n : Notice) => n.src == b && n.group == g && n.seq == q && n.dst == to_
    && (n.kind != .tally || decide (n.expert % 65536 = idx.toNat))
  let fate := fun (s : State) => s.mapNotices fun l => if status = cCAPACITY then refuseWhere hit l else l.filter fun n => !hit n
  match (s.bay b).coll g q with
  | none => if status = cCAPACITY ∨ status = cDONE then fate s else s
  | some c =>
    if c.blk.experts || status == cCAPACITY then
      let s := fate s
      ((if status = cCAPACITY then s.setColl b (c.hear rank.toNat s.now) else s).work b g q).settled
    else (s.chunkAck b g q rank.toNat idx.toNat status).settled

/-- Tree neighbours of a bay in a group, by coordinate. -/
def State.treeNeighbours (s : State) (b : BayId) (g : BitVec 12) : List Nat :=
  match s.rankOf g (coordOf s.devCoord b.toNat) with
  | none => []
  | some r =>
    ((treeParent (s.grpF g) (s.grpRoot g) r).toList ++ treeChildren (s.grpN g) (s.grpF g) (s.grpRoot g) r).map fun x =>
      (s.memberCoord g x).toNat

/-- ABORT_NOTICE_ARRIVAL (R223, R224, R228, R229): it completes an open collective, or is kept; it is forwarded once to the bay's
tree neighbours. -/
def opAbortNotice (b : BayId) (g : BitVec 12) (q : BitVec 32) (code : Code) (detector : BitVec 16) (s : State) : State :=
  let s := s.takeNote 9 b.toNat .abort [g.toNat, q.toNat, code.toNat, detector.toNat]
  let rank := (s.rankOf g (coordOf s.devCoord b.toNat)).getD 0
  let fwd := fun (s : State) =>
    if s.grpReady g then s.sendAborts b g q rank code detector.toNat (s.treeNeighbours b g) else s
  let hit := fun (n : Notice) => n.kind == .abort && n.group == g && n.seq == q && n.dst == coordOf s.devCoord b.toNat
  let fate := fun (s : State) (ok : Bool) =>
    s.mapNotices fun l => if ok then l.filter fun n => !hit n else refuseWhere hit l
  match (s.bay b).coll g q with
  | some _ => (fwd (fate (s.abortColl b g q code detector.toNat) true)).answer cDONE
  | none =>
    let old := (s.fab.earlyOf b g q).bind fun e => e.abort
    let e := s.early b g q 8192 fun e =>
      if e.abort.isSome then e else { e with abort := some (code, detector.toNat), since := s.now }
    if !e.2 then (fate s false).answer cCAPACITY
    else (if old.isSome then fate e.1 true else fwd (fate e.1 true)).answer cDONE

/-- EARLY_RECORD_EXPIRY: a record that holds an abort ends 10,000,000 ticks after it came (R223). -/
def opEarlyExpiry (b : BayId) (g : BitVec 12) (q : BitVec 32) (s : State) : State :=
  match s.fab.earlyOf b g q with
  | some e =>
    if e.abort.isSome && decide (e.since + 10000000 ≤ s.now) then { s with fab := s.fab.dropEarly b g q } else s
  | none => s

/-- NOTICE_RESEND: a notice refused with CAPACITY leaves again (R224). -/
def opNoticeResend (k : Nat) (s : State) : State :=
  match s.fab.notices[k]? with
  | none => s
  | some n =>
    if !n.refused then s
    else (s.mapNotices fun l => l.mapIdx fun i m => if i = k then { m with refused := false } else m).sendNotice n

/-- The scribe counts of the last packets sent to the ranks that wait on a bay, under an open collective or an early record, whose
joins have then come (R222, R225); `none` where the rank does not wait. -/
def State.slowDue (s : State) (b : BayId) (g : BitVec 12) (q : BitVec 32) (r : Nat) : Option (Option Nat) :=
  let last := fun (l : List (Nat × Nat)) => (l.find? fun e => e.1 == r).map Prod.snd
  match (s.bay b).coll g q with
  | some c => if c.joined && s.waitedBy b c r then some (last c.told) else none
  | none =>
    match s.fab.earlyOf b g q with
    | some e => if e.joins.any fun j => j.1 == r then some (last e.told) else none
    | none => none

/-- SLOW_NOTICE_SEND (R225): to a rank that waits on the bay and got no other packet of the collective in this interval of 100,000
ticks. -/
def opSlowSend (b : BayId) (g : BitVec 12) (q : BitVec 32) (rank : BitVec 16) (s : State) : State :=
  let y := s.bay b
  let st := y.main.status.st
  match s.slowDue b g q rank.toNat with
  | none => s
  | some last =>
    if st == .fault || st == .stopped || last.any fun t => decide (t / 100000 = s.now / 100000) then s
    else
      let own := (s.rankOf g (coordOf s.devCoord b.toNat)).getD 0
      ((s.noteTo b g q (s.memberCoord g rank.toNat) .slow [own]).incF Fld.ABR_COLL_STATS_SLOW_TX).tickEvent

/-- SLOW_NOTICE_ARRIVAL restarts the silence timer of its sender (R226). -/
def opSlowArrival (b : BayId) (g : BitVec 12) (q : BitVec 32) (rank : BitVec 16) (s : State) : State :=
  let s := s.takeNote 9 b.toNat .slow [g.toNat, q.toNat, rank.toNat]
  match (s.bay b).coll g q with
  | some c => s.setColl b (c.hear rank.toNat s.now)
  | none => s

/-- SILENCE_TIMEOUT: a neighbour the member waits on has been silent for 2,000,000 ticks (R226). -/
def opSilence (b : BayId) (g : BitVec 12) (q : BitVec 32) (rank : BitVec 16) (s : State) : State :=
  match (s.bay b).coll g q with
  | some c =>
    let last := ((c.heard.find? fun e => e.1 == rank.toNat).map Prod.snd).getD c.opened
    if c.joined && s.waitsOn b c rank.toNat && decide (last + 2000000 ≤ s.now) then s.detect b g q cABORTED_GROUP else s
  | none => s

/-! ### Group entries (R209, R238) -/

/-- GROUP_CHECK_DONE (R208, R209): the member list is read and tested. -/
def opGroupCheck (g : BitVec 12) (s : State) : State :=
  let i := g.toNat
  if s.getF (Fld.ABR_GRP_W0_STATE i) ≠ 1 then s
  else
    let n := s.grpN g
    let base := s.getF (Fld.ABR_GRP_W2_LIST i)
    let r := if base % 64 ≠ 0 then (s, cMALFORMED, [])
      else if regionOf base ≠ .hbm ∨ regionOf (base + 4 * n - 1) ≠ .hbm then (s, cRANGE, [])
      else s.ownRead 7 base (4 * n)
    let l := (List.range n).map fun j => leNat ((r.2.2.drop (4 * j)).take 4)
    let bad := (l.any fun m => decide (2 ^ 28 ≤ m) || decide (1024 ≤ m % 4096)) || decide (l.eraseDups.length ≠ n)
      || decide (n ≤ s.grpRoot g)
    let code := if r.2.1 ≠ cDONE then r.2.1 else if bad then cRANGE else cDONE
    let s := r.1.setFs [(Fld.ABR_GRP_W0_STATE i, if code = cDONE then 2 else 3), (Fld.ABR_GRP_W0_CHECK_CODE i, code.toNat)]
    { s with fab := { s.fab with groups := smapSet (fun _ => []) s.fab.groups i (if code = cDONE then l else []) } }

/-- Collectives of a group open or early-recorded at this device (`ABR_GRP_W1.OPEN`, R238). -/
def State.grpOpen (s : State) (g : BitVec 12) : Nat :=
  (((s.openColls.map fun e => e.2.blk).filter fun k => k.group == g).map (fun k => k.seq)
    ++ (s.fab.early.filter fun e => e.group == g).map fun e => e.seq).eraseDups.length

/-! ### The meanings -/

/-- SPLICE_MMB (R216). -/
def execSpliceMmb (b : BayId) (t : Thread) (f : XFields) (s : State) : Res := .next (opSplice .spliceMmb b t f s)

/-- SPLICE_MMR (R217). -/
def execSpliceMmr (b : BayId) (t : Thread) (f : XFields) (s : State) : Res := .next (opSplice .spliceMmr b t f s)

/-- SPLICE_VB (R216). -/
def execSpliceVb (b : BayId) (t : Thread) (f : XFields) (s : State) : Res := .next (opSplice .spliceVb b t f s)

/-- SPLICE_VR (R217). -/
def execSpliceVr (b : BayId) (t : Thread) (f : XFields) (s : State) : Res := .next (opSplice .spliceVr b t f s)

/-- SPLICE_DSP (R233). -/
def execSpliceDsp (b : BayId) (t : Thread) (f : XFields) (s : State) : Res := .next (opSplice .spliceDsp b t f s)

/-- SPLICE_CMB (R236). -/
def execSpliceCmb (b : BayId) (t : Thread) (f : XFields) (s : State) : Res := .next (opSplice .spliceCmb b t f s)

/-- JOIN_NOTICE_ARRIVAL (R219). -/
def execJoinNoticeArrival (b : BayId) (g : BitVec 12) (q : BitVec 32) (r : BitVec 16) (d : BitVec 32) (s : State) : Res :=
  .next (opJoinNotice b g q r d s)

/-- CHUNK_ARRIVAL (R214). -/
def execChunkArrival (b : BayId) (r : BitVec 16) (h data : List Byte) (s : State) : Res :=
  .next (opChunk b r.toNat h data s).settled

/-- CREDIT_ARRIVAL (R217). -/
def execCreditArrival (b : BayId) (g : BitVec 12) (q : BitVec 32) (s : State) : Res := .next (opCredit b g q s)

/-- CHUNK_ACK_ARRIVAL (R218). -/
def execChunkAckArrival (b : BayId) (g : BitVec 12) (q : BitVec 32) (r i : BitVec 16) (c : Code) (s : State) : Res :=
  .next (opChunkAck b g q r i c s)

/-- ABORT_NOTICE_ARRIVAL (R228). -/
def execAbortNoticeArrival (b : BayId) (g : BitVec 12) (q : BitVec 32) (c : Code) (d : BitVec 16) (s : State) : Res :=
  .next (opAbortNotice b g q c d s)

/-- EARLY_RECORD_EXPIRY (R223). -/
def execEarlyRecordExpiry (b : BayId) (g : BitVec 12) (q : BitVec 32) (s : State) : Res := .next (opEarlyExpiry b g q s)

/-- NOTICE_RESEND (R224). -/
def execNoticeResend (k : Nat) (s : State) : Res := .next (opNoticeResend k s)

/-- SLOW_NOTICE_SEND (R225). -/
def execSlowNoticeSend (b : BayId) (g : BitVec 12) (q : BitVec 32) (r : BitVec 16) (s : State) : Res :=
  .next (opSlowSend b g q r s)

/-- SLOW_NOTICE_ARRIVAL (R226). -/
def execSlowNoticeArrival (b : BayId) (g : BitVec 12) (q : BitVec 32) (r : BitVec 16) (s : State) : Res :=
  .next (opSlowArrival b g q r s)

/-- SILENCE_TIMEOUT (R226). -/
def execSilenceTimeout (b : BayId) (g : BitVec 12) (q : BitVec 32) (r : BitVec 16) (s : State) : Res :=
  .next (opSilence b g q r s)

/-- TALLY_NOTICE_ARRIVAL (R234). -/
def execTallyNoticeArrival (b : BayId) (g : BitVec 12) (q : BitVec 32) (r : BitVec 16) (e : BitVec 15) (s : State) : Res :=
  .next (opTallyNotice b g q r e s)

/-- RELEASE_NOTICE_ARRIVAL (R236). -/
def execReleaseNoticeArrival (b : BayId) (g : BitVec 12) (q : BitVec 32) (r : BitVec 16) (s : State) : Res :=
  .next (opReleaseNotice b g q r s)

/-- DONE_NOTICE_ARRIVAL (R235). -/
def execDoneNoticeArrival (b : BayId) (g : BitVec 12) (q : BitVec 32) (r : BitVec 16) (s : State) : Res :=
  .next (opDoneNotice b g q r s)

/-- GROUP_CHECK_DONE (R209). -/
def execGroupCheckDone (g : BitVec 12) (s : State) : Res := .next (opGroupCheck g s)

end Sys2Proof.Machine
end

