-- ==== Sys2Proof/Machine/Device.lean ====
section
/-! DEFINITION. What reaches the host and the managers (R449 to R454, R463, R467, R536), the measurement registers (R483), changes
of the device state (R462), and the job and its threads (R71, R76, R460). -/

namespace Sys2Proof.Machine

/-! ### Host memory and messages -/

/-- `s` with the host interface changed. -/
def State.updHost (s : State) (f : HostIf → HostIf) : State := { s with host := f s.host }

/-- Bytes the device writes to host memory from a host address, ascending. -/
def State.hostWrite (s : State) (a : Nat) : List Byte → State
  | [] => s
  | v :: vs => (s.updHost fun h => { h with mem := smapSet memDefault h.mem a v }).hostWrite (a + 1) vs

/-- Message `v` of the MSI-X table sent, or held in the pending-bit array while it is masked (R451). -/
def State.sendMsi (s : State) (v : Nat) : State :=
  if s.getF (Fld.MSC_MSIX_CTRL_MASK v) = 1 then
    s.setF Fld.MSC_MSIX_PBA_PENDING (s.getF Fld.MSC_MSIX_PBA_PENDING ||| 2 ^ v)
  else s.hostWrite (s.getF (Fld.MSC_MSIX_ADDR_ADDR v)) (leBytes 4 (s.getF (Fld.MSC_MSIX_CTRL_DATA v)))

/-- A host-side error recorded and signalled on vector 0 (R467, R469). -/
def State.hostErr (s : State) (kind ring : Nat) (code : Code) (addr : Nat) : State :=
  let s := s.incF Fld.MSC_HOST_ERR_CNT_COUNT
  let s := if s.getF Fld.MSC_HOST_ERR_VALID = 1 then s
    else s.setFs [(Fld.MSC_HOST_ERR_VALID, 1), (Fld.MSC_HOST_ERR_KIND, kind), (Fld.MSC_HOST_ERR_RING, ring),
      (Fld.MSC_HOST_ERR_CODE, code.toNat), (Fld.MSC_HOST_ERR_ADDR, addr)]
  s.sendMsi 0

/-- A management event queued; while 64 wait, later ones are dropped and counted (R536). -/
def State.mgmtEvent (s : State) (code detail : Nat) : State :=
  if 64 ≤ s.mgmt.events.length then s.incF Fld.MSC_MGMT_DROPPED
  else
    let e : MgmtEvent := { code := code, detail := detail, dev := s.devCoord, cal := s.reg RegId.SCR_CAL.addr }
    { s with mgmt := { s.mgmt with events := s.mgmt.events ++ [e] } }

/-! ### Measurements (R483) -/

/-- A measurement register. -/
def State.measOf (s : State) (r : Nat) : List Byte :=
  smapGet (fun _ => List.replicate 64 0) s.meas r

/-- A measurement register extended by a value. -/
def State.extendMeas (s : State) (r : Nat) (d : List Byte) : State :=
  { s with meas := smapPut s.meas r (sha3 (s.measOf r ++ d)) }

/-- Little-endian bytes of registers of a kind. -/
def State.regBytes (s : State) (r : RegId) (n m : Nat) : List Byte :=
  (List.range n).flatMap fun i => (List.range m).flatMap fun j => leBytes 8 (s.reg (r.addr i j)).toNat

/-- Entries of an access table in use (R492). -/
def State.accUsed (s : State) (t : Nat) : Nat := (s.accEntries t).length

/-- The access tables, their control registers and the class registers, in register order (R483). -/
def State.accessImage (s : State) : List Byte :=
  s.regBytes .MSC_PEER_RANGE 8 1 ++ s.regBytes .MSC_BAY_GROUP 64 1
    ++ ((List.range 1116).flatMap fun t => leBytes 8 (s.getF (Fld.MSC_ACC_CTRL_LOCK t) * 2 ^ 63 + s.accUsed t))
    ++ (List.range 1116).flatMap fun t => (List.range 64).flatMap fun j =>
      leBytes 8 (s.reg (RegId.MSC_ACC_A.addr t j)).toNat ++ leBytes 8 (s.reg (RegId.MSC_ACC_B.addr t j)).toNat

/-! ### Device states (R462) -/

/-- A down port waits for light again once the device enters READY, and gives up its detours (R292, R305). -/
def State.portReady (s : State) (p : Nat) : State :=
  if s.getF (Fld.ABR_PORT_STATUS_DOWN p) = 1 then
    ((s.freshLanes p).setFs [(Fld.ABR_PORT_STATUS_DOWN p, 0), (Fld.ABR_PORT_STATUS_CAUSE p, 1)]).setPort p
      { s.port p with wasUp := false, detours := [] }
  else s.setPort p { s.port p with wasUp := s.portUp p }

/-- What entering READY does beside the state (R292, R305, R483). -/
def State.enterReady (s : State) : State :=
  ((List.range 16).foldl State.portReady s).extendMeas 4 (sha3 s.accessImage)

/-- The device state changed (R462): `MSC_EVENT.STATE`, vector 0 and management event 0x01; leaving READY clears the HBM1500
permit (R39). -/
def State.setDevState (s : State) (n : Nat) : State :=
  let o := s.devState
  if o = n then s
  else
    let s := ((s.setF Fld.MSC_STATE_STATE n).stick Fld.MSC_EVENT_STATE Fld.MSC_EVENT_CNT_STATE).sendMsi 0
    let s := s.mgmtEvent 1 n
    let s := if o = stREADY then s.setF Fld.MSC_HBM1500_PERMIT_STACK 0 else s
    if n = stREADY then s.enterReady else s

/-! ### Completion records (R449, R454, R455) -/

/-- PCT and POSITION of the progress register of a long operation, by opcode (R455). -/
def progressOf (op : Nat) : Option (Field × Field) :=
  match op with
  | 0x10 => some (Fld.MSC_LOAD_PROG_PCT, Fld.MSC_LOAD_PROG_POSITION)
  | 0x20 => some (Fld.LDG_BASTE_PROG_PCT, Fld.LDG_BASTE_PROG_POSITION)
  | 0x21 => some (Fld.LDG_HEM_PROG_PCT, Fld.LDG_HEM_PROG_POSITION)
  | 0x22 => some (Fld.LDG_RESTORE_PROG_PCT, Fld.LDG_RESTORE_PROG_POSITION)
  | 0x23 => some (Fld.LDG_DIGEST_PROG_PCT, Fld.LDG_DIGEST_PROG_POSITION)
  | 0x30 => some (Fld.HBM_SCRUB_PROG_PCT, Fld.HBM_SCRUB_PROG_POSITION)
  | 0x31 => some (Fld.HBM_FOLD_PROG_PCT, Fld.HBM_FOLD_PROG_POSITION)
  | _ => none

/-- PCT of a record of a command (R454). -/
def State.pctOf (s : State) (op : Nat) : Nat := (progressOf op).elim 0xFFFF fun p => s.getF p.1

/-- POSITION of a long operation; zero for another command. -/
def State.positionOf (s : State) (op : Nat) : Nat := (progressOf op).elim 0 fun p => s.getF p.2

/-- A command with the LAUNCH flag (R452). -/
def HostCmd.launched (c : HostCmd) : Bool := c.flags.testBit 0

/-- A record of a command: `kind` is 0 final, 2 interim or 4 event. -/
def State.recordOf (s : State) (c : HostCmd) (kind : Nat) (code : Code) (detail : Nat) (result : Word) : Record :=
  { cid := c.cid, op := c.op, code := code, sq := c.sq, flags := kind + (if c.launched then 8 else 0), pct := s.pctOf c.op
    detail := detail, late := min (c.late.getD 0) 0xFFFFFFFF, result := result, k := c.k }

/-- Records waiting for a completion ring. -/
def State.waitingOf (s : State) (q : Nat) : List Record := smapGet (fun _ => []) s.host.waiting q

/-- `s` with the records waiting for a ring replaced. -/
def State.setWaiting (s : State) (q : Nat) (l : List Record) : State :=
  s.updHost fun h => { h with waiting := smapSet (fun _ => []) h.waiting q l }

/-- A ring number above 15 stands for a ring that a reset of the host interface has taken away (R445). -/
def noRing : Nat := 16

/-- A record handed to its completion ring; of a command's interim records only the latest waits (R449). -/
def State.post (s : State) (r : Record) : State :=
  if noRing ≤ r.sq then s
  else
    let q := s.getF (Fld.MSC_SQ_CFG_CQ r.sq)
    s.setWaiting q ((s.waitingOf q).filter (fun x => !(r.flags.testBit 1 && x.flags.testBit 1 && x.k == r.k)) ++ [r])

/-- A fetched host command by number. -/
def State.cmd (s : State) (k : Nat) : Option HostCmd := s.host.cmds.find? fun c => c.k == k

/-- `s` with a host command replaced. -/
def State.setCmd (s : State) (c : HostCmd) : State :=
  s.updHost fun h => { h with cmds := h.cmds.map fun d => if d.k = c.k then c else d }

/-- Commands of a ring fetched and not yet completed (R472). -/
def State.outstanding (s : State) (q : Nat) : Nat := (s.host.cmds.filter fun c => c.sq == q).length

/-- A submission ring whose EN is clear is off once nothing of it is outstanding (R471). -/
def State.ringOff (s : State) (q : Nat) : State :=
  if q < 16 ∧ s.getF (Fld.MSC_SQ_CFG_EN q) = 0 ∧ s.outstanding q = 0 then s.setF (Fld.MSC_SQ_CFG_STATE q) 0 else s

/-- A host command ends: its final record, unless NO_COMP and DONE (R452, R454). -/
def State.finishCmd (s : State) (k : Nat) (code : Code) (detail : Nat := 0) (result : Word := 0) : State :=
  match s.cmd k with
  | none => s
  | some c =>
    let r := s.recordOf c 0 code detail result
    let s := s.updHost fun h => { h with cmds := h.cmds.filter fun d => d.k != k }
    let s := if c.flags.testBit 2 ∧ code = cDONE then s else s.post r
    s.ringOff c.sq

/-- A long operation ends: RESULT is POSITION (R454, R455). -/
def State.finishLong (s : State) (k : Nat) (code : Code) (detail : Nat := 0) : State :=
  s.finishCmd k code detail (BitVec.ofNat 64 ((s.cmd k).elim 0 fun c => s.positionOf c.op))

/-- `s` with the Ledger changed. -/
def State.updLdg (s : State) (f : Ledger → Ledger) : State := { s with ldg := f s.ldg }

/-- A hem ends (R418). -/
def State.hemEnd (s : State) (h : HemJob) (code : Code) : State :=
  let s := ((s.withdrawLedger .hem).updLdg fun l => { l with hem := none }).setFs
    [(Fld.LDG_HEM_PROG_STATE, if code = cDONE then 2 else 3), (Fld.LDG_HEM_PROG_CODE, code.toNat)]
  h.cmd.elim s fun k => s.finishLong k code

/-- The command of an opcode in execution. -/
def State.running (s : State) (op : Nat) : Option HostCmd := s.host.cmds.find? fun c => c.op == op && c.stage == .running

/-- Interim records of a long operation whose PCT has reached a further multiple of 100 × PSTEP (R452). -/
def State.showProgress (s : State) (op : Nat) : State :=
  match s.running op with
  | none => s
  | some c =>
    if c.flags.testBit 3 ∧ 0 < c.pstep ∧ c.shown < s.pctOf op / (100 * c.pstep) then
      (s.setCmd { c with shown := s.pctOf op / (100 * c.pstep) }).post
        (s.recordOf c 2 cDONE 0 (BitVec.ofNat 64 (s.positionOf op)))
    else s

/-- A record as it is written: an interim one copies PCT and POSITION of a command still in execution at that moment (R455). -/
def State.atWriting (s : State) (r : Record) : Record :=
  if r.flags.testBit 1 && (s.cmd r.k).isSome then
    { r with pct := s.pctOf r.op, result := BitVec.ofNat 64 (s.positionOf r.op) }
  else r

/-- Bytes of a record as written (R454). -/
def State.recordBytes (s : State) (r : Record) (phase : Nat) : List Byte :=
  let r := s.atWriting r
  leBytes 2 r.cid.toNat ++ leBytes 1 r.op ++ leBytes 1 r.code.toNat ++ leBytes 2 (s.getF (Fld.MSC_SQ_STATUS_HEAD r.sq))
    ++ leBytes 1 r.sq ++ leBytes 1 (r.flags + phase) ++ leBytes 2 r.pct ++ leBytes 2 r.detail ++ leBytes 4 r.late
    ++ leBytes 8 r.result.toNat ++ leBytes 8 s.now

/-! ### Threads and their status register (R76) -/

/-- STATE code (R76). -/
def ThreadState.code : ThreadState → Nat
  | .idle => 0
  | .run => 1
  | .wait => 2
  | .drain => 3
  | .fault => 4
  | .stopped => 5

/-- The status register of a thread (R76). -/
def ThreadStatus.word (x : ThreadStatus) : Word :=
  BitVec.ofNat 64 (x.faultPc.toNat * 2 ^ 44 + x.qseq.toNat * 2 ^ 32 + x.cause.toNat * 2 ^ 24 + x.source.toNat * 2 ^ 20
    + x.flag.toNat * 2 ^ 16 + (if x.multi then 2 ^ 15 else 0) + x.pendG.toNat * 2 ^ 8 + x.st.code)

/-- Number of a thread in a device. -/
def threadKey (b : BayId) (t : Thread) : Nat := b.toNat * 2 + (if t = .seam then 1 else 0)

/-- A thread of a started bay entered FAULT: the event record, once for each thread of a job, and the first cause (R460). -/
def State.faultReport (s : State) (b : BayId) (t : Thread) : State :=
  match s.host.job with
  | none => s
  | some j =>
    let x := (s.thr b t).status
    if !j.bays.contains b.toNat || j.told.contains (threadKey b t) then s
    else
      let s := s.updHost fun h => { h with job := some { j with
        told := threadKey b t :: j.told, fault := some (j.fault.getD x.cause) } }
      match j.cmd.bind s.cmd with
      | none => s
      | some c => s.post (s.recordOf c 4 x.cause (b.toNat + (if t = .seam then 0x8000 else 0)) x.word)

/-- The bay still owes a chunk of the collective: its store part, or the source part of a dispatch or combine, is not done (R71). -/
def Coll.owes (c : Coll) : Bool :=
  if c.blk.experts then c.source && !c.srcDone else c.sends && decide (c.high < c.blk.len)

/-- Collectives of the bay aborted by a thread's stop (R71, R227). -/
def State.abortStopped (s : State) (b : BayId) (p : Coll → Bool) : State :=
  ((s.bay b).colls.filter p).foldl (fun s c => s.detect b c.blk.group c.blk.seq cABORTED_GROUP) s

/-- Everything a draining thread waits for has finished (R68, R69, R76). -/
def Bay.drained (y : Bay) (t : Thread) : Bool :=
  (match t with
    | .main => y.pq.isEmpty && y.mainVq.isEmpty
    | .seam => y.seamVq.isEmpty)
    && y.usedSlots.all fun e => e.2.t != t || e.2.forColl.isSome

/-- A thread drained after END of which an AMO failed meanwhile turns towards FAULT with the AMO's code (R63). -/
def ThreadRec.failedAtEnd (r : ThreadRec) : ThreadRec :=
  match r.pend.find? fun p => p.failed.isSome with
  | some p => r.stopOn (p.failed.getD 0) 4 0 p.qseq p.pc p.reg true
  | none => r

/-- THREAD_DRAIN_DONE (R63, R68, R69, R71, R76). -/
def opDrainDone (b : BayId) (t : Thread) (s : State) : State :=
  let r := s.thr b t
  let r := if (r.stop.map fun p => p.goal) = some .idle then r.failedAtEnd else r
  match r.stop with
  | none => s
  | some p =>
    if s.gated || r.status.st != .drain || !(s.bay b).drained t then s
    else
      let s := s.updThr b t fun _ =>
        { r with
          stop := none
          status := { r.status with
            st := p.goal
            pendG := if p.goal ≠ .idle ∧ r.status.pendG = 0 then (r.pend.head?.elim 0 fun x => x.reg) else r.status.pendG } }
      let s := match t, p.goal with
        | _, .idle => s
        | .main, _ => s.abortStopped b Coll.owes
        | .seam, .fault => s.abortStopped b fun _ => true
        | .seam, _ => s
      if p.goal = .fault then s.faultReport b t else s

/-! ### The job (R460) -/

/-- Every bay stopped that the job has started (R456). -/
def State.stopBays (s : State) : State :=
  match s.host.job with
  | none => s
  | some j => j.bays.foldl (fun s b => s.bayStop (BitVec.ofNat 10 b)) s

/-- `s` with the job in execution changed. -/
def State.updJob (s : State) (f : Job → Job) : State := s.updHost fun h => { h with job := h.job.map f }

/-- CODE of the job's end: the first cause that applies (R460). -/
def Job.code (j : Job) : Code :=
  if j.lease then cLEASE_EXPIRED
  else if j.plumb then cPLUMB_DIVERGED
  else if j.stopped then cABORTED_GROUP
  else j.fault.getD cDONE

/-- JOB_STOP commands that wait for the job's end complete (R456). -/
def State.stopDone (s : State) : State :=
  (s.host.cmds.filter fun c => c.op == 0x12 && c.stage == .running).foldl (fun s c => s.finishCmd c.k cDONE) s

/-- The job ends once every thread of every started bay is in IDLE, FAULT or STOPPED, in RUN or QUARANTINE; a job stopped by an
expel or a lease expiry may end in the state that these enter from HOLD, or that a renewal leads to (R429 to R432, R460). -/
def State.endJob (s : State) : State :=
  match s.host.job with
  | none => s
  | some j =>
    let st := s.devState
    if (st = stRUN ∨ st = stQUARANTINE ∨ (st = stHELD ∧ j.lease) ∨ (st = stREADY ∧ (j.stopped ∨ j.lease)))
        ∧ j.bays.all (fun b => !(s.bay (BitVec.ofNat 10 b)).live) then
      let s := s.updHost fun h => { h with job := none }
      let s := s.setDevState (if j.lease ∧ st ≠ stREADY then stHELD else stREADY)
      let s := j.cmd.elim s fun k => s.finishCmd k j.code
      s.stopDone
    else s

/-- A loss of the device's part in its groups (R257, R426): the job stops, and every open collective is aborted. -/
def State.deviceLoss (s : State) : State :=
  ((s.updJob fun j => { j with stopped := true }).stopBays).abortDevice cABORTED_GROUP fun _ => true

/-! ### The meanings -/

/-- THREAD_DRAIN_DONE (R76). -/
def execThreadDrainDone (b : BayId) (t : Thread) (s : State) : Res := .next (opDrainDone b t s).settled

/-- JOB_END (R460). -/
def execJobEnd (s : State) : Res := .next s.endJob

end Sys2Proof.Machine
end

