-- ==== Sys2Proof/Machine/Engines.lean ====
section
/-! DEFINITION. The engines of a bay take the heads of their queues (R45, R101, R156, R206): PRESS_ACCEPT, VECTOR_START and
COLLECTIVE_JOIN. -/

namespace Sys2Proof.Machine

/-- A member that stores: the root of a broadcast, every member of a reduce (R205, R216). -/
def CollBlock.stores (k : CollBlock) : Bool := k.reduce || k.rank == k.root

/-- The store part of SPLICE.MMB or SPLICE.MMR at a member (R200, R212). -/
def spliceAccSt (b : BayId) (f : XFields) (ga gb gc : Word) (k : CollBlock) (s : State) : PressEnd :=
  let fo := f.mod.toNat % 16
  let rr := rowRange gc
  let a := strided ga
  let sc := strided gb
  match runAccSt b fo (f.mod.getLsbD 4) (f.mod.getLsbD 5) ga gb gc s with
  | .done s =>
    let hi := max (a.base + (rr.m - 1) * a.stride + accRowBytes fo) (if codeIn 4 0xA fo then sc.base + (rr.m - 1) * sc.stride + 1 else 0)
    .done (s.raiseHigh b k hi)
  | x => x

/-- A press instruction performed; `none` where its unit cannot accept it yet (R206). -/
def pressRun (b : BayId) (op : PressOp) (s : State) : Option PressEnd :=
  match op with
  | .mm f ga gs gr mask => some (runMm b f ga gs gr mask s)
  | .lds f ga => some (runLds b f ga s)
  | .turn => some (.done (runTurn b s))
  | .accClr f =>
    some (.done (s.updBay b fun y => y.setAcc (f.acc == 1) (y.acc (f.acc == 1)).cleared))
  | .accSt f ga gs gr => some (runAccSt b f.fmt.toNat (f.acc == 1) (f.mod.getLsbD 6) ga gs gr s)
  | .accLd f ga gr => some (runAccLd b f ga gr s)
  | .accWin f => some (.done (s.updBay b fun y => y.setAcc (f.acc == 1) (accWinOf f (y.acc (f.acc == 1)))))
  | .splice _ f ga gb gc k =>
    (s.acceptColl b k ga gb gc (f.mod.extractLsb' 0 4)).map fun s =>
      if k.stores then spliceAccSt b f ga gb gc k s else .done (s.work b k.group k.seq)

/-- The instruction completes a strip (R395). -/
def PressOp.strips : PressOp → Bool
  | .accSt _ _ _ _ => true
  | .splice _ _ _ _ _ k => k.stores
  | _ => false

/-- PRESS_ACCEPT: the head of the press queue is accepted and executed (R101); HOLD gates the press (R19), and plumb mode holds
a strip that would run 64 ahead of the last match (R396). -/
def opPressAccept (b : BayId) (s : State) : State :=
  if s.clockOff then s
  else
    match (s.bay b).pq with
    | [] => s
    | e :: rest =>
      if e.op.strips && s.stripHeld b then s.noteHold b else
      match pressRun b e.op (s.updBay b fun y => { y with pq := rest }) with
      | none => s
      | some (.done s') => s'.settled
      | some (.error s') => s'.engineError b .press e.qseq e.pc 0
      | some (.trap s') => s'.engineStop b .press cTRAPPED TrapFlag.accSat.code e.qseq e.pc 0

/-- The highest byte that cells write, plus one. -/
def cellsEnd (cs : List (Nat × Byte)) : Nat := cs.foldl (fun m c => max m (c.1 + 1)) 0

/-- The store part of SPLICE.VB or SPLICE.VR at a member (R200, R204, R212): the state, whether it failed, and one past the
highest byte it wrote. -/
def spliceVst (b : BayId) (f : XFields) (ga gb : Word) (vl : Nat) (s : State) : State × Bool × Nat :=
  let v := vstOf f
  let rg := (s.bay b).vecRegs
  let src := rg.vr v.vd
  if rawVst f then
    let o := fieldOf ga 0 20
    let w := s.bayWrite b o (leBytes 256 src.toNat)
    (w.1, w.2, o + 256)
  else
    let p := vmemOf v ga gb
    let act := rg.act v (VCode.vst.widest v)
    let q := vstoreOf p s b vl act src
    let hi := cellsEnd (elemCells s b (fmtBits p.fm) q.1 ++ q.2.map fun e => (e.1, BitVec.ofNat 8 e.2))
    let w := vstore p b vl act src s
    (w.1, w.2, hi)

/-- Requests of the bay issued before a release have finished (R235). -/
def Bay.quiet (y : Bay) (qseq : BitVec 12) : Bool :=
  (y.pq.all fun e => !qseqOlder e.qseq qseq) && y.seamVq.isEmpty && y.usedSlots.all fun e => e.2.forColl.isSome

/-- A combine accepted: an expert member's release leaves (R235). -/
def acceptCombine (b : BayId) (k : CollBlock) (s : State) : State :=
  match (s.bay b).coll k.group k.seq with
  | none => s
  | some c =>
    if !c.joined then s
    else
      (if c.expert then (List.range (k.srcs + 1)).foldl (fun s r => s.notify (s.noticeTo .release b k r)) s else s).work b k.group k.seq

/-- A SPLICE form at the head of the main vector queue (R180, R206); `none` where it waits. -/
def vecSplice (b : BayId) (e : VecEntry) (c : XCode) (f : XFields) (ga gb gc : Word) (k : CollBlock) (s : State) : Option State :=
  let moe := k.experts
  let open_ := ((s.bay b).coll k.group k.seq).isSome
  if k.op = 6 ∧ gc.getLsbD 63 ∧ !(s.bay b).quiet e.qseq then none
  else
    (s.acceptColl b k ga gb (if moe then gc else 0) (f.mod.extractLsb' 0 4)).map fun s =>
      match c with
      | .spliceDsp => if open_ then s else s.work b k.group k.seq
      | .spliceCmb => if open_ then s else acceptCombine b k s
      | _ =>
        if k.stores then
          let w := spliceVst b f ga gb e.vl.toNat s
          if w.2.1 then w.1.engineError b (.vector .main) e.qseq e.pc 0
          else w.1.raiseHigh b k w.2.2
        else s.work b k.group k.seq

/-- The head of a vector queue is ready: a SPLICE form is when it need not wait. -/
def State.headReady (s : State) (b : BayId) (q : Thread) : Bool :=
  match q with
  | .main =>
    match (s.bay b).mainVq with
    | [] => false
    | e :: rest =>
      match e.op with
      | .instr _ _ _ _ => true
      | .splice c f ga gb gc k => (vecSplice b e c f ga gb gc k (s.updBay b fun y => { y with mainVq := rest })).isSome
  | .seam => !(s.bay b).seamVq.isEmpty

/-- The queue whose head the vector engine takes next (R45): the seam queue's when it is ready, unless the last one taken was the
seam queue's and the main queue's head is ready too. -/
def State.takesQueue (s : State) (b : BayId) (q : Thread) : Bool :=
  match q with
  | .main => !s.headReady b .seam || (s.bay b).seamLast
  | .seam => !((s.bay b).seamLast && s.headReady b .main)

/-- VECTOR_START: the head of a vector queue is executed (R45, R156), where it is that queue's turn; HOLD gates the engine. -/
def opVectorStart (b : BayId) (q : Thread) (s : State) : State :=
  if s.clockOff || !s.takesQueue b q then s
  else
    match q with
    | .main =>
      match (s.bay b).mainVq with
      | [] => s
      | e :: rest =>
        let s' := s.updBay b fun y => { y with mainVq := rest, seamLast := false }
        match e.op with
        | .instr c f x y => vecInstr b .main e c f x y s'
        | .splice c f ga gb gc k => ((vecSplice b e c f ga gb gc k s').map State.settled).getD s
    | .seam =>
      match (s.bay b).seamVq with
      | [] => s
      | e :: rest =>
        let s' := s.updBay b fun y => { y with seamVq := rest, seamLast := true }
        match e.op with
        | .instr c f x y => vecInstr b .seam e c f x y s'
        | .splice _ _ _ _ _ _ => s'

/-- The head of the press queue is a SPLICE that names the pair. -/
def Bay.pressNames (y : Bay) (g : BitVec 12) (q : BitVec 32) : Bool :=
  match y.pq with
  | [] => false
  | e :: _ =>
    match e.op with
    | .splice _ _ _ _ _ k => k.names g q
    | _ => false

/-- The head of the main vector queue is a SPLICE that names the pair. -/
def Bay.vecNames (y : Bay) (g : BitVec 12) (q : BitVec 32) : Bool :=
  match y.mainVq with
  | [] => false
  | e :: _ =>
    match e.op with
    | .splice _ _ _ _ _ k => k.names g q
    | _ => false

/-- COLLECTIVE_JOIN: the unit whose head is the first SPLICE of the pair accepts it (R206, R219). -/
def opCollectiveJoin (b : BayId) (g : BitVec 12) (q : BitVec 32) (s : State) : State :=
  let y := s.bay b
  if (y.coll g q).isSome then s
  else if y.pressNames g q then opPressAccept b s
  else if y.vecNames g q then opVectorStart b .main s
  else s

/-! ### The meanings -/

/-- PRESS_ACCEPT (R101). -/
def execPressAccept (b : BayId) (s : State) : Res := .next (opPressAccept b s)

/-- VECTOR_START (R156). -/
def execVectorStart (b : BayId) (q : Thread) (s : State) : Res := .next (opVectorStart b q s)

/-- COLLECTIVE_JOIN (R219). -/
def execCollectiveJoin (b : BayId) (g : BitVec 12) (q : BitVec 32) (s : State) : Res := .next (opCollectiveJoin b g q s)

end Sys2Proof.Machine
end

