-- ==== Sys2Proof/Machine/Hbm.lean ====
section
/-! DEFINITION. HBM and the LLS (R241 to R278): requests, write-back, scrub, temperature, retraining, channel fold, and changes of
segments and bands. -/

namespace Sys2Proof.Machine

/-- `s` with the HBM state changed. -/
def State.updHbm (s : State) (f : Hbm → Hbm) : State := { s with hbm := f s.hbm }

/-! ### Requests (R246) -/

/-- Pseudo-channels that a range of HBM touches are held by a retraining (R255). -/
def State.rangeHeld (s : State) (a n : Nat) : Bool :=
  !s.hbm.retrains.isEmpty && regionOf a == .hbm
    && (granPieces (n / 256 + 2) a n).any fun p => s.hbm.retrains.any fun r => r.pc == (s.placeOf p.1).1

/-- A target is served: bay memory only while its die has a clock (R30), HBM only outside a retraining (R255). -/
def State.served (s : State) (a n : Nat) : Bool := (regionOf a != .bay || !s.clockOff) && !s.rangeHeld a n

/-- The stacks that a range of HBM touches leave self-refresh (R509). -/
def State.wakeStacks (s : State) (a n : Nat) : State :=
  if s.hbm.selfRefresh.isEmpty || regionOf a != .hbm then s
  else
    let st := (granPieces (n / 256 + 2) a n).map fun p => (s.placeOf p.1).1 % 8
    s.updHbm fun h => { h with selfRefresh := h.selfRefresh.filter fun k => !st.contains k }

/-- Bytes that an operation covers. -/
def hbmOpSize : HbmOp → Nat
  | .read n => n
  | .write bs => bs.length
  | .amo _ _ _ => 8

/-- The packet of a slot is the request served. -/
def partIs (p : MsgPart) (addr : Nat) (op : HbmOp) : Bool :=
  decide (p.range = (addr, (hbmOpSize op))) && (match p, op with
    | .put _ _, .write _ => true
    | .get _ _, .read _ => true
    | .amo _, .amo _ _ _ => true
    | .flag _, .amo _ _ _ => true
    | _, _ => false)

/-- A request of a bay's message slot served (R60, R63, R246). -/
def State.serveSlot (s : State) (b : BayId) (i addr : Nat) (op : HbmOp) (errs : List SymErrs) : State :=
  match (s.bay b).slot i with
  | none => s
  | some x =>
    match x.nextPart with
    | none => s
    | some p =>
      if s.clockOff || x.dev != s.devCoord || x.forColl.isSome || !partIs p addr op || !s.partReady b x p then s
      else
        s.carryPart b i x p (fun s a n => s.devRead 0 a n errs) (fun s a bs => s.devWrite 0 a bs errs)
          (fun s a k v c => s.devAmo 0 a k v c errs)

/-- The operation changes memory. -/
def hbmOpWrites : HbmOp → Bool
  | .read _ => false
  | _ => true

/-- A request served (R246, R249 to R251, R267). A bay's request is the next packet of its slot; a header's request reports its code
and the first eight bytes it read, RANGE outside the map (R6), and only the Ledger's own changes the reserve (R411). -/
def State.serveHbm (s : State) (src : HbmSource) (a : Nat) (op : HbmOp) (errs : List SymErrs) : State :=
    let s := s.wakeStacks a (hbmOpSize op)
    let own := fun (k : Nat) =>
      if k ≠ 3 ∧ hbmOpWrites op ∧ s.inReserve a (hbmOpSize op) then { s with lastCode := cACCESS_DENIED }
      else
      match op with
      | .read n =>
        let r := s.devRead k a n errs
        { r.1 with lastCode := r.2.1, lastData := BitVec.ofNat 64 (leNat (r.2.2.take 8)) }
      | .write bs =>
        let r := s.devWrite k a bs errs
        { r.1 with lastCode := r.2 }
      | .amo aop x c =>
        let r := s.devAmo k a aop.toNat x c errs
        { r.1 with lastCode := r.2.1, lastData := r.2.2 }
    match src with
    | .bay b slot => s.serveSlot b slot.toNat a op errs
    | .hostDma => own 1
    | .peer => own 2
    | .ledger => own 3

/-- The pieces of a range that lie on a pseudo-channel. -/
def State.piecesOn (s : State) (pc a n : Nat) : List (Nat × Nat) :=
  if regionOf a != .hbm then [] else (granPieces (n / 256 + 2) a n).filter fun p => (s.placeOf p.1).1 == pc

/-- The first pseudo-channel in retraining that a range touches. -/
def State.heldPc (s : State) (a n : Nat) : Option Nat :=
  (s.hbm.retrains.find? fun r => !(s.piecesOn r.pc a n).isEmpty).map fun r => r.pc

/-- Granules and bursts that the main and the narrow queue of a pseudo-channel hold (R247). -/
def State.queued (s : State) (pc : Nat) : Nat × Nat :=
  (s.hbm.queue.filter fun e => e.pc == pc).foldl (fun n e =>
    let ps := s.piecesOn pc e.addr (hbmOpSize e.op)
    (n.1 + (ps.filter fun p => p.2 == 256).length,
      n.2 + ((ps.filter fun p => p.2 != 256).flatMap fun p => unitsOf p.1 p.2).length)) (0, 0)

/-- A request joins the queues of the pseudo-channel that is held, once (R247, R255); with no room there its sender stalls. -/
def State.joinQueue (s : State) (pc : Nat) (src : HbmSource) (a : Nat) (op : HbmOp) (errs : List SymErrs) : State :=
  let ps := s.piecesOn pc a (hbmOpSize op)
  let q := s.queued pc
  let again := match src with
    | .bay _ _ => s.hbm.queue.any fun e => e.src == src
    | _ => false
  if again || ((ps.any fun p => p.2 == 256) && decide (32 ≤ q.1)) || ((ps.any fun p => p.2 != 256) && decide (64 ≤ q.2)) then s
  else s.updHbm fun h => { h with queue := h.queue ++ [⟨pc, (ps.head?.map fun p => p.2) == some 256, src, a, op, errs, 0⟩] }

/-- A request is served, or waits in the queues of a pseudo-channel in retraining (R255). -/
def State.takeHbm (s : State) (src : HbmSource) (a : Nat) (op : HbmOp) (errs : List SymErrs) : State :=
  match s.heldPc a (hbmOpSize op) with
  | some pc => s.joinQueue pc src a op errs
  | none => s.serveHbm src a op errs

/-- A failure beyond the sixteenth fold is a device loss (R258). -/
def State.beyondFolds (s : State) : State :=
  if s.getF Fld.HBM_CAP_FOLDS = 16 ∧ s.hbm.waiting ≠ [] then
    ((s.updHbm fun h => { h with waiting := [] }).foldPending).deviceLoss
  else s

/-- The request comes from an engine of a header. -/
def headerSource : HbmSource → Bool
  | .bay _ _ => false
  | _ => true

/-- HBM_REQUEST (R246, R255). -/
def opHbmRequest (src : HbmSource) (addr : BitVec 48) (op : HbmOp) (errs : List SymErrs) (s : State) : State :=
  let r := regionOf addr.toNat
  if r == .hbm || r == .lls || (r == .none && headerSource src) then (s.takeHbm src addr.toNat op errs).beyondFolds else s

/-! ### The queues after a retraining (R247, R255) -/

/-- DRAM row of an address within its pseudo-channel: four granules (R245). -/
def State.rowOf (s : State) (a : Nat) : Nat × Nat := ((s.placeOf a).2.1, (s.placeOf a).2.2 / 4)

/-- The entry at index `i` waits for no older one of the same unit (R247). -/
def mayServe (q : List HbmWait) (i : Nat) (e : HbmWait) : Bool :=
  (q.take i).all fun o => !(unitsOf o.addr (hbmOpSize o.op)).any fun u => (unitsOf e.addr (hbmOpSize e.op)).contains u

/-- Index of the narrow burst to serve: the first that hits the open row, unless a burst has been passed 16 times (R247). -/
def State.nextNarrow (s : State) (q : List HbmWait) (row : Option (Nat × Nat)) : Option Nat :=
  let l := (q.mapIdx fun i e => (i, e)).filter fun p => !p.2.main && mayServe q p.1 p.2
  match l.head? with
  | none => none
  | some p =>
    if 16 ≤ p.2.passed then some p.1
    else (((l.find? fun r => some (s.rowOf r.2.addr) == row).getD p)).1

/-- Index of the next request of a pseudo-channel: its main queue in arrival order, its narrow queue, in turn where both hold work
(R247). -/
def State.nextHeld (s : State) (q : List HbmWait) (row : Option (Nat × Nat)) (mainTurn : Bool) : Option Nat :=
  let m := ((q.mapIdx fun i e => (i, e)).find? fun p => p.2.main).bind fun p => if mayServe q p.1 p.2 then some p.1 else none
  let n := s.nextNarrow q row
  if mainTurn then m.orElse fun _ => n else n.orElse fun _ => m

/-- What waits for a pseudo-channel served (R247, R255). -/
def State.serveHeld (s : State) (pc : Nat) (row : Option (Nat × Nat)) (mainTurn : Bool) : Nat → State
  | 0 => s
  | k + 1 =>
    let q := s.hbm.queue.filter fun e => e.pc == pc
    match s.nextHeld q row mainTurn with
    | none => s
    | some i =>
      match q[i]? with
      | none => s
      | some e =>
        let rest := q.mapIdx fun j o => if j < i ∧ !o.main ∧ !e.main then { o with passed := o.passed + 1 } else o
        let s := s.updHbm fun h => { h with queue := h.queue.filter (fun o => o.pc != pc) ++ rest.eraseIdx i }
        (s.takeHbm e.src e.addr e.op e.errs).serveHeld pc (some (s.rowOf e.addr)) (!e.main) k

/-- ECC_WRITEBACK: a corrected unit is written back (R250). A dirty line over it holds newer bytes, which its own write-back
carries. -/
def opEccWriteback (addr : BitVec 48) (s : State) : State :=
  let u := addr.toNat / 32
  match s.hbm.writeback.find? fun e => e.1 == u with
  | none => s
  | some e =>
    match s.hbm.line (u / 8) with
    | some l =>
      if l.dirty then s.updHbm fun h => { h with writeback := h.writeback.filter fun e => e.1 != u } else s.unitStore u e.2
    | none => s.unitStore u e.2

/-! ### Scrub (R252) -/

/-- Units of the live bands. -/
def State.liveUnits (s : State) : Nat := s.getF Fld.HBM_CAP_LIVE_BANDS * 2 ^ 27

/-- The full scrub ends. -/
def State.endScrub (s : State) : State :=
  let s := (s.updHbm fun h => { h with scrub := none }).setFs [(Fld.HBM_SCRUB_PROG_STATE, 2), (Fld.HBM_SCRUB_PROG_PCT, 10000)]
  (s.running 0x30).elim s fun c => s.finishLong c.k cDONE

/-- The full scrub after the unit at its position was read: progress, and its end (R252, R275). -/
def State.scrubStep (s : State) (u : Nat) : State :=
  if s.hbm.scrub ≠ some u then s
  else
    let n := u + 1
    let s := s.setFs [(Fld.HBM_SCRUB_PROG_PCT, 10000 * n / s.liveUnits), (Fld.HBM_SCRUB_PROG_POSITION, n / 32768)]
    let s := s.showProgress 0x30
    if n < s.liveUnits then s.updHbm fun h => { h with scrub := some n } else s.endScrub

/-- PATROL_SCRUB: the unit at an address is read by the patrol, or by the full scrub whose turn it is (R252). In HOLD scrubbing
pauses (R461). -/
def opPatrolScrub (addr : BitVec 48) (errs : SymErrs) (s : State) : State :=
  let a := addr.toNat / 32 * 32
  let full := s.hbm.scrub == some (a / 32)
  if regionOf a != .hbm || !s.bandLive (bandOf a) || s.devState == stHOLD || s.rangeHeld a 32
      || (!full && s.getF Fld.HBM_SCRUB_INTERVAL == 0) then s
  else
    let r := (s.settleUnit (a / 32)).unitRead 5 (a / 32) errs
    (if full then r.1.scrubStep (a / 32) else r.1).beyondFolds

/-! ### Temperature, refresh and self-refresh (R253, R498, R509) -/

/-- Refresh rate after a reading: it rises at the first reading above a bound and falls one step at the first at or below the
lower one. -/
def refreshRate (old t : Nat) : Nat :=
  let up := if 95 < t then 2 else if 85 < t then 1 else 0
  if old ≤ up then up
  else if old = 2 then (if t ≤ 92 then 1 else 2)
  else if t ≤ 82 then 0 else 1

/-- A stack's temperature taken into its registers. -/
def State.stackTemp (s : State) (k t : Nat) : State :=
  let old := s.getF (Fld.HBM_STACK_RATE k)
  let rate := refreshRate old t
  let s := s.setFs [(Fld.HBM_STACK_TEMP k, min t 255), (Fld.HBM_STACK_RATE k, rate)]
  let s := if smapGet (fun _ => 0) s.hbm.baseTemp k = 0 then
      s.updHbm fun h => { h with baseTemp := smapSet (fun _ => 0) h.baseTemp k (min t 255 + 1) }
    else s
  if rate = old then s else s.tickEvent

/-- HBM_TEMP_READ (R253, R498): a stack that fails three reads in a row is taken to be at 96 °C. -/
def opHbmTempRead (stack : Fin 8) (temp : Option Nat) (s : State) : State :=
  let k := stack.val
  let set := fun (s : State) (n : Nat) => { s with tpc := { s.tpc with hbmFails := smapSet (fun _ => 0) s.tpc.hbmFails k n } }
  match temp with
  | some t => (set s 0).stackTemp k t
  | none =>
    let n := smapGet (fun _ => 0) s.tpc.hbmFails k + 1
    if n = 3 then ((set s 3).incF Fld.TPC_SENSOR_FAULT_HBM).stackTemp k 96 else set s (min n 4)

/-- SELF_REFRESH_ENTRY: in HOLD an idle stack enters self-refresh (R509). -/
def opSelfRefresh (stack : Fin 8) (s : State) : State :=
  if s.devState = stHOLD ∧ !s.hbm.selfRefresh.contains stack.val then
    s.updHbm fun h => { h with selfRefresh := h.selfRefresh ++ [stack.val] }
  else s

/-! ### Retraining (R255, R256) -/

/-- A host RETRAIN of a pseudo-channel in execution (R456). -/
def State.retrainCmd (s : State) (pc : Nat) : Option HostCmd :=
  s.host.cmds.find? fun c => c.op == 0x32 && c.stage == .running && decide (fieldOf (c.p.getD 0 0) 0 8 = pc)

/-- A retraining starts unless its stack already retrains one (R255). One that never trained is tried again only by command. -/
def State.startRetrain (s : State) (pc : Nat) (cause : RetrainCause) : State :=
  if s.hbm.retrains.any (fun r => r.pc % 8 == pc % 8) || (s.trainOf pc == .dead && cause != .host) then s
  else
    ((s.updHbm fun h => { h with
      retrains := h.retrains ++ [⟨pc, cause, 0, .full⟩]
      fixed := h.fixed.filter fun e => e.1 != pc }).incF (Fld.HBM_STACK_RETRAIN_CNT (pc % 8))).tickEvent

/-- Corrected errors of a pseudo-channel within the last second. -/
def State.fixedOf (s : State) (pc : Nat) : Nat :=
  (s.hbm.fixed.filter fun e => e.1 == pc && decide (s.now < e.2 + 1000000000)).length

/-- One more than the temperature at which a pseudo-channel was last trained; zero where none is known. -/
def State.trainedAt (s : State) (pc : Nat) : Nat :=
  let t := smapGet (fun _ => 0) s.hbm.trainTemp pc
  if t = 0 then smapGet (fun _ => 0) s.hbm.baseTemp (pc % 8) else t

/-- What calls for a retraining holds (R255): 64 corrected errors within 1 s, a move of 15 °C, or a host command in execution. -/
def State.mustRetrain (s : State) (pc : Nat) (cause : RetrainCause) : Bool :=
  match cause with
  | .errorRate => decide (64 ≤ s.fixedOf pc)
  | .temperature =>
    let t := s.getF (Fld.HBM_STACK_TEMP (pc % 8)) + 1
    let b := s.trainedAt pc
    decide (0 < b) && (decide (b + 15 ≤ t) || decide (t + 15 ≤ b))
  | .marginPlan => true
  | .host => (s.retrainCmd pc).isSome

/-- RETRAIN_START (R255). -/
def opRetrainStart (pc : BitVec 8) (cause : RetrainCause) (s : State) : State :=
  if s.mustRetrain pc.toNat cause then s.startRetrain pc.toNat cause else s

/-- Data rate of a training in Gb/s (R256). -/
def PcTrain.rate : PcTrain → Nat
  | .full => 12
  | .half => 6
  | .quarter => 3
  | .dead => 0

/-- A retraining over, with the rate reached (R256): below the full rate the pseudo-channel is failed. -/
def State.endRetrain (s : State) (pc : Nat) (t : PcTrain) : State :=
  let s := s.updHbm fun h => { h with
    retrains := h.retrains.filter fun r => r.pc != pc
    train := smapSet (fun _ => PcTrain.full) h.train pc t
    trainTemp := smapSet (fun _ => 0) h.trainTemp pc (s.getF (Fld.HBM_STACK_TEMP (pc % 8)) + 1) }
  let s := if t = .full then s else s.failPc pc
  let s := (s.retrainCmd pc).elim s fun c => s.finishCmd c.k cDONE 0 (BitVec.ofNat 64 t.rate)
  (s.serveHeld pc none true s.hbm.queue.length).beyondFolds

/-- RETRAIN_DONE: an attempt ends; three fail at full rate before half and then a quarter of it are tried (R256). -/
def opRetrainDone (pc : BitVec 8) (res : TrainResult) (s : State) : State :=
  match s.hbm.retrains.find? fun r => r.pc == pc.toNat with
  | none => s
  | some r =>
    match res with
    | .ok => s.endRetrain pc.toNat r.rate
    | .failed =>
      let again := fun (t : PcTrain) =>
        (s.updHbm fun h => { h with retrains := h.retrains.map fun q =>
          if q.pc = r.pc then { q with tries := q.tries + 1, rate := t } else q }).incF (Fld.HBM_STACK_RETRAIN_CNT (r.pc % 8))
      match r.rate with
      | .full => if r.tries < 2 then again .full else again .half
      | .half => again .quarter
      | _ => s.endRetrain pc.toNat .dead

/-! ### Channel fold (R257 to R263) -/

/-- An element put in its place in a list sorted by `le`. -/
def putSorted {α : Type} (le : α → α → Bool) (x : α) : List α → List α
  | [] => [x]
  | y :: ys => if le x y then x :: y :: ys else y :: putSorted le x ys

/-- A list sorted by `le`. -/
def sortedBy {α : Type} (le : α → α → Bool) (l : List α) : List α := l.foldr (putSorted le) []

/-- A pseudo-channel in service: not failed, or failed and awaiting its fold. -/
def State.pcLive (s : State) (pc : Nat) : Bool :=
  !(s.getF (Fld.HBM_PC_FAILED_FAILED (pc / 64))).testBit (pc % 64) || s.hbm.waiting.contains pc

/-- The slices of live bands that a failed pseudo-channel holds, by band and virtual pseudo-channel (R261); `top` is the band that
is given up. -/
def Hbm.moved (h : Hbm) (f top : Nat) : List SliceEntry :=
  let own := (List.range top).filterMap fun b => if (h.sliceHome b f).1 = f then some (⟨b, f, f, (h.sliceHome b f).2⟩ : SliceEntry) else none
  let guests := h.slices.filter fun e => e.pc == f && e.vpc != f && decide (e.band < top)
  sortedBy (fun x y => decide (x.band * 256 + x.vpc ≤ y.band * 256 + y.vpc)) (own ++ guests)

/-- The homes of the slices of band `top` in live pseudo-channels, by pseudo-channel and slice position (R261). -/
def State.freed (s : State) (top : Nat) : List (Nat × Nat) :=
  let homes := ((List.range 256).map fun v => s.hbm.sliceHome top v).filter fun p => s.pcLive p.1
  sortedBy (fun x y => decide (x.1 * 256 + x.2 ≤ y.1 * 256 + y.2)) homes

/-- First pass of the assignment: each moved slice of a sill-local band takes the first free home on its quarter's sill (R261). -/
def assignLocal (local_ : Nat → Bool) : List SliceEntry → List (Nat × Nat) → List (SliceEntry × Option (Nat × Nat)) × List (Nat × Nat)
  | [], free => ([], free)
  | e :: es, free =>
    let pick := if local_ e.band then free.find? fun p => sillOfPc p.1 == sillOfPc e.vpc else none
    let r := assignLocal local_ es (match pick with
      | some p => free.erase p
      | none => free)
    ((e, pick) :: r.1, r.2)

/-- Second pass: every remaining slice takes the first remaining free home (R261). -/
def assignRest : List (SliceEntry × Option (Nat × Nat)) → List (Nat × Nat) → List SliceEntry
  | [], _ => []
  | (e, some p) :: es, free => { e with pc := p.1, pos := p.2 } :: assignRest es free
  | (e, none) :: es, [] => e :: assignRest es []
  | (e, none) :: es, p :: free => { e with pc := p.1, pos := p.2 } :: assignRest es free

/-- The list of moves of a fold, in list order. -/
def State.foldMoves (s : State) (f top : Nat) : List SliceEntry :=
  let r := assignLocal s.sillLocal (s.hbm.moved f top) (s.freed top)
  assignRest r.1 r.2

/-- An address range touches a band. -/
def touchesBand (a n band : Nat) : Bool := decide (0 < n) && decide (a < (band + 1) * 2 ^ 32) && decide (band * 2 ^ 32 < a + n)

/-- The contents of a band discarded (R259). -/
def State.dropBand (s : State) (band : Nat) : State :=
  { s with
    mem := s.mem.filter fun c => regionOf c.1 != .hbm || bandOf c.1 != band
    ecc1 := s.ecc1.filter fun w => regionOf (w * 8) != .hbm || bandOf (w * 8) != band
    ecc2 := s.ecc2.filter fun w => regionOf (w * 8) != .hbm || bandOf (w * 8) != band
    hbmBad := s.hbmBad.filter fun u => bandOf (u * 32) != band
    hbm := { s.hbm with
      lines := s.hbm.lines.filter fun l => bandOf (l.gran * 256) != band
      writeback := s.hbm.writeback.filter fun e => bandOf (e.1 * 32) != band
      open_ := s.hbm.open_.filter fun e => e.1 != band
      settled := s.hbm.settled.filter fun u => bandOf (u * 32) != band
      slices := s.hbm.slices.filter fun e => e.band != band } }

/-- What lay of the reserve in a band that is given up (R260): the baste of the local slot is discarded and a hem of it ends, the peer
slot no longer holds a manifest. -/
def State.dropReserve (s : State) (band : Nat) : State :=
  let r := s.reserve
  let s := if touchesBand r.1 (r.2.1 - r.1) band then
      let s := { (s.setFs [(Fld.LDG_BASTE_STATUS_STATE, 0), (Fld.LDG_BASTE_STATUS_CODE, cRANGE.toNat)]) with
        ldg := { s.ldg with baste := { s.ldg.baste with
          head := [], regions := [], leaves := [], total := 0, done := [], trickle := [], trickled := 0, cut := none } } }
      let s := s.withdrawLedger .baste
      (s.running 0x20).elim s fun c => if s.getF Fld.LDG_BASTE_PROG_STATE = 1 then s.finishCmd c.k cRANGE else s
    else s
  let s := if touchesBand r.1 (r.2.1 - r.1) band then s.ldg.hem.elim s fun h => s.hemEnd h cRANGE else s
  if touchesBand r.2.1 (r.2.2 - r.2.1) band then s.setF Fld.LDG_BASTE_STATS_PEER_VALID 0 else s

/-- The fold of a failed pseudo-channel starts (R258 to R261): band T leaves the map. A seventeenth failure is a device loss. A full
scrub that has read every other live unit ends (R252). -/
def State.startFold (s : State) (pc : Nat) : State :=
  let s := s.updHbm fun h => { h with waiting := h.waiting.filter fun p => p != pc }
  if s.getF Fld.HBM_CAP_FOLDS = 16 then s.foldPending.deviceLoss
  else
    let top := s.getF Fld.HBM_CAP_LIVE_BANDS - 1
    let moves := s.foldMoves pc top
    let s := ((s.setFs [(Fld.HBM_CAP_LIVE_BANDS, top), (Fld.HBM_CAP_FOLDS, s.getF Fld.HBM_CAP_FOLDS + 1),
      (Fld.HBM_CAP_LIVE_PC, s.getF Fld.HBM_CAP_LIVE_PC - 1), (Fld.HBM_FOLD_PROG_PCT, 0), (Fld.HBM_FOLD_PROG_STATE, 1),
      (Fld.HBM_FOLD_PROG_PC, pc), (Fld.HBM_FOLD_PROG_POSITION, 0), (Fld.HBM_FOLD_LOST_UNITS, 0)]).dropReserve top).dropBand top
    let s := (s.updHbm fun h => { h with fold := some ⟨pc, moves, 0⟩ }).foldPending
    if s.hbm.scrub.any fun u => decide (s.liveUnits ≤ u) then s.endScrub else s

/-- FOLD_START: the oldest failed pseudo-channel is folded, without command only where AUTO is set (R257); a failure beyond the
sixteenth fold needs no AUTO (R258). -/
def opFoldStart (pc : BitVec 8) (s : State) : State :=
  if s.hbm.fold = none ∧ s.hbm.waiting.head? = some pc.toNat ∧ (s.getF Fld.HBM_FOLD_CTRL_AUTO = 1 ∨ s.getF Fld.HBM_CAP_FOLDS = 16) then
    s.startFold pc.toNat
  else s

/-- Device address of unit `u` of piece `k` of a slice: a piece is 256 granules of 8 units. -/
def State.pieceUnit (s : State) (e : SliceEntry) (k u : Nat) : Nat :=
  e.band * 2 ^ 27 + deinterleave (s.sillLocal e.band) e.vpc (k * 256 + u / 8) / 32 + u % 8

/-- A granule lies in piece `k` of a slice. -/
def State.inPiece (s : State) (e : SliceEntry) (k g : Nat) : Bool :=
  let a := g * 256
  let v := interleave (s.sillLocal e.band) a
  regionOf a == .hbm && bandOf a == e.band && v.1 == e.vpc && v.2 / 256 == k

/-- Units of the piece that read uncorrectable (R263): those the copy found, those known to be bad, and all where the pseudo-channel
never trained. -/
def State.lostUnits (s : State) (j : FoldJob) (e : SliceEntry) (k : Nat) (lost : List (Fin 2048)) : List Nat :=
  ((List.range 2048).filter fun u => s.trainOf j.pc == .dead || lost.any (fun x => x.val == u)
    || s.hbmBad.contains (s.pieceUnit e k u)).map (s.pieceUnit e k)

/-- Lost units written as zeros with valid check bytes, counted, and the first recorded (R263). -/
def State.loseUnits (s : State) (pc : Nat) (us : List Nat) : State :=
  match us with
  | [] => s
  | u :: _ =>
    let s := us.foldl (fun s u => s.settleUnit u) s
    let s := { s with mem := s.mem.filter fun c => !us.contains (c.1 / 32), hbmBad := s.hbmBad.filter fun u => !us.contains u }
    let first := s.getF Fld.HBM_FOLD_LOST_UNITS == 0
    let s := (s.incF Fld.HBM_FOLD_LOST_UNITS us.length).incF Fld.HBM_ECC_UNCORR_CNT us.length
    let s := if first ∧ s.getF Fld.HBM_UE_LOG_VALID = 0 then
        s.setFs [(Fld.HBM_UE_LOG_VALID, 1), (Fld.HBM_UE_LOG_SRC, 6), (Fld.HBM_UE_LOG_PC, pc), (Fld.HBM_UE_LOG_ADDR, u * 32)]
      else s
    s.bitsEvent cMEM_UNCORRECTABLE

/-- The fold in progress over, every one of its moves in the slice table. -/
def Hbm.foldOver (h : Hbm) : Hbm :=
  match h.fold with
  | none => h
  | some j => { h with
      fold := none
      slices := (h.slices.filter fun e => !j.moves.any fun m => m.band == e.band && m.vpc == e.vpc) ++ j.moves }

/-- The fold completes with its last piece (R262). -/
def State.endFold (s : State) : State :=
  let s := s.updHbm Hbm.foldOver
  let s := (s.setF Fld.HBM_FOLD_PROG_STATE 2).foldPending
  let s := if s.getF Fld.HBM_FOLD_LOST_UNITS = 0 then s.tickEvent else s
  (s.running 0x31).elim s fun c => s.finishLong c.k cDONE

/-- FOLD_PIECE_COPY (R262, R263): the next 64 KiB piece moves to its new home; in HOLD, and while either home retrains, it waits.
Cached lines of the piece leave the cache first, since their home changes. -/
def opFoldPiece (lost : List (Fin 2048)) (s : State) : State :=
  match s.hbm.fold with
  | none => s
  | some j =>
    match j.moves[j.copied / 256]? with
    | none => s
    | some e =>
      if s.devState == stHOLD || (s.hbm.retrains.any fun r => r.pc == j.pc || r.pc == e.pc) then s
      else
        let k := j.copied % 256
        let s := (s.hbm.lines.filter fun l => s.inPiece e k l.gran).foldl (fun s l => s.evict l) s
        let us := s.lostUnits j e k lost
        let s := s.updHbm fun h => { h with writeback := h.writeback.filter fun w => !s.inPiece e k (w.1 / 8) }
        let s := s.loseUnits j.pc us
        let n := j.copied + 1
        let j := { j with copied := n }
        let s := (s.updHbm fun h => { h with fold := some j }).setFs
          [(Fld.HBM_FOLD_PROG_PCT, 10000 * n / (256 * j.moves.length)), (Fld.HBM_FOLD_PROG_POSITION, n)]
        let s := s.showProgress 0x31
        if n = 256 * j.moves.length then s.endFold else s

/-! ### Changes of segments and bands (R268) -/

/-- The dirty lines of a sill written back. -/
def State.writeBackSill (s : State) (sill : Nat) : State :=
  (s.hbm.lines.filter fun l => l.sill == sill && l.dirty).foldl (fun s l => s.writeBackLine l.gran) s

/-- A line placed again under the sill's present segments; of 17 lines of a set one is dropped, which the spec leaves open. -/
def State.placeLine (s : State) (l : LlsLine) : State :=
  let h := s.lineHome (l.gran * 256)
  let l := { l with slot := h.2.1, set := h.2.2 }
  let inSet := s.hbm.lines.filter fun x => x.sill == l.sill && x.slot == l.slot && x.set == l.set
  let s := s.updHbm fun h => { h with lines := l :: h.lines }
  if inSet.length < 16 then s
  else
    let d := s.draw
    match (l :: inSet)[d.2 % (inSet.length + 1)]? with
    | some x => d.1.dropLine x.gran
    | none => d.1

/-- Every line of a sill placed again; with no cache segment left the sill's cache is empty. -/
def State.replaceSill (s : State) (sill : Nat) : State :=
  let mine := s.hbm.lines.filter fun l => l.sill == sill
  if s.cacheSegs sill = 0 then mine.foldl (fun s l => s.dropLine l.gran) s
  else
    let s := s.updHbm fun h => { h with lines := h.lines.filter fun l => l.sill != sill }
    mine.foldr (fun l s => s.placeLine l) s

/-- The window of a segment cleared, with its check marks. -/
def State.clearSeg (s : State) (j : Nat) : State :=
  let a := llsBase + j * 0x800000
  let out := fun (x : Nat) => decide (x < a) || decide (a + 0x800000 ≤ x)
  { s with
    mem := s.mem.filter fun c => out c.1
    ecc1 := s.ecc1.filter fun w => out (w * 8)
    ecc2 := s.ecc2.filter fun w => out (w * 8) }

/-- A segment changes between cache and scratchpad (R268). -/
def State.changeSeg (s : State) (j mode : Nat) : State :=
  let sill := j / 16
  let place := ((List.range (j % 16)).filter fun k => s.getF (Fld.LLS_SEG_MODE (sill * 16 + k)) == 0).length
  let s := s.writeBackSill sill
  let s := if mode = 1 then (s.hbm.lines.filter fun l => l.sill == sill && l.slot == place).foldl (fun s l => s.dropLine l.gran) s else s
  let s := s.setFs [(Fld.LLS_SEG_MODE j, mode), (Fld.LLS_SEG_BUSY j, 1)]
  (s.replaceSill sill).clearSeg j

/-- A write of `LLS_SEG` (R268): only in READY and while no change of it is taking effect. -/
def writeSeg (j : Nat) (v : Word) (s : State) : State × Code :=
  s.guarded .LLS_SEG j 0 v (s.devState == stREADY && s.getF (Fld.LLS_SEG_BUSY j) == 0) cSTATE_REJECT fun s =>
    let m := (Fld.LLS_SEG_MODE j).of v
    (if m = s.getF (Fld.LLS_SEG_MODE j) then s else s.changeSeg j m, cDONE)

/-- A band's lines dropped. -/
def State.dropLines (s : State) (band : Nat) : State :=
  (s.hbm.lines.filter fun l => bandOf (l.gran * 256) == band).foldl (fun s l => s.dropLine l.gran) s

/-- Unit of a band that holds, after a change of mode, the cells that unit `u` held. -/
def remapUnit (old new : Bool) (u : Nat) : Nat :=
  let v := interleave old (u * 32)
  u / 2 ^ 27 * 2 ^ 27 + deinterleave new v.1 v.2 / 32 + u % 8

/-- A band changes its interleave mode (R268): its lines are dropped and its contents are open. -/
def State.changeMode (s : State) (band mode : Nat) : State :=
  let old := s.sillLocal band
  let s := (s.dropLines band).setF (Fld.HBM_BAND_MODE band) mode
  let d := s.draw
  { d.1 with
    hbmBad := d.1.hbmBad.map fun u => if u / 2 ^ 27 = band then remapUnit old (mode == 1) u else u
    hbm := { d.1.hbm with
      writeback := d.1.hbm.writeback.filter fun e => bandOf (e.1 * 32) != band
      open_ := (band, d.2) :: d.1.hbm.open_.filter fun e => e.1 != band
      settled := d.1.hbm.settled.filter fun u => bandOf (u * 32) != band } }

/-- A band's CACHE bit changes (R268): cleared, its dirty lines are written back and its lines dropped. -/
def State.changeCache (s : State) (band c : Nat) : State :=
  let s := if c = 1 then s
    else ((s.hbm.lines.filter fun l => bandOf (l.gran * 256) == band).foldl (fun s l => s.evict l) s)
  s.setF (Fld.HBM_BAND_CACHE band) c

/-- A write of `HBM_BAND` (R268). -/
def writeBand (band : Nat) (v : Word) (s : State) : State × Code :=
  s.guarded .HBM_BAND band 0 v (s.devState == stREADY && s.getF (Fld.HBM_BAND_BUSY band) == 0) cSTATE_REJECT fun s =>
    let m := (Fld.HBM_BAND_MODE band).of v
    let c := (Fld.HBM_BAND_CACHE band).of v
    let dm := decide (m ≠ s.getF (Fld.HBM_BAND_MODE band))
    let dc := decide (c ≠ s.getF (Fld.HBM_BAND_CACHE band))
    let s := if dm then s.changeMode band m else s
    let s := if dc then s.changeCache band c else s
    (if dm || dc then s.setF (Fld.HBM_BAND_BUSY band) 1 else s, cDONE)

/-- LLS_CHANGE_DONE: the change has taken effect (R268). -/
def opLlsChangeDone (t : LlsTarget) (s : State) : State :=
  match t with
  | .seg j => s.setF (Fld.LLS_SEG_BUSY j.val) 0
  | .band b => s.setF (Fld.HBM_BAND_BUSY b.val) 0

/-! ### The wrapper port (R38, R39) -/

/-- HBM1500_INSTRUCTION: only the MSC reaches the port, and an instruction beyond R38 needs the stack's permit. -/
def opHbm1500 (p : RegPath) (stack : Fin 8) (w : WrapperInstr) (s : State) : State :=
  let permit := (s.getF Fld.MSC_HBM1500_PERMIT_STACK).testBit stack.val
  s.answer (if p = .msc ∧ (w ≠ .other ∨ permit) then cDONE else cACCESS_DENIED)

/-! ### The meanings -/

/-- HBM_REQUEST (R246). -/
def execHbmRequest (src : HbmSource) (addr : BitVec 48) (op : HbmOp) (errs : List SymErrs) (s : State) : Res :=
  .next (opHbmRequest src addr op errs s)

/-- ECC_WRITEBACK (R250). -/
def execEccWriteback (addr : BitVec 48) (s : State) : Res := .next (opEccWriteback addr s)

/-- PATROL_SCRUB (R252). -/
def execPatrolScrub (addr : BitVec 48) (errs : SymErrs) (s : State) : Res := .next (opPatrolScrub addr errs s)

/-- RETRAIN_START (R255). -/
def execRetrainStart (pc : BitVec 8) (cause : RetrainCause) (s : State) : Res := .next (opRetrainStart pc cause s)


/-- FOLD_START (R259). -/
def execFoldStart (pc : BitVec 8) (s : State) : Res := .next (opFoldStart pc s).settled

/-- FOLD_PIECE_COPY (R262). -/
def execFoldPieceCopy (lost : List (Fin 2048)) (s : State) : Res := .next (opFoldPiece lost s)

/-- LLS_CHANGE_DONE (R268). -/
def execLlsChangeDone (t : LlsTarget) (s : State) : Res := .next (opLlsChangeDone t s)

/-- HBM_TEMP_READ (R253). -/
def execHbmTempRead (stack : Fin 8) (temp : Option Nat) (s : State) : Res := .next (opHbmTempRead stack temp s)

/-- SELF_REFRESH_ENTRY (R509). -/
def execSelfRefreshEntry (stack : Fin 8) (s : State) : Res := .next (opSelfRefresh stack s)

/-- BANK_REFRESH changes timing only: a request to the bank waits at most 200 ns (R253). -/
def execBankRefresh (_pc : BitVec 8) (_bank : Nat) (s : State) : Res := .next s

/-- HBM1500_INSTRUCTION (R38). -/
def execHbm1500Instruction (p : RegPath) (stack : Fin 8) (w : WrapperInstr) (s : State) : Res := .next (opHbm1500 p stack w s)

end Sys2Proof.Machine
end

