-- ==== Sys2Proof/Machine/Ledger.lean ====
section
/-! DEFINITION. The Ledger: steps and their history (R384, R385), digests (R388, R389), provenance records (R390 to R393) and plumb
mode (R394 to R400). -/

namespace Sys2Proof.Machine

/-! ### Steps (R384, R385) -/

/-- Key and counter of each stream as the registers hold them (R387). -/
def State.rngImage (s : State) : List (Word × Word) :=
  (List.range 64).map fun i => (s.reg (RegId.LDG_RNG_KEY.addr i), s.reg (RegId.LDG_RNG_CTR.addr i))

/-- The record of the open step, as it closes now. -/
def State.closedStep (s : State) : StepRec :=
  { number := s.getF Fld.LDG_STEP_NUMBER, valid := s.getF Fld.LDG_STEP_STATUS_VALID == 1
    cause := BitVec.ofNat 8 (s.getF Fld.LDG_STEP_STATUS_CAUSE), clean := s.getF Fld.LDG_STEP_STATUS_TICK_CLEAN == 1
    opened := s.ldg.opened, closed := s.now, rng := s.ldg.openRng
    matched := false
    strips := if s.plumbing && s.getF Fld.LDG_PLUMB_CODE == 0 && decide (s.getF Fld.LDG_PLUMB_START_MARK ≤ s.ldg.opened) then
      some (s.ldg.plumb.bays.map fun e => (e.1, e.2.count)) else none }

/-- The open step closes into the history and the next one opens (R384, R385). -/
def State.stepBoundary (s : State) : State :=
  let r := s.closedStep
  let s := s.updLdg fun l => { l with history := (r :: l.history).take 256, opened := s.now, openRng := s.rngImage }
  s.setFs [(Fld.LDG_STEP_NUMBER, r.number + 1), (Fld.LDG_STEP_STATUS_VALID, 1), (Fld.LDG_STEP_STATUS_TICK_CLEAN, 1),
    (Fld.LDG_STEP_STATUS_CAUSE, 0), (Fld.LDG_STEP_STATUS_TICK_EVENTS, 0)]

/-! ### Digests (R388, R389) -/

/-- Region `i` is enabled for a class. -/
def State.regionOn (s : State) (cls i : Nat) : Bool :=
  s.getF (Fld.LDG_REGION_A_EN i) == 1 && s.getF (Fld.LDG_REGION_A_CLASS i) == cls && decide (cls < 4)
    && decide (0 < s.getF (Fld.LDG_REGION_B_LENGTH i))

/-- Base and length of region `i`. -/
def State.regionAt (s : State) (i : Nat) : Nat × Nat := (s.getF (Fld.LDG_REGION_A_BASE i), s.getF (Fld.LDG_REGION_B_LENGTH i))

/-- Enabled regions of a class, in ascending table index. -/
def State.regionsOf (s : State) (cls : Nat) : List Nat := (List.range 64).filter (s.regionOn cls)

/-- Size of a leaf. -/
def leafSize : Nat := 0x4000000

/-- Leaves of a region from its base. -/
def leavesOf (region base len : Nat) : List Leaf := (cutParts leafSize len).map fun p => ⟨region, base + p.1, p.2⟩

/-- A region lies wholly within one range of R4 other than register space (R389). -/
def State.inMemory (s : State) (a n : Nat) : Bool := s.mapped a n && regionOf a != .regs

/-- Digest of a region from the digests of its leaves (R388). -/
def regionDigest (base len : Nat) (leaves : List (List Byte)) : List Byte := sha3 (leBytes 8 base ++ leBytes 8 len ++ leaves.flatten)

/-- Digest of bytes as a region: cut into leaves (R388). -/
def bytesDigest (base : Nat) (bs : List Byte) : List Byte :=
  regionDigest base bs.length ((cutParts leafSize bs.length).map fun p => sha3 ((bs.drop p.1).take p.2))

/-- The digest that a WRITE took of region `i` as it arrived, while the region's base and length stay (R389). -/
def State.writtenDigest (s : State) (i : Nat) : Option (List Byte) :=
  let d := smapGet (fun _ => []) s.ldg.asWritten i
  let key := leBytes 8 (s.regionAt i).1 ++ leBytes 8 (s.regionAt i).2
  if d.take 16 = key then some (d.drop 16) else none

/-- The digest of region `i` known as it was written. -/
def State.noteWritten (s : State) (i : Nat) (bs : List Byte) : State :=
  let r := s.regionAt i
  s.updLdg fun l => { l with asWritten := smapPut l.asWritten i (leBytes 8 r.1 ++ leBytes 8 r.2 ++ bytesDigest r.1 bs) }

/-- PROG of a class digest. -/
def State.digestProg (s : State) (st done total : Nat) (code : Code) : State :=
  (s.setFs [(Fld.LDG_DIGEST_PROG_PCT, if total = 0 then (if st = 2 then 10000 else 0) else 10000 * done / total),
    (Fld.LDG_DIGEST_PROG_STATE, st), (Fld.LDG_DIGEST_PROG_CODE, code.toNat), (Fld.LDG_DIGEST_PROG_POSITION, done)])

/-- A class digest ends in failure: the previous digest stays (R389). -/
def State.digestFail (s : State) (code : Code) : State :=
  let n := s.getF Fld.LDG_DIGEST_PROG_POSITION
  let total := s.ldg.digest.elim 0 fun d => d.total
  let s := (s.updLdg fun l => { l with digest := none }).digestProg 2 n total code
  (s.running 0x23).elim s fun c => s.finishLong c.k code

/-- Digest of region `i` in a class digest: taken as it was written, or from its leaves. -/
def DigestJob.region (d : DigestJob) (s : State) (i : Nat) : List Byte :=
  if d.done.any fun e => e.1 == i then
    regionDigest (s.regionAt i).1 (s.regionAt i).2 ((d.done.filter fun e => e.1 == i).map Prod.snd)
  else (s.writtenDigest i).getD []

/-- The class digest complete (R388): its digest, and the count at which it completed. -/
def State.digestEnd (s : State) (d : DigestJob) : State :=
  let rs := s.regionsOf d.cls
  let dig := sha3 (leBytes 1 d.cls ++ leBytes 1 rs.length ++ rs.flatMap (d.region s))
  let s := s.updLdg fun l => { l with
    digest := none
    classDig := smapPut l.classDig d.cls dig
    doneAt := smapPut l.doneAt d.cls s.now
    asWritten := l.asWritten.filter fun e => !rs.contains e.1 }
  let s := s.digestProg 2 d.total d.total cDONE
  (s.running 0x23).elim s fun c => s.finishLong c.k cDONE

/-- A class digest starts (R389): the code of a refusal, or DONE. -/
def State.digestStart (s : State) (cls : Nat) : State × Code :=
  if s.ldg.digest.isSome then (s, cSTATE_REJECT)
  else if 4 ≤ cls then (s, cRANGE)
  else
    let rs := s.regionsOf cls
    let leaves := (rs.filter fun i => (s.writtenDigest i).isNone).flatMap fun i => leavesOf i (s.regionAt i).1 (s.regionAt i).2
    let d : DigestJob := ⟨cls, leaves, leaves.length, []⟩
    let s := (s.updLdg fun l => { l with digest := some d }).digestProg 1 0 leaves.length cDONE
    if !rs.all fun i => s.inMemory (s.regionAt i).1 (s.regionAt i).2 then (s.digestFail cRANGE, cDONE)
    else if leaves.isEmpty then (s.digestEnd d, cDONE)
    else (s, cDONE)

/-- The next leaf of the class digest finishes (R388, R389). -/
def State.digestLeaf (s : State) (d : DigestJob) : State :=
  match d.leaves with
  | [] => s
  | x :: rest =>
    let r := s.ownRead 3 x.addr x.len
    if r.2.1 ≠ cDONE then r.1.digestFail r.2.1
    else
      let d := { d with leaves := rest, done := d.done ++ [(x.region, sha3 r.2.2)] }
      let s := (r.1.updLdg fun l => { l with digest := some d }).digestProg 1 d.done.length d.total cDONE
      let s := s.showProgress 0x23
      if rest.isEmpty then s.digestEnd d else s

/-! ### Provenance records (R390 to R393) -/

/-- The steps `first` to `last` of the history, newest first; `none` where the range does not lie wholly in it (R392). -/
def Ledger.steps (l : Ledger) (first last : Nat) : Option (List StepRec) :=
  let from_ := l.history.dropWhile fun r => r.number != last
  let n := last + 1 - first
  let rs := from_.take n
  if 0 < n ∧ rs.length = n ∧ rs.map (fun r => r.number) = (List.range n).map fun i => last - i then some rs else none

/-- Bytes of the RNG image, key first. -/
def rngBytes (l : List (Word × Word)) : List Byte := l.flatMap fun p => leBytes 8 p.1.toNat ++ leBytes 8 p.2.toNat

/-- What CONFIG_BIT digests (R391). -/
def State.configBit (s : State) : List Byte :=
  ((List.range 4096).filter fun g => s.grpReady (BitVec.ofNat 12 g)).flatMap (fun g =>
      leBytes 8 ((s.setFs [(Fld.ABR_GRP_W0_STATE g, 0), (Fld.ABR_GRP_W0_CHECK_CODE g, 0)]).reg (RegId.ABR_GRP_W0.addr g)).toNat
        ++ leBytes 8 ((s.setF (Fld.ABR_GRP_W1_OPEN g) 0).reg (RegId.ABR_GRP_W1.addr g)).toNat
        ++ (s.members (BitVec.ofNat 12 g)).flatMap (leBytes 4))
    ++ leBytes 4 (s.getF Fld.ABR_EPOCH_CURRENT)
    ++ ((List.range 32768).filter s.expValid).flatMap fun e =>
      leBytes 8 (s.reg (RegId.ABR_EXP_W0.addr e)).toNat ++ leBytes 8 (s.reg (RegId.ABR_EXP_W1.addr e)).toNat
        ++ leBytes 8 (s.reg (RegId.ABR_EXP_W2.addr e)).toNat ++ leBytes 8 (s.reg (RegId.ABR_EXP_W3.addr e)).toNat

/-- The 88 entries of the level tables (R317): 8 for rack, 16 for row, 64 for hall. -/
def levelEntries : List (Nat × Nat) :=
  (List.range 8).map (fun v => (1, v)) ++ (List.range 16).map (fun v => (2, v)) ++ (List.range 64).map fun v => (3, v)

/-- What CONFIG_TICK digests (R391), over a range that opened at `t0` and closed at `t1`. -/
def State.configTick (s : State) (t0 t1 : Nat) : List Byte :=
  ((List.range 4).flatMap fun d => leBytes 2 (pointMhz (s.getF Fld.TPC_DVFS_POINT / 16 ^ d % 16)))
    ++ leBytes 1 (s.getF Fld.ABR_CTRL_PROF)
    ++ (levelEntries.flatMap fun p => leBytes 8 (s.reg (RegId.ABR_LEVEL.addr p.1 p.2)).toNat)
    ++ leBytes 8 (s.reg RegId.ABR_E2E_CTRL.addr).toNat
    ++ ((s.ldg.launches.filter fun p => decide (t0 ≤ p.2) && decide (p.2 ≤ t1)).reverse).flatMap fun p =>
      leBytes 8 (BitVec.ofInt 64 ((p.1 : Int) - t0)).toNat

/-- A class digest of 64 bytes; zeros where never taken. -/
def State.classDigest (s : State) (c : Nat) : List Byte := smapGet (fun _ => List.replicate 64 0) s.ldg.classDig c

/-- IDENTITY: the digest of the device's identity public key (R390, R420, R484). -/
def identity : List Byte := sha3 Config.identityKey

/-- The 640 bytes of a provenance record over steps given newest first (R390). -/
def State.recordImage (s : State) (first last : Nat) (rs : List StepRec) : List Byte :=
  let old := rs.reverse
  let t0 := (old.head?.map fun r => r.opened).getD 0
  let t1 := (rs.head?.map fun r => r.closed).getD 0
  let flag := fun (p : StepRec → Bool) (v : Nat) => if rs.all p then v else 0
  [0x44, 0x5A, 0x50, 0x52] ++ leBytes 2 1
    ++ leBytes 1 (flag (fun r => r.valid) 1 + flag (fun r => r.clean) 2 + flag s.stepMatched 4)
    ++ leBytes 1 (((old.find? fun r => !r.valid).map fun r => r.cause.toNat).getD 0)
    ++ leBytes 8 first ++ leBytes 8 last ++ leBytes 8 t0 ++ leBytes 8 t1 ++ leBytes 2 s.devCoord.toNat ++ List.replicate 6 0
    ++ leBytes 8 (s.reg RegId.SCR_CAL.addr).toNat ++ leBytes 8 s.store.records ++ identity
    ++ ((List.range 4).flatMap s.classDigest) ++ sha3 s.configBit ++ sha3 (s.configTick t0 t1)
    ++ sha3 (rngBytes ((old.head?.map fun r => r.rng).getD []))
    ++ ((List.range 4).flatMap fun c => leBytes 8 (smapGet (fun _ => 0) s.ldg.doneAt c)) ++ List.replicate 32 0

/-- A record, signed on request over the digest of its bytes (R393). -/
def State.signedRecord (s : State) (first last : Nat) (rs : List StepRec) (sign : Bool) : List Byte :=
  let r := s.recordImage first last rs
  if sign then r ++ Config.sign [] (sha3 r) else r

/-! ### Plumb mode (R394 to R400) -/

/-- PLUMB_START_AT_MARK: comparison begins at the mark with the program digests (R394). -/
def opPlumbStart (partner : List Word) (s : State) : State :=
  if s.getF Fld.LDG_PLUMB_STATE ≠ 1 ∨ s.now < s.getF Fld.LDG_PLUMB_START_MARK then s
  else
    let s := (s.settleSteps.updPlumb fun _ => ⟨[], [], [], [], s.now, 0⟩).setFs
      [(Fld.LDG_PLUMB_STATE, 2), (Fld.LDG_PLUMB_STOP_MARK, 0)]
    let theirs := partner.map BitVec.toNat
    let s := (s.plumbHeard .plumbProgram theirs).plumbSay .plumbProgram
      ((cutParts 8 64).map fun p => leNat (((s.classDigest 0).drop p.1).take p.2))
    if partner.flatMap (fun w => leBytes 8 w.toNat) = s.classDigest 0 then s
    else s.diverge .program 0 (s.getF Fld.LDG_STEP_NUMBER) 0 0 0 0 0

/-- The words of a chunk entry in its packet: key, check and offsets. -/
def chunkWords (c : PlumbChunk) : List Nat :=
  [c.bay.toNat, c.group.toNat, c.seq.toNat, c.idx.toNat, c.check.toNat, c.offLo.toNat, c.offHi.toNat]

/-- PLUMB_BATCH_SEND: the count and running value of every bay whose count has grown, and the new chunk entries, go to the partner
(R396, R397). -/
def opPlumbSend (s : State) : State :=
  if !s.plumbing then s
  else
    let grown := s.ldg.plumb.bays.filter fun e => decide (e.2.sent < e.2.count)
    let s := grown.foldl (fun s e => s.plumbSay .plumbStrip [e.1, e.2.count, e.2.p.toNat]) s
    let s := s.ldg.plumb.toSend.foldl (fun s c => s.plumbSay .plumbChunk (chunkWords c)) s
    (s.updPlumb fun p => { p with bays := p.bays.map fun e => (e.1, { e.2 with sent := e.2.count }), toSend := [] }).incF
      Fld.LDG_PLUMB_STATS_BATCHES

/-- A pair of the partner for one bay (R396): compared once the bay's own count reaches it. -/
def State.takePair (s : State) (p : PlumbPair) : State :=
  let s := s.plumbHeard .plumbStrip [p.bay.toNat, p.n, p.p.toNat]
  let x := s.plumbBay p.bay.toNat
  s.comparePairs p.bay.toNat { x with theirs := x.theirs ++ [(p.n, p.p)] }

/-- A chunk entry of the partner (R397); one that meets none of this device's waits in its packet while the table is full. -/
def State.takeEntry (s : State) (c : PlumbChunk) : State :=
  let e : PlumbEntry := { chunk := c, own := false, step := s.getF Fld.LDG_STEP_NUMBER, since := s.now }
  let meets := s.ldg.plumb.table.any fun x => x.own && keyOf x.chunk == keyOf c
  if !meets && decide (8192 ≤ s.ldg.plumb.table.length) then s else (s.plumbHeard .plumbChunk (chunkWords c)).meetEntry e

/-- PLUMB_BATCH_ARRIVAL (R396, R397). -/
def opPlumbArrival (pairs : List PlumbPair) (chunks : List PlumbChunk) (s : State) : State :=
  if !s.plumbing then s
  else
    let s := s.updPlumb fun p => { p with heard := s.now }
    chunks.foldl State.takeEntry (pairs.foldl State.takePair s)

/-- PLUMB_ENTRY_EXCHANGE (R398): the partner's request for the ring entries of a bay, without entries, is answered with them; from the
partner's entries, the first strip after the last match whose checks differ is the divergent entry. -/
def opPlumbExchange (b : BayId) (entries : List PlumbStrip) (s : State) : State :=
  if !s.plumbing then s
  else
    let s := s.updPlumb fun p => { p with heard := s.now }
    let s := if entries.isEmpty then (s.plumbHeard .plumbAsk [b.toNat]).sendRing b.toNat
      else entries.foldl (fun s e => s.plumbHeard .plumbRing (ringWords b.toNat e)) s
    let x := s.plumbBay b.toNat
    let bad := x.ring.reverse.find? fun e => decide (x.matched ≤ e.1.n) && entries.any fun t => t.n == e.1.n && t.check != e.1.check
    match bad with
    | none => s
    | some e => s.diverge .strip b.toNat e.2 e.1.offLo.toNat e.1.offHi.toNat (e.1.n % 2 ^ 24) 0 0

/-- PLUMB_UNMATCHED_TIMEOUT: an entry unmatched for 2,000,000 ticks while the partner's packets keep arriving (R397). -/
def opPlumbUnmatched (c : PlumbChunk) (s : State) : State :=
  if !s.plumbing || decide (s.ldg.plumb.heard + 2000000 ≤ s.now) then s
  else
    match s.ldg.plumb.table.find? fun e => e.chunk == c && decide (e.since + 2000000 ≤ s.now) with
    | none => s
    | some e => (s.divergeChunk .unmatched e).updPlumb fun p => { p with table := p.table.erase e }

/-- The partner's reports copied; nothing is copied while a divergence is recorded, and reserved bits read as zero (R398, R405). -/
def State.copyReport (s : State) (rep : PlumbReport) : State :=
  if s.getF Fld.LDG_PLUMB_REP0_VALID = 1 then s
  else s.setFs ((Fld.LDG_PLUMB_REP0_VALID, 1) ::
    ([Fld.LDG_PLUMB_REP0_KIND, Fld.LDG_PLUMB_REP0_BAY, Fld.LDG_PLUMB_REP0_STEP].map fun f => (f, f.of rep.rep0))
    ++ ([Fld.LDG_PLUMB_REP1_OFF_LO, Fld.LDG_PLUMB_REP1_OFF_HI, Fld.LDG_PLUMB_REP1_INDEX].map fun f => (f, f.of rep.rep1))
    ++ ([Fld.LDG_PLUMB_REP2_SEQ, Fld.LDG_PLUMB_REP2_GROUP].map fun f => (f, f.of rep.rep2)))

/-- PLUMB_STOP_MARK_ARRIVAL: the partner's stop mark and reports are taken over; a device that learns of the divergence so chooses a
mark of its own too (R398, R399). -/
def opPlumbStopMark (mark : Word) (rep : PlumbReport) (s : State) : State :=
  if !s.plumbing then s
  else
    let s := ((s.updPlumb fun p => { p with heard := s.now }).plumbHeard .plumbStop [mark.toNat]).plumbHeard .plumbReport
      [rep.rep0.toNat, rep.rep1.toNat, rep.rep2.toNat]
    let s := if s.getF Fld.LDG_PLUMB_STOP_MARK ≠ 0 then s
      else
        let s := (s.settleSteps.incF Fld.LDG_PLUMB_STATS_DIVERGE_CNT).setF Fld.LDG_PLUMB_CODE cPLUMB_DIVERGED.toNat
        (s.copyReport rep).chooseStop
    s.takeStop mark.toNat

/-- PLUMB_STOP_AT_MARK: every bay stops, the step is invalid, and the job will complete with PLUMB_DIVERGED (R399). A stop that
falls into the pause of a baste waits for its end (R417). -/
def opPlumbStop (s : State) : State :=
  let m := s.getF Fld.LDG_PLUMB_STOP_MARK
  if !s.plumbing || decide (m = 0) || decide (s.now < m) || s.getF Fld.LDG_BASTE_STATUS_STATE == 1 then s
  else
    let s := (s.bays.map Prod.fst).foldl (fun s b => s.bayStop (BitVec.ofNat 10 b)) s
    let s := (s.bitsEvent cPLUMB_DIVERGED).updJob fun j => { j with plumb := true }
    s.setFs [(Fld.LDG_PLUMB_STATE, 3), (Fld.LDG_PLUMB_CODE, cPLUMB_DIVERGED.toNat)]

/-- PLUMB_PARTNER_LOST: nothing from the partner for 2,000,000 ticks (R400): steps not matched until now never are. -/
def opPlumbLost (s : State) : State :=
  if !s.plumbing || decide (s.now < s.ldg.plumb.heard + 2000000) then s
  else
    let s := (s.settleSteps.setF Fld.LDG_PLUMB_STATE 4).stick Fld.MSC_EVENT_PLUMB_LOST Fld.MSC_EVENT_CNT_PLUMB_LOST
    (s.sendMsi 0).mgmtEvent 7 0

/-! ### Register writes (R401 to R405) -/

/-- A write of `LDG_REGION_A` or `LDG_REGION_B` (R403). -/
def writeRegion (r : RegId) (i : Nat) (v : Word) (s : State) : State × Code :=
  s.guarded r i 0 v s.ldg.digest.isNone cSTATE_REJECT fun s => (s.plainWrite r i 0 v, cDONE)

/-- A write of `LDG_DIGEST_CTRL`: CLASS, and START (R389, R403); a START while a digest runs has no effect (R389, R563). -/
def writeDigestCtrl (v : Word) (s : State) : State × Code :=
  if Fld.LDG_DIGEST_CTRL_START.of v = 1 ∧ s.ldg.digest.isSome then (s, cSTATE_REJECT)
  else
    let s := s.setF Fld.LDG_DIGEST_CTRL_CLASS (Fld.LDG_DIGEST_CTRL_CLASS.of v)
    if Fld.LDG_DIGEST_CTRL_START.of v = 1 then s.digestStart (Fld.LDG_DIGEST_CTRL_CLASS.of v) else (s, cDONE)

/-- READY, RUN or QUARANTINE. -/
def State.jobStates (s : State) : Bool := s.devState == stREADY || s.devState == stRUN || s.devState == stQUARANTINE

/-- A write of a register accepted in some device states only, at its fields' access codes. -/
def State.stateWrite (s : State) (r : RegId) (i : Nat) (v : Word) (ok : Bool) : State × Code :=
  s.guarded r i 0 v ok cSTATE_REJECT fun s => (s.plainWrite r i 0 v, cDONE)

/-- A write of `LDG_RNG_KEY` or `LDG_RNG_CTR` (R404). -/
def writeRng (r : RegId) (i : Nat) (v : Word) (s : State) : State × Code := s.stateWrite r i v s.jobStates

/-- A write of `LDG_PLUMB` or `LDG_PLUMB_START` (R405): EN arms plumb mode or ends it (R394). -/
def writePlumb (r : RegId) (v : Word) (s : State) : State × Code :=
  let w := s.stateWrite r 0 v (s.devState == stREADY)
  let on := w.1.getF Fld.LDG_PLUMB_EN
  if on = s.getF Fld.LDG_PLUMB_EN then w
  else (w.1.settleSteps.setFs [(Fld.LDG_PLUMB_STATE, on), (Fld.LDG_PLUMB_CODE, 0), (Fld.LDG_PLUMB_STOP_MARK, 0)], w.2)

/-! ### The meanings -/

/-- PLUMB_START_AT_MARK (R394). -/
def execPlumbStartAtMark (partnerDigest : List Word) (s : State) : Res := .next (opPlumbStart partnerDigest s)

/-- PLUMB_BATCH_SEND (R396). -/
def execPlumbBatchSend (s : State) : Res := .next (opPlumbSend s)

/-- PLUMB_BATCH_ARRIVAL (R396). -/
def execPlumbBatchArrival (pairs : List PlumbPair) (chunks : List PlumbChunk) (s : State) : Res :=
  .next (opPlumbArrival pairs chunks s)

/-- PLUMB_ENTRY_EXCHANGE (R398). -/
def execPlumbEntryExchange (b : BayId) (entries : List PlumbStrip) (s : State) : Res := .next (opPlumbExchange b entries s)

/-- PLUMB_UNMATCHED_TIMEOUT (R397). -/
def execPlumbUnmatchedTimeout (c : PlumbChunk) (s : State) : Res := .next (opPlumbUnmatched c s)

/-- PLUMB_STOP_MARK_ARRIVAL (R399). -/
def execPlumbStopMarkArrival (mark : Word) (rep : PlumbReport) (s : State) : Res := .next (opPlumbStopMark mark rep s)

/-- PLUMB_STOP_AT_MARK (R399). -/
def execPlumbStopAtMark (s : State) : Res := .next (opPlumbStop s)

/-- PLUMB_PARTNER_LOST (R400). -/
def execPlumbPartnerLost (s : State) : Res := .next (opPlumbLost s)

end Sys2Proof.Machine
end

