-- ==== Sys2Proof/Machine/Secure.lean ====
section
/-! DEFINITION. Securing state (R406 to R440): risk estimate, baste, hem, restore, membership epochs, leases. -/

namespace Sys2Proof.Machine

/-! ### Securing regions (R409, R410) -/

/-- Lengths are kept in slots rounded up to 4 KiB. -/
def roundPage (n : Nat) : Nat := (n + 4095) / 4096 * 4096

/-- Enabled securing regions in table order, with their places in a slot (R409, R410). -/
def State.secRegions (s : State) : List ManRegion :=
  (((List.range 64).filter fun i => s.getF (Fld.LDG_SEC_A_EN i) == 1 && decide (0 < s.getF (Fld.LDG_SEC_B_LENGTH i))).foldl
    (fun (acc : List ManRegion × Nat) i =>
      let n := s.getF (Fld.LDG_SEC_B_LENGTH i)
      (acc.1 ++ [⟨s.getF (Fld.LDG_SEC_A_BASE i), n, acc.2, s.getF (Fld.LDG_SEC_A_SHARED i) == 1, []⟩], acc.2 + roundPage n))
    ([], 8192)).1

/-- No two ranges of a list share a byte. -/
def disjoint : List (Nat × Nat) → Bool
  | [] => true
  | p :: ps => (ps.all fun q => !overlap p q) && disjoint ps

/-- Regions follow R409: in memory and live bands, apart from one another and from the reserve. -/
def State.regionsOk (s : State) (l : List ManRegion) : Bool :=
  (l.all fun r => s.inMemory r.base r.len && !s.inReserve r.base r.len) && disjoint (l.map fun r => (r.base, r.len))

/-- Bytes that a slot needs for regions (R410). -/
def slotBytes (l : List ManRegion) : Nat := 8192 + (l.map fun r => roundPage r.len).foldl (· + ·) 0

/-- Bytes of the regions. -/
def regionBytes (l : List ManRegion) : Nat := (l.map fun r => r.len).foldl (· + ·) 0

/-! ### Risk (R413) -/

/-- ⌊log₂ n⌋ of a positive number. -/
def log2 (n : Nat) : Nat := Nat.log2 n

/-- The counters of corrected units in HBM, LLS, bay memories and accumulators. -/
def State.correctedNow (s : State) : List Nat :=
  [s.getF Fld.HBM_ECC_CORR_CNT, s.getF Fld.LLS_ECC_CORR_CNT]
    ++ (List.range 1024).flatMap fun b => [s.getF (Fld.BAY_MEM_ECC_CORR_CNT b), s.getF (Fld.PRS_ECC_CORR_CNT b)]

/-- The counters of link replays. -/
def State.replaysNow (s : State) : List Nat := (List.range 16).map fun p => s.getF (Fld.ABR_PORT_CNT_REPLAYS p)

/-- What counters of 32 bits gained since an earlier reading, 0 where there is none (R14). -/
def gained (now old : List Nat) : Nat := (now.zipIdx.map fun p => (p.1 + 2 ^ 32 - old.getD p.2 0) % 2 ^ 32).sum

/-- Highest level of any domain instance (R500). -/
def State.levelNow (s : State) : Nat := (List.range 10).foldl (fun m i => max m (s.getF Fld.TPC_LEVELS_LEVEL / 4 ^ i % 4)) 0

/-- Lasers in state faded, and engines with no spare patch laser. -/
def State.fadedNow (s : State) : Nat :=
  (List.range 8).foldl (fun n e => n + ((List.range 37).filter fun l => s.getF (Fld.OPT_LASER_STATE e l) == 3).length) 0
def State.noSpareNow (s : State) : Nat :=
  ((List.range 8).filter fun e => s.getF (Fld.OPT_ENG_STATUS_PATCH_FREE e) == 0).length

/-- TOTAL from the components in the register (R413). -/
def State.riskTotal (s : State) : State :=
  s.setF Fld.LDG_RISK_TOTAL (min 255 (s.getF Fld.LDG_RISK_MEM + s.getF Fld.LDG_RISK_LINK + s.getF Fld.LDG_RISK_LASER
    + s.getF Fld.LDG_RISK_THERMAL + s.getF Fld.LDG_RISK_AGE + s.getF Fld.LDG_RISK_NBR))

/-- RISK_UPDATE (R413): the counters of the last 60 s are differences to the last sample before them. -/
def opRiskUpdate (s : State) : State :=
  let now : RiskSample := ⟨s.now, s.correctedNow, s.replaysNow, s.levelNow⟩
  let all := now :: s.ldg.risk
  let recent := all.filter fun x => decide (s.now < x.time + 60000000000)
  let base := (s.ldg.risk.find? fun x => decide (x.time + 60000000000 ≤ s.now)).getD ⟨0, [], [], 0⟩
  let n := gained now.corrected base.corrected
  let r := gained now.replays base.replays
  let down := ((List.range 16).filter fun p => s.getF (Fld.ABR_PORT_STATUS_DOWN p) == 1).length
  let level := recent.foldl (fun m x => max m x.level) 0
  let m := s.getF Fld.TPC_AGE_MARGIN
  let age := if s.getF Fld.TPC_FLAGS_MARGIN_LOW = 1 then 64 else if 5000 ≤ m then 0 else min 64 (128 * (5000 - m) / 10000)
  let halve := decide (s.ldg.nbrAt + 60000000000 ≤ s.now)
  let s := s.updLdg fun l => { l with
    risk := recent ++ (all.filter fun x => decide (x.time + 60000000000 ≤ s.now)).take 1
    nbrAt := if halve then s.now else l.nbrAt }
  (s.setFs [(Fld.LDG_RISK_MEM, min 64 (4 * log2 (n + 1))), (Fld.LDG_RISK_LINK, min 64 (2 * log2 (r + 1) + 24 * down)),
    (Fld.LDG_RISK_LASER, min 64 (8 * s.fadedNow + 24 * s.noSpareNow)),
    (Fld.LDG_RISK_THERMAL, if level = 0 then 0 else if level = 1 then 16 else 48), (Fld.LDG_RISK_AGE, age),
    (Fld.LDG_RISK_NBR, if halve then s.getF Fld.LDG_RISK_NBR / 2 else s.getF Fld.LDG_RISK_NBR)]).riskTotal

/-! ### Baste (R412 to R417, R420) -/

/-- `s` with the baste changed. -/
def State.updBaste (s : State) (f : BasteJob → BasteJob) : State := s.updLdg fun l => { l with baste := f l.baste }

/-- STATE of the baste. -/
def State.basteState (s : State) : Nat := s.getF Fld.LDG_BASTE_STATUS_STATE

/-- A baste runs: copying, sealing or trickling. -/
def State.basteRuns (s : State) : Bool := s.basteState == 1 || s.basteState == 2 || s.basteState == 3

/-- A baste ends: STATE, CODE, its progress, and the host's command (R436, R437, R456). -/
def State.basteEnd (s : State) (st : Nat) (code : Code) : State :=
  let s := s.setFs [(Fld.LDG_BASTE_STATUS_STATE, st), (Fld.LDG_BASTE_STATUS_CODE, code.toNat),
    (Fld.LDG_BASTE_PROG_STATE, if st = 4 ∨ st = 5 then 2 else 3), (Fld.LDG_BASTE_PROG_CODE, code.toNat)]
  let s := (s.withdrawLedger .baste).updBaste fun b => { b with leaves := [], trickle := [] }
  (s.host.cmds.filter fun c => c.op == 0x20 && c.stage == .running).foldl
    (fun s c => s.finishCmd c.k code 0 (BitVec.ofNat 64 (s.getF Fld.LDG_BASTE_STATUS_STEP))) s

/-- PCT of a baste counts copy and trickle; POSITION the MiB copied (R437). -/
def State.basteProg (s : State) : State :=
  let b := s.ldg.baste
  let n := regionBytes b.regions
  let total := if s.getF Fld.LDG_BASTE_CTRL_PART_EN = 1 then 2 * n else n
  (s.setFs [(Fld.LDG_BASTE_PROG_PCT, if total = 0 then 10000 else 10000 * (n + b.trickled) / total),
    (Fld.LDG_BASTE_PROG_POSITION, n / 0x100000)]).showProgress 0x20

/-- The manifest's first 1,152 bytes: header, cursor and RNG image (R420). -/
def State.manifestHead (s : State) (nreg : Nat) : List Byte :=
  let valid := ((s.ldg.history.head?.map fun r => r.valid).getD false)
  [0x44, 0x5A, 0x42, 0x4D] ++ leBytes 2 1 ++ leBytes 1 (if valid then 1 else 0) ++ leBytes 1 nreg
    ++ leBytes 8 (s.getF Fld.LDG_STEP_NUMBER) ++ leBytes 8 s.now ++ leBytes 2 s.devCoord.toNat ++ leBytes 2 0
    ++ leBytes 4 (s.getF Fld.ABR_EPOCH_CURRENT) ++ leBytes 8 (s.reg RegId.LDG_CURSOR.addr).toNat
    ++ leBytes 8 (s.reg RegId.SCR_CAL.addr).toNat ++ identity ++ List.replicate 16 0 ++ rngBytes s.ldg.openRng

/-- A region's entry in the manifest. -/
def manifestRegion (r : ManRegion) : List Byte :=
  leBytes 8 r.base ++ leBytes 8 r.len ++ leBytes 8 r.off ++ leBytes 8 (if r.shared then 1 else 0) ++ r.digest

/-- The 8 KiB manifest (R420). -/
def manifestBytes (head : List Byte) (l : List ManRegion) : List Byte :=
  let body := (head ++ l.flatMap manifestRegion ++ List.replicate ((64 - l.length) * 96) 0).take 7296
  body ++ sha3 body ++ List.replicate 832 0

/-- A manifest removed: its 8 KiB read as zero. -/
def State.zeroManifest (s : State) (a : Nat) : State :=
  { s with mem := s.mem.filter fun c => decide (c.1 < a) || decide (a + 8192 ≤ c.1) }

/-- A due baste starts, or fails its start check without a pause (R409, R410, R415). -/
def State.basteStart (s : State) : State :=
  let l := s.secRegions
  let r := s.reserve
  let s := s.updBaste fun b => { b with
    due := false, forced := false, leaves := [], done := [], trickle := [], cut := none
    begun := false, closing := false, fail := none, deferred := false }
  let s := s.withdrawLedger .baste
  let s := s.setFs [(Fld.LDG_BASTE_STATUS_STEP, s.getF Fld.LDG_STEP_NUMBER), (Fld.LDG_BASTE_PROG_PCT, 0),
    (Fld.LDG_BASTE_PROG_STATE, 1), (Fld.LDG_BASTE_PROG_CODE, 0), (Fld.LDG_BASTE_PROG_POSITION, 0)]
  if !s.regionsOk l || (decide (r.1 < r.2.2) && !s.mapped r.1 (r.2.2 - r.1)) then s.basteEnd 6 cRANGE
  else if r.2.1 - r.1 < slotBytes l then s.basteEnd 6 cCAPACITY
  else
    let head := s.manifestHead l.length
    let s := s.updBaste fun b => { b with head := head, regions := l, total := 0, trickled := 0 }
    ((s.zeroManifest r.1).setF Fld.LDG_BASTE_STATUS_STATE 1).incF Fld.LDG_BASTE_STATS_BASTES

/-- A restore of another device reads the local slot: a read of it came in the last 2 ms (R414; log entry 46). -/
def State.slotIsRead (s : State) : Bool := s.ldg.readers.any fun e => decide (s.now < e.2 + 2000000)

/-- A due baste starts unless R414 defers it, which counts once; a lease expiry overrides that (R429). While one copies, the next stays
due (R417). -/
def State.basteTry (s : State) (force : Bool) : State :=
  if s.basteState == 1 then s
  else if !force && (s.basteState == 3 || s.ldg.hem.isSome || s.slotIsRead) then
    if s.ldg.baste.deferred then s
    else (s.updBaste fun b => { b with deferred := true }).incF Fld.LDG_BASTE_STATS_DEFERS
  else s.basteStart

/-- The interval of bastes at TOTAL and in QUARANTINE (R412, R433). -/
def State.basteInterval (s : State) (risk : Bool) : Nat :=
  let n := s.getF Fld.LDG_BASTE_CTRL_S
  if s.devState = stQUARANTINE ∨ (risk ∧ 128 ≤ s.getF Fld.LDG_RISK_TOTAL) then max 1 (n / 4) else n

/-- Bastes at a step boundary (R412): due by interval, by the steps since the last one, by TOTAL or by FORCE. -/
def State.basteBoundary (s : State) : State :=
  if s.getF Fld.LDG_BASTE_CTRL_EN = 0 then s
  else
    let n := s.getF Fld.LDG_STEP_NUMBER
    let b := s.ldg.baste
    let base := b.due || b.forced || decide (n % s.basteInterval false = 0) || decide (s.getF Fld.LDG_BASTE_CTRL_S ≤ n - b.last)
    let total := decide (n % s.basteInterval true = 0) || decide (200 ≤ s.getF Fld.LDG_RISK_TOTAL)
    if !(base || total) then s
    else
      let s := if base then s else s.incF Fld.LDG_BASTE_STATS_RISK_BASTES
      (s.updBaste fun b => { b with due := true }).basteTry (s.getF Fld.MSC_LEASE_STATE == 2)

/-- No thread of the device is in RUN, WAIT or DRAIN. -/
def State.noThread (s : State) : Bool := s.bays.all fun e => !e.2.live

/-- FORCE (R412): a baste is due; with no thread running it starts at once. -/
def State.basteForce (s : State) : State :=
  let s := s.updBaste fun b => { b with forced := true }
  if s.noThread && !s.basteRuns then (s.updBaste fun b => { b with due := true }).basteTry false else s

/-- No queued engine instruction of a bay can start, and its requests inside the device have finished (R415). -/
def State.bayQuiet (s : State) (b : BayId) : Bool :=
  let y := s.bay b
  let same := fun (s' : State) => decide ((s'.bay b).pq.length = y.pq.length) && decide ((s'.bay b).mainVq.length = y.mainVq.length)
    && decide ((s'.bay b).seamVq.length = y.seamVq.length)
  same (opPressAccept b s) && same (opVectorStart b .main s) && same (opVectorStart b .seam s)
    && y.usedSlots.all fun e => e.2.dev != s.devCoord

/-- The regions copied into the local slot, in table order: the first code that is not DONE. -/
def copyRegions (base : Nat) : List ManRegion → State → State × Code
  | [], s => (s, cDONE)
  | r :: rs, s =>
    let x := s.ownRead 3 r.base r.len
    if x.2.1 ≠ cDONE then (x.1, x.2.1)
    else
      let w := x.1.ownWrite 3 (base + r.off) x.2.2
      if w.2 ≠ cDONE then w else copyRegions base rs w.1

/-- The stores of the Ledger that carry a range to an endpoint: bytes given, or read from memory as they leave (R416, R418). -/
def ledgerStores (u : LedgerUse) (ep addr len data : Nat) (given : List Byte) : List Req :=
  (cutParts 2048 len).map fun p =>
    { org := .ledger u, type := 0, srcEp := ledgerEp, dstEp := ep, addr := BitVec.ofNat 48 (addr + p.1), len := p.2, data := data + p.1
      given := (given.drop p.1).take p.2, hdr := [], slot := 0 }

/-- A range of the slot stored into the partner's peer slot, which lies where this device's does (R416; DESIGN CHOICE, log entry 47: the
spec does not say how the partner's slot is addressed). -/
def State.trickleSend (s : State) (off len data : Nat) (given : List Byte) : State :=
  let a := s.reserve.2.1 + off
  s.sendReqs (BitVec.ofNat 16 (s.getF Fld.LDG_BASTE_CTRL_PARTNER)) (ledgerStores .baste (servingEp a) a len data given)

/-- The first trickle store zeroes the partner's manifest (R416). -/
def State.trickleBegin (s : State) : State :=
  if s.ldg.baste.begun then s
  else (s.trickleSend 0 8192 0 (List.replicate 8192 0)).updBaste fun b => { b with begun := true }

/-- With every leaf digested and trickled the last store writes the manifest (R416). -/
def State.trickleClose (s : State) : State :=
  let b := s.ldg.baste
  if s.basteState = 3 ∧ b.leaves = [] ∧ b.trickle = [] ∧ !b.closing then
    (s.trickleBegin.trickleSend 0 8192 0 (manifestBytes b.head b.regions)).updBaste fun b => { b with closing := true }
  else s

/-- The manifest sealed once every leaf is digested (R416): SELF and the region digests are written. -/
def State.basteSeal (s : State) : State :=
  let b := s.ldg.baste
  if !b.leaves.isEmpty then s
  else
    let rs := b.regions.map fun r =>
      { r with digest := regionDigest r.base r.len ((b.done.filter fun e => e.1 == r.off).map Prod.snd) }
    let w := s.ownWrite 3 s.reserve.1 (manifestBytes b.head rs)
    if w.2 ≠ cDONE then w.1.basteEnd 6 w.2
    else
      let s := w.1.updBaste fun b => { b with regions := rs, last := leNat ((b.head.drop 8).take 8) }
      if s.getF Fld.LDG_BASTE_CTRL_PART_EN = 1 ∧ b.cut = none then (s.setF Fld.LDG_BASTE_STATUS_STATE 3).trickleClose
      else s.basteEnd 5 (b.cut.getD cDONE)

/-- Bays stop, and the device enters HELD: at once, or with the end of its job (R429, R460). -/
def State.leaseStop (s : State) : State :=
  let s := (s.abortDevice cLEASE_EXPIRED fun _ => true).stopBays
  let s := (s.updJob fun j => { j with lease := true }).setFs [(Fld.MSC_LEASE_STATE, 3), (Fld.MSC_LEASE_REMAIN, 0)]
  if s.host.job.isSome && s.devState != stHOLD then s else s.setDevState stHELD

/-- BASTE_COPY_DONE: the pause ends (R415 to R417). The copy needs the bays quiet. -/
def opBasteCopy (s : State) : State :=
  if s.basteState ≠ 1 ∨ !((s.bays.map Prod.fst).all fun b => s.bayQuiet (BitVec.ofNat 10 b)) then s
  else
    let b := s.ldg.baste
    let c := copyRegions s.reserve.1 b.regions s
    let c := if c.2 = cDONE then c.1.ownWrite 3 c.1.reserve.1 b.head else c
    let s :=
      if c.2 ≠ cDONE then (c.1.basteEnd 6 c.2).updBaste fun b => { b with due := true }
      else
        let s := c.1
        let leaves := b.regions.flatMap fun r => leavesOf r.off (s.reserve.1 + r.off) r.len
        let s := (s.updBaste fun b => { b with leaves := leaves, total := leaves.length }).setF Fld.LDG_BASTE_STATUS_STATE 2
        let s := s.basteProg
        if leaves.isEmpty then s.basteSeal else s
    let s := s.workAll
    if s.getF Fld.MSC_LEASE_STATE = 2 then s.leaseStop else s

/-- The next leaf of the baste finishes (R416, R417): with PART_EN it is then trickled. -/
def State.basteLeaf (s : State) (x : Leaf) (rest : List Leaf) : State :=
  let r := s.ownRead 3 x.addr x.len
  if r.2.1 ≠ cDONE then r.1.basteEnd 6 r.2.1
  else
    let part := decide (r.1.getF Fld.LDG_BASTE_CTRL_PART_EN = 1) && r.1.ldg.baste.cut.isNone
    let s := r.1.updBaste fun b => { b with
      leaves := rest, done := b.done ++ [(x.region, sha3 r.2.2)], trickle := if part then b.trickle ++ [x] else b.trickle }
    (if part then s.setF Fld.LDG_BASTE_STATUS_STATE 3 else s).basteSeal

/-- LEAF_DIGEST_DONE: a leaf of a baste, which is served first, or of a class digest (R388, R389, R416). -/
def opLeafDigest (s : State) : State :=
  match s.ldg.baste.leaves with
  | x :: rest => if s.basteState = 2 ∨ s.basteState = 3 then s.basteLeaf x rest else s
  | [] => s.ldg.digest.elim s s.digestLeaf

/-- The trickle ends before the partner holds the baste (R417): sealed locally, at once or when its leaves are digested. -/
def State.trickleCut (s : State) (code : Code) : State :=
  let s := (s.withdrawLedger .baste).updBaste fun b => { b with trickle := [], cut := some code }
  if s.ldg.baste.leaves.isEmpty then s.basteEnd 5 code else s.setF Fld.LDG_BASTE_STATUS_STATE 2

/-- What the partner has answered so far: the code of the first store it refused, or of the lost path to it, else DONE (R417). -/
def State.partnerSays (s : State) : Code := s.ldg.baste.fail.getD cDONE

/-- BASTE_TRICKLE_LEAF: the oldest digested leaf is stored at the partner (R416); a trickle that the partner has refused ends (R417). A
row whose status is not the partner's answer has no cause (log entry 4). -/
def opTrickleLeaf (status : Code) (s : State) : State :=
  if s.basteState ≠ 3 ∨ status ≠ s.partnerSays then s
  else
    match s.ldg.baste.fail, s.ldg.baste.trickle with
    | some code, _ => s.trickleCut code
    | none, [] => s
    | none, x :: rest =>
      let r := s.ownRead 3 x.addr x.len
      if r.2.1 ≠ cDONE then r.1.basteEnd 6 r.2.1
      else
        let s := r.1.trickleBegin.trickleSend (x.addr - s.reserve.1) x.len x.addr []
        ((s.updBaste fun b => { b with trickle := rest, trickled := b.trickled + x.len }).basteProg).trickleClose

/-- BASTE_PARTNERED: the partner has acknowledged every store, the manifest last, or has refused one or is lost (R416, R417). -/
def opPartnered (status : Code) (s : State) : State :=
  let b := s.ldg.baste
  if s.basteState ≠ 3 ∨ status ≠ s.partnerSays then s
  else
    match b.fail with
    | some code => s.trickleCut code
    | none => if b.closing && !s.fab.reqsLeft (.ledger .baste) then s.basteEnd 4 cDONE else s

/-! ### Steps with their bastes and leases (R385, R412, R429) -/

/-- ADV accepted: the boundary, the baste that falls due, and an expiring lease's end (R384, R412, R429). -/
def State.advance (s : State) : State :=
  let s := s.stepBoundary
  let expiring := s.getF Fld.MSC_LEASE_STATE == 2
  let s := if expiring then s.updBaste fun b => { b with due := true } else s
  let s := s.basteBoundary
  if expiring && s.basteState != 1 then s.leaseStop else s

/-- A write of `LDG_STEP` (R385, R402). -/
def writeStep (v : Word) (s : State) : State × Code :=
  if Fld.LDG_STEP_ADV.of v = 1 then
    if s.devState = stRUN ∨ s.devState = stQUARANTINE then (s.advance, cDONE) else (s, cSTATE_REJECT)
  else s.stateWrite .LDG_STEP 0 v (s.devState == stREADY)

/-- LEASE_EXPIRY: REMAIN reaches zero (R429). -/
def opLeaseExpiry (s : State) : State :=
  if s.getF Fld.MSC_LEASE_EN = 0 ∨ s.getF Fld.MSC_LEASE_STATE ≠ 1 then s
  else
    let st := s.devState
    let s := (s.setF Fld.MSC_LEASE_REMAIN 0).incF Fld.MSC_LEASE_CNT_EXPIRIES
    if st = stRUN ∨ st = stQUARANTINE ∨ st = stHOLD then
      let s := (s.setF Fld.MSC_LEASE_STATE 2).mgmtEvent 6 0
      let s := s.updBaste fun b => { b with due := true }
      let s := if s.basteState = 3 then s.trickleCut cLEASE_EXPIRED else s
      s.ldg.hem.elim s fun h => s.hemEnd h cLEASE_EXPIRED
    else if st = stREADY then (s.setF Fld.MSC_LEASE_STATE 3).setDevState stHELD
    else s

/-- LEASE_GRACE_EXPIRY: no ADV within GRACE (R429). A pause in progress ends first. -/
def opLeaseGrace (s : State) : State :=
  if s.getF Fld.MSC_LEASE_STATE = 2 ∧ s.basteState ≠ 1 then (s.bitsEvent cLEASE_EXPIRED).leaseStop else s

/-! ### Hem (R418, R419) -/

/-- A hem started by a host command: `none` where it is refused (R418). -/
def State.hemStart (s : State) (k : Nat) (coord : BitVec 28) (obj rate : Nat) : Option State :=
  let st := s.basteState
  if !(st == 3 || st == 4 || st == 5) || s.ldg.hem.isSome then none
  else
    let l := s.ldg.baste.regions
    let pieces := l.flatMap fun r => (cutParts leafSize r.len).map fun p => (s.reserve.1 + r.off + p.1, p.2)
    let h : HemJob := { cmd := some k, coord := coord, obj := obj, rate := rate, pieces := pieces, total := regionBytes l, sent := 0,
                         begun := false, closing := false, fail := none }
    some ((s.updLdg fun x => { x with hem := some h }).setFs
      [(Fld.LDG_HEM_PROG_PCT, 0), (Fld.LDG_HEM_PROG_STATE, 1), (Fld.LDG_HEM_PROG_CODE, 0), (Fld.LDG_HEM_PROG_POSITION, 0)])

/-- A range of the slot stored in the gateway's object (R418). -/
def State.hemSend (s : State) (h : HemJob) (off len data : Nat) (given : List Byte) : State :=
  s.sendReqs (devOf h.coord) (ledgerStores .hem (epOf h.coord) (h.obj + off) len data given)

/-- HEM_STORE: the next stores of a hem leave (R418, R419): the first zeroes the manifest at the gateway, then come the pieces of the
slot's regions, then the manifest. `status` is what the gateway has answered so far. -/
def opHemStore (status : Code) (s : State) : State :=
  match s.ldg.hem with
  | none => s
  | some h =>
    if h.fail.isSome || h.closing || status != cDONE then s
    else
      let base := s.reserve.1
      let s := if h.begun then s else s.hemSend h 0 8192 0 (List.replicate 8192 0)
      match h.pieces with
      | [] =>
        let r := s.ownRead 3 base 8192
        if r.2.1 ≠ cDONE then r.1.hemEnd h r.2.1
        else (r.1.hemSend h 0 8192 0 r.2.2).updLdg fun l => { l with hem := some { h with begun := true, closing := true } }
      | p :: rest =>
        let r := s.ownRead 3 p.1 p.2
        if r.2.1 ≠ cDONE then r.1.hemEnd h r.2.1
        else
          let n := h.sent + p.2
          let s := (r.1.hemSend h (p.1 - base) p.2 p.1 []).updLdg fun l =>
            { l with hem := some { h with pieces := rest, sent := n, begun := true } }
          (s.setFs [(Fld.LDG_HEM_PROG_PCT, if h.total = 0 then 10000 else 10000 * n / h.total),
            (Fld.LDG_HEM_PROG_POSITION, n / 0x100000)]).showProgress 0x21

/-- HEM_DONE: the gateway has acknowledged every store, the manifest last, or has refused one or is lost (R418, R419). -/
def opHemDone (status : Code) (s : State) : State :=
  match s.ldg.hem with
  | none => s
  | some h =>
    if status ≠ h.fail.getD cDONE then s
    else
    match h.fail with
    | some code => s.hemEnd h code
    | none => if h.closing && !s.fab.reqsLeft (.ledger .hem) then (s.setF Fld.LDG_HEM_PROG_PCT 10000).hemEnd h cDONE else s

/-! ### Restore (R421 to R424) -/

/-- The local slot lies wholly in the map; one that a fold has taken a part of is not read (R260). -/
def State.slotLives (s : State) : Bool := s.mapped s.reserve.1 (s.reserve.2.1 - s.reserve.1)

/-- A part of a source in another device: what the fabric brought of it, or, where nothing has yet, the first such part noted as the one
to be read. -/
def State.restorePart (s : State) (w : RestorePart) : State × Code × List Byte :=
  match s.ldg.restore with
  | none => (s, cLINK_LOST, [])
  | some j =>
    match j.got.find? fun e => e.1 == w with
    | some e => (s, e.2)
    | none => (s.updLdg fun l => { l with restore := some { j with want := j.want.or (some w) } }, cLINK_LOST, [])

/-- Bytes of the primary source or the fallback from an offset (R421). -/
def State.sourceRead (s : State) (a : RestoreArgs) (fb : Bool) (off n : Nat) : State × Code × List Byte :=
  match if fb then a.fallback else some a.primary with
  | none => (s, cDIGEST_FAIL, [])
  | some x =>
    if n = 0 then (s, cDONE, [])
    else if x.here then (if s.slotLives then s.ownRead 3 (s.reserve.1 + off) n else (s, cRANGE, []))
    else s.restorePart ⟨fb, off, n⟩

/-- Number in a manifest. -/
def manNum (m : List Byte) (o n : Nat) : Nat := leNat ((m.drop o).take n)

/-- MAGIC and VERSION are those of a manifest. -/
def manMagic (m : List Byte) : Bool := m.take 4 == [0x44, 0x5A, 0x42, 0x4D] && manNum m 4 2 == 1

/-- SELF fits. -/
def manSelf (m : List Byte) : Bool := sha3 (m.take 7296) == (m.drop 7296).take 64

/-- The regions a manifest lists. -/
def manRegions (m : List Byte) : List ManRegion :=
  (List.range (min 64 (manNum m 7 1))).map fun i =>
    let o := 1152 + 96 * i
    ⟨manNum m o 8, manNum m (o + 8) 8, manNum m (o + 16) 8, manNum m (o + 24) 1 % 2 == 1, (m.drop (o + 32)).take 64⟩

/-- RNG image of a manifest. -/
def manRng (m : List Byte) : List (Word × Word) :=
  (List.range 64).map fun i => (BitVec.ofNat 64 (manNum m (128 + 16 * i) 8), BitVec.ofNat 64 (manNum m (136 + 16 * i) 8))

/-- The supplied cursor and counters against the manifest: the first item that disagrees, 64 for the cursor (R422). -/
def skewItem (m supplied : List Byte) : Option Nat :=
  if manNum supplied 0 8 ≠ manNum m 32 8 then some 64
  else (List.range 64).find? fun i => manNum supplied (8 + 8 * i) 8 != manNum m (136 + 16 * i) 8

/-- The manifest that governs a restore, or the code it fails with (step 1 of R422). -/
def State.restoreManifest (s : State) (a : RestoreArgs) : State × Code × List Byte :=
  let r := s.sourceRead a false 0 8192
  if r.2.1 ≠ cDONE then r
  else if !manMagic r.2.2 then (r.1, cRANGE, [])
  else if manSelf r.2.2 then r
  else
    let q := r.1.sourceRead a true 0 8192
    if q.2.1 = cDONE ∧ manMagic q.2.2 ∧ manSelf q.2.2 then q else (q.1, cDIGEST_FAIL, [])

/-- One region fetched from a source, written to its base and compared with its digest (R423). -/
def State.restoreRegion (s : State) (a : RestoreArgs) (fb : Bool) (off : Nat) (r : ManRegion) : State × Code :=
  let q := s.sourceRead a fb off r.len
  if q.2.1 ≠ cDONE then (q.1, q.2.1)
  else
    let w := q.1.ownWrite 3 r.base q.2.2
    if w.2 ≠ cDONE then w else (w.1, if bytesDigest r.base q.2.2 = r.digest then cDONE else cDIGEST_FAIL)

/-- The fallback's copy of a region: an entry with the same base, length and digest. -/
def fallbackOffset (m : List Byte) (r : ManRegion) : Option Nat :=
  ((manRegions m).find? fun q => q.base == r.base && q.len == r.len && q.digest == r.digest).map fun q => q.off

/-- The regions of a restore in table order, with their table numbers (R423): the code, and the regions written so far. -/
def restoreRegions (a : RestoreArgs) (wrote : List ManRegion) :
    List (Nat × ManRegion) → State → State × Code × List ManRegion
  | [], s => (s, cDONE, wrote)
  | (i, r) :: rs, s =>
    let q := s.restoreRegion a false r.off r
    let next := fun (s : State) => restoreRegions a (r :: wrote) rs (s.setF Fld.LDG_RESTORE_PROG_POSITION
      (regionBytes (r :: wrote) / 0x100000))
    if q.2 = cDONE then next q.1
    else if q.2 ≠ cDIGEST_FAIL then (q.1, q.2, r :: wrote)
    else
      let s := q.1.incF Fld.LDG_RESTORE_STATUS_FAILS
      let bad := fun (s : State) => (s.setF Fld.LDG_RESTORE_STATUS_FIRST_FAIL i, cDIGEST_FAIL, r :: wrote)
      let m := s.sourceRead a true 0 8192
      match if m.2.1 = cDONE then fallbackOffset m.2.2 r else none with
      | some off =>
        let q := m.1.restoreRegion a true off r
        if q.2 = cDONE then next (q.1.incF Fld.LDG_RESTORE_STATUS_REFETCHED) else bad q.1
      | none => bad m.1

/-- Regions of a manifest in SET, with their table numbers. -/
def inSet (set : Nat) (m : List Byte) : List (Nat × ManRegion) :=
  ((manRegions m).mapIdx fun i r => (i, r)).filter fun p => set == 0 || (set == 1) == p.2.shared

/-- The effects of a restore that completes with DONE beside its regions (R424). -/
def State.restoreCursor (s : State) (m : List Byte) : State :=
  let s := (manRng m).zipIdx.foldl (fun s p =>
    (s.setReg (RegId.LDG_RNG_KEY.addr p.2) p.1.1).setReg (RegId.LDG_RNG_CTR.addr p.2) p.1.2) s
  (s.setF Fld.LDG_CURSOR_CURSOR (manNum m 32 8)).setF Fld.LDG_STEP_NUMBER (manNum m 8 8)

/-- A restore (R422 to R424): its code. `supplied` is what the read of the supplied values gave, where they are needed. -/
def State.restoreRun (s : State) (a : RestoreArgs) (supplied : Code × List Byte) : State × Code :=
  let s := s.setFs [(Fld.LDG_RESTORE_STATUS_FIRST_FAIL, 0xFF), (Fld.LDG_RESTORE_STATUS_SKEW_ITEM, 0xFF),
    (Fld.LDG_RESTORE_STATUS_FAILS, 0), (Fld.LDG_RESTORE_STATUS_REFETCHED, 0), (Fld.LDG_RESTORE_PROG_POSITION, 0)]
  let r := s.restoreManifest a
  if r.2.1 ≠ cDONE then (r.1, r.2.1)
  else
    let m := r.2.2
    let s := r.1
    let check := !a.fromManifest && a.set != 1
    if check && supplied.1 != cDONE then (s, supplied.1)
    else
      match (if check then skewItem m supplied.2 else none) with
      | some i => (s.setF Fld.LDG_RESTORE_STATUS_SKEW_ITEM i, cRESTORE_SKEW)
      | none =>
        let l := inSet a.set m
        if !s.regionsOk (l.map Prod.snd) then (s, cRANGE)
        else
          let q := restoreRegions a [] l s
          if q.2.1 ≠ cDONE then (q.2.2.foldl (fun s r => s.openBytes r.base r.len) q.1, q.2.1)
          else (if a.set = 1 then q.1 else q.1.restoreCursor m, cDONE)

/-! ### Membership epochs (R425, R426) -/

/-- Early records that the epoch change aborts (R426): of stale groups, and without an abort yet. -/
def State.earlyStale (s : State) (p : BitVec 12 → Bool) : List EarlyRec := s.fab.early.filter fun e => p e.group && e.abort.isNone

/-- The rank of the bay of an early record. -/
def State.earlyRank (s : State) (e : EarlyRec) : Nat := (s.rankOf e.group (coordOf s.devCoord e.bay.toNat)).getD 0

/-- Early-recorded collectives of stale groups abort (R426): each record keeps the abort, and where no bay of the device has the
collective open, which has told them already, the members are told once, with the device's lowest rank as detector (R227). -/
def State.abortEarly (s : State) (code : Code) (p : BitVec 12 → Bool) (told : List (BitVec 12 × BitVec 32)) : State :=
  let all := s.earlyStale p
  ((all.map fun e => (e.group, e.seq)).eraseDups).foldl (fun s k =>
    let mine := all.filter fun e => (e.group, e.seq) == k
    let low := (mine.map s.earlyRank).foldl min ((mine.head?.map s.earlyRank).getD 0)
    let early := s.fab.early.map fun x => if mine.contains x then { x with abort := some (code, low), since := s.now } else x
    let s := { s with fab := { s.fab with early := early } }
    if told.contains k then s
    else
      let own := mine.map fun e => (coordOf s.devCoord e.bay.toNat).toNat
      s.sendAborts ((mine.head?.map fun e => e.bay).getD 0) k.1 k.2 low cABORTED_GROUP low
        ((s.members k.1).filter fun m => !own.contains m)) s

/-- The epoch change (R426): CURRENT becomes NEXT, and collectives of groups with another epoch abort. -/
def State.epochChange (s : State) : State :=
  let s := s.launchFired (s.getF Fld.ABR_EPOCH_MARK_MARK) s.now
  let s := s.setFs [(Fld.ABR_EPOCH_CURRENT, s.getF Fld.ABR_EPOCH_NEXT), (Fld.ABR_EPOCH_CTRL_STATE, 2)]
  let stale := fun (g : BitVec 12) => s.getF (Fld.ABR_GRP_W1_EPOCH g.toNat) != s.getF Fld.ABR_EPOCH_CURRENT
  let open_ := (s.openColls.filter fun e => stale e.2.blk.group).map fun e => (e.2.blk.group, e.2.blk.seq)
  let keys := (open_ ++ (s.earlyStale stale).map fun e => (e.group, e.seq)).eraseDups
  ((s.abortDevice cEPOCH_STALE stale).abortEarly cEPOCH_STALE stale open_).incF Fld.ABR_EPOCH_CTRL_ABORTS keys.length

/-- EPOCH_CHANGE_AT_MARK (R426); a mark that passes in HOLD fires on leaving HOLD (R367). -/
def opEpochChange (s : State) : State :=
  if s.getF Fld.ABR_EPOCH_CTRL_STATE = 1 ∧ s.getF Fld.ABR_EPOCH_MARK_MARK ≤ s.now ∧ s.devState ≠ stHOLD then s.epochChange else s

/-- The states and the condition under which the epoch registers are written (R426). -/
def State.epochOpen (s : State) : Bool :=
  (s.jobStates || s.devState == stHOLD) && s.getF Fld.ABR_EPOCH_CTRL_STATE != 1

/-- A write of `ABR_EPOCH` or `ABR_EPOCH_MARK` (R426). -/
def writeEpoch (r : RegId) (v : Word) (s : State) : State × Code := s.stateWrite r 0 v s.epochOpen

/-- A write of `ABR_EPOCH_CTRL` (R426): ARM arms the change, and a mark already passed fires at once. -/
def writeEpochCtrl (v : Word) (s : State) : State × Code :=
  if Fld.ABR_EPOCH_CTRL_ARM.of v = 0 then (s, cDONE)
  else if !s.epochOpen then (s, cSTATE_REJECT)
  else (opEpochChange (s.setF Fld.ABR_EPOCH_CTRL_STATE 1), cDONE)

/-! ### Register writes (R434, R435) -/

/-- A baste, a hem or a restore runs (R434). -/
def State.securing (s : State) : Bool := s.basteRuns || s.ldg.hem.isSome || s.ldg.restore.isSome

/-- A write of `LDG_SEC_A` or `LDG_SEC_B` (R434). -/
def writeSec (r : RegId) (i : Nat) (v : Word) (s : State) : State × Code :=
  s.stateWrite r i v (s.devState == stREADY && !s.securing)

/-- A write of `LDG_RES` (R434, R435). -/
def writeRes (v : Word) (s : State) : State × Code :=
  s.guarded .LDG_RES 0 0 v (s.devState == stREADY && !s.securing) cSTATE_REJECT fun s =>
    let l := Fld.LDG_RES_LOCAL_GIB.of v
    let p := Fld.LDG_RES_PEER_GIB.of v
    let ok := decide (l + p ≤ 256) && decide (Fld.LDG_RES_BASE.of v + l + p ≤ s.getF Fld.HBM_CAP_LIVE_BANDS * 4)
    s.limitedWrite .LDG_RES 0 0 v [(Fld.LDG_RES_LOCAL_GIB, ok), (Fld.LDG_RES_PEER_GIB, ok), (Fld.LDG_RES_BASE, ok)]

/-- A write of `LDG_BASTE_CTRL` (R412, R435). -/
def writeBasteCtrl (v : Word) (s : State) : State × Code :=
  if Fld.LDG_BASTE_CTRL_PARTNER.of v ≠ s.getF Fld.LDG_BASTE_CTRL_PARTNER ∧ s.basteState = 3 then (s, cSTATE_REJECT)
  else
    let t := Fld.LDG_BASTE_CTRL_TRICKLE.of v
    let n := Fld.LDG_BASTE_CTRL_S.of v
    let w := s.limitedWrite .LDG_BASTE_CTRL 0 0 v
      [(Fld.LDG_BASTE_CTRL_TRICKLE, decide (1 ≤ t) && decide (t ≤ 100)), (Fld.LDG_BASTE_CTRL_S, decide (1 ≤ n) && decide (n ≤ 4096))]
    (if Fld.LDG_BASTE_CTRL_FORCE.of v = 1 then w.1.basteForce else w.1, w.2)

/-- A write of `LDG_CURSOR` (R434). -/
def writeCursor (v : Word) (s : State) : State × Code := s.stateWrite .LDG_CURSOR 0 v s.jobStates

/-! ### The meanings -/

/-- BASTE_PARTNERED (R416). -/
def execBastePartnered (status : Code) (s : State) : Res := .next (opPartnered status s)

/-- RISK_UPDATE (R413). -/
def execRiskUpdate (s : State) : Res := .next (opRiskUpdate s)

/-- EPOCH_CHANGE_AT_MARK (R426). -/
def execEpochChangeAtMark (s : State) : Res := .next (opEpochChange s).settled

/-- LEASE_EXPIRY (R429). -/
def execLeaseExpiry (s : State) : Res := .next (opLeaseExpiry s)

/-- LEASE_GRACE_EXPIRY (R429). -/
def execLeaseGraceExpiry (s : State) : Res := .next (opLeaseGrace s).settled

/-- HEM_DONE (R418). -/
def execHemDone (status : Code) (s : State) : Res := .next (opHemDone status s)

end Sys2Proof.Machine
end

