-- ==== Sys2Proof/Machine/HostIf.lean ====
section
/-! DEFINITION. The rings of the host interface (R446 to R454, R466, R467, R471): fetching, the launch queue, records, messages, and
the writes of their registers. -/

namespace Sys2Proof.Machine

/-- Code of a failed read of host memory (R467). -/
def hostReadCode : HostReadResult → Code
  | .data _ => cDONE
  | .unsupported | .completerAbort => cACCESS_DENIED
  | .poison => cMEM_UNCORRECTABLE
  | .timeout => cTIMEOUT

/-- The rings run (R465). -/
def State.ringsRun (s : State) : Bool := decide (stREADY ≤ s.devState) && decide (s.devState ≤ stQUARANTINE)

/-! ### Submission rings (R447, R448, R471) -/

/-- Entries of a submission ring. -/
def State.sqSize (s : State) (q : Nat) : Nat := 2 ^ s.getF (Fld.MSC_SQ_CFG_SIZE_LOG2 q)

/-- Entries of a completion ring. -/
def State.cqSize (s : State) (q : Nat) : Nat := 2 ^ s.getF (Fld.MSC_CQ_CFG_SIZE_LOG2 q)

/-- Records written to a ring since it was enabled. -/
def State.cqWritten (s : State) (q : Nat) : Nat := smapGet (fun _ => 0) s.host.written q

/-- The device's tail. -/
def State.cqTail (s : State) (q : Nat) : Nat := s.cqWritten q % s.cqSize q

/-- PHASE of the next record (R449). -/
def State.cqPhase (s : State) (q : Nat) : Nat := if s.cqWritten q / s.cqSize q % 2 = 0 then 1 else 0

/-- The ring runs and is not full (R447). -/
def State.cqRoom (s : State) (q : Nat) : Bool :=
  s.getF (Fld.MSC_CQ_CFG_EN q) == 1 && s.getF (Fld.MSC_CQ_CFG_STATE q) == 1
    && (s.cqTail q + 1) % s.cqSize q != s.getF (Fld.MSC_CQ_HEAD_HEAD q)

/-! ### Descriptors (R452, R453) -/

/-- Bits of P0 to P5 that an opcode names (R456); `none` for an opcode not listed. -/
def operandMasks (op : Nat) : Option (List Nat) :=
  let w := 2 ^ 64 - 1
  let a := 2 ^ 48 - 1
  match op with
  | 0x01 => some []
  | 0x02 => some [w, 2 ^ 63 + 0x3F * 2 ^ 56 + a, w]
  | 0x03 => some [w, a, w]
  | 0x04 => some [a, w, w]
  | 0x05 => some [a, w, w]
  | 0x06 => some [w, w]
  | 0x07 => some [a, 0x1FFFF, a, w]
  | 0x10 => some [w, 0x1FFFF]
  | 0x11 => some [w, 1]
  | 0x12 => some []
  | 0x13 => some []
  | 0x14 => some []
  | 0x20 => some []
  | 0x21 => some [0xFFFFFFF, a, 0xFF]
  | 0x22 => some [0xFF, 0xFFFFFFF, a, 0xFFFFFFF, a, w]
  | 0x23 => some [7]
  | 0x24 => some [w, w, w, 1]
  | 0x30 => some []
  | 0x31 => some [0x1FF]
  | 0x32 => some [0xFF]
  | 0x33 => some [0xFFFF, w]
  | _ => none

/-- Operand `i` of a command. -/
def HostCmd.op_ (c : HostCmd) (i : Nat) : Word := c.p.getD i 0

/-- Bits of an operand. -/
def HostCmd.f (c : HostCmd) (i lo width : Nat) : Nat := fieldOf (c.op_ i) lo width

/-- A 64-byte descriptor as command `k` of ring `q`. -/
def cmdOf (k q : Nat) (bs : List Byte) : HostCmd :=
  { k := k, sq := q, cid := BitVec.ofNat 16 (manNum bs 2 2), op := manNum bs 0 1, flags := manNum bs 1 1, pstep := manNum bs 4 1
    mark := BitVec.ofNat 64 (manNum bs 8 8), p := (List.range 6).map fun i => BitVec.ofNat 64 (manNum bs (16 + 8 * i) 8)
    stage := .fetched, late := none, reads := [], toRead := 0, entries := [], total := 0, moved := 0, dma := 0, pieces := []
    fail := none, shown := 0 }

/-- Step 1 of R453: the opcode is listed, the flags are legal for it, and what is reserved is zero. PROG is legal for a long
operation, with PSTEP 1 to 100 (DEDUCED). -/
def formatOk (c : HostCmd) (bs : List Byte) : Bool :=
  match operandMasks c.op with
  | none => false
  | some m =>
    decide (c.flags < 16) && manNum bs 5 3 == 0
      && (if c.flags.testBit 3 then (progressOf c.op).isSome && decide (1 ≤ c.pstep) && decide (c.pstep ≤ 100) else c.pstep == 0)
      && (if c.launched then c.op != 0x33 else c.mark == 0)
      && ((List.range 6).all fun i => c.op_ i &&& ~~~ (BitVec.ofNat 64 (m.getD i 0)) == 0)
      && (c.op != 0x04 || destClean (c.op_ 1))

/-! ### The launch queue (R366, R367, R466) -/

/-- The launched commands that wait, in the order in which they fire. -/
def State.launchQueue (s : State) : List HostCmd :=
  sortedBy (fun a b => decide (a.mark.toNat ≤ b.mark.toNat)) (s.host.cmds.filter fun c => c.stage == .launch)

/-- A launched command fires: it is started by its own row. -/
def State.fire (s : State) (c : HostCmd) : State :=
  (s.launchFired c.mark.toNat s.now).setCmd { c with stage := .fetched, late := some (s.now - c.mark.toNat) }

/-- LAUNCH_FIRE: the head of the launch queue reaches its mark; in HOLD it waits (R366, R367). -/
def opLaunchFire (s : State) : State :=
  match s.launchQueue with
  | [] => s
  | c :: _ => if s.ringsRun && s.devState != stHOLD && decide (c.mark.toNat ≤ s.now) then s.fire c else s

/-- A fetched launched command is placed in the launch queue: 256 entries, and a mark already passed fires at once. -/
def State.queueLaunch (s : State) (c : HostCmd) : State :=
  if 256 ≤ s.launchQueue.length then s.finishCmd c.k cCAPACITY
  else if c.mark.toNat ≤ s.now then s.fire c
  else s.setCmd { c with stage := .launch }

/-! ### Fetching (R448, R453) -/

/-- Ring `q` is ready: it runs, holds a descriptor, and a completion ring has room for it; an entry into PATROL stops fetching (R448,
R514). -/
def State.sqReady (s : State) (q : Nat) : Bool :=
  s.ringsRun && s.getF Fld.TPC_POWER_ENTRY == 0 && s.getF (Fld.MSC_SQ_CFG_EN q) == 1 && s.getF (Fld.MSC_SQ_CFG_STATE q) == 1
    && s.getF (Fld.MSC_SQ_STATUS_HEAD q) != s.getF (Fld.MSC_SQ_TAIL_TAIL q) && decide (s.host.cmds.length < 1024)
    && s.cqRoom (s.getF (Fld.MSC_SQ_CFG_CQ q))

/-- WEIGHT of a ring; 0 acts as 1 (R471). -/
def State.sqWeight (s : State) (q : Nat) : Nat := max 1 (s.getF (Fld.MSC_SQ_CFG_WEIGHT q))

/-- The ring on turn may take a further descriptor in this turn. -/
def State.turnLeft (s : State) : Bool := decide (s.host.turn.2 < s.sqWeight s.host.turn.1)

/-- The ready ring that the weighted round robin serves next: the one on turn while its WEIGHT allows, and then the next in number
(R448). -/
def State.nextRing (s : State) : Option Nat :=
  let after := (List.range 16).map fun i => (s.host.turn.1 + 1 + i) % 16
  (if s.turnLeft then s.host.turn.1 :: after else after).find? s.sqReady

/-- The turn after `n` descriptors of ring `q`: counted on in the ring's turn, or from the start of its next. -/
def State.takeTurn (s : State) (q n : Nat) : Nat × Nat :=
  (q, if q = s.host.turn.1 ∧ s.turnLeft then s.host.turn.2 + n else n)

/-- Ring `q` may fetch its next descriptor now; one with ORDER waits for the ring's earlier commands (R448, R452). -/
def State.mayFetch (s : State) (q : Nat) (order : Bool) : Bool :=
  s.nextRing == some q && (!order || s.outstanding q == 0)

/-- The descriptor's ring position moves on, and the command is held. -/
def State.takeDescriptor (s : State) (q : Nat) (c : HostCmd) : State :=
  ((s.setF (Fld.MSC_SQ_STATUS_HEAD q) ((s.getF (Fld.MSC_SQ_STATUS_HEAD q) + 1) % s.sqSize q)).incF
    (Fld.MSC_SQ_STATUS_FETCHED q)).updHost fun h => { h with next := h.next + 1, cmds := h.cmds ++ [c], turn := s.takeTurn q 1 }

/-- DESCRIPTOR_FETCH (R448, R453, R466, R467). The command's own row makes the remaining checks and starts it. A ring whose next
descriptor waits for its ORDER gives up its turn (log 50). -/
def opDescriptorFetch (q : Nat) (r : HostReadResult) (s : State) : State :=
  match r with
  | .data bs =>
    let c := cmdOf s.host.next q bs
    if bs.length ≠ 64 ∨ !s.mayFetch q false then s
    else if !s.mayFetch q (c.flags.testBit 1) then s.updHost fun h => { h with turn := s.takeTurn q (s.sqWeight q) }
    else
      let s := s.takeDescriptor q c
      if !formatOk c bs then s.finishCmd c.k cMALFORMED
      else if c.launched then s.queueLaunch c
      else s
  | r =>
    if !s.mayFetch q false then s
    else
      (s.setF (Fld.MSC_SQ_CFG_STATE q) 2).hostErr 3 q (hostReadCode r)
        (s.getF (Fld.MSC_SQ_BASE_BASE q) * 4096 + 64 * s.getF (Fld.MSC_SQ_STATUS_HEAD q))

/-! ### Records and messages (R449 to R451) -/

/-- The message of a vector fails: it stays pending, and is recorded as KIND 5 (R467); a masked one is held and not sent. -/
def State.failMsi (s : State) (v : Nat) : State :=
  if s.getF (Fld.MSC_MSIX_CTRL_MASK v) = 1 then s.sendMsi v
  else
    (s.setF Fld.MSC_MSIX_PBA_PENDING (s.getF Fld.MSC_MSIX_PBA_PENDING ||| 2 ^ v)).hostErr 5 0 cACCESS_DENIED
      (s.getF (Fld.MSC_MSIX_ADDR_ADDR v))

/-- The message of a ring sent, or failed. -/
def State.ringMessage (s : State) (q : Nat) (fails : Bool) : State :=
  let t := s.updHost fun h => { h with since := smapSet (fun _ => 0) h.since q 0 }
  let v := s.getF (Fld.MSC_CQ_CFG_VECTOR q)
  if fails then t.failMsi v else t.sendMsi v

/-- Records of a ring since its last message. -/
def State.sinceOf (s : State) (q : Nat) : Nat := smapGet (fun _ => 0) s.host.since q

/-- A record written counts towards the ring's message (R451). -/
def State.coalesce (s : State) (q : Nat) (fails : Bool) : State :=
  if s.getF (Fld.MSC_CQ_CFG_INT_EN q) = 0 then s
  else
    let n := s.sinceOf q + 1
    let s := s.updHost fun h => { h with since := smapSet (fun _ => 0) h.since q n }
    if s.getF (Fld.MSC_CQ_CFG_COAL_CNT q) ≤ n then s.ringMessage q fails else s

/-- The oldest record of a ring written at its tail. -/
def State.writeRecord (s : State) (q : Nat) (r : Record) (rest : List Record) (fails : Bool) : State :=
  let s := s.hostWrite (s.getF (Fld.MSC_CQ_BASE_BASE q) * 4096 + 32 * s.cqTail q) (s.recordBytes r (s.cqPhase q))
  let s := (s.setWaiting q rest).updHost fun h => { h with written := smapSet (fun _ => 0) h.written q (s.cqWritten q + 1) }
  s.coalesce q fails

/-- COMPLETION_RECORD_WRITE (R449, R467): a failed write halts the ring, and its records wait. -/
def opRecordWrite (q : Nat) (ok : RecordWrite) (s : State) : State :=
  match s.waitingOf q with
  | [] => s
  | r :: rest =>
    if !s.ringsRun || !s.cqRoom q then s
    else if ok ≠ .failed then s.writeRecord q r rest (ok == .messageFailed)
    else
      (s.setF (Fld.MSC_CQ_CFG_STATE q) 2).hostErr 4 q cACCESS_DENIED
        (s.getF (Fld.MSC_CQ_BASE_BASE q) * 4096 + 32 * s.cqTail q)

/-- INTERRUPT_COALESCE_TIMEOUT (R451). -/
def opCoalesceTimeout (q : Nat) (s : State) : State :=
  if s.getF (Fld.MSC_CQ_CFG_INT_EN q) = 1 ∧ 0 < s.getF (Fld.MSC_CQ_CFG_COAL_US q) ∧ 0 < s.sinceOf q then s.ringMessage q false else s

/-! ### Writes of ring registers (R448, R451, R467, R471, R472) -/

/-- A write of `MSC_SQ_TAIL`: beyond the ring's size it is ignored (R467). -/
def writeSqTail (q : Nat) (v : Word) (s : State) : State × Code :=
  let t := Fld.MSC_SQ_TAIL_TAIL q |>.of v
  if s.sqSize q ≤ t then (s, cRANGE) else (s.setF (Fld.MSC_SQ_TAIL_TAIL q) t, cDONE)

/-- A write of `MSC_CQ_HEAD`: past the device's tail it is ignored (R467). -/
def writeCqHead (q : Nat) (v : Word) (s : State) : State × Code :=
  let n := s.cqSize q
  let h := Fld.MSC_CQ_HEAD_HEAD q |>.of v
  let old := s.getF (Fld.MSC_CQ_HEAD_HEAD q)
  if n ≤ h ∨ (s.cqTail q + n - old) % n < (h + n - old) % n then (s, cRANGE) else (s.setF (Fld.MSC_CQ_HEAD_HEAD q) h, cDONE)

/-- A write of a ring's base: refused while the ring is enabled (R471). -/
def writeSqBase (q : Nat) (v : Word) (s : State) : State × Code := s.stateWrite .MSC_SQ_BASE q v (s.getF (Fld.MSC_SQ_CFG_EN q) == 0)
def writeCqBase (q : Nat) (v : Word) (s : State) : State × Code := s.stateWrite .MSC_CQ_BASE q v (s.getF (Fld.MSC_CQ_CFG_EN q) == 0)

/-- A legal ring size (R471). -/
def sizeOk (n : Nat) : Bool := decide (4 ≤ n) && decide (n ≤ 16)

/-- A write of `MSC_SQ_CFG` (R471): setting EN resets the ring, clearing it stops fetching. -/
def writeSqCfg (q : Nat) (v : Word) (s : State) : State × Code :=
  let old := s.reg (RegId.MSC_SQ_CFG.addr q)
  let on := s.getF (Fld.MSC_SQ_CFG_EN q) == 1
  let differs := fun (f : Field) => f.of v != f.of old
  if on && (differs (Fld.MSC_SQ_CFG_SIZE_LOG2 q) || differs (Fld.MSC_SQ_CFG_CQ q)) then (s, cSTATE_REJECT)
  else
    let w := s.limitedWrite .MSC_SQ_CFG q 0 v [(Fld.MSC_SQ_CFG_SIZE_LOG2 q, sizeOk ((Fld.MSC_SQ_CFG_SIZE_LOG2 q).of v))]
    let now := w.1.getF (Fld.MSC_SQ_CFG_EN q) == 1
    if now && !on then
      (w.1.setFs [(Fld.MSC_SQ_STATUS_HEAD q, 0), (Fld.MSC_SQ_TAIL_TAIL q, 0), (Fld.MSC_SQ_CFG_STATE q, 1)], w.2)
    else (w.1.ringOff q, w.2)

/-- A write of `MSC_CQ_CFG` (R471). -/
def writeCqCfg (q : Nat) (v : Word) (s : State) : State × Code :=
  let old := s.reg (RegId.MSC_CQ_CFG.addr q)
  let on := s.getF (Fld.MSC_CQ_CFG_EN q) == 1
  let differs := fun (f : Field) => f.of v != f.of old
  let used := (List.range 16).any fun i => s.getF (Fld.MSC_SQ_CFG_EN i) == 1 && s.getF (Fld.MSC_SQ_CFG_CQ i) == q
  if on && (differs (Fld.MSC_CQ_CFG_SIZE_LOG2 q) || differs (Fld.MSC_CQ_CFG_VECTOR q)
      || ((Fld.MSC_CQ_CFG_EN q).of v == 0 && used)) then (s, cSTATE_REJECT)
  else
    let w := s.limitedWrite .MSC_CQ_CFG q 0 v [(Fld.MSC_CQ_CFG_SIZE_LOG2 q, sizeOk ((Fld.MSC_CQ_CFG_SIZE_LOG2 q).of v)),
      (Fld.MSC_CQ_CFG_VECTOR q, (Fld.MSC_CQ_CFG_VECTOR q).of v != 0)]
    let now := w.1.getF (Fld.MSC_CQ_CFG_EN q) == 1
    if now && !on then
      ((w.1.updHost fun h => { h with
          written := smapSet (fun _ => 0) h.written q 0, since := smapSet (fun _ => 0) h.since q 0 }).setFs
        [(Fld.MSC_CQ_HEAD_HEAD q, 0), (Fld.MSC_CQ_CFG_STATE q, 1)], w.2)
    else if now then w
    else (w.1.setF (Fld.MSC_CQ_CFG_STATE q) 0, w.2)

/-- A write of the control word of an MSI-X entry: a message that was held while masked is sent once it is unmasked (R451). -/
def writeMsix (i : Nat) (v : Word) (s : State) : State × Code :=
  let s := s.plainWrite .MSC_MSIX_CTRL i 0 v
  let p := s.getF Fld.MSC_MSIX_PBA_PENDING
  if s.getF (Fld.MSC_MSIX_CTRL_MASK i) = 0 ∧ p.testBit i then ((s.setF Fld.MSC_MSIX_PBA_PENDING (p - 2 ^ i)).sendMsi i, cDONE)
  else (s, cDONE)

/-! ### Reset of the host interface (R445) -/

/-- The host interface reset: rings off, launch queue empty, records discarded, MSI-X as after reset; commands run on without
a ring. -/
def State.resetHostIf (s : State) : State :=
  let s := s.updHost fun h => { h with
    cmds := (h.cmds.filter fun c => c.stage != .launch).map fun c => { c with sq := noRing }
    turn := HostIf.reset.turn, waiting := [], written := [], since := [], late := [] }
  let s := (List.range 16).foldl (fun s q => s.setFs [(Fld.MSC_SQ_CFG_EN q, 0), (Fld.MSC_SQ_CFG_STATE q, 0), (Fld.MSC_CQ_CFG_EN q, 0),
    (Fld.MSC_CQ_CFG_STATE q, 0), (Fld.MSC_SQ_STATUS_HEAD q, 0), (Fld.MSC_SQ_TAIL_TAIL q, 0), (Fld.MSC_CQ_HEAD_HEAD q, 0)]) s
  ((List.range 64).foldl (fun s i => (s.setReg (RegId.MSC_MSIX_ADDR.addr i) (regDefault (RegId.MSC_MSIX_ADDR.addr i))).setReg
    (RegId.MSC_MSIX_CTRL.addr i) (regDefault (RegId.MSC_MSIX_CTRL.addr i))) s).setF Fld.MSC_MSIX_PBA_PENDING 0

/-! ### The meanings -/

/-- DESCRIPTOR_FETCH (R453). -/
def execDescriptorFetch (q : Fin 16) (r : HostReadResult) (s : State) : Res := .next (opDescriptorFetch q r s)

/-- COMPLETION_RECORD_WRITE (R449). -/
def execCompletionRecordWrite (q : Fin 16) (ok : RecordWrite) (s : State) : Res := .next (opRecordWrite q ok s)

/-- INTERRUPT_COALESCE_TIMEOUT (R451). -/
def execInterruptCoalesceTimeout (q : Fin 16) (s : State) : Res := .next (opCoalesceTimeout q s)

/-- FUNCTION_LEVEL_RESET: a Function Level Reset, a hot reset or a link-down (R445). -/
def execFunctionLevelReset (_k : HostReset) (s : State) : Res := .next s.resetHostIf

/-- LAUNCH_FIRE (R366). -/
def execLaunchFire (s : State) : Res := .next (opLaunchFire s)

end Sys2Proof.Machine
end

