-- ==== Sys2Proof/Machine/HostCmd.lean ====
section
/-! DEFINITION. The host commands (R453, R456 to R461, R464, R465) but REG_WRITE and CIRCUIT. -/

namespace Sys2Proof.Machine

/-! ### Starting a command (R453, R461, R464, R465) -/

/-- The device states in which an opcode is allowed (R465). -/
def opStates (op st : Nat) : Bool :=
  let all := st == stREADY || st == stRUN || st == stHOLD || st == stHELD || st == stQUARANTINE
  let job := st == stRUN || st == stQUARANTINE
  match op with
  | 0x01 | 0x06 | 0x21 | 0x24 => all
  | 0x03 | 0x23 => all && st != stHOLD
  | 0x02 | 0x05 | 0x04 | 0x07 | 0x30 | 0x31 | 0x32 | 0x20 => st == stREADY || job
  | 0x10 | 0x22 | 0x33 | 0x11 => st == stREADY
  | 0x12 => job || st == stHOLD
  | 0x13 => job
  | 0x14 => st == stHOLD
  | _ => false

/-- The state that a command is checked against: HOLD once a HOLD waits for the data commands (R461). -/
def State.cmdState (s : State) : Nat := if s.host.holdAsked.isSome then stHOLD else s.devState

/-- What the checks of R453 look at for an opcode: a condition that is no device state (R465), the code of its operands, and the
device ranges it names with what it does there. -/
structure CmdChecks where
  busy : Bool
  operands : Code
  ranges : List (Nat × Nat × Perms)

/-- Nothing to check. -/
def CmdChecks.none : CmdChecks := ⟨false, cDONE, []⟩

/-- Ranges passed by the Host class, the first denied deciding (step 4 of R453). -/
def passRanges : List (Nat × Nat × Perms) → State → State × Bool
  | [], s => (s, true)
  | (a, n, p) :: rs, s =>
    let x := s.access .host s.devCoord p a n
    if x.2 then passRanges rs x.1 else x

/-- Steps 2 to 4 of R453 for the fetched command `k` of an opcode, and its start. A job that has ended ends first (R465); during an
entry into PATROL only NOP runs (R513). -/
def State.begin (s : State) (k op : Nat) (chk : State → HostCmd → CmdChecks) (run : HostCmd → State → State) : State :=
  match s.cmd k with
  | none => s
  | some c =>
    if c.op ≠ op ∨ c.stage ≠ .fetched then s
    else
      let s := s.endJob
      let x := chk s c
      if !opStates op s.cmdState || x.busy || (op != 0x01 && s.getF Fld.TPC_POWER_ENTRY != 0) then s.finishCmd k cSTATE_REJECT
      else if x.operands ≠ cDONE then s.finishCmd k x.operands
      else
        let p := passRanges x.ranges s
        if !p.2 then p.1.finishCmd k cACCESS_DENIED
        else
          let c := { c with stage := .running }
          run c (p.1.setCmd c)

/-- Misalignment before range (step 3 of R453). -/
def operandCode (mal rng : Bool) : Code := if mal then cMALFORMED else if rng then cRANGE else cDONE

/-! ### HOLD after the data commands (R461) -/

/-- A WRITE, READ, COPY or FILL is in execution. -/
def State.dataBusy (s : State) : Bool :=
  s.host.cmds.any fun c => c.stage == .running && (c.op == 2 || c.op == 3 || c.op == 4 || c.op == 5)

/-- HOLD entered once no data command is in execution. -/
def State.holdGo (s : State) : State :=
  match s.host.holdAsked with
  | none => s
  | some k =>
    if s.dataBusy then s
    else
      let st := s.devState
      let s := s.updHost fun h => { h with holdAsked := none }
      if st = stRUN ∨ st = stQUARANTINE then
        (((s.updHost fun h => { h with before := st }).setDevState stHOLD).tickEvent).finishCmd k cDONE
      else s.finishCmd k cSTATE_REJECT

/-- A data command ends. -/
def State.finishData (s : State) (k : Nat) (code : Code) (result : Word := 0) : State :=
  (s.finishCmd k code 0 result).holdGo.beyondFolds

/-! ### Host DMA (R457, R459, R467) -/

/-- The pieces in which host DMA moves a range. -/
def dmaPieces (n : Nat) : List (Nat × Nat) := cutParts 4096 n

/-- Bytes of device memory read by host DMA (R509: a stack in self-refresh wakes). -/
def State.dmaRead (s : State) (a n : Nat) : State × Code × List Byte := (s.wakeStacks a n).devRead 1 a n

/-- Bytes written to device memory by host DMA. -/
def State.dmaWrite (s : State) (a : Nat) (bs : List Byte) : State × Code := (s.wakeStacks a bs.length).devWrite 1 a bs

/-- Checks of a host DMA command on `n` bytes of device memory (R457). -/
def dataChecks (s : State) (mal : Bool) (lo hi a n : Nat) (p : Perms) : CmdChecks :=
  ⟨false, operandCode mal (decide (n < lo) || decide (hi < n) || !s.inMemory a n), [(a, n, p)]⟩

/-- A DIG write covers exactly the enabled region it names (R457). -/
def State.digOk (s : State) (dig : Bool) (i a n : Nat) : Bool :=
  !dig || (s.getF (Fld.LDG_REGION_A_EN i) == 1 && decide (0 < n) && s.regionAt i == (a, n))

/-- The code of a device range and DIG field of a WRITE or of a load list entry. -/
def State.writeOk (s : State) (dev len : Word) : Bool :=
  let n := len.toNat
  let a := fieldOf dev 0 48
  decide (1 ≤ n) && decide (n ≤ 2 ^ 40) && s.inMemory a n && s.digOk (dev.getLsbD 63) (fieldOf dev 56 6) a n

/-- The read of host memory that a WRITE or a load list entry needs. -/
def hostReadOf (host dev len : Word) : HostRead :=
  ⟨host.toNat, len.toNat, fieldOf dev 0 48, if dev.getLsbD 63 then some (fieldOf dev 56 6) else none, []⟩

/-- WRITE (R457). -/
def opWrite (k : Nat) (s : State) : State :=
  s.begin k 0x02
    (fun s c => ⟨false, operandCode false (!s.writeOk (c.op_ 1) (c.op_ 2)), [(c.f 1 0 48, (c.op_ 2).toNat, permW)]⟩)
    fun c s => s.setCmd { c with reads := [hostReadOf (c.op_ 0) (c.op_ 1) (c.op_ 2)] }

/-- The bytes of a READ moved, piece by piece; a failure leaves what was written (R457). -/
def readPieces (host dev : Nat) : List (Nat × Nat) → State → State × Code
  | [], s => (s, cDONE)
  | (o, n) :: ps, s =>
    let r := s.dmaRead (dev + o) n
    if r.2.1 ≠ cDONE then (r.1, r.2.1) else readPieces host dev ps (r.1.hostWrite (host + o) r.2.2)

/-- A data command that the device's state allows (R465) waits while a range it names lies on a pseudo-channel in retraining (R255),
or in bay memory whose die has no clock (R30). -/
def State.cmdWaits (s : State) (k : Nat) (ranges : HostCmd → List (Nat × Nat)) : Bool :=
  (s.cmd k).any fun c => opStates c.op s.endJob.cmdState && (ranges c).any fun p => !s.served p.1 p.2

/-- READ (R457). -/
def opRead (k : Nat) (s : State) : State :=
  if s.cmdWaits k fun c => [(c.f 1 0 48, (c.op_ 2).toNat)] then s else
  s.begin k 0x03 (fun s c => dataChecks s false 1 (2 ^ 40) (c.f 1 0 48) (c.op_ 2).toNat permR) fun c s =>
    let r := readPieces (c.op_ 0).toNat (c.f 1 0 48) (dmaPieces (c.op_ 2).toNat) s
    r.1.finishData k r.2

/-- A pattern written over the pieces of a FILL. -/
def fillPieces (dev : Nat) (pat : List Byte) : List (Nat × Nat) → State → State × Code
  | [], s => (s, cDONE)
  | (o, n) :: ps, s =>
    let w := s.dmaWrite (dev + o) ((List.replicate (n / 8) pat).flatten)
    if w.2 ≠ cDONE then w else fillPieces dev pat ps w.1

/-- FILL (R456). -/
def opFill (k : Nat) (s : State) : State :=
  if s.cmdWaits k fun c => [((c.op_ 0).toNat, (c.op_ 1).toNat)] then s else
  s.begin k 0x05
    (fun s c => dataChecks s (decide ((c.op_ 0).toNat % 8 ≠ 0) || decide ((c.op_ 1).toNat % 8 ≠ 0)) 0 (2 ^ 64) (c.op_ 0).toNat
      (c.op_ 1).toNat permW) fun c s =>
    let r := fillPieces (c.op_ 0).toNat (leBytes 8 (c.op_ 2).toNat) (dmaPieces (c.op_ 1).toNat) s
    r.1.finishData k r.2

/-! ### Load lists and data from the host (R459) -/

/-- `MSC_LOAD_PROG` of a load: bytes copied of all. -/
def State.loadProg (s : State) (st done total : Nat) (code : Code) : State :=
  (s.setFs [(Fld.MSC_LOAD_PROG_PCT, if total = 0 then (if st = 2 then 10000 else 0) else 10000 * done / total),
    (Fld.MSC_LOAD_PROG_STATE, st), (Fld.MSC_LOAD_PROG_CODE, code.toNat), (Fld.MSC_LOAD_PROG_POSITION, done / 0x100000)])

/-- A command whose data comes from the host ends (R457, R459). -/
def State.endHostData (s : State) (c : HostCmd) (code : Code) : State :=
  if c.op = 0x10 then
    let s := s.loadProg (if code = cDONE then 2 else 3) c.moved c.total code
    let s := if code = cDONE then s.setF Fld.MSC_STATE_JOB_LOADED 1 else s
    s.finishLong c.k code
  else s.finishData c.k code (BitVec.ofNat 64 c.moved)

/-- The next entry of a load list checked under R453 and taken; after the last, the load ends. -/
def State.nextEntry (s : State) (c : HostCmd) : State :=
  match c.entries with
  | [] => s.endHostData c cDONE
  | e :: rest =>
    if e.zero ≠ 0 ∨ e.dev &&& BitVec.ofNat 64 (2 ^ 62 + 0xFF * 2 ^ 48) ≠ 0 then s.endHostData c cMALFORMED
    else if !s.writeOk e.dev e.len then s.endHostData c cRANGE
    else
      let p := passRanges [(fieldOf e.dev 0 48, e.len.toNat, permW)] s
      if !p.2 then p.1.endHostData c cACCESS_DENIED
      else p.1.setCmd { c with entries := rest, reads := [hostReadOf e.host e.dev e.len] }

/-- JOB_LOAD (R459). -/
def opJobLoad (k : Nat) (s : State) : State :=
  s.begin k 0x10
    (fun _ c => ⟨false, operandCode (decide ((c.op_ 0).toNat % 64 ≠ 0)) (c.f 1 0 17 == 0 || decide (65536 < c.f 1 0 17)), []⟩)
    fun c s => ((s.setF Fld.MSC_STATE_JOB_LOADED 0).loadProg 1 0 0 cDONE).setCmd { c with toRead := c.f 1 0 17 }

/-- Entries of a load list in bytes read. -/
def loadEntries (bs : List Byte) : List LoadEntry :=
  (List.range (bs.length / 32)).map fun i =>
    let w := fun (j : Nat) => BitVec.ofNat 64 (manNum bs (32 * i + 8 * j) 8)
    ⟨w 0, w 1, w 2, w 3⟩

/-- Bytes of the load list arrive: whole entries, the first copied once all are known. -/
def State.listArrives (s : State) (c : HostCmd) (bs : List Byte) : State :=
  let es := (loadEntries bs).take c.toRead
  let c := { c with toRead := c.toRead - es.length, entries := c.entries ++ es }
  if c.toRead ≠ 0 then s.setCmd c
  else
    let c := { c with total := (c.entries.map fun e => e.len.toNat).foldl (· + ·) 0 }
    (s.setCmd c).nextEntry c

/-- The next bytes of a command's host read written to device memory. -/
def State.dataArrives (s : State) (c : HostCmd) (r : HostRead) (bs : List Byte) : State :=
  let bs := bs.take r.len
  let w := s.dmaWrite r.dev bs
  if w.2 ≠ cDONE then w.1.endHostData c w.2
  else
    let n := bs.length
    let c := { c with moved := c.moved + n }
    let s := w.1.setCmd c
    let s := if c.op = 0x10 then (s.loadProg 1 c.moved c.total cDONE).showProgress 0x10 else s
    let c := (s.cmd c.k).getD c
    let got := if r.dig.isSome then r.got ++ bs else []
    if n < r.len then
      s.setCmd { c with moved := c.moved, reads := [{ r with host := r.host + n, dev := r.dev + n, len := r.len - n, got := got }] }
    else
      let s := r.dig.elim s fun i => s.noteWritten i got
      let c := { c with reads := [] }
      if c.op = 0x10 then (s.setCmd c).nextEntry c else s.endHostData c cDONE

/-- HOST_READ_COMPLETION (R457, R459, R467): the next bytes that the command reads from the host arrive, or the read fails. -/
def opHostRead (k : Nat) (r : HostReadResult) (s : State) : State :=
  match s.cmd k with
  | none => s
  | some c =>
    if c.stage ≠ .running then s
    else if 0 < c.toRead then
      match r with
      | .data bs => s.listArrives c bs
      | r => s.endHostData c (hostReadCode r)
    else
      match c.reads with
      | [] => s
      | x :: _ =>
        match r with
        | .data bs => if bs = [] ∨ !s.served x.dev (min x.len bs.length) then s else s.dataArrives c x bs
        | r => s.endHostData c (hostReadCode r)

/-- HOST_COMPLETION_TIMEOUT (R467). -/
def opHostTimeout (k : Nat) (s : State) : State :=
  match s.cmd k with
  | none => s
  | some c => if c.stage = .running ∧ (0 < c.toRead ∨ c.reads ≠ []) then s.endHostData c cTIMEOUT else s

/-! ### Header DMA (R458) -/

/-- A header DMA transfer: another device or this one, the local and the remote range, and which way. -/
structure DmaMove where
  dev : DevCoord
  loc : Nat
  rem : Nat
  len : Nat
  pull : Bool
  deriving DecidableEq, Repr

/-- The transfer that a COPY or an XFER describes (R456). -/
def State.moveOf (s : State) (c : HostCmd) : DmaMove :=
  if c.op = 0x04 then ⟨s.destDev (c.op_ 1), c.f 0 0 48, c.f 1 0 48, (c.op_ 2).toNat, false⟩
  else ⟨BitVec.ofNat 16 (c.f 1 0 16), c.f 0 0 48, c.f 2 0 48, (c.op_ 3).toNat, c.f 1 16 1 == 1⟩

/-- The remote end of a transfer inside the device, checked under the Header DMA class (R458, R486). -/
def State.dmaRemote (s : State) (p : Perms) (a n : Nat) : State × Code :=
  if regionOf a = .regs then (s, cACCESS_DENIED)
  else if !s.mapped a n then (s, cRANGE)
  else
    let x := s.access .hdma s.devCoord p a n
    (x.1, if x.2 then cDONE else cACCESS_DENIED)

/-- The pieces of a transfer inside the device, ascending. -/
def ownPieces (m : DmaMove) : List (Nat × Nat) → State → State × Code
  | [], s => (s, cDONE)
  | (o, n) :: ps, s =>
    let x := s.dmaRemote (if m.pull then permR else permW) (m.rem + o) n
    if x.2 ≠ cDONE then x
    else
      let from_ := if m.pull then m.rem + o else m.loc + o
      let to_ := if m.pull then m.loc + o else m.rem + o
      let r := x.1.dmaRead from_ n
      if r.2.1 ≠ cDONE then (r.1, r.2.1)
      else
        let w := r.1.dmaWrite to_ r.2.2
        if w.2 ≠ cDONE then w else ownPieces m ps w.1

/-- Bytes of the destination whose source bytes the transfer also overwrites take open values. -/
def State.openOverlap (s : State) (m : DmaMove) : State :=
  let from_ := if m.pull then m.rem else m.loc
  let to_ := if m.pull then m.loc else m.rem
  if from_ = to_ ∨ !overlap (from_, m.len) (to_, m.len) then s
  else if from_ < to_ then s.openBytes (to_ + (to_ - from_)) (m.len - (to_ - from_))
  else s.openBytes to_ (m.len - (from_ - to_))

/-- Header DMA commands that run over the fabric. -/
def State.dmaRunning (s : State) : List HostCmd :=
  s.host.cmds.filter fun c => c.stage == .running && (c.op == 0x04 || c.op == 0x07)

/-- The first number that no running header DMA command has. -/
def State.freeDma (s : State) (k : Nat) : Nat :=
  ((List.range 64).find? fun i => !((s.dmaRunning).any fun c => c.k != k && c.dma == i)).getD 0

/-- The GET_REQs of the next part, at most 64 KiB, of a pull (R300). -/
def pullReqs (c : HostCmd) (m : DmaMove) : List Req :=
  (cutParts 2048 (min 65536 (m.len - c.moved))).map fun p =>
    { org := .dma c.k, type := 3, srcEp := dmaEp, dstEp := servingEp (m.rem + c.moved + p.1)
      addr := BitVec.ofNat 48 (m.rem + c.moved + p.1), len := p.2, data := p.1, given := [], hdr := [], slot := c.dma }

/-- The STOREs of a push. -/
def pushReqs (c : HostCmd) (m : DmaMove) : List Req :=
  (cutParts 2048 m.len).map fun p =>
    { org := .dma c.k, type := 0, srcEp := dmaEp, dstEp := servingEp (m.rem + p.1), addr := BitVec.ofNat 48 (m.rem + p.1)
      len := p.2, data := m.loc + p.1, given := [], hdr := [], slot := 0 }

/-- A header DMA command ends: RESULT of XFER is the bytes moved (R456). -/
def State.endDma (s : State) (c : HostCmd) (code : Code) : State :=
  s.finishData c.k code (if c.op = 0x07 then BitVec.ofNat 64 c.moved else 0)

/-- A command whose requests have ended, all of them for a push, ends with its first failure (R295, R458). -/
def State.dmaCheck (s : State) (k : Nat) : State :=
  match s.cmd k with
  | none => s
  | some c =>
    if s.fab.reqsLeft (.dma k) then s
    else
      let m := s.moveOf c
      match c.fail with
      | some code => s.endDma c code
      | none => if m.pull then s else s.endDma c cDONE

/-- A request of a header DMA command ended. -/
def State.dmaEnd (s : State) (r : Req) (code : Code) : State :=
  match r.org with
  | .dma k =>
    match s.cmd k with
    | none => s
    | some c =>
      s.setCmd { c with
        moved := if code = cDONE ∧ r.type = 0 then c.moved + r.len else c.moved
        fail := if c.fail.isSome ∨ code = cDONE then c.fail else some code }
  | _ => s

/-- Ended requests handed to their header DMA commands. -/
def State.settleDma (s : State) : State :=
  let l := s.fab.ended.filter fun e => match e.1.org with
    | .dma _ => true
    | _ => false
  let s := { s with fab := { s.fab with ended := s.fab.ended.filter fun e => match e.1.org with
    | .dma _ => false
    | _ => true } }
  let s := l.foldl (fun s e => s.dmaEnd e.1 e.2) s
  ((l.filterMap fun e => match e.1.org with
    | .dma k => some k
    | _ => none).eraseDups).foldl State.dmaCheck s

/-! ### Restores (R421 to R424) -/

/-- The part of a source that a restore waits for, with the source. -/
def RestoreJob.asked (j : RestoreJob) : Option (RestorePart × RestoreSource) :=
  j.want.bind fun w => (if w.fallback then j.args.fallback else some j.args.primary).map fun x => (w, x)

/-- The GET_REQs of the next 64 KiB of that part (R300). -/
def RestoreJob.reqs (j : RestoreJob) : List Req :=
  j.asked.elim [] fun q =>
    let o := j.bytes.length
    (cutParts 2048 (min 65536 (q.1.len - o))).map fun p =>
      { org := .ledger .restore, type := 3, srcEp := ledgerEp, dstEp := epOf q.2.coord
        addr := BitVec.ofNat 48 (q.2.addr + q.1.off + o + p.1), len := p.2, data := p.1, given := [], hdr := [], slot := 0 }

/-- The GET_REQs of a restore's next part leave. -/
def State.restoreAsk (s : State) (j : RestoreJob) : State :=
  let s := s.updLdg fun l => { l with restore := some j }
  j.asked.elim s fun q => s.sendReqs (devOf q.2.coord) j.reqs

/-- A restore goes as far as the bytes that the fabric brought allow: it ends, or asks for the part it lacks. -/
def State.restoreGo (s : State) : State :=
  match s.ldg.restore with
  | none => s
  | some j =>
    if j.want.isSome then s
    else
      let r := s.restoreRun j.args j.supplied
      match r.1.ldg.restore.bind fun x => x.want with
      | some w => s.restoreAsk { j with want := some w, bytes := [], pieces := [] }
      | none =>
        let s := (r.1.updLdg fun l => { l with restore := none }).setFs [(Fld.LDG_RESTORE_PROG_PCT, if r.2 = cDONE then 10000 else 0),
          (Fld.LDG_RESTORE_PROG_STATE, if r.2 = cDONE then 2 else 3), (Fld.LDG_RESTORE_PROG_CODE, r.2.toNat)]
        s.finishLong j.cmd r.2 (s.getF Fld.LDG_RESTORE_STATUS_FIRST_FAIL * 256 + s.getF Fld.LDG_RESTORE_STATUS_SKEW_ITEM)

/-- The part that a restore waits for has been read, or could not be. -/
def State.restoreTake (s : State) (code : Code) (bs : List Byte) : State :=
  match s.ldg.restore with
  | none => s
  | some j =>
    match j.want with
    | none => s
    | some w =>
      ((s.withdrawLedger .restore).updLdg fun l =>
        { l with restore := some { j with got := j.got ++ [(w, code, bs)], want := none, bytes := [], pieces := [] } }).restoreGo

/-- A piece of that part arrives (R300): one that has arrived already is discarded, and after the last piece of 64 KiB the next are asked
for. -/
def State.restoreData (s : State) (src : DevCoord) (offset : Nat) (status : Code) (bs : List Byte) : State :=
  match s.ldg.restore with
  | none => s
  | some j =>
    match j.asked with
    | none => s
    | some (w, x) =>
      let n := min 65536 (w.len - j.bytes.length)
      if devOf x.coord ≠ src ∨ n ≤ offset ∨ (j.pieces.any fun e => e.1 == offset) then s
      else if status ≠ cDONE then s.restoreTake status []
      else
        let j := { j with pieces := j.pieces ++ [(offset, bs.take (min 2048 (n - offset)))] }
        if j.pieces.length < (n + 2047) / 2048 then s.updLdg fun l => { l with restore := some j }
        else
          let part := (sortedBy (fun (a b : Nat × List Byte) => decide (a.1 ≤ b.1)) j.pieces).flatMap Prod.snd
          let j := { j with bytes := j.bytes ++ part, pieces := [] }
          if j.bytes.length < w.len then s.restoreAsk j else s.restoreTake cDONE j.bytes

/-- A store or a read of the Ledger was refused, or its pair broke (R417, R418, R422). -/
def State.ledgerFails (s : State) (u : LedgerUse) (code : Code) : State :=
  match u with
  | .baste => (s.withdrawLedger .baste).updBaste fun b => { b with fail := b.fail.or (some code) }
  | .hem => (s.withdrawLedger .hem).updLdg fun l => { l with hem := l.hem.map fun h => { h with fail := h.fail.or (some code) } }
  | .restore => s.restoreTake code []

/-- Ended requests handed to the Ledger. -/
def State.settleLedger (s : State) : State :=
  let l := s.fab.ended.filterMap fun e => match e.1.org with
    | .ledger u => some (u, e.2)
    | _ => none
  let s := { s with fab := { s.fab with ended := s.fab.ended.filter fun e => match e.1.org with
    | .ledger _ => false
    | _ => true } }
  l.foldl (fun s e => if e.2 = cDONE then s else s.ledgerFails e.1 e.2) s

/-- Every requester learns of the requests that ended; a failure beyond the sixteenth fold is a device loss (R258). -/
def State.settledAll (s : State) : State := s.settled.settleDma.settleLedger.beyondFolds

/-- The checks of a COPY or an XFER (R453, R456, R458). -/
def dmaChecks (s : State) (c : HostCmd) : CmdChecks :=
  let m := s.moveOf c
  dataChecks s (decide (m.loc % 8 ≠ 0) || decide (m.rem % 8 ≠ 0) || decide (m.len % 8 ≠ 0)) 8 (2 ^ 32) m.loc m.len
    (if m.pull then permW else permR)

/-- A COPY or an XFER runs (R458): inside the device at once, else by its packets. -/
def runDma (c : HostCmd) (s : State) : State :=
  let m := s.moveOf c
  if m.dev = s.devCoord then
    let r := ownPieces m (cutParts 2048 m.len) s
    let s := if r.2 = cDONE then r.1.openOverlap m else r.1
    s.endDma { c with moved := if r.2 = cDONE then m.len else 0 } r.2
  else
    let c := { c with dma := s.freeDma c.k }
    ((s.setCmd c).sendReqs m.dev (if m.pull then pullReqs c m else pushReqs c m)).settleDma

/-- Ranges of this device that a COPY or an XFER moves. -/
def State.dmaRanges (s : State) (c : HostCmd) : List (Nat × Nat) :=
  let m := s.moveOf c
  (m.loc, m.len) :: if m.dev = s.devCoord then [(m.rem, m.len)] else []

/-- COPY or XFER (R458): with 64 running, further ones wait. -/
def opDma (k op : Nat) (s : State) : State :=
  if decide (64 ≤ s.dmaRunning.length) || s.cmdWaits k s.dmaRanges then s else s.begin k op dmaChecks runDma

/-- Data of a pull arrives (R300, R458): a piece that has arrived already is discarded, a refusal ends the command, and after
the last piece of a part the next part is asked for. -/
def State.pullData (s : State) (c : HostCmd) (offset : Nat) (status : Code) (bs : List Byte) : State :=
  let m := s.moveOf c
  let i := offset / 2048
  let n := min 65536 (m.len - c.moved)
  if !m.pull || c.pieces.contains i || c.fail.isSome || decide (n ≤ offset) then s
  else if status ≠ cDONE then (s.setCmd { c with fail := some status }).dmaCheck c.k
  else
    let w := s.dmaWrite (m.loc + c.moved + offset) (bs.take (min 2048 (n - offset)))
    if w.2 ≠ cDONE then (w.1.setCmd { c with fail := some w.2 }).dmaCheck c.k
    else
      let c := { c with pieces := i :: c.pieces }
      if c.pieces.length < (n + 2047) / 2048 then w.1.setCmd c
      else
        let c := { c with pieces := [], moved := c.moved + n }
        if c.moved = m.len then (w.1.setCmd c).endDma c cDONE
        else ((w.1.setCmd c).sendReqs m.dev (pullReqs c m)).settleDma

/-! ### Jobs (R460, R461) -/

/-- SEAM_EN and GO written to a bay: neither has an effect while a thread of it is live (R73). -/
def State.startBay (s : State) (seam : Bool) (b : Nat) : State :=
  let i : BayId := BitVec.ofNat 10 b
  if (s.bay i).live then s else ((s.setF (Fld.BAY_CTRL_SEAM_EN b) (if seam then 1 else 0)).bayGo i).workBay i

/-- Bays of a mask read from the host (R460). -/
def maskBays (bs : List Byte) : List Nat := (List.range 1024).filter fun b => ((bs.getD (b / 8) 0).toNat / 2 ^ (b % 8)) % 2 == 1

/-- JOB_START on bays: the device enters RUN with the first GO. -/
def runJob (c : HostCmd) (bays : List Nat) (s : State) : State :=
  let j : Job := ⟨some c.k, bays, false, false, false, none, []⟩
  let s := s.updHost fun h => { h with job := some j }
  if bays.isEmpty then (s.updHost fun h => { h with job := none }).finishCmd c.k cDONE
  else bays.foldl (fun s b => s.startBay (c.f 1 0 1 == 1) b) (s.setDevState stRUN)

/-- JOB_START (R460, R465). -/
def opJobStart (k : Nat) (mask : HostReadResult) (s : State) : State :=
  s.begin k 0x11
    (fun s _ => ⟨s.getF Fld.MSC_STATE_JOB_LOADED == 0 || s.host.job.isSome
      || (s.getF Fld.ABR_CTRL_FAB_EN == 0 && s.getF Fld.MSC_STATE_BENCH == 0), cDONE, []⟩) fun c s =>
    if c.op_ 0 = 0 then runJob c (List.range 1024) s
    else
      match mask with
      | .data bs => runJob c (maskBays bs) s
      | r => s.finishCmd k (hostReadCode r)

/-- JOB_STOP (R456): completes with the end of the job. -/
def opJobStop (k : Nat) (s : State) : State :=
  s.begin k 0x12 (fun _ _ => .none) fun _ s => ((s.updJob fun j => { j with stopped := true }).stopBays).endJob

/-- HOLD (R461). -/
def opHold (k : Nat) (s : State) : State :=
  s.begin k 0x13 (fun _ _ => .none) fun _ s => (s.updHost fun h => { h with holdAsked := some k }).holdGo

/-- RESUME (R461): the state before HOLD, and the collectives go on. It waits for a HOLD that has not taken effect yet. -/
def opResume (k : Nat) (s : State) : State :=
  if s.host.holdAsked.isSome && s.devState != stHOLD then s else
  s.begin k 0x14 (fun _ _ => .none) fun _ s =>
    ((s.setDevState s.host.before).finishCmd k cDONE).workAll

/-! ### The other commands (R456) -/

/-- NOP. -/
def opNop (k : Nat) (s : State) : State := s.begin k 0x01 (fun _ _ => .none) fun _ s => s.finishCmd k cDONE

/-- BASTE (R412, R456): a baste is forced; its end completes the command. -/
def opBaste (k : Nat) (s : State) : State :=
  s.begin k 0x20 (fun s _ => ⟨s.basteRuns, cDONE, []⟩) fun _ s => s.basteForce

/-- HEM (R418). -/
def opHem (k : Nat) (s : State) : State :=
  s.begin k 0x21
    (fun s c => ⟨(s.hemStart k 0 0 0).isNone, operandCode false (decide (100 < c.f 2 0 8)), []⟩) fun c s =>
    (s.hemStart k (BitVec.ofNat 28 (c.f 0 0 28)) (c.f 1 0 48) (if c.f 2 0 8 = 0 then 25 else c.f 2 0 8)).getD s

/-- A source of a restore (R421): the slots of another device lie where this device's do (DESIGN CHOICE, log entry 47). -/
def State.restoreSource (s : State) (kind : Nat) (coord : BitVec 28) (addr : Nat) : RestoreSource :=
  ⟨kind == 0, coord, match kind with | 1 => s.reserve.2.1 | 2 => s.reserve.1 | _ => addr⟩

/-- What a read of host memory gives whose data come in two completions: the bytes, or the code of the first that fails (R467). -/
def hostBytes (values more : HostReadResult) : Code × List Byte :=
  match values, more with
  | .data bs, .data cs => (cDONE, bs ++ cs)
  | .data _, r => (hostReadCode r, [])
  | r, _ => (hostReadCode r, [])

/-- RESTORE (R421 to R424): `values` and `more` are what the read of the supplied cursor and counters gives. -/
def opRestore (k : Nat) (values more : HostReadResult) (s : State) : State :=
  s.begin k 0x22
    (fun s c => ⟨s.ldg.restore.isSome,
      operandCode ((c.f 0 0 2 == 2 || (c.f 0 4 1 == 1 && c.f 0 2 2 == 2)) && c.f 0 5 2 != 1) (c.f 0 5 2 == 3), []⟩)
    fun c s =>
    let a : RestoreArgs := ⟨s.restoreSource (c.f 0 0 2) (BitVec.ofNat 28 (c.f 1 0 28)) (c.f 2 0 48),
      if c.f 0 4 1 = 1 then some (s.restoreSource (c.f 0 2 2) (BitVec.ofNat 28 (c.f 3 0 28)) (c.f 4 0 48)) else none,
      c.f 0 5 2, c.f 0 7 1 == 1⟩
    let s := s.setFs [(Fld.LDG_RESTORE_PROG_PCT, 0), (Fld.LDG_RESTORE_PROG_STATE, 1), (Fld.LDG_RESTORE_PROG_CODE, 0)]
    (s.updLdg fun l => { l with restore := some ⟨k, a, hostBytes values more, [], none, [], []⟩ }).restoreGo

/-- DIGEST (R389): a class that no digest has gives RANGE. -/
def opDigest (k : Nat) (s : State) : State :=
  s.begin k 0x23 (fun s c => ⟨s.ldg.digest.isSome, operandCode false (decide (4 ≤ c.f 0 0 3)), []⟩) fun c s =>
    (s.digestStart (c.f 0 0 3)).1

/-- RECORD (R392, R393): the record, signed on request, written to the host. -/
def opRecord (k : Nat) (s : State) : State :=
  s.begin k 0x24
    (fun s c => ⟨s.ldg.digest.isSome, operandCode false (s.ldg.steps (c.op_ 0).toNat (c.op_ 1).toNat).isNone, []⟩) fun c s =>
    match s.ldg.steps (c.op_ 0).toNat (c.op_ 1).toNat with
    | none => s
    | some rs =>
      let bs := s.signedRecord (c.op_ 0).toNat (c.op_ 1).toNat rs (c.f 3 0 1 == 1)
      let s := { s with store := { s.store with records := s.store.records + 1 } }
      (s.hostWrite (c.op_ 2).toNat bs).finishCmd k cDONE 0 (if c.f 3 0 1 = 1 then 5267 else 640)

/-- SCRUB (R252, R465). -/
def opScrub (k : Nat) (s : State) : State :=
  s.begin k 0x30 (fun s _ => ⟨s.hbm.scrub.isSome, cDONE, []⟩) fun _ s =>
    (s.updHbm fun h => { h with scrub := some 0 }).setFs
      [(Fld.HBM_SCRUB_PROG_PCT, 0), (Fld.HBM_SCRUB_PROG_STATE, 1), (Fld.HBM_SCRUB_PROG_POSITION, 0)]

/-- The host command FOLD (R257 to R262): with FAIL set the pseudo-channel is failed first; one that is not failed gives RANGE.
After 16 folds the device is lost (R258), and the command's code is an open value. -/
def opHostFold (k : Nat) (s : State) : State :=
  s.begin k 0x31
    (fun s c => ⟨s.hbm.fold.isSome,
      operandCode false (c.f 0 8 1 == 0 && !s.hbm.waiting.contains (c.f 0 0 8)), []⟩) fun c s =>
    let s := if c.f 0 8 1 = 1 then s.failPc (c.f 0 0 8) else s
    let s := if s.hbm.fold.isSome ∨ !s.hbm.waiting.contains (c.f 0 0 8) then s else s.startFold (c.f 0 0 8)
    if s.hbm.fold.isSome then s else s.draw.1.finishLong k (openFailure s.draw.2)

/-- The host command RETRAIN (R255): the retraining starts by its own event. -/
def opRetrain (k : Nat) (s : State) : State := s.begin k 0x32 (fun _ _ => .none) fun _ s => s

/-! ### The meanings -/

/-- NOP (R456). -/
def execNop (k : Nat) (s : State) : Res := .next (opNop k s)

/-- WRITE (R457). -/
def execWrite (k : Nat) (s : State) : Res := .next (opWrite k s)

/-- READ (R457). -/
def execRead (k : Nat) (s : State) : Res := .next (opRead k s)

/-- COPY (R458). -/
def execCopy (k : Nat) (s : State) : Res := .next (opDma k 0x04 s)

/-- FILL (R456). -/
def execFill (k : Nat) (s : State) : Res := .next (opFill k s)

/-- XFER (R458). -/
def execXfer (k : Nat) (s : State) : Res := .next (opDma k 0x07 s)

/-- JOB_LOAD (R459). -/
def execJobLoad (k : Nat) (s : State) : Res := .next (opJobLoad k s)

/-- JOB_START (R460). -/
def execJobStart (k : Nat) (mask : HostReadResult) (s : State) : Res := .next (opJobStart k mask s).settledAll

/-- JOB_STOP (R456). -/
def execJobStop (k : Nat) (s : State) : Res := .next (opJobStop k s)

/-- HOLD (R461). -/
def execHold (k : Nat) (s : State) : Res := .next (opHold k s)

/-- BASTE (R456). -/
def execBaste (k : Nat) (s : State) : Res := .next (opBaste k s)

/-- HEM (R418). -/
def execHem (k : Nat) (s : State) : Res := .next (opHem k s)

/-- RESTORE (R422). -/
def execRestore (k : Nat) (values more : HostReadResult) (s : State) : Res := .next (opRestore k values more s).settledAll

/-- LEAF_DIGEST_DONE (R388). -/
def execLeafDigestDone (s : State) : Res := .next (opLeafDigest s).settledAll

/-- BASTE_COPY_DONE (R415). -/
def execBasteCopyDone (s : State) : Res := .next (opBasteCopy s).settledAll

/-- BASTE_TRICKLE_LEAF (R416). -/
def execBasteTrickleLeaf (status : Code) (s : State) : Res := .next (opTrickleLeaf status s).settledAll

/-- HEM_STORE (R418). -/
def execHemStore (status : Code) (s : State) : Res := .next (opHemStore status s).settledAll

/-- DIGEST (R389). -/
def execDigest (k : Nat) (s : State) : Res := .next (opDigest k s)

/-- RECORD (R392). -/
def execRecord (k : Nat) (s : State) : Res := .next (opRecord k s)

/-- SCRUB (R252). -/
def execScrub (k : Nat) (s : State) : Res := .next (opScrub k s)

/-- RETRAIN (R255). -/
def execRetrain (k : Nat) (s : State) : Res := .next (opRetrain k s)

/-- FOLD: the vector instruction of R158, or the host command of R456 (R257). -/
def execFold (o : FoldOp) (s : State) : Res :=
  .next (match o with
    | .vec b t f => opVecIssue .fold b t f s
    | .host k => opHostFold k s)

/-- HOST_READ_COMPLETION (R459). -/
def execHostReadCompletion (k : Nat) (r : HostReadResult) (s : State) : Res := .next (opHostRead k r s)

/-- HOST_COMPLETION_TIMEOUT (R467). -/
def execHostCompletionTimeout (k : Nat) (s : State) : Res := .next (opHostTimeout k s)

end Sys2Proof.Machine
end

