-- ==== Sys2Proof/Machine/Link.lean ====
section
/-! DEFINITION. Die-to-die links (R26, R27) and the optical links hop by hop: landing checks, credits, replay, forwarding and ports
that go down (R34, R36, R283 to R292, R299, R305, R306). -/

namespace Sys2Proof.Machine

/-! ### Die-to-die links (R26, R27) -/

/-- A link goes down: its bit, and its traffic takes the other way; a bond port takes the device with it. -/
def State.linkDown (s : State) (l : DieLink) : State :=
  match l with
  | .sill i => s.setF Fld.SIL_LINK_STATUS_SILL_DOWN (s.getF Fld.SIL_LINK_STATUS_SILL_DOWN ||| 2 ^ i.val)
  | .hdr h => s.setF Fld.SIL_LINK_STATUS_HDR_DOWN (s.getF Fld.SIL_LINK_STATUS_HDR_DOWN ||| 2 ^ h.val)
  | .bond _ _ => s.deviceLoss

/-- FLIT_REPLAY: a replay that succeeds, or the next of up to 16 that fail (R26, R383). -/
def opFlitReplay (l : DieLink) (ok : Bool) (s : State) : State :=
  let k := linkKey l
  let n := smapGet (fun _ => 0) s.flits k
  if 16 ≤ n then s
  else
    let s := (s.incF Fld.SIL_LINK_STATUS_REPLAYS).tickEvent
    let m := if ok then 0 else n + 1
    let s := { s with flits := smapSet (fun _ => 0) s.flits k m }
    if m = 16 then s.linkDown l else s

/-! ### Frames (R286 to R289) -/

/-- The 32 bytes of a packet header (R287). -/
def packetHeader (p : Packet) : List Byte :=
  leBytes 8 (p.type ++ p.vc ++ p.ce ++ p.ece ++ p.dst ++ p.src).toNat
    ++ leBytes 8 (p.seq ++ p.ackSeq ++ p.status ++ p.pinc ++ p.opn ++ p.hops ++ p.stage ++ p.plen).toNat
    ++ leBytes 8 (p.smark ++ p.addr).toNat ++ leBytes 8 (p.epoch ++ p.gen ++ p.slot ++ p.aop ++ p.z).toNat

/-- A frame with the fields of its link header (R286). -/
structure LinkHdr where
  frame : Frame
  lseq : BitVec 16
  lack : BitVec 16
  ptag : Nat
  express : Bool
  vc : Nat
  rung : Nat
  shared : Bool
  control : Bool
  flen : Nat
  cred : BitVec 32
  hcrc : BitVec 32

/-- The link header of a frame read. -/
def linkHdr (f : Frame) : LinkHdr :=
  { frame := f, lseq := f.l0.extractLsb' 48 16, lack := f.l0.extractLsb' 32 16, ptag := fieldOf f.l0 28 4, express := f.l0.getLsbD 27
    vc := fieldOf f.l0 25 2, rung := fieldOf f.l0 21 4, shared := f.l0.getLsbD 20, control := f.l0.getLsbD 19, flen := fieldOf f.l0 0 12
    cred := f.l1.extractLsb' 32 32, hcrc := f.l1.extractLsb' 0 32 }

/-- HCRC over the link header and, where there is one, the packet header (R286). -/
def headerCheck (l0 : Word) (cred : BitVec 32) (p : Option Packet) : BitVec 32 :=
  crc32c (leBytes 8 l0.toNat ++ leBytes 4 cred.toNat ++ p.elim [] packetHeader)

/-- Bytes of a packet's frame: header, chunk header, payload and the frame's own 20 bytes; express frames are 64 or 128 B (R286). -/
def packetBytes (p : Packet) : Nat := 52 + p.chunkHdr.length + p.payload.length
def frameBytes (p : Packet) : Nat :=
  if vcOfType p.type.toNat ≤ 1 then (if packetBytes p ≤ 64 then 64 else 128) else packetBytes p

/-- 64-byte cells of `n` bytes (R289). -/
def cellsOf (n : Nat) : Nat := (n + 63) / 64

/-- The lengths of a frame agree and lie within the limits (R286, R288). -/
def lengthOk (f : LinkHdr) (p : Packet) : Bool :=
  let t := p.type.toNat
  (if t = 2 then p.chunkHdr.length == 32 else p.chunkHdr.isEmpty) && decide (p.plen.toNat ≤ 256)
    && (if t = 3 then p.payload.isEmpty else p.payload.length == 8 * p.plen.toNat)
    && decide (packetBytes p ≤ f.flen)
    && (if f.vc = 0 then f.flen == 64 || f.flen == 128
        else if t = 3 then f.flen == 64 else decide (f.flen ≤ (if t = 2 then 2132 else 2100)))

/-- The lane of a port. -/
def Port.lane (x : Port) (express : Bool) : LinkLane := if express then x.express else x.bulk

/-- A port with a lane changed. -/
def Port.updLane (x : Port) (express : Bool) (f : LinkLane → LinkLane) : Port :=
  if express then { x with express := f x.express } else { x with bulk := f x.bulk }

/-- `s` with a port changed. -/
def State.updPort (s : State) (p : Nat) (f : Port → Port) : State := s.setPort p (f (s.port p))

/-- Cells of the space that a rung of a virtual channel reserves: one largest frame (R289). -/
def spaceCells (vc : Nat) : Nat := if vc < 2 then 2 else 34

/-- Key of the reserved space of a rung of a virtual channel. -/
def spaceKey (vc rung : Nat) : Nat := 16 * vc + rung

/-- Cells taken in, and given back to, the reserved space of a rung. -/
def takeCells (m : SMap Nat) (vc rung n : Nat) : SMap Nat :=
  smapSet (fun _ => 0) m (spaceKey vc rung) (smapGet (fun _ => 0) m (spaceKey vc rung) + n)
def giveCells (m : SMap Nat) (vc rung n : Nat) : SMap Nat :=
  smapSet (fun _ => 0) m (spaceKey vc rung) (smapGet (fun _ => 0) m (spaceKey vc rung) - n)

/-- Space is free where a frame says it goes (R289). -/
def Port.room (x : Port) (f : LinkHdr) : Bool :=
  if f.shared then decide (x.rxShared + cellsOf f.flen ≤ 896)
  else decide (smapGet (fun _ => 0) x.rxResv (spaceKey f.vc f.rung) + cellsOf f.flen ≤ spaceCells f.vc)

/-- The checks of R34 on a frame that came in on a port by the bulk wavelengths or the express wavelength. The packet limits say
nothing of a control frame's length: one of at most 128 bytes, two cells, passes on either lane (DESIGN CHOICE, log entry 33). -/
def State.landingOk (s : State) (p : Nat) (lane : Bool) (f : LinkHdr) : Bool :=
  f.hcrc == headerCheck f.frame.l0 f.cred f.frame.packet && decide (f.ptag = p) && f.express == lane
    && match f.frame.packet with
      | none => f.control && decide (f.flen ≤ 128)
      | some q =>
        !f.control && lengthOk f q && f.express == decide (f.vc = 0) && (s.port p).room f
          && f.frame.pcrc == crc32c q.payload

/-- Frames of the replay buffer that an acknowledgement covers leave it (R291). -/
def LinkLane.acknowledge (l : LinkLane) (ack : BitVec 16) : LinkLane :=
  let keep := l.replay.filter fun t => !seqCovered t.lseq ack
  { l with
    replay := keep, todo := l.todo.filter fun q => keep.any fun t => t.lseq == q
    tries := if keep.length < l.replay.length then 0 else l.tries }

/-- The first `n` entries of a local port kept, and every other port's. -/
def keepFirst (x : Nat) : Nat → List Nat → List Nat
  | _, [] => []
  | n, y :: ys =>
    if y ≠ x then y :: keepFirst x n ys
    else
      match n with
      | 0 => keepFirst x 0 ys
      | k + 1 => y :: keepFirst x k ys

/-- As many bursts queued for a port as express frames of it wait (R343, R344): those to be sent or replayed, and a control frame. -/
def State.fitBursts (s : State) (p : Nat) : State :=
  let x := s.port p
  let n := x.express.todo.length + (if x.ctlDue.isSome then 1 else 0)
  let q := smapGet (fun _ => []) s.opt.expressQ (p / 2)
  let have_ := (q.filter fun l => l == p % 2).length
  let q := keepFirst (p % 2) n q ++ List.replicate (n - have_) (p % 2)
  { s with opt := { s.opt with expressQ := smapSet (fun _ => []) s.opt.expressQ (p / 2) q } }

/-- A credit return of {POOL, VC, RUNG, cells} taken by the sender: lead cells first (R289, R290). -/
def Port.credit (x : Port) (c : BitVec 16) : Port :=
  let n := fieldOf (c.setWidth 64) 0 9
  if n = 0 then x
  else if c.getLsbD 15 then
    let lead := min n x.lead
    { x with lead := x.lead - lead, shared := min 896 (x.shared + (n - lead)) }
  else { x with resv := giveCells x.resv (fieldOf (c.setWidth 64) 13 2) (fieldOf (c.setWidth 64) 9 4) n }

/-- The two credit returns of a control frame. -/
def Port.credits (x : Port) (c : BitVec 32) : Port := (x.credit (c.extractLsb' 0 16)).credit (c.extractLsb' 16 16)

/-- A frame discarded under R34: counted, and to be named in a NAK on the lane it came by. -/
def State.dropFrame (s : State) (p : Nat) (lane : Bool) (f : LinkHdr) : State :=
  let s := s.incF (Fld.OPT_FW_STATUS_DROP_CNT (p / 2))
  if f.frame.packet.isNone then s
  else s.updPort p fun x => x.updLane lane fun l => { l with nak := some (l.nak.getD l.rx) }

/-- A frame in sequence enters the fabric engine; a reserved type is consumed and counted (R288). -/
def State.takeFrame (s : State) (p : Nat) (f : LinkHdr) (q : Packet) : State :=
  let s := (s.updPort p fun x => x.updLane f.express fun l => { (l.acknowledge f.lack) with rx := l.rx + 1, nak := none }).fitBursts p
  if 13 ≤ q.type.toNat then s.incF (Fld.OPT_FW_STATUS_DROP_CNT (p / 2))
  else
    let cells := cellsOf f.flen
    let s := s.updPort p fun x =>
      if f.shared then { x with rxShared := x.rxShared + cells } else { x with rxResv := takeCells x.rxResv f.vc f.rung cells }
    let s := if q.type = 0xA ∧ devOf q.dst = s.devCoord then
        { s with scr := { s.scr with landed := s.scr.landed ++ [(q.payload, s.now)] } } else s
    s.hold (p / 8) { p := q, by_ := .rung (f.rung % 4), space := some (p, f.shared, f.vc, f.rung, cells), first := false }

/-- FRAME_LANDING (R34, R36, R286, R289, R291, R323): the frame, and the corrected and uncorrectable codewords of its bytes. A frame on
a port that is not UP is discarded unchecked and uncounted, also while ENG_EN is set (DESIGN CHOICE, log entry 33: the spec does not
say what becomes of it). -/
def opFrameLanding (p : Nat) (lane : Bool) (f : LinkHdr) (corr uncorr : Nat) (s : State) : State :=
  let s := ((s.incF (Fld.OPT_PORT_FEC_CORR_CW p) corr).incF (Fld.OPT_PORT_FEC_UNCORR_CW p) uncorr).tickEvent corr
  if !(s.getF Fld.OPT_FW_CTRL_ENG_EN).testBit (p / 2) || !s.portUp p then s
  else if 0 < uncorr || !s.landingOk p lane f then s.dropFrame p lane f
  else
    match f.frame.packet with
    | none => (s.updPort p fun x => (x.updLane f.express fun l => l.acknowledge f.lack).credits f.cred).fitBursts p
    | some q =>
      let rx := ((s.port p).lane f.express).rx
      if f.lseq = rx then s.takeFrame p f q
      else
        let s := s.incF (Fld.ABR_PORT_CNT_SEQ_DISCARD p)
        if seqCovered f.lseq (rx - 1) then s
        else s.updPort p fun x => x.updLane f.express fun l => { l with nak := some (l.nak.getD l.rx) }

/-- CREDIT_RETURN (R289). -/
def opCreditReturn (p : Nat) (c : BitVec 32) (s : State) : State := if s.portUp p then s.updPort p fun x => x.credits c else s

/-- LEAD_PAUSE_EXPIRY (R290). -/
def opLeadPause (p : Nat) (s : State) : State := s.updPort p fun x => { x with leadPaused := false }

/-! ### Failures to forward (R284, R299, R315) -/

/-- A packet that cannot be forwarded is discarded; its source gets an unreachable notice, which names the destination device and, as a
PAIR packet, carries no status and no epoch (R287, R295), or breaks its own pair at once (R299). -/
def State.unreachable (s : State) (p : Packet) (code : Code) (port : Nat) : State :=
  let d := devOf p.dst
  let src := devOf p.src
  if src = s.devCoord then s.breakPair d code port
  else
    let s := s.fabErr code d port
    s.inject { s.blankPacket 0xC dmaEp (coordOf src dmaEp) with epoch := 0, addr := d.setWidth 48 }

/-! ### Forwarding (R283 to R285, R288 to R291, R296, R343) -/

/-- The packets of a fabric engine. -/
def State.heldOf (s : State) (h : Nat) : List Held := if h = 0 then s.fab.held0 else s.fab.held1

/-- `s` with the packets of a fabric engine replaced. -/
def State.setHeld (s : State) (h : Nat) (l : List Held) : State :=
  { s with fab := if h = 0 then { s.fab with held0 := l } else { s.fab with held1 := l } }

/-- The landing space of a packet that leaves it is to be returned to the sender (R289). -/
def State.freeSpace (s : State) (x : Held) : State :=
  match x.space with
  | none => s
  | some (p, shared, vc, rung, cells) =>
    if !s.portUp p then s
    else
      let c : BitVec 16 := BitVec.ofNat 16 ((if shared then 32768 else 0) + vc * 8192 + rung * 512 + cells)
      s.updPort p fun y =>
        { y with
          rxShared := if shared then y.rxShared - cells else y.rxShared
          rxResv := if shared then y.rxResv else giveCells y.rxResv vc rung cells
          owed := y.owed ++ [c] }

/-- How a frame goes out (R289, R290): whether it names the shared pool, and whether it is sent on lead. -/
def State.space (s : State) (p vc rung cells : Nat) : Option (Bool × Bool) :=
  let x := s.port p
  if cells ≤ x.shared then some (true, false)
  else if smapGet (fun _ => 0) x.resv (spaceKey vc rung) + cells ≤ spaceCells vc then some (false, false)
  else if vc ≠ 0 ∧ s.getF Fld.ABR_E2E_CTRL_LEAD_EN = 1 ∧ !x.leadPaused ∧ x.lead + cells ≤ s.roundTrip p x.rtt then some (true, true)
  else none

/-- Bytes that the replay buffer of a port holds (R291). -/
def Port.replayBytes (x : Port) : Nat := (x.bulk.replay ++ x.express.replay).foldl (fun n t => n + frameBytes t.p) 0

/-- Bytes that a fabric engine holds, for the crease mark (R296). -/
def State.queueBytes (s : State) (h : Nat) : Nat := (s.heldOf h).foldl (fun n x => n + frameBytes x.p) 0

/-- The frame of a packet in the replay buffer (R286), its link acknowledgement as it stands when the frame leaves. -/
def State.frameOf (s : State) (p : Nat) (t : TxFrame) : Frame :=
  let vc := vcOfType t.p.type.toNat
  let l0 : Word := t.lseq ++ (((s.port p).lane (vc == 0)).rx - 1) ++ BitVec.ofNat 4 (s.getF (Fld.ABR_PORT_STATUS_PEER_PORT p))
    ++ BitVec.ofBool (vc == 0) ++ BitVec.ofNat 2 vc ++ BitVec.ofNat 4 t.rung ++ BitVec.ofBool t.shared ++ (0 : BitVec 1)
    ++ (0 : BitVec 7) ++ BitVec.ofNat 12 (frameBytes t.p)
  { l0 := l0, l1 := (0 : BitVec 32) ++ headerCheck l0 0 (some t.p), packet := some t.p, pcrc := crc32c t.p.payload }

/-- The next frame of a lane that is still to leave is put on the link: a replay, or an express frame in its burst. -/
def State.sendTodo (s : State) (p : Nat) (express : Bool) : State :=
  let l := (s.port p).lane express
  match l.todo with
  | [] => s
  | q :: rest =>
    let w := (l.replay.find? fun t => t.lseq == q).map (s.frameOf p)
    s.updPort p fun x => { x.updLane express fun l => { l with todo := rest } with wire := w.or x.wire }

/-- A packet sent on a port as a frame: the credit it takes, its place in the replay buffer, and the link; an express frame waits for
its burst. -/
def State.sendFrame (s : State) (x : Held) (port kind : Nat) (how : Bool × Bool) (ce : Bool) : State :=
  let peer : DevCoord := BitVec.ofNat 16 (s.getF (Fld.ABR_PORT_STATUS_PEER_DEV port))
  let st := stageOf peer (devOf x.p.dst)
  let rung := 4 * st + kind
  let vc := vcOfType x.p.type.toNat
  let q := { x.p with hops := x.p.hops + 1, stage := BitVec.ofNat 2 st, ce := if ce then 1 else x.p.ce }
  let cells := cellsOf (frameBytes q)
  let s := s.updPort port fun y =>
    let y := if how.2 then { y with lead := y.lead + cells }
      else if how.1 then { y with shared := y.shared - cells }
      else { y with resv := takeCells y.resv vc rung cells }
    y.updLane (vc == 0) fun l =>
      { l with
        tx := l.tx + 1, todo := l.todo ++ [l.tx]
        replay := l.replay ++ [{ lseq := l.tx, p := q, rung := rung, shared := how.1, lead := how.2, by_ := x.by_ }] }
  if vc = 0 then s.fitBursts port else s.sendTodo port false

/-- What a fabric engine does next with one packet; `none` where the packet waits for space. -/
def State.forward (s : State) (ce : Bool) (x : Held) : Option State :=
  let d := devOf x.p.dst
  if d ≠ s.devCoord ∧ x.p.hops = 15 then some ((s.freeSpace x).unreachable x.p cTIMEOUT 0)
  else
    match s.route x.by_ (devOf x.p.src) d with
    | .deliver =>
      let s := s.freeSpace x
      some { s with fab := { s.fab with arrived := s.fab.arrived ++ [{ x.p with ce := if ce then 1 else x.p.ce }] } }
    | .wait => none
    | .lost port => some ((s.freeSpace x).unreachable x.p cLINK_LOST (port.getD 0))
    | .send port kind =>
      let peer : DevCoord := BitVec.ofNat 16 (s.getF (Fld.ABR_PORT_STATUS_PEER_DEV port))
      let vc := vcOfType x.p.type.toNat
      if 0x200000 < (s.port port).replayBytes + frameBytes x.p then none
      else
        match s.space port vc (4 * stageOf peer d + kind) (cellsOf (frameBytes x.p)) with
        | none => none
        | some how => some ((s.sendFrame x port kind how ce).freeSpace x)

/-- What packets of one queue wait for together: the port, and the channel and rung of the space there (R285, R289). -/
def State.waitsFor (s : State) (x : Held) : Option (Nat × Nat × Nat) :=
  match s.route x.by_ (devOf x.p.src) (devOf x.p.dst) with
  | .send port kind =>
    let peer : DevCoord := BitVec.ofNat 16 (s.getF (Fld.ABR_PORT_STATUS_PEER_DEV port))
    some (port, vcOfType x.p.type.toNat, 4 * stageOf peer (devOf x.p.dst) + kind)
  | _ => none

/-- The route of a packet: the level and value that choose its port, and the port it takes now. -/
def State.routeKey (s : State) (x : Held) : Nat × Nat × Option Nat :=
  let d := devOf x.p.dst
  let l := topLevel s.devCoord d
  (l, levelField l d, (s.waitsFor x).map Prod.fst)

/-- A frame of a port that went down, with its lane, on a route. -/
def State.firstKey (s : State) (x : Held) : (Nat × Nat × Option Nat) × Bool := (s.routeKey x, vcOfType x.p.type.toNat == 0)

/-- A packet must stay: one before it waits for the same space, or a frame of a port that went down is to leave before it on its route
(R306), in the order of its lane. -/
def State.mustStay (s : State) (blocked : List (Option (Nat × Nat × Nat))) (firsts : List ((Nat × Nat × Option Nat) × Bool))
    (x : Held) : Bool :=
  let w := s.waitsFor x
  w.isSome && (blocked.contains w || (if x.first then firsts.contains (s.firstKey x) else firsts.any fun y => y.1 == s.routeKey x))

/-- The oldest packet that can move moves. -/
def forwardFirst (h : Nat) (ce : Bool) (blocked : List (Option (Nat × Nat × Nat))) (firsts : List ((Nat × Nat × Option Nat) × Bool))
    (before : List Held) : List Held → State → State
  | [], s => s
  | x :: rest, s =>
    let stay := if x.first then s.firstKey x :: firsts else firsts
    if s.mustStay blocked firsts x then forwardFirst h ce blocked stay (before ++ [x]) rest s
    else
      match (s.setHeld h (before ++ rest)).forward ce x with
      | some s' => s'
      | none => forwardFirst h ce (s.waitsFor x :: blocked) stay (before ++ [x]) rest s

/-- The frames of ports that went down and wait in the other header, for packets that are not such frames themselves. -/
def State.otherFirsts (s : State) (h : Nat) : List ((Nat × Nat × Option Nat) × Bool) :=
  ((s.heldOf (1 - h)).filter fun x => x.first).map s.firstKey

/-- The port of a header that has bulk frames to replay. -/
def State.replayPort (s : State) (h : Nat) : Option Nat :=
  ((List.range 8).map (· + 8 * h)).find? fun p => !(s.port p).bulk.todo.isEmpty

/-- PACKET_FORWARD (R283): replays leave before new frames (R291); traffic that waited for its pair is taken up where there is room
(R293). -/
def opPacketForward (h : Nat) (s : State) : State :=
  match s.replayPort h with
  | some p => s.sendTodo p false
  | none =>
    let s := s.unstall s.fab.stalled.length
    (forwardFirst h (decide (1024 * s.getF Fld.ABR_E2E_CTRL_CREASE_TH < s.queueBytes h)) [] (s.otherFirsts h) [] (s.heldOf h) s).settledAll

/-! ### Ports going down (R292, R305, R306) -/

/-- The detours of a port, as the table stands (R305). -/
def State.detoursOf (s : State) (p : Nat) : SMap Word :=
  (List.range 256).foldl (fun m i => smapSet (fun _ => (0 : Word)) m i (s.reg (RegId.ABR_DETOUR.addr (p * 256 + i)))) []

/-- A frame of the replay buffer as a packet held again, before its hop. -/
def TxFrame.heldAgain (t : TxFrame) : Held :=
  { p := { t.p with hops := t.p.hops - 1 }, by_ := t.by_, space := none, first := true }

/-- CAUSE of a port that went down (R316). -/
def downCode : DownCause → Nat
  | .lossOfSignal => 1
  | .replayLimit => 2
  | .silence => 3
  | .miswired => 4

/-- A port that carries no traffic any more: its frames that the far end has not acknowledged are held again, ahead of others. -/
def State.stopPort (s : State) (p : Nat) : State :=
  let x := s.port p
  let again := (x.bulk.replay ++ x.express.replay).map TxFrame.heldAgain
  let s := s.setHeld (p / 8) (again ++ s.heldOf (p / 8))
  let s := s.setPort p { Port.reset with wasUp := x.wasUp, detours := x.detours }
  (((s.fitBursts p).stopLanes p).setF (Fld.ABR_PORT_STATUS_UP p) 0)

/-- The first destination that a port's loss affects: of its oldest unacknowledged frame, else of the oldest packet that waits for it
(R306). -/
def State.firstAffected (s : State) (p : Nat) : Option DevCoord :=
  let x := s.port p
  match (x.bulk.replay ++ x.express.replay).head? with
  | some t => some (devOf t.p.dst)
  | none =>
    ((s.fab.held0 ++ s.fab.held1).find? fun y => (s.waitsFor y).any fun w => w.1 == p).map fun y => devOf y.p.dst

/-- A port goes down (R306): out of routing with its detours until the device next enters READY. ABR_FAB_ERR records the first affected
destination where there is one; COUNT counts only broken pairs and unreachable notices (R315). -/
def State.portDown (s : State) (p : Nat) (c : DownCause) : State :=
  if !s.portUp p then s
  else
    let first := s.firstAffected p
    let s := s.updPort p fun x => { x with detours := s.detoursOf p }
    let s := first.elim s fun d => s.fabLog cLINK_LOST d p
    ((s.stopPort p).setFs [(Fld.ABR_PORT_STATUS_DOWN p, 1), (Fld.ABR_PORT_STATUS_CAUSE p, downCode c)]).tickEvent

/-- NAK_ARRIVAL (R290, R291): every frame from the named one is replayed; the seventeenth NAK of one frame in a row says that its 16
replays failed. -/
def opNak (p : Nat) (express : Bool) (q : BitVec 16) (s : State) : State :=
  if !s.portUp p then s
  else
    let l := ((s.port p).lane express).acknowledge (q - 1)
    match l.replay.head? with
    | none => (s.updPort p fun x => x.updLane express fun _ => l).fitBursts p
    | some t =>
      if t.lseq ≠ q then s
      else if 16 ≤ l.tries then s.portDown p .replayLimit
      else
        let s := s.updPort p fun x =>
          { x.updLane express fun _ => { l with tries := l.tries + 1, todo := l.replay.map fun t => t.lseq } with
            leadPaused := x.leadPaused || t.lead }
        ((s.fitBursts p).incF (Fld.ABR_PORT_CNT_REPLAYS p)).tickEvent

/-- CONTROL_FRAME_TICK (R289, R291, R292): a control frame of the other lane than the last one's, with up to two credits, and in LSEQ
the first missing LSEQ that it names (DESIGN CHOICE, log entry 33: the spec gives a NAK no field); one on the express wavelength waits
for its burst (R343). -/
def opControlFrame (p : Nat) (s : State) : State :=
  if !s.portUp p then s
  else
    let x := s.port p
    let express := !((x.ctlDue.or x.ctl).elim true fun f => (linkHdr f).express)
    let l := x.lane express
    let c := fun (i : Nat) => (x.owed.getD i 0)
    let cred : BitVec 32 := c 1 ++ c 0
    let vc : BitVec 2 := if express then 0 else 3
    let l0 : Word := (l.nak.getD 0) ++ (l.rx - 1) ++ BitVec.ofNat 4 (s.getF (Fld.ABR_PORT_STATUS_PEER_PORT p))
      ++ BitVec.ofBool express ++ vc ++ (0 : BitVec 4) ++ (0 : BitVec 1) ++ (1 : BitVec 1) ++ (0 : BitVec 7) ++ (64 : BitVec 12)
    let f : Frame := { l0 := l0, l1 := cred ++ headerCheck l0 cred none, packet := none, pcrc := 0 }
    let y := { (x.updLane express fun l => { l with nak := none }) with owed := x.owed.drop 2 }
    if express then (s.setPort p { y with ctlDue := some f }).fitBursts p else s.setPort p { y with ctl := some f, wire := some f }

/-! ### The meanings -/

/-- FLIT_REPLAY (R26). -/
def execFlitReplay (l : DieLink) (ok : Bool) (s : State) : Res := .next (opFlitReplay l ok s).settledAll

/-- FRAME_LANDING (R34). -/
def execFrameLanding (to_ : Landing) (f : Frame) (corr uncorr : Nat) (s : State) : Res :=
  .next (opFrameLanding to_.port to_.express (linkHdr f) corr uncorr s)

/-- PACKET_FORWARD (R283). -/
def execPacketForward (hdr : Fin 2) (s : State) : Res := .next (opPacketForward hdr s)

/-- CREDIT_RETURN (R289). -/
def execCreditReturn (port : Fin 16) (cred : BitVec 32) (s : State) : Res := .next (opCreditReturn port cred s)

/-- LEAD_PAUSE_EXPIRY (R290). -/
def execLeadPauseExpiry (port : Fin 16) (s : State) : Res := .next (opLeadPause port s)

/-- NAK_ARRIVAL (R291). -/
def execNakArrival (port : Fin 16) (express : Bool) (lseq : BitVec 16) (s : State) : Res := .next (opNak port express lseq s)

/-- CONTROL_FRAME_TICK (R292). -/
def execControlFrameTick (port : Fin 16) (s : State) : Res := .next (opControlFrame port s)

/-- PORT_SILENCE_TIMEOUT (R292). -/
def execPortSilenceTimeout (port : Fin 16) (s : State) : Res := .next (s.portDown port .silence)

/-- PORT_DOWN (R306). -/
def execPortDown (port : Fin 16) (cause : DownCause) (s : State) : Res := .next (s.portDown port cause)

end Sys2Proof.Machine
end

