-- ==== Sys2Proof/Machine/Fabric.lean ====
section
/-! DEFINITION. The fabric end to end: sequenced packets and their acknowledgement (R293 to R302, R411, R430, R433), reads (R300),
atomics (R303, R307 to R310), and pairs that break. -/

namespace Sys2Proof.Machine

/-- A delivered packet leaves the list of those not yet taken. -/
def State.takeArrived (s : State) (p : Packet) : State := { s with fab := { s.fab with arrived := s.fab.arrived.erase p } }

/-! ### The destination side of a pair (R293, R294) -/

/-- Destination state of the pair from a device. -/
def Fabric.dst (f : Fabric) (d : DevCoord) : Option PairDst := f.dsts.find? fun x => x.dev == d

/-- `s` with a pair's destination state replaced. -/
def State.setDst (s : State) (x : PairDst) : State :=
  { s with fab := { s.fab with dsts := (s.fab.dsts.filter fun y => y.dev != x.dev) ++ [x] } }

/-- Room made for destination state: a pair without traffic for 16 ms is retired where all 16,384 are in use. -/
def Fabric.roomForDst (f : Fabric) (now : Nat) : Option Fabric :=
  if f.dsts.length < 16384 then some f
  else (f.dsts.find? fun x => x.ahead.isEmpty && decide (x.last + 16000000 < now)).map fun x =>
    { f with dsts := f.dsts.filter fun y => y.dev != x.dev }

/-- ACK of a sequenced packet (R294, R295): its crease mark is echoed (R296). -/
def State.sendAck (s : State) (x : PairDst) (p : Packet) (seq : BitVec 16) (status : Code) : State :=
  s.inject { s.blankPacket 5 (epOf p.dst) p.src with ackSeq := seq, status := status, pinc := x.pinc, ece := p.ce }

/-! ### What a sequenced packet does (R294, R295, R301) -/

/-- A packet of another device's Ledger that touches the reserve, which guards itself (R411). -/
def State.ledgerPacket (s : State) (p : Packet) (n : Nat) : Bool := epOf p.src == ledgerEp && s.inReserve p.addr.toNat n

/-- The refusal of a packet that reaches device memory, before it has any effect (R6, R288, R295, R411, R430, R433). -/
def State.refusal (s : State) (p : Packet) (perm : Perms) (n : Nat) : State × Code :=
  let a := p.addr.toNat
  let own := s.ledgerPacket p n
  if s.devState = stHELD ∧ !(own && perm.r) then (s, cLEASE_EXPIRED)
  else if !own && p.epoch != BitVec.ofNat 32 (s.getF Fld.ABR_EPOCH_CURRENT) then (s, cEPOCH_STALE)
  else if regionOf a = .regs then (s, cACCESS_DENIED)
  else if !s.mapped a n then (s, cRANGE)
  else if own && perm.w && s.devState == stQUARANTINE then (s, cACCESS_DENIED)
  else
    let x := s.fabricAccess (devOf p.src) (epOf p.src) perm a n
    (x.1, if x.2 then cDONE else cACCESS_DENIED)

/-- A store into the peer slot that covers the manifest's first bytes sets or clears PEER_VALID (R416). -/
def State.peerManifest (s : State) (a n : Nat) : State :=
  let m := s.reserve.2.1
  if overlap (a, n) (m, 4) && s.inPeerSlot a n then
    s.setF Fld.LDG_BASTE_STATS_PEER_VALID (if s.memBytes m 4 = [0x44, 0x5A, 0x42, 0x4D] then 1 else 0)
  else s

/-- STORE (R294): its outcome; `none` while its target is not served. -/
def State.applyStore (s : State) (p : Packet) : Option (State × Code) :=
  let a := p.addr.toNat
  let n := p.payload.length
  if !s.served a n then none
  else
    let c := s.refusal p permW n
    if c.2 ≠ cDONE then some c
    else
      let w := (c.1.wakeStacks a n).devWrite 2 a p.payload
      some (w.1.peerManifest a n, w.2)

/-- FLAG (R61, R294). -/
def State.applyFlag (s : State) (p : Packet) : Option (State × Code) :=
  let a := p.addr.toNat
  if !s.served a 8 then none
  else
    let c := s.refusal p permA 8
    if c.2 ≠ cDONE then some c
    else
      let r := (c.1.wakeStacks a 8).devAmo 2 a 0 1 0
      some (r.1, r.2.1)

/-- A read of the local slot by another device's Ledger is noted (R414). -/
def State.noteReader (s : State) (p : Packet) (n : Nat) : State :=
  if s.ledgerPacket p n && decide (p.addr.toNat < s.reserve.2.1) then
    s.updLdg fun l => { l with readers := (devOf p.src, s.now) :: l.readers.filter fun e => e.1 != devOf p.src }
  else s

/-- GET_REQ (R294, R300): a refusal is acknowledged with its code; the data, or the error that the reads meet, leaves in a GET_RSP. -/
def State.applyGet (s : State) (p : Packet) : Option (State × Code) :=
  let a := p.addr.toNat
  let n := 8 * p.plen.toNat
  if !s.served a n then none
  else
    let c := s.refusal p permR n
    if c.2 ≠ cDONE then some c
    else
      let r := ((c.1.noteReader p n).wakeStacks a n).devRead 2 a n
      let q := { r.1.blankPacket 4 (epOf p.dst) p.src with
        status := r.2.1, ece := p.ce, slot := p.slot, addr := BitVec.ofNat 48 (p.smark.toNat * 2048)
        plen := BitVec.ofNat 9 ((r.2.2.length + 7) / 8), payload := r.2.2 }
      some (r.1.inject q, cDONE)

/-- CHUNK (R213, R214): the packets of a chunk are put together, and the whole chunk goes to its bay. -/
def State.applyChunk (s : State) (p : Packet) : Option (State × Code) :=
  let ep := epOf p.dst
  let b : BayId := BitVec.ofNat 10 ep
  if s.devState = stHELD then some (s, cLEASE_EXPIRED)
  else if p.epoch ≠ BitVec.ofNat 32 (s.getF Fld.ABR_EPOCH_CURRENT) then some (s, cEPOCH_STALE)
  else
    match s.fab.dst (devOf p.src) with
    | none => none
    | some x =>
      let mine := fun (e : Nat × List Byte × List Byte) => e.1 == ep && e.2.1 == p.chunkHdr
      let old := ((x.parts.find? mine).map fun e => e.2.2).getD []
      let bs := old ++ p.payload
      let rest := x.parts.filter fun e => !mine e
      let want := if hdrField p.chunkHdr 12 1 % 2 = 1 then 0 else hdrField p.chunkHdr 24 4
      if bs.length < want then some (s.setDst { x with parts := rest ++ [(ep, p.chunkHdr, bs)] }, cDONE)
      else
        let g := BitVec.ofNat 12 (hdrField p.chunkHdr 0 2)
        match s.rankOf g p.src with
        | none => some (s.setDst { x with parts := rest }, cRANGE)
        | some r =>
          if !s.seamRuns b ∧ ((s.bay b).coll g (BitVec.ofNat 32 (hdrField p.chunkHdr 4 4))).isSome then none
          else
            let s := opChunk b r p.chunkHdr (bs.take want) (s.setDst { x with parts := rest })
            some (s, s.lastCode)

/-- A packet in sequence takes effect; `none` where it cannot yet, and stays unacknowledged. -/
def State.applySeq (s : State) (p : Packet) : Option (State × Code) :=
  match p.type.toNat with
  | 0 => s.applyStore p
  | 1 => s.applyFlag p
  | 2 => s.applyChunk p
  | _ => s.applyGet p

/-- The packet that a pair expects is applied and acknowledged; `none` where it stays. -/
def State.acceptSeq (s : State) (p : Packet) : Option State :=
  let d := devOf p.src
  match s.applySeq p with
  | none => none
  | some r => (r.1.fab.dst d).map fun x =>
    let x := { x with expect := p.seq + 1, ahead := x.ahead.filter fun q => q.seq != p.seq, last := r.1.now }
    (r.1.setDst x).sendAck x p p.seq r.2

/-- Packets held ahead applied as their turn comes. -/
def State.drainAhead (s : State) (d : DevCoord) : Nat → State
  | 0 => s
  | n + 1 =>
    match s.fab.dst d with
    | none => s
    | some x =>
      match x.ahead.find? fun q => q.seq == x.expect with
      | none => s
      | some q =>
        match (s.setDst { x with ahead := x.ahead.filter fun r => r.seq != q.seq }).acceptSeq q with
        | none => s
        | some s' => s'.drainAhead d n

/-- The pair that a packet belongs to: OPEN starts the next incarnation, and a packet of another one is discarded (R298). -/
def State.pairFor (s : State) (p : Packet) : Option (State × PairDst) :=
  let d := devOf p.src
  let fresh : PairDst := { dev := d, pinc := p.pinc, expect := 0, ahead := [], parts := [], last := s.now }
  match s.fab.dst d with
  | some x =>
    if x.pinc = p.pinc then some (s, x)
    else if p.opn = 1 then some (s.setDst fresh, fresh)
    else none
  | none =>
    if p.opn = 1 then (s.fab.roomForDst s.now).map fun f => ({ s with fab := f }.setDst fresh, fresh) else none

/-! ### Atomics at the responder (R303, R307, R308) -/

/-- The header that keeps the record of an atomic (R307). -/
def atomHeader (p : Packet) : Nat := ((devOf p.src).toNat + epOf p.src + p.slot.toNat) % 2

/-- A record of a slot. -/
def AtomRec.is (x : AtomRec) (h : Nat) (d : DevCoord) (b : Nat) (slot : BitVec 8) : Bool :=
  x.hdr == h && x.dev == d && x.bay.toNat == b && x.slot == slot

/-- Log entries of a header in use: results, and tombstones that found no room. -/
def State.logUsed (s : State) (h : Nat) : Nat := (s.fab.atoms.filter fun x => x.hdr == h && (!x.tomb || x.parked)).length

/-- Tombstones of a header. -/
def State.tombs (s : State) (h : Nat) : Nat := (s.fab.atoms.filter fun x => x.hdr == h && x.tomb && !x.parked).length

/-- `a` is newer than `b`, modulo 2¹⁶ within 32,768 (R308). -/
def genNewer (a b : BitVec 16) : Bool := decide (0 < (a - b).toNat) && decide ((a - b).toNat < 32768)

/-- AMO_RSP of an atomic. -/
def State.amoReply (s : State) (p : Packet) (status : Code) (v : Word) : State :=
  s.inject { s.blankPacket 7 (epOf p.dst) p.src with
    status := status, gen := p.gen, slot := p.slot, aop := p.aop, plen := 1, payload := leBytes 8 v.toNat }

/-- A parked tombstone of a header moves to the tombstone store once there is room. -/
def State.unpark (s : State) (h : Nat) : State :=
  if 65536 ≤ s.tombs h then s
  else
    match s.fab.atoms.find? fun x => x.hdr == h && x.parked with
    | none => s
    | some y => { s with fab := { s.fab with atoms := s.fab.atoms.map fun x => if x = y then { x with parked := false } else x } }

/-- The atomic performed, or refused, with its outcome logged and replied. -/
def State.amoPerform (s : State) (p : Packet) : State :=
  let a := p.addr.toNat
  let c := s.refusal p permA 8
  let r := if c.2 ≠ cDONE then (c.1, c.2, (0 : Word))
    else (c.1.wakeStacks a 8).devAmo 2 a p.aop.toNat (BitVec.ofNat 64 (leNat (p.payload.take 8)))
      (BitVec.ofNat 64 (leNat ((p.payload.drop 8).take 8)))
  let h := atomHeader p
  let d := devOf p.src
  let x : AtomRec :=
    { hdr := h, dev := d, bay := BitVec.ofNat 10 (epOf p.src), slot := p.slot, gen := p.gen, tomb := false, parked := false
      status := r.2.1, result := r.2.2, time := r.1.now }
  let s := r.1
  let old := s.fab.atoms.filter fun (y : AtomRec) => !y.is h d (epOf p.src) p.slot
  let s := { s with fab := { s.fab with atoms := old ++ [x] } }
  (s.unpark h).amoReply p r.2.1 r.2.2

/-- CAPACITY replied (R308). -/
def State.amoFull (s : State) (p : Packet) : State := ((s.incF Fld.ABR_ATOM_STATS_CAP_REFUSED).tickEvent).amoReply p cCAPACITY 0

/-- An AMO_REQ whose pair has applied its SMARK handled by the record of its slot (R308). -/
def State.amoHandle (s : State) (p : Packet) : State :=
  let h := atomHeader p
  match s.fab.atoms.find? fun x => x.is h (devOf p.src) (epOf p.src) p.slot with
  | none => if s.logUsed h < 8192 then s.amoPerform p else s.amoFull p
  | some x =>
    if x.gen = p.gen then
      if x.tomb then s else ((s.incF Fld.ABR_ATOM_STATS_DUP_SERVED).tickEvent).amoReply p x.status x.result
    else if genNewer p.gen x.gen then
      if (x.tomb && !x.parked) && decide (8192 ≤ s.logUsed h) then s.amoFull p else s.amoPerform p
    else s

/-- The pair has applied the SEQ that an atomic must follow (R303), and its target is served. -/
def State.amoReady (s : State) (p : Packet) : Bool :=
  s.served p.addr.toNat 8 && (match s.fab.dst (devOf p.src) with
    | some x => if x.pinc = p.pinc then seqCovered p.smark (x.expect - 1) else p.smark == 0xFFFF
    | none => p.smark == 0xFFFF)

/-- Atomics that waited for their pair, once it has caught up. -/
def State.amoWaiting (s : State) : State :=
  let l := s.fab.amoWait.filter s.amoReady
  l.foldl (fun s p => s.amoHandle p) { s with fab := { s.fab with amoWait := s.fab.amoWait.filter fun p => !l.contains p } }

/-- AMO_REQ_ARRIVAL (R303, R307, R308). -/
def opAmoReq (p : Packet) (s : State) : State :=
  if p.type ≠ 6 ∨ devOf p.dst ≠ s.devCoord then s
  else
    let s := s.takeArrived p
    if s.amoReady p then s.amoHandle p
    else if s.fab.amoWait.contains p then s
    else { s with fab := { s.fab with amoWait := s.fab.amoWait ++ [p] } }

/-- AMO_REL_ARRIVAL (R308): the log entry becomes a tombstone, or keeps its place while the tombstone store is full. -/
def opAmoRel (p : Packet) (s : State) : State :=
  if p.type ≠ 8 ∨ devOf p.dst ≠ s.devCoord then s
  else
    let s := s.takeArrived p
    let h := atomHeader p
    let full := decide (65536 ≤ s.tombs h)
    let f := fun (x : AtomRec) =>
      if x.is h (devOf p.src) (epOf p.src) p.slot && x.gen == p.gen && !x.tomb then { x with tomb := true, parked := full, result := 0 }
      else x
    { s with fab := { s.fab with atoms := s.fab.atoms.map f } }

/-- ATOMIC_RECORD_EXPIRY (R308): 20 ms after the atomic was performed. -/
def opAtomicExpiry (h : Nat) (d : DevCoord) (b : BayId) (slot : BitVec 8) (s : State) : State :=
  let gone := fun (x : AtomRec) => x.is h d b.toNat slot && decide (x.time + 20000000 ≤ s.now)
  ({ s with fab := { s.fab with atoms := s.fab.atoms.filter fun x => !gone x } }).unpark h

/-! ### Arrivals of sequenced packets -/

/-- SEQUENCED_PACKET_ARRIVAL (R294 to R296, R298, R303). -/
def opSequenced (p : Packet) (s : State) : State :=
  if 4 ≤ p.type.toNat ∨ devOf p.dst ≠ s.devCoord then s
  else
    match s.pairFor p with
    | none => s.takeArrived p
    | some (s1, x) =>
      if p.seq = x.expect then
        match s1.acceptSeq p with
        | none => s
        | some s2 => (((s2.takeArrived p).drainAhead (devOf p.src) 16).amoWaiting).settledAll
      else if seqCovered p.seq (x.expect - 1) then
        ((s1.takeArrived p).sendAck x p (x.expect - 1) cDONE).tickEvent
      else if x.ahead.length < 16 ∧ !x.ahead.any (fun q => q.seq == p.seq) then
        (s1.takeArrived p).setDst { x with ahead := x.ahead ++ [p], last := s1.now }
      else s1.takeArrived p

/-! ### The source side: acknowledgements, resends, breaks (R293, R296 to R299) -/

/-- The window after an echo: halved by the first of a round trip (R296). -/
def PairSrc.echo (x : PairSrc) (ece : Bool) : PairSrc :=
  if ece ∧ !x.echoed then { x with window := max 8 (x.window / 2), echoed := true } else x

/-- The window after an ACK that advances ACKSEQ (R296): widened by a round trip without an echo. -/
def PairSrc.windowed (x : PairSrc) (ack : BitVec 16) (ece : Bool) : PairSrc :=
  let x := x.echo ece
  if seqCovered x.roundEnd ack then
    { x with window := if x.echoed then x.window else min 128 (x.window + 1), roundEnd := x.next - 1, echoed := false }
  else x

/-- ACK_ARRIVAL (R294 to R296, R304). An ACK that covers nothing new still halves the window with its echo. -/
def opAck (p : Packet) (s : State) : State :=
  if p.type ≠ 5 ∨ devOf p.dst ≠ s.devCoord then s
  else
    let s := s.takeArrived p
    let s := if p.ece = 1 then (s.incF Fld.ABR_E2E_STATS_ECHOES).tickEvent else s
    match s.fab.src (devOf p.src) with
    | none => s
    | some x =>
      let done := x.unacked.filter fun e => seqCovered e.1 p.ackSeq
      if x.broken || x.pinc != p.pinc then s
      else if done.isEmpty then
        let x' := x.echo (p.ece == 1)
        if x'.window < x.window then (s.setSrc x').tickEvent else s.setSrc x'
      else
        let x' := { x with
          unacked := x.unacked.filter fun e => !seqCovered e.1 p.ackSeq, unheard := false, last := s.now }.windowed p.ackSeq (p.ece == 1)
        let s := if x'.window < x.window then (s.setSrc x').tickEvent else s.setSrc x'
        let code := fun (e : BitVec 16 × Req) => if e.1 = p.ackSeq then p.status else cDONE
        let bad := decide (p.status ≠ cDONE) && done.any fun e => e.1 == p.ackSeq
        let s := if bad then s.bitsEvent p.status else s
        let s := done.foldl (fun s e => if e.2.own then s.endReq e.2 (code e) else s.reqDone e.2 (code e)) s
        ((s.pumpAll (devOf p.src)).unstall s.fab.stalled.length).settledAll

/-- A packet of a chunk sent again counts as a packet of its collective (R225). -/
def State.tellChunk (s : State) (r : Req) : State :=
  match r.org with
  | .chunk b g q rank _ _ => s.tell b g q rank
  | _ => s

/-- RTO_EXPIRY (R297): every unacknowledged packet is sent again, its data read again. -/
def opRto (d : DevCoord) (s : State) : State :=
  match s.fab.src d with
  | none => s
  | some x =>
    if x.unacked.isEmpty ∨ x.unacked.any fun e => s.reqWaits e.2 then s
    else
      (x.unacked.foldl (fun s e =>
        let q := s.payloadOf e.2
        if q.2.1 ≠ cDONE then q.1
        else (q.1.tellChunk e.2).inject (q.1.packetOf x e.2 e.1 (e.1 == 0 && x.unheard) q.2.2)) s).tickEvent

/-- PAIR_BREAK_TIMEOUT (R298). -/
def opPairBreak (d : DevCoord) (s : State) : State :=
  match s.fab.src d with
  | none => s
  | some x => if x.unacked.isEmpty then s else (s.breakPair d cLINK_LOST 0).settledAll

/-- PAIR_HOLDOFF_EXPIRY (R298): the next request opens the next incarnation. -/
def opHoldoff (d : DevCoord) (s : State) : State :=
  match s.fab.src d with
  | none => s
  | some x =>
    if !x.broken then s
    else
      let s := { s with fab := { s.fab with
        srcs := s.fab.srcs.filter fun y => y.dev != d, pincs := smapSet (fun _ => 0) s.fab.pincs d.toNat (x.pinc + 1) } }
      (s.unstall s.fab.stalled.length).settledAll

/-- UNREACHABLE_NOTICE_ARRIVAL (R299). -/
def opUnreachable (d : DevCoord) (s : State) : State :=
  let mine := fun (p : Packet) => p.type == 0xC && p.addr == d.setWidth 48
  ({ s with fab := { s.fab with arrived := s.fab.arrived.filter fun p => !mine p } }.breakPair d cLINK_LOST 0).settledAll

/-! ### Reads at the requester (R300) -/

/-- A piece of a GET of a bay arrives: a piece that has arrived already is discarded (R300, R63). -/
def State.getData (s : State) (b : BayId) (p : Packet) : State :=
  let i := p.slot.toNat
  let o := p.addr.toNat
  match (s.bay b).slot i with
  | none => s
  | some x =>
    if x.kind ≠ .get ∨ x.pieces.contains (o / 2048) ∨ x.fail.isSome ∨ x.len ≤ o then s
    else if p.status ≠ cDONE then
      (((s.bitsEvent p.status).failSlot b i p.status).endSlot b i).fetchFails b i
    else
      let n := min 2048 (x.len - o)
      let bs := p.payload.take n
      let x := { x with pieces := (o / 2048) :: x.pieces, acked := x.acked + n }
      match x.forColl with
      | none =>
        let s := (s.setSlot b i (some x)).bayWrite b (x.loc + o) bs
        s.1.endSlot b i
      | some (g, q) =>
        let buf := x.buf ++ [(o, bs)]
        if x.acked < x.len then s.setSlot b i (some { x with buf := buf })
        else
          let s := s.setSlot b i none
          match (s.bay b).coll g q with
          | none => s
          | some c =>
            let a := fieldOf x.dest 0 48
            let bytes := (sortedBy (fun (u v : Nat × List Byte) => decide (u.1 ≤ v.1)) buf).flatMap Prod.snd
            match (s.needed c).find? fun y => y.addr == a && y.len == x.len && s.expDev y.expert == x.dev
                && !c.fetched.any fun z => decide (z.1 = y) with
            | none => s
            | some y => (s.fetchDone b c y bytes).work b g q

/-- A GET_RSP for header DMA whose bytes go to memory that is not served now: it stays at the crossing (R30, R255). -/
def State.pullWaits (s : State) (p : Packet) : Bool :=
  epOf p.dst == dmaEp && ((s.dmaRunning).find? fun c => c.dma == p.slot.toNat && (s.moveOf c).pull && (s.moveOf c).dev == devOf p.src).any
    fun c => !s.served ((s.moveOf c).loc + c.moved + p.addr.toNat) p.payload.length

/-- GET_RSP_ARRIVAL (R300): to a bay's slot, to a restore (R423), or to a pull of header DMA (R458). -/
def opGetRsp (p : Packet) (s : State) : State :=
  if p.type ≠ 4 ∨ devOf p.dst ≠ s.devCoord then s
  else
    let ep := epOf p.dst
    if (decide (ep < 1024) && s.clockOff) || s.pullWaits p then s
    else
      let s := s.takeArrived p
      let s := if p.ece = 1 then (s.incF Fld.ABR_E2E_STATS_ECHOES).tickEvent else s
      if ep < 1024 then (s.getData (BitVec.ofNat 10 ep) p).settledAll
      else if ep = ledgerEp then (s.restoreData (devOf p.src) p.addr.toNat p.status p.payload).settledAll
      else
        match (s.dmaRunning).find? fun c => c.dma == p.slot.toNat && (s.moveOf c).pull && (s.moveOf c).dev == devOf p.src with
        | some c => (s.pullData c p.addr.toNat p.status p.payload).settledAll
        | none => s

/-- GET_RETRY_TIMEOUT (R300): once its GET_REQs are acknowledged, the missing parts of a read are asked for again. -/
def opGetRetry (ep : Nat) (slot : Nat) (s : State) : State :=
  if ep < 1024 then
    let b : BayId := BitVec.ofNat 10 ep
    match (s.bay b).slot slot with
    | none => s
    | some x =>
      if x.kind ≠ .get ∨ x.dev = s.devCoord ∨ s.fab.reqsLeft (.msg b slot x.ord) then s
      else
        ((s.sendReqs x.dev ((slotReqs b slot x).filter fun r => !x.pieces.contains (r.data / 2048))).tickEvent).settledAll
  else if ep = ledgerEp then
    match s.ldg.restore with
    | none => s
    | some j =>
      if s.fab.reqsLeft (.ledger .restore) then s
      else
        let left := j.reqs.filter fun r => !j.pieces.any fun e => e.1 == r.data
        ((j.asked.elim s fun q => s.sendReqs (devOf q.2.coord) left).tickEvent).settledAll
  else
    match (s.dmaRunning).find? fun c => c.dma == slot && (s.moveOf c).pull with
    | none => s
    | some c =>
      let m := s.moveOf c
      if m.dev = s.devCoord ∨ s.fab.reqsLeft (.dma c.k) then s
      else ((s.sendReqs m.dev ((pullReqs c m).filter fun r => !c.pieces.contains (r.data / 2048))).tickEvent).settledAll

/-! ### Atomics at the requester (R309, R310) -/

/-- The remote atomic of a slot that still waits. -/
def State.amoSlot (s : State) (b : BayId) (i : Nat) : Option Slot :=
  ((s.bay b).slot i).bind fun x =>
    if x.kind = .amo ∧ x.dev ≠ s.devCoord ∧ x.acked = 0 ∧ x.fail = none then some x else none

/-- AMO_REL sent (R309). -/
def State.amoRelease (s : State) (b : BayId) (i : Nat) (x : Slot) : State :=
  s.inject { s.blankPacket 8 b.toNat (coordOf x.dev (servingEp (fieldOf x.dest 0 48))) with
    gen := x.gen, slot := BitVec.ofNat 8 i, aop := x.aop }

/-- AMO_RSP_ARRIVAL (R309). -/
def opAmoRsp (p : Packet) (s : State) : State :=
  let b : BayId := BitVec.ofNat 10 (epOf p.dst)
  let i := p.slot.toNat
  if p.type ≠ 7 ∨ devOf p.dst ≠ s.devCoord ∨ s.clockOff then s
  else
    let s := s.takeArrived p
    match s.amoSlot b i with
    | none => s
    | some x =>
      if x.gen ≠ p.gen then s
      else if p.status = cCAPACITY then (s.setSlot b i (some { x with refused := true })).tickEvent
      else
        let s := s.amoRelease b i x
        if p.status = cDONE then (s.deliverAmo b i (BitVec.ofNat 64 (leNat (p.payload.take 8)))).endSlot b i
        else ((s.bitsEvent p.status).failSlot b i p.status).endSlot b i

/-- AMO_RESEND_TIMEOUT (R309): the next send; after the eighth resend OUTCOME_UNKNOWN, and 2 ms after the first send CAPACITY where
the last send was answered so. No send is later than 2 ms after the first: then an atomic without a reply has an unknown outcome too.
One that waits for its turn to leave first (R303) is not sent again. -/
def opAmoResend (b : BayId) (i : Nat) (s : State) : State :=
  match s.amoSlot b i with
  | none => s
  | some x =>
    if s.clockOff || s.fab.reqsLeft (.msg b i x.ord) then s
    else if x.refused then
      if x.first + 2000000 ≤ s.now then (s.failSlot b i cCAPACITY).endSlot b i
      else ((s.setSlot b i (some { x with refused := false })).inject (s.amoReq b i x)).tickEvent
    else if 9 ≤ x.sends ∨ x.first + 2000000 ≤ s.now then
      (((s.incF Fld.ABR_ATOM_STATS_UNKNOWN).bitsEvent cOUTCOME_UNKNOWN).failSlot b i cOUTCOME_UNKNOWN).endSlot b i
    else ((s.setSlot b i (some { x with sends := x.sends + 1 })).inject (s.amoReq b i x)).tickEvent

/-! ### The meanings -/

/-- SEQUENCED_PACKET_ARRIVAL (R294). -/
def execSequencedPacketArrival (p : Packet) (s : State) : Res := .next (opSequenced p s)

/-- ACK_ARRIVAL (R296). -/
def execAckArrival (p : Packet) (s : State) : Res := .next (opAck p s)

/-- RTO_EXPIRY (R297). -/
def execRtoExpiry (dev : DevCoord) (s : State) : Res := .next (opRto dev s)

/-- PAIR_BREAK_TIMEOUT (R298). -/
def execPairBreakTimeout (dev : DevCoord) (s : State) : Res := .next (opPairBreak dev s)

/-- PAIR_HOLDOFF_EXPIRY (R298). -/
def execPairHoldoffExpiry (dev : DevCoord) (s : State) : Res := .next (opHoldoff dev s)

/-- UNREACHABLE_NOTICE_ARRIVAL (R299). -/
def execUnreachableNoticeArrival (dev : DevCoord) (s : State) : Res := .next (opUnreachable dev s)

/-- GET_RSP_ARRIVAL (R300). -/
def execGetRspArrival (p : Packet) (s : State) : Res := .next (opGetRsp p s)

/-- GET_RETRY_TIMEOUT (R300). -/
def execGetRetryTimeout (ep : BitVec 12) (slot : BitVec 8) (s : State) : Res := .next (opGetRetry ep.toNat slot.toNat s)

/-- AMO_REQ_ARRIVAL (R308). -/
def execAmoReqArrival (p : Packet) (s : State) : Res := .next (opAmoReq p s)

/-- AMO_RSP_ARRIVAL (R309). -/
def execAmoRspArrival (p : Packet) (s : State) : Res := .next (opAmoRsp p s)

/-- AMO_REL_ARRIVAL (R308). -/
def execAmoRelArrival (p : Packet) (s : State) : Res := .next (opAmoRel p s)

/-- AMO_RESEND_TIMEOUT (R309). -/
def execAmoResendTimeout (b : BayId) (slot : BitVec 8) (s : State) : Res := .next (opAmoResend b slot.toNat s)

/-- ATOMIC_RECORD_EXPIRY (R308). -/
def execAtomicRecordExpiry (hdr : Fin 2) (dev : DevCoord) (b : BayId) (slot : BitVec 8) (s : State) : Res :=
  .next (opAtomicExpiry hdr dev b slot s)

end Sys2Proof.Machine
end

