-- ==== Sys2Proof/Machine/Optics.lean ====
section
/-! DEFINITION. Optical engines and light control: the firewall (R33, R35, R36), lanes and their messages (R329 to R333), rings
(R334 to R336), lasers and patch lasers (R337 to R342), bursts (R343, R344), circuits (R345, R349) and ports coming up (R281, R292,
R317, R331). -/

namespace Sys2Proof.Machine

/-! ### The firewall (R33, R35, R36) -/

/-- An enabled window of engine `e` covers the access and permits its direction (R35). -/
def State.windowOk (s : State) (e : Nat) (wr : Bool) (off len : Nat) : Bool :=
  (List.range 8).any fun w =>
    s.getF (Fld.OPT_FW_WIN_EN e w) == 1 && s.getF ((if wr then Fld.OPT_FW_WIN_WRITE else Fld.OPT_FW_WIN_READ) e w) == 1
      && decide (s.getF (Fld.OPT_FW_WIN_BASE e w) ≤ off) && decide (off + len ≤ s.getF (Fld.OPT_FW_WIN_LIMIT e w) + 1)

/-- A byte of an engine's own control registers. -/
def State.engByte (s : State) (e off : Nat) : Byte := smapGet (fun _ => 0) s.opt.engRegs (e * 65536 + off)

/-- Bytes written to an engine's own control registers, ascending. -/
def State.engWrite (s : State) (e off : Nat) : List Byte → State
  | [] => s
  | v :: vs => (s.updOpt fun o => { o with engRegs := smapSet (fun _ => 0) o.engRegs (e * 65536 + off) v }).engWrite e (off + 1) vs

/-- ENGINE_REG_ACCESS (R35): a read answers its bytes. The engine's own access needs a window; the light controller and the MSC pass
by the windows. An engine's access of no bytes is refused and counted (DESIGN CHOICE, log entry 71: the spec does not say whether a
window covers an empty access). -/
def opEngineReg (who : EngineAgent) (e : Nat) (wr : Bool) (off len : Nat) (data : List Byte) (s : State) : State :=
  if who = .engine ∧ (len = 0 ∨ !s.windowOk e wr off len) then
    { s.incF (Fld.OPT_FW_STATUS_REFUSE_CNT e) with lastCode := cACCESS_DENIED }
  else if 0x10000 < off + len then { s with lastCode := cRANGE }
  else if wr then { s.engWrite e off (data.take len) with lastCode := cDONE }
  else { s with lastCode := cDONE, lastData := BitVec.ofNat 64 (leNat ((List.range len).map fun i => s.engByte e (off + i))) }

/-- Events that wait for the light controller. -/
def State.evqOf (s : State) (e : Nat) : List Word := smapGet (fun _ => []) s.opt.evq e

/-- The event queue of an engine replaced. -/
def State.setEvq (s : State) (e : Nat) (l : List Word) : State :=
  s.updOpt fun o => { o with evq := smapSet (fun _ => []) o.evq e l }

/-- ENGINE_EVENT (R33): the queue holds 64 events; one that finds it full is lost (DESIGN CHOICE). -/
def opEngineEvent (e : Nat) (ev : Word) (s : State) : State :=
  if 64 ≤ (s.evqOf e).length then s else s.setEvq e (s.evqOf e ++ [ev])

/-- A write of `OPT_FW_CTRL` (R35). -/
def writeFwCtrl (v : Word) (s : State) : State × Code :=
  s.guarded .OPT_FW_CTRL 0 0 v (s.getF Fld.OPT_FW_CTRL_LOCK == 0) cACCESS_DENIED fun s => (s.plainWrite .OPT_FW_CTRL 0 0 v, cDONE)

/-- A write of `OPT_FW_WIN` (R35). -/
def writeFwWin (e w : Nat) (v : Word) (s : State) : State × Code :=
  s.guarded .OPT_FW_WIN e w v (s.getF Fld.OPT_FW_CTRL_LOCK == 0) cACCESS_DENIED fun s => (s.plainWrite .OPT_FW_WIN e w v, cDONE)

/-! ### Numbers of engines, lanes, lasers and rings (R319, R320) -/

/-- Target channel of a ring (R319, R320). -/
def ringTarget (ring : Nat) : Nat := if ring < 96 then ring % 16 else 16

/-- State of a ring; one that was never locked is parked. -/
def State.ring (s : State) (e ring : Nat) : RingState := smapGet (fun _ => RingState.parked) s.opt.rings (e * 101 + ring)

/-- `s` with the state of a ring replaced. -/
def State.setRing (s : State) (e ring : Nat) (x : RingState) : State :=
  s.updOpt fun o => { o with rings := smapSet (fun _ => RingState.parked) o.rings (e * 101 + ring) x }

/-- A ring whose lane cannot be used. -/
def RingState.out : RingState → Bool
  | .lost | .sweeping _ => true
  | _ => false

/-- Rings locked on an engine (R350). -/
def State.ringsLocked (s : State) (e : Nat) : Nat := ((List.range 101).filter fun r => s.ring e r == .locked).length

/-- The laser whose swap runs on an engine. -/
def State.swapLaser (s : State) (e : Nat) : Option Nat := smapGet (fun _ => none) s.opt.swapOf e

/-- A patch laser's light reaches the lane by its select ring: in service, or in the steps of a swap after the switch (R339). -/
def State.onPatch (s : State) (e i : Nat) : Bool :=
  s.getF (Fld.OPT_LANE_PATCHED (portOf e i) (waveOf i)) == 1
    || (s.swapLaser e == some i && decide (4 ≤ s.getF (Fld.OPT_PATCH_PROG_STEP e)))

/-- Mux, demux or patch select ring of a lane that is out (R333, R336). -/
def State.ringsOut (s : State) (e i : Nat) : Bool :=
  (s.ring e i).out || (s.ring e (32 + i)).out || (s.onPatch e i && (s.ring e (64 + i)).out)

/-! ### Lanes (R329 to R333, R340, R352) -/

/-- The lane waits for the far end to stop its direction. -/
def State.laneDrains (s : State) (p w : Nat) : Bool :=
  (s.laneState p w == 3 || s.laneState p w == 4) && s.getF (Fld.OPT_LANE_RUNG p w) != 0

/-- A stripe change of the port is in progress (R332). -/
def State.changing (s : State) (p : Nat) : Bool := s.portUp p && (List.range 16).any fun w => s.laneDrains p w

/-- A change of a lane that waits for the stripe change of its port in progress, once however often it is due. -/
def State.later (s : State) (p w : Nat) (x : LaneDue) : State :=
  s.updOpt fun o => { o with due := o.due.filter (fun y => y != (laneKey p w, x)) ++ [(laneKey p w, x)] }

/-- The port codeword count that a lane message named for a lane's change (R332). Codewords are not counted in the model: a change
takes effect in the step of its message, and only timing depends on where its boundary lies. -/
def State.agree (s : State) (p w n : Nat) : State :=
  s.updOpt fun o => { o with agreed := o.agreed.filter (fun x => x.1 != laneKey p w) ++ [(laneKey p w, n)] }

/-- A lane whose light failed is held (R333): DRAIN goes out at once, or after the port's current stripe change. -/
def State.holdLane (s : State) (p w : Nat) : State :=
  if s.laneState p w ≠ 2 then s
  else if s.changing p then s.later p w .hold
  else
    let r := if s.portUp p then s.getF (Fld.OPT_LANE_RUNG p w) else 0
    (((s.setRungs p w r 0).setLane p w 3).incF (Fld.OPT_LANE_HOLD_CNT p w)).tickEvent

/-- A lane drained to be removed (R340); without a link it is removed at once. -/
def State.drainOut (s : State) (p w : Nat) (keep : Bool) : State :=
  if s.portUp p ∧ s.laneState p w = 2 then
    ((s.setF (Fld.OPT_LANE_TX_RUNG p w) 0).setLane p w 4).updOpt fun o => { o with leaving := o.leaving ++ [(laneKey p w, keep)] }
  else s.removeLane p w keep

/-- The lane of the patch swap in progress on its engine, and the step it has reached. -/
def State.swapStep (s : State) (p w : Nat) : Nat :=
  if smapGet (fun _ => none) s.opt.swapOf (p / 2) = some (laneNo p w) then s.getF (Fld.OPT_PATCH_PROG_STEP (p / 2)) else 0

/-- A lane with a rung in both directions is dealt codewords again (R332); that of a swap only in its last step. -/
def State.joinLane (s : State) (p w : Nat) : State :=
  let st := s.laneState p w
  let k := s.swapStep p w
  if s.portUp p ∧ (st = 1 ∨ st = 4) ∧ s.getF (Fld.OPT_LANE_RUNG p w) ≠ 0 ∧ s.getF (Fld.OPT_LANE_TX_RUNG p w) ≠ 0
      ∧ (k = 0 ∨ k = 5) then
    s.setLane p w 2
  else s

/-- One step of the ladder, of this end's receive direction (R329). -/
def State.stepRung (s : State) (p w r : Nat) : State :=
  let s := (((s.setRise p w none).incF (Fld.OPT_LANE_LADDER_CNT p w))).tickEvent
  if r = 0 then s.drainOut p w false else s.setF (Fld.OPT_LANE_RUNG p w) r

/-- A step of the ladder now, or after the port's current stripe change (R332, R342). -/
def State.dueStep (s : State) (p w r : Nat) : State :=
  if s.laneState p w ≠ 2 then s else if s.changing p then s.later p w (.step r) else s.stepRung p w r

/-- The far receiver's rung becomes this end's transmit rung, now or after the port's current stripe change (R329, R332). -/
def State.farRung (s : State) (p w r : Nat) : State :=
  let st := s.laneState p w
  if st = 1 then s.setF (Fld.OPT_LANE_TX_RUNG p w) r
  else if !s.portUp p ∨ st ≠ 2 ∨ r = s.getF (Fld.OPT_LANE_TX_RUNG p w) then s
  else if s.changing p then s.later p w (.rung r)
  else ((s.setF (Fld.OPT_LANE_TX_RUNG p w) r).incF (Fld.OPT_LANE_LADDER_CNT p w)).tickEvent

/-- The far end may be dealt codewords of a lane again at a rung, now or after another stripe change of the port (R332). -/
def State.farJoin (s : State) (p w r : Nat) : State :=
  let st := s.laneState p w
  if !s.portUp p ∨ r = 0 ∨ st = 0 ∨ st = 5 then s
  else if (List.range 16).any fun v => v != w && s.laneDrains p v then s.later p w (.join r)
  else (s.setF (Fld.OPT_LANE_TX_RUNG p w) r).joinLane p w

/-- A change that waited has its turn. -/
def State.duePart (s : State) (p w : Nat) : LaneDue → State
  | .hold => s.holdLane p w
  | .step r => s.dueStep p w r
  | .rung r => s.farRung p w r
  | .join r => s.farJoin p w r

/-- A stripe change of the port has ended: the changes that waited follow, in order (R332, R342). -/
def State.changeEnds (s : State) (p : Nat) : State :=
  let l := s.opt.due.filter fun x => x.1 / 16 == p
  l.foldl (fun s x => s.duePart p (x.1 % 16) x.2) (s.updOpt fun o => { o with due := o.due.filter fun x => x.1 / 16 != p })

/-- A lane that can be is dealt codewords again; the changes that waited follow. -/
def State.rejoin (s : State) (p w : Nat) : State := (s.joinLane p w).changeEnds p

/-- LANE_DRAIN_MESSAGE (R332): the far end stops dealing to the lane, and this end answers DRAINED and stops its own direction. A DRAIN
that crosses one of this end's is answered at once (DEDUCED, log entry 38): if both ends waited, neither drain would end. -/
def opLaneDrain (p w x : Nat) (s : State) : State :=
  let st := s.laneState p w
  if !s.portUp p then s
  else if st = 2 then (((s.setRungs p w 0 0).setLane p w 4).agree p w x).tickEvent
  else if st = 3 ∨ st = 4 then ((s.setF (Fld.OPT_LANE_RUNG p w) 0).agree p w x).changeEnds p
  else s

/-- LANE_DRAINED_MESSAGE (R332, R340): the far end's direction has stopped too. -/
def opLaneDrained (p w y : Nat) (s : State) : State :=
  if !s.portUp p || !s.laneDrains p w then s
  else (((s.setF (Fld.OPT_LANE_RUNG p w) 0).agree p w y).leaveLane p w).changeEnds p

/-- LANE_RUNG_MESSAGE (R329, R332). -/
def opLaneRung (p w r : Nat) (s : State) : State := s.farRung p w r

/-- LANE_JOIN_MESSAGE (R332): the rung at which this end may deal to the lane again. -/
def opLaneJoin (p w r z : Nat) (s : State) : State :=
  let s' := s.farJoin p w r
  if s.laneState p w ≠ 2 ∧ s'.laneState p w = 2 then (s'.agree p w z).changeEnds p else s'

/-! ### Signal, ladder and training (R329 to R331, R341, R343) -/

/-- A port without light: one that is up goes down, one that waits shows it and trains again when light comes (R292, R330, R331). -/
def opLossOfSignal (p : Nat) (s : State) : State :=
  if s.portUp p then s.portDown p .lossOfSignal
  else if s.getF (Fld.ABR_PORT_STATUS_DOWN p) = 1 then s
  else (s.freshLanes p).setF (Fld.ABR_PORT_STATUS_CAUSE p) 1

/-- The express wavelength of an engine is lost, and with it the signal of both ports (R331, R341, R343). -/
def State.expressLost (s : State) (e : Nat) : State :=
  opLossOfSignal (2 * e + 1) (opLossOfSignal (2 * e) (s.setF (Fld.OPT_ENG_STATUS_EXP_LOST e) 1))

/-- Rung onto which a wavelength trains, by its SNR in quarter-dB (R329). -/
def trainRung (snr : Nat) : Nat := if 76 ≤ snr then 3 else if 64 ≤ snr then 2 else if 48 ≤ snr then 1 else 0

/-- SNR that holds a rung, and SNR that lets it step up after 1 s (R329). -/
def holdSnr (r : Nat) : Nat := match r with
  | 3 => 70
  | 2 => 58
  | _ => 42
def riseSnr (r : Nat) : Option Nat := match r with
  | 1 => some 68
  | 2 => some 80
  | _ => none

/-- SNR_MEASUREMENT (R329, R343): `w` is 16 for the express wavelength, `uncorr` counts the wavelength's uncorrectable codewords of
the last 1 ms. -/
def opSnr (p w : Nat) (snr : Nat) (uncorr : Nat) (s : State) : State :=
  if w = 16 then (if snr < 70 then s.expressLost (p / 2) else s)
  else
    let s := s.setF (Fld.OPT_LANE_SNR p w) snr
    let r := s.getF (Fld.OPT_LANE_RUNG p w)
    if s.laneState p w ≠ 2 ∨ r = 0 then s.setRise p w none
    else if snr < holdSnr r ∨ 4 ≤ uncorr then (s.setRise p w none).dueStep p w (r - 1)
    else
      match riseSnr r with
      | none => s.setRise p w none
      | some x =>
        if snr < x then s.setRise p w none
        else
          match smapGet (fun _ => none) s.opt.rise (laneKey p w) with
          | none => s.setRise p w (some s.now)
          | some t => if t + 1000000000 ≤ s.now then (s.setRise p w none).dueStep p w (r + 1) else s

/-- A lane may train now: in a link that is up, one that is out of the stripe and whose cause has cleared (R333, R336, R339). -/
def State.mayTrain (s : State) (p w : Nat) : Bool :=
  let e := p / 2
  let i := laneNo p w
  let st := s.laneState p w
  let k := s.swapStep p w
  let clear := decide (k = 4) || (decide (k = 0) && decide (3000 ≤ s.getF (Fld.OPT_LASER_POWER e (s.laserOf e i))))
  !s.store.gone.contains (laneKey p w) && !s.ringsOut e i
    && (if s.portUp p then decide (st = 1) || ((decide (st = 3) && clear || decide (st = 4)) && s.getF (Fld.OPT_LANE_RUNG p w) == 0)
        else decide (k = 0) || decide (k = 4))

/-- One lane trains (R330): its demultiplexing ring locks, its SNR is measured, and its rung is chosen. -/
def State.trainLane (s : State) (p w snr : Nat) : State :=
  if !s.mayTrain p w then s
  else
    let e := p / 2
    let i := laneNo p w
    let r := trainRung snr
    let s := ((s.setRing e i .locked).setRing e (32 + i) .locked).setF (Fld.OPT_LANE_SNR p w) snr
    if r = 0 then s.removeLane p w false
    else
      let s := s.setF (Fld.OPT_LANE_RUNG p w) r
      if s.portUp p ∧ s.laneState p w = 4 then s.rejoin p w else (s.setLane p w 1).rejoin p w

/-- A wavelength of the port stands on a rung. -/
def State.onRung (s : State) (p : Nat) : Bool :=
  (List.range 16).any fun w => (s.laneState p w == 1 || s.laneState p w == 2) && s.getF (Fld.OPT_LANE_RUNG p w) != 0

/-- A wavelength of a port that is not up, and that no light lets train, stands on no rung. -/
def State.noLight (s : State) (p w : Nat) : State :=
  if s.portUp p ∨ s.laneState p w ≠ 1 then s else s.setRungs p w 0 0

/-- LANE_TRAINING (R330): the SNR of each wavelength that light and a locked ring let train. -/
def opTraining (p : Nat) (snrs : List (Option (BitVec 8))) (s : State) : State :=
  let s := (List.range 16).foldl (fun s w => match snrs.getD w none with
    | none => s.noLight p w
    | some x => s.trainLane p w x.toNat) s
  if s.portUp p || s.getF (Fld.ABR_PORT_STATUS_DOWN p) == 1 then s
  else s.setF (Fld.ABR_PORT_STATUS_CAUSE p) (if s.onRung p then 0 else 1)

/-! ### Ports coming up (R280, R281, R290, R292, R317, R331, R349, R542) -/

/-- Level of a port (R280). -/
def State.levelOf (s : State) (p : Nat) : Nat := portLevel (s.getF Fld.ABR_CTRL_PROF) p

/-- The far end of a port is wrong (R281); in bench mode only the port itself is right (R542). -/
def State.miswired (s : State) (p : Nat) (peer : DevCoord) (port : Nat) : Bool :=
  if s.power.benching || s.getF Fld.MSC_STATE_BENCH == 1 then !(peer == s.devCoord && port == p)
  else if s.levelOf p = 0 then
    !(levelField 0 peer == (levelField 0 s.devCoord + p + 1) % 8 && port == 6 - p)
  else
    (List.range 64).any fun v =>
      decide (v < 2 ^ (s.levelOf p + if s.levelOf p = 3 then 3 else 2))
        && s.getF (Fld.ABR_LEVEL_VALID (s.levelOf p) v) == 1 && (s.getF (Fld.ABR_LEVEL_PORTMASK (s.levelOf p) v)).testBit p
        && levelField (s.levelOf p) peer != v

/-- A port held down as miswired (R281, R292). -/
def State.holdMiswired (s : State) (p : Nat) : State :=
  if s.portUp p then s.portDown p .miswired
  else
    (s.updPort p fun x => { x with detours := s.detoursOf p }).setFs
      [(Fld.ABR_PORT_STATUS_DOWN p, 1), (Fld.ABR_PORT_STATUS_CAUSE p, downCode .miswired)]

/-- Every named port of a circuit change is up (R349). -/
def State.circuitUp (s : State) (p : Nat) : State :=
  if !(s.getF Fld.OPT_CIRCUIT_PORTS).testBit p || s.getF Fld.OPT_CIRCUIT_STATE < 2 then s
  else
    let up := s.getF Fld.OPT_CIRCUIT_UP ||| 2 ^ p
    let s := s.setF Fld.OPT_CIRCUIT_UP up
    if s.getF Fld.OPT_CIRCUIT_STATE = 2 ∧ up = s.getF Fld.OPT_CIRCUIT_PORTS then
      let s := (s.setFs [(Fld.OPT_CIRCUIT_STATE, 3), (Fld.OPT_CIRCUIT_CODE, cDONE.toNat)]).updOpt fun o => { o with circuitAt := none }
      (s.running 0x33).elim s fun c => s.finishCmd c.k cDONE
    else s

/-- PORT_UP (R281, R292, R331): the exchange of coordinate and port of a port that has trained. -/
def opPortUp (p : Nat) (peer : DevCoord) (port rtt : Nat) (s : State) : State :=
  let e := p / 2
  let long := if p % 2 = 0 then Fld.OPT_ENG_STATUS_TOO_LONG0 e else Fld.OPT_ENG_STATUS_TOO_LONG1 e
  if (s.getF Fld.ABR_CTRL_FAB_EN = 0 ∧ !s.power.benching) ∨ s.portUp p ∨ s.getF (Fld.ABR_PORT_STATUS_DOWN p) = 1 ∨ !s.onRung p
      ∨ s.getF (Fld.OPT_ENG_STATUS_EXP_LOST e) = 1 then s
  else if 5900 < rtt then s.setF long 1
  else
    let s := s.setFs [(long, 0), (Fld.ABR_PORT_STATUS_PEER_DEV p, peer.toNat),
      (Fld.ABR_PORT_STATUS_PEER_PORT p, port)]
    if s.miswired p peer port then s.holdMiswired p
    else
      let s := s.setFs [(Fld.ABR_PORT_STATUS_UP p, 1), (Fld.ABR_PORT_STATUS_CAUSE p, 0)]
      let s := (List.range 16).foldl (fun s w =>
        if s.laneState p w = 1 ∧ s.getF (Fld.OPT_LANE_RUNG p w) ≠ 0 then s.setLane p w 2 else s) s
      let x : Port := { Port.reset with wasUp := true, rtt := rtt }
      (s.setPort p x).circuitUp p

/-- A write of `ABR_LEVEL` (R282, R317): in READY, and never this device's own slot as RELAY. Ports that the entry now gives a wrong
far end are held down (R281). -/
def writeLevel (l v : Nat) (x : Word) (s : State) : State × Code :=
  s.guarded .ABR_LEVEL l v x (s.devState == stREADY) cSTATE_REJECT fun s =>
    let r := s.limitedWrite .ABR_LEVEL l v x [(Fld.ABR_LEVEL_RELAY l v, (Fld.ABR_LEVEL_RELAY l v).of x != levelField 0 s.devCoord)]
    ((List.range 16).foldl (fun s p =>
      let peer : DevCoord := BitVec.ofNat 16 (s.getF (Fld.ABR_PORT_STATUS_PEER_DEV p))
      if s.portUp p && s.levelOf p == l && s.miswired p peer (s.getF (Fld.ABR_PORT_STATUS_PEER_PORT p)) then s.holdMiswired p else s) r.1,
      r.2)

/-! ### Rings (R334 to R336) -/

/-- The lane that a ring serves; the express rings serve none. -/
def ringLane (ring : Nat) : Option Nat := if ring < 96 then some (ring % 32) else none

/-- The lane of a ring held. -/
def State.holdRing (s : State) (e ring : Nat) : State :=
  (ringLane ring).elim s fun i => s.holdLane (portOf e i) (waveOf i)

/-- WRONG_LINE (R336, R348): flag, log, the lane held, and the sweep begun; a transmit ring pulls the other lane's light away. -/
def State.wrongLine (s : State) (e ring found : Nat) : State :=
  let s := if s.getF Fld.OPT_WRONG_LINE_LOG_VALID = 1 then s
    else s.setFs [(Fld.OPT_WRONG_LINE_LOG_VALID, 1), (Fld.OPT_WRONG_LINE_LOG_ENGINE, e), (Fld.OPT_WRONG_LINE_LOG_RING, ring),
      (Fld.OPT_WRONG_LINE_LOG_EXPECTED, ringTarget ring), (Fld.OPT_WRONG_LINE_LOG_FOUND, found)]
  let s := (((s.stick Fld.OPT_FLAGS_WRONG_LINE Fld.OPT_WRONG_LINE_CNT_COUNT).setRing e ring (.sweeping 0)).tickEvent).holdRing e ring
  if ring < 32 ∧ found < 16 then s.holdLane (portOf e ring) found else s

/-- RING_LOOP_UPDATE (R334, R335): the error in MHz and the tags found. The light controller reads one event of the engine. -/
def opRingLoop (e ring : Nat) (err : Int) (tags : List (Fin 17)) (s : State) : State :=
  let s := s.setEvq e ((s.evqOf e).drop 1)
  match s.ring e ring with
  | .parked | .lost | .sweeping _ => s
  | .locked | .drifting =>
    match tags.find? fun t => t.val != ringTarget ring with
    | some t => s.wrongLine e ring t.val
    | none =>
      if err.natAbs ≤ 500 then s.setRing e ring .locked
      else if err.natAbs ≤ 3000 then s.setRing e ring .drifting
      else (s.setRing e ring .lost).holdRing e ring

/-- A held lane whose rings are back trains again (R330, R333). -/
def State.laneBack (s : State) (e i : Nat) : State :=
  let p := portOf e i
  let w := waveOf i
  if s.laneState p w = 3 ∧ !s.ringsOut e i ∧ s.getF (Fld.OPT_LANE_RUNG p w) = 0
      ∧ 3000 ≤ s.getF (Fld.OPT_LASER_POWER e (s.laserOf e i)) then s.setLane p w 1
  else s

/-- RING_RELOCK_DONE (R334). -/
def opRelock (e ring : Nat) (s : State) : State :=
  match s.ring e ring with
  | .lost =>
    let s := s.setRing e ring .locked
    (ringLane ring).elim s fun i => s.laneBack e i
  | _ => s

/-- WRONG_LINE_SWEEP_DONE (R336): the second sweep that finds no target tag removes the lane. -/
def opSweep (e ring : Nat) (found : Bool) (s : State) : State :=
  match s.ring e ring with
  | .sweeping n =>
    if found then
      let s := s.setRing e ring .locked
      (ringLane ring).elim s fun i => s.laneBack e i
    else if n = 0 then s.setRing e ring (.sweeping 1)
    else
      let s := s.setRing e ring .parked
      (ringLane ring).elim s fun i => s.removeLane (portOf e i) (waveOf i) true
  | _ => s

/-! ### Lasers and patch lasers (R337 to R342, R351, R353) -/

/-- STATE of a laser. -/
def State.laserState (s : State) (e l : Nat) : Nat := s.getF (Fld.OPT_LASER_STATE e l)

/-- The lowest-numbered spare patch laser of an engine (R339). -/
def State.spare (s : State) (e : Nat) : Option Nat := (List.range 4).find? fun k => s.laserState e (33 + k) == 5

/-- Channel that a data or express laser serves. -/
def laserChan (l : Nat) : Nat := if l = 32 then 16 else l % 16

/-- Lasers of an engine that wait for their swap. -/
def State.swapWait (s : State) (e : Nat) : List Nat := smapGet (fun _ => []) s.opt.swapQ e

/-- A laser with no spare for it: its lane is drained and removed (R340), or the express wavelength is lost below 30 % (R341). -/
def State.noSpare (s : State) (e l : Nat) : State :=
  if l = 32 then (if s.getF (Fld.OPT_LASER_POWER e 32) < 3000 then s.expressLost e else s)
  else
    let p := portOf e l
    let w := waveOf l
    if s.changing p ∨ s.opt.leaving.any (fun x => x.1 == laneKey p w) then s
    else
      let s := s.drainOut p w true
      if s.laneState p w = 5 then s.laserOff e l else s

/-- A swap begins: the patch laser is tuned (R339). -/
def State.swapBegin (s : State) (e l k : Nat) : State :=
  let s := s.updOpt fun o => { o with swapOf := smapSet (fun _ => none) o.swapOf e (some l) }
  (s.setFs [(Fld.OPT_LASER_STATE e (33 + k), 1), (Fld.OPT_LASER_CHAN e (33 + k), laserChan l),
    (Fld.OPT_ENG_STATUS_PATCH_FREE e, s.getF (Fld.OPT_ENG_STATUS_PATCH_FREE e) - 1), (Fld.OPT_ENG_STATUS_SWAP_BUSY e, 1),
    (Fld.OPT_PATCH_PROG_STEP e, 1), (Fld.OPT_PATCH_PROG_PATCH e, k), (Fld.OPT_PATCH_PROG_EXPRESS e, if l = 32 then 1 else 0),
    (Fld.OPT_PATCH_PROG_LANE e, l % 32)]).tickEvent

/-- A laser below 65 % asks for a patch: one swap at a time, the express laser first (R339 to R342). -/
def State.askSwap (s : State) (e l : Nat) : State :=
  let q := s.swapWait e
  if s.swapLaser e = some l ∨ q.contains l then s
  else
    match s.spare e with
    | none => s.noSpare e l
    | some k =>
      if (s.swapLaser e).isNone then s.swapBegin e l k
      else s.updOpt fun o => { o with swapQ := smapSet (fun _ => []) o.swapQ e (if l = 32 then l :: q else q ++ [l]) }

/-- FADE (R338). -/
def State.fade (s : State) (e l power : Nat) : State :=
  if s.laserState e l = 2 ∧ power < 8000 then
    (s.stick Fld.OPT_FLAGS_FADE Fld.OPT_FADE_CNT_COUNT).setF (Fld.OPT_LASER_STATE e l) 3
  else if s.laserState e l = 3 ∧ 8500 ≤ power then s.setF (Fld.OPT_LASER_STATE e l) 2
  else s

/-- Lane that a patch laser in service serves; 32 for the express path. -/
def State.patchLane (s : State) (e k : Nat) : Option Nat :=
  (List.range 33).find? fun i => smapGet (fun _ => none) s.store.patched (33 * e + i) == some k

/-- LASER_POWER_MEASUREMENT (R333, R337 to R341): the output in hundredths of a percent of the commissioning power. -/
def opLaserPower (e l power : Nat) (s : State) : State :=
  let s := s.setF (Fld.OPT_LASER_POWER e l) power
  if s.laserState e l ≠ 2 ∧ s.laserState e l ≠ 3 then s
  else
    let s := s.fade e l power
    let lane := if l < 32 then some l else if l = 32 then none else (s.patchLane e (l - 33)).filter fun i => i < 32
    let s := if power < 3000 then lane.elim s fun i => s.holdLane (portOf e i) (waveOf i) else s
    if l ≤ 32 ∧ power < 6500 then s.askSwap e l
    else if 32 < l ∧ power < 3000 ∧ s.patchLane e (l - 33) = some 32 ∧ (s.spare e).isNone then s.expressLost e
    else (lane.elim s fun i => s.laneBack e i)

/-- The next laser that waits on the engine has its turn. -/
def State.swapNext (s : State) (e : Nat) : State :=
  match s.swapWait e with
  | [] => s
  | l :: q => (s.updOpt fun o => { o with swapQ := smapSet (fun _ => []) o.swapQ e q }).askSwap e l

/-! ### Circuits (R345, R349) -/

/-- One port of a circuit change: out of routing, its receive rings to be locked onto the light of the new far end, its lanes to be
trained. -/
def State.circuitPort (s : State) (p : Nat) : State :=
  let e := p / 2
  let s := (s.stopPort p).updPort p fun x => { x with wasUp := false, detours := [] }
  let s := s.setFs [(Fld.ABR_PORT_STATUS_DOWN p, 0), (Fld.ABR_PORT_STATUS_CAUSE p, 1), (Fld.ABR_PORT_STATUS_PEER_DEV p, 0),
    (Fld.ABR_PORT_STATUS_PEER_PORT p, 0)]
  let s := (List.range 16).foldl (fun s w => s.setRing e (32 + laneNo p w) .parked) (s.freshLanes p)
  s.setRing e (96 + p % 2) .lost

/-- The circuit change starts once its mark is reached and no swap of a named port's engine runs (R342, R345); a mark that passes in
HOLD fires on leaving HOLD (R367). -/
def State.circuitGo (s : State) : State :=
  let ports := (List.range 16).filter fun p => (s.getF Fld.OPT_CIRCUIT_PORTS).testBit p
  if s.getF Fld.OPT_CIRCUIT_STATE ≠ 1 ∨ s.devState = stHOLD ∨ s.now < s.getF Fld.OPT_CIRCUIT_MARK_MARK
      ∨ ports.any (fun p => (s.swapLaser (p / 2)).isSome) then s
  else
    let s := s.launchFired (s.getF Fld.OPT_CIRCUIT_MARK_MARK) s.now
    let s := (s.setFs [(Fld.OPT_CIRCUIT_STATE, 2), (Fld.OPT_CIRCUIT_UP, 0)]).updOpt fun o => { o with circuitAt := some s.now }
    let s := ports.foldl State.circuitPort s
    if ports.isEmpty then
      let s := (s.setFs [(Fld.OPT_CIRCUIT_STATE, 3), (Fld.OPT_CIRCUIT_CODE, cDONE.toNat)]).updOpt fun o => { o with circuitAt := none }
      (s.running 0x33).elim s fun c => s.finishCmd c.k cDONE
    else s

/-- A circuit change may be set up now (R345, R349). -/
def State.circuitOpen (s : State) : Bool :=
  s.devState == stREADY && s.getF Fld.OPT_CIRCUIT_STATE != 1 && s.getF Fld.OPT_CIRCUIT_STATE != 2

/-- A circuit change armed. -/
def State.circuitArm (s : State) : State :=
  (s.setFs [(Fld.OPT_CIRCUIT_STATE, 1), (Fld.OPT_CIRCUIT_CODE, 0), (Fld.OPT_CIRCUIT_UP, 0)])

/-- A write of `OPT_CIRCUIT` (R349). -/
def writeCircuit (v : Word) (s : State) : State × Code :=
  s.guarded .OPT_CIRCUIT 0 0 v s.circuitOpen cSTATE_REJECT fun s =>
    let s := s.plainWrite .OPT_CIRCUIT 0 0 v
    (if Fld.OPT_CIRCUIT_START.of v = 1 then s.circuitArm else s, cDONE)

/-- A write of `OPT_CIRCUIT_MARK` (R349). -/
def writeCircuitMark (v : Word) (s : State) : State × Code :=
  s.guarded .OPT_CIRCUIT_MARK 0 0 v s.circuitOpen cSTATE_REJECT fun s => (s.plainWrite .OPT_CIRCUIT_MARK 0 0 v, cDONE)

/-- CIRCUIT_TIMEOUT (R349): 5 ms after the start. -/
def opCircuitTimeout (s : State) : State :=
  match s.opt.circuitAt with
  | none => s
  | some t =>
    if s.getF Fld.OPT_CIRCUIT_STATE ≠ 2 ∨ s.now < t + 5000000 then s
    else
      let s := (s.setFs [(Fld.OPT_CIRCUIT_STATE, 3), (Fld.OPT_CIRCUIT_CODE, cTIMEOUT.toNat)]).updOpt fun o => { o with circuitAt := none }
      (s.running 0x33).elim s fun c => s.finishCmd c.k cTIMEOUT

/-- The host command CIRCUIT (R345, R456, R465). -/
def opCircuit (k : Nat) (s : State) : State :=
  s.begin k 0x33 (fun s _ => ⟨!s.circuitOpen, cDONE, []⟩) fun c s =>
    (s.setFs [(Fld.OPT_CIRCUIT_PORTS, c.f 0 0 16), (Fld.OPT_CIRCUIT_MARK_MARK, (c.op_ 1).toNat)]).circuitArm

/-! ### Swaps step by step (R339, R341, R342) -/

/-- A swap completes: the old laser is retired and the patch in service (R339, R353). -/
def State.swapEnd (s : State) (e l : Nat) : State :=
  let k := s.getF (Fld.OPT_PATCH_PROG_PATCH e)
  let s := (s.setFs [(Fld.OPT_LASER_STATE e l, 4), (Fld.OPT_LASER_CHAN e l, 0x1F), (Fld.OPT_LASER_STATE e (33 + k), 2),
    (Fld.OPT_PATCH_PROG_STEP e, 0), (Fld.OPT_ENG_STATUS_SWAP_BUSY e, 0)]).incF (Fld.OPT_PATCH_PROG_SWAPS e)
  let s := if l = 32 then s.setF (Fld.OPT_ENG_STATUS_EXP_LOST e) 0
    else s.setFs [(Fld.OPT_LANE_PATCHED (portOf e l) (waveOf l), 1), (Fld.OPT_LANE_PATCH (portOf e l) (waveOf l), k)]
  let s := { s with store := { s.store with
    retired := s.store.retired ++ [37 * e + l], patched := smapSet (fun _ => none) s.store.patched (33 * e + l) (some k) } }
  ((s.updOpt fun o => { o with swapOf := smapSet (fun _ => none) o.swapOf e none }).circuitGo).swapNext e

/-- Step `n` of the swap on an engine begins. -/
def State.swapTo (s : State) (e n : Nat) : State := s.setF (Fld.OPT_PATCH_PROG_STEP e) n

/-- A ring of the lane of a swap is out, or its select ring on the wrong line: the swap pauses (R342). -/
def State.swapPauses (s : State) (e l : Nat) : Bool :=
  (s.ring e l).out || (s.ring e (32 + l)).out || (match s.ring e (64 + l) with
    | .sweeping _ => true
    | _ => false)

/-- PATCH_SWAP_STEP for a data laser: it waits for a sweep of its lane, for another stripe change, and for what its own step needs. A
lane that is not in the stripe has nothing to drain; with the port not up the swap runs without traffic (R342). -/
def State.swapData (s : State) (e l : Nat) : State :=
  let p := portOf e l
  let w := waveOf l
  let up := s.portUp p
  let st := s.laneState p w
  if s.swapPauses e l then s
  else
    match s.getF (Fld.OPT_PATCH_PROG_STEP e) with
    | 1 =>
      if up ∧ st = 2 ∧ s.changing p then s
      else if up ∧ st = 2 then ((s.setF (Fld.OPT_LANE_TX_RUNG p w) 0).setLane p w 4).swapTo e 2
      else if st = 1 then (s.setRungs p w 0 0).swapTo e 2
      else s.swapTo e 2
    | 2 => if up ∧ s.laneDrains p w then s else (s.setRing e (64 + l) .lost).swapTo e 3
    | 3 => (s.setRing e (64 + l) .locked).swapTo e 4
    | 4 => if up ∧ st ≠ 5 ∧ s.getF (Fld.OPT_LANE_RUNG p w) = 0 then s else (s.swapTo e 5).rejoin p w
    | 5 => if up ∧ st ≠ 5 ∧ st ≠ 2 then s else s.swapEnd e l
    | _ => s

/-- PATCH_SWAP_STEP (R339): the current step completes. An express patch is tuned, and its switch is EXPRESS_PATCH_SWAP. -/
def opSwapStep (e : Nat) (s : State) : State :=
  match s.swapLaser e with
  | none => s
  | some l =>
    if l = 32 then (if s.getF (Fld.OPT_PATCH_PROG_STEP e) = 1 then s.swapTo e 3 else s)
    else s.swapData e l

/-- EXPRESS_PATCH_SWAP (R341): the express path moves to the tuned patch. -/
def opExpressSwap (e : Nat) (s : State) : State :=
  if s.swapLaser e = some 32 ∧ s.getF (Fld.OPT_PATCH_PROG_STEP e) = 3 then (s.setRing e 100 .locked).swapEnd e 32 else s

/-- The oldest express frame of a port put on the link: a control frame that waits, else the next data frame. -/
def State.burst (s : State) (p : Nat) : State :=
  match (s.port p).ctlDue with
  | some f => s.updPort p fun x => { x with ctlDue := none, ctl := some f, wire := some f }
  | none => s.sendTodo p true

/-- EXPRESS_BURST (R343, R344): the port with the older head frame is served; frames wait while the express path is switched. -/
def opBurst (e port : Nat) (s : State) : State :=
  match smapGet (fun _ => []) s.opt.expressQ e with
  | [] => s
  | x :: q =>
    if x ≠ port ∨ (s.swapLaser e = some 32 ∧ s.getF (Fld.OPT_PATCH_PROG_STEP e) = 3) then s
    else
      (s.burst (2 * e + port)).updOpt fun o =>
        { o with expressQ := smapSet (fun _ => []) o.expressQ e q, steer := smapSet (fun _ => 0) o.steer e port }

/-! ### Lighting (R347, R353, R539) -/

/-- Roles of the lasers, and what the on-module store keeps: removed lanes, retired lasers, patches in service (R353, R539). -/
def State.lightStore (s : State) : State :=
  (List.range 8).foldl (fun s e =>
    let s := (List.range 37).foldl (fun s l => s.setFs [(Fld.OPT_LASER_ROLE e l, if l < 32 then 0 else if l = 32 then 1 else 2),
      (Fld.OPT_LASER_COMM_UW e l, Config.commissioned e l),
      (Fld.OPT_LASER_STATE e l, if s.store.retired.contains (37 * e + l) then 4
        else if l < 33 then 0 else if (s.patchLane e (l - 33)).isSome then 0 else 5)]) s
    let s := s.setF (Fld.OPT_ENG_STATUS_PATCH_FREE e) ((List.range 4).filter fun k => (s.patchLane e k).isNone).length
    (List.range 32).foldl (fun s i =>
      let s := if s.store.gone.contains (laneKey (portOf e i) (waveOf i)) then s.setLane (portOf e i) (waveOf i) 5 else s
      match smapGet (fun _ => none) s.store.patched (33 * e + i) with
      | none => s
      | some k => s.setFs [(Fld.OPT_LANE_PATCHED (portOf e i) (waveOf i), 1), (Fld.OPT_LANE_PATCH (portOf e i) (waveOf i), k)]) s) s

/-- The rings that are in use beside those of the lanes (R334): the express rings, and the select rings of patches in service. Their
loops run until they lock. -/
def State.ringsOn (s : State) (e : Nat) : State :=
  let s := [96, 97, 98, 99].foldl (fun s r => s.setRing e r .lost) s
  (List.range 33).foldl (fun s i =>
    match smapGet (fun _ => none) s.store.patched (33 * e + i) with
    | none => s
    | some _ => s.setRing e (if i = 32 then 100 else 64 + i) .lost) s

/-- The lasers in use are lit, and the ports wait for light (R292, R539). -/
def State.lightOn (s : State) : State :=
  let s := (List.range 8).foldl (fun s e => (List.range 33).foldl (fun s i =>
    let l := match smapGet (fun _ => none) s.store.patched (33 * e + i) with
      | none => i
      | some k => 33 + k
    if i < 32 ∧ s.store.gone.contains (laneKey (portOf e i) (waveOf i)) then s
    else
      let s := s.setFs [(Fld.OPT_LASER_STATE e l, 2), (Fld.OPT_LASER_CHAN e l, laserChan i)]
      if i < 32 then s.setLane (portOf e i) (waveOf i) 1 else s) (s.ringsOn e)) s
  (List.range 16).foldl (fun s p => s.setF (Fld.ABR_PORT_STATUS_CAUSE p) 1) s

/-- The ports stop and every laser is switched off (R514). -/
def State.lightOff (s : State) : State :=
  let s := (List.range 16).foldl (fun s p => (s.stopPort p).setFs [(Fld.ABR_PORT_STATUS_DOWN p, 0), (Fld.ABR_PORT_STATUS_CAUSE p, 0)]) s
  let s := (List.range 8).foldl (fun s e => (List.range 37).foldl (fun s l =>
    if s.laserState e l = 2 ∨ s.laserState e l = 3 then s.laserOff e l else s) s) s
  (List.range 16).foldl (fun s p => (List.range 16).foldl (fun s w =>
    if s.laneState p w = 5 then s else (s.setRungs p w 0 0).setLane p w 0) s) s

/-! ### The meanings -/

/-- ENGINE_REG_ACCESS (R35). -/
def execEngineRegAccess (by_ : EngineAccess) (wr : Bool) (off : BitVec 16) (len : Nat) (data : List Byte) (s : State) : Res :=
  .next (opEngineReg by_.who by_.engine wr off.toNat len data s)

/-- ENGINE_EVENT (R33). -/
def execEngineEvent (e : Fin 8) (ev : Word) (s : State) : Res := .next (opEngineEvent e ev s)

/-- PORT_UP (R281). -/
def execPortUp (port : Fin 16) (peerDev : DevCoord) (peerPort : BitVec 4) (rttNs : Nat) (s : State) : Res :=
  .next (opPortUp port peerDev peerPort.toNat rttNs s)

/-- LANE_DRAIN_MESSAGE (R332). -/
def execLaneDrainMessage (port : Fin 16) (w : Fin 16) (x : Nat) (s : State) : Res := .next (opLaneDrain port w x s)

/-- LANE_DRAINED_MESSAGE (R332). -/
def execLaneDrainedMessage (port : Fin 16) (w : Fin 16) (y : Nat) (s : State) : Res := .next (opLaneDrained port w y s)

/-- LANE_RUNG_MESSAGE (R332). -/
def execLaneRungMessage (port : Fin 16) (w : Fin 16) (r : Fin 4) (s : State) : Res := .next (opLaneRung port w r s)

/-- LANE_JOIN_MESSAGE (R332). -/
def execLaneJoinMessage (port : Fin 16) (w : Fin 16) (r : Fin 4) (z : Nat) (s : State) : Res := .next (opLaneJoin port w r z s)

/-- SNR_MEASUREMENT (R329). -/
def execSnrMeasurement (port : Fin 16) (w : Fin 17) (snr : BitVec 8) (uncorr : Nat) (s : State) : Res :=
  .next (opSnr port w snr.toNat uncorr s)

/-- LANE_TRAINING (R330). -/
def execLaneTraining (port : Fin 16) (snrs : List (Option (BitVec 8))) (s : State) : Res := .next (opTraining port snrs s)

/-- LOSS_OF_SIGNAL (R331). -/
def execLossOfSignal (port : Fin 16) (s : State) : Res := .next (opLossOfSignal port s)

/-- LANE_HOLD (R333). -/
def execLaneHold (port : Fin 16) (w : Fin 16) (s : State) : Res := .next (s.holdLane port w)

/-- RING_LOOP_UPDATE (R334). -/
def execRingLoopUpdate (e : Fin 8) (ring : Fin 101) (errMhz : Int) (tags : List (Fin 17)) (s : State) : Res :=
  .next (opRingLoop e ring errMhz tags s)

/-- RING_RELOCK_DONE (R334). -/
def execRingRelockDone (e : Fin 8) (ring : Fin 101) (s : State) : Res := .next (opRelock e ring s)

/-- WRONG_LINE_SWEEP_DONE (R336). -/
def execWrongLineSweepDone (e : Fin 8) (ring : Fin 101) (found : Bool) (s : State) : Res := .next (opSweep e ring found s)

/-- LASER_POWER_MEASUREMENT (R338). -/
def execLaserPowerMeasurement (e : Fin 8) (l : Fin 37) (power : BitVec 16) (s : State) : Res := .next (opLaserPower e l power.toNat s)

/-- PATCH_SWAP_STEP (R339). -/
def execPatchSwapStep (e : Fin 8) (s : State) : Res := .next (opSwapStep e s)

/-- EXPRESS_PATCH_SWAP (R341). -/
def execExpressPatchSwap (e : Fin 8) (s : State) : Res := .next (opExpressSwap e s)

/-- EXPRESS_BURST (R344). -/
def execExpressBurst (e : Fin 8) (port : Fin 2) (s : State) : Res := .next (opBurst e port s)

/-- CIRCUIT_CHANGE_AT_MARK (R345). -/
def execCircuitChangeAtMark (s : State) : Res := .next s.circuitGo

/-- CIRCUIT_TIMEOUT (R349). -/
def execCircuitTimeout (s : State) : Res := .next (opCircuitTimeout s)

/-- CIRCUIT (R345). -/
def execCircuit (k : Nat) (s : State) : Res := .next (opCircuit k s)

end Sys2Proof.Machine
end

