-- ==== Sys2Proof/Machine/Scribe.lean ====
section
/-! DEFINITION. The scribe timebase and the calendar: the reference (R354 to R356), the count (R357, R358), alignment (R359 to
R364), the calendar, its alarm and the latch (R369 to R373), and the writes of their registers (R374 to R376). -/

namespace Sys2Proof.Machine

/-- `s` with the timebase changed. -/
def State.updScr (s : State) (f : Scribe → Scribe) : State := { s with scr := f s.scr }

/-- The counter runs: in RESET only once the PLLs have locked for the bench check (R357, R539, R541). -/
def State.scribeRuns (s : State) : Bool :=
  (decide (stRECOVERY ≤ s.devState) && s.devState != stLATCHED) || (s.devState == stRESET && s.power.benching)

/-! ### The reference (R354 to R356, R364) -/

/-- DEGRADED is set (R364). -/
def State.degrade (s : State) : State :=
  if s.getF Fld.SCR_STATUS_DEGRADED = 1 then s else (s.setF Fld.SCR_STATUS_DEGRADED 1).tickEvent

/-- The reference is declared lost (R355). -/
def State.refLost (s : State) : State :=
  if s.getF Fld.SCR_STATUS_REF_SRC = 1 then s
  else ((((s.stick Fld.SCR_FLAGS_REF_LOST Fld.SCR_REF_LOST_CNT_COUNT).setF Fld.SCR_STATUS_REF_SRC 1)).degrade).tickEvent

/-- REF_LOST (R354, R355): no edge, or a window's frequency in hundredths of a ppm beyond 200 ppm. -/
def opRefLost (c : RefLostCause) (s : State) : State :=
  match c with
  | .noEdge => s.refLost
  | .frequency x =>
    let s := s.setF Fld.SCR_REF_FREQ_PPM (BitVec.ofInt 32 x).toNat
    if 20000 < x.natAbs then s.refLost else s

/-- REF_RETURN (R356): REF_LOST stays until software clears it. -/
def opRefReturn (s : State) : State := s.setF Fld.SCR_STATUS_REF_SRC 0

/-! ### The count (R358, R365) -/

/-- The servo of a follower may advance the next tick by `adv`: by 2 or by 0 where that brings the offset still owed nearer to zero, or,
with less than half a tick owed, follows the parent's rate (R362). -/
def State.slews (s : State) (adv : Nat) : Bool :=
  let owe := s.scr.owe.getD 0
  s.getF Fld.SCR_SYNC_ROLE == 2 &&
    ((adv == 2 && (decide (4 < owe) || (decide (-4 ≤ owe) && decide (0 < s.scr.drift))))
      || (adv == 0 && (decide (owe < -4) || (decide (owe ≤ 4) && decide (s.scr.drift < 0)))))

/-- SCRIBE_TICK (R358): the servo may hold or double one tick in 2,048; any other tick advances by 1. Packets that waited to be sent are
taken up (R293). -/
def opScribeTick (adv : Nat) (s : State) : State :=
  if !s.scribeRuns then s
  else
    let slew := decide (2047 ≤ s.scr.sinceSlew) && s.slews adv
    let s := s.updScr fun x => { x with
      sinceSlew := if slew then 0 else min 2048 (x.sinceSlew + 1)
      owe := if slew then x.owe.map fun o => o + 8 - 8 * adv else x.owe }
    let s := s.incF Fld.SCR_COUNT_COUNT (if slew then adv else 1)
    let s := if slew then s.tickEvent else s
    if s.fab.stalled.isEmpty then s else (s.unstall s.fab.stalled.length).settledAll

/-! ### Marks that have passed (R358, R366, R367) -/

/-- Entries of the launch queue with a mark at or before `limit` fire in mark order (R358, R366). -/
def State.fireUpTo (s : State) (limit : Nat) : Nat → State
  | 0 => s
  | n + 1 =>
    match s.launchQueue with
    | [] => s
    | c :: _ => if c.mark.toNat ≤ limit then (opLaunchFire s).fireUpTo limit n else s

/-- A circuit change and an epoch change that are armed, in mark order (R365). -/
def State.armedMarks (s : State) : List (Nat × (State → State)) :=
  let c := if s.getF Fld.OPT_CIRCUIT_STATE = 1 then [(s.getF Fld.OPT_CIRCUIT_MARK_MARK, State.circuitGo)] else []
  let e := if s.getF Fld.ABR_EPOCH_CTRL_STATE = 1 then [(s.getF Fld.ABR_EPOCH_MARK_MARK, opEpochChange)] else []
  sortedBy (fun a b => decide (a.1 ≤ b.1)) (c ++ e)

/-- What a passed mark holds back fires, in mark order; of equal marks the launch queue's first (R358, R367). -/
def State.fireMarks (s : State) : State :=
  (s.armedMarks.foldl (fun s e => if e.1 ≤ s.now then e.2 (s.fireUpTo e.1 256) else s) s).fireUpTo s.now 256

/-- The waits of a bay for a mark looked at again. -/
def State.releaseBay (s : State) (b : BayId) : State := opWaitScribeRelease b .seam (opWaitScribeRelease b .main s)

/-- The count stepped to a value (R358): what a passed mark holds back fires at once. -/
def State.stepCount (s : State) (v : Nat) : State :=
  let s := ((s.setF Fld.SCR_COUNT_COUNT v).tickEvent).fireMarks
  s.bays.foldl (fun s e => s.releaseBay (BitVec.ofNat 10 e.1)) s

/-- RESUME (R30, R367, R461): packets whose data waited in bay memory leave, and the launches whose mark passed in HOLD fire. -/
def opResumeLaunches (k : Nat) (s : State) : State :=
  let t := opResume k s
  if s.devState = stHOLD ∧ t.devState ≠ stHOLD then (t.fab.srcs.foldl (fun s x => s.pumpAll x.dev) t).fireMarks else t

/-- A write of `SCR_SET` (R358, R376). -/
def writeScrSet (v : Word) (s : State) : State × Code :=
  if s.devState = stREADY then (s.stepCount v.toNat, cDONE) else (s, cSTATE_REJECT)

/-- A device that is no follower has no parent to lose or to be degraded against (R364). -/
def State.unfollow (s : State) : State :=
  if s.getF Fld.SCR_SYNC_ROLE = 2 then s else s.updScr fun x => { x with degraded := [], outside := 0 }

/-- A write of `SCR_SYNC` (R359, R376): ROLE 3 has no effect. -/
def writeSync (v : Word) (s : State) : State × Code :=
  s.guarded .SCR_SYNC 0 0 v (s.devState == stREADY) cSTATE_REJECT fun s =>
    let r := s.limitedWrite .SCR_SYNC 0 0 v [(Fld.SCR_SYNC_ROLE, Fld.SCR_SYNC_ROLE.of v != 3)]
    (r.1.unfollow, r.2)

/-- A write of `SCR_ASYM` (R376). -/
def writeAsym (p : Nat) (v : Word) (s : State) : State × Code := s.stateWrite .SCR_ASYM p v (s.devState == stREADY)

/-! ### Alignment (R359 to R364) -/

/-- The port that leads to the parent: the backup where the parent's is not up (R364). -/
def State.parentPort (s : State) : Option Nat :=
  let p := s.getF Fld.SCR_SYNC_PARENT
  let b := s.getF Fld.SCR_SYNC_BACKUP
  if s.portUp p then some p else if b ≠ 15 ∧ s.portUp b then some b else none

/-- A TIME packet sent on a port to the device there (R288, R360); one that finds no space is not sent. -/
def State.sendTime (s : State) (port : Nat) (words : List Word) : State :=
  let peer : DevCoord := BitVec.ofNat 16 (s.getF (Fld.ABR_PORT_STATUS_PEER_DEV port))
  let p := { s.blankPacket 0xA dmaEp (coordOf peer dmaEp) with
    epoch := 0, plen := 4, payload := words.flatMap fun w => leBytes 8 w.toNat }
  let kind := if s.levelOf port = 0 then 2 else 3
  match s.space port 0 kind (cellsOf (frameBytes p)) with
  | none => s
  | some how => s.sendFrame { p := p, by_ := .here, space := none, first := false } port kind how false

/-- Word 0 of an exchange (R360). -/
def timeWord (kind : Nat) (xseq : BitVec 16) (port : Nat) : Word :=
  BitVec.ofNat 64 (kind * 2 ^ 56 + xseq.toNat * 2 ^ 40 + port * 2 ^ 36)

/-- A timestamp (R360): bits 60:0 of a scribe count, and eighths of a tick, the low three bits of `x`. -/
def timeStamp (count : Nat) (x : Word) : Word := BitVec.ofNat 61 count ++ x.extractLsb' 0 3

/-- The payload of a TIME packet. -/
def timeBytes (words : List Word) : List Byte := words.flatMap fun w => leBytes 8 w.toNat

/-- The count at the landing of a TIME packet, the present one where no landing of it is held (R360). -/
def State.landedAt (s : State) (words : List Word) : Nat :=
  ((s.scr.landed.find? fun e => e.1 == timeBytes words).map Prod.snd).getD s.now

/-- A delivered TIME packet taken by its arrival. -/
def State.takeTime (s : State) (words : List Word) : State :=
  { s with
    fab := { s.fab with arrived := s.fab.arrived.eraseP fun p => p.type == 0xA && p.payload == timeBytes words }
    scr := { s.scr with landed := s.scr.landed.eraseP fun e => e.1 == timeBytes words } }

/-- TIME_EXCHANGE_SEND (R360): `t1` gives the eighths of the stamp. -/
def opTimeSend (xseq : BitVec 16) (t1 : Word) (s : State) : State :=
  if !s.scribeRuns || s.getF Fld.SCR_SYNC_ROLE != 2 then s
  else
    match s.parentPort with
    | none => s
    | some p =>
      let t1 := timeStamp s.now t1
      (s.updScr fun x => { x with sent := x.sent ++ [(xseq, t1)] }).sendTime p [timeWord 1 xseq p, t1, 0, 0]

/-- TIME_REQUEST_ARRIVAL (R359, R360): a master or a follower answers on the port of the request; `t2` and `t3` give the eighths of the
stamps of the landing and of the reply. -/
def opTimeRequest (port : Nat) (words : List Word) (t2 t3 : Word) (s : State) : State :=
  let w := words.getD 0 0
  let t2 := timeStamp (s.landedAt words) t2
  let s := s.takeTime words
  if !s.scribeRuns || s.getF Fld.SCR_SYNC_ROLE == 0 || fieldOf w 56 8 != 1 || !s.portUp port then s
  else s.sendTime port [timeWord 2 (w.extractLsb' 40 16) port, words.getD 1 0, t2, timeStamp s.now t3]

/-- An exchange's round trip and offset in eighths of a tick (R361). -/
def exchange (t1 t2 t3 t4 : Word) (a : Int) : Int × Int :=
  let fwd := (t2 - t1).toInt
  let back := (t4 - t3).toInt
  (fwd + back, (fwd - back + a) / 2)

/-- The median of a list: of two middle values, their mean rounded down. -/
def median (l : List Int) : Int :=
  let l := sortedBy (fun a b => decide (a ≤ b)) l
  let n := l.length
  if n % 2 = 1 then l.getD (n / 2) 0 else (l.getD (n / 2 - 1) 0 + l.getD (n / 2) 0) / 2

/-- The smallest of the round trips. -/
def smallest : List Int → Int
  | [] => 0
  | x :: l => l.foldl min x

/-- The servo takes up a median (R362): what the parent's count gained since the last one beyond the slews made is its rate. -/
def Scribe.aim (x : Scribe) (m : Int) : Scribe :=
  { x with owe := some m, drift := (x.owe.map fun o => m - o).getD x.drift }

/-- The servo after an accepted exchange (R362, R364): OFFSET, LOCKED, the conditions of DEGRADED, and a step in READY. -/
def State.servo (s : State) : State :=
  if s.scr.offs.length < 8 then s
  else
    let m := median s.scr.offs
    let s := s.setF Fld.SCR_STATUS_OFFSET (BitVec.ofInt 16 (max (-32767) (min 32767 m))).toNat
    let within := if m.natAbs ≤ 16 then s.scr.within + 1 else 0
    let out := if 400 < m.natAbs then s.scr.outside + 1 else 0
    let s := s.updScr fun x => { x with
      within := min within 16, outside := min out 16
      degraded := x.degraded.filter (fun c => c != DegradedCause.offsetOutside) ++ (if 16 ≤ out then [DegradedCause.offsetOutside] else []) }.aim m
    let s := if 16 ≤ out then s.degrade else s
    let s := if 16 ≤ within then s.setF Fld.SCR_STATUS_LOCKED 1
      else if 400 < m.natAbs then s.setF Fld.SCR_STATUS_LOCKED 0 else s
    if s.devState = stREADY ∧ 8000 < m.natAbs then
      (s.updScr fun x => { x with offs := [], owe := some 0 }).stepCount (BitVec.ofInt 64 (s.now + m / 8)).toNat
    else s

/-- TIME_REPLY_ARRIVAL (R361, R362): `t4` gives the eighths of the stamp of its landing. -/
def opTimeReply (port : Nat) (words : List Word) (t4 : Word) (s : State) : State :=
  let w := words.getD 0 0
  let t4 := timeStamp (s.landedAt words) t4
  let s := s.takeTime words
  let x := w.extractLsb' 40 16
  if fieldOf w 56 8 ≠ 2 ∨ !s.scr.sent.any (fun e => e.1 == x) then s
  else
    let s := s.updScr fun y => { y with sent := y.sent.filter fun e => e.1 != x }
    let a := (BitVec.ofNat 16 (s.getF (Fld.SCR_ASYM_ASYM port))).toInt
    let r := exchange (words.getD 1 0) (words.getD 2 0) (words.getD 3 0) t4 a
    if s.scr.rtts ≠ [] ∧ smallest s.scr.rtts + 64 < r.1 then s
    else
      let s := s.updScr fun y => { y with
        rtts := (r.1 :: y.rtts).take 64, offs := (r.2 :: y.offs).take 8
        degraded := y.degraded.filter fun c => c == .offsetOutside }
      ((s.incF Fld.SCR_STATUS_EXCH).setF Fld.SCR_STATUS_DELAY (BitVec.ofInt 16 ((r.1 - a) / 2 / 8)).toNat).servo

/-- TIME_REPLY_TIMEOUT (R361): the oldest request still without its reply is given up. -/
def opTimeTimeout (s : State) : State := s.updScr fun x => { x with sent := x.sent.drop 1 }

/-- The condition of R364 can hold. -/
def State.degradedCause (s : State) : DegradedCause → Bool
  | .noExchange => s.getF Fld.SCR_SYNC_ROLE == 2
  | .offsetOutside => decide (16 ≤ s.scr.outside)
  | .parentLost => s.getF Fld.SCR_SYNC_ROLE == 2 && s.parentPort.isNone

/-- DEGRADED_TIMEOUT (R364). -/
def opDegraded (c : DegradedCause) (s : State) : State :=
  if !s.degradedCause c then s
  else (s.updScr fun x => { x with degraded := x.degraded.filter (fun d => d != c) ++ [c] }).degrade

/-- DEGRADED_CLEAR (R364): no condition has held for 10 ms. -/
def opDegradedClear (s : State) : State :=
  if s.getF Fld.SCR_STATUS_REF_SRC = 1 ∨ s.scr.degraded.any s.degradedCause then s else s.setF Fld.SCR_STATUS_DEGRADED 0

/-! ### The calendar (R369 to R373) -/

/-- The alarm fires once the calendar is at or past it (R372); in PATROL the wake is an event of its own. -/
def State.alarmCheck (s : State) : State :=
  if s.getF Fld.SCR_CAL_STATUS_ARMED = 1 ∧ s.getF Fld.SCR_CAL_ALARM_ALARM ≤ (s.reg RegId.SCR_CAL.addr).toNat then
    let s := s.setFs [(Fld.SCR_CAL_STATUS_ARMED, 0), (Fld.SCR_CAL_STATUS_FIRED, 1)]
    if s.devState = stPATROL ∨ s.devState = stOFF then s else s.mgmtEvent 5 0
  else s

/-- The cell at charge `n`: CELL_LOW below 30 % of its charge, and with nothing left the calendar it feeds stops (R370). -/
def State.setCell (s : State) (n : Nat) : State :=
  let s := { s with power := { s.power with
    cell := n, calOn := s.power.calOn && (s.power.aux || s.power.v48 || decide (0 < n)) } }
  let low := if 10 * n < 3 * cellFull then 1 else 0
  if s.getF Fld.SCR_CAL_STATUS_CELL_LOW = low then s else s.setF Fld.SCR_CAL_STATUS_CELL_LOW low

/-- The cell over one calendar tick (R370, R548, R549): the charger fills it, and a calendar without another source draws on it; a full
cell lasts at least three years, so how much a tick draws is open. -/
def State.cellTick (s : State) : State :=
  if s.power.aux && s.power.charging then
    if s.power.cell = cellFull then s else s.setCell (min cellFull (s.power.cell + 548))
  else if s.power.aux || s.power.v48 then s
  else
    let d := s.draw
    d.1.setCell (s.power.cell - d.2 % 2)

/-- CALENDAR_TICK (R369, R370, R372, R373). -/
def opCalendarTick (s : State) : State :=
  if !s.power.calOn then s
  else
    let s := (s.setReg RegId.SCR_CAL.addr (s.reg RegId.SCR_CAL.addr + 2)).alarmCheck
    let s := if s.scr.latchArmed then
        (s.updScr fun x => { x with latchArmed := false }).setFs [(Fld.SCR_LATCH_COUNT_COUNT, s.now),
          (Fld.SCR_LATCH_CAL_CAL, (s.reg RegId.SCR_CAL.addr).toNat), (Fld.SCR_LATCH_READY, 1)]
      else s
    s.cellTick

/-- A write of `SCR_LATCH` (R373, R377). -/
def writeLatch (v : Word) (s : State) : State × Code :=
  (if Fld.SCR_LATCH_GO.of v = 1 then (s.updScr fun x => { x with latchArmed := true }).setF Fld.SCR_LATCH_READY 0 else s, cDONE)

/-- CELL_EMPTY (R370): the calendar stops where nothing but the cell feeds it. -/
def opCellEmpty (s : State) : State :=
  if s.power.aux || s.power.v48 then s else s.setCell 0

/-- A source returns to a calendar that had stopped: it counts from 0 with VALID clear (R370). -/
def State.calendarBack (s : State) : State :=
  if s.power.calOn then s
  else
    let s := { s with power := { s.power with calOn := true } }
    (s.setReg RegId.SCR_CAL.addr 0).setF Fld.SCR_CAL_STATUS_VALID 0

/-! ### The meanings -/

/-- REF_LOST (R355). -/
def execRefLost (c : RefLostCause) (s : State) : Res := .next (opRefLost c s)

/-- REF_RETURN (R356). -/
def execRefReturn (s : State) : Res := .next (opRefReturn s)

/-- SCRIBE_TICK (R358). -/
def execScribeTick (adv : Fin 3) (s : State) : Res := .next (opScribeTick adv s)

/-- TIME_EXCHANGE_SEND (R360). -/
def execTimeExchangeSend (xseq : BitVec 16) (t1 : Word) (s : State) : Res := .next (opTimeSend xseq t1 s)

/-- TIME_REQUEST_ARRIVAL (R360). -/
def execTimeRequestArrival (port : Fin 16) (words : List Word) (t2 t3 : Word) (s : State) : Res :=
  .next (opTimeRequest port words t2 t3 s)

/-- TIME_REPLY_ARRIVAL (R361). -/
def execTimeReplyArrival (port : Fin 16) (words : List Word) (t4 : Word) (s : State) : Res := .next (opTimeReply port words t4 s)

/-- TIME_REPLY_TIMEOUT (R361). -/
def execTimeReplyTimeout (s : State) : Res := .next (opTimeTimeout s)

/-- DEGRADED_TIMEOUT (R364). -/
def execDegradedTimeout (c : DegradedCause) (s : State) : Res := .next (opDegraded c s)

/-- DEGRADED_CLEAR (R364). -/
def execDegradedClear (s : State) : Res := .next (opDegradedClear s)

/-- CALENDAR_TICK (R369). -/
def execCalendarTick (s : State) : Res := .next (opCalendarTick s)

/-- CELL_EMPTY (R370). -/
def execCellEmpty (s : State) : Res := .next (opCellEmpty s)

end Sys2Proof.Machine
end

