-- ==== Sys2Proof/Machine/Trust.lean ====
section
/-! DEFINITION. The root of trust: the firmware image and its checks (R473 to R475), firmware writes and the recovery mailbox (R477
to R479), measurements (R483, R496) and the writes of the access tables (R490 to R494). -/

namespace Sys2Proof.Machine

/-! ### The firmware image (R473, R474) -/

/-- Size of the image header. -/
def imageHeader : Nat := 8192

/-- Bytes `o` to `o + n - 1` of an image. -/
def imgPart (h : List Byte) (o n : Nat) : List Byte := (h.drop o).take n

/-- All bytes of a part are zero. -/
def imgZero (h : List Byte) (o n : Nat) : Bool := (imgPart h o n).all fun b => b == 0

/-- SVN, VERSION and BODY_LEN of a header. -/
def imgSvn (h : List Byte) : Nat := manNum h 8 1
def imgVersion (h : List Byte) : Nat := manNum h 16 8
def imgBody (h : List Byte) : Nat := manNum h 24 8

/-- The digest that the signature is made over (R473). -/
def imgDigest (h : List Byte) : List Byte := sha3 (h.take 2848)

/-- MAGIC, FORMAT and the zero fields. -/
def imgFormat (h : List Byte) : Bool :=
  decide (h.length = imageHeader) && h.take 4 == [0x44, 0x5A, 0x46, 0x57] && manNum h 4 2 == 1 && imgZero h 6 2 && imgZero h 9 7
    && imgZero h 160 96 && imgZero h 7475 717

/-- BODY_LEN lies in its range. -/
def imgSize (h : List Byte) : Bool := decide (1 ≤ imgBody h) && decide (imgBody h ≤ 0x2000000 - imageHeader)

/-- The key slot that authenticates a header, if one that is not revoked does (R474). -/
def State.keySlot (s : State) (h : List Byte) : Option Nat :=
  let id := imgPart h 96 64
  if sha3 (imgPart h 256 2592) ≠ id then none
  else (List.range 4).find? fun k => !(s.getF Fld.MSC_FW_STATUS_REVOKED).testBit k && Config.romKeyHash k == id

/-- The signature of a header verifies (R473). -/
def imgSigned (h : List Byte) : Bool :=
  Config.verify (imgPart h 256 2592) [0x44, 0x5A, 0x46, 0x57] (imgDigest h) (imgPart h 2848 4627)

/-! ### Firmware writes (R477, R478, R534) -/

/-- Progress of a firmware write: POSITION counts KiB (R469). -/
def State.fwProg (s : State) (st n total : Nat) (code : Code) : State :=
  s.setFs [(Fld.MSC_FW_PROG_PCT, if total = 0 then 0 else 10000 * n / total), (Fld.MSC_FW_PROG_STATE, st),
    (Fld.MSC_FW_PROG_CODE, code.toNat), (Fld.MSC_FW_PROG_POSITION, n / 1024)]

/-- Bytes of a write so far. -/
def State.fwBytes (s : State) : List Byte := s.fwWrite.elim [] fun w => w.bytes

/-- Bytes of the image of a write; zero while its header has not arrived. -/
def fwTotal (bs : List Byte) : Nat := if imageHeader ≤ bs.length then imageHeader + imgBody (bs.take imageHeader) else 0

/-- The write ends, IMAGE as it stands. -/
def State.fwEnd (s : State) (code : Code) : State :=
  let bs := s.fwBytes
  { s.fwProg (if code = cDONE then 2 else 3) bs.length (fwTotal bs) code with fwWrite := none }

/-- Code of the checks of a header that has arrived (R477). -/
def State.headerCode (s : State) (h : List Byte) : Code :=
  if !imgFormat h then cMALFORMED
  else if (s.keySlot h).isNone || !imgSigned h then cACCESS_DENIED
  else if imgSvn h < s.getF Fld.MSC_FW_STATUS_FUSE_COUNT || 64 < imgSvn h || !imgSize h then cRANGE
  else cDONE

/-- A chunk taken in image order (R477): the header is checked once it is whole, and the flash is written from then on. A chunk that
runs past the image ends the write with RANGE. -/
def State.fwChunk (s : State) (chunk : List Byte) : State × Code :=
  let old := s.fwBytes
  let bs := old ++ chunk
  let s := { s with fwWrite := some ⟨bs⟩ }
  if bs.length < imageHeader then (s.fwProg 1 bs.length 0 cDONE, cDONE)
  else
    let code := if imageHeader ≤ old.length then cDONE else s.headerCode (bs.take imageHeader)
    if code ≠ cDONE then (s.fwEnd code, code)
    else if fwTotal bs < bs.length then (s.fwEnd cRANGE, cRANGE)
    else
      let s := (s.setF Fld.MSC_FW_STATUS_IMAGE 2).fwProg 1 bs.length (fwTotal bs) cDONE
      ({ s with store := { s.store with flash := bs } }, cDONE)

/-- Every byte of the image has arrived. -/
def State.fwWhole (s : State) : Bool :=
  let bs := s.fwBytes
  decide (imageHeader ≤ bs.length) && decide (bs.length = fwTotal bs)

/-- The body digest compared (R477, R478): the outcome of the write, and in RECOVERY a reset after success. -/
def State.fwFinish (s : State) : State × Code :=
  let bs := s.fwBytes
  let ok := sha3 (bs.drop imageHeader) == imgPart bs 32 64
  let code := if ok then cDONE else cDIGEST_FAIL
  let s := (s.setF Fld.MSC_FW_STATUS_IMAGE (if ok then 0 else 1)).fwEnd code
  (if s.devState = stRECOVERY ∧ ok then { s with power := { s.power with resetDue := true } } else s, code)

/-! ### The recovery mailbox (R479) -/

/-- CODE and BYTES of the mailbox. -/
def State.mbxShow (s : State) (code : Code) : State :=
  s.setFs [(Fld.MSC_MBX_STATUS_CODE, code.toNat), (Fld.MSC_MBX_STATUS_BYTES, s.fwBytes.length)]

/-- A write of `MSC_MBX_CTRL`, which responds only in RECOVERY: RESTART discards the write in progress, GO hands LEN bytes of the
data window to the loader. A GO with a LEN outside 1 to 2,048 hands over nothing (RANGE). -/
def writeMbx (v : Word) (s : State) : State × Code :=
  if s.devState ≠ stRECOVERY then (s, cDONE)
  else
    let s := s.plainWrite .MSC_MBX_CTRL 0 0 v
    let s := if Fld.MSC_MBX_CTRL_RESTART.of v = 1 then ({ s with fwWrite := none }).mbxShow cDONE else s
    let n := s.getF Fld.MSC_MBX_CTRL_LEN
    if Fld.MSC_MBX_CTRL_GO.of v = 0 ∨ s.getF Fld.MSC_MBX_STATUS_READY = 0 then (s, cDONE)
    else if n = 0 ∨ 2048 < n then (s, cRANGE)
    else
      let bs := ((List.range 256).flatMap fun i => leBytes 8 (s.getF (Fld.MSC_MBX_DATA_DATA i))).take n
      let r := if s.fwWhole then (s.fwEnd cRANGE, cRANGE) else s.fwChunk bs
      (r.1.mbxShow r.2, cDONE)

/-! ### Measurements (R483, R496) -/

/-- The job states in which measurements and tables are written, HOLD among them. -/
def State.tableStates (s : State) : Bool := s.jobStates || s.devState == stHOLD

/-- A write of `MSC_MEAS_EXT` (R496). -/
def writeMeasExt (v : Word) (s : State) : State × Code :=
  let go := Fld.MSC_MEAS_EXT_GO.of v == 1
  let r := Fld.MSC_MEAS_EXT_REG.of v
  if go && !s.tableStates then (s, cSTATE_REJECT)
  else if go && decide (r < 5) then (s, cACCESS_DENIED)
  else
    let s := s.plainWrite .MSC_MEAS_EXT 0 0 v
    (if go then s.extendMeas r ((List.range 8).flatMap fun w => leBytes 8 (s.getF (Fld.MSC_MEAS_DATA_DATA w))) else s, cDONE)

/-! ### Access tables (R490 to R494) -/

/-- Some table is locked. -/
def State.anyLock (s : State) : Bool := (List.range 1116).any fun t => s.getF (Fld.MSC_ACC_CTRL_LOCK t) == 1

/-- A write that R490 and R493 guard: refused by state first, and then by a lock. -/
def State.tableWrite (s : State) (r : RegId) (i j : Nat) (v : Word) (locked : Bool) : State × Code :=
  s.guarded r i j v (s.tableStates && !locked) (if s.tableStates then cACCESS_DENIED else cSTATE_REJECT) fun s =>
    (s.plainWrite r i j v, cDONE)

/-- A write of an entry word of table `t` (R490, R493). -/
def writeAcc (r : RegId) (t i : Nat) (v : Word) (s : State) : State × Code :=
  s.tableWrite r t i v (s.getF (Fld.MSC_ACC_CTRL_LOCK t) == 1)

/-- A write of `MSC_BAY_GROUP` or `MSC_PEER_RANGE` (R493). -/
def writeGroups (r : RegId) (i : Nat) (v : Word) (s : State) : State × Code := s.tableWrite r i 0 v s.anyLock

/-- A write of `MSC_ACC_CTRL`: LOCK fixes the entries until reset (R492). -/
def writeAccCtrl (t : Nat) (v : Word) (s : State) : State × Code := (s.plainWrite .MSC_ACC_CTRL t 0 v, cDONE)

end Sys2Proof.Machine
end

