-- ==== Sys2Proof/Machine/Power.lean ====
section
/-! DEFINITION. What survives a loss of power, the boot and the power-on sequence (R475, R476, R512, R537 to R541), resets and inputs
(R505, R516, R540, R547 to R549, R552), wakes from PATROL and the entry into it (R510 to R515). -/

namespace Sys2Proof.Machine

/-- `s` with power changed. -/
def State.updPower (s : State) (f : Power → Power) : State := { s with power := f s.power }

/-! ### What survives (R272, R353, R357, R505, R525, R526, R540) -/

/-- Registers of the calendar, the always-on domain and the on-module store. -/
def keptRegs : List Nat :=
  [RegId.SCR_CAL.addr, RegId.SCR_CAL_ALARM.addr, RegId.SCR_CAL_STATUS.addr, RegId.TPC_SHUTDOWN.addr, RegId.TPC_PATROL.addr,
   RegId.TPC_WAKE.addr, RegId.TPC_AGE.addr, RegId.TPC_AGE_SHARE.addr, RegId.HBM_CAP.addr]
    ++ (List.range 5).map (fun q => RegId.TPC_PATROL_LIM.addr q) ++ (List.range 4).map (fun i => RegId.HBM_PC_FAILED.addr i)

/-- Fields kept of registers whose other fields reset: the fuses, IMAGE, and what re-plans keep. -/
def keptFields : List Field :=
  [Fld.MSC_FW_STATUS_FUSE_COUNT, Fld.MSC_FW_STATUS_REVOKED, Fld.MSC_FW_STATUS_IMAGE, Fld.TPC_AGE_SUPPLY_REPLANS,
   Fld.TPC_AGE_SUPPLY_OFFSET]

/-- Registers after a loss of power, the registers for which `p` holds being kept whole. -/
def State.clearRegs (s : State) (p : Nat → Bool) : State :=
  let old := s
  let s := { s with regs := s.regs.filter fun e => keptRegs.contains e.1 || p e.1 }
  s.setFs (keptFields.map fun f => (f, old.getF f))

/-- HBM after a loss of power: the slice table and the failed pseudo-channels are kept (R272), with the moves of a fold that the loss
cut short, which `HBM_CAP` counts (R259). -/
def Hbm.cleared (h : Hbm) : Hbm :=
  { Hbm.reset with slices := h.foldOver.slices, waiting := h.waiting, train := h.train.filter fun e => e.2 == .dead }

/-- Every content lost but those of the host's memory, the store, the always-on domain and the calendar (R540). -/
def State.powerClear (s : State) : State :=
  let s := s.clearRegs fun _ => false
  let z := State.reset
  State.foldPending { z with
    pending := s.pending, regs := s.regs, hbm := s.hbm.cleared, host := { HostIf.reset with mem := s.host.mem }, store := s.store
    power := { s.power with good := false, samples := [], booted := false, benching := false, resetDue := false, patrolDue := false
                            offDue := false, crossed := [] }
    fresh := s.fresh, lastCode := s.lastCode, lastData := s.lastData }

/-- The always-on domain has lost every source: patrol settings, wake record and thermal latch are as after first power (R516, R549). -/
def State.alwaysOnLost (s : State) : State :=
  let regs := [RegId.TPC_PATROL.addr, RegId.TPC_WAKE.addr] ++ (List.range 5).map fun q => RegId.TPC_PATROL_LIM.addr q
  let s := regs.foldl (fun s a => s.setReg a (regDefault a)) s
  (s.setF Fld.TPC_SHUTDOWN_LATCH 0).updPower fun p => { p with addrOnly := false, lastSample := none }

/-- The MSC does not run: the device state without the events of a change. -/
def State.darkState (s : State) (n : Nat) : State := s.setF Fld.MSC_STATE_STATE n

/-! ### Rails up (R505, R512, R539) -/

/-- The rails are up: the device enters RESET, or LATCHED where the thermal latch is set. -/
def State.railsUp (s : State) (samples : List Straps) (refOk : Bool) : State :=
  let s := s.powerClear
  let s := s.setF Fld.MSC_MGMT_STATIC (0x50 + ((samples.head?.map fun x => x.slot.toNat).getD 0))
  if s.getF Fld.TPC_SHUTDOWN_LATCH = 1 then s.setDevState stLATCHED
  else s.updPower fun p => { p with good := true, samples := samples, refOk := refOk }

/-- POWER_ON (R539, R540, R547, R561): the input and the reset contact must both allow it. -/
def opPowerOn (ev : PowerEvent) (samples : List Straps) (refOk : Bool) (s : State) : State :=
  let go := fun (s : State) => (s.setFs [(Fld.TPC_WAKE_CAUSE, 0)]).railsUp samples refOk
  match ev with
  | .powerOn =>
    if s.power.v48 && (s.devState != stRESET || s.power.good || s.power.contact) then s
    else
      let s := (s.calendarBack).updPower fun p => { p with v48 := true }
      if s.power.contact then s else go s
  | .resetRelease =>
    if !s.power.contact then s
    else
      let s := s.updPower fun p => { p with contact := false }
      if s.power.v48 then go s else s
  | .deviceReset => if s.power.resetDue then go s else s

/-! ### Boot (R475, R476, R483, R537 to R539, R541) -/

/-- The device enters READY, and the lasers are lit where the fabric is enabled (R539). -/
def State.toReady (s : State) : State :=
  let s := s.setDevState stREADY
  if s.getF Fld.ABR_CTRL_FAB_EN = 1 then s.lightOn else s

/-- Why the sampled straps are refused (R537, R538): 0 none, 1 unstable, 2 parity, 3 reserved profile. -/
def strapCause (l : List Straps) : Nat :=
  match l with
  | [] => 1
  | x :: _ =>
    let ones := fun (n w : Nat) => ((List.range w).filter fun i => n.testBit i).length
    let a := ones x.row.toNat 6 + ones x.rack.toNat 4 + ones x.par.toNat 1
    let b := ones x.tray.toNat 3 + ones x.slot.toNat 3 + ones x.prof.toNat 3 + ones (x.par.toNat / 2) 1
    if l.length ≠ 8 ∨ l.any (fun y => y != x) then 1
    else if a % 2 = 0 ∨ b % 2 = 0 then 2
    else if 3 < x.prof.toNat then 3 else 0

/-- The straps of the boot (R537, R538): coordinate, profile, and the fault that keeps the fabric off. -/
def State.bootStraps (s : State) : State :=
  let x := s.power.samples.head?.getD ⟨0, 0, 0, 0, 0, 0⟩
  let dev : DevCoord := x.row ++ x.rack ++ x.tray ++ x.slot
  let c := strapCause s.power.samples
  let s := s.setFs [(Fld.MSC_STRAP_DEV, dev.toNat), (Fld.MSC_STRAP_PROF, x.prof.toNat), (Fld.MSC_STRAP_PAR, x.par.toNat),
    (Fld.MSC_STRAP_CAUSE, c)]
  let s := if c = 0 then s.setFs [(Fld.ABR_CTRL_PROF, x.prof.toNat), (Fld.ABR_CTRL_FAB_EN, if s.store.bench then 0 else 1)]
    else (s.stick Fld.MSC_STRAP_STRAP_FAULT Fld.MSC_STRAP_CNT_COUNT).mgmtEvent 9 c
  s.extendMeas 3 (sha3 (Config.strapImage dev.toNat x.prof.toNat s.store.bench))

/-- Firewall windows, ENG_EN and LOCK as the firmware sets them before READY (R36, R539). -/
def State.bootFirewall (s : State) : State :=
  let s := (List.range 8).foldl (fun s e => (List.range 8).foldl (fun s w =>
    s.setReg (RegId.OPT_FW_WIN.addr e w) (RegId.OPT_FW_WIN.written 0 (Config.firewallWindow e w))) s) s
  s.setFs [(Fld.OPT_FW_CTRL_ENG_EN, 0xFF), (Fld.OPT_FW_CTRL_LOCK, 1)]

/-- The firmware runs: the rest of R539, up to READY or to the bench check. -/
def State.firmware (s : State) (h : List Byte) (slot : Nat) : State :=
  let s := (s.setFs [(Fld.MSC_FW_STATUS_RUN_SVN, imgSvn h), (Fld.MSC_FW_STATUS_KEY_SLOT, slot), (Fld.MSC_FW_STATUS_BOOT_FAIL, 0),
    (Fld.MSC_FW_VERSION_VERSION, imgVersion h), (Fld.SCR_COUNT_COUNT, 0)]).updPower fun p => { p with booted := true }
  let c := s.getF Fld.TPC_WAKE_CAUSE
  let s := if c = 0 then s else s.mgmtEvent 0x0B c
  let s := if s.power.refOk then s else s.refLost
  let s := (s.bootStraps.bootFirewall).lightStore
  if s.store.bench then (s.updPower fun p => { p with benching := true }).lightOn else s.toReady

/-- BOOT_FAIL of the header checks of the ROM, in its order (R476); 0 where they pass. -/
def State.romHeader (s : State) (h : List Byte) : Nat :=
  if !imgFormat h || !imgSize h || 64 < imgSvn h then 1
  else if (s.keySlot h).isNone then 2
  else if imgSvn h < s.getF Fld.MSC_FW_STATUS_FUSE_COUNT then 4
  else if !imgSigned h then 3 else 0

/-- A check of the ROM fails: RECOVERY (R476). -/
def State.bootFail (s : State) (n : Nat) : State := (s.setF Fld.MSC_FW_STATUS_BOOT_FAIL n).setDevState stRECOVERY

/-- BOOT_ROM (R476): the measurements, the checks, and the firmware. -/
def opBootRom (flashError : Bool) (s : State) : State :=
  if s.devState ≠ stRESET ∨ !s.power.good ∨ s.power.booted then s
  else
    let s := { s with meas := [] }
    let h := s.store.flash.take imageHeader
    let body := (s.store.flash.drop imageHeader).take (imgBody h)
    let n := s.romHeader h
    if n ≠ 0 then s.bootFail n
    else
      let s := s.extendMeas 0 (imgDigest h)
      if flashError then s.bootFail 6
      else if sha3 body ≠ imgPart h 32 64 then s.bootFail 5
      else
        let slot := (s.keySlot h).getD 0
        let state3 := leBytes 1 (imgSvn h) ++ leBytes 1 (s.getF Fld.MSC_FW_STATUS_FUSE_COUNT) ++ leBytes 1 slot
        ((s.extendMeas 1 (imgPart h 32 64)).extendMeas 2 (state3 ++ List.replicate 61 0)).firmware h slot

/-- FUSE_BLOW (R475): one fuse at a time, once the firmware has reached READY. -/
def opFuseBlow (s : State) : State :=
  let n := s.getF Fld.MSC_FW_STATUS_FUSE_COUNT
  if s.power.booted ∧ stREADY ≤ s.devState ∧ s.devState ≠ stLATCHED ∧ n < 64 ∧ n < s.getF Fld.MSC_FW_STATUS_RUN_SVN then
    s.setF Fld.MSC_FW_STATUS_FUSE_COUNT (n + 1)
  else s

/-- BENCH_CHECK (R541): every port must face itself. -/
def opBenchCheck (s : State) : State :=
  if !s.power.benching then s
  else
    let ok := (List.range 16).all fun p => s.portUp p && s.getF (Fld.ABR_PORT_STATUS_PEER_DEV p) == s.devCoord.toNat
      && s.getF (Fld.ABR_PORT_STATUS_PEER_PORT p) == p
    if ok then
      let s := s.setFs [(Fld.MSC_STATE_BENCH, 1), (Fld.ABR_CTRL_FAB_EN, if s.getF Fld.MSC_STRAP_CAUSE = 0 then 1 else 0)]
      ((s.updPower fun p => { p with benching := false }).mgmtEvent 0x0A 1).setDevState stREADY
    else
      let s := ({ s with store := { s.store with bench := false } }).lightOff
      ((s.updPower fun p => { p with benching := false }).mgmtEvent 0x0A 0).setDevState stREADY

/-! ### Resets and inputs (R505, R540, R547 to R549, R552) -/

/-- RESET_ASSERT (R505, R540, R557): a latched device stays LATCHED; an assertion of 10 µs to 1 ms is ignored or acted on, an open choice. -/
def opResetAssert (ns : Nat) (s : State) : State :=
  let act := fun (s : State) =>
    let off := s.devState == stOFF
    let s := s.powerClear.updPower fun p => { p with contact := true }
    s.darkState (if off then stOFF else if s.getF Fld.TPC_SHUTDOWN_LATCH = 1 then stLATCHED else stRESET)
  if ns < 10000 then s
  else if 1000000 ≤ ns then act s
  else
    let d := s.draw
    if d.2 % 2 = 0 then d.1 else act d.1

/-- INPUT_LOSS (R547, R549, R561): the always-on domain lives on where 3V3_AUX feeds it. -/
def opInputLoss (s : State) : State :=
  if !s.power.v48 then s
  else
    let off := s.devState == stOFF
    let s := s.powerClear.updPower fun p => { p with v48 := false }
    if s.power.aux then s.darkState (if off then stOFF else stPATROL) else s.alwaysOnLost.darkState stOFF

/-- AUX_INPUT_LOSS (R548, R549). -/
def opAuxLoss (s : State) : State :=
  let s := s.updPower fun p => { p with aux := false, charging := false }
  if s.power.v48 then s else s.alwaysOnLost.darkState stOFF

/-- AUX_INPUT_RETURN (R548, R549): below 3.0 V the input stays absent; the charger needs 3.135 to 3.465 V. -/
def opAuxReturn (mv : Nat) (s : State) : State :=
  if mv < 3000 then s
  else s.calendarBack.updPower fun p => { p with aux := true, charging := decide (3135 ≤ mv) && decide (mv ≤ 3465) }

/-! ### Leaving power (R513 to R516) -/

/-- The rails are removed after HANDOVER: PATROL (R514). -/
def State.patrolNow (s : State) : State := s.powerClear.darkState stPATROL

/-- Every domain but the calendar loses power: OFF (R516). -/
def State.offNow (s : State) : State := s.powerClear.alwaysOnLost.darkState stOFF

/-- The lease disabled (R432, R513). -/
def State.leaseOff (s : State) : State :=
  s.setFs [(Fld.MSC_LEASE_EN, 0), (Fld.MSC_LEASE_STATE, 0), (Fld.MSC_LEASE_REMAIN, 0)]

/-- The job stopped as JOB_STOP stops it, and the lease disabled; HOLD passes to READY (R513). -/
def State.stopJob (s : State) : State :=
  let s := (s.updJob fun j => { j with stopped := true }).leaseOff
  let s := if s.devState = stHOLD then s.setDevState stREADY else s
  (s.stopBays).endJob

/-- LATCH_CLEAR (R505): 48 V below 30 V for 1 s, or an OFF or PATROL command held for execution in LATCHED. -/
def opLatchClear (c : LatchClear) (s : State) : State :=
  let clear := s.setF Fld.TPC_SHUTDOWN_LATCH 0
  match c with
  | .inputLow => if s.power.v48 then s else clear
  | .command =>
    match s.mgmt.req with
    | some (cmd, _, _) => if s.devState = stLATCHED ∧ (cmd = 0x20 ∨ cmd = 0x21) then clear else s
    | none => s

/-! ### PATROL (R510 to R515) -/

/-- The value of a quantity in a sample; temperatures in quarter degrees. -/
def patrolValue (r : PatrolReadings) (q : Nat) : Int :=
  match q with
  | 0 => r.coolant
  | 1 => r.junction
  | 2 => r.inputMv
  | 3 => r.auxMv
  | _ => if r.leak then 1 else 0

/-- A quantity lies within its limits. -/
def State.inLimits (s : State) (r : PatrolReadings) (q : Nat) : Bool :=
  let word := fun (f : Field) => if q < 2 then (BitVec.ofNat 16 (s.getF f)).toInt else (s.getF f : Int)
  decide (word (Fld.TPC_PATROL_LIM_LOW q) ≤ patrolValue r q) && decide (patrolValue r q ≤ word (Fld.TPC_PATROL_LIM_HIGH q))

/-- The latch of R504 with its cause. -/
def State.latch (s : State) (cause inst : Nat) (temp : BitVec 16) : State :=
  (s.setFs [(Fld.TPC_SHUTDOWN_LATCH, 1), (Fld.TPC_SHUTDOWN_CAUSE, cause), (Fld.TPC_SHUTDOWN_INSTANCE, inst),
    (Fld.TPC_SHUTDOWN_TEMP, temp.toNat)]).incF Fld.TPC_SHUTDOWN_COUNT

/-- PATROL_SAMPLE (R510): crossings against the last sample, and the latch at a shutdown threshold. -/
def opPatrolSample (r : PatrolReadings) (s : State) : State :=
  if s.devState ≠ stPATROL then s
  else
    let crossed := match s.power.lastSample with
      | none => []
      | some o => (List.range 5).filter fun q => s.inLimits o q != s.inLimits r q
    let s := s.updPower fun p => { p with lastSample := some r, crossed := crossed }
    if s.getF Fld.TPC_SHUTDOWN_LATCH = 1 then s
    else if r.leak then s.latch 5 0 0
    else if 200 ≤ r.coolant then s.latch 4 0 (BitVec.ofInt 16 r.coolant)
    else if 460 ≤ r.junction then s.latch 1 0 (BitVec.ofInt 16 r.junction)
    else s

/-- CAUSE of a wake (R511). -/
def wakeCode : WakeCause → Nat
  | .threshold _ => 1
  | .address => 2
  | .calendar => 3

/-- The source of a wake is enabled (R511, R512). -/
def State.wakeEnabled (s : State) (c : WakeCause) : Bool :=
  match c with
  | .threshold q => s.getF Fld.TPC_PATROL_WAKE_THRESH == 1 && s.getF (Fld.TPC_PATROL_LIM_WAKE_EN q.val) == 1
  | .address => s.getF Fld.TPC_PATROL_WAKE_ADDR == 1
  | .calendar => s.getF Fld.TPC_PATROL_WAKE_ALARM == 1

/-- Its event is there: the last sample crossed, the alarm has fired, the address matches. -/
def State.wakeSeen (s : State) (c : WakeCause) : Bool :=
  match c with
  | .threshold q => s.power.crossed.contains q.val
  | .address => true
  | .calendar => s.getF Fld.SCR_CAL_STATUS_FIRED == 1

/-- The wake record. -/
def State.wakeRecord (s : State) (c : WakeCause) : State :=
  s.setFs [(Fld.TPC_WAKE_CAUSE, wakeCode c), (Fld.TPC_WAKE_QUANT, match c with
    | .threshold q => q.val
    | _ => 0)]

/-- PATROL_WAKE (R511, R512): the rails come up in order, or a step misses its limit; without 48 V the first one does. -/
def opPatrolWake (c : WakeCause) (failStep : Option (Fin 4)) (samples : List Straps) (refOk : Bool) (s : State) : State :=
  if s.devState ≠ stPATROL ∨ !s.wakeEnabled c ∨ !s.wakeSeen c ∨ (s.power.addrOnly ∧ c ≠ .address) then s
  else
    let fail := if s.power.v48 then failStep else some 0
    let s := (s.wakeRecord c).updPower fun p => { p with crossed := [] }
    match fail with
    | some k =>
      (s.setFs [(Fld.TPC_WAKE_FAIL, 1), (Fld.TPC_WAKE_FAIL_STEP, k.val + 1)]).updPower fun p => { p with addrOnly := true }
    | none =>
      let s := (s.setFs [(Fld.TPC_WAKE_FAIL, 0), (Fld.TPC_WAKE_FAIL_STEP, 0)]).incF Fld.TPC_WAKE_WAKES
      (s.updPower fun p => { p with addrOnly := false }).railsUp samples refOk

/-- No command is in execution and no long operation runs (R514). -/
def State.workDone (s : State) : Bool :=
  !(s.host.cmds.any fun c => c.stage == .running) && !s.basteRuns && s.ldg.hem.isNone && s.ldg.digest.isNone && s.hbm.scrub.isNone
    && s.hbm.fold.isNone && s.fwWrite.isNone

/-- PATROL_ENTRY_STEP (R513, R514, R516): the current step reaches its abort point; a command that waited for the end of the job goes
on. -/
def opEntryStep (s : State) : State :=
  match s.getF Fld.TPC_POWER_ENTRY with
  | 0 =>
    let s := s.endJob
    if s.host.job.isSome then s
    else if s.power.offDue then s.offNow
    else if s.power.patrolDue ∧ s.devState = stREADY then
      (s.setF Fld.TPC_POWER_ENTRY 1).updPower fun p => { p with patrolDue := false }
    else s
  | 1 => if s.workDone then s.setF Fld.TPC_POWER_ENTRY 2 else s
  | 2 =>
    let fab := s.getF Fld.ABR_CTRL_FAB_EN
    ((s.lightOff).setFs [(Fld.ABR_CTRL_FAB_EN, 0), (Fld.TPC_POWER_ENTRY, 3)]).updPower fun p => { p with fabWas := fab == 1 }
  | 3 => (s.updHbm fun h => { h with selfRefresh := List.range 8 }).setF Fld.TPC_POWER_ENTRY 4
  | _ => s.patrolNow

/-- An entry into PATROL is abandoned (R515): the step in progress runs to its abort point, and the steps done are undone. -/
def State.abandon (s : State) (c : WakeCause) : State :=
  let n := s.getF Fld.TPC_POWER_ENTRY
  let fab := if n = 2 then s.getF Fld.ABR_CTRL_FAB_EN == 1 else s.power.fabWas
  let s := if 3 ≤ n then s.updHbm fun h => { h with selfRefresh := [] } else s
  let s := if 2 ≤ n ∧ s.devState ≠ stLATCHED then
      let s := s.lightOff
      if fab then (s.setF Fld.ABR_CTRL_FAB_EN 1).lightOn else s
    else s
  (((s.wakeRecord c).setF Fld.TPC_POWER_ENTRY 0).incF Fld.TPC_POWER_ABANDON_CNT).mgmtEvent 0x0B (wakeCode c)

/-- PATROL_ENTRY_ABANDON (R515). -/
def opEntryAbandon (c : WakeCause) (s : State) : State :=
  if s.getF Fld.TPC_POWER_ENTRY = 0 ∨ !s.wakeEnabled c then s else s.abandon c

/-! ### The meanings -/

/-- POWER_ON (R539). -/
def execPowerOn (ev : PowerEvent) (samples : List Straps) (refOk : Bool) (s : State) : Res := .next (opPowerOn ev samples refOk s)

/-- BOOT_ROM (R476). -/
def execBootRom (flashError : Bool) (s : State) : Res := .next (opBootRom flashError s)

/-- FUSE_BLOW (R475). -/
def execFuseBlow (s : State) : Res := .next (opFuseBlow s)

/-- BENCH_CHECK (R541). -/
def execBenchCheck (s : State) : Res := .next (opBenchCheck s)

/-- RESET_ASSERT (R540). -/
def execResetAssert (ns : Nat) (s : State) : Res := .next (opResetAssert ns s)

/-- INPUT_LOSS (R547). -/
def execInputLoss (s : State) : Res := .next (opInputLoss s)

/-- AUX_INPUT_LOSS (R548). -/
def execAuxInputLoss (s : State) : Res := .next (opAuxLoss s)

/-- AUX_INPUT_RETURN (R549). -/
def execAuxInputReturn (mv : Nat) (s : State) : Res := .next (opAuxReturn mv s)

/-- LATCH_CLEAR (R505). -/
def execLatchClear (c : LatchClear) (s : State) : Res := .next (opLatchClear c s)

/-- PERST_ASSERT (R552): the host interface is reset as R445 says. -/
def execPerstAssert (s : State) : Res := .next s.resetHostIf

/-- PATROL_SAMPLE (R510). -/
def execPatrolSample (r : PatrolReadings) (s : State) : Res := .next (opPatrolSample r s)

/-- PATROL_WAKE (R512). -/
def execPatrolWake (c : WakeCause) (failStep : Option (Fin 4)) (samples : List Straps) (refOk : Bool) (s : State) : Res :=
  .next (opPatrolWake c failStep samples refOk s)

/-- PATROL_ENTRY_STEP (R514). -/
def execPatrolEntryStep (s : State) : Res := .next (opEntryStep s)

/-- PATROL_ENTRY_ABANDON (R515). -/
def execPatrolEntryAbandon (c : WakeCause) (s : State) : Res := .next (opEntryAbandon c s)

end Sys2Proof.Machine
end

