-- ==== Sys2Proof/Machine/Thermal.lean ====
section
/-! DEFINITION. The thermal and power controller (R497 to R509): readings, levels, clock factors, the power cap, thermal shutdown and
clock points; and the re-plans of ageing margins (R517 to R519). Temperatures are in quarter degrees. -/

namespace Sys2Proof.Machine

/-- `s` with the TPC changed. -/
def State.updTpc (s : State) (f : Thermal → Thermal) : State := { s with tpc := f s.tpc }

/-- The TPC runs: the rails are up, or the thermal latch keeps the primary header powered (R505, R508). -/
def State.tpcRuns (s : State) : Bool := s.power.good || s.devState == stLATCHED

/-! ### Readings (R497, R498) -/

/-- The domain instance of a sensor, numbered as in `TPC_LEVELS`. -/
def sensorInstance : Sensor → Nat
  | .bay b => b.toNat / 256
  | .sill i => i.val / 16
  | .hdr i => 4 + i.val / 12
  | .laser e => 6 + e.val / 4
  | .coolant => 9

/-- Sensors of a domain instance. -/
def instanceSensors (i : Nat) : List Sensor :=
  if i < 4 then (List.range 256).map (fun b => .bay (BitVec.ofNat 10 (256 * i + b)))
    ++ (List.range 16).map fun k => .sill (Fin.ofNat 64 (16 * i + k))
  else if i < 6 then (List.range 12).map fun k => .hdr (Fin.ofNat 24 (12 * (i - 4) + k))
  else if i < 8 then (List.range 4).map fun k => .laser (Fin.ofNat 8 (4 * (i - 6) + k))
  else []

/-- Warning, throttle and shutdown thresholds of an instance (R499). -/
def thresholds (i : Nat) : Int × Int × Int :=
  if i < 6 then (380, 400, 460) else if i < 8 then (260, 280, 320) else if i = 8 then (352, 380, 420) else (160, 180, 200)

/-- SENSOR_READ (R497, R498). -/
def opSensorRead (x : Sensor) (r : Reading) (s : State) : State :=
  if !s.tpcRuns then s
  else if x = .coolant then
    match r with
    | some t => s.updTpc fun c => { c with coolFault := false, seen := (x, t) :: c.seen }
    | none =>
      let s := if s.tpc.coolFault then s else s.incF Fld.TPC_SENSOR_FAULT_COOLANT
      s.updTpc fun c => { c with coolFault := true, seen := (x, 164) :: c.seen }
  else
    match r.filter fun t => decide (-160 ≤ t) && decide (t ≤ 600) with
    | some t => s.updTpc fun c => { c with excluded := c.excluded.filter fun y => y != x, seen := (x, t) :: c.seen }
    | none => if s.tpc.excluded.contains x then s
        else (s.incF Fld.TPC_SENSOR_FAULT_RING).updTpc fun c => { c with excluded := x :: c.excluded }

/-- The largest of some values. -/
def largest : List Int → Option Int
  | [] => none
  | x :: xs => some (xs.foldl max x)

/-- Values that the sensors for which `p` holds gave in the interval. -/
def State.seenOf (s : State) (p : Sensor → Bool) : List Int := (s.tpc.seen.filter fun e => p e.1).map Prod.snd

/-- Every sensor of a list is excluded; an empty list has none that could be. -/
def State.allExcluded (s : State) (l : List Sensor) : Bool := !l.isEmpty && l.all fun x => s.tpc.excluded.contains x

/-- Temperature of the hottest stack, and its number (R497). -/
def State.hottestStack (s : State) : Nat × Nat :=
  (List.range 8).foldl (fun m k => if m.1 < s.getF (Fld.HBM_STACK_TEMP k) then (s.getF (Fld.HBM_STACK_TEMP k), k) else m) (0, 0)

/-- The last reading of an instance. -/
def State.lastReading (s : State) (i : Nat) : Int := smapGet (fun _ => 0) s.tpc.last i

/-- The reading of an instance in the interval that ends (R498): the throttle threshold plus 1 °C where all its sensors are excluded,
and otherwise the largest value they gave; where none gave one, what it was (log 56). -/
def State.readingOf (s : State) (i : Nat) : Int :=
  if i = 8 then 4 * (s.hottestStack.1 : Int)
  else if s.allExcluded (instanceSensors i) then (thresholds i).2.1 + 4
  else (largest (s.seenOf fun x => sensorInstance x == i)).getD (s.lastReading i)

/-- Sixteen bits of a temperature. -/
def tempBits (t : Int) : Nat := (BitVec.ofInt 16 t).toNat

/-- A bay sensor, and a sill sensor. -/
def isBay : Sensor → Bool
  | .bay _ => true
  | _ => false
def isSill : Sensor → Bool
  | .sill _ => true
  | _ => false

/-- `TPC_TEMP_DIE` of a die (R521). -/
def State.showDie (s : State) (d : Nat) : State :=
  let group := fun (s : State) (f : Field) (p : Sensor → Bool) =>
    if s.allExcluded ((instanceSensors d).filter p) then s.setF f 404
    else (largest (s.seenOf fun x => p x && sensorInstance x == d)).elim s fun t => s.setF f (tempBits t)
  let top := if s.allExcluded ((instanceSensors d).filter isBay) then none
    else largest (s.seenOf fun x => isBay x && sensorInstance x == d)
  let hot := (List.range 256).find? fun b => top.any fun t => s.tpc.seen.contains (.bay (BitVec.ofNat 10 (256 * d + b)), t)
  let s := hot.elim s fun b => s.setF (Fld.TPC_TEMP_DIE_HOT_BAY d) (256 * d + b)
  group (group s (Fld.TPC_TEMP_DIE_BAY_MAX d) isBay) (Fld.TPC_TEMP_DIE_SILL_MAX d) isSill

/-- The temperature registers show the readings of the interval that ends (R521). -/
def State.showTemps (s : State) : State :=
  let r := fun i => s.lastReading i
  let top := fun (l : List Nat) => tempBits ((largest (l.map r)).getD 0)
  ((List.range 4).foldl State.showDie s).setFs [(Fld.TPC_TEMP_LOGIC, top (List.range 6)), (Fld.TPC_TEMP_HBM, tempBits (r 8)),
    (Fld.TPC_TEMP_LASER, top [6, 7]), (Fld.TPC_TEMP_COOLANT, tempBits (r 9)), (Fld.TPC_TEMP_HDR_LASER1, tempBits (r 7)),
    (Fld.TPC_TEMP_HDR_LOGIC1, tempBits (r 5)), (Fld.TPC_TEMP_HDR_LASER0, tempBits (r 6)), (Fld.TPC_TEMP_HDR_LOGIC0, tempBits (r 4))]

/-! ### Levels and targets (R500, R501) -/

/-- Element `i` of a value of `w`-bit elements, and the value with it replaced. -/
def elemOf (w v i : Nat) : Nat := v / 2 ^ (w * i) % 2 ^ w
def putElem (w v i x : Nat) : Nat := v - elemOf w v i * 2 ^ (w * i) + x % 2 ^ w * 2 ^ (w * i)

/-- Level of an instance. -/
def State.thermalLevel (s : State) (i : Nat) : Nat := elemOf 2 (s.getF Fld.TPC_LEVELS_LEVEL) i

/-- The new level of an instance at level `o` whose reading is `t` (R500). -/
def newLevel (i o : Nat) (t : Int) : Nat :=
  let h := thresholds i
  if h.2.1 < t ∨ (o = 2 ∧ h.2.1 - 12 < t) then 2 else if h.1 ≤ t ∨ (1 ≤ o ∧ h.1 - 12 < t) then 1 else 0

/-- Target of a clock that an instance at throttle lowers: 5 % less for each degree above the threshold (R501). -/
def throttleTarget (i : Nat) (t : Int) : Nat := ((256 * 80 - 256 * (t - (thresholds i).2.1)) / 80).toNat

/-- The target of an instance. -/
def State.targetOf (s : State) (i : Nat) : Nat := smapGet (fun _ => 256) s.tpc.target i

/-- Level, flags and target of an instance from its reading (R500, R501). -/
def State.judge (s : State) (i : Nat) : State :=
  let t := s.lastReading i
  let o := s.thermalLevel i
  let n := newLevel i o t
  let tgt := if (thresholds i).2.1 < t then throttleTarget i t else if n = 2 then s.targetOf i else 256
  let s := s.updTpc fun c => { c with target := smapSet (fun _ => 256) c.target i tgt }
  let s := s.setF Fld.TPC_LEVELS_LEVEL (putElem 2 (s.getF Fld.TPC_LEVELS_LEVEL) i n)
  let s := if o = 0 ∧ (thresholds i).1 ≤ t then (s.stick Fld.TPC_FLAGS_WARN Fld.TPC_LEVEL_CNT_WARN).mgmtEvent 2 i else s
  if o ≠ 2 ∧ n = 2 then (s.stick Fld.TPC_FLAGS_THROTTLE Fld.TPC_LEVEL_CNT_THROTTLE).mgmtEvent 3 i else s

/-- The cap factor moves (R507). -/
def State.moveCap (s : State) : State :=
  let n := s.tpc.power.length
  let sum := (s.tpc.power.map Prod.snd).foldl (· + ·) 0
  let w := s.getF Fld.TPC_POWER_CAP_W
  let c := s.getF Fld.TPC_CLOCK_CAP
  s.setF Fld.TPC_CLOCK_CAP (if w * n < sum then max 64 (c - 4) else if 100 * sum < 98 * w * n then min 256 (c + 2) else c)

/-- The instances that lower clock `c`: dies 0 to 3, then the headers (R499). -/
def lowers (c : Nat) : List Nat := if c < 4 then [c, 8, 9] else [c, c + 2]

/-- One update of an applied factor: by at most 8 towards what is wanted, which is at least 64 (R501). -/
def moveFactor (want applied : Nat) : Nat :=
  let want := max want 64
  if want < applied then max want (applied - 8) else min want (applied + 8)

/-- Applied factor of a clock. -/
def State.factor (s : State) (c : Nat) : Nat :=
  if c < 4 then elemOf 9 (s.getF Fld.TPC_CLOCK_DIE) c else s.getF (if c = 4 then Fld.TPC_CLOCK_HDR0 else Fld.TPC_CLOCK_HDR1)

/-- An applied factor set. -/
def State.setFactor (s : State) (c v : Nat) : State :=
  if c < 4 then s.setF Fld.TPC_CLOCK_DIE (putElem 9 (s.getF Fld.TPC_CLOCK_DIE) c v)
  else s.setF (if c = 4 then Fld.TPC_CLOCK_HDR0 else Fld.TPC_CLOCK_HDR1) v

/-- What is wanted of a clock. -/
def State.wanted (s : State) (c : Nat) : Nat :=
  ((lowers c).map s.targetOf).foldl min (if c < 4 then s.getF Fld.TPC_CLOCK_CAP else 256)

/-- The six clock factors move; a move breaks tick-repeat (R383, R501). -/
def State.moveClocks (s : State) : State :=
  let t := (List.range 6).foldl (fun t c => t.setFactor c (moveFactor (s.wanted c) (s.factor c))) s
  if (List.range 6).any fun c => t.factor c != s.factor c then t.tickEvent else t

/-! ### Thermal shutdown (R463, R504, R505) -/

/-- Records that wait for a completion ring written while it has room. -/
def State.writeAll (s : State) (q : Nat) : List Record → State
  | [] => s
  | r :: rest => if s.cqRoom q then (s.writeRecord q r rest false).writeAll q rest else s

/-- Every open collective and early record aborted, and every command ended, with THERMAL_STOP; the event is queued and the records
are written (R463, R504). -/
def State.thermalAbort (s : State) (cause : Nat) : State :=
  let told := s.openColls.map fun e => (e.2.blk.group, e.2.blk.seq)
  let s := ((s.abortDevice cTHERMAL_STOP fun _ => true).abortEarly cTHERMAL_STOP (fun _ => true) told).mgmtEvent 4 cause
  let run := s.ringsRun
  let s := (s.host.cmds.map fun c => c.k).foldl (fun s k => s.finishCmd k cTHERMAL_STOP) s
  if run then (List.range 16).foldl (fun s q => s.writeAll q (s.waitingOf q)) s else s

/-- Power leaves everything but the always-on domain and the MSC, TPC and endpoint of the primary header (R504, R505). -/
def State.thermalDark (s : State) : State :=
  let z := State.reset
  let s := s.clearRegs fun a => decide (0x01F00A000000 ≤ a)
  { z with
    pending := s.pending, regs := s.regs, hbm := s.hbm.cleared, store := s.store, mgmt := s.mgmt, meas := s.meas, tpc := s.tpc
    host := { s.host with job := none, cmds := [], holdAsked := none }
    power := { s.power with good := false, samples := [], benching := false, resetDue := false, patrolDue := false, offDue := false
                            crossed := [] }
    fresh := s.fresh, lastCode := s.lastCode, lastData := s.lastData }

/-- A thermal shutdown (R504): the latch, the aborts, and LATCHED; it ends an entry into PATROL. -/
def State.thermalShutdown (s : State) (cause inst : Nat) (temp : BitVec 16) : State :=
  let s := (s.latch cause inst temp).thermalAbort cause
  (s.thermalDark.setF Fld.TPC_POWER_ENTRY 0).setDevState stLATCHED

/-- Cause and instance of a shutdown by domain instance `i` (R523). -/
def State.shutdownBy (s : State) (i : Nat) : Nat × Nat :=
  if i < 6 then (1, i) else if i < 8 then (3, i - 6) else if i = 8 then (2, s.hottestStack.2) else (4, 0)

/-- Threshold of a shutdown cause, CAUSE, and the number of its instances (R499, R523). -/
def shutdownLimit : ShutdownCause → Option Int × Nat × Nat
  | .logic => (some 460, 1, 6)
  | .hbm => (some 420, 2, 8)
  | .laser => (some 320, 3, 2)
  | .coolant => (some 200, 4, 1)
  | .leak => (none, 5, 1)

/-- THERMAL_SHUTDOWN (R504): the reading must reach the threshold. -/
def opThermalShutdown (c : ShutdownCause) (inst : BitVec 4) (temp : BitVec 16) (s : State) : State :=
  let l := shutdownLimit c
  if !s.power.good ∨ l.2.2 ≤ inst.toNat ∨ l.1.any (fun h => decide (temp.toInt < h)) then s
  else s.thermalShutdown l.2.1 inst.toNat (if c = .leak then 0 else temp)

/-- LEAK_DETECT (R504, R557): with the 48 V input lost it sets the latch of an always-on domain that 3V3_AUX feeds (R561). -/
def opLeakDetect (s : State) : State :=
  if s.power.good then s.thermalShutdown 5 0 0
  else if !s.power.v48 && s.power.aux && s.devState != stOFF && s.getF Fld.TPC_SHUTDOWN_LATCH == 0 then s.latch 5 0 0
  else s

/-- TPC_UPDATE (R500, R501, R504, R507, R521). -/
def opTpcUpdate (s : State) : State :=
  if !s.tpcRuns then s
  else
    let r := (List.range 10).map fun i => (i, s.readingOf i)
    let s := s.updTpc fun c => { c with last := r.foldl (fun m e => smapSet (fun _ => 0) m e.1 e.2) c.last }
    let s := (s.showTemps).updTpc fun c => { c with seen := [] }
    let s := ((List.range 10).foldl State.judge s).moveCap.moveClocks
    match (List.range 10).find? fun i => decide ((thresholds i).2.2 ≤ s.lastReading i) with
    | some i =>
      let c := s.shutdownBy i
      if s.power.good then s.thermalShutdown c.1 c.2 (BitVec.ofInt 16 (s.lastReading i)) else s
    | none => s

/-- POWER_SAMPLE (R507): the means over the 100 samples of the last 1 ms. -/
def opPowerSample (mv watts : Nat) (s : State) : State :=
  if !s.tpcRuns then s
  else
    let l := ((mv, watts) :: s.tpc.power).take 100
    let mean := fun (f : Nat × Nat → Nat) => (l.map f).foldl (· + ·) 0 / l.length
    (s.updTpc fun c => { c with power := l }).setFs [(Fld.TPC_POWER_INPUT_MV, mean Prod.fst), (Fld.TPC_POWER_INPUT_W, mean Prod.snd)]

/-! ### Clock points (R506, R522) -/

/-- POINT and MAX_POINT of a die, and the point it has reached. -/
def State.pointOf (s : State) (d : Nat) : Nat := elemOf 4 (s.getF Fld.TPC_DVFS_POINT) d
def State.maxPoint (s : State) (d : Nat) : Nat := elemOf 4 (s.getF Fld.TPC_DVFS_MAX_POINT) d

/-- The frequency of a die changes (R383, R506). -/
def State.reachPoint (s : State) (d p : Nat) : State :=
  (s.updTpc fun c => { c with point := smapSet (fun _ => 0) c.point d p }).tickEvent

/-- `s` with the change in progress of a die replaced. -/
def State.setMoving (s : State) (d : Nat) (m : Option Nat) : State :=
  s.updTpc fun c => { c with moving := smapSet (fun _ => none) c.moving d m }

/-- A change of a die starts where its POINT asks for one and none is in progress: on a move down the frequency changes first. -/
def State.startChange (s : State) (d : Nat) : State :=
  let p := s.pointOf d
  if p = s.reached d ∨ (smapGet (fun _ => none) s.tpc.moving d).isSome then s
  else
    let s := if s.reached d < p then s.reachPoint d p else s
    s.setMoving d (some p)

/-- DVFS_CHANGE_DONE (R506): a POINT written in the meantime starts its own change. -/
def opDvfsDone (d : Nat) (s : State) : State :=
  match smapGet (fun _ => none) s.tpc.moving d with
  | none => s
  | some p =>
    let s := if s.reached d = p then s else s.reachPoint d p
    (s.setMoving d none).startChange d

/-- States in which `TPC_DVFS` accepts writes (R506). -/
def State.dvfsStates (s : State) : Bool := s.jobStates || s.devState == stHOLD

/-- A write of `TPC_DVFS` (R506, R522): an illegal POINT, or one faster than allowed, leaves its die's (RANGE); one that repeats the
POINT in force is accepted (R564). -/
def writeDvfs (v : Word) (s : State) : State × Code :=
  let ok := fun (d : Nat) =>
    let p := elemOf 4 v.toNat d % 8
    p == s.pointOf d || (decide (p ≤ 4) && decide (s.maxPoint d ≤ p))
  let point := (List.range 4).foldl (fun n d => putElem 4 n d (if ok d then elemOf 4 v.toNat d % 8 else s.pointOf d)) 0
  let v' := BitVec.ofNat 64 point
  s.guarded .TPC_DVFS 0 0 v' s.dvfsStates cSTATE_REJECT fun s =>
    ((List.range 4).foldl State.startChange (s.plainWrite .TPC_DVFS 0 0 v'), if (List.range 4).all ok then cDONE else cRANGE)

/-! ### Ageing (R517 to R519) -/

/-- A raised MAX_POINT awaits READY at a die. -/
def State.pointDue (s : State) (d : Nat) : Bool := decide (s.pointOf d < s.maxPoint d)

/-- A die moved to its MAX_POINT. -/
def State.applyPoint (s : State) (d : Nat) : State :=
  (s.setF Fld.TPC_DVFS_POINT (putElem 4 (s.getF Fld.TPC_DVFS_POINT) d (s.maxPoint d))).startChange d

/-- PENDING follows the dies that wait. -/
def State.showPending (s : State) : State :=
  s.setF Fld.TPC_AGE_SUPPLY_PENDING (if !s.tpc.raise.isEmpty || (List.range 4).any s.pointDue then 1 else 0)

/-- MAX_POINT of a die rises by one, to 2 at most (R518). -/
def State.raiseMax (s : State) (d : Nat) : State :=
  s.setF Fld.TPC_DVFS_MAX_POINT (putElem 4 (s.getF Fld.TPC_DVFS_MAX_POINT) d (max (s.maxPoint d) (min 2 (s.maxPoint d + 1))))

/-- The raises of a die that a re-plan in HOLD left for READY. -/
def State.raiseDue (s : State) (d : Nat) : State :=
  let n := (s.tpc.raise.filter fun x => x == d).length
  let s := s.updTpc fun c => { c with raise := c.raise.filter fun x => x != d }
  (List.range n).foldl (fun s _ => s.raiseMax d) s

/-- MAX_POINT_APPLY (R518): in READY, the second step of a re-plan that was left for it. -/
def opMaxPoint (d : Nat) (s : State) : State :=
  if s.devState ≠ stREADY then s
  else
    let s := s.raiseDue d
    (if s.pointDue d then s.applyPoint d else s).showPending

/-- Supply of a die raised in 5 mV steps until SLACK reaches 0.5 or the offset +40 mV (R518): the offset and the last SLACK. -/
def raiseSupply (off : Nat) : List Nat → Nat × Nat
  | [] => (off, 10000)
  | [x] => (off, min x 10000)
  | x :: y :: l => if x < 5000 ∧ off + 5 ≤ 40 then raiseSupply (off + 5) (y :: l) else (off, min x 10000)

/-- Projected years in tenths by a least-squares line through margin and hours, newest first (R519). -/
def projectYears (l : List (Nat × Nat)) : Nat :=
  let n : Int := l.length
  let sum := fun (f : Nat × Nat → Int) => (l.map f).foldl (· + ·) 0
  let sm := sum fun p => p.1
  let sh := sum fun p => p.2
  let d := n * (sum fun p => p.2 * p.2) - sh * sh
  let b := n * (sum fun p => p.1 * p.2) - sh * sm
  let h : Int := (l.head?.map Prod.snd).getD 0
  if l.length < 2 ∨ d ≤ 0 ∨ 0 ≤ b then 0xFFFF
  else min 0xFFFE ((10 * (sm * d - sh * b + n * h * b)) / (n * (-b) * 8760)).toNat

/-- Lasers in service below 95 % (R518). -/
def State.dimLasers (s : State) : List (Nat × Nat) :=
  (List.range 8).flatMap fun e => ((List.range 37).filter fun l =>
    (s.laserState e l == 2 || s.laserState e l == 3) && decide (s.getF (Fld.OPT_LASER_POWER e l) < 9500)).map fun l => (e, l)

/-- A re-plan (R518, R519); in HOLD its second step waits for READY. -/
def State.rePlan (s : State) (m : AgeMeasure) : State :=
  let off := s.getF Fld.TPC_AGE_SUPPLY_OFFSET
  let runs := (List.range 4).map fun d => (d, raiseSupply (elemOf 8 off d) (m.slackByStep.getD d []))
  let s := s.setF Fld.TPC_AGE_SUPPLY_OFFSET (runs.foldl (fun o r => putElem 8 o r.1 r.2.1) off)
  let s := runs.foldl (fun s r =>
    if 5000 ≤ r.2.2 ∨ r.2.1 ≠ 40 then s
    else if s.devState = stHOLD then s.updTpc fun c => { c with raise := c.raise ++ [r.1] }
    else s.raiseMax r.1) s
  let s := if s.devState = stREADY then (List.range 4).foldl (fun s d => if s.pointDue d then s.applyPoint d else s) s else s
  let s := s.showPending
  let stuck := fun (p : Nat × Nat) => m.atMax.any fun x => x.1.val == p.1 && x.2.val == p.2
  let dim := s.dimLasers
  let s := (dim.filter fun p => !stuck p).foldl (fun s p => opLaserPower p.1 p.2 10000 s) s
  let s := m.weak.foldl (fun s pc => s.startRetrain pc.toNat .marginPlan) s
  let slack := (runs.map fun r => r.2.2).foldl min 10000
  let shares := [slack, min m.drift 10000, min m.laser 10000, min m.eye 10000]
  let margin := shares.foldl min 10000
  let hours := max m.hours (s.getF Fld.TPC_AGE_RUN_HOURS)
  let plans := ((margin, hours) :: s.store.plans).take 8
  let s := { s with store := { s.store with plans := plans } }
  let s := (s.setFs [(Fld.TPC_AGE_MARGIN, margin), (Fld.TPC_AGE_YEARS, projectYears plans), (Fld.TPC_AGE_RUN_HOURS, hours),
    (Fld.TPC_AGE_SHARE_SLACK, slack), (Fld.TPC_AGE_SHARE_DRIFT, min m.drift 10000), (Fld.TPC_AGE_SHARE_LASER, min m.laser 10000),
    (Fld.TPC_AGE_SHARE_EYE, min m.eye 10000)]).incF Fld.TPC_AGE_SUPPLY_REPLANS
  let low := decide (margin < 2500) || (runs.any fun r => r.2.1 == 40 && s.maxPoint r.1 == 2) || dim.any stuck || m.failed
  if low then (s.stick Fld.TPC_FLAGS_MARGIN_LOW Fld.TPC_MARGIN_LOW_CNT_COUNT).mgmtEvent 8 0 else s

/-- REPLAN_DUE (R515, R518): at every 500 hours of run time, not during an entry into PATROL. -/
def opReplanDue (m : AgeMeasure) (s : State) : State :=
  if s.power.booted ∧ s.devState ≠ stRECOVERY ∧ s.devState ≠ stLATCHED ∧ s.getF Fld.TPC_POWER_ENTRY = 0
      ∧ s.getF Fld.TPC_AGE_RUN_HOURS / 500 < m.hours / 500 then s.rePlan m
  else s

/-! ### The meanings -/

/-- SENSOR_READ (R498). -/
def execSensorRead (x : Sensor) (r : Reading) (s : State) : Res := .next (opSensorRead x r s)

/-- TPC_UPDATE (R501). -/
def execTpcUpdate (s : State) : Res := .next (opTpcUpdate s)

/-- POWER_SAMPLE (R507). -/
def execPowerSample (mv watts : Nat) (s : State) : Res := .next (opPowerSample mv watts s)

/-- THERMAL_SHUTDOWN (R504). -/
def execThermalShutdown (c : ShutdownCause) (inst : BitVec 4) (temp : BitVec 16) (s : State) : Res :=
  .next (opThermalShutdown c inst temp s)

/-- LEAK_DETECT (R557). -/
def execLeakDetect (s : State) : Res := .next (opLeakDetect s)

/-- DVFS_CHANGE_DONE (R506). -/
def execDvfsChangeDone (die : Fin 4) (s : State) : Res := .next (opDvfsDone die.val s)

/-- REPLAN_DUE (R518). -/
def execReplanDue (m : AgeMeasure) (s : State) : Res := .next (opReplanDue m s)

/-- MAX_POINT_APPLY (R518). -/
def execMaxPointApply (die : Fin 4) (s : State) : Res := .next (opMaxPoint die.val s)

end Sys2Proof.Machine
end

