-- ==== Sys2Proof/Machine/RegRead.lean ====
section
/-! DEFINITION. What a register reads as (R12): its stored bits, and the fields that show typed state at the time of the read. -/

namespace Sys2Proof.Machine

/-- A word from fields: lowest bit and value of each. -/
def packWord (l : List (Nat × Nat)) : Word := BitVec.ofNat 64 (l.foldl (fun n p => n + p.2 * 2 ^ p.1) 0)

/-- `PRS_BANK` (R113). -/
def Bay.bankWord (y : Bay) : Word :=
  packWord [(32, y.turnCnt.toNat), (12, if y.shadow.kind.sparse then 1 else 0), (8, y.shadow.kind.fmt.toNat),
    (4, if y.active.kind.sparse then 1 else 0), (0, y.active.kind.fmt.toNat)]

/-- `PRS_WIN0` or `PRS_WIN1` (R143): WIN reads 0 in auto mode. -/
def AccBlock.winWord (a : AccBlock) : Word :=
  packWord [(24, if a.auto then 1 else 0), (16, a.klog.toNat), (0, if a.auto then 0 else a.win.toNat)]

/-- `PRS_ROWWIN` of a row (R145). -/
def AccBlock.rowWord (a : AccBlock) (row : Nat) : Word :=
  if a.auto then
    match (smapGet (fun _ => AccRow.zero) a.rows row).win with
    | some w => packWord [(63, 1), (0, w.toNat)]
    | none => 0
  else packWord [(63, 1), (0, a.win.toNat)]

/-- `BAY_QUEUE` (R79). -/
def Bay.queueWord (y : Bay) : Word :=
  packWord [(32, y.usedSlots.length), (24, y.seamWork.length), (16, y.seamVq.length), (8, y.mainVq.length), (0, y.pq.length)]

/-- Word `j` of some bytes. -/
def wordAt (bs : List Byte) (j : Nat) : Word := BitVec.ofNat 64 (leNat ((bs.drop (8 * j)).take 8))

/-- A stored word with fields set to what they show. -/
def shown (w : Word) (l : List (Field × Nat)) : Word := l.foldl (fun w p => putField w p.1.lo p.1.width p.2) w

/-- The value that register `i`, `j` of a kind reads as. -/
def State.regView (s : State) (r : RegId) (i j : Nat) : Word :=
  let w := s.reg (r.addr i j)
  let y := s.bay (BitVec.ofNat 10 i)
  match r with
  | .BAY_MAIN_STATUS => y.main.status.word
  | .BAY_SEAM_STATUS => y.seam.status.word
  | .BAY_QUEUE => y.queueWord
  | .PRS_BANK => y.bankWord
  | .PRS_WIN0 => y.acc0.winWord
  | .PRS_WIN1 => y.acc1.winWord
  | .PRS_ROWWIN => (if s.getF (Fld.PRS_ROWWIN_SEL_BLOCK i) = 1 then y.acc1 else y.acc0).rowWord (s.getF (Fld.PRS_ROWWIN_SEL_ROW i))
  | .VEC_VL => packWord [(32, y.seam.vl.toNat), (0, y.main.vl.toNat)]
  | .ABR_E2E_STATS => shown w [(Fld.ABR_E2E_STATS_PAIRS_SRC, s.fab.srcs.length), (Fld.ABR_E2E_STATS_PAIRS_DST, s.fab.dsts.length)]
  | .ABR_ATOM_STATS => shown w [(Fld.ABR_ATOM_STATS_LOG_USED, (s.fab.atoms.filter fun a => !a.tomb || a.parked).length)]
  | .ABR_PORT_STATUS => shown w [(Fld.ABR_PORT_STATUS_LEVEL i, s.levelOf i)]
  | .ABR_GRP_W1 => shown w [(Fld.ABR_GRP_W1_OPEN i, s.grpOpen (BitVec.ofNat 12 i))]
  | .ABR_COLL_STATS => shown w [(Fld.ABR_COLL_STATS_EARLY, s.fab.early.length)]
  | .OPT_ENG_STATUS => shown w [(Fld.OPT_ENG_STATUS_RINGS_LOCKED i, s.ringsLocked i), (Fld.OPT_ENG_STATUS_EVQ i, (s.evqOf i).length)]
  | .SCR_LAUNCH => shown w [(Fld.SCR_LAUNCH_PENDING, s.launchQueue.length)]
  | .LDG_CLASS_DIG => wordAt (s.classDigest i) j
  | .MSC_MEAS => wordAt (s.measOf i) j
  | .MSC_MGMT => shown w [(Fld.MSC_MGMT_EVQ, s.mgmt.events.length)]
  | .MSC_ACC_CTRL => shown w [(Fld.MSC_ACC_CTRL_USED i, s.accUsed i)]
  | .MSC_SQ_STATUS => shown w [(Fld.MSC_SQ_STATUS_OUTSTANDING i, s.outstanding i)]
  | _ => w

end Sys2Proof.Machine
end

