-- ==== Sys2Proof/Machine/Mgmt.lean ====
section
/-! DEFINITION. The management port (R527 to R536): frames, replies, the I3C common commands, and the commands of R533. A request
frame is checked and held; the command's own row executes it and makes the reply final. -/

namespace Sys2Proof.Machine

/-- `s` with the port changed. -/
def State.updMgmt (s : State) (f : Mgmt → Mgmt) : State := { s with mgmt := f s.mgmt }

/-! ### Frames and replies (R528 to R532) -/

/-- The port acknowledges its address (R528): firmware or ROM loader runs. -/
def State.portAnswers (s : State) : Bool :=
  s.devState != stOFF && s.devState != stPATROL && (s.devState != stRESET || s.power.booted)

/-- READY, RUN, HOLD, HELD and QUARANTINE (R533). -/
def State.live (s : State) : Bool := decide (stREADY ≤ s.devState) && decide (s.devState ≤ stQUARANTINE)

/-- Whether the state accepts a command; `none` where the code is not listed (R528, R533, R534). -/
def State.accepts (s : State) (cmd : Nat) : Option Bool :=
  let st := s.devState
  let latched := st == stLATCHED
  match cmd with
  | 0x01 => some (s.live || latched || st == stRECOVERY)
  | 0x02 | 0x03 | 0x30 | 0x31 => some (s.live || latched)
  | 0x10 | 0x12 | 0x15 | 0x22 | 0x23 | 0x41 | 0x42 | 0x43 => some s.live
  | 0x11 => some (s.live && s.getF Fld.MSC_LEASE_EN == 1)
  | 0x13 => some (st == stRUN)
  | 0x14 => some (st == stQUARANTINE)
  | 0x20 | 0x21 => some (s.live || latched || st == stRECOVERY)
  | 0x24 => some (s.live && st != stHELD)
  | 0x40 => some (st == stREADY || st == stRECOVERY)
  | 0x50 | 0x51 => some (st == stREADY)
  | _ => none

/-- The final reply to a request; it counts where it rejects (R531, R543). -/
def State.reply (s : State) (tag : Byte) (cmd : Nat) (code : Code) (payload : List Byte) : State :=
  let s := if code = cSTATE_REJECT ∨ code = cRANGE then s.incF Fld.MSC_MGMT_ERR_REJECTS else s
  s.updMgmt fun m => { m with req := none, reply := some ⟨tag, cmd, code, false, payload⟩ }

/-- MGMT_REQUEST (R528, R531, R532, R536): the checks of the frame and of the state. A request during an entry into PATROL abandons it
first; in PATROL the match of its address wakes the device by PATROL_WAKE, and the frame is not acknowledged. -/
def opMgmtRequest (frame : List Byte) (s : State) : State :=
  if !s.portAnswers then s
  else
    let s := if s.getF Fld.TPC_POWER_ENTRY ≠ 0 ∧ s.wakeEnabled .address then s.abandon .address else s
    let s := s.setF Fld.MSC_MGMT_MODE (if s.getF Fld.MSC_MGMT_DYN = 0 then 1 else 2)
    if s.mgmt.req.isSome then s.incF Fld.MSC_MGMT_ERR_BUSY_DROP
    else
      let n := frame.length
      let cmd := (frame.getD 0 0).toNat
      let tag := frame.getD 1 0
      let len := leNat ((frame.drop 2).take 2)
      let sound := decide (8 ≤ n) && decide (len + 8 = n) && decide (len ≤ 2080)
        && leNat (frame.drop (n - 4)) == (crc32c (frame.take (n - 4))).toNat
      match (if sound then s.accepts cmd else none) with
      | none => (s.incF Fld.MSC_MGMT_ERR_CRC_FAIL).reply tag cmd cMALFORMED []
      | some false => s.reply tag cmd cSTATE_REJECT []
      | some true => s.updMgmt fun m =>
          { m with req := some (cmd, tag, (frame.drop 4).take len), reply := some ⟨tag, cmd, cDONE, true, []⟩ }

/-- Bytes of a reply (R531). -/
def replyBytes (r : Reply) : List Byte :=
  let b := [r.tag] ++ leBytes 1 r.cmd ++ leBytes 1 r.code.toNat ++ leBytes 1 (if r.pend then 1 else 0)
    ++ leBytes 2 r.payload.length ++ r.payload
  b ++ leBytes 4 (crc32c b).toNat

/-- MGMT_REPLY_READ (R531). -/
def opReplyRead (s : State) : State :=
  if s.portAnswers then s.updMgmt fun m => { m with out := m.reply.elim [] replyBytes } else s

/-- A frame discarded (R529). -/
def opFrameTimeout (s : State) : State := if s.portAnswers then s.incF Fld.MSC_MGMT_ERR_TIMEOUTS else s

/-- A command in execution answered: nothing happens where another request, or none, is held; the state is checked again, and the
command gives its code and results (R532). -/
def State.serve (s : State) (cmd : Nat) (act : State → List Byte → State × Code × List Byte) : State :=
  match s.mgmt.req with
  | none => s
  | some (c, tag, payload) =>
    if c ≠ cmd then s
    else if s.accepts cmd ≠ some true then s.reply tag cmd cSTATE_REJECT []
    else
      let r := act s payload
      r.1.reply tag cmd r.2.1 (if r.2.1 = cDONE then r.2.2 else [])

/-- A command whose operands are legal where `ok` holds of the payload, with its effect. -/
def State.serveIf (s : State) (cmd : Nat) (ok : List Byte → Bool) (act : State → List Byte → State) : State :=
  s.serve cmd fun s p => if ok p then (act s p, cDONE, []) else (s, cRANGE, [])

/-- A command that returns results. -/
def State.serveRead (s : State) (cmd : Nat) (ok : List Byte → Bool) (out : State → List Byte → List Byte) : State :=
  s.serve cmd fun s p => if ok p then (s, cDONE, out s p) else (s, cRANGE, [])

/-- The payload is empty. -/
def noPayload (p : List Byte) : Bool := p.isEmpty

/-- The payload is of `n` bytes. -/
def sized (n : Nat) (p : List Byte) : Bool := p.length == n

/-- Bits [hi:lo] of a payload. -/
def payBits (p : List Byte) (hi lo : Nat) : Nat := leNat p / 2 ^ lo % 2 ^ (hi + 1 - lo)

/-! ### I3C common commands (R527) -/

/-- A common command reaches the port, which is then in I3C mode. -/
def State.ccc (s : State) (act : State → State) : State :=
  if s.portAnswers then act (s.setF Fld.MSC_MGMT_MODE 2) else s

/-- A common command directed at the dynamic address. -/
def State.directed (s : State) (act : State → State) : State :=
  s.ccc fun s => if s.getF Fld.MSC_MGMT_DYN = 0 then s else act s

/-- A dynamic address assigned where the port has none (`fresh`), or changed. -/
def State.assign (s : State) (fresh : Bool) (addr : BitVec 7) : State :=
  s.ccc fun s => if (s.getF Fld.MSC_MGMT_DYN == 0) == fresh then s.setF Fld.MSC_MGMT_DYN addr.toNat else s

/-- The in-band interrupt is raised: in I3C mode, with events enabled, while an event is queued (R527). -/
def State.inBandInterrupt (s : State) : Bool :=
  s.portAnswers && s.getF Fld.MSC_MGMT_MODE == 2 && s.getF Fld.MSC_MGMT_IBI_EN == 1 && !s.mgmt.events.isEmpty

/-- A directed read. -/
def State.cccRead (s : State) (n : Nat) : State := s.directed fun s => s.updMgmt fun m => { m with out := Config.i3cAnswer n }

/-- GETSTATUS: two bytes that the spec does not lay out. -/
def opGetstatus (s : State) : State :=
  s.directed fun s =>
    let d := s.draw
    d.1.updMgmt fun m => { m with out := leBytes 2 d.2 }

/-! ### Status, events and sensors (R533, R536) -/

/-- Bytes of registers as read. -/
def State.viewBytes (s : State) (l : List (RegId × Nat)) : List Byte := l.flatMap fun r => leBytes 8 (s.regView r.1 r.2 0).toNat

/-- An event record (R536). -/
def eventBytes (e : MgmtEvent) : List Byte :=
  leBytes 1 e.code ++ leBytes 1 e.detail ++ leBytes 2 e.dev.toNat ++ List.replicate 4 0 ++ leBytes 8 e.cal.toNat

def opStatus (s : State) : State :=
  s.serveRead 0x01 noPayload fun s _ =>
    s.viewBytes [(.MSC_STATE, 0), (.TPC_WAKE, 0), (.MSC_FW_STATUS, 0), (.MSC_STRAP, 0), (.MSC_MGMT, 0)]

def opEvents (s : State) : State :=
  s.serve 0x02 fun s p =>
    if noPayload p then (s.updMgmt fun m => { m with events := [] }, cDONE, s.mgmt.events.flatMap eventBytes) else (s, cRANGE, [])

def opSensors (s : State) : State :=
  s.serveRead 0x03 noPayload fun s _ =>
    s.viewBytes [(.TPC_TEMP, 0), (.TPC_TEMP_DIE, 0), (.TPC_TEMP_DIE, 1), (.TPC_TEMP_DIE, 2), (.TPC_TEMP_DIE, 3), (.TPC_TEMP_HDR, 0),
      (.TPC_LEVELS, 0), (.TPC_POWER, 0)]

/-! ### Lease and membership (R428 to R433, R534) -/

/-- The lease is live with REMAIN at LENGTH. -/
def State.leaseLive (s : State) : State :=
  s.setFs [(Fld.MSC_LEASE_STATE, 1), (Fld.MSC_LEASE_REMAIN, s.getF Fld.MSC_LEASE_LENGTH)]

/-- A field's value, or its default where it is 0. -/
def orDefault (v d : Nat) : Nat := if v = 0 then d else v

def opLease (s : State) : State :=
  s.serve 0x10 fun s p =>
    let len := orDefault (payBits p 31 16) 2000
    let grace := orDefault (payBits p 47 32) 500
    if !sized 6 p then (s, cRANGE, [])
    else if payBits p 0 0 = 0 then (s.leaseOff, cDONE, [])
    else if len < 100 ∨ 60000 < len ∨ 10000 < grace then (s, cRANGE, [])
    else ((s.setFs [(Fld.MSC_LEASE_EN, 1), (Fld.MSC_LEASE_LENGTH, len), (Fld.MSC_LEASE_GRACE, grace)]).leaseLive, cDONE, [])

def opRenew (s : State) : State :=
  s.serveIf 0x11 noPayload fun s _ =>
    let s := s.leaseLive.incF Fld.MSC_LEASE_CNT_RENEWALS
    if s.devState = stHELD then s.setDevState stREADY else s

/-- An expel (R432): READY at once where no program runs, and otherwise with the end of the job. -/
def State.expel (s : State) : State :=
  let s := (s.bays.map Prod.fst).foldl (fun s b => s.bayStop (BitVec.ofNat 10 b)) s
  let s := (s.abortDevice cABORTED_GROUP fun _ => true).settleSteps.setFs [(Fld.LDG_PLUMB_EN, 0), (Fld.LDG_PLUMB_STATE, 0)]
  let s := ((s.bitsEvent cABORTED_GROUP).updJob fun j => { j with stopped := true }).leaseOff
  let s := if s.devState = stHOLD ∨ s.devState = stHELD ∨ s.host.job.isNone then s.setDevState stREADY else s
  s.endJob

/-- EXPEL: a baste pause runs to its end first (R536). -/
def opExpel (s : State) : State := if s.basteState = 1 then s else s.serveIf 0x12 noPayload fun s _ => s.expel

def opQuarantine (s : State) : State := s.serveIf 0x13 noPayload fun s _ => s.setDevState stQUARANTINE

def opRelease (s : State) : State := s.serveIf 0x14 noPayload fun s _ => s.setDevState stRUN

def opNbr (s : State) : State :=
  s.serveIf 0x15 (sized 1) fun s p => ((s.setF Fld.LDG_RISK_NBR (leNat p)).updLdg fun l => { l with nbrAt := s.now }).riskTotal

/-! ### Power (R505 to R518) -/

/-- Progress registers of long operations: STATE of each (R455). -/
def progStates : List Field :=
  [Fld.MSC_LOAD_PROG_STATE, Fld.LDG_BASTE_PROG_STATE, Fld.LDG_HEM_PROG_STATE, Fld.LDG_RESTORE_PROG_STATE, Fld.LDG_DIGEST_PROG_STATE,
   Fld.HBM_SCRUB_PROG_STATE, Fld.HBM_FOLD_PROG_STATE, Fld.MSC_FW_PROG_STATE]

/-- Every long operation stopped at once with progress STATE 3 (R516); the code of its command is an open value. -/
def State.stopLong (s : State) : State :=
  let s := progStates.foldl (fun s f => if s.getF f = 1 then s.setF f 3 else s) s
  let d := s.draw
  let s := (s.host.cmds.filter fun c => c.stage == .running && (progressOf c.op).isSome).foldl
    (fun s c => s.finishLong c.k (openFailure d.2)) d.1
  let s := if s.basteRuns then s.setF Fld.LDG_BASTE_STATUS_STATE 6 else s
  let s := ((s.withdrawLedger .baste).withdrawLedger .hem).withdrawLedger .restore
  let s := s.updLdg fun l => { l with hem := none, restore := none, digest := none }
  { s.updHbm fun h => { h.foldOver with scrub := none } with fwWrite := none }

/-- Power off: the job ends first where one runs (R513, R516). -/
def State.powerOff (s : State) : State :=
  let s := (s.setF Fld.TPC_SHUTDOWN_LATCH 0).stopLong.stopJob
  if s.host.job.isSome then s.updPower fun p => { p with offDue := true } else s.offNow

/-- OFF (R516): the reply is final before power goes. -/
def opOff (s : State) : State :=
  match s.mgmt.req with
  | none => s
  | some (c, _, p) =>
    let t := s.serveIf 0x20 noPayload fun s _ => s
    if c = 0x20 ∧ s.accepts 0x20 = some true ∧ noPayload p then t.powerOff else t

/-- A PATROL command (R513): from LATCHED at step 4, with the latch cleared (R505). -/
def State.patrolCmd (s : State) : State :=
  let st := s.devState
  if st = stLATCHED then s.setFs [(Fld.TPC_SHUTDOWN_LATCH, 0), (Fld.TPC_POWER_ENTRY, 4)]
  else if st = stRUN ∨ st = stHOLD ∨ st = stQUARANTINE then
    let s := s.stopJob
    if s.devState = stREADY ∧ s.host.job.isNone then s.setF Fld.TPC_POWER_ENTRY 1
    else s.updPower fun p => { p with patrolDue := true }
  else s.setF Fld.TPC_POWER_ENTRY 1

def opPatrol (s : State) : State := s.serveIf 0x21 noPayload fun s _ => s.patrolCmd

def opPatrolSet (s : State) : State :=
  s.serveIf 0x22 (fun p => sized 28 p && decide (1 ≤ payBits p 11 0) && decide (payBits p 11 0 ≤ 3600)) fun s p =>
    let s := s.setFs [(Fld.TPC_PATROL_PERIOD, payBits p 11 0), (Fld.TPC_PATROL_WAKE_THRESH, payBits p 16 16),
      (Fld.TPC_PATROL_WAKE_ADDR, payBits p 17 17), (Fld.TPC_PATROL_WAKE_ALARM, payBits p 18 18)]
    (List.range 5).foldl (fun s q =>
      let b := p.drop (3 + 5 * q)
      s.setFs [(Fld.TPC_PATROL_LIM_LOW q, payBits b 15 0), (Fld.TPC_PATROL_LIM_HIGH q, payBits b 31 16),
        (Fld.TPC_PATROL_LIM_WAKE_EN q, payBits b 32 32)]) s

def opPowerCap (s : State) : State :=
  s.serveIf 0x23 (fun p => sized 2 p && decide (800 ≤ leNat p) && decide (leNat p ≤ 2100)) fun s p =>
    s.setF Fld.TPC_POWER_CAP_W (leNat p)

def opReplan (m : AgeMeasure) (s : State) : State := s.serveIf 0x24 noPayload fun s _ => s.rePlan m

/-! ### Calendar (R371, R372) -/

def opCalSet (s : State) : State :=
  s.serveIf 0x30 (fun p => sized 8 p && decide (leNat p % 2 = 0)) fun s p =>
    ((s.setReg RegId.SCR_CAL.addr (BitVec.ofNat 64 (leNat p))).setF Fld.SCR_CAL_STATUS_VALID 1).alarmCheck

def opAlarmSet (s : State) : State :=
  s.serveIf 0x31 (sized 9) fun s p =>
    let arm := payBits p 64 64
    let s := s.setFs [(Fld.SCR_CAL_ALARM_ALARM, payBits p 63 0), (Fld.SCR_CAL_STATUS_ARMED, arm)]
    (if arm = 1 then s.setF Fld.SCR_CAL_STATUS_FIRED 0 else s).alarmCheck

/-! ### Firmware and attestation (R477, R481 to R484, R534, R535) -/

/-- A chunk of a firmware write: code, and whether the whole image has now arrived. -/
def State.fwCommand (s : State) (p : List Byte) : State × Code × Bool :=
  let off := leNat (p.take 4)
  let chunk := p.drop 4
  if p.length < 5 ∨ 2052 < p.length then (s, cRANGE, false)
  else
    let s := if off = 0 then { s with fwWrite := some ⟨[]⟩ } else s
    if s.fwWrite.isNone ∨ off ≠ s.fwBytes.length ∨ s.fwWhole then
      (if s.fwWrite.isSome then s.fwEnd cRANGE else s, cRANGE, false)
    else
      let r := s.fwChunk chunk
      (r.1, r.2, r.2 == cDONE && r.1.fwWhole)

/-- FW_WRITE: the reply to the last chunk waits for the comparison of the digest. -/
def opFwWrite (s : State) : State :=
  match s.mgmt.req with
  | none => s
  | some (c, tag, p) =>
    if c ≠ 0x40 ∨ s.fwWhole then s
    else if s.accepts 0x40 ≠ some true then s.reply tag c cSTATE_REJECT []
    else
      let r := s.fwCommand p
      if r.2.2 then r.1 else r.1.reply tag c r.2.1 []

/-- FIRMWARE_WRITE_DONE (R477, R478). -/
def opFwDone (s : State) : State :=
  if !s.fwWhole then s
  else
    let r := s.fwFinish
    let s := if s.devState = stRECOVERY then r.1.setF Fld.MSC_MBX_STATUS_CODE r.2.toNat else r.1
    match s.mgmt.req with
    | some (c, tag, _) => if c = 0x40 then s.reply tag c r.2 [] else s
    | none => s

/-- FW_WRITE_IDLE_TIMEOUT (R534). -/
def opFwIdle (s : State) : State := if s.fwWrite.isSome ∧ !s.fwWhole then s.fwEnd cRANGE else s

/-- The 640 bytes of a quote's body (R484). -/
def State.quoteBody (s : State) (nonce : List Byte) : List Byte :=
  [0x44, 0x5A, 0x41, 0x51] ++ leBytes 2 1 ++ leBytes 1 s.devState ++ leBytes 1 (s.getF Fld.MSC_FW_STATUS_FUSE_COUNT)
    ++ leBytes 8 (s.getF Fld.MSC_FW_VERSION_VERSION) ++ leBytes 2 s.devCoord.toNat ++ List.replicate 6 0
    ++ leBytes 8 (s.reg RegId.SCR_CAL.addr).toNat ++ nonce ++ identity ++ (List.range 8).flatMap s.measOf

/-- A body followed by its signature under a context string (R482). -/
def signed (context body : List Byte) : List Byte := body ++ Config.sign context (sha3 body)

def opQuote (s : State) : State :=
  s.serveRead 0x41 (sized 32) fun s p => signed [0x44, 0x5A, 0x41, 0x51] (s.quoteBody p)

def opCertRead (s : State) : State :=
  s.serveRead 0x42 (fun p => sized 1 p && decide (leNat p ≤ 1)) fun _ p => Config.certificate (leNat p)

/-- The 72 bytes of a challenge's body (R535). -/
def State.challengeBody (s : State) (nonce : List Byte) : List Byte :=
  nonce ++ leBytes 2 s.devCoord.toNat ++ leBytes 1 s.devState ++ List.replicate 5 0 ++ leBytes 8 (s.reg RegId.SCR_CAL.addr).toNat
    ++ identity.take 24

def opChallenge (s : State) : State :=
  s.serveRead 0x43 (sized 32) fun s p => signed [0x44, 0x5A, 0x4D, 0x43] (s.challengeBody p)

def opPermit (s : State) : State :=
  s.serveIf 0x50 (sized 1) fun s p => s.setF Fld.MSC_HBM1500_PERMIT_STACK (s.getF Fld.MSC_HBM1500_PERMIT_STACK ||| leNat p)

/-- BENCH (R541): the request is recorded or erased, and the device is to be reset. -/
def opBench (s : State) : State :=
  s.serveIf 0x51 (fun p => sized 1 p && decide (leNat p ≤ 1)) fun s p =>
    { s with store := { s.store with bench := leNat p == 1 }, power := { s.power with resetDue := true } }

/-! ### The meanings -/

/-- MGMT_REQUEST (R532). -/
def execMgmtRequest (frame : List Byte) (s : State) : Res := .next (opMgmtRequest frame s)

/-- MGMT_REPLY_READ (R531). -/
def execMgmtReplyRead (s : State) : Res := .next (opReplyRead s)

/-- BUS_CLOCK_TIMEOUT (R529). -/
def execBusClockTimeout (s : State) : Res := .next (opFrameTimeout s)

/-- FRAME_INCOMPLETE_TIMEOUT (R529). -/
def execFrameIncompleteTimeout (s : State) : Res := .next (opFrameTimeout s)

/-- ENTDAA (R527). -/
def execEntdaa (addr : BitVec 7) (s : State) : Res := .next (s.assign true addr)

/-- SETDASA (R527): the static address must match. -/
def execSetdasa (static addr : BitVec 7) (s : State) : Res :=
  .next (if s.getF Fld.MSC_MGMT_STATIC = static.toNat then s.assign true addr else s)

/-- SETNEWDA (R527). -/
def execSetnewda (addr : BitVec 7) (s : State) : Res := .next (s.assign false addr)

/-- RSTDAA (R527). -/
def execRstdaa (s : State) : Res := .next (s.ccc fun s => s.setF Fld.MSC_MGMT_DYN 0)

/-- ENEC (R527). -/
def execEnec (s : State) : Res := .next (s.ccc fun s => s.setF Fld.MSC_MGMT_IBI_EN 1)

/-- DISEC (R527). -/
def execDisec (s : State) : Res := .next (s.ccc fun s => s.setF Fld.MSC_MGMT_IBI_EN 0)

/-- GETPID (R527). -/
def execGetpid (s : State) : Res := .next (s.cccRead 0)

/-- GETBCR (R527). -/
def execGetbcr (s : State) : Res := .next (s.cccRead 1)

/-- GETDCR (R527). -/
def execGetdcr (s : State) : Res := .next (s.cccRead 2)

/-- GETSTATUS (R527). -/
def execGetstatus (s : State) : Res := .next (opGetstatus s)

/-- GETMWL (R527). -/
def execGetmwl (s : State) : Res := .next (s.cccRead 3)

/-- GETMRL (R527). -/
def execGetmrl (s : State) : Res := .next (s.cccRead 4)

/-- STATUS (R533). -/
def execStatus (s : State) : Res := .next (opStatus s)

/-- EVENTS (R536). -/
def execEvents (s : State) : Res := .next (opEvents s)

/-- SENSORS (R533). -/
def execSensors (s : State) : Res := .next (opSensors s)

/-- LEASE (R534). -/
def execLease (s : State) : Res := .next (opLease s)

/-- RENEW (R428, R430). -/
def execRenew (s : State) : Res := .next (opRenew s)

/-- EXPEL (R432). -/
def execExpel (s : State) : Res := .next (opExpel s).settled

/-- QUARANTINE (R433). -/
def execQuarantine (s : State) : Res := .next (opQuarantine s)

/-- RELEASE (R433). -/
def execRelease (s : State) : Res := .next (opRelease s)

/-- NBR (R413). -/
def execNbr (s : State) : Res := .next (opNbr s)

/-- OFF (R516). -/
def execOff (s : State) : Res := .next (opOff s).settled

/-- PATROL (R513). -/
def execPatrol (s : State) : Res := .next (opPatrol s).settled

/-- PATROL_SET (R510). -/
def execPatrolSet (s : State) : Res := .next (opPatrolSet s)

/-- POWER_CAP (R507). -/
def execPowerCap (s : State) : Res := .next (opPowerCap s)

/-- REPLAN (R518). -/
def execReplan (m : AgeMeasure) (s : State) : Res := .next (opReplan m s)

/-- CAL_SET (R371). -/
def execCalSet (s : State) : Res := .next (opCalSet s)

/-- ALARM_SET (R372). -/
def execAlarmSet (s : State) : Res := .next (opAlarmSet s)

/-- FW_WRITE (R534). -/
def execFwWrite (s : State) : Res := .next (opFwWrite s)

/-- FIRMWARE_WRITE_DONE (R477). -/
def execFirmwareWriteDone (s : State) : Res := .next (opFwDone s)

/-- FW_WRITE_IDLE_TIMEOUT (R534). -/
def execFwWriteIdleTimeout (s : State) : Res := .next (opFwIdle s)

/-- QUOTE (R484). -/
def execQuote (s : State) : Res := .next (opQuote s)

/-- CERT_READ (R481). -/
def execCertRead (s : State) : Res := .next (opCertRead s)

/-- CHALLENGE (R535). -/
def execChallenge (s : State) : Res := .next (opChallenge s)

/-- PERMIT (R39). -/
def execPermit (s : State) : Res := .next (opPermit s)

/-- BENCH (R541). -/
def execBench (s : State) : Res := .next (opBench s)

end Sys2Proof.Machine
end

