-- ==== Sys2Proof/Machine/RegWrite.lean ====
section
/-! DEFINITION. Reads and writes of register space (R6, R7, R11 to R13, R563, R564): who may write what (R489), the access tables
(R487, R488), the rules of each register, and how a path reports the outcome (R444, R467). -/

namespace Sys2Proof.Machine

/-! ### Rules of registers that no other file holds -/

/-- A write of `BAY_CTRL` (R73): STOP wins over GO; GO, or a change of SEAM_EN, in a live bay refuses the write. -/
def writeBayCtrl (b : BayId) (v : Word) (s : State) : State × Code :=
  let n := b.toNat
  let stop := (Fld.BAY_CTRL_STOP n).of v == 1
  let go := (Fld.BAY_CTRL_GO n).of v == 1 && !stop
  let change := (Fld.BAY_CTRL_SEAM_EN n).of v != s.getF (Fld.BAY_CTRL_SEAM_EN n)
  if (go || change) && (s.bay b).live then (s, cSTATE_REJECT)
  else
    let s := s.plainWrite .BAY_CTRL n 0 v
    (if stop then s.bayStop b else if go then (s.bayGo b).workBay b else s, cDONE)

/-- The group entry is being checked or ready. -/
def State.grpBusy (s : State) (g : Nat) : Bool := s.getF (Fld.ABR_GRP_W0_STATE g) == 1 || s.getF (Fld.ABR_GRP_W0_STATE g) == 2

/-- A write of `ABR_GRP_W0` (R238): VALID starts the check or empties the entry. -/
def writeGroup (g : Nat) (v : Word) (s : State) : State × Code :=
  let valid := (Fld.ABR_GRP_W0_VALID g).of v == 1
  let same := s.reg (RegId.ABR_GRP_W0.addr g)
  let other := (Fld.ABR_GRP_W0_VALID g).keep v same
  let empty := fun (s : State) =>
    let s := (s.plainWrite .ABR_GRP_W0 g 0 v).setFs [(Fld.ABR_GRP_W0_STATE g, 0), (Fld.ABR_GRP_W0_CHECK_CODE g, 0)]
    { s with fab := { s.fab with groups := smapSet (fun _ => []) s.fab.groups g [] } }
  if !valid && s.getF (Fld.ABR_GRP_W0_VALID g) == 1 && s.grpOpen (BitVec.ofNat 12 g) != 0 then (s, cSTATE_REJECT)
  else if s.grpBusy g then
    if s.regChanges .ABR_GRP_W0 g 0 other then (s, cSTATE_REJECT)
    else if valid then (s, cDONE)
    else (empty s, cDONE)
  else if valid then ((s.plainWrite .ABR_GRP_W0 g 0 v).setF (Fld.ABR_GRP_W0_STATE g) 1, cDONE)
  else (empty s, cDONE)

/-- A write of `ABR_GRP_W1` or `ABR_GRP_W2` (R238). -/
def writeGroupWord (r : RegId) (g : Nat) (v : Word) (s : State) : State × Code := s.stateWrite r g v !s.grpBusy g

/-- A write of `ABR_E2E_CTRL` (R314). -/
def writeE2e (v : Word) (s : State) : State × Code :=
  let th := Fld.ABR_E2E_CTRL_CREASE_TH.of v
  let rto := Fld.ABR_E2E_CTRL_RTO.of v
  s.guarded .ABR_E2E_CTRL 0 0 v (s.devState == stREADY) cSTATE_REJECT fun s =>
    s.limitedWrite .ABR_E2E_CTRL 0 0 v [(Fld.ABR_E2E_CTRL_CREASE_TH, decide (4 ≤ th) && decide (th ≤ 256)),
      (Fld.ABR_E2E_CTRL_RTO, decide (20 ≤ rto) && decide (rto ≤ 500))]

/-- A write of `HBM_FOLD_CTRL` (R257, R274). -/
def writeFoldCtrl (v : Word) (s : State) : State × Code :=
  let n := Fld.HBM_FOLD_CTRL_RATE.of v
  let w := s.limitedWrite .HBM_FOLD_CTRL 0 0 v [(Fld.HBM_FOLD_CTRL_RATE, decide (1 ≤ n) && decide (n ≤ 40))]
  (w.1.foldPending, w.2)

/-- A write of `HBM_SCRUB` (R276). -/
def writeScrub (v : Word) (s : State) : State × Code :=
  s.limitedWrite .HBM_SCRUB 0 0 v [(Fld.HBM_SCRUB_INTERVAL, decide (Fld.HBM_SCRUB_INTERVAL.of v ≤ 168))]

/-- A write of register `i`, `j` of a kind by its own rules. -/
def writeBy (r : RegId) (i j : Nat) (v : Word) (s : State) : State × Code :=
  match r with
  | .BAY_CTRL => writeBayCtrl (BitVec.ofNat 10 i) v s
  | .LLS_SEG => writeSeg i v s
  | .HBM_BAND => writeBand i v s
  | .HBM_FOLD_CTRL => writeFoldCtrl v s
  | .HBM_SCRUB => writeScrub v s
  | .ABR_E2E_CTRL => writeE2e v s
  | .ABR_LEVEL => writeLevel i j v s
  | .ABR_EPOCH => writeEpoch r v s
  | .ABR_EPOCH_MARK => writeEpoch r v s
  | .ABR_EPOCH_CTRL => writeEpochCtrl v s
  | .ABR_GRP_W0 => writeGroup i v s
  | .ABR_GRP_W1 => writeGroupWord r i v s
  | .ABR_GRP_W2 => writeGroupWord r i v s
  | .OPT_CIRCUIT => writeCircuit v s
  | .OPT_CIRCUIT_MARK => writeCircuitMark v s
  | .OPT_FW_CTRL => writeFwCtrl v s
  | .OPT_FW_WIN => writeFwWin i j v s
  | .SCR_SYNC => writeSync v s
  | .SCR_SET => writeScrSet v s
  | .SCR_LATCH => writeLatch v s
  | .SCR_ASYM => writeAsym i v s
  | .LDG_STEP => writeStep v s
  | .LDG_DIGEST_CTRL => writeDigestCtrl v s
  | .LDG_REGION_A => writeRegion r i v s
  | .LDG_REGION_B => writeRegion r i v s
  | .LDG_RNG_KEY => writeRng r i v s
  | .LDG_RNG_CTR => writeRng r i v s
  | .LDG_PLUMB => writePlumb r v s
  | .LDG_PLUMB_START => writePlumb r v s
  | .LDG_BASTE_CTRL => writeBasteCtrl v s
  | .LDG_RES => writeRes v s
  | .LDG_CURSOR => writeCursor v s
  | .LDG_SEC_A => writeSec r i v s
  | .LDG_SEC_B => writeSec r i v s
  | .MSC_MEAS_EXT => writeMeasExt v s
  | .MSC_PEER_RANGE => writeGroups r i v s
  | .MSC_BAY_GROUP => writeGroups r i v s
  | .MSC_ACC_CTRL => writeAccCtrl i v s
  | .MSC_ACC_A => writeAcc r i j v s
  | .MSC_ACC_B => writeAcc r i j v s
  | .MSC_SQ_BASE => writeSqBase i v s
  | .MSC_SQ_CFG => writeSqCfg i v s
  | .MSC_CQ_BASE => writeCqBase i v s
  | .MSC_CQ_CFG => writeCqCfg i v s
  | .MSC_SQ_TAIL => writeSqTail i v s
  | .MSC_CQ_HEAD => writeCqHead i v s
  | .MSC_MBX_CTRL => writeMbx v s
  | .MSC_MBX_DATA => (if s.devState = stRECOVERY then s.plainWrite r i j v else s, cDONE)
  | .MSC_MSIX_CTRL => writeMsix i v s
  | .TPC_DVFS => writeDvfs v s
  | _ => if r.readOnly then (s, cRANGE) else (s.plainWrite r i j v, cDONE)

/-! ### Who may write (R486 to R489) -/

/-- The master class of a path (R486). -/
def State.pathMaster (s : State) : RegPath → Master
  | .msc => .msc
  | .bar0 => .host
  | .hostCmd => .host
  | .bay b => .group (s.bayGroup b)

/-- Registers that only the management port writes (R31, R39, R371, R434, R440, R489). -/
def portOnly : List RegId := [.MSC_HBM1500_PERMIT, .MSC_LEASE, .MSC_LEASE_CNT, .LDG_RISK, .SCR_CAL, .SCR_CAL_ALARM, .SCR_CAL_STATUS]

/-- Registers of the ABR_, OPT_, MSC_ and TPC_ windows that accept writes from the host and MSC classes only (R237, R347, R439, R489,
R506). -/
def hostOnly : List RegId :=
  [.ABR_GRP_W0, .ABR_GRP_W1, .ABR_GRP_W2, .ABR_EXP_W0, .ABR_EXP_W1, .ABR_EXP_W2, .ABR_EXP_W3, .ABR_COLL_ABORT, .ABR_EPOCH,
   .ABR_EPOCH_MARK, .ABR_EPOCH_CTRL, .OPT_CIRCUIT, .OPT_CIRCUIT_MARK, .MSC_ACC_CTRL, .MSC_ACC_A, .MSC_ACC_B, .MSC_BAY_GROUP,
   .MSC_PEER_RANGE, .TPC_DVFS]

/-- A path may write the register at address `a` at all (R35, R374, R401, R434, R489, R496): what is decided before the tables. -/
def pathMay (p : RegPath) (r : RegId) (a : Nat) (v : Word) : Bool :=
  let bay := match p with
    | .bay _ => true
    | _ => false
  if portOnly.contains r then false
  else if r = .OPT_FW_CTRL ∨ r = .OPT_FW_WIN ∨ r = .OPT_FW_STATUS then p == .msc
  else if r = .MSC_MEAS_EXT ∧ Fld.MSC_MEAS_EXT_GO.of v = 1 then p == .bar0 || p == .hostCmd
  else if !bay then true
  else if r = .LDG_STEP then Fld.LDG_STEP_ADV.of v == 1
  else if r = .LDG_RNG_CTR then true
  else !(hostOnly.contains r || decide (a / 0x1000000 = 0x01F008) || decide (a / 0x1000000 = 0x01F009))

/-- The permission a register write needs (R487). -/
def writePerm (r : RegId) (i : Nat) (v : Word) : Perms :=
  if (v &&& r.bits .wo) != 0 || (r == .ABR_GRP_W0 && (Fld.ABR_GRP_W0_VALID i).of v == 1) then permX else permW

/-! ### Reads and writes of an address -/

/-- Window addresses from here to the end of register space are reserved (R7). -/
def regEnd : Nat := 0x01F00C000000

/-- Size and alignment that R11 allows. -/
def regAligned (a size : Nat) : Bool := (size == 4 || size == 8) && decide (a % size = 0)

/-- What a 32-bit write carries: the other half keeps the values of its RW bits and triggers nothing. -/
def widen (r : RegId) (old : Word) (a size : Nat) (v : Word) : Word :=
  if size = 8 then v
  else
    let keep := old &&& r.bits .rw
    if a % 8 = 0 then (keep &&& 0xFFFFFFFF00000000) ||| (v &&& 0xFFFFFFFF) else (keep &&& 0xFFFFFFFF) ||| (v <<< 32)

/-- A register write with its outcome (R6, R11 to R13, R488, R489, R563, R564). -/
def State.writeReg (s : State) (p : RegPath) (a size : Nat) (v : Word) : State × Code :=
  if !regAligned a size then (s, cMALFORMED)
  else if a < regBase ∨ regEnd ≤ a then (s, cRANGE)
  else
    match regLocate a with
    | none => s.checkAccess (s.pathMaster p) s.devCoord permW a size |> fun c => (c.1, if c.2 then cDONE else cACCESS_DENIED)
    | some (r, i, j) =>
      let w := widen r (s.reg (r.addr i j)) a size v
      if r = .SCR_SET ∧ size ≠ 8 then (s, cMALFORMED)
      else if !pathMay p r a w then (s, cACCESS_DENIED)
      else
        let c := s.checkAccess (s.pathMaster p) s.devCoord (writePerm r i w) a size
        if c.2 then writeBy r i j w c.1 else (c.1, cACCESS_DENIED)

/-- A register read, its access already checked (R6, R11, R12). -/
def State.readReg (s : State) (a size : Nat) : Code × Word :=
  if !regAligned a size then (cMALFORMED, 0)
  else if a < regBase ∨ regEnd ≤ a then (cRANGE, 0)
  else
    let w := match regLocate a with
      | none => 0
      | some (r, i, j) => s.regView r i j
    (cDONE, if size = 8 then w else if a % 8 = 0 then w &&& 0xFFFFFFFF else w >>> 32)

/-! ### Paths -/

/-- First address of the registers that BAR0 maps (R443, R446), and one past the last. -/
def bar0Base : Nat := 0x01F00A100000
def bar0End : Nat := 0x01F00A200000

/-- BAR0 registers that respond in RECOVERY (R446). -/
def inRecovery (a : Nat) : Bool :=
  match regLocate a with
  | some (r, _, _) => r == .MSC_STATE || r == .MSC_FW_PROG || r == .MSC_MBX_CTRL || r == .MSC_MBX_STATUS || r == .MSC_MBX_DATA
  | none => false

/-- The function answers no memory request (R463, R508). -/
def State.barsOff (s : State) : Bool := s.devState == stOFF || s.devState == stPATROL || s.devState == stLATCHED

/-- A refused access of the host recorded (R444, R467): doorbells as KIND 2 with their ring, other BAR0 accesses as KIND 0, and the
rest as KIND 1. -/
def State.hostRefused (s : State) (a : Nat) (code : Code) : State :=
  if bar0Base ≤ a ∧ a < bar0End then
    match regLocate a with
    | some (.MSC_SQ_TAIL, q, _) => s.hostErr (if code = cRANGE then 2 else 0) (if code = cRANGE then q else 0) code (a - bar0Base)
    | some (.MSC_CQ_HEAD, q, _) => s.hostErr (if code = cRANGE then 2 else 0) (if code = cRANGE then q else 0) code (a - bar0Base)
    | _ => s.hostErr 0 0 code (a - bar0Base)
  else s.hostErr 1 0 code a

/-- A register write by a path, its outcome reported as the path reports it. -/
def State.regWriteBy (s : State) (p : RegPath) (a size : Nat) (v : Word) : State :=
  if p = .bar0 ∧ (s.barsOff ∨ (s.devState = stRECOVERY ∧ bar0Base ≤ a ∧ a < bar0End ∧ !inRecovery a)) then s
  else
    let w := s.writeReg p a size v
    let t : State := { w.1 with lastCode := w.2 }
    if p = .bar0 ∧ w.2 ≠ cDONE then t.hostRefused a w.2 else t

end Sys2Proof.Machine
end

