-- ==== Sys2Proof/Machine/RegRows.lean ====
section
/-! DEFINITION. The commands that are register writes, with the trigger that each names: the word of the row is written to the row's
register, with the trigger's bit set. The host's doorbells, ring registers and debug aperture; REG_WRITE; and a bay's message
requests that reach bay memory or register space. -/

namespace Sys2Proof.Machine

/-- A word with a one-bit field set. -/
def withBit (f : Field) (v : Word) : Word := putField v f.lo f.width 1

/-- A 64-bit write of a register. -/
def State.write64 (s : State) (p : RegPath) (r : RegId) (i j : Nat) (v : Word) : State := s.regWriteBy p (r.addr i j) 8 v

/-- `BAY_CTRL` written with its SEAM_EN kept and a trigger. -/
def opBayTrigger (p : RegPath) (b : BayId) (f : Field) (s : State) : State :=
  s.write64 p .BAY_CTRL b.toNat 0 (withBit f (packWord [(1, s.getF (Fld.BAY_CTRL_SEAM_EN b.toNat))]))

/-- ACCESS_TABLE_WRITE (R490, R493): an entry word, a bay group or a peer range. -/
def opTableWrite (p : RegPath) (addr : Nat) (v : Word) (s : State) : State :=
  match regLocate addr with
  | some (r, _, _) =>
    if r = .MSC_ACC_A ∨ r = .MSC_ACC_B ∨ r = .MSC_BAY_GROUP ∨ r = .MSC_PEER_RANGE then s.regWriteBy p addr 8 v else s
  | none => s

/-- REG_WRITE (R457): its code is the outcome of the write. -/
def opRegWrite (k : Nat) (s : State) : State :=
  s.begin k 0x06
    (fun _ c =>
      let a := (c.op_ 0).toNat
      ⟨false, operandCode (decide (a % 8 ≠ 0)) (decide (a < regBase) || decide (regEnd ≤ a)), []⟩)
    fun c s =>
      let w := s.writeReg .hostCmd (c.op_ 0).toNat 8 (c.op_ 1)
      w.1.finishCmd k w.2

/-! ### The debug aperture (R444, R470) -/

/-- Every bit of a read that failed is one. -/
def allOnes : Word := BitVec.allOnes 64

/-- An access through BAR2 that is refused: a read returns all ones. -/
def State.apertureFails (s : State) (a : Nat) (code : Code) : State :=
  { s.hostErr 1 0 code a with lastCode := code, lastData := allOnes }

/-- The device address of an access of the debug aperture, and whether its window is enabled (R470). -/
def LateAccess.addr (x : LateAccess) : Nat := Fld.MSC_DBG_WIN_BASE.of x.win * 2 ^ 28 + x.off
def LateAccess.on (x : LateAccess) : Bool := Fld.MSC_DBG_WIN_EN.of x.win == 1

/-- An access of the debug aperture served (R444). With EN clear the code recorded is an open value. -/
def State.aperture (s : State) (x : LateAccess) : State :=
  let a := x.addr
  let wr := x.write
  let size := x.size
  let v := x.value
  if s.barsOff then { s with lastData := allOnes }
  else if !x.on then
    let d := s.draw
    d.1.apertureFails a (openFailure d.2)
  else if regionOf a = .regs then
    if wr then
      let w := s.writeReg .bar0 a size v
      if w.2 = cDONE then { w.1 with lastCode := cDONE } else w.1.apertureFails a w.2
    else
      let r := s.readReg a size
      if r.1 ≠ cDONE then s.apertureFails a r.1
      else
        let c := s.checkAccess .host s.devCoord permR a size
        if c.2 then { c.1 with lastCode := cDONE, lastData := r.2 } else c.1.apertureFails a cACCESS_DENIED
  else if !regAligned a size then s.apertureFails a cMALFORMED
  else
    let c := s.access .host s.devCoord (if wr then permW else permR) a size
    if !c.2 then c.1.apertureFails a cACCESS_DENIED
    else if wr then
      let w := c.1.devWrite 1 a (leBytes size v.toNat)
      if w.2 = cDONE then { w.1 with lastCode := cDONE } else w.1.apertureFails a w.2
    else
      let r := c.1.devRead 1 a size
      if r.2.1 = cDONE then { r.1 with lastCode := cDONE, lastData := BitVec.ofNat 64 (leNat r.2.2) } else r.1.apertureFails a r.2.1

/-- An access of the debug aperture reaches memory that is not served now (R30, R255). -/
def State.apertureWaits (s : State) (x : LateAccess) : Bool := !s.barsOff && x.on && !s.served x.addr x.size

/-- DEBUG_APERTURE_ACCESS (R30, R444, R470): an access whose target is not served waits, and those behind it too; a write of
`MSC_DBG_WIN` takes effect after those in flight. -/
def opAperture (wr : Bool) (off size : Nat) (v : Word) (s : State) : State :=
  let x : LateAccess := ⟨wr, s.reg RegId.MSC_DBG_WIN.addr, off, size, v⟩
  if !s.host.late.isEmpty || s.apertureWaits x then s.updHost fun h => { h with late := h.late ++ [x] } else s.aperture x

/-- Accesses of the debug aperture that waited are served, in order, as far as their targets are. -/
def State.serveLate (s : State) : Nat → State
  | 0 => s
  | n + 1 =>
    match s.host.late with
    | [] => s
    | e :: rest =>
      if s.apertureWaits e then s else ((s.updHost fun h => { h with late := rest }).aperture e).serveLate n

/-! ### Message requests at bay memory and register space (R60, R63) -/

/-- Register words written by a bay's PUT. The words of one packet are written in ascending order: those after one that is refused still
act, and the code given is that of the first refused (DESIGN CHOICE, log entry 71: the spec speaks of single accesses only). -/
def State.writeRegs (s : State) (b : BayId) (a : Nat) (bs : List Byte) : State × Code :=
  (List.range (bs.length / 8)).foldl (fun r k =>
    let w := r.1.writeReg (.bay b) (a + 8 * k) 8 (wordAt bs k)
    (w.1, if r.2 = cDONE then w.2 else r.2)) (s, cDONE)

/-- Register words read. -/
def State.readRegs (s : State) (a n : Nat) : Code × List Byte :=
  (List.range (n / 8)).foldl (fun r k =>
    let x := s.readReg (a + 8 * k) 8
    (if r.1 = cDONE then x.1 else r.1, r.2 ++ leBytes 8 x.2.toNat)) (cDONE, [])

/-- MESSAGE_PACKET_ARRIVAL (R60, R63): the next packet of a slot reaches the memory of bay `b`, register space, or an address that no
range holds. -/
def opPacketArrival (b src : BayId) (slot : Nat) (s : State) : State :=
  match (s.bay src).slot slot with
  | none => s
  | some x =>
    match x.nextPart with
    | none => s
    | some p =>
      let a := p.range.1
      let here := match regionOf a with
        | .bay => decide ((a - bayMemBase) / 0x100000 = b.toNat)
        | .regs => true
        | .none => true
        | _ => false
      if !here || s.clockOff || x.dev != s.devCoord || x.forColl.isSome || !s.partReady src x p then s
      else
        s.carryPart src slot x p
          (fun s a n =>
            if regionOf a = .regs then
              let r := s.readRegs a n
              (s, r.1, r.2)
            else if sameDie src a n then s.bayRangeRead a n
            else s.devRead 0 a n)
          (fun s a bs =>
            if regionOf a = .regs then s.writeRegs src a bs
            else if sameDie src a bs.length then s.bayRangeWrite a bs
            else s.devWrite 0 a bs)
          (fun s a k v c => if sameDie src a 8 then s.bayAmo a k v c else s.devAmo 0 a k v c)

/-! ### The meanings -/

/-- REGISTER_WRITE (R563). -/
def execRegisterWrite (p : RegPath) (addr : BitVec 48) (size : Nat) (v : Word) (s : State) : Res :=
  .next (s.regWriteBy p addr.toNat size v).settledAll

/-- OPT_FW_CTRL_WRITE (R35). -/
def execOptFwCtrlWrite (p : RegPath) (v : Word) (s : State) : Res := .next (s.write64 p .OPT_FW_CTRL 0 0 v)

/-- OPT_FW_WIN_WRITE (R35). -/
def execOptFwWinWrite (p : RegPath) (e w : Fin 8) (v : Word) (s : State) : Res := .next (s.write64 p .OPT_FW_WIN e.val w.val v)

/-- BAY_GO (R73). -/
def execBayGo (p : RegPath) (b : BayId) (s : State) : Res := .next (opBayTrigger p b (Fld.BAY_CTRL_GO b.toNat) s).settledAll

/-- BAY_STOP (R73). -/
def execBayStop (p : RegPath) (b : BayId) (s : State) : Res := .next (opBayTrigger p b (Fld.BAY_CTRL_STOP b.toNat) s)

/-- SEAM_EN_WRITE (R73). -/
def execSeamEnWrite (p : RegPath) (b : BayId) (en : Bool) (s : State) : Res :=
  .next (s.write64 p .BAY_CTRL b.toNat 0 (packWord [(1, if en then 1 else 0)]))

/-- MESSAGE_PACKET_ARRIVAL (R63). -/
def execMessagePacketArrival (b src : BayId) (slot : BitVec 8) (s : State) : Res :=
  .next (opPacketArrival b src slot.toNat s).settledAll

/-- GROUP_ENTRY_W0_WRITE (R238). -/
def execGroupEntryW0Write (p : RegPath) (g : BitVec 12) (v : Word) (s : State) : Res := .next (s.write64 p .ABR_GRP_W0 g.toNat 0 v)

/-- LLS_SEG_WRITE (R268). -/
def execLlsSegWrite (p : RegPath) (j : Fin 64) (v : Word) (s : State) : Res := .next (s.write64 p .LLS_SEG j.val 0 v)

/-- HBM_BAND_WRITE (R268). -/
def execHbmBandWrite (p : RegPath) (band : Fin 256) (v : Word) (s : State) : Res := .next (s.write64 p .HBM_BAND band.val 0 v)

/-- ABR_LEVEL_WRITE (R317). -/
def execAbrLevelWrite (p : RegPath) (level : Fin 3) (v : Fin 64) (value : Word) (s : State) : Res :=
  .next (s.write64 p .ABR_LEVEL (level.val + 1) v.val value)

/-- CIRCUIT_START (R349). -/
def execCircuitStart (p : RegPath) (v : Word) (s : State) : Res :=
  .next (s.write64 p .OPT_CIRCUIT 0 0 (withBit Fld.OPT_CIRCUIT_START v)).settledAll

/-- SCR_SET_WRITE (R358, R376). -/
def execScrSetWrite (p : RegPath) (size : Nat) (v : Word) (s : State) : Res := .next (s.regWriteBy p RegId.SCR_SET.addr size v).settledAll

/-- SCR_LATCH_GO (R373). -/
def execScrLatchGo (p : RegPath) (v : Word) (s : State) : Res := .next (s.write64 p .SCR_LATCH 0 0 (withBit Fld.SCR_LATCH_GO v))

/-- STEP_ADVANCE (R384). -/
def execStepAdvance (p : RegPath) (v : Word) (s : State) : Res :=
  .next (s.write64 p .LDG_STEP 0 0 (withBit Fld.LDG_STEP_ADV v)).settledAll

/-- DIGEST_START (R389). -/
def execDigestStart (p : RegPath) (v : Word) (s : State) : Res :=
  .next (s.write64 p .LDG_DIGEST_CTRL 0 0 (withBit Fld.LDG_DIGEST_CTRL_START v))

/-- BASTE_FORCE (R412). -/
def execBasteForce (p : RegPath) (v : Word) (s : State) : Res :=
  .next (s.write64 p .LDG_BASTE_CTRL 0 0 (withBit Fld.LDG_BASTE_CTRL_FORCE v))

/-- EPOCH_ARM (R426). -/
def execEpochArm (p : RegPath) (v : Word) (s : State) : Res :=
  .next (s.write64 p .ABR_EPOCH_CTRL 0 0 (withBit Fld.ABR_EPOCH_CTRL_ARM v)).settledAll

/-- SQ_TAIL_DOORBELL (R448). -/
def execSqTailDoorbell (q : Fin 16) (v : Word) (s : State) : Res := .next (s.write64 .bar0 .MSC_SQ_TAIL q.val 0 v)

/-- CQ_HEAD_DOORBELL (R449). -/
def execCqHeadDoorbell (q : Fin 16) (v : Word) (s : State) : Res := .next (s.write64 .bar0 .MSC_CQ_HEAD q.val 0 v)

/-- RING_CONFIG_WRITE (R471). -/
def execRingConfigWrite (off : BitVec 20) (v : Word) (s : State) : Res := .next (s.regWriteBy .bar0 (bar0Base + off.toNat) 8 v)

/-- DEBUG_APERTURE_ACCESS (R444). -/
def execDebugApertureAccess (wr : Bool) (off : BitVec 28) (size : Nat) (v : Word) (s : State) : Res :=
  .next (opAperture wr off.toNat size v s).settledAll

/-- RESUME (R461). -/
def execResume (k : Nat) (s : State) : Res :=
  let t := opResumeLaunches k s
  .next (t.serveLate t.host.late.length).settledAll

/-- RETRAIN_DONE (R256). -/
def execRetrainDone (pc : BitVec 8) (r : TrainResult) (s : State) : Res :=
  let t := opRetrainDone pc r s
  .next (t.serveLate t.host.late.length)

/-- REG_WRITE (R457). -/
def execRegWrite (k : Nat) (s : State) : Res := .next (opRegWrite k s).settledAll

/-- MAILBOX_GO (R479). -/
def execMailboxGo (v : Word) (s : State) : Res := .next (s.write64 .bar0 .MSC_MBX_CTRL 0 0 (withBit Fld.MSC_MBX_CTRL_GO v))

/-- MAILBOX_RESTART (R479). -/
def execMailboxRestart (v : Word) (s : State) : Res := .next (s.write64 .bar0 .MSC_MBX_CTRL 0 0 (withBit Fld.MSC_MBX_CTRL_RESTART v))

/-- MEAS_EXTEND (R496). -/
def execMeasExtend (p : RegPath) (v : Word) (s : State) : Res :=
  .next (s.write64 p .MSC_MEAS_EXT 0 0 (withBit Fld.MSC_MEAS_EXT_GO v))

/-- ACCESS_TABLE_WRITE (R490). -/
def execAccessTableWrite (p : RegPath) (addr : BitVec 48) (v : Word) (s : State) : Res := .next (opTableWrite p addr.toNat v s)

/-- ACCESS_TABLE_LOCK (R492). -/
def execAccessTableLock (p : RegPath) (t : Fin 1116) (v : Word) (s : State) : Res :=
  .next (s.write64 p .MSC_ACC_CTRL t.val 0 (withBit (Fld.MSC_ACC_CTRL_LOCK t.val) v))

/-- DVFS_WRITE (R506). -/
def execDvfsWrite (p : RegPath) (v : Word) (s : State) : Res := .next (s.write64 p .TPC_DVFS 0 0 v)

end Sys2Proof.Machine
end

