-- ==== Sys2Proof/Machine/Dispatch.lean ====
section
/-! DEFINITION. The command of each constructor: one arm, one meaning. -/

namespace Sys2Proof.Machine

def exec (i : Instr) (s : State) : Host.Outcome State Fault Refusal :=
  match i with
  | .registerWrite p addr size v => Sys2Proof.Machine.execRegisterWrite p addr size v s
  | .flitReplay l ok => Sys2Proof.Machine.execFlitReplay l ok s
  | .frameLanding to_ f corr uncorr => Sys2Proof.Machine.execFrameLanding to_ f corr uncorr s
  | .engineRegAccess by_ wr off len data => Sys2Proof.Machine.execEngineRegAccess by_ wr off len data s
  | .engineEvent e ev => Sys2Proof.Machine.execEngineEvent e ev s
  | .optFwCtrlWrite p v => Sys2Proof.Machine.execOptFwCtrlWrite p v s
  | .optFwWinWrite p e w v => Sys2Proof.Machine.execOptFwWinWrite p e w v s
  | .hbm1500Instruction p stack w => Sys2Proof.Machine.execHbm1500Instruction p stack w s
  | .hbmTempRead stack temp => Sys2Proof.Machine.execHbmTempRead stack temp s
  | .bayGo p b => Sys2Proof.Machine.execBayGo p b s
  | .bayStop p b => Sys2Proof.Machine.execBayStop p b s
  | .seamEnWrite p b en => Sys2Proof.Machine.execSeamEnWrite p b en s
  | .threadDrainDone b t => Sys2Proof.Machine.execThreadDrainDone b t s
  | .add b t f => Sys2Proof.Machine.execAdd b t f s
  | .sub b t f => Sys2Proof.Machine.execSub b t f s
  | .and b t f => Sys2Proof.Machine.execAnd b t f s
  | .or b t f => Sys2Proof.Machine.execOr b t f s
  | .xor b t f => Sys2Proof.Machine.execXor b t f s
  | .shl b t f => Sys2Proof.Machine.execShl b t f s
  | .shr b t f => Sys2Proof.Machine.execShr b t f s
  | .sra b t f => Sys2Proof.Machine.execSra b t f s
  | .slt b t f => Sys2Proof.Machine.execSlt b t f s
  | .sltu b t f => Sys2Proof.Machine.execSltu b t f s
  | .seq b t f => Sys2Proof.Machine.execSeq b t f s
  | .min b t f => Sys2Proof.Machine.execMin b t f s
  | .max b t f => Sys2Proof.Machine.execMax b t f s
  | .minu b t f => Sys2Proof.Machine.execMinu b t f s
  | .maxu b t f => Sys2Proof.Machine.execMaxu b t f s
  | .addImm b t f => Sys2Proof.Machine.execAddImm b t f s
  | .subImm b t f => Sys2Proof.Machine.execSubImm b t f s
  | .andImm b t f => Sys2Proof.Machine.execAndImm b t f s
  | .orImm b t f => Sys2Proof.Machine.execOrImm b t f s
  | .xorImm b t f => Sys2Proof.Machine.execXorImm b t f s
  | .shlImm b t f => Sys2Proof.Machine.execShlImm b t f s
  | .shrImm b t f => Sys2Proof.Machine.execShrImm b t f s
  | .sraImm b t f => Sys2Proof.Machine.execSraImm b t f s
  | .sltImm b t f => Sys2Proof.Machine.execSltImm b t f s
  | .sltuImm b t f => Sys2Proof.Machine.execSltuImm b t f s
  | .seqImm b t f => Sys2Proof.Machine.execSeqImm b t f s
  | .minImm b t f => Sys2Proof.Machine.execMinImm b t f s
  | .maxImm b t f => Sys2Proof.Machine.execMaxImm b t f s
  | .minuImm b t f => Sys2Proof.Machine.execMinuImm b t f s
  | .maxuImm b t f => Sys2Proof.Machine.execMaxuImm b t f s
  | .li b t f => Sys2Proof.Machine.execLi b t f s
  | .lih b t f => Sys2Proof.Machine.execLih b t f s
  | .mul b t f => Sys2Proof.Machine.execMul b t f s
  | .mulh b t f => Sys2Proof.Machine.execMulh b t f s
  | .mulhu b t f => Sys2Proof.Machine.execMulhu b t f s
  | .div b t f => Sys2Proof.Machine.execDiv b t f s
  | .divu b t f => Sys2Proof.Machine.execDivu b t f s
  | .rem b t f => Sys2Proof.Machine.execRem b t f s
  | .remu b t f => Sys2Proof.Machine.execRemu b t f s
  | .lb b t f => Sys2Proof.Machine.execLb b t f s
  | .lh b t f => Sys2Proof.Machine.execLh b t f s
  | .lw b t f => Sys2Proof.Machine.execLw b t f s
  | .ld b t f => Sys2Proof.Machine.execLd b t f s
  | .lbu b t f => Sys2Proof.Machine.execLbu b t f s
  | .lhu b t f => Sys2Proof.Machine.execLhu b t f s
  | .lwu b t f => Sys2Proof.Machine.execLwu b t f s
  | .sb b t f => Sys2Proof.Machine.execSb b t f s
  | .sh b t f => Sys2Proof.Machine.execSh b t f s
  | .sw b t f => Sys2Proof.Machine.execSw b t f s
  | .sd b t f => Sys2Proof.Machine.execSd b t f s
  | .beq b t f => Sys2Proof.Machine.execBeq b t f s
  | .bne b t f => Sys2Proof.Machine.execBne b t f s
  | .blt b t f => Sys2Proof.Machine.execBlt b t f s
  | .bge b t f => Sys2Proof.Machine.execBge b t f s
  | .bltu b t f => Sys2Proof.Machine.execBltu b t f s
  | .bgeu b t f => Sys2Proof.Machine.execBgeu b t f s
  | .jal b t f => Sys2Proof.Machine.execJal b t f s
  | .jalr b t f => Sys2Proof.Machine.execJalr b t f s
  | .setvl b t f => Sys2Proof.Machine.execSetvl b t f s
  | .rdsys b t f => Sys2Proof.Machine.execRdsys b t f s
  | .vadd b t f => Sys2Proof.Machine.execVadd b t f s
  | .vsub b t f => Sys2Proof.Machine.execVsub b t f s
  | .vmul b t f => Sys2Proof.Machine.execVmul b t f s
  | .vfma b t f => Sys2Proof.Machine.execVfma b t f s
  | .vmin b t f => Sys2Proof.Machine.execVmin b t f s
  | .vmax b t f => Sys2Proof.Machine.execVmax b t f s
  | .vabs b t f => Sys2Proof.Machine.execVabs b t f s
  | .vneg b t f => Sys2Proof.Machine.execVneg b t f s
  | .vcmp b t f => Sys2Proof.Machine.execVcmp b t f s
  | .viadd b t f => Sys2Proof.Machine.execViadd b t f s
  | .visub b t f => Sys2Proof.Machine.execVisub b t f s
  | .vimul b t f => Sys2Proof.Machine.execVimul b t f s
  | .vand b t f => Sys2Proof.Machine.execVand b t f s
  | .vor b t f => Sys2Proof.Machine.execVor b t f s
  | .vxor b t f => Sys2Proof.Machine.execVxor b t f s
  | .vshl b t f => Sys2Proof.Machine.execVshl b t f s
  | .vshr b t f => Sys2Proof.Machine.execVshr b t f s
  | .exp2 b t f => Sys2Proof.Machine.execExp2 b t f s
  | .log2 b t f => Sys2Proof.Machine.execLog2 b t f s
  | .rcp b t f => Sys2Proof.Machine.execRcp b t f s
  | .rsqrt b t f => Sys2Proof.Machine.execRsqrt b t f s
  | .sin b t f => Sys2Proof.Machine.execSin b t f s
  | .cos b t f => Sys2Proof.Machine.execCos b t f s
  | .sincosP b t f => Sys2Proof.Machine.execSincosP b t f s
  | .vdiv b t f => Sys2Proof.Machine.execVdiv b t f s
  | .vsqrt b t f => Sys2Proof.Machine.execVsqrt b t f s
  | .vcvt b t f => Sys2Proof.Machine.execVcvt b t f s
  | .vld b t f => Sys2Proof.Machine.execVld b t f s
  | .vst b t f => Sys2Proof.Machine.execVst b t f s
  | .vldR b t f => Sys2Proof.Machine.execVldR b t f s
  | .vstR b t f => Sys2Proof.Machine.execVstR b t f s
  | .fold o => Sys2Proof.Machine.execFold o s
  | .unfold b t f => Sys2Proof.Machine.execUnfold b t f s
  | .perm b t f => Sys2Proof.Machine.execPerm b t f s
  | .mand b t f => Sys2Proof.Machine.execMand b t f s
  | .mor b t f => Sys2Proof.Machine.execMor b t f s
  | .mxor b t f => Sys2Proof.Machine.execMxor b t f s
  | .mnot b t f => Sys2Proof.Machine.execMnot b t f s
  | .mpop b t f => Sys2Proof.Machine.execMpop b t f s
  | .redSum b t f => Sys2Proof.Machine.execRedSum b t f s
  | .redMax b t f => Sys2Proof.Machine.execRedMax b t f s
  | .redMin b t f => Sys2Proof.Machine.execRedMin b t f s
  | .redArgmax b t f => Sys2Proof.Machine.execRedArgmax b t f s
  | .redSumx b t f => Sys2Proof.Machine.execRedSumx b t f s
  | .xcvt b t f => Sys2Proof.Machine.execXcvt b t f s
  | .redTopkInit b t f => Sys2Proof.Machine.execRedTopkInit b t f s
  | .redTopk b t f => Sys2Proof.Machine.execRedTopk b t f s
  | .softmaxInit b t f => Sys2Proof.Machine.execSoftmaxInit b t f s
  | .softmaxAcc b t f => Sys2Proof.Machine.execSoftmaxAcc b t f s
  | .softmaxFin b t f => Sys2Proof.Machine.execSoftmaxFin b t f s
  | .softmaxOut b t f => Sys2Proof.Machine.execSoftmaxOut b t f s
  | .vectorStart b q => Sys2Proof.Machine.execVectorStart b q s
  | .mm b t f => Sys2Proof.Machine.execMm b t f s
  | .lds b t f => Sys2Proof.Machine.execLds b t f s
  | .turn b t f => Sys2Proof.Machine.execTurn b t f s
  | .accClr b t f => Sys2Proof.Machine.execAccClr b t f s
  | .accSt b t f => Sys2Proof.Machine.execAccSt b t f s
  | .accLd b t f => Sys2Proof.Machine.execAccLd b t f s
  | .accWin b t f => Sys2Proof.Machine.execAccWin b t f s
  | .pressAccept b => Sys2Proof.Machine.execPressAccept b s
  | .put b t f => Sys2Proof.Machine.execPut b t f s
  | .putF b t f => Sys2Proof.Machine.execPutF b t f s
  | .get b t f => Sys2Proof.Machine.execGet b t f s
  | .amo b t f => Sys2Proof.Machine.execAmo b t f s
  | .fence b t f => Sys2Proof.Machine.execFence b t f s
  | .fenceComplete b t => Sys2Proof.Machine.execFenceComplete b t s
  | .messagePacketArrival b src slot => Sys2Proof.Machine.execMessagePacketArrival b src slot s
  | .messageAckArrival b slot => Sys2Proof.Machine.execMessageAckArrival b slot s
  | .sync b t f => Sys2Proof.Machine.execSync b t f s
  | .syncRelease b t => Sys2Proof.Machine.execSyncRelease b t s
  | .waitFlag b t f => Sys2Proof.Machine.execWaitFlag b t f s
  | .waitFlagReread b t => Sys2Proof.Machine.execWaitFlagReread b t s
  | .waitFlagTimeout b t => Sys2Proof.Machine.execWaitFlagTimeout b t s
  | .waitScribe b t f => Sys2Proof.Machine.execWaitScribe b t f s
  | .waitScribeRelease b t => Sys2Proof.Machine.execWaitScribeRelease b t s
  | .endThread b t f => Sys2Proof.Machine.execEndThread b t f s
  | .spliceMmb b t f => Sys2Proof.Machine.execSpliceMmb b t f s
  | .spliceMmr b t f => Sys2Proof.Machine.execSpliceMmr b t f s
  | .spliceVb b t f => Sys2Proof.Machine.execSpliceVb b t f s
  | .spliceVr b t f => Sys2Proof.Machine.execSpliceVr b t f s
  | .spliceDsp b t f => Sys2Proof.Machine.execSpliceDsp b t f s
  | .spliceCmb b t f => Sys2Proof.Machine.execSpliceCmb b t f s
  | .collectiveJoin b group seq => Sys2Proof.Machine.execCollectiveJoin b group seq s
  | .joinNoticeArrival b group seq rank digest => Sys2Proof.Machine.execJoinNoticeArrival b group seq rank digest s
  | .chunkArrival b rank hdr data => Sys2Proof.Machine.execChunkArrival b rank hdr data s
  | .creditArrival b group seq => Sys2Proof.Machine.execCreditArrival b group seq s
  | .chunkAckArrival b group seq rank idx status => Sys2Proof.Machine.execChunkAckArrival b group seq rank idx status s
  | .abortNoticeArrival b group seq code detector => Sys2Proof.Machine.execAbortNoticeArrival b group seq code detector s
  | .earlyRecordExpiry b group seq => Sys2Proof.Machine.execEarlyRecordExpiry b group seq s
  | .noticeResend k => Sys2Proof.Machine.execNoticeResend k s
  | .slowNoticeSend b group seq rank => Sys2Proof.Machine.execSlowNoticeSend b group seq rank s
  | .slowNoticeArrival b group seq rank => Sys2Proof.Machine.execSlowNoticeArrival b group seq rank s
  | .silenceTimeout b group seq rank => Sys2Proof.Machine.execSilenceTimeout b group seq rank s
  | .tallyNoticeArrival b group seq rank expert => Sys2Proof.Machine.execTallyNoticeArrival b group seq rank expert s
  | .releaseNoticeArrival b group seq rank => Sys2Proof.Machine.execReleaseNoticeArrival b group seq rank s
  | .doneNoticeArrival b group seq rank => Sys2Proof.Machine.execDoneNoticeArrival b group seq rank s
  | .groupEntryW0Write p g v => Sys2Proof.Machine.execGroupEntryW0Write p g v s
  | .groupCheckDone g => Sys2Proof.Machine.execGroupCheckDone g s
  | .hbmRequest src addr op errs => Sys2Proof.Machine.execHbmRequest src addr op errs s
  | .eccWriteback addr => Sys2Proof.Machine.execEccWriteback addr s
  | .patrolScrub addr errs => Sys2Proof.Machine.execPatrolScrub addr errs s
  | .retrainStart pc cause => Sys2Proof.Machine.execRetrainStart pc cause s
  | .retrainDone pc r => Sys2Proof.Machine.execRetrainDone pc r s
  | .foldStart pc => Sys2Proof.Machine.execFoldStart pc s
  | .foldPieceCopy lost => Sys2Proof.Machine.execFoldPieceCopy lost s
  | .llsSegWrite p j v => Sys2Proof.Machine.execLlsSegWrite p j v s
  | .hbmBandWrite p band v => Sys2Proof.Machine.execHbmBandWrite p band v s
  | .llsChangeDone t => Sys2Proof.Machine.execLlsChangeDone t s
  | .packetForward hdr => Sys2Proof.Machine.execPacketForward hdr s
  | .creditReturn port cred => Sys2Proof.Machine.execCreditReturn port cred s
  | .leadPauseExpiry port => Sys2Proof.Machine.execLeadPauseExpiry port s
  | .nakArrival port express lseq => Sys2Proof.Machine.execNakArrival port express lseq s
  | .controlFrameTick port => Sys2Proof.Machine.execControlFrameTick port s
  | .portSilenceTimeout port => Sys2Proof.Machine.execPortSilenceTimeout port s
  | .portUp port peerDev peerPort rttNs => Sys2Proof.Machine.execPortUp port peerDev peerPort rttNs s
  | .portDown port cause => Sys2Proof.Machine.execPortDown port cause s
  | .sequencedPacketArrival p => Sys2Proof.Machine.execSequencedPacketArrival p s
  | .ackArrival p => Sys2Proof.Machine.execAckArrival p s
  | .rtoExpiry dev => Sys2Proof.Machine.execRtoExpiry dev s
  | .pairBreakTimeout dev => Sys2Proof.Machine.execPairBreakTimeout dev s
  | .pairHoldoffExpiry dev => Sys2Proof.Machine.execPairHoldoffExpiry dev s
  | .unreachableNoticeArrival dev => Sys2Proof.Machine.execUnreachableNoticeArrival dev s
  | .getRspArrival p => Sys2Proof.Machine.execGetRspArrival p s
  | .getRetryTimeout ep slot => Sys2Proof.Machine.execGetRetryTimeout ep slot s
  | .amoReqArrival p => Sys2Proof.Machine.execAmoReqArrival p s
  | .amoRspArrival p => Sys2Proof.Machine.execAmoRspArrival p s
  | .amoRelArrival p => Sys2Proof.Machine.execAmoRelArrival p s
  | .amoResendTimeout b slot => Sys2Proof.Machine.execAmoResendTimeout b slot s
  | .atomicRecordExpiry hdr dev b slot => Sys2Proof.Machine.execAtomicRecordExpiry hdr dev b slot s
  | .abrLevelWrite p level v value => Sys2Proof.Machine.execAbrLevelWrite p level v value s
  | .laneDrainMessage port w x => Sys2Proof.Machine.execLaneDrainMessage port w x s
  | .laneDrainedMessage port w y => Sys2Proof.Machine.execLaneDrainedMessage port w y s
  | .laneRungMessage port w r => Sys2Proof.Machine.execLaneRungMessage port w r s
  | .laneJoinMessage port w r z => Sys2Proof.Machine.execLaneJoinMessage port w r z s
  | .snrMeasurement port w snr uncorr => Sys2Proof.Machine.execSnrMeasurement port w snr uncorr s
  | .laneTraining port snrs => Sys2Proof.Machine.execLaneTraining port snrs s
  | .lossOfSignal port => Sys2Proof.Machine.execLossOfSignal port s
  | .laneHold port w => Sys2Proof.Machine.execLaneHold port w s
  | .ringLoopUpdate e ring errMhz tags => Sys2Proof.Machine.execRingLoopUpdate e ring errMhz tags s
  | .ringRelockDone e ring => Sys2Proof.Machine.execRingRelockDone e ring s
  | .wrongLineSweepDone e ring found => Sys2Proof.Machine.execWrongLineSweepDone e ring found s
  | .laserPowerMeasurement e l power => Sys2Proof.Machine.execLaserPowerMeasurement e l power s
  | .patchSwapStep e => Sys2Proof.Machine.execPatchSwapStep e s
  | .expressPatchSwap e => Sys2Proof.Machine.execExpressPatchSwap e s
  | .expressBurst e port => Sys2Proof.Machine.execExpressBurst e port s
  | .circuitStart p v => Sys2Proof.Machine.execCircuitStart p v s
  | .circuitChangeAtMark => Sys2Proof.Machine.execCircuitChangeAtMark s
  | .circuitTimeout => Sys2Proof.Machine.execCircuitTimeout s
  | .refLost c => Sys2Proof.Machine.execRefLost c s
  | .refReturn => Sys2Proof.Machine.execRefReturn s
  | .scribeTick adv => Sys2Proof.Machine.execScribeTick adv s
  | .scrSetWrite p size v => Sys2Proof.Machine.execScrSetWrite p size v s
  | .timeExchangeSend xseq t1 => Sys2Proof.Machine.execTimeExchangeSend xseq t1 s
  | .timeRequestArrival port words t2 t3 => Sys2Proof.Machine.execTimeRequestArrival port words t2 t3 s
  | .timeReplyArrival port words t4 => Sys2Proof.Machine.execTimeReplyArrival port words t4 s
  | .timeReplyTimeout => Sys2Proof.Machine.execTimeReplyTimeout s
  | .degradedTimeout c => Sys2Proof.Machine.execDegradedTimeout c s
  | .degradedClear => Sys2Proof.Machine.execDegradedClear s
  | .launchFire => Sys2Proof.Machine.execLaunchFire s
  | .calendarTick => Sys2Proof.Machine.execCalendarTick s
  | .cellEmpty => Sys2Proof.Machine.execCellEmpty s
  | .scrLatchGo p v => Sys2Proof.Machine.execScrLatchGo p v s
  | .stepAdvance p v => Sys2Proof.Machine.execStepAdvance p v s
  | .digestStart p v => Sys2Proof.Machine.execDigestStart p v s
  | .leafDigestDone => Sys2Proof.Machine.execLeafDigestDone s
  | .plumbStartAtMark partnerDigest => Sys2Proof.Machine.execPlumbStartAtMark partnerDigest s
  | .plumbBatchSend => Sys2Proof.Machine.execPlumbBatchSend s
  | .plumbBatchArrival pairs chunks => Sys2Proof.Machine.execPlumbBatchArrival pairs chunks s
  | .plumbEntryExchange b entries => Sys2Proof.Machine.execPlumbEntryExchange b entries s
  | .plumbUnmatchedTimeout c => Sys2Proof.Machine.execPlumbUnmatchedTimeout c s
  | .plumbStopMarkArrival mark rep => Sys2Proof.Machine.execPlumbStopMarkArrival mark rep s
  | .plumbStopAtMark => Sys2Proof.Machine.execPlumbStopAtMark s
  | .plumbPartnerLost => Sys2Proof.Machine.execPlumbPartnerLost s
  | .basteForce p v => Sys2Proof.Machine.execBasteForce p v s
  | .basteCopyDone => Sys2Proof.Machine.execBasteCopyDone s
  | .basteTrickleLeaf status => Sys2Proof.Machine.execBasteTrickleLeaf status s
  | .bastePartnered status => Sys2Proof.Machine.execBastePartnered status s
  | .riskUpdate => Sys2Proof.Machine.execRiskUpdate s
  | .epochArm p v => Sys2Proof.Machine.execEpochArm p v s
  | .epochChangeAtMark => Sys2Proof.Machine.execEpochChangeAtMark s
  | .leaseExpiry => Sys2Proof.Machine.execLeaseExpiry s
  | .leaseGraceExpiry => Sys2Proof.Machine.execLeaseGraceExpiry s
  | .sqTailDoorbell q v => Sys2Proof.Machine.execSqTailDoorbell q v s
  | .cqHeadDoorbell q v => Sys2Proof.Machine.execCqHeadDoorbell q v s
  | .descriptorFetch q r => Sys2Proof.Machine.execDescriptorFetch q r s
  | .completionRecordWrite q ok => Sys2Proof.Machine.execCompletionRecordWrite q ok s
  | .interruptCoalesceTimeout q => Sys2Proof.Machine.execInterruptCoalesceTimeout q s
  | .ringConfigWrite off v => Sys2Proof.Machine.execRingConfigWrite off v s
  | .debugApertureAccess wr off size v => Sys2Proof.Machine.execDebugApertureAccess wr off size v s
  | .functionLevelReset k => Sys2Proof.Machine.execFunctionLevelReset k s
  | .nop k => Sys2Proof.Machine.execNop k s
  | .write k => Sys2Proof.Machine.execWrite k s
  | .read k => Sys2Proof.Machine.execRead k s
  | .copy k => Sys2Proof.Machine.execCopy k s
  | .fill k => Sys2Proof.Machine.execFill k s
  | .regWrite k => Sys2Proof.Machine.execRegWrite k s
  | .xfer k => Sys2Proof.Machine.execXfer k s
  | .jobLoad k => Sys2Proof.Machine.execJobLoad k s
  | .jobStart k mask => Sys2Proof.Machine.execJobStart k mask s
  | .jobEnd => Sys2Proof.Machine.execJobEnd s
  | .jobStop k => Sys2Proof.Machine.execJobStop k s
  | .hold k => Sys2Proof.Machine.execHold k s
  | .resume k => Sys2Proof.Machine.execResume k s
  | .baste k => Sys2Proof.Machine.execBaste k s
  | .hem k => Sys2Proof.Machine.execHem k s
  | .hemDone status => Sys2Proof.Machine.execHemDone status s
  | .restore k values more => Sys2Proof.Machine.execRestore k values more s
  | .digest k => Sys2Proof.Machine.execDigest k s
  | .record k => Sys2Proof.Machine.execRecord k s
  | .scrub k => Sys2Proof.Machine.execScrub k s
  | .retrain k => Sys2Proof.Machine.execRetrain k s
  | .circuit k => Sys2Proof.Machine.execCircuit k s
  | .bootRom flashError => Sys2Proof.Machine.execBootRom flashError s
  | .fuseBlow => Sys2Proof.Machine.execFuseBlow s
  | .mailboxGo v => Sys2Proof.Machine.execMailboxGo v s
  | .mailboxRestart v => Sys2Proof.Machine.execMailboxRestart v s
  | .firmwareWriteDone => Sys2Proof.Machine.execFirmwareWriteDone s
  | .measExtend p v => Sys2Proof.Machine.execMeasExtend p v s
  | .accessTableWrite p addr v => Sys2Proof.Machine.execAccessTableWrite p addr v s
  | .accessTableLock p t v => Sys2Proof.Machine.execAccessTableLock p t v s
  | .sensorRead x r => Sys2Proof.Machine.execSensorRead x r s
  | .tpcUpdate => Sys2Proof.Machine.execTpcUpdate s
  | .powerSample mv watts => Sys2Proof.Machine.execPowerSample mv watts s
  | .thermalShutdown c inst temp => Sys2Proof.Machine.execThermalShutdown c inst temp s
  | .leakDetect => Sys2Proof.Machine.execLeakDetect s
  | .dvfsWrite p v => Sys2Proof.Machine.execDvfsWrite p v s
  | .dvfsChangeDone die => Sys2Proof.Machine.execDvfsChangeDone die s
  | .patrolSample r => Sys2Proof.Machine.execPatrolSample r s
  | .patrolWake c failStep samples refOk => Sys2Proof.Machine.execPatrolWake c failStep samples refOk s
  | .patrolEntryStep => Sys2Proof.Machine.execPatrolEntryStep s
  | .patrolEntryAbandon c => Sys2Proof.Machine.execPatrolEntryAbandon c s
  | .replanDue m => Sys2Proof.Machine.execReplanDue m s
  | .maxPointApply die => Sys2Proof.Machine.execMaxPointApply die s
  | .mgmtRequest frame => Sys2Proof.Machine.execMgmtRequest frame s
  | .mgmtReplyRead => Sys2Proof.Machine.execMgmtReplyRead s
  | .busClockTimeout => Sys2Proof.Machine.execBusClockTimeout s
  | .frameIncompleteTimeout => Sys2Proof.Machine.execFrameIncompleteTimeout s
  | .entdaa addr => Sys2Proof.Machine.execEntdaa addr s
  | .setdasa static addr => Sys2Proof.Machine.execSetdasa static addr s
  | .setnewda addr => Sys2Proof.Machine.execSetnewda addr s
  | .rstdaa => Sys2Proof.Machine.execRstdaa s
  | .enec => Sys2Proof.Machine.execEnec s
  | .disec => Sys2Proof.Machine.execDisec s
  | .getpid => Sys2Proof.Machine.execGetpid s
  | .getbcr => Sys2Proof.Machine.execGetbcr s
  | .getdcr => Sys2Proof.Machine.execGetdcr s
  | .getstatus => Sys2Proof.Machine.execGetstatus s
  | .getmwl => Sys2Proof.Machine.execGetmwl s
  | .getmrl => Sys2Proof.Machine.execGetmrl s
  | .status => Sys2Proof.Machine.execStatus s
  | .events => Sys2Proof.Machine.execEvents s
  | .sensors => Sys2Proof.Machine.execSensors s
  | .lease => Sys2Proof.Machine.execLease s
  | .renew => Sys2Proof.Machine.execRenew s
  | .expel => Sys2Proof.Machine.execExpel s
  | .quarantine => Sys2Proof.Machine.execQuarantine s
  | .release => Sys2Proof.Machine.execRelease s
  | .nbr => Sys2Proof.Machine.execNbr s
  | .off => Sys2Proof.Machine.execOff s
  | .patrol => Sys2Proof.Machine.execPatrol s
  | .patrolSet => Sys2Proof.Machine.execPatrolSet s
  | .powerCap => Sys2Proof.Machine.execPowerCap s
  | .replan m => Sys2Proof.Machine.execReplan m s
  | .calSet => Sys2Proof.Machine.execCalSet s
  | .alarmSet => Sys2Proof.Machine.execAlarmSet s
  | .fwWrite => Sys2Proof.Machine.execFwWrite s
  | .quote => Sys2Proof.Machine.execQuote s
  | .certRead => Sys2Proof.Machine.execCertRead s
  | .challenge => Sys2Proof.Machine.execChallenge s
  | .permit => Sys2Proof.Machine.execPermit s
  | .bench => Sys2Proof.Machine.execBench s
  | .benchCheck => Sys2Proof.Machine.execBenchCheck s
  | .powerOn ev samples refOk => Sys2Proof.Machine.execPowerOn ev samples refOk s
  | .resetAssert ns => Sys2Proof.Machine.execResetAssert ns s
  | .inputLoss => Sys2Proof.Machine.execInputLoss s
  | .auxInputLoss => Sys2Proof.Machine.execAuxInputLoss s
  | .latchClear c => Sys2Proof.Machine.execLatchClear c s
  | .perstAssert => Sys2Proof.Machine.execPerstAssert s
  | .reservedEncoding b t w => Sys2Proof.Machine.execReservedEncoding b t w s
  | .hostReadCompletion k r => Sys2Proof.Machine.execHostReadCompletion k r s
  | .hostCompletionTimeout k => Sys2Proof.Machine.execHostCompletionTimeout k s
  | .fwWriteIdleTimeout => Sys2Proof.Machine.execFwWriteIdleTimeout s
  | .auxInputReturn mv => Sys2Proof.Machine.execAuxInputReturn mv s
  | .selfRefreshEntry stack => Sys2Proof.Machine.execSelfRefreshEntry stack s
  | .bankRefresh pc bank => Sys2Proof.Machine.execBankRefresh pc bank s
  | .hemStore status => Sys2Proof.Machine.execHemStore status s

end Sys2Proof.Machine
end

