-- ==== Sys2Proof/Safety.lean ====
section
/-! DEFINITION. The terms that the statements use: the invariant of a safe run, frames, and the conditions under which a bay
instruction issues, each in the spec's own words. -/

namespace Sys2Proof

open Machine

/-- The canonical form of the sparse maps that hold memory, the host's memory and the registers: addresses strictly rising, no entry
at the value an unlisted address reads as. -/
def Safety.canonical (s : State) : Prop :=
  smapWf memDefault s.mem = true ∧ smapWf memDefault s.host.mem = true ∧ smapWf regDefault s.regs = true

/-- The device state is one of the ten of `MSC_STATE.STATE` (R468). -/
def Safety.legalState (s : State) : Prop := s.devState ≤ 9

/-- A step answers a next state: the block never stops. -/
def Safety.runs (s : State) : Prop := ∃ t, Machine.step s = .next t

/-! ### Frames -/

/-- Every register keeps its value but those at the addresses listed. -/
def Safety.keepsRegs (s t : State) (l : List Nat) : Prop := ∀ a, a ∉ l → t.reg a = s.reg a

/-- Nothing but registers differs, and of the registers only those at the addresses listed. -/
def Safety.onlyRegs (s t : State) (l : List Nat) : Prop := t = { s with regs := t.regs } ∧ Safety.keepsRegs s t l

/-- Every byte of device memory keeps its value but the `n` from address `a`. -/
def Safety.keepsMem (s t : State) (a n : Nat) : Prop := ∀ x, x < a ∨ a + n ≤ x → t.memByte x = s.memByte x

/-- Every bay keeps its state but `b`. -/
def Safety.keepsBays (s t : State) (b : BayId) : Prop := ∀ c, c ≠ b → t.bay c = s.bay c

/-! ### Issue of a bay instruction -/

/-- The state after the fetch of a thread's next instruction word, with its single-bit errors corrected and counted (R55). -/
def Safety.fetched (s : State) (b : BayId) (t : Thread) : State := (s.fetchLine b t).1

/-- A thread is ready to issue an instruction: its clock runs and no baste pauses it (R19, R76, R415), it is in RUN and waits for
nothing, its word is readable (R67), the fields follow the instruction's row (R177), the registers named belong to the thread
(R44), no AMO that it depends on has failed (R63), none of its g registers is pending (R48), and its unit has room (R45, R58). -/
def Safety.ready (s : State) (b : BayId) (t : Thread) (i : BayInstr) : Prop :=
  s.gated = false ∧ (s.thr b t).status.st = .run ∧ (s.thr b t).waitFor = .none
    ∧ (s.fetchLine b t).2 = false
    ∧ i.fieldsOk = true ∧ i.owned (s.seamEn b) t = true
    ∧ (∀ p ∈ (s.thr b t).pend, i.amoGate p = false ∧ (p.reg ∈ i.gregs → p.reg = 0))
    ∧ (s.bay b).full t i = false

/-- The instruction does not lie at the last offset of bay memory, where it would be RANGE (R181). -/
def Safety.notLast (s : State) (b : BayId) (t : Thread) : Prop := (s.thr b t).pc ≠ lastPc

/-- The operands of a V-format instruction pass the checks of its row: the last offset (R181), the names of masks (R149), VL within
the element count of every width (R148), whole blocks of a scaled conversion (R152), the addresses of a load or store (R153,
R155) and the indices of a top-k pass (R163). -/
def Safety.vecOperands (r : ThreadRec) (c : VCode) (f : VFields) : Prop :=
  r.pc ≠ lastPc ∧ c.maskNamesOk f = true ∧ (∀ w ∈ c.widths f, r.vl.toNat ≤ vCap w) ∧
  match c with
  | .vcvt => (vcvtSrcScaled f || vcvtTgtScaled f) = true → r.vl.toNat % 32 = 0
  | .vld | .vst => (vmemOf f (r.getG f.gx) (r.getG f.gy)).check r.vl.toNat = Check.none
  | .vldR | .vstR => (r.getG f.gx).toNat % 64 = 0 ∧ (r.getG f.gx).toNat + 256 ≤ 0x100000
  | .redTopk => r.vl = 0 ∨ fieldOf (r.getG f.gx) 0 32 + r.vl.toNat ≤ 0xFFFFFFFF
  | _ => True

/-- The vector queue of a thread (R45). -/
def Safety.vecQueue (y : Bay) : Thread → List VecEntry
  | .main => y.mainVq
  | .seam => y.seamVq

/-- A thread after it issued an engine instruction: the next QSEQ, the next offset, and its g destination marked pending (R48,
R64). -/
def Safety.issued (r : ThreadRec) (g : Option (BitVec 5)) : ThreadRec :=
  { r with
    pc := r.pc + 8
    qseq := r.qseq + 1
    pend := r.pend ++ (match g with
      | some i => if i = 0 then [] else [⟨i, r.qseq, false, r.pc, none⟩]
      | none => []) }

/-- Every request that has ended is handed to its requester, every broken pair is made known and no failure waits beyond the sixteenth
fold: nothing waits inside the device, as between any two commands (R60, R227, R258, R294). -/
def Safety.handedOver (s : State) : Prop :=
  s.fab.ended = [] ∧ s.fab.lost = [] ∧ (s.getF Fld.HBM_CAP_FOLDS = 16 → s.hbm.waiting = [])

/-- A path's write of a whole register reaches the register's own rules: it is no hole of the level table (R313), the path
may write the register (R35, R489), the access tables allow it (R488), and BAR0 answers (R446, R463). -/
def Safety.reaches (s : State) (p : RegPath) (r : RegId) (i j : Nat) (v : Word) : Prop :=
  (r == .ABR_LEVEL && levelHole i j) = false ∧ pathMay p r (r.addr i j) v = true
    ∧ (s.checkAccess (s.pathMaster p) s.devCoord (writePerm r i v) (r.addr i j) 8).2 = true
    ∧ (p = .bar0 → s.barsOff = false ∧ (s.devState ≠ stRECOVERY ∨ r.addr i j < bar0Base ∨ bar0End ≤ r.addr i j
        ∨ inRecovery (r.addr i j) = true))

/-- The registers that issue and a precise fault can change: the bay's ECC counters (R78) and the open step (R383, R384). -/
def Safety.issueRegs (b : BayId) : List Nat := [RegId.BAY_MEM_ECC.addr b.toNat, RegId.LDG_STEP_STATUS.addr]

/-! ### The management port -/

/-- A request of a command is held, with its tag and payload, and the state accepts it (R532, R533). -/
def Safety.requested (s : State) (cmd : Nat) (tag : Byte) (p : List Byte) : Prop :=
  s.mgmt.req = some (cmd, tag, p) ∧ s.accepts cmd = some true

/-- The request has its final reply (R531). -/
def Safety.replied (s : State) (cmd : Nat) (tag : Byte) (code : Code) (p : List Byte) : Prop :=
  s.mgmt.req = none ∧ s.mgmt.reply = some ⟨tag, cmd, code, false, p⟩

/-! ### Host commands -/

/-- The fetched command `k` of an opcode passes the state checks of its start: no job has just ended, its state accepts the opcode,
and no entry into PATROL is in progress (R453, R465, R513). -/
def Safety.starts (s : State) (k op : Nat) (c : HostCmd) : Prop :=
  s.cmd k = some c ∧ c.op = op ∧ c.stage = .fetched ∧ s.endJob = s ∧ opStates op s.cmdState = true ∧ s.getF Fld.TPC_POWER_ENTRY = 0

/-- A command has ended: it is held no longer, and its final record with the code waits for the ring's completion ring, unless
NO_COMP and DONE (R452, R454). -/
def Safety.recorded (s t : State) (c : HostCmd) (code : Code) : Prop :=
  t.cmd c.k = none ∧ (c.sq < 16 → (c.flags.testBit 2 = false ∨ code ≠ cDONE) →
    ∃ r, t.waitingOf (s.getF (Fld.MSC_SQ_CFG_CQ c.sq)) = s.waitingOf (s.getF (Fld.MSC_SQ_CFG_CQ c.sq)) ++ [r]
      ∧ r.cid = c.cid ∧ r.op = c.op ∧ r.code = code ∧ r.sq = c.sq)

end Sys2Proof
end

