-- ==== Sys2Proof/Certificates/Slice0/Obligations.lean ====
section
/-! DEFINITION. The statements about the model, for its provers. A clause says under which conditions on the state and the operands
alone a command has its own effect, and what that effect is. -/

open Sys2Proof Sys2Proof.Machine

/-- A step of a state whose queue has `c` in front is `exec c` on the state with the rest of the queue; on an empty queue a step
changes nothing, which is the model's choice (log entry 3). -/
def Obligations.StepRunsTheFrontCommand : Prop :=
  (∀ (c : Instr) (cs : List Instr) (s : State),
      Machine.step { s with pending := c :: cs } = Machine.exec c { s with pending := cs })
  ∧ ∀ s : State, s.pending = [] → Machine.step s = .next s

/-- Every command has a next state in every state, and so has every step. -/
def Obligations.EveryCommandAnswersANextState : Prop :=
  (∀ (c : Instr) (s : State), ∃ t, Machine.exec c s = .next t) ∧ ∀ s : State, Safety.runs s

/-- The canonical form of the maps is an invariant of every step. -/
def Obligations.StepsKeepTheMapsCanonical : Prop :=
  ∀ s t : State, Safety.canonical s → Machine.step s = .next t → Safety.canonical t

/-- What reset leaves: canonical maps, a legal device state, no command waiting, epoch 0 and idle threads. -/
def Obligations.ResetIsSafe : Prop :=
  Safety.canonical State.reset ∧ Safety.legalState State.reset ∧ State.reset.pending = []
    ∧ State.reset.getF Fld.ABR_EPOCH_CURRENT = 0
    ∧ ∀ b t, (State.reset.thr b t).status.st = .idle ∧ (State.reset.thr b t).pc = 0

/-- GD ← GA op GB, by the rows of R184. -/
def Obligations.ScalarRegisterResults : Prop :=
  ∀ p ∈ [(SCode.add, Instr.add, fun a b : Word => a + b), (.sub, Instr.sub, fun a b => a - b), (.and, Instr.and, fun a b => a &&& b),
      (.or, Instr.or, fun a b => a ||| b), (.xor, Instr.xor, fun a b => a ^^^ b), (.shl, Instr.shl, fun a b => a <<< (b.toNat % 64)),
      (.shr, Instr.shr, fun a b => a >>> (b.toNat % 64)), (.sra, Instr.sra, fun a b => a.sshiftRight (b.toNat % 64)),
      (.slt, Instr.slt, fun a b => if a.slt b then 1 else 0), (.sltu, Instr.sltu, fun a b => if a.ult b then 1 else 0),
      (.seq, Instr.seq, fun a b => if a = b then 1 else 0), (.min, Instr.min, fun a b => if a.slt b then a else b),
      (.max, Instr.max, fun a b => if a.slt b then b else a), (.minu, Instr.minu, fun a b => if a.ult b then a else b),
      (.maxu, Instr.maxu, fun a b => if a.ult b then b else a), (.mul, Instr.mul, fun a b => a * b),
      (.mulh, Instr.mulh, fun a b => ((a.signExtend 128) * (b.signExtend 128)).extractLsb' 64 64),
      (.mulhu, Instr.mulhu, fun a b => ((a.setWidth 128) * (b.setWidth 128)).extractLsb' 64 64)],
    ∀ (b : BayId) (t : Thread) (f : SFields) (s : State), Safety.ready s b t (.s p.1 f) → Safety.notLast s b t →
      Machine.exec (p.2.1 b t f) s = .next ((Safety.fetched s b t).updThr b t fun r =>
        { r.setG f.gd (p.2.2 ((s.thr b t).getG f.ga) ((s.thr b t).getG f.gb)) with pc := (s.thr b t).pc + 8 })

/-- Quotient and remainder of R47. -/
def Obligations.ScalarDivision : Prop :=
  ∀ p ∈ [(SCode.div, Instr.div, true, true), (.rem, Instr.rem, true, false), (.divu, Instr.divu, false, true),
      (.remu, Instr.remu, false, false)],
    ∀ (b : BayId) (t : Thread) (f : SFields) (s : State), Safety.ready s b t (.s p.1 f) → Safety.notLast s b t →
      ∃ v : Word,
        Machine.exec (p.2.1 b t f) s = .next ((Safety.fetched s b t).updThr b t fun r =>
          { r.setG f.gd v with pc := (s.thr b t).pc + 8 })
        ∧ ∀ x y : Word, x = (s.thr b t).getG f.ga → y = (s.thr b t).getG f.gb →
          (y = 0 → v = if p.2.2.2 then BitVec.allOnes 64 else x)
          ∧ (p.2.2.1 = true → x = BitVec.intMin 64 → y = -1 → v = if p.2.2.2 then BitVec.intMin 64 else 0)
          ∧ (p.2.2.1 = true → y ≠ 0 → ¬(x = BitVec.intMin 64 ∧ y = -1) →
              v.toInt = if p.2.2.2 then x.toInt.tdiv y.toInt else x.toInt.tmod y.toInt)
          ∧ (p.2.2.1 = false → y ≠ 0 → v.toNat = if p.2.2.2 then x.toNat / y.toNat else x.toNat % y.toNat)

/-- GD ← GA op sext(IMM), and the other rows of R184 that read an immediate. -/
def Obligations.ScalarImmediateResults : Prop :=
  (∀ p ∈ [(SCode.addImm, Instr.addImm, fun a b : Word => a + b), (.subImm, Instr.subImm, fun a b => a - b),
      (.andImm, Instr.andImm, fun a b => a &&& b), (.orImm, Instr.orImm, fun a b => a ||| b),
      (.xorImm, Instr.xorImm, fun a b => a ^^^ b), (.shlImm, Instr.shlImm, fun a b => a <<< (b.toNat % 64)),
      (.shrImm, Instr.shrImm, fun a b => a >>> (b.toNat % 64)), (.sraImm, Instr.sraImm, fun a b => a.sshiftRight (b.toNat % 64)),
      (.sltImm, Instr.sltImm, fun a b => if a.slt b then 1 else 0), (.sltuImm, Instr.sltuImm, fun a b => if a.ult b then 1 else 0),
      (.seqImm, Instr.seqImm, fun a b => if a = b then 1 else 0), (.minImm, Instr.minImm, fun a b => if a.slt b then a else b),
      (.maxImm, Instr.maxImm, fun a b => if a.slt b then b else a), (.minuImm, Instr.minuImm, fun a b => if a.ult b then a else b),
      (.maxuImm, Instr.maxuImm, fun a b => if a.ult b then b else a), (.li, Instr.li, fun _ b => b),
      (.lih, Instr.lih, fun a b => b.extractLsb' 0 32 ++ a.extractLsb' 0 32)],
    ∀ (b : BayId) (t : Thread) (f : SFields) (s : State), Safety.ready s b t (.s p.1 f) → Safety.notLast s b t →
      Machine.exec (p.2.1 b t f) s = .next ((Safety.fetched s b t).updThr b t fun r =>
        { r.setG f.gd (p.2.2 ((s.thr b t).getG f.ga) (f.imm.signExtend 64)) with pc := (s.thr b t).pc + 8 }))
  ∧ (∀ (b : BayId) (t : Thread) (f : SFields) (s : State) (w : Nat), Safety.ready s b t (.s .setvl f) → Safety.notLast s b t →
      (f.imm, w) ∈ [(0, 8), (1, 16), (2, 32), (3, 64)] →
      Machine.exec (.setvl b t f) s = .next ((Safety.fetched s b t).updThr b t fun r =>
        { r.setG f.gd (BitVec.ofNat 64 (min (2048 / w) ((s.thr b t).getG f.ga).toNat)) with
          pc := (s.thr b t).pc + 8
          vl := BitVec.ofNat 9 (min (2048 / w) ((s.thr b t).getG f.ga).toNat) }))
  ∧ (∀ (b : BayId) (t : Thread) (f : SFields) (s : State), Safety.ready s b t (.s .rdsys f) → Safety.notLast s b t →
      ∃ (v : Word) (n : Nat) (c : Machine.Scribe),
        Machine.exec (.rdsys b t f) s = .next ({ Safety.fetched s b t with fresh := s.fresh + n, scr := c }.updThr b t fun r =>
          { r.setG f.gd v with pc := (s.thr b t).pc + 8 })
        ∧ (f.imm ≠ 3 → n = 0 ∧ c = s.scr)
        ∧ (f.imm = 0 → v = b.setWidth 64) ∧ (f.imm = 1 → v = if t = .seam then 1 else 0)
        ∧ (f.imm = 2 → v = s.devCoord.setWidth 64)
        ∧ (f.imm = 3 → c = { s.scr with copies := c.copies } ∧ v.toNat ≤ s.now ∧ s.now ≤ v.toNat + s.bayLagMax b
            ∧ smapGet (fun _ => 0) c.copies b.toNat = v.toNat
            ∧ min s.now (smapGet (fun _ => 0) s.scr.copies b.toNat) ≤ v.toNat)
        ∧ (f.imm = 4 → v = (s.thr b t).vl.setWidth 64))

/-- GD ← the bytes at GA + sext(IMM). -/
def Obligations.ScalarLoads : Prop :=
  ∀ p ∈ [(SCode.lb, Instr.lb, 1, true), (.lh, Instr.lh, 2, true), (.lw, Instr.lw, 4, true), (.ld, Instr.ld, 8, true),
      (.lbu, Instr.lbu, 1, false), (.lhu, Instr.lhu, 2, false), (.lwu, Instr.lwu, 4, false)],
    ∀ (b : BayId) (t : Thread) (f : SFields) (s : State) (a : Nat), Safety.ready s b t (.s p.1 f) → Safety.notLast s b t →
      a = ((s.thr b t).getG f.ga + f.imm.signExtend 64).toNat → a % p.2.2.1 = 0 → a + p.2.2.1 ≤ 0x100000 →
      ((Safety.fetched s b t).eccRead b a p.2.2.1).2 = false →
      Machine.exec (p.2.1 b t f) s = .next (((Safety.fetched s b t).eccRead b a p.2.2.1).1.updThr b t fun r =>
        { r.setG f.gd (if p.2.2.2 then (BitVec.ofNat (8 * p.2.2.1) (leNat (s.bayBytes b a p.2.2.1))).signExtend 64
            else (BitVec.ofNat (8 * p.2.2.1) (leNat (s.bayBytes b a p.2.2.1))).setWidth 64) with pc := (s.thr b t).pc + 8 })

/-- The bytes at GA + sext(IMM) ← the low bytes of GB, and no other byte. -/
def Obligations.ScalarStores : Prop :=
  ∀ p ∈ [(SCode.sb, Instr.sb, 1), (.sh, Instr.sh, 2), (.sw, Instr.sw, 4), (.sd, Instr.sd, 8)],
    ∀ (b : BayId) (t : Thread) (f : SFields) (s : State) (a : Nat), Safety.ready s b t (.s p.1 f) → Safety.notLast s b t →
      a = ((s.thr b t).getG f.ga + f.imm.signExtend 64).toNat → a % p.2.2 = 0 → a + p.2.2 ≤ 0x100000 →
      ((Safety.fetched s b t).bayWrite b a (leBytes p.2.2 ((s.thr b t).getG f.gb).toNat)).2 = false →
      ∃ s', Machine.exec (p.2.1 b t f) s = .next s'
        ∧ (∀ i, i < p.2.2 → s'.memByte (bayAddr b a + i) = ((s.thr b t).getG f.gb).extractLsb' (8 * i) 8)
        ∧ Safety.keepsMem s s' (bayAddr b a) p.2.2
        ∧ s'.bay b = (s.bay b).setThr t { (Safety.fetched s b t).thr b t with pc := (s.thr b t).pc + 8 }
        ∧ (Safety.fetched s b t).thr b t = { s.thr b t with line := ((Safety.fetched s b t).thr b t).line }
        ∧ Safety.keepsBays s s' b ∧ Safety.keepsRegs s s' (Safety.issueRegs b)

/-- The program counter after a branch or a jump, and the discarded buffer of R49. -/
def Obligations.BranchesAndJumps : Prop :=
  (∀ p ∈ [(SCode.beq, Instr.beq, fun a b : Word => a == b), (.bne, Instr.bne, fun a b => a != b), (.blt, Instr.blt, fun a b => a.slt b),
      (.bge, Instr.bge, fun a b => b.sle a), (.bltu, Instr.bltu, fun a b => a.ult b), (.bgeu, Instr.bgeu, fun a b => b.ule a)],
    ∀ (b : BayId) (t : Thread) (f : SFields) (s : State), Safety.ready s b t (.s p.1 f) →
      (p.2.2 ((s.thr b t).getG f.ga) ((s.thr b t).getG f.gb) = true →
        ∀ x : Nat, (x : Int) = (s.thr b t).pc.toNat + f.imm.toInt * 8 → x ≤ 0xFFFF8 →
        Machine.exec (p.2.1 b t f) s = .next ((Safety.fetched s b t).updThr b t fun r =>
          { r with pc := BitVec.ofNat 20 x, line := none }))
      ∧ (p.2.2 ((s.thr b t).getG f.ga) ((s.thr b t).getG f.gb) = false → Safety.notLast s b t →
        Machine.exec (p.2.1 b t f) s = .next ((Safety.fetched s b t).updThr b t fun r => { r with pc := (s.thr b t).pc + 8 })))
  ∧ (∀ (b : BayId) (t : Thread) (f : SFields) (s : State) (x : Nat), Safety.ready s b t (.s .jal f) →
      (x : Int) = (s.thr b t).pc.toNat + f.imm.toInt * 8 → x ≤ 0xFFFF8 →
      Machine.exec (.jal b t f) s = .next ((Safety.fetched s b t).updThr b t fun r =>
        { r.setG f.gd (BitVec.ofNat 64 ((s.thr b t).pc.toNat + 8)) with pc := BitVec.ofNat 20 x, line := none }))
  ∧ (∀ (b : BayId) (t : Thread) (f : SFields) (s : State) (x : Nat), Safety.ready s b t (.s .jalr f) →
      x = ((s.thr b t).getG f.ga + f.imm.signExtend 64).toNat → x % 8 = 0 → x ≤ 0xFFFF8 →
      Machine.exec (.jalr b t f) s = .next ((Safety.fetched s b t).updThr b t fun r =>
        { r.setG f.gd (BitVec.ofNat 64 ((s.thr b t).pc.toNat + 8)) with pc := BitVec.ofNat 20 x, line := none }))

/-- The frame of the scalar instructions that neither load nor store. -/
def Obligations.ScalarRegisterFrame : Prop :=
  ∀ c ∈ [Instr.add, .sub, .and, .or, .xor, .shl, .shr, .sra, .slt, .sltu, .seq, .min, .max, .minu, .maxu, .addImm, .subImm, .andImm,
      .orImm, .xorImm, .shlImm, .shrImm, .sraImm, .sltImm, .sltuImm, .seqImm, .minImm, .maxImm, .minuImm, .maxuImm, .li, .lih, .mul,
      .mulh, .mulhu, .div, .divu, .rem, .remu, .beq, .bne, .blt, .bge, .bltu, .bgeu, .jal, .jalr, .setvl, .rdsys],
    ∀ (b : BayId) (t : Thread) (f : SFields) (s s' : State), Machine.exec (c b t f) s = .next s' →
      s'.mem = s.mem ∧ Safety.keepsBays s s' b ∧ s'.bay b = (s.bay b).setThr t (s'.thr b t)
        ∧ Safety.keepsRegs s s' (Safety.issueRegs b)
        ∧ ∀ i, i ≠ f.gd → (s'.thr b t).getG i = (s.thr b t).getG i

/-- The address checks of R185 and the precise fault that they raise. -/
def Obligations.LoadAndStoreAddressChecks : Prop :=
  ∀ p ∈ [(SCode.lb, Instr.lb, 1, 0x100000), (.lh, Instr.lh, 2, 0x100000), (.lw, Instr.lw, 4, 0x100000), (.ld, Instr.ld, 8, 0x100000),
      (.lbu, Instr.lbu, 1, 0x100000), (.lhu, Instr.lhu, 2, 0x100000), (.lwu, Instr.lwu, 4, 0x100000), (.sb, Instr.sb, 1, 0x100000),
      (.sh, Instr.sh, 2, 0x100000), (.sw, Instr.sw, 4, 0x100000), (.sd, Instr.sd, 8, 0x100000), (.jalr, Instr.jalr, 8, 0x100000)],
    ∀ (b : BayId) (t : Thread) (f : SFields) (s : State) (a : Nat) (cause : Code), Safety.ready s b t (.s p.1 f) →
      (s.thr b t).stop = none → a = ((s.thr b t).getG f.ga + f.imm.signExtend 64).toNat →
      (a % p.2.2.1 ≠ 0 ∧ cause = cMALFORMED ∨ a % p.2.2.1 = 0 ∧ p.2.2.2 < a + p.2.2.1 ∧ cause = cRANGE) →
      ∃ s', Machine.exec (p.2.1 b t f) s = .next s'
        ∧ (s'.thr b t).status = { (s.thr b t).status with
            faultPc := (s.thr b t).pc, cause := cause, source := 1, qseq := 0, flag := 0, pendG := 0, st := .drain }
        ∧ (s'.thr b t).g = (s.thr b t).g ∧ (s'.thr b t).pc = (s.thr b t).pc ∧ s'.mem = s.mem ∧ Safety.keepsBays s s' b

/-- RESERVED_ENCODING faults with MALFORMED. -/
def Obligations.ReservedEncodingFaults : Prop :=
  (∀ (b : BayId) (t : Thread) (w : Word) (s : State), isReserved w = true → s.gated = false → (s.thr b t).status.st = .run →
      (s.thr b t).waitFor = .none → (s.fetchLine b t).2 = false → (s.thr b t).stop = none →
      ∃ s', Machine.exec (.reservedEncoding b t w) s = .next s'
        ∧ (s'.thr b t).status = { (s.thr b t).status with
            faultPc := (s.thr b t).pc, cause := cMALFORMED, source := 1, qseq := 0, flag := 0, pendG := 0, st := .drain }
        ∧ s'.mem = s.mem ∧ Safety.keepsBays s s' b ∧ Safety.keepsRegs s s' (Safety.issueRegs b))
  ∧ ∀ i : BayInstr, i.fieldsOk = true → isReserved (encodeBay i) = false

/-- decode ∘ encode and encode ∘ decode are identities. -/
def Obligations.InstructionWordsRoundTrip : Prop :=
  (∀ i : BayInstr, decodeBay (encodeBay i) = some i) ∧ ∀ (w : Word) (i : BayInstr), decodeBay w = some i → encodeBay i = w

/-- Issue of the V-format instructions of R189 into the queue of their thread. -/
def Obligations.VectorInstructionsIssue : Prop :=
  ∀ p ∈ [(VCode.vadd, Instr.vadd), (.vsub, .vsub), (.vmul, .vmul), (.vfma, .vfma), (.vmin, .vmin), (.vmax, .vmax), (.vabs, .vabs),
      (.vneg, .vneg), (.vcmp, .vcmp), (.viadd, .viadd), (.visub, .visub), (.vimul, .vimul), (.vand, .vand), (.vor, .vor),
      (.vxor, .vxor), (.vshl, .vshl), (.vshr, .vshr), (.exp2, .exp2), (.log2, .log2), (.rcp, .rcp), (.rsqrt, .rsqrt), (.sin, .sin),
      (.cos, .cos), (.sincosP, .sincosP), (.vdiv, .vdiv), (.vsqrt, .vsqrt), (.vcvt, .vcvt), (.vld, .vld), (.vst, .vst),
      (.vldR, .vldR), (.vstR, .vstR), (.fold, fun b t f => .fold (.vec b t f)), (.unfold, .unfold), (.perm, .perm), (.mand, .mand),
      (.mor, .mor), (.mxor, .mxor), (.mnot, .mnot), (.mpop, .mpop), (.redSum, .redSum), (.redMax, .redMax), (.redMin, .redMin),
      (.redArgmax, .redArgmax), (.redSumx, .redSumx), (.xcvt, .xcvt), (.redTopkInit, .redTopkInit), (.redTopk, .redTopk),
      (.softmaxInit, .softmaxInit), (.softmaxAcc, .softmaxAcc), (.softmaxFin, .softmaxFin), (.softmaxOut, .softmaxOut)],
    ∀ (b : BayId) (t : Thread) (f : VFields) (s : State), Safety.ready s b t (.v p.1 f) → Safety.vecOperands (s.thr b t) p.1 f →
      ∃ s', Machine.exec (p.2 b t f) s = .next s'
        ∧ Safety.vecQueue (s'.bay b) t = Safety.vecQueue (s.bay b) t ++ [{
            qseq := (s.thr b t).qseq, pc := (s.thr b t).pc, vl := (s.thr b t).vl
            op := .instr p.1 f ((s.thr b t).getG f.gx) ((s.thr b t).getG f.gy) }]
        ∧ s'.thr b t = Safety.issued ((Safety.fetched s b t).thr b t) (p.1.writes f)
        ∧ (Safety.fetched s b t).thr b t = { s.thr b t with line := ((Safety.fetched s b t).thr b t).line }
        ∧ (s'.bay b).v = (s.bay b).v ∧ (s'.bay b).m = (s.bay b).m ∧ (s'.bay b).pq = (s.bay b).pq
        ∧ (∀ u, u ≠ t → Safety.vecQueue (s'.bay b) u = Safety.vecQueue (s.bay b) u ∧ s'.thr b u = s.thr b u)
        ∧ s'.mem = s.mem ∧ Safety.keepsBays s s' b ∧ Safety.keepsRegs s s' (Safety.issueRegs b)

/-- Integer lanes of R189 under the masking rule of R147. -/
def Obligations.VectorIntegerLanes : Prop :=
  ∀ (p : VCode × (Bool → (w : Nat) → BitVec w → BitVec w → BitVec w)),
    p ∈ [(VCode.viadd, fun _ _ a b => a + b), (.visub, fun _ _ a b => a - b), (.vimul, fun _ _ a b => a * b), (.vand, fun _ _ a b => a &&& b),
      (.vor, fun _ _ a b => a ||| b), (.vxor, fun _ _ a b => a ^^^ b), (.vshl, fun _ w a b => a <<< (b.toNat % w)),
      (.vshr, fun arith w a b => if arith then a.sshiftRight (b.toNat % w) else a >>> (b.toNat % w))] →
    ∀ (b : BayId) (q : Thread) (f : VFields) (x y : Word) (s : State) (e : VecEntry) (rest : List VecEntry) (w : Nat),
      s.clockOff = false → Safety.vecQueue (s.bay b) q = e :: rest → s.takesQueue b q = true → e.op = .instr p.1 f x y → p.1.fieldsOk f = true →
      w = widthOf f.fmt.toNat → e.vl.toNat ≤ vCap w →
      ∃ s', Machine.exec (.vectorStart b q) s = .next s'
        ∧ Safety.vecQueue (s'.bay b) q = rest
        ∧ (∀ i, w * i < 2048 → ((s'.bay b).v[f.vd.toNat]'f.vd.isLt).extractLsb' (w * i) w =
            if e.vl.toNat ≤ i then 0
            else if (s.bay b).vecRegs.act f w i then
              p.2 (f.mod.getLsbD 0) w (((s.bay b).v[f.va.toNat]'f.va.isLt).extractLsb' (w * i) w)
                (((s.bay b).v[f.vb.toNat]'f.vb.isLt).extractLsb' (w * i) w)
            else ((s.bay b).v[f.vd.toNat]'f.vd.isLt).extractLsb' (w * i) w)
        ∧ (∀ k : BitVec 5, k ≠ f.vd → (s'.bay b).v[k.toNat]'k.isLt = (s.bay b).v[k.toNat]'k.isLt)
        ∧ (s'.bay b).m = (s.bay b).m ∧ s'.mem = s.mem ∧ s'.regs = s.regs ∧ Safety.keepsBays s s' b

/-- Mask logic of R189. -/
def Obligations.VectorMaskLogic : Prop :=
  ∀ p ∈ [(VCode.mand, fun a b : Word => a &&& b), (.mor, fun a b => a ||| b), (.mxor, fun a b => a ^^^ b), (.mnot, fun a _ => ~~~ a)],
    ∀ (b : BayId) (q : Thread) (f : VFields) (x y : Word) (s : State) (e : VecEntry) (rest : List VecEntry) (d va vb : Fin 8),
      s.clockOff = false → Safety.vecQueue (s.bay b) q = e :: rest → s.takesQueue b q = true → e.op = .instr p.1 f x y →
      d.val = f.vd.toNat % 8 → va.val = f.va.toNat % 8 → vb.val = f.vb.toNat % 8 →
      ∃ s', Machine.exec (.vectorStart b q) s = .next s'
        ∧ Safety.vecQueue (s'.bay b) q = rest
        ∧ (s'.bay b).m = (s.bay b).m.set d.val (p.2 (s.bay b).m[va.val] (s.bay b).m[vb.val]) d.isLt
        ∧ (s'.bay b).v = (s.bay b).v ∧ s'.mem = s.mem ∧ s'.regs = s.regs ∧ Safety.keepsBays s s' b

/-- VLD.R and VST.R copy all 256 bytes. -/
def Obligations.WholeRegisterCopies : Prop :=
  (∀ (b : BayId) (q : Thread) (f : VFields) (x y : Word) (s : State) (e : VecEntry) (rest : List VecEntry),
      s.clockOff = false → Safety.vecQueue (s.bay b) q = e :: rest → s.takesQueue b q = true → e.op = .instr .vldR f x y →
      x.toNat % 64 = 0 → x.toNat + 256 ≤ 0x100000 → s.ecc1 = [] → s.ecc2 = [] →
      ∃ s', Machine.exec (.vectorStart b q) s = .next s'
        ∧ (∀ i, i < 256 → ((s'.bay b).v[f.vd.toNat]'f.vd.isLt).extractLsb' (8 * i) 8 = s.memByte (bayAddr b (x.toNat + i)))
        ∧ (∀ k : BitVec 5, k ≠ f.vd → (s'.bay b).v[k.toNat]'k.isLt = (s.bay b).v[k.toNat]'k.isLt)
        ∧ s'.mem = s.mem ∧ Safety.keepsBays s s' b)
  ∧ (∀ (b : BayId) (q : Thread) (f : VFields) (x y : Word) (s : State) (e : VecEntry) (rest : List VecEntry),
      s.clockOff = false → Safety.vecQueue (s.bay b) q = e :: rest → s.takesQueue b q = true → e.op = .instr .vstR f x y →
      x.toNat % 64 = 0 → x.toNat + 256 ≤ 0x100000 →
      ∃ s', Machine.exec (.vectorStart b q) s = .next s'
        ∧ (∀ i, i < 256 → s'.memByte (bayAddr b (x.toNat + i)) = ((s.bay b).v[f.vd.toNat]'f.vd.isLt).extractLsb' (8 * i) 8)
        ∧ Safety.keepsMem s s' (bayAddr b x.toNat) 256
        ∧ (s'.bay b).v = (s.bay b).v ∧ (s'.bay b).m = (s.bay b).m ∧ s'.regs = s.regs ∧ Safety.keepsBays s s' b)

/-- Issue of the P-format instructions of R192. -/
def Obligations.PressInstructionsIssue : Prop :=
  ∀ p ∈ [(PCode.mm, Instr.mm), (.lds, .lds), (.turn, .turn), (.accClr, .accClr), (.accSt, .accSt), (.accLd, .accLd), (.accWin, .accWin)],
    ∀ (b : BayId) (t : Thread) (f : PFields) (s : State), Safety.ready s b t (.p p.1 f) →
      pressCheck (s.bay b) (s.thr b t) p.1 f = Check.none →
      ∃ s', Machine.exec (p.2 b t f) s = .next s'
        ∧ (s'.bay b).pq = (s.bay b).pq ++ [{
            qseq := (s.thr b t).qseq, pc := (s.thr b t).pc
            op := match p.1 with
              | .mm => .mm f ((s.thr b t).getG f.ga) ((s.thr b t).getG f.gs) ((s.thr b t).getG f.gr)
                  (rowMask (s.bay b).m (f.mod.extractLsb' 2 3).toNat)
              | .lds => .lds f ((s.thr b t).getG f.ga)
              | .turn => .turn
              | .accClr => .accClr f
              | .accSt => .accSt f ((s.thr b t).getG f.ga) ((s.thr b t).getG f.gs) ((s.thr b t).getG f.gr)
              | .accLd => .accLd f ((s.thr b t).getG f.ga) ((s.thr b t).getG f.gr)
              | .accWin => .accWin f }]
        ∧ s'.thr b t = Safety.issued ((Safety.fetched s b t).thr b t) none
        ∧ (Safety.fetched s b t).thr b t = { s.thr b t with line := ((Safety.fetched s b t).thr b t).line }
        ∧ (s'.bay b).recShadow = (match p.1 with
            | .lds => ⟨f.fmt, f.mod.getLsbD 0⟩
            | .turn => (s.bay b).recAct
            | _ => (s.bay b).recShadow)
        ∧ (s'.bay b).recAct = (if p.1 = .turn then (s.bay b).recShadow else (s.bay b).recAct)
        ∧ (s'.bay b).recAuto0 = (if p.1 = .accWin ∧ f.acc = 0 then f.mod.getLsbD 8 else (s.bay b).recAuto0)
        ∧ (s'.bay b).recAuto1 = (if p.1 = .accWin ∧ f.acc = 1 then f.mod.getLsbD 8 else (s.bay b).recAuto1)
        ∧ (s'.bay b).active = (s.bay b).active ∧ (s'.bay b).shadow = (s.bay b).shadow ∧ (s'.bay b).acc0 = (s.bay b).acc0
        ∧ (s'.bay b).acc1 = (s.bay b).acc1 ∧ (s'.bay b).v = (s.bay b).v ∧ (s'.bay b).m = (s.bay b).m
        ∧ s'.mem = s.mem ∧ Safety.keepsBays s s' b ∧ Safety.keepsRegs s s' (Safety.issueRegs b)

/-- TURN, ACC.CLR and ACC.WIN executed. -/
def Obligations.PressTurnsAndClears : Prop :=
  ∀ (b : BayId) (s : State) (e : PressEntry) (rest : List PressEntry), s.clockOff = false → Safety.handedOver s →
    (s.bay b).pq = e :: rest →
    (e.op = .turn → Machine.exec (.pressAccept b) s = .next (s.setBay b { s.bay b with
        pq := rest, active := (s.bay b).shadow, shadow := (s.bay b).active, turnCnt := (s.bay b).turnCnt + 1 }))
    ∧ (∀ f, e.op = .accClr f → Machine.exec (.pressAccept b) s = .next (s.setBay b
        (if f.acc = 1 then { s.bay b with pq := rest, acc1 := { (s.bay b).acc1 with rows := [], weak := [], bad := [] } }
         else { s.bay b with pq := rest, acc0 := { (s.bay b).acc0 with rows := [], weak := [], bad := [] } })))
    ∧ (∀ f, e.op = .accWin f → ∃ a : AccBlock, a.auto = f.mod.getLsbD 8 ∧ a.klog = f.mod.extractLsb' 19 6
        ∧ a.win = (if f.mod.getLsbD 8 then 0 else f.mod.extractLsb' 9 10) ∧ (∀ i, a.row i = AccRow.zero)
        ∧ Machine.exec (.pressAccept b) s = .next (s.setBay b
          (if f.acc = 1 then { s.bay b with pq := rest, acc1 := a } else { s.bay b with pq := rest, acc0 := a })))

/-- Rows folded out by the mask. -/
def Obligations.FoldedRowsAreNotFed : Prop :=
  ∀ (b : BayId) (s : State) (e : PressEntry) (rest : List PressEntry) (f : PFields) (ga gs gr : Word),
    s.clockOff = false → Safety.handedOver s → (s.bay b).pq = e :: rest → e.op = .mm f ga gs gr (some 0) →
    ∃ s', Machine.exec (.pressAccept b) s = .next s' ∧ (s'.bay b).pq = rest
      ∧ (∀ one i, ((s'.bay b).acc one).row i =
          if one = (f.acc == 1) ∧ f.mod.getLsbD 1 = true ∧ (rowRange gr).r0 ≤ i ∧ i < (rowRange gr).r0 + (rowRange gr).m then AccRow.zero
          else ((s.bay b).acc one).row i)
      ∧ (s'.bay b).active = (s.bay b).active ∧ (s'.bay b).shadow = (s.bay b).shadow ∧ s'.mem = s.mem ∧ s'.ecc1 = s.ecc1
      ∧ Safety.keepsBays s s' b ∧ Safety.keepsRegs s s' [RegId.PRS_SKIPS.addr b.toNat]

/-- Order and grouping do not matter while nothing saturates (R130). -/
def Obligations.WindowedSumsAreOrderFree : Prop :=
  (∀ (win : Int) (base : W128) (l l' : List Machine.Num), l.Perm l' → elemWrite base (prodSum win l) = elemWrite base (prodSum win l'))
  ∧ (∀ (win : Int) (base : W128) (l l' : List Machine.Num),
      (elemWrite base (prodSum win l)).event = false →
      (elemWrite (elemWrite base (prodSum win l)).value (prodSum win l')).event = false →
      (elemWrite base (prodSum win (l ++ l'))).value = (elemWrite (elemWrite base (prodSum win l)).value (prodSum win l')).value
      ∧ (elemWrite base (prodSum win (l ++ l'))).event = false
      ∧ (elemWrite base (prodSum win (l ++ l'))).uflow =
          (elemWrite base (prodSum win l)).uflow + (elemWrite (elemWrite base (prodSum win l)).value (prodSum win l')).uflow)
  ∧ ∀ (win : Int) (l : List Machine.Num), (elemWrite nar (prodSum win l)).value = nar ∧ (elemWrite nar (prodSum win l)).event = false

/-- SYNC, its release, END and the end of a drain. -/
def Obligations.SyncAndEnd : Prop :=
  (∀ (b : BayId) (t : Thread) (f : XFields) (s : State), Safety.ready s b t (.x .sync f) → Safety.notLast s b t →
      (s.syncDone b t (f.mod.getLsbD 2) (f.mod.getLsbD 1) (f.mod.getLsbD 0) = true →
        Machine.exec (.sync b t f) s = .next ((Safety.fetched s b t).updThr b t fun r => { r with pc := r.pc + 8 }))
      ∧ (s.syncDone b t (f.mod.getLsbD 2) (f.mod.getLsbD 1) (f.mod.getLsbD 0) = false →
        Machine.exec (.sync b t f) s = .next ((Safety.fetched s b t).updThr b t fun r =>
          { r with
            waitFor := .sync (f.mod.getLsbD 2) (f.mod.getLsbD 1) (f.mod.getLsbD 0)
            status := { r.status with st := .wait } })))
  ∧ (∀ (b : BayId) (t : Thread) (s : State) (m v p : Bool), s.syncDone b t m v p = true ↔
      ((p = true → t = .seam ∨ (s.bay b).pq = []) ∧ (v = true → Safety.vecQueue (s.bay b) t = [])
        ∧ (m = true → ∀ e ∈ (s.bay b).usedSlots, e.2.t = t →
            e.2.localDone = true ∧ (e.2.kind = .get ∨ s.fab.toForm (.msg b e.1 e.2.ord) = false))))
  ∧ (∀ (b : BayId) (t : Thread) (s : State) (m v p : Bool), (s.thr b t).waitFor = .sync m v p → s.gated = false →
      s.syncDone b t m v p = true →
      Machine.exec (.syncRelease b t) s = .next (s.updThr b t fun r =>
        { r with pc := r.pc + 8, waitFor := .none, status := { r.status with st := .run } }))
  ∧ (∀ (b : BayId) (t : Thread) (f : XFields) (s : State), Safety.ready s b t (.x .endThread f) →
      Machine.exec (.endThread b t f) s = .next ((Safety.fetched s b t).updThr b t fun r =>
        { r with stop := some { goal := .idle, qseq := 0, engine := false }, status := { r.status with st := .drain } }))
  ∧ (∀ (b : BayId) (t : Thread) (s : State) (p : StopRec), (s.thr b t).stop = some p → p.goal = .idle →
      (s.thr b t).status.st = .drain → s.gated = false → (s.bay b).drained t = true → Safety.handedOver s →
      Machine.exec (.threadDrainDone b t) s = .next (s.updThr b t fun r =>
        { r with stop := none, status := { r.status with st := .idle } }))

/-- FENCE and FENCE_COMPLETE. -/
def Obligations.FenceReportsTheFirstFailure : Prop :=
  (∀ (b : BayId) (t : Thread) (f : XFields) (s : State), Safety.ready s b t (.x .fence f) → Safety.notLast s b t →
      ((∀ e ∈ (s.bay b).usedSlots, e.2.kind = .get) → (∀ e ∈ (s.bay b).fenceFails, e.1 < (s.bay b).msgCount) →
        ∃ s', Machine.exec (.fence b t f) s = .next s'
          ∧ s'.thr b t = { ((Safety.fetched s b t).thr b t).setG f.gd
                ((((s.bay b).fenceFails.head?).map Prod.snd).getD cDONE |>.setWidth 64) with pc := (s.thr b t).pc + 8, waitFor := .none }
          ∧ (s'.bay b).fenceFails = [] ∧ s'.mem = s.mem ∧ Safety.keepsBays s s' b ∧ Safety.keepsRegs s s' (Safety.issueRegs b))
      ∧ (∀ e ∈ (s.bay b).usedSlots, e.2.kind ≠ .get → e.2.ord < (s.bay b).msgCount →
        Machine.exec (.fence b t f) s = .next ((Safety.fetched s b t).updThr b t fun r =>
          { r with waitFor := .fence (s.bay b).msgCount f.gd none, status := { r.status with st := .wait } })))
  ∧ (∀ (b : BayId) (t : Thread) (s : State) (limit : Nat) (gd : BitVec 5) (seen : Option Code),
      (s.thr b t).waitFor = .fence limit gd seen → s.gated = false →
      (∀ e ∈ (s.bay b).usedSlots, e.2.kind = .get ∨ limit ≤ e.2.ord) → (∀ p ∈ (s.thr b t).pend, p.failed = none) →
      ∃ s', Machine.exec (.fenceComplete b t) s = .next s'
        ∧ s'.thr b t = { (s.thr b t).setG gd
              (((seen.orElse fun _ => ((s.bay b).fenceFails.find? fun e => decide (e.1 < limit)).map Prod.snd).getD cDONE).setWidth 64) with
            pc := (s.thr b t).pc + 8, waitFor := .none, status := { (s.thr b t).status with st := .run } }
        ∧ (s'.bay b).fenceFails = (s.bay b).fenceFails.filter (fun e => decide (limit ≤ e.1))
        ∧ (∀ u limit' gd' seen', u ≠ t → (s.thr b u).waitFor = .fence limit' gd' seen' → (s'.thr b u).waitFor = .fence limit' gd'
            (seen'.orElse fun _ => (((s.bay b).fenceFails.find? fun e => decide (e.1 < limit) && decide (e.1 < limit')).map Prod.snd)))
        ∧ s'.mem = s.mem ∧ s'.regs = s.regs ∧ Safety.keepsBays s s' b)

/-- WAIT.FLAG and WAIT.SCRIBE with their releases. -/
def Obligations.WaitsOnFlagsAndMarks : Prop :=
  (∀ (b : BayId) (t : Thread) (f : XFields) (s : State) (a : Nat), Safety.ready s b t (.x .waitFlag f) → Safety.notLast s b t →
      a = ((s.thr b t).getG f.ga).toNat → a % 8 = 0 → a < 0x100000 → ((Safety.fetched s b t).eccRead b a 8).2 = false →
      ∃ s', Machine.exec (.waitFlag b t f) s = .next s' ∧ s'.mem = s.mem ∧ Safety.keepsBays s s' b
        ∧ (flagHolds (f.mod.extractLsb' 0 2) (BitVec.ofNat 64 (leNat (s.bayBytes b a 8))) ((s.thr b t).getG f.gb) = true →
            s'.thr b t = { ((Safety.fetched s b t).thr b t).setG f.gd 0 with pc := (s.thr b t).pc + 8, waitFor := .none })
        ∧ (flagHolds (f.mod.extractLsb' 0 2) (BitVec.ofNat 64 (leNat (s.bayBytes b a 8))) ((s.thr b t).getG f.gb) = false →
            ∃ d, s'.thr b t = { (Safety.fetched s b t).thr b t with
                waitFor := .flag (BitVec.ofNat 20 a) ((s.thr b t).getG f.gb) (f.mod.extractLsb' 0 2) d f.gd
                status := { (s.thr b t).status with st := .wait } }
              ∧ (d = none ↔ (s.thr b t).getG f.gc = 0)
              ∧ ∀ n, d = some n → n ≤ s.now + ((s.thr b t).getG f.gc).toNat))
  ∧ (∀ (b : BayId) (t : Thread) (s : State) (off : BitVec 20) (cmp : Word) (cond : BitVec 2) (d : Option Nat) (gd : BitVec 5),
      (s.thr b t).waitFor = .flag off cmp cond d gd → s.gated = false → (s.eccRead b off.toNat 8).2 = false →
      flagHolds cond (s.flagWord b off) cmp = true →
      ∃ s', Machine.exec (.waitFlagReread b t) s = .next s' ∧ s'.mem = s.mem ∧ Safety.keepsBays s s' b
        ∧ s'.thr b t = { (s.thr b t).setG gd 0 with
            pc := (s.thr b t).pc + 8, waitFor := .none, status := { (s.thr b t).status with st := .run } })
  ∧ (∀ (b : BayId) (t : Thread) (s : State) (off : BitVec 20) (cmp : Word) (cond : BitVec 2) (d : Nat) (gd : BitVec 5),
      (s.thr b t).waitFor = .flag off cmp cond (some d) gd → s.gated = false → (s.eccRead b off.toNat 8).2 = false →
      d + s.bayLagMax b ≤ s.now →
      ∃ s', Machine.exec (.waitFlagTimeout b t) s = .next s' ∧ s'.mem = s.mem ∧ Safety.keepsBays s s' b
        ∧ s'.thr b t = { (s.thr b t).setG gd (if flagHolds cond (s.flagWord b off) cmp then 0 else cTIMEOUT.setWidth 64) with
            pc := (s.thr b t).pc + 8, waitFor := .none, status := { (s.thr b t).status with st := .run } })
  ∧ (∀ (b : BayId) (t : Thread) (f : XFields) (s : State), Safety.ready s b t (.x .waitScribe f) → Safety.notLast s b t →
      (((s.thr b t).getG f.ga).toNat + s.bayLagMax b ≤ s.now →
        ∃ s' v, Machine.exec (.waitScribe b t f) s = .next s' ∧ s'.mem = s.mem ∧ Safety.keepsBays s s' b
          ∧ s'.thr b t = { ((Safety.fetched s b t).thr b t).setG f.gd v with
              pc := (s.thr b t).pc + 8, waitFor := .none, status := { (s.thr b t).status with st := .run } }
          ∧ ((s.thr b t).getG f.ga).toNat ≤ v.toNat ∧ v.toNat ≤ s.now)
      ∧ (s.now < ((s.thr b t).getG f.ga).toNat →
        ∃ s', Machine.exec (.waitScribe b t f) s = .next s' ∧ s'.mem = s.mem ∧ Safety.keepsBays s s' b
          ∧ s'.thr b t = { (Safety.fetched s b t).thr b t with
              waitFor := .scribe ((s.thr b t).getG f.ga) f.gd, status := { (s.thr b t).status with st := .wait } }))
  ∧ (∀ (b : BayId) (t : Thread) (s : State) (mark : Word) (gd : BitVec 5), (s.thr b t).waitFor = .scribe mark gd → s.gated = false →
      mark.toNat + s.bayLagMax b ≤ s.now →
      ∃ s' v, Machine.exec (.waitScribeRelease b t) s = .next s' ∧ s'.mem = s.mem ∧ Safety.keepsBays s s' b
        ∧ s'.thr b t = { (s.thr b t).setG gd v with
            pc := (s.thr b t).pc + 8, waitFor := .none, status := { (s.thr b t).status with st := .run } }
        ∧ mark.toNat ≤ v.toNat ∧ v.toNat ≤ s.now)

/-- BAY_CTRL (R73). -/
def Obligations.BayControl : Prop :=
  (∀ (p : RegPath) (b : BayId) (s : State) (v : Word),
      v = withBit (Fld.BAY_CTRL_GO b.toNat) (packWord [(1, s.getF (Fld.BAY_CTRL_SEAM_EN b.toNat))]) →
      Safety.reaches s p .BAY_CTRL b.toNat 0 v → (s.bay b).live = false → (s.bay b).colls = [] → Safety.handedOver s →
      ∃ s', Machine.exec (.bayGo p b) s = .next s' ∧ s'.lastCode = cDONE
        ∧ s'.thr b .main = { s.thr b .main with
            pc := BitVec.ofNat 20 (8 * s.getF (Fld.BAY_MAIN_PC_PC b.toNat)), vl := 0, pend := [], stop := none, waitFor := .none, line := none
            status := { ThreadStatus.clear with st := .run } }
        ∧ s'.thr b .seam = { s.thr b .seam with
            pc := if s.seamEn b then BitVec.ofNat 20 (8 * s.getF (Fld.BAY_SEAM_PC_PC b.toNat)) else (s.thr b .seam).pc
            vl := 0, pend := [], stop := none, waitFor := .none, line := none
            status := if s.seamEn b then { ThreadStatus.clear with st := .run } else ThreadStatus.clear }
        ∧ (s'.bay b).v = (s.bay b).v ∧ (s'.bay b).m = (s.bay b).m ∧ (s'.bay b).active = (s.bay b).active
        ∧ (s'.bay b).shadow = (s.bay b).shadow ∧ (s'.bay b).acc0 = (s.bay b).acc0 ∧ (s'.bay b).acc1 = (s.bay b).acc1
        ∧ (s'.bay b).recAct = (s.bay b).active.kind ∧ (s'.bay b).recShadow = (s.bay b).shadow.kind
        ∧ (s'.bay b).recAuto0 = (s.bay b).acc0.auto ∧ (s'.bay b).recAuto1 = (s.bay b).acc1.auto
        ∧ s'.mem = s.mem ∧ Safety.keepsBays s s' b)
  ∧ (∀ (p : RegPath) (b : BayId) (s : State) (v : Word),
      v = withBit (Fld.BAY_CTRL_STOP b.toNat) (packWord [(1, s.getF (Fld.BAY_CTRL_SEAM_EN b.toNat))]) →
      Safety.reaches s p .BAY_CTRL b.toNat 0 v →
      ∃ s', Machine.exec (.bayStop p b) s = .next s' ∧ s'.lastCode = cDONE ∧ s'.mem = s.mem ∧ Safety.keepsBays s s' b
        ∧ ∀ t, s'.thr b t = if (s.thr b t).status.st.live = true ∧ ∀ q, (s.thr b t).stop = some q → q.goal ≠ .fault then
              { s.thr b t with
                stop := some { goal := .stopped, qseq := 0, engine := false }, waitFor := .none
                status := { (s.thr b t).status with st := .drain } }
            else s.thr b t)
  ∧ (∀ (p : RegPath) (b : BayId) (s : State) (en : Bool), Safety.reaches s p .BAY_CTRL b.toNat 0 (packWord [(1, if en then 1 else 0)]) →
      (s.bay b).live = false →
      ∃ s', Machine.exec (.seamEnWrite p b en) s = .next s' ∧ s'.lastCode = cDONE ∧ s'.seamEn b = en
        ∧ s' = { s with regs := s'.regs, lastCode := cDONE } ∧ Safety.keepsRegs s s' [RegId.BAY_CTRL.addr b.toNat])
  ∧ (∀ (b : BayId) (s : State) (v : Word), v = withBit (Fld.BAY_CTRL_GO b.toNat) (packWord [(1, s.getF (Fld.BAY_CTRL_SEAM_EN b.toNat))]) →
      Safety.reaches s .msc .BAY_CTRL b.toNat 0 v → (s.bay b).live = true → Safety.handedOver s →
      Machine.exec (.bayGo .msc b) s = .next { s with lastCode := cSTATE_REJECT })
  ∧ (∀ (b : BayId) (s : State) (en : Bool), Safety.reaches s .msc .BAY_CTRL b.toNat 0 (packWord [(1, if en then 1 else 0)]) →
      (s.bay b).live = true → s.seamEn b ≠ en →
      Machine.exec (.seamEnWrite .msc b en) s = .next { s with lastCode := cSTATE_REJECT })

/-- Issue of the M-format instructions. -/
def Obligations.MessageRequestsIssue : Prop :=
  ∀ p ∈ [(MsgKind.put, Instr.put), (.putF, .putF), (.get, .get), (.amo, .amo)],
    ∀ (b : BayId) (t : Thread) (f : MFields) (s : State) (i : Nat), Safety.ready s b t (.m p.1.code f) →
      msgCheck (s.thr b t) p.1 f = Check.none → Safety.handedOver s → i = (s.bay b).freeSlot →
      i < 256 ∧ (s.bay b).slot i = none
      ∧ Machine.exec (p.2 b t f) s = .next ((Safety.fetched s b t).takeSlot b t p.1 f).settleMsgs
      ∧ (s.destDev ((s.thr b t).getG f.gt) = s.devCoord →
        ∃ s' x, Machine.exec (p.2 b t f) s = .next s' ∧ (s'.bay b).slot i = some x
          ∧ x.t = t ∧ x.kind = p.1 ∧ x.qseq = (s.thr b t).qseq ∧ x.pc = (s.thr b t).pc ∧ x.ord = (s.bay b).msgCount
          ∧ x.dest = (s.thr b t).getG f.gt ∧ x.dev = s.devCoord ∧ x.loc = fieldOf ((s.thr b t).getG f.gl) 0 20
          ∧ x.len = (if p.1 = .amo then 8 else if f.lr = 1 then ((s.thr b t).getG f.gn).toNat else 8 * (f.len8.toNat + 1))
          ∧ x.flag = ((s.thr b t).getG f.gx).setWidth 48
          ∧ x.cw = (if p.1 = .get ∧ f.cw = 1 then some (fieldOf ((s.thr b t).getG f.gx) 0 20) else none)
          ∧ x.aop = f.aop ∧ x.x = (s.thr b t).getG f.gn ∧ x.cmp = (s.thr b t).getG f.gx ∧ x.gd = f.gl
          ∧ x.moved = 0 ∧ x.flagDone = false ∧ x.acks = [] ∧ x.acked = 0 ∧ x.fail = none ∧ x.forColl = none
          ∧ s'.thr b t = { (Safety.fetched s b t).thr b t with
              pc := (s.thr b t).pc + 8, qseq := (s.thr b t).qseq + 1
              pend := (s.thr b t).pend ++ if p.1 = .amo then [⟨f.gl, (s.thr b t).qseq, true, (s.thr b t).pc, none⟩] else [] }
          ∧ (∀ u, u ≠ t → s'.thr b u = s.thr b u) ∧ (s'.bay b).msgCount = (s.bay b).msgCount + 1
          ∧ (∀ j, j ≠ i → (s'.bay b).slot j = (s.bay b).slot j)
          ∧ s'.fab = s.fab ∧ s'.mem = s.mem ∧ Safety.keepsBays s s' b ∧ Safety.keepsRegs s s' (Safety.issueRegs b))

/-- MESSAGE_PACKET_ARRIVAL at a bay's memory. -/
def Obligations.MessagePacketsReachBayMemory : Prop :=
  ∀ (b src : BayId) (slot : BitVec 8) (s : State) (x : Slot) (a n : Nat), s.clockOff = false → Safety.handedOver s →
    s.ecc1 = [] → s.ecc2 = [] → (s.bay src).slot slot.toNat = some x → x.dev = s.devCoord → x.forColl = none → s.cut src = false → s.cut b = false →
    x.moved < x.len → a = fieldOf x.dest 0 48 + x.moved → n = min 256 (x.len - x.moved) →
    bayAddr b 0 ≤ a → a + n ≤ bayAddr b 0x100000 →
    ((x.kind = .put ∨ x.kind = .putF) → s.partReady src x (.put a n) = true →
      (src = b ∨ s.access (.group (s.bayGroup src)) s.devCoord permW a n = (s, true) →
        Machine.exec (.messagePacketArrival b src slot) s = .next
          ((s.setMemBytes a (s.bayBytes src (x.loc + x.moved) n)).setSlot src slot.toNat
            (some { x with moved := x.moved + n, acks := x.acks ++ [⟨cDONE, n, []⟩] })))
      ∧ (∀ t, src ≠ b → s.access (.group (s.bayGroup src)) s.devCoord permW a n = (t, false) →
        Machine.exec (.messagePacketArrival b src slot) s = .next
          (t.setSlot src slot.toNat (some { x with moved := x.moved + n, acks := x.acks ++ [⟨cACCESS_DENIED, n, []⟩] }))))
    ∧ (x.kind = .get → x.fail = none → s.partReady src x (.get a n) = true →
      (src = b ∨ s.access (.group (s.bayGroup src)) s.devCoord permR a n = (s, true)) →
      Machine.exec (.messagePacketArrival b src slot) s = .next
        (s.setSlot src slot.toNat (some { x with moved := x.moved + n, acks := x.acks ++ [⟨cDONE, n, s.memBytes a n⟩] })))

/-- MESSAGE_ACK_ARRIVAL (R60, R63). -/
def Obligations.MessageAcknowledgementsComplete : Prop :=
  ∀ (b : BayId) (slot : BitVec 8) (s : State) (x : Slot) (a : MsgAck) (rest : List MsgAck), s.clockOff = false →
    (s.bay b).slot slot.toNat = some x → x.acks = a :: rest → x.forColl = none → x.fail = none →
    (a.code = cDONE → x.kind = .put → rest = [] → x.acked + a.n = x.len → x.moved = x.len →
      s.fab.reqsLeft (.msg b slot.toNat x.ord) = false →
      ∃ s', Machine.exec (.messageAckArrival b slot) s = .next s' ∧ (s'.bay b).slot slot.toNat = none
        ∧ (∀ j, j ≠ slot.toNat → (s'.bay b).slot j = (s.bay b).slot j) ∧ (∀ t, s'.thr b t = s.thr b t)
        ∧ s'.mem = s.mem ∧ s'.regs = s.regs ∧ Safety.keepsBays s s' b)
    ∧ (a.code = cDONE → x.kind = .get → x.acked + a.n < x.len → s.ecc1 = [] → s.ecc2 = [] →
      Machine.exec (.messageAckArrival b slot) s = .next
        ((s.setSlot b slot.toNat (some { x with acks := rest, acked := x.acked + a.n })).setMemBytes (bayAddr b (x.loc + x.acked)) a.data))
    ∧ (a.code = cDONE → x.kind = .amo → rest = [] →
      ∃ s', Machine.exec (.messageAckArrival b slot) s = .next s' ∧ (s'.bay b).slot slot.toNat = none
        ∧ s'.thr b x.t = (s.thr b x.t).deliver x.gd x.qseq (BitVec.ofNat 64 (leNat a.data))
        ∧ s'.mem = s.mem ∧ s'.regs = s.regs ∧ Safety.keepsBays s s' b)
    ∧ (a.code ≠ cDONE → ∃ s', Machine.exec (.messageAckArrival b slot) s = .next s'
        ∧ s'.getF (Fld.BAY_MSG_ERR_CNT_COUNT b.toNat) = (s.getF (Fld.BAY_MSG_ERR_CNT_COUNT b.toNat) + 1) % 2 ^ 32
        ∧ s'.getF (Fld.BAY_MSG_ERR_CODE b.toNat)
            = (if s.getF (Fld.BAY_MSG_ERR_VALID b.toNat) = 1 then s.getF (Fld.BAY_MSG_ERR_CODE b.toNat) else a.code.toNat)
        ∧ Safety.keepsBays s s' b
        ∧ Safety.keepsRegs s s' [RegId.BAY_MSG_ERR.addr b.toNat, RegId.BAY_MSG_ERR_CNT.addr b.toNat, RegId.BAY_MEM_ECC.addr b.toNat,
            RegId.LDG_STEP_STATUS.addr])

/-- Issue of the SPLICE forms. -/
def Obligations.SpliceFormsIssue : Prop :=
  ∀ p ∈ [(XCode.spliceMmb, Instr.spliceMmb), (.spliceMmr, .spliceMmr), (.spliceVb, .spliceVb), (.spliceVr, .spliceVr),
      (.spliceDsp, .spliceDsp), (.spliceCmb, .spliceCmb)],
    ∀ (b : BayId) (t : Thread) (f : XFields) (s : State) (k : CollBlock), Safety.ready s b t (.x p.1 f) →
      spliceCheck s b (s.thr b t) p.1 f = Check.none →
      ((Safety.fetched s b t).eccRead b (fieldOf ((s.thr b t).getG f.gd) 0 20) 40).2 = false →
      k = s.readBlock b (fieldOf ((s.thr b t).getG f.gd) 0 20) →
      ∃ s', Machine.exec (p.2 b t f) s = .next s' ∧ s'.thr b t = Safety.issued ((Safety.fetched s b t).thr b t) none
        ∧ (Safety.fetched s b t).thr b t = { s.thr b t with line := ((Safety.fetched s b t).thr b t).line }
        ∧ (s'.bay b).recorded = (if (s.bay b).recorded.any (fun q => q.names k.group k.seq) then (s.bay b).recorded
            else (s.bay b).recorded ++ [k])
        ∧ (s'.bay b).pq = (s.bay b).pq ++ (if p.1 = .spliceMmb ∨ p.1 = .spliceMmr then
            [⟨(s.thr b t).qseq, (s.thr b t).pc, .splice (p.1 == .spliceMmr) f ((s.thr b t).getG f.ga) ((s.thr b t).getG f.gb)
              ((s.thr b t).getG f.gc) k⟩] else [])
        ∧ (s'.bay b).mainVq = (s.bay b).mainVq ++ (if p.1 = .spliceMmb ∨ p.1 = .spliceMmr then [] else
            [⟨(s.thr b t).qseq, (s.thr b t).pc, (s.thr b t).vl, .splice p.1 f ((s.thr b t).getG f.ga) ((s.thr b t).getG f.gb)
              ((s.thr b t).getG f.gc) k⟩])
        ∧ (s'.bay b).colls = (s.bay b).colls ∧ s'.mem = s.mem ∧ Safety.keepsBays s s' b ∧ Safety.keepsRegs s s' (Safety.issueRegs b)

/-- GROUP_ENTRY_W0_WRITE and GROUP_CHECK_DONE. -/
def Obligations.GroupEntriesAreChecked : Prop :=
  (∀ (p : RegPath) (g : BitVec 12) (v : Word) (s : State), Safety.reaches s p .ABR_GRP_W0 g.toNat 0 v → s.grpBusy g.toNat = false →
      (v.getLsbD 63 = true ∨ s.getF (Fld.ABR_GRP_W0_VALID g.toNat) = 0 ∨ s.grpOpen g = 0) →
      ∃ s', Machine.exec (.groupEntryW0Write p g v) s = .next s' ∧ s'.lastCode = cDONE
        ∧ s'.grpN g = fieldOf v 0 16 + 1 ∧ s'.grpF g = fieldOf v 40 3 + 1 ∧ s'.grpRoot g = fieldOf v 16 16
        ∧ (v.getLsbD 63 = true → s'.getF (Fld.ABR_GRP_W0_STATE g.toNat) = 1 ∧ s'.fab = s.fab)
        ∧ (v.getLsbD 63 = false → s'.getF (Fld.ABR_GRP_W0_STATE g.toNat) = 0 ∧ s'.getF (Fld.ABR_GRP_W0_CHECK_CODE g.toNat) = 0
          ∧ s'.members g = [])
        ∧ s'.mem = s.mem ∧ Safety.keepsRegs s s' [RegId.ABR_GRP_W0.addr g.toNat])
  ∧ (∀ (g : BitVec 12) (v : Word) (s : State), Safety.reaches s .msc .ABR_GRP_W0 g.toNat 0 v → v.getLsbD 63 = false →
      s.getF (Fld.ABR_GRP_W0_VALID g.toNat) = 1 → s.grpOpen g ≠ 0 →
      Machine.exec (.groupEntryW0Write .msc g v) s = .next { s with lastCode := cSTATE_REJECT })
  ∧ (∀ (g : BitVec 12) (s : State), s.getF (Fld.ABR_GRP_W0_STATE g.toNat) = 1 → s.getF (Fld.ABR_GRP_W2_LIST g.toNat) % 64 ≠ 0 →
      ∃ s', Machine.exec (.groupCheckDone g) s = .next s' ∧ s'.getF (Fld.ABR_GRP_W0_STATE g.toNat) = 3
        ∧ s'.getF (Fld.ABR_GRP_W0_CHECK_CODE g.toNat) = cMALFORMED.toNat ∧ s'.members g = [] ∧ s'.mem = s.mem
        ∧ Safety.keepsRegs s s' [RegId.ABR_GRP_W0.addr g.toNat])
  ∧ (∀ (g : BitVec 12) (s t : State) (l : List Nat) (base : Nat), s.getF (Fld.ABR_GRP_W0_STATE g.toNat) = 1 →
      base = s.getF (Fld.ABR_GRP_W2_LIST g.toNat) → base % 64 = 0 → l.length = s.grpN g → regionOf base = .hbm →
      regionOf (base + 4 * s.grpN g - 1) = .hbm → s.ownRead 7 base (4 * s.grpN g) = (t, cDONE, l.flatMap (leBytes 4)) →
      (∀ m ∈ l, m < 2 ^ 28 ∧ m % 4096 < 1024) → l.Nodup → s.grpRoot g < s.grpN g →
      ∃ s', Machine.exec (.groupCheckDone g) s = .next s' ∧ s'.getF (Fld.ABR_GRP_W0_STATE g.toNat) = 2
        ∧ s'.getF (Fld.ABR_GRP_W0_CHECK_CODE g.toNat) = cDONE.toNat ∧ s'.members g = l ∧ s'.mem = t.mem
        ∧ Safety.keepsRegs t s' [RegId.ABR_GRP_W0.addr g.toNat])

/-- COLLECTIVE_JOIN and JOIN_NOTICE_ARRIVAL. -/
def Obligations.CollectivesJoin : Prop :=
  (∀ (b : BayId) (g : BitVec 12) (q : BitVec 32) (s : State) (e : PressEntry) (rest : List PressEntry) (m : Bool) (f : XFields)
      (ga gb gc : Word) (k : CollBlock), (s.bay b).coll g q = none → (s.bay b).pq = e :: rest → e.op = .splice m f ga gb gc k →
      k.names g q = true → Machine.exec (.collectiveJoin b g q) s = Machine.exec (.pressAccept b) s)
  ∧ (∀ (b : BayId) (g : BitVec 12) (q : BitVec 32) (s : State) (e : VecEntry) (rest : List VecEntry) (c : XCode) (f : XFields)
      (ga gb gc : Word) (k : CollBlock), (s.bay b).coll g q = none → (s.bay b).pq = [] → (s.bay b).mainVq = e :: rest →
      e.op = .splice c f ga gb gc k → k.names g q = true →
      Machine.exec (.collectiveJoin b g q) s = Machine.exec (.vectorStart b .main) s)
  ∧ (∀ (b : BayId) (s : State) (e : VecEntry) (rest : List VecEntry) (f : XFields) (ga gb gc : Word) (k : CollBlock),
      (s.bay b).coll k.group k.seq = none → (s.bay b).pq = [] → (s.bay b).mainVq = e :: rest → e.op = .splice .spliceVb f ga gb gc k →
      k.op = 3 → k.rank ≠ k.root → s.clockOff = false → s.takesQueue b .main = true → (s.bay b).colls.length < 8 →
      Machine.exec (.collectiveJoin b k.group k.seq) s = .next
        (((s.updBay b fun y => { y with mainVq := rest, seamLast := false }).openColl b k ga gb 0 (f.mod.extractLsb' 0 4)).work b k.group k.seq).settled)
  ∧ (∀ (b : BayId) (s t : State) (k : CollBlock) (ga gb gc : Word) (fmt : BitVec 4), (s.bay b).coll k.group k.seq = none →
      (s.updBay b fun y => { y with colls := y.colls ++ [s.newColl k ga gb gc fmt] }).joinCheck b k = (t, none) →
      t.bays = (s.updBay b fun y => { y with colls := y.colls ++ [s.newColl k ga gb gc fmt] }).bays →
      s.fab.earlyOf b k.group k.seq = none → t.fab = s.fab →
      ∃ c, ((s.openColl b k ga gb gc fmt).bay b).coll k.group k.seq = some c ∧ c.joined = true ∧ c.blk = k
        ∧ (k.experts = false → c.parent.map (fun n => n.rank) = treeParent (s.grpF k.group) k.root k.rank
          ∧ c.children.map (fun n => n.rank) = treeChildren (s.grpN k.group) (s.grpF k.group) k.root k.rank
          ∧ (s.openColl b k ga gb gc fmt).fab.notices.map (fun n => (n.kind, n.group, n.seq, n.src, n.dst))
            = s.fab.notices.map (fun n => (n.kind, n.group, n.seq, n.src, n.dst))
              ++ ((treeParent (s.grpF k.group) k.root k.rank).toList
                ++ treeChildren (s.grpN k.group) (s.grpF k.group) k.root k.rank).map (fun r => (NoticeKind.join, k.group, k.seq, b, s.memberCoord k.group r))))
  ∧ (∀ (b : BayId) (g : BitVec 12) (q : BitVec 32) (r : BitVec 16) (d : BitVec 32) (s : State), (s.bay b).coll g q = none →
      s.fab.earlyOf b g q = none → Safety.handedOver s →
      ∃ s', Machine.exec (.joinNoticeArrival b g q r d) s = .next s' ∧ s'.mem = s.mem ∧ s'.bays = s.bays
        ∧ s'.lastCode = (if s.fab.early.length < 7168 then cDONE else cCAPACITY)
        ∧ s'.fab.early = (if s.fab.early.length < 7168 then
            s.fab.early ++ [{ EarlyRec.blank b g q with joins := [(r.toNat, d)] }] else s.fab.early)
        ∧ Safety.keepsRegs s s' [RegId.LDG_STEP_STATUS.addr])
  ∧ (∀ (b : BayId) (g : BitVec 12) (q : BitVec 32) (r : BitVec 16) (s : State) (c : Coll), (s.bay b).coll g q = some c →
      c.joined = true →
      Machine.exec (.joinNoticeArrival b g q r (s.digestOf c.blk)) s = .next
        ((((((s.takeNote 9 b.toNat .join [g.toNat, q.toNat, r.toNat, (s.digestOf c.blk).toNat]).noticeFate .join b g q r.toNat 0 true).setColl b ((c.hear r.toNat s.now).takeJoin r.toNat s.now)).work b g
          q).answer cDONE).settled))

/-- CHUNK_ARRIVAL, CREDIT_ARRIVAL and CHUNK_ACK_ARRIVAL. -/
def Obligations.ChunksCreditsAndAcknowledgements : Prop :=
  (∀ (b : BayId) (r : BitVec 16) (s : State) (c : Coll) (i : Nat) (data payload h : List Byte),
      h = chunkHeader c.blk (s.digestOf c.blk) (s.getF Fld.ABR_EPOCH_CURRENT) i data →
      (allZero data = false → payload = data) → data.length = c.blk.chunkLen i → i < c.blk.nc →
      (s.bay b).coll c.blk.group c.blk.seq = some c → c.joined = true → s.seamRuns b = true → s.ecc1 = [] → s.ecc2 = [] →
      (c.blk.reduce = false → c.parent.map (fun n => n.rank) = some r.toNat → i = c.done →
        Machine.exec (.chunkArrival b r h payload) s = .next
          ((((((s.takeInner b r.toNat h).setColl b (c.hear r.toNat s.now)).setMemBytes (bayAddr b (c.blk.region + i * c.blk.chunk)) data).setColl b
            { c.hear r.toNat s.now with done := i + 1 }).work b c.blk.group c.blk.seq).answer cDONE).settled)
      ∧ (∀ j m, c.blk.reduce = true → c.children.findIdx? (fun m => m.rank == r.toNat) = some j → c.children[j]? = some m →
          m.staged = none → i = m.sent →
        Machine.exec (.chunkArrival b r h payload) s = .next
          ((((((s.takeInner b r.toNat h).setColl b (c.hear r.toNat s.now)).setMemBytes (bayAddr b (c.blk.stage + j * c.blk.chunk)) data).setColl b
            ((c.hear r.toNat s.now).updChild r.toNat fun m => { m with staged := some i, sent := i + 1 })).work b c.blk.group
              c.blk.seq).answer cDONE).settled))
  ∧ (∀ (b : BayId) (r : BitVec 16) (h payload : List Byte) (s : State), Safety.handedOver s →
      ((s.bay b).coll (BitVec.ofNat 12 (hdrField h 0 2)) (BitVec.ofNat 32 (hdrField h 4 4)) = none →
        Machine.exec (.chunkArrival b r h payload) s = .next { s.takeInner b r.toNat h with lastCode := cRANGE })
      ∧ (∀ c, (s.bay b).coll (BitVec.ofNat 12 (hdrField h 0 2)) (BitVec.ofNat 32 (hdrField h 4 4)) = some c → c.joined = true →
          s.seamRuns b = true → hdrField h 28 4 ≠ s.getF Fld.ABR_EPOCH_CURRENT →
        Machine.exec (.chunkArrival b r h payload) s = .next { s.takeInner b r.toNat h with lastCode := cEPOCH_STALE })
      ∧ (∀ c, (s.bay b).coll (BitVec.ofNat 12 (hdrField h 0 2)) (BitVec.ofNat 32 (hdrField h 4 4)) = some c → s.seamRuns b = false →
        Machine.exec (.chunkArrival b r h payload) s = .next s))
  ∧ (∀ (b : BayId) (s : State) (c : Coll) (p : Neighbour), (s.bay b).coll c.blk.group c.blk.seq = some c → c.joined = true →
      c.blk.reduce = true → c.parent = some p →
      Machine.exec (.creditArrival b c.blk.group c.blk.seq) s = .next
        (((((s.takeNote 9 b.toNat .credit [c.blk.group.toNat, c.blk.seq.toNat]).setColl b ({ c with parent := some { p with credit := true } }.hear p.rank s.now)).work b c.blk.group
          c.blk.seq).settled).answer cDONE))
  ∧ (∀ (b : BayId) (r i : BitVec 16) (s : State) (c : Coll), (s.bay b).coll c.blk.group c.blk.seq = some c →
      c.blk.reduce = false → c.blk.experts = false →
      Machine.exec (.chunkAckArrival b c.blk.group c.blk.seq r i cDONE) s = .next
        (((s.setColl b (c.updChild r.toNat fun n =>
          if n.acked = i.toNat ∧ i.toNat < n.sent then { n with acked := n.acked + 1 } else n)).work b c.blk.group c.blk.seq).settled))

/-- ABORT_NOTICE_ARRIVAL, EARLY_RECORD_EXPIRY, NOTICE_RESEND, SILENCE_TIMEOUT and the slow notices. -/
def Obligations.AbortNoticesAndEarlyRecords : Prop :=
  (∀ (b : BayId) (g : BitVec 12) (q : BitVec 32) (code : Code) (d : BitVec 16) (s : State),
      ((s.bay b).coll g q ≠ none → ∃ s', Machine.exec (.abortNoticeArrival b g q code d) s = .next s'
        ∧ (s'.bay b).coll g q = none ∧ s'.lastCode = cDONE ∧ s'.getF Fld.LDG_STEP_STATUS_VALID = 0
        ∧ s'.getF Fld.ABR_COLL_ABORT_CNT_COUNT = (s.getF Fld.ABR_COLL_ABORT_CNT_COUNT + 1) % 2 ^ 32
        ∧ s'.getF Fld.ABR_COLL_ABORT_CODE = (if s.getF Fld.ABR_COLL_ABORT_VALID = 1 then s.getF Fld.ABR_COLL_ABORT_CODE else code.toNat)
        ∧ Safety.keepsBays s s' b)
      ∧ ((s.bay b).coll g q = none → s.fab.earlyOf b g q = none → ∃ s', Machine.exec (.abortNoticeArrival b g q code d) s = .next s'
        ∧ s'.lastCode = (if s.fab.early.length < 8192 then cDONE else cCAPACITY)
        ∧ ∃ l, s'.fab.early = (if s.fab.early.length < 8192 then
            s.fab.early ++ [{ EarlyRec.blank b g q with abort := some (code, d.toNat), since := s.now, told := l }] else s.fab.early)
        ∧ s'.bays = s.bays ∧ s'.mem = s.mem))
  ∧ (∀ (b : BayId) (g : BitVec 12) (q : BitVec 32) (s : State) (e : EarlyRec), s.fab.earlyOf b g q = some e → e.abort ≠ none →
      e.since + 10000000 ≤ s.now →
      Machine.exec (.earlyRecordExpiry b g q) s = .next { s with fab := s.fab.dropEarly b g q })
  ∧ (∀ (k : Nat) (s : State) (n : Notice), s.fab.notices[k]? = some n →
      (n.refused = false → Machine.exec (.noticeResend k) s = .next s)
      ∧ (n.refused = true → ∃ s', Machine.exec (.noticeResend k) s = .next s'
        ∧ (∀ i, s'.fab.notices[i]? = (s.fab.notices[i]?).map fun n => if i = k then { n with refused := false } else n)
        ∧ s'.regs = s.regs ∧ s'.mem = s.mem
        ∧ (devOf n.dst ≠ s.devCoord → ∃ x : Held, x.p.type = 9 ∧ x.p.dst = n.dst ∧ x.p.src = coordOf s.devCoord n.src.toNat
          ∧ x.p.payload = notePayload n.note.1 ([n.group.toNat, n.seq.toNat] ++ n.note.2) ∧ x.by_ = .here
          ∧ (s'.fab.held0 = s.fab.held0 ++ [x] ∨ s'.fab.held1 = s.fab.held1 ++ [x]))))
  ∧ (∀ (b : BayId) (g : BitVec 12) (q : BitVec 32) (r : BitVec 16) (s : State) (c : Coll), (s.bay b).coll g q = some c →
      c.joined = true → s.waitsOn b c r.toNat = true →
      ((c.heard.find? fun e => e.1 == r.toNat).map Prod.snd).getD c.opened + 2000000 ≤ s.now →
      ∃ s', Machine.exec (.silenceTimeout b g q r) s = .next s' ∧ (s'.bay b).coll g q = none
        ∧ s'.getF Fld.ABR_COLL_ABORT_CNT_COUNT = (s.getF Fld.ABR_COLL_ABORT_CNT_COUNT + 1) % 2 ^ 32
        ∧ s'.getF Fld.ABR_COLL_ABORT_CODE
          = (if s.getF Fld.ABR_COLL_ABORT_VALID = 1 then s.getF Fld.ABR_COLL_ABORT_CODE else cABORTED_GROUP.toNat))
  ∧ (∀ (b : BayId) (g : BitVec 12) (q : BitVec 32) (r : BitVec 16) (s : State) (last : Option Nat), s.slowDue b g q r.toNat = some last →
      ((∃ t, last = some t ∧ t / 100000 = s.now / 100000) → Machine.exec (.slowNoticeSend b g q r) s = .next s)
      ∧ ((s.bay b).main.status.st ≠ .fault → (s.bay b).main.status.st ≠ .stopped → (∀ t, last = some t → t / 100000 ≠ s.now / 100000) →
        Machine.exec (.slowNoticeSend b g q r) s = .next ((s.noteTo b g q (s.memberCoord g r.toNat) .slow
          [(s.rankOf g (coordOf s.devCoord b.toNat)).getD 0]).incF Fld.ABR_COLL_STATS_SLOW_TX).tickEvent))
  ∧ (∀ (b : BayId) (g : BitVec 12) (q : BitVec 32) (r : BitVec 16) (s : State), s.slowDue b g q r.toNat = none →
      Machine.exec (.slowNoticeSend b g q r) s = .next s)
  ∧ (∀ (b : BayId) (g : BitVec 12) (q : BitVec 32) (r : BitVec 16) (s : State) (c : Coll), (s.bay b).coll g q = some c →
      Machine.exec (.slowNoticeArrival b g q r) s = .next ((s.takeNote 9 b.toNat .slow [g.toNat, q.toNat, r.toNat]).setColl b { c with
        heard := (r.toNat, s.now) :: c.heard.filter fun e => e.1 != r.toNat }))

/-- TALLY_NOTICE_ARRIVAL, RELEASE_NOTICE_ARRIVAL and DONE_NOTICE_ARRIVAL. -/
def Obligations.ExpertNotices : Prop :=
  (∀ (b : BayId) (g : BitVec 12) (q : BitVec 32) (r : BitVec 16) (e : BitVec 15) (s : State) (c : Coll), (s.bay b).coll g q = some c →
      c.joined = true →
      Machine.exec (.tallyNoticeArrival b g q r e) s = .next ((((((s.takeNote 9 b.toNat .tally
          [g.toNat, q.toNat, r.toNat, e.toNat]).noticeFate .tally b g q r.toNat e.toNat true).setColl b
          { c.hear r.toNat s.now with tallies := c.tallies ++ [(r.toNat, e.toNat)] }).work b g q).answer cDONE).settled)
      ∧ Machine.exec (.releaseNoticeArrival b g q r) s = .next ((((((s.takeNote 9 b.toNat .release
          [g.toNat, q.toNat, r.toNat]).noticeFate .release b g q r.toNat 0 true).setColl b
          { c.hear r.toNat s.now with releases := c.releases ++ [r.toNat] }).work b g q).answer cDONE).settled)
      ∧ Machine.exec (.doneNoticeArrival b g q r) s = .next ((((((s.takeNote 9 b.toNat .done
          [g.toNat, q.toNat, r.toNat]).noticeFate .done b g q r.toNat 0 true).setColl b
          { c.hear r.toNat s.now with dones := c.dones ++ [r.toNat] }).work b g q).answer cDONE).settled))
  ∧ (∀ (b : BayId) (g : BitVec 12) (q : BitVec 32) (r : BitVec 16) (e : BitVec 15) (s : State), (s.bay b).coll g q = none →
      s.fab.earlyOf b g q = none → Safety.handedOver s →
      ∀ x ∈ [(Instr.tallyNoticeArrival b g q r e, { EarlyRec.blank b g q with tallies := [(r.toNat, e.toNat)] }),
          (Instr.releaseNoticeArrival b g q r, { EarlyRec.blank b g q with releases := [r.toNat] }),
          (Instr.doneNoticeArrival b g q r, { EarlyRec.blank b g q with dones := [r.toNat] })],
        ∃ s', Machine.exec x.1 s = .next s' ∧ s'.mem = s.mem ∧ s'.bays = s.bays
          ∧ s'.lastCode = (if s.fab.early.length < 7168 then cDONE else cCAPACITY)
          ∧ s'.fab.early = (if s.fab.early.length < 7168 then s.fab.early ++ [x.2] else s.fab.early)
          ∧ Safety.keepsRegs s s' [RegId.LDG_STEP_STATUS.addr])

/-- REGISTER_WRITE (R563). -/
def Obligations.RegisterWritesFollowTheirRules : Prop :=
  (∀ (p : RegPath) (r : RegId) (i j : Nat) (v : Word) (s : State), i < r.spec.n1 → j < r.spec.n2 → Safety.reaches s p r i j v →
      (p = .bar0 → (writeBy r i j v s).2 = cDONE) →
      Machine.exec (.registerWrite p (BitVec.ofNat 48 (r.addr i j)) 8 v) s = .next
        (State.settledAll { (writeBy r i j v s).1 with lastCode := (writeBy r i j v s).2 }))
  ∧ (∀ (p : RegPath) (r : RegId) (i j : Nat) (v : Word) (s : State), i < r.spec.n1 → j < r.spec.n2 → Safety.reaches s p r i j v →
      Safety.handedOver s → p ≠ .bar0 → r.readOnly = true →
      Machine.exec (.registerWrite p (BitVec.ofNat 48 (r.addr i j)) 8 v) s = .next { s with lastCode := cRANGE })
  ∧ (∀ (p : RegPath) (b : BayId) (v : Word) (s : State), Safety.reaches s p .BAY_MAIN_PC b.toNat 0 v → Safety.handedOver s →
      ∃ s', Machine.exec (.registerWrite p (BitVec.ofNat 48 (RegId.BAY_MAIN_PC.addr b.toNat)) 8 v) s = .next s' ∧ s'.lastCode = cDONE
        ∧ s'.getF (Fld.BAY_MAIN_PC_PC b.toNat) = fieldOf v 3 17
        ∧ s' = { s with regs := s'.regs, lastCode := cDONE } ∧ Safety.keepsRegs s s' [RegId.BAY_MAIN_PC.addr b.toNat])
  ∧ (∀ (p : RegPath) (a : BitVec 48) (size : Nat) (v : Word) (s : State), Safety.handedOver s → p ≠ .bar0 →
      (regAligned a.toNat size = false →
        Machine.exec (.registerWrite p a size v) s = .next { s with lastCode := cMALFORMED })
      ∧ (regAligned a.toNat size = true → (a.toNat < regBase ∨ regEnd ≤ a.toNat) →
        Machine.exec (.registerWrite p a size v) s = .next { s with lastCode := cRANGE })
      ∧ (regAligned a.toNat size = true → regBase ≤ a.toNat → a.toNat < regEnd → regLocate a.toNat = none →
        (s.checkAccess (s.pathMaster p) s.devCoord permW a.toNat size).2 = true →
        Machine.exec (.registerWrite p a size v) s = .next { s with lastCode := cDONE }))
  ∧ (∀ (p : RegPath) (r : RegId) (i j : Nat) (v : Word) (s : State), i < r.spec.n1 → j < r.spec.n2 → (r == .ABR_LEVEL && levelHole i j) = false →
      Safety.handedOver s → p ≠ .bar0 → pathMay p r (r.addr i j) v = false →
      Machine.exec (.registerWrite p (BitVec.ofNat 48 (r.addr i j)) 8 v) s = .next { s with lastCode := cACCESS_DENIED })

/-- DEBUG_APERTURE_ACCESS (R444). -/
def Obligations.DebugAperture : Prop :=
  (∀ (wr : Bool) (off : BitVec 28) (size a : Nat) (v : Word) (s : State) (b : BayId), s.barsOff = false → Safety.handedOver s → s.host.late = [] →
    a = s.getF Fld.MSC_DBG_WIN_BASE * 2 ^ 28 + off.toNat →
    (s.getF Fld.MSC_DBG_WIN_EN = 1 → regAligned a size = true → bayAddr b 0 ≤ a → a + size ≤ bayAddr b 0x100000 →
      s.clockOff = false → s.cut b = false → s.ecc1 = [] → s.ecc2 = [] →
      (s.checkAccess .host s.devCoord (if wr then permW else permR) a size).2 = true →
      Machine.exec (.debugApertureAccess wr off size v) s = .next
        (if wr then { s.setMemBytes a (leBytes size v.toNat) with lastCode := cDONE }
         else { s with lastCode := cDONE, lastData := BitVec.ofNat 64 (leNat (s.memBytes a size)) }))
    ∧ (s.getF Fld.MSC_DBG_WIN_EN = 0 → ∃ s', Machine.exec (.debugApertureAccess wr off size v) s = .next s'
      ∧ s'.lastData = BitVec.allOnes 64 ∧ s'.mem = s.mem ∧ s'.bays = s.bays
      ∧ s'.getF Fld.MSC_HOST_ERR_CNT_COUNT = (s.getF Fld.MSC_HOST_ERR_CNT_COUNT + 1) % 2 ^ 32
      ∧ (s.getF Fld.MSC_HOST_ERR_VALID = 0 → s'.getF Fld.MSC_HOST_ERR_VALID = 1 ∧ s'.getF Fld.MSC_HOST_ERR_KIND = 1
        ∧ s'.getF Fld.MSC_HOST_ERR_ADDR = a % 2 ^ 48)
      ∧ Safety.keepsRegs s s' [RegId.MSC_HOST_ERR.addr, RegId.MSC_HOST_ERR_CNT.addr, RegId.MSC_MSIX_PBA.addr]))
  ∧ ∀ (wr : Bool) (off : BitVec 28) (size : Nat) (v : Word) (s : State), s.barsOff = false → Safety.handedOver s →
      s.getF Fld.MSC_DBG_WIN_EN = 1 → s.clockOff = true → regionOf (s.getF Fld.MSC_DBG_WIN_BASE * 2 ^ 28 + off.toNat) = .bay →
      Machine.exec (.debugApertureAccess wr off size v) s
        = .next { s with host := { s.host with late := s.host.late ++ [⟨wr, s.reg RegId.MSC_DBG_WIN.addr, off.toNat, size, v⟩] } }

/-- OPT_FW_CTRL_WRITE, OPT_FW_WIN_WRITE, ENGINE_REG_ACCESS, ENGINE_EVENT, HBM1500_INSTRUCTION and HBM_TEMP_READ. -/
def Obligations.FirewallAndTestPorts : Prop :=
  (∀ (v : Word) (s : State) (e w : Fin 8), s.getF Fld.OPT_FW_CTRL_LOCK = 0 →
      (Safety.reaches s .msc .OPT_FW_CTRL 0 0 v →
        Machine.exec (.optFwCtrlWrite .msc v) s = .next { s.plainWrite .OPT_FW_CTRL 0 0 v with lastCode := cDONE })
      ∧ (Safety.reaches s .msc .OPT_FW_WIN e.val w.val v →
        Machine.exec (.optFwWinWrite .msc e w v) s = .next { s.plainWrite .OPT_FW_WIN e.val w.val v with lastCode := cDONE }))
  ∧ (∀ (p : RegPath) (v : Word) (s : State) (e w : Fin 8), p ≠ .msc → p ≠ .bar0 →
      Machine.exec (.optFwCtrlWrite p v) s = .next { s with lastCode := cACCESS_DENIED }
      ∧ Machine.exec (.optFwWinWrite p e w v) s = .next { s with lastCode := cACCESS_DENIED })
  ∧ (∀ (who : EngineAgent) (e : Fin 8) (wr : Bool) (off : BitVec 16) (len : Nat) (data : List Byte) (s : State),
      ((if who = .engine then 0 < len ∧ s.windowOk e wr off.toNat len = true else off.toNat + len ≤ 65536) →
        (wr = true → ∃ s', Machine.exec (.engineRegAccess ⟨who, e⟩ wr off len data) s = .next s' ∧ s'.lastCode = cDONE ∧ s'.regs = s.regs
          ∧ s'.mem = s.mem ∧ ∀ e' o, o < 65536 → s'.engByte e' o =
            if e' = e.val ∧ off.toNat ≤ o ∧ o < off.toNat + min len data.length then data.getD (o - off.toNat) 0 else s.engByte e' o)
        ∧ (wr = false → Machine.exec (.engineRegAccess ⟨who, e⟩ wr off len data) s = .next { s with
            lastCode := cDONE, lastData := BitVec.ofNat 64 (leNat ((List.range len).map fun i => s.engByte e (off.toNat + i))) }))
      ∧ ((len = 0 ∨ s.windowOk e wr off.toNat len = false) →
        Machine.exec (.engineRegAccess ⟨.engine, e⟩ wr off len data) s = .next
          { s.incF (Fld.OPT_FW_STATUS_REFUSE_CNT e) with lastCode := cACCESS_DENIED }))
  ∧ (∀ (e : Fin 8) (ev : Word) (s : State), (s.evqOf e).length < 64 →
      ∃ s', Machine.exec (.engineEvent e ev) s = .next s' ∧ s'.evqOf e = s.evqOf e ++ [ev] ∧ (∀ d, d ≠ e.val → s'.evqOf d = s.evqOf d)
        ∧ s' = { s with opt := { s.opt with evq := s'.opt.evq } })
  ∧ (∀ (p : RegPath) (k : Fin 8) (w : WrapperInstr) (s : State),
      Machine.exec (.hbm1500Instruction p k w) s = .next { s with
        lastCode := if p = .msc ∧ (w ≠ .other ∨ (s.getF Fld.MSC_HBM1500_PERMIT_STACK).testBit k = true) then cDONE else cACCESS_DENIED })
  ∧ (∀ (k : Fin 8) (t : Nat) (s : State), ∃ s', Machine.exec (.hbmTempRead k (some t)) s = .next s'
      ∧ s'.getF (Fld.HBM_STACK_TEMP k) = min t 255 ∧ s'.getF (Fld.HBM_STACK_RATE k) = refreshRate (s.getF (Fld.HBM_STACK_RATE k)) t
      ∧ Safety.keepsRegs s s' [RegId.HBM_STACK.addr k, RegId.LDG_STEP_STATUS.addr] ∧ s'.mem = s.mem)
  ∧ (∀ (k : Fin 8) (s : State), smapGet (fun _ => 0) s.tpc.hbmFails k = 2 → ∃ s', Machine.exec (.hbmTempRead k none) s = .next s'
      ∧ s'.getF (Fld.HBM_STACK_TEMP k) = 96
      ∧ s'.getF Fld.TPC_SENSOR_FAULT_HBM = (s.getF Fld.TPC_SENSOR_FAULT_HBM + 1) % 2 ^ 16)

/-- FLIT_REPLAY, FRAME_LANDING, PACKET_FORWARD, CREDIT_RETURN, LEAD_PAUSE_EXPIRY, NAK_ARRIVAL and CONTROL_FRAME_TICK. -/
def Obligations.LinksCarryFrames : Prop :=
  (∀ (l : DieLink) (s : State), Safety.handedOver s → smapGet (fun _ => 0) s.flits (linkKey l) < 16 →
      (∃ s', Machine.exec (.flitReplay l true) s = .next s' ∧ smapGet (fun _ => 0) s'.flits (linkKey l) = 0
        ∧ s'.getF Fld.SIL_LINK_STATUS_REPLAYS = (s.getF Fld.SIL_LINK_STATUS_REPLAYS + 1) % 2 ^ 32 ∧ s'.mem = s.mem ∧ s'.bays = s.bays
        ∧ Safety.keepsRegs s s' [RegId.SIL_LINK_STATUS.addr, RegId.LDG_STEP_STATUS.addr])
      ∧ (smapGet (fun _ => 0) s.flits (linkKey l) < 15 → ∃ s', Machine.exec (.flitReplay l false) s = .next s'
        ∧ smapGet (fun _ => 0) s'.flits (linkKey l) = smapGet (fun _ => 0) s.flits (linkKey l) + 1
        ∧ s'.getF Fld.SIL_LINK_STATUS_REPLAYS = (s.getF Fld.SIL_LINK_STATUS_REPLAYS + 1) % 2 ^ 32))
  ∧ (∀ (i : Fin 4) (s : State), Safety.handedOver s → smapGet (fun _ => 0) s.flits i.val = 15 →
      ∃ s', Machine.exec (.flitReplay (.sill i) false) s = .next s'
        ∧ s'.getF Fld.SIL_LINK_STATUS_SILL_DOWN = s.getF Fld.SIL_LINK_STATUS_SILL_DOWN ||| 2 ^ i.val ∧ s'.mem = s.mem ∧ s'.bays = s.bays)
  ∧ (∀ (p : Fin 16) (ln : Bool) (fr : Frame) (f : LinkHdr) (q : Packet) (corr : Nat) (s : State), f = linkHdr fr → fr.packet = some q →
      (s.getF Fld.OPT_FW_CTRL_ENG_EN).testBit (p.val / 2) = true → s.portUp p = true → s.landingOk p ln f = true →
      f.lseq = ((s.port p).lane f.express).rx → q.type.toNat < 13 →
      ∃ s', Machine.exec (.frameLanding ⟨p, ln⟩ fr corr 0) s = .next s'
        ∧ s'.heldOf (p.val / 8) = s.heldOf (p.val / 8) ++ [{
            p := q, by_ := .rung (f.rung % 4), space := some (p.val, f.shared, f.vc, f.rung, cellsOf f.flen)
            first := false }]
        ∧ ((s'.port p).lane f.express).rx = ((s.port p).lane f.express).rx + 1 ∧ s'.mem = s.mem ∧ s'.bays = s.bays
        ∧ Safety.keepsRegs s s' [RegId.OPT_PORT_FEC.addr p, RegId.LDG_STEP_STATUS.addr])
  ∧ (∀ (h : Fin 2) (s : State) (x : Held) (rest : List Held), Safety.handedOver s → s.fab.stalled = [] → s.replayPort h = none →
      s.heldOf h = x :: rest → x.space = none → devOf x.p.dst = s.devCoord →
      ∃ s', Machine.exec (.packetForward h) s = .next s' ∧ s'.heldOf h = rest ∧ s'.fab.arrived = s.fab.arrived ++
          [{ x.p with ce := if 1024 * s.getF Fld.ABR_E2E_CTRL_CREASE_TH < s.queueBytes h then 1 else x.p.ce }]
        ∧ s'.regs = s.regs ∧ s'.mem = s.mem ∧ s'.bays = s.bays)
  ∧ (∀ (h : Fin 2) (s : State) (p : Nat) (q : BitVec 16) (rest : List (BitVec 16)), s.replayPort h = some p →
      (s.port p).bulk.todo = q :: rest →
      ∃ s', Machine.exec (.packetForward h) s = .next s' ∧ (s'.port p).bulk.todo = rest ∧ (s'.port p).bulk.replay = (s.port p).bulk.replay
        ∧ s'.heldOf h = s.heldOf h
        ∧ ∀ t, (s.port p).bulk.replay.find? (fun t => t.lseq == q) = some t → (s'.port p).wire = some (s.frameOf p t))
  ∧ (∀ (p : Fin 16) (c : BitVec 32) (s : State), s.portUp p = true →
      Machine.exec (.creditReturn p c) s = .next
        (s.setPort p (((s.port p).credit (c.extractLsb' 0 16)).credit (c.extractLsb' 16 16))))
  ∧ (∀ (p : Fin 16) (s : State),
      Machine.exec (.leadPauseExpiry p) s = .next (s.setPort p { s.port p with leadPaused := false }))
  ∧ (∀ (p : Fin 16) (ex : Bool) (n : BitVec 16) (s : State) (t : TxFrame) (l : LinkLane), s.portUp p = true →
      l = ((s.port p).lane ex).acknowledge (n - 1) → l.replay.head? = some t → t.lseq = n → l.tries < 16 →
      ∃ s', Machine.exec (.nakArrival p ex n) s = .next s'
        ∧ s'.getF (Fld.ABR_PORT_CNT_REPLAYS p) = (s.getF (Fld.ABR_PORT_CNT_REPLAYS p) + 1) % 2 ^ 32
        ∧ (s'.port p).lane ex = { l with tries := l.tries + 1, todo := l.replay.map TxFrame.lseq } ∧ (s'.port p).leadPaused = ((s.port p).leadPaused || t.lead)
        ∧ s'.mem = s.mem ∧ s'.bays = s.bays)
  ∧ (∀ (p : Fin 16) (s : State), s.portUp p = true →
      ∃ s' fr, Machine.exec (.controlFrameTick p) s = .next s' ∧ fr.packet = none
        ∧ (if (linkHdr fr).express then (s'.port p).ctlDue = some fr else (s'.port p).ctl = some fr ∧ (s'.port p).wire = some fr)
        ∧ (linkHdr fr).lseq = ((s.port p).lane (linkHdr fr).express).nak.getD 0 ∧ ((s'.port p).lane (linkHdr fr).express).nak = none
        ∧ (linkHdr fr).control = true ∧ (linkHdr fr).lack = ((s.port p).lane (linkHdr fr).express).rx - 1
        ∧ (s'.port p).owed = (s.port p).owed.drop 2 ∧ s'.regs = s.regs ∧ s'.mem = s.mem ∧ s'.bays = s.bays)

/-- PORT_UP, PORT_DOWN, PORT_SILENCE_TIMEOUT, LOSS_OF_SIGNAL and ABR_LEVEL_WRITE. -/
def Obligations.PortsUpAndDown : Prop :=
  (∀ (p : Fin 16) (d : DevCoord) (q : BitVec 4) (rtt : Nat) (s : State), s.getF Fld.ABR_CTRL_FAB_EN = 1 → s.portUp p = false →
      s.getF (Fld.ABR_PORT_STATUS_DOWN p) = 0 → s.onRung p = true → s.getF (Fld.OPT_ENG_STATUS_EXP_LOST (p.val / 2)) = 0 →
      (rtt ≤ 5900 → s.miswired p d q.toNat = false →
        ∃ s', Machine.exec (.portUp p d q rtt) s = .next s' ∧ s'.getF (Fld.ABR_PORT_STATUS_UP p) = 1
          ∧ s'.getF (Fld.ABR_PORT_STATUS_PEER_DEV p) = d.toNat ∧ s'.getF (Fld.ABR_PORT_STATUS_PEER_PORT p) = q.toNat
          ∧ (Fld.ABR_PORT_STATUS_LEVEL p).of (s'.regView .ABR_PORT_STATUS p 0) = s.levelOf p ∧ s'.getF (Fld.ABR_PORT_STATUS_CAUSE p) = 0
          ∧ (s'.port p).wasUp = true ∧ s'.mem = s.mem ∧ s'.bays = s.bays)
      ∧ (5900 < rtt → Machine.exec (.portUp p d q rtt) s = .next
          (s.setF (if p.val % 2 = 0 then Fld.OPT_ENG_STATUS_TOO_LONG0 (p.val / 2) else Fld.OPT_ENG_STATUS_TOO_LONG1 (p.val / 2)) 1)))
  ∧ (∀ (p : Fin 16) (s : State), s.portUp p = true →
      ∀ x ∈ [(Instr.portDown p .lossOfSignal, 1), (.portDown p .replayLimit, 2), (.portDown p .silence, 3), (.portDown p .miswired, 4),
          (.portSilenceTimeout p, 3), (.lossOfSignal p, 1)],
        ∃ s', Machine.exec x.1 s = .next s' ∧ s'.getF (Fld.ABR_PORT_STATUS_UP p) = 0 ∧ s'.getF (Fld.ABR_PORT_STATUS_DOWN p) = 1
          ∧ s'.getF (Fld.ABR_PORT_STATUS_CAUSE p) = x.2
          ∧ s'.heldOf (p.val / 8) = ((s.port p).bulk.replay ++ (s.port p).express.replay).map TxFrame.heldAgain ++ s.heldOf (p.val / 8)
          ∧ s'.mem = s.mem ∧ s'.bays = s.bays
          ∧ (∀ d, s.firstAffected p = some d → s.getF Fld.ABR_FAB_ERR_VALID = 0 →
            s'.getF Fld.ABR_FAB_ERR_VALID = 1 ∧ s'.getF Fld.ABR_FAB_ERR_CODE = cLINK_LOST.toNat ∧ s'.getF Fld.ABR_FAB_ERR_DEST_DEV = d.toNat)
          ∧ Safety.keepsRegs s s' ([RegId.ABR_PORT_STATUS.addr p, RegId.LDG_STEP_STATUS.addr, RegId.ABR_FAB_ERR.addr,
              RegId.OPT_ENG_STATUS.addr (p.val / 2)] ++ (List.range 16).map (fun w => RegId.OPT_LANE.addr p w)
              ++ (List.range 37).map fun l => RegId.OPT_LASER.addr (p.val / 2) l))
  ∧ (∀ (p : RegPath) (l : Fin 3) (k : Fin 64) (v : Word) (s : State), Safety.reaches s p .ABR_LEVEL (l.val + 1) k.val v →
      s.devState = stREADY → fieldOf v 32 3 ≠ levelField 0 s.devCoord →
      ∃ s', Machine.exec (.abrLevelWrite p l k v) s = .next s' ∧ s'.lastCode = cDONE
        ∧ s'.reg (RegId.ABR_LEVEL.addr (l.val + 1) k.val) = RegId.ABR_LEVEL.written (s.reg (RegId.ABR_LEVEL.addr (l.val + 1) k.val)) v
        ∧ s'.mem = s.mem ∧ s'.bays = s.bays)
  ∧ (∀ (p : RegPath) (l : Fin 3) (k : Fin 64) (v : Word) (s : State), p ≠ .bar0 → Safety.reaches s p .ABR_LEVEL (l.val + 1) k.val v →
      s.devState ≠ stREADY → s.regChanges .ABR_LEVEL (l.val + 1) k.val v = true →
      Machine.exec (.abrLevelWrite p l k v) s = .next { s with lastCode := cSTATE_REJECT })
  ∧ (∀ (p : RegPath) (l : Fin 3) (k : Fin 64) (v : Word) (s : State), p ≠ .bar0 → levelHole (l.val + 1) k.val = true →
      (s.checkAccess (s.pathMaster p) s.devCoord permW (RegId.ABR_LEVEL.addr (l.val + 1) k.val) 8).2 = true →
      Machine.exec (.abrLevelWrite p l k v) s = .next { s with lastCode := cDONE })

/-- HBM_REQUEST (R246). -/
def Obligations.MemoryRequestsAreServed : Prop :=
  ∀ (s : State) (a : BitVec 48) (n : Nat), 0 < n → a.toNat % 32 + n ≤ 32 → regionOf a.toNat = .hbm → s.bandLive (bandOf a.toNat) = true →
    s.cachedAt a.toNat = false → s.hbm.selfRefresh = [] → s.hbm.open_ = [] → Safety.handedOver s →
    (s.hbm.retrains = [] → ∀ x ∈ [(HbmSource.hostDma, 1), (.peer, 2), (.ledger, 3)],
      (s.trainOf (s.placeOf (a.toNat / 32 * 32)).1 ≠ .dead → a.toNat / 32 ∉ s.hbmBad →
        Machine.exec (.hbmRequest x.1 a (.read n) []) s = .next { s with
          lastCode := cDONE, lastData := BitVec.ofNat 64 (leNat ((s.memBytes a.toNat n).take 8)) }
        ∧ ∀ bs : List Byte, bs.length = n → n < 32 →
          (x.1 ≠ .ledger → s.inReserve a.toNat n = true →
            Machine.exec (.hbmRequest x.1 a (.write bs) []) s = .next { s with lastCode := cACCESS_DENIED })
          ∧ (x.1 = .ledger ∨ s.inReserve a.toNat n = false → ∃ s', Machine.exec (.hbmRequest x.1 a (.write bs) []) s = .next s'
          ∧ s'.lastCode = cDONE ∧ (∀ k, k < n → s'.memByte (a.toNat + k) = bs.getD k 0) ∧ Safety.keepsMem s s' a.toNat n
          ∧ s'.regs = s.regs ∧ s'.bays = s.bays))
      ∧ (a.toNat / 32 ∈ s.hbmBad → s.getF Fld.HBM_CAP_FOLDS < 16 → ∃ s', Machine.exec (.hbmRequest x.1 a (.read n) []) s = .next s'
        ∧ s'.lastCode = cMEM_UNCORRECTABLE ∧ s'.getF Fld.HBM_ECC_UNCORR_CNT = (s.getF Fld.HBM_ECC_UNCORR_CNT + 1) % 2 ^ 32
        ∧ (s.getF Fld.HBM_UE_LOG_VALID = 0 → s'.getF Fld.HBM_UE_LOG_VALID = 1 ∧ s'.getF Fld.HBM_UE_LOG_SRC = x.2
          ∧ s'.getF Fld.HBM_UE_LOG_PC = (s.placeOf (a.toNat / 32 * 32)).1 % 2 ^ 8
          ∧ s'.getF Fld.HBM_UE_LOG_ADDR = a.toNat / 32 * 32)
        ∧ s'.getF Fld.LDG_STEP_STATUS_VALID = 0 ∧ s'.mem = s.mem ∧ s'.bays = s.bays))
    ∧ (∀ (b : BayId) (slot : BitVec 8) (x : Slot), s.hbm.retrains = [] → s.clockOff = false → s.cut b = false →
      (s.bay b).slot slot.toNat = some x → x.dev = s.devCoord → x.forColl = none → x.kind = .get → x.fail = none → a.toNat = fieldOf x.dest 0 48 + x.moved →
      n = min 256 (x.len - x.moved) → s.partReady b x (.get a.toNat n) = true →
      (s.checkAccess (.group (s.bayGroup b)) s.devCoord permR a.toNat n).2 = true →
      s.trainOf (s.placeOf (a.toNat / 32 * 32)).1 ≠ .dead → a.toNat / 32 ∉ s.hbmBad →
      Machine.exec (.hbmRequest (.bay b slot) a (.read n) []) s = .next (s.setSlot b slot.toNat
        (some { x with moved := x.moved + n, acks := x.acks ++ [⟨cDONE, n, s.memBytes a.toNat n⟩] })))
    ∧ (∀ (src : HbmSource) (r : Retrain) (errs : List SymErrs), s.hbm.retrains = [r] → r.pc = (s.placeOf a.toNat).1 → s.hbm.queue = [] →
      Machine.exec (.hbmRequest src a (.read n) errs) s
        = .next { s with hbm := { s.hbm with queue := [⟨r.pc, false, src, a.toNat, .read n, errs, 0⟩] } })
    ∧ (∀ (src : HbmSource) (x : BitVec 48), src ∈ [.hostDma, .peer, .ledger] → regionOf x.toNat = .none →
      Machine.exec (.hbmRequest src x (.read n) []) s = .next { s with lastCode := cRANGE, lastData := 0 })

/-- ECC_WRITEBACK, PATROL_SCRUB, SELF_REFRESH_ENTRY and BANK_REFRESH. -/
def Obligations.ScrubWritebackAndRefresh : Prop :=
  (∀ (a : BitVec 48) (e : Nat × List Byte) (s : State), s.hbm.writeback.find? (fun e => e.1 == a.toNat / 32) = some e →
      s.hbm.line (a.toNat / 32 / 8) = none → e.2.length = 32 →
      ∃ s', Machine.exec (.eccWriteback a) s = .next s' ∧ (∀ k, k < 32 → s'.memByte (a.toNat / 32 * 32 + k) = e.2.getD k 0)
        ∧ Safety.keepsMem s s' (a.toNat / 32 * 32) 32 ∧ s'.hbm.writeback = s.hbm.writeback.filter (fun e => e.1 != a.toNat / 32)
        ∧ s'.regs = s.regs ∧ s'.bays = s.bays)
  ∧ (∀ (a : BitVec 48) (errs : SymErrs) (s : State) (u pc : Nat), u = a.toNat / 32 → pc = (s.placeOf (u * 32)).1 → regionOf (u * 32) = .hbm →
      s.bandLive (bandOf (u * 32)) = true → s.devState ≠ stHOLD → s.hbm.retrains = [] → s.hbm.open_ = [] → s.hbm.scrub = none →
      s.getF Fld.HBM_SCRUB_INTERVAL ≠ 0 → s.trainOf pc ≠ .dead → u ∉ s.hbmBad → Safety.handedOver s →
      Machine.exec (.patrolScrub a []) s = .next s
      ∧ (∀ c, errs ≠ [] → rsDecode errs = some (some c) → ∃ s', Machine.exec (.patrolScrub a errs) s = .next s'
        ∧ s'.getF Fld.HBM_ECC_CORR_CNT = (s.getF Fld.HBM_ECC_CORR_CNT + 1) % 2 ^ 32
        ∧ s'.getF (Fld.HBM_STACK_CORR_CNT (pc % 8)) = (s.getF (Fld.HBM_STACK_CORR_CNT (pc % 8)) + 1) % 2 ^ 32
        ∧ s'.getF Fld.LDG_STEP_STATUS_TICK_CLEAN = 0
        ∧ s'.hbm.writeback.head? = some (u, (List.range 32).map fun k => s.memByte (u * 32 + k) ^^^ residualByte errs (some c) k)
        ∧ s'.mem = s.mem ∧ s'.bays = s.bays))
  ∧ (∀ (k : Fin 8) (s : State), s.devState = stHOLD → k.val ∉ s.hbm.selfRefresh →
      Machine.exec (.selfRefreshEntry k) s = .next { s with hbm := { s.hbm with selfRefresh := s.hbm.selfRefresh ++ [k.val] } })
  ∧ (∀ (pc : BitVec 8) (bank : Nat) (s : State), Machine.exec (.bankRefresh pc bank) s = .next s)

/-- RETRAIN_START, RETRAIN_DONE, FOLD_START and FOLD_PIECE_COPY. -/
def Obligations.RetrainingAndFolding : Prop :=
  (∀ (pc : BitVec 8) (cause : RetrainCause) (s : State), (s.mustRetrain pc.toNat cause = false → Machine.exec (.retrainStart pc cause) s = .next s)
      ∧ (s.mustRetrain pc.toNat cause = true → (s.trainOf pc.toNat ≠ .dead ∨ cause = .host) → (∀ r ∈ s.hbm.retrains, r.pc % 8 ≠ pc.toNat % 8) →
      ∃ s', Machine.exec (.retrainStart pc cause) s = .next s'
        ∧ s'.hbm = { s.hbm with
            retrains := s.hbm.retrains ++ [⟨pc.toNat, cause, 0, .full⟩], fixed := s.hbm.fixed.filter fun e => e.1 != pc.toNat }
        ∧ s'.getF (Fld.HBM_STACK_RETRAIN_CNT (pc.toNat % 8)) = (s.getF (Fld.HBM_STACK_RETRAIN_CNT (pc.toNat % 8)) + 1) % 2 ^ 16
        ∧ s'.mem = s.mem ∧ s'.bays = s.bays
        ∧ Safety.keepsRegs s s' [RegId.HBM_STACK.addr (pc.toNat % 8), RegId.LDG_STEP_STATUS.addr]))
  ∧ (∀ (pc : BitVec 8) (r : Retrain) (s : State), s.hbm.retrains.find? (fun r => r.pc == pc.toNat) = some r →
      s.retrainCmd pc.toNat = none → s.hbm.queue = [] → s.host.late = [] → Safety.handedOver s →
      ((r.rate = .full ∨ s.getF Fld.HBM_CAP_FOLDS < 16) → ∃ s', Machine.exec (.retrainDone pc .ok) s = .next s' ∧ s'.trainOf pc.toNat = r.rate
        ∧ s'.hbm.retrains = s.hbm.retrains.filter (fun q => q.pc != pc.toNat) ∧ (r.rate = .full → s'.regs = s.regs) ∧ s'.mem = s.mem)
      ∧ (r.rate ≠ .quarter → r.rate ≠ .dead → ∃ s', Machine.exec (.retrainDone pc .failed) s = .next s'
        ∧ s'.hbm.retrains.find? (fun r => r.pc == pc.toNat) = some { r with
            tries := r.tries + 1, rate := if r.rate = .full then (if r.tries < 2 then .full else .half) else .quarter }
        ∧ s'.getF (Fld.HBM_STACK_RETRAIN_CNT (pc.toNat % 8)) = (s.getF (Fld.HBM_STACK_RETRAIN_CNT (pc.toNat % 8)) + 1) % 2 ^ 16
        ∧ s'.mem = s.mem))
  ∧ (∀ (pc : BitVec 8) (s : State) (top : Nat), s.hbm.fold = none → s.hbm.waiting.head? = some pc.toNat →
      s.getF Fld.HBM_FOLD_CTRL_AUTO = 1 → s.getF Fld.HBM_CAP_FOLDS < 16 → Safety.handedOver s → memWf s.mem = true →
      top = s.getF Fld.HBM_CAP_LIVE_BANDS - 1 →
      ∃ s', Machine.exec (.foldStart pc) s = .next s' ∧ s'.getF Fld.HBM_CAP_LIVE_BANDS = top
        ∧ s'.getF Fld.HBM_CAP_FOLDS = s.getF Fld.HBM_CAP_FOLDS + 1 ∧ s'.getF Fld.HBM_CAP_LIVE_PC = s.getF Fld.HBM_CAP_LIVE_PC - 1
        ∧ s'.getF Fld.HBM_FOLD_PROG_STATE = 1 ∧ s'.getF Fld.HBM_FOLD_PROG_PC = pc.toNat
        ∧ s'.hbm.fold = some ⟨pc.toNat, ({ s with hbm := { s.hbm with waiting := s.hbm.waiting.filter fun p => p != pc.toNat } }
            : State).foldMoves pc.toNat top, 0⟩
        ∧ (∀ x, s'.memByte x = if regionOf x = .hbm ∧ bandOf x = top then memDefault x else s.memByte x) ∧ s'.bays = s.bays)
  ∧ (∀ (s : State) (j : FoldJob) (e : SliceEntry), s.hbm.fold = some j → j.moves[j.copied / 256]? = some e → s.devState ≠ stHOLD →
      s.hbm.retrains = [] → s.hbm.lines = [] → s.hbmBad = [] → s.trainOf j.pc ≠ .dead → s.running 0x31 = none →
      (j.copied + 1 ≠ 256 * j.moves.length → ∃ s', Machine.exec (.foldPieceCopy []) s = .next s'
        ∧ s'.hbm.fold = some { j with copied := j.copied + 1 } ∧ s'.getF Fld.HBM_FOLD_PROG_POSITION = (j.copied + 1) % 2 ^ 32
        ∧ s'.mem = s.mem ∧ s'.bays = s.bays ∧ Safety.keepsRegs s s' [RegId.HBM_FOLD_PROG.addr])
      ∧ (j.copied + 1 = 256 * j.moves.length → ∃ s', Machine.exec (.foldPieceCopy []) s = .next s'
        ∧ s'.hbm.fold = none ∧ s'.getF Fld.HBM_FOLD_PROG_STATE = 2 ∧ (∀ m ∈ j.moves, m ∈ s'.hbm.slices) ∧ s'.mem = s.mem ∧ s'.bays = s.bays))

/-- LLS_SEG_WRITE, HBM_BAND_WRITE and LLS_CHANGE_DONE. -/
def Obligations.SegmentsAndBandsChange : Prop :=
  (∀ (p : RegPath) (j : Fin 64) (v : Word) (s : State), Safety.reaches s p .LLS_SEG j.val 0 v →
      s.devState = stREADY → s.getF (Fld.LLS_SEG_BUSY j.val) = 0 →
      (fieldOf v 0 1 = s.getF (Fld.LLS_SEG_MODE j.val) → Machine.exec (.llsSegWrite p j v) s = .next { s with lastCode := cDONE })
      ∧ (fieldOf v 0 1 ≠ s.getF (Fld.LLS_SEG_MODE j.val) → memWf s.mem = true → ∃ s', Machine.exec (.llsSegWrite p j v) s = .next s'
        ∧ s'.lastCode = cDONE ∧ s'.getF (Fld.LLS_SEG_MODE j.val) = fieldOf v 0 1 ∧ s'.getF (Fld.LLS_SEG_BUSY j.val) = 1
        ∧ (∀ x, s'.memByte x = if llsBase + j.val * 0x800000 ≤ x ∧ x < llsBase + (j.val + 1) * 0x800000 then memDefault x else s.memByte x)
        ∧ s'.bays = s.bays))
  ∧ (∀ (p : RegPath) (b : Fin 256) (v : Word) (s : State), Safety.reaches s p .HBM_BAND b.val 0 v →
      s.devState = stREADY → s.getF (Fld.HBM_BAND_BUSY b.val) = 0 →
      ∃ s', Machine.exec (.hbmBandWrite p b v) s = .next s' ∧ s'.lastCode = cDONE
        ∧ s'.getF (Fld.HBM_BAND_MODE b.val) = fieldOf v 0 1 ∧ s'.getF (Fld.HBM_BAND_CACHE b.val) = fieldOf v 1 1
        ∧ s'.getF (Fld.HBM_BAND_BUSY b.val) = (if fieldOf v 0 1 ≠ s.getF (Fld.HBM_BAND_MODE b.val)
            ∨ fieldOf v 1 1 ≠ s.getF (Fld.HBM_BAND_CACHE b.val) then 1 else 0)
        ∧ (fieldOf v 0 1 ≠ s.getF (Fld.HBM_BAND_MODE b.val) → ∃ d, s'.hbm.open_.head? = some (b.val, d))
        ∧ s'.mem = s.mem ∧ s'.bays = s.bays)
  ∧ (∀ (p : RegPath) (j : Fin 64) (b : Fin 256) (v : Word) (s : State), p ≠ .bar0 → s.devState ≠ stREADY →
      (Safety.reaches s p .LLS_SEG j.val 0 v → s.regChanges .LLS_SEG j.val 0 v = true →
        Machine.exec (.llsSegWrite p j v) s = .next { s with lastCode := cSTATE_REJECT })
      ∧ (Safety.reaches s p .HBM_BAND b.val 0 v → s.regChanges .HBM_BAND b.val 0 v = true →
        Machine.exec (.hbmBandWrite p b v) s = .next { s with lastCode := cSTATE_REJECT }))
  ∧ (∀ (j : Fin 64) (b : Fin 256) (s : State),
      Machine.exec (.llsChangeDone (.seg j)) s = .next (s.setF (Fld.LLS_SEG_BUSY j.val) 0)
      ∧ Machine.exec (.llsChangeDone (.band b)) s = .next (s.setF (Fld.HBM_BAND_BUSY b.val) 0))

/-- SEQUENCED_PACKET_ARRIVAL, ACK_ARRIVAL, RTO_EXPIRY, PAIR_BREAK_TIMEOUT, PAIR_HOLDOFF_EXPIRY and UNREACHABLE_NOTICE_ARRIVAL. -/
def Obligations.SequencedPackets : Prop :=
  (∀ (p : Packet) (s : State) (x : PairDst) (h : Nat), p.type = 0 → devOf p.dst = s.devCoord → s.fab.dst (devOf p.src) = some x →
      x.pinc = p.pinc → Safety.handedOver s → h = s.headerFor s.devCoord (devOf p.src) →
      (p.seq = x.expect → x.ahead = [] → s.fab.amoWait = [] → s.served p.addr.toNat p.payload.length = true →
        (s.ecc1 = [] → s.ecc2 = [] → p.payload ≠ [] → bayAddr 0 0 ≤ p.addr.toNat → p.addr.toNat + p.payload.length ≤ bayAddr 1023 0x100000 →
          s.inPeerSlot p.addr.toNat p.payload.length = false → s.cutRange p.addr.toNat p.payload.length = false → s.refusal p permW p.payload.length = (s, cDONE) →
          ∃ s' y, Machine.exec (.sequencedPacketArrival p) s = .next s' ∧ s' = { s with mem := s'.mem, fab := s'.fab }
            ∧ (∀ k, k < p.payload.length → s'.memByte (p.addr.toNat + k) = p.payload.getD k 0)
            ∧ Safety.keepsMem s s' p.addr.toNat p.payload.length
            ∧ s'.fab.dst (devOf p.src) = some { x with expect := p.seq + 1, last := s.now }
            ∧ s'.heldOf h = s.heldOf h ++ [y] ∧ y.p.type = 5 ∧ y.p.dst = p.src ∧ y.p.ackSeq = p.seq ∧ y.p.status = cDONE
            ∧ y.p.pinc = x.pinc ∧ y.p.ece = p.ce ∧ y.space = none ∧ s'.fab.arrived = s.fab.arrived.erase p)
        ∧ (s.devState ≠ stHELD → s.ledgerPacket p p.payload.length = false → p.epoch ≠ BitVec.ofNat 32 (s.getF Fld.ABR_EPOCH_CURRENT) →
          ∃ s' y, Machine.exec (.sequencedPacketArrival p) s = .next s' ∧ s' = { s with fab := s'.fab }
            ∧ s'.fab.dst (devOf p.src) = some { x with expect := p.seq + 1, last := s.now }
            ∧ s'.heldOf h = s.heldOf h ++ [y] ∧ y.p.type = 5 ∧ y.p.ackSeq = p.seq ∧ y.p.status = cEPOCH_STALE))
      ∧ (p.seq ≠ x.expect → seqCovered p.seq (x.expect - 1) = true →
        ∃ s' y, Machine.exec (.sequencedPacketArrival p) s = .next s' ∧ s'.mem = s.mem ∧ s'.fab.dsts = s.fab.dsts
          ∧ s'.heldOf h = s.heldOf h ++ [y] ∧ y.p.type = 5 ∧ y.p.ackSeq = x.expect - 1 ∧ y.p.status = cDONE
          ∧ s'.getF Fld.LDG_STEP_STATUS_TICK_CLEAN = 0 ∧ Safety.keepsRegs s s' [RegId.LDG_STEP_STATUS.addr])
      ∧ (p.seq ≠ x.expect → seqCovered p.seq (x.expect - 1) = false → x.ahead.length < 16 → (∀ q ∈ x.ahead, q.seq ≠ p.seq) →
        ∃ s', Machine.exec (.sequencedPacketArrival p) s = .next s' ∧ s' = { s with fab := s'.fab }
          ∧ s'.fab.dst (devOf p.src) = some { x with ahead := x.ahead ++ [p], last := s.now }
          ∧ s'.fab.held0 = s.fab.held0 ∧ s'.fab.held1 = s.fab.held1))
  ∧ (∀ (p : Packet) (s : State) (x : PairSrc), p.type = 5 → devOf p.dst = s.devCoord → s.fab.src (devOf p.src) = some x → x.broken = false →
      x.pinc = p.pinc → p.status = cDONE → x.window ≤ 128 → x.waiting = [] → s.fab.stalled = [] → Safety.handedOver s →
      (∃ e ∈ x.unacked, seqCovered e.1 p.ackSeq = true) →
      (∀ e ∈ x.unacked, seqCovered e.1 p.ackSeq = true → ∃ b g q rank idx, e.2.org = .chunk b g q rank idx false) →
      ∃ s' y, Machine.exec (.ackArrival p) s = .next s' ∧ s'.fab.src (devOf p.src) = some y ∧ s'.mem = s.mem ∧ s'.bays = s.bays
        ∧ y.unacked = x.unacked.filter (fun e => !seqCovered e.1 p.ackSeq) ∧ y.next = x.next ∧ y.broken = false ∧ y.last = s.now
        ∧ (p.ece = 0 → s'.regs = s.regs ∧ y.window =
            if seqCovered x.roundEnd p.ackSeq = true ∧ x.echoed = false then min 128 (x.window + 1) else x.window)
        ∧ (p.ece = 1 → x.echoed = false → y.window = max 8 (x.window / 2)
            ∧ s'.getF Fld.ABR_E2E_STATS_ECHOES = (s.getF Fld.ABR_E2E_STATS_ECHOES + 1) % 2 ^ 32
            ∧ Safety.keepsRegs s s' [RegId.ABR_E2E_STATS.addr, RegId.LDG_STEP_STATUS.addr]))
  ∧ (∀ (d : DevCoord) (s : State) (x : PairSrc) (q : BitVec 16) (r : Req) (data : List Byte), s.fab.src d = some x → x.unacked = [(q, r)] →
      s.reqWaits r = false → s.payloadOf r = (s, cDONE, data) →
      Machine.exec (.rtoExpiry d) s = .next ((s.tellChunk r).inject (s.packetOf x r q (q == 0 && x.unheard) data)).tickEvent)
  ∧ (∀ (d : DevCoord) (s : State) (x : PairSrc), s.fab.src d = some x → Safety.handedOver s → s.openColls = [] → s.fab.stalled = [] →
      (x.broken = true → ∃ s', Machine.exec (.unreachableNoticeArrival d) s = .next s'
        ∧ s'.getF Fld.ABR_FAB_ERR_CNT_COUNT = (s.getF Fld.ABR_FAB_ERR_CNT_COUNT + 1) % 2 ^ 32
        ∧ s'.fab.src d = some x ∧ s'.mem = s.mem ∧ s'.bays = s.bays)
      ∧ ∀ h : HemJob, x.broken = false → s.ldg.hem = some h → h.fail = none → x.unacked.map Prod.snd ++ x.waiting ≠ [] →
      (∀ r ∈ x.unacked.map Prod.snd ++ x.waiting, r.org = .ledger .hem) →
      ∀ c ∈ [Instr.pairBreakTimeout d, .unreachableNoticeArrival d], (c = .pairBreakTimeout d → x.unacked ≠ []) →
        ∃ s', Machine.exec c s = .next s' ∧ s'.fab.src d = some { x with unacked := [], waiting := [], broken := true }
          ∧ s'.ldg.hem = some { h with fail := some cLINK_LOST } ∧ s'.fab.ended = []
          ∧ s'.getF Fld.ABR_FAB_ERR_CNT_COUNT = (s.getF Fld.ABR_FAB_ERR_CNT_COUNT + 1) % 2 ^ 32
          ∧ (s.getF Fld.ABR_FAB_ERR_VALID = 0 → s'.getF Fld.ABR_FAB_ERR_VALID = 1 ∧ s'.getF Fld.ABR_FAB_ERR_CODE = cLINK_LOST.toNat
            ∧ s'.getF Fld.ABR_FAB_ERR_DEST_DEV = d.toNat)
          ∧ (s.getF Fld.ABR_FAB_ERR_VALID = 1 → s'.reg RegId.ABR_FAB_ERR.addr = s.reg RegId.ABR_FAB_ERR.addr)
          ∧ s'.getF Fld.LDG_STEP_STATUS_VALID = 0 ∧ s'.mem = s.mem ∧ s'.bays = s.bays)
  ∧ (∀ (d : DevCoord) (s : State) (x : PairSrc), s.fab.src d = some x → x.broken = true → s.fab.stalled = [] → Safety.handedOver s →
      ∃ s', Machine.exec (.pairHoldoffExpiry d) s = .next s' ∧ s'.fab.src d = none ∧ smapGet (fun _ => 0) s'.fab.pincs d.toNat = x.pinc + 1
        ∧ (∀ e, e ≠ d → s'.fab.src e = s.fab.src e) ∧ s' = { s with fab := s'.fab })

/-- GET_RSP_ARRIVAL, GET_RETRY_TIMEOUT, AMO_REQ_ARRIVAL, AMO_REL_ARRIVAL, AMO_RSP_ARRIVAL, AMO_RESEND_TIMEOUT and
ATOMIC_RECORD_EXPIRY. -/
def Obligations.RemoteReadsAndAtomics : Prop :=
  (∀ (p : Packet) (b : BayId) (s : State) (x : Slot) (n : Nat), p.type = 4 → p.ece = 0 → p.dst = coordOf s.devCoord b.toNat →
      s.clockOff = false → Safety.handedOver s → (s.bay b).slot p.slot.toNat = some x → x.kind = .get → x.forColl = none → x.fail = none →
      p.addr.toNat < x.len → n = min 2048 (x.len - p.addr.toNat) →
      ((p.addr.toNat / 2048) ∈ x.pieces →
        Machine.exec (.getRspArrival p) s = .next (s.takeArrived p))
      ∧ ((p.addr.toNat / 2048) ∉ x.pieces → p.status = cDONE → x.acked + n < x.len → s.ecc1 = [] → s.ecc2 = [] →
        ∃ s', Machine.exec (.getRspArrival p) s = .next s'
          ∧ (s'.bay b).slot p.slot.toNat = some { x with pieces := (p.addr.toNat / 2048) :: x.pieces, acked := x.acked + n }
          ∧ s'.mem = (s.setMemBytes (bayAddr b (x.loc + p.addr.toNat)) (p.payload.take n)).mem ∧ s'.regs = s.regs
          ∧ s'.fab.arrived = s.fab.arrived.erase p ∧ Safety.keepsBays s s' b))
  ∧ (∀ (b : BayId) (slot : BitVec 8) (s : State) (x : Slot), (s.bay b).slot slot.toNat = some x → x.kind = .get →
      x.dev ≠ s.devCoord → s.fab.reqsLeft (.msg b slot.toNat x.ord) = false →
      Machine.exec (.getRetryTimeout (BitVec.ofNat 12 b.toNat) slot) s = .next
        ((s.sendReqs x.dev ((slotReqs b slot.toNat x).filter fun r => !x.pieces.contains (r.data / 2048))).tickEvent).settledAll)
  ∧ (∀ (p : Packet) (s : State) (h hd : Nat), p.type = 6 → devOf p.dst = s.devCoord → s.amoReady p = true → h = atomHeader p →
      hd = s.headerFor s.devCoord (devOf p.src) →
      (∀ x, s.fab.atoms.find? (fun x => x.is h (devOf p.src) (epOf p.src) p.slot) = some x → x.gen = p.gen → x.tomb = false →
        ∃ s' y, Machine.exec (.amoReqArrival p) s = .next s' ∧ s'.heldOf hd = s.heldOf hd ++ [y]
          ∧ y.p.type = 7 ∧ y.p.dst = p.src ∧ y.p.status = x.status ∧ y.p.gen = p.gen ∧ y.p.slot = p.slot
          ∧ y.p.payload = leBytes 8 x.result.toNat
          ∧ s'.getF Fld.ABR_ATOM_STATS_DUP_SERVED = (s.getF Fld.ABR_ATOM_STATS_DUP_SERVED + 1) % 2 ^ Fld.ABR_ATOM_STATS_DUP_SERVED.width
          ∧ s'.fab.atoms = s.fab.atoms ∧ s'.mem = s.mem ∧ s'.bays = s.bays)
      ∧ (s.fab.atoms.find? (fun x => x.is h (devOf p.src) (epOf p.src) p.slot) = none →
        (∀ c, s.logUsed h < 8192 → c ≠ cDONE → (s.takeArrived p).refusal p permA 8 = (s.takeArrived p, c) →
          ∃ s' y z, Machine.exec (.amoReqArrival p) s = .next s' ∧ s'.heldOf hd = s.heldOf hd ++ [y] ∧ y.p.type = 7 ∧ y.p.status = c
            ∧ s'.fab.atoms.getLast? = some z ∧ z.gen = p.gen ∧ z.slot = p.slot ∧ z.status = c ∧ z.tomb = false ∧ z.time = s.now
            ∧ s'.regs = s.regs ∧ s'.mem = s.mem ∧ s'.bays = s.bays)
        ∧ (8192 ≤ s.logUsed h → ∃ s' y, Machine.exec (.amoReqArrival p) s = .next s' ∧ s'.heldOf hd = s.heldOf hd ++ [y]
          ∧ y.p.type = 7 ∧ y.p.status = cCAPACITY ∧ s'.fab.atoms = s.fab.atoms ∧ s'.mem = s.mem ∧ s'.bays = s.bays)))
  ∧ (∀ (p : Packet) (s : State) (x : AtomRec), p.type = 8 → devOf p.dst = s.devCoord → x ∈ s.fab.atoms →
      x.is (atomHeader p) (devOf p.src) (epOf p.src) p.slot = true → x.gen = p.gen → x.tomb = false → s.tombs (atomHeader p) < 65536 →
      ∃ s', Machine.exec (.amoRelArrival p) s = .next s' ∧ { x with tomb := true, parked := false, result := 0 } ∈ s'.fab.atoms
        ∧ s'.fab.atoms.length = s.fab.atoms.length ∧ s' = { s with fab := s'.fab })
  ∧ (∀ (p : Packet) (b : BayId) (s : State) (x : Slot) (h : Nat), p.type = 7 → p.dst = coordOf s.devCoord b.toNat → s.clockOff = false →
      s.amoSlot b p.slot.toNat = some x → x.gen = p.gen → x.forColl = none → x.acks = [] → x.len = 8 →
      h = s.headerFor s.devCoord x.dev →
      (p.status = cCAPACITY → ∃ s', Machine.exec (.amoRspArrival p) s = .next s'
        ∧ (s'.bay b).slot p.slot.toNat = some { x with refused := true } ∧ s'.mem = s.mem ∧ Safety.keepsBays s s' b)
      ∧ (p.status = cDONE → ∃ s' y, Machine.exec (.amoRspArrival p) s = .next s' ∧ (s'.bay b).slot p.slot.toNat = none
        ∧ s'.thr b x.t = (s.thr b x.t).deliver x.gd x.qseq (BitVec.ofNat 64 (leNat (p.payload.take 8)))
        ∧ s'.heldOf h = s.heldOf h ++ [y] ∧ y.p.type = 8 ∧ y.p.gen = x.gen ∧ y.p.slot = p.slot
        ∧ s'.regs = s.regs ∧ s'.mem = s.mem ∧ Safety.keepsBays s s' b))
  ∧ (∀ (b : BayId) (slot : BitVec 8) (s : State) (x : Slot) (h : Nat), s.clockOff = false → s.amoSlot b slot.toNat = some x →
      x.refused = false → x.forColl = none → x.acks = [] → s.fab.reqsLeft (.msg b slot.toNat x.ord) = false → h = s.headerFor s.devCoord x.dev →
      (x.sends < 9 → s.now < x.first + 2000000 → ∃ s' y, Machine.exec (.amoResendTimeout b slot) s = .next s'
        ∧ (s'.bay b).slot slot.toNat = some { x with sends := x.sends + 1 } ∧ s'.heldOf h = s.heldOf h ++ [y]
        ∧ y.p.type = 6 ∧ y.p.gen = x.gen ∧ y.p.aop = x.aop ∧ s'.mem = s.mem ∧ Safety.keepsBays s s' b
        ∧ Safety.keepsRegs s s' [RegId.LDG_STEP_STATUS.addr])
      ∧ (9 ≤ x.sends ∨ x.first + 2000000 ≤ s.now → ∃ s', Machine.exec (.amoResendTimeout b slot) s = .next s' ∧ (s'.bay b).slot slot.toNat = none
        ∧ s'.getF Fld.ABR_ATOM_STATS_UNKNOWN = (s.getF Fld.ABR_ATOM_STATS_UNKNOWN + 1) % 2 ^ Fld.ABR_ATOM_STATS_UNKNOWN.width
        ∧ s'.getF (Fld.BAY_MSG_ERR_CNT_COUNT b.toNat) = (s.getF (Fld.BAY_MSG_ERR_CNT_COUNT b.toNat) + 1) % 2 ^ 32
        ∧ s'.getF Fld.LDG_STEP_STATUS_VALID = 0 ∧ s'.mem = s.mem ∧ Safety.keepsBays s s' b))
  ∧ (∀ (h : Fin 2) (d : DevCoord) (b : BayId) (slot : BitVec 8) (s : State),
      (∀ x ∈ s.fab.atoms, x.parked = false) →
      ∃ s', Machine.exec (.atomicRecordExpiry h d b slot) s = .next s'
        ∧ s'.fab.atoms = s.fab.atoms.filter (fun x => !(x.is h d b.toNat slot && decide (x.time + 20000000 ≤ s.now)))
        ∧ s' = { s with fab := s'.fab })

/-- LANE_DRAIN_MESSAGE, LANE_DRAINED_MESSAGE, LANE_RUNG_MESSAGE, LANE_JOIN_MESSAGE, SNR_MEASUREMENT, LANE_TRAINING and LANE_HOLD. -/
def Obligations.LanesAndLadders : Prop :=
  (∀ (p w : Fin 16) (x : Nat) (s : State), s.portUp p = true → s.laneState p w = 2 →
      ∃ s', Machine.exec (.laneDrainMessage p w x) s = .next s' ∧ s'.laneState p w = 4 ∧ s'.getF (Fld.OPT_LANE_RUNG p w) = 0
        ∧ s'.getF (Fld.OPT_LANE_TX_RUNG p w) = 0 ∧ s'.getF Fld.LDG_STEP_STATUS_TICK_CLEAN = 0
        ∧ s' = { s with regs := s'.regs, opt := (s.agree p w x).opt }
        ∧ Safety.keepsRegs s s' [RegId.OPT_LANE.addr p w, RegId.OPT_ENG_STATUS.addr (p / 2), RegId.LDG_STEP_STATUS.addr])
  ∧ (∀ (p w : Fin 16) (x : Nat) (s : State), s.portUp p = true → s.laneDrains p w = true → s.opt.due = [] →
      (s.opt.leaving.find? (fun x => x.1 == laneKey p w) = none →
        Machine.exec (.laneDrainedMessage p w x) s = .next ((s.setF (Fld.OPT_LANE_RUNG p w) 0).agree p w x))
      ∧ (s.opt.leaving.find? (fun x => x.1 == laneKey p w) = some (laneKey p w, true) →
        ∃ s', Machine.exec (.laneDrainedMessage p w x) s = .next s' ∧ s'.laneState p w = 5 ∧ laneKey p w ∈ s'.store.gone
          ∧ s'.getF (Fld.OPT_LASER_STATE (p / 2) (s.laserOf (p / 2) (laneNo p w))) = 0 ∧ s'.mem = s.mem ∧ s'.fab = s.fab))
  ∧ (∀ (p w : Fin 16) (r : Fin 4) (s : State), s.portUp p = true → s.laneState p w = 2 → r.val ≠ s.getF (Fld.OPT_LANE_TX_RUNG p w) →
      s.changing p = false →
      ∃ s', Machine.exec (.laneRungMessage p w r) s = .next s' ∧ s'.getF (Fld.OPT_LANE_TX_RUNG p w) = r.val
        ∧ s'.getF (Fld.OPT_LANE_LADDER_CNT p w) = (s.getF (Fld.OPT_LANE_LADDER_CNT p w) + 1) % 2 ^ 16
        ∧ s'.getF (Fld.OPT_LANE_RUNG p w) = s.getF (Fld.OPT_LANE_RUNG p w)
        ∧ Safety.onlyRegs s s' [RegId.OPT_LANE.addr p w, RegId.LDG_STEP_STATUS.addr])
  ∧ (∀ (p w : Fin 16) (r : Fin 4) (x : Nat) (s : State), s.portUp p = true → (s.laneState p w = 1 ∨ s.laneState p w = 4) → r.val ≠ 0 →
      s.getF (Fld.OPT_LANE_RUNG p w) ≠ 0 → s.swapLaser (p / 2) = none → s.opt.due = [] →
      (∀ v : Fin 16, v ≠ w → s.laneDrains p v = false) →
      ∃ s', Machine.exec (.laneJoinMessage p w r x) s = .next s' ∧ s'.laneState p w = 2 ∧ s'.getF (Fld.OPT_LANE_TX_RUNG p w) = r.val
        ∧ s' = { s with regs := s'.regs, opt := (s.agree p w x).opt }
        ∧ Safety.keepsRegs s s' [RegId.OPT_LANE.addr p w, RegId.OPT_ENG_STATUS.addr (p / 2)])
  ∧ (∀ (p : Fin 16) (w : Fin 16) (snr : BitVec 8) (uncorr r : Nat) (s : State), s.laneState p w = 2 → r = s.getF (Fld.OPT_LANE_RUNG p w) →
      s.changing p = false →
      (2 ≤ r → (snr.toNat < holdSnr r ∨ 4 ≤ uncorr) → ∃ s', Machine.exec (.snrMeasurement p ⟨w.val, by omega⟩ snr uncorr) s = .next s'
        ∧ s'.getF (Fld.OPT_LANE_SNR p w) = snr.toNat ∧ s'.getF (Fld.OPT_LANE_RUNG p w) = r - 1
        ∧ s'.getF (Fld.OPT_LANE_LADDER_CNT p w) = (s.getF (Fld.OPT_LANE_LADDER_CNT p w) + 1) % 2 ^ 16
        ∧ s'.getF (Fld.OPT_LANE_TX_RUNG p w) = s.getF (Fld.OPT_LANE_TX_RUNG p w) ∧ s'.laneState p w = 2
        ∧ s'.mem = s.mem ∧ s'.fab = s.fab ∧ Safety.keepsRegs s s' [RegId.OPT_LANE.addr p w, RegId.LDG_STEP_STATUS.addr])
      ∧ (r = 3 → holdSnr 3 ≤ snr.toNat → uncorr < 4 → ∃ s', Machine.exec (.snrMeasurement p ⟨w.val, by omega⟩ snr uncorr) s = .next s'
        ∧ s'.regs = (s.setF (Fld.OPT_LANE_SNR p w) snr.toNat).regs ∧ s'.mem = s.mem ∧ s'.fab = s.fab))
  ∧ (∀ (p : Fin 16) (snr : BitVec 8) (uncorr e : Nat) (s : State), e = p.val / 2 → snr.toNat < 70 →
      s.portUp (2 * e) = false → s.portUp (2 * e + 1) = false →
      ∃ s', Machine.exec (.snrMeasurement p 16 snr uncorr) s = .next s' ∧ s'.getF (Fld.OPT_ENG_STATUS_EXP_LOST e) = 1
        ∧ (∀ q, q = 2 * e ∨ q = 2 * e + 1 → s.getF (Fld.ABR_PORT_STATUS_DOWN q) = 0 → s'.getF (Fld.ABR_PORT_STATUS_CAUSE q) = 1
          ∧ ∀ w : Fin 16, s.laneState q w ≠ 0 → laneKey q w ∉ s.store.gone → s'.laneState q w = 1 ∧ s'.getF (Fld.OPT_LANE_RUNG q w) = 0)
        ∧ (s.getF (Fld.ABR_PORT_STATUS_DOWN (2 * e)) = 1 → s.getF (Fld.ABR_PORT_STATUS_DOWN (2 * e + 1)) = 1 →
          Safety.onlyRegs s s' [RegId.OPT_ENG_STATUS.addr e])
        ∧ s'.mem = s.mem ∧ s'.fab = s.fab ∧ s'.bays = s.bays)
  ∧ (∀ (p w : Fin 16) (x : BitVec 8) (s : State), s.portUp p = false → s.getF (Fld.ABR_PORT_STATUS_DOWN p) = 0 →
      laneKey p w ∉ s.store.gone → s.ringsOut (p / 2) (laneNo p w) = false → s.swapLaser (p / 2) = none →
      s.opt.due = [] →
      ∃ s', Machine.exec (.laneTraining p (List.replicate w none ++ [some x])) s = .next s' ∧ s'.getF (Fld.OPT_LANE_SNR p w) = x.toNat
        ∧ s'.ring (p / 2) (laneNo p w) = .locked ∧ s'.ring (p / 2) (32 + laneNo p w) = .locked ∧ s'.store = s.store
        ∧ (trainRung x.toNat ≠ 0 → s'.laneState p w = 1 ∧ s'.getF (Fld.OPT_LANE_RUNG p w) = trainRung x.toNat
          ∧ s'.getF (Fld.ABR_PORT_STATUS_CAUSE p) = 0)
        ∧ (trainRung x.toNat = 0 → s'.laneState p w = 5)
        ∧ Safety.keepsRegs s s'
          (RegId.OPT_ENG_STATUS.addr (p / 2) :: RegId.ABR_PORT_STATUS.addr p :: (List.range 16).map fun v => RegId.OPT_LANE.addr p v))
  ∧ (∀ (p w : Fin 16) (s : State), s.portUp p = true → s.laneState p w = 2 →
      (s.changing p = false → ∃ s', Machine.exec (.laneHold p w) s = .next s' ∧ s'.laneState p w = 3
        ∧ s'.getF (Fld.OPT_LANE_RUNG p w) = s.getF (Fld.OPT_LANE_RUNG p w) ∧ s'.getF (Fld.OPT_LANE_TX_RUNG p w) = 0
        ∧ s'.getF (Fld.OPT_LANE_HOLD_CNT p w) = (s.getF (Fld.OPT_LANE_HOLD_CNT p w) + 1) % 2 ^ 16
        ∧ Safety.onlyRegs s s' [RegId.OPT_LANE.addr p w, RegId.OPT_ENG_STATUS.addr (p / 2), RegId.LDG_STEP_STATUS.addr])
      ∧ (s.changing p = true → ∃ s', Machine.exec (.laneHold p w) s = .next s' ∧ (laneKey p w, LaneDue.hold) ∈ s'.opt.due
        ∧ s' = { s with opt := { s.opt with due := s'.opt.due } }))

/-- RING_LOOP_UPDATE, RING_RELOCK_DONE, WRONG_LINE_SWEEP_DONE, LASER_POWER_MEASUREMENT, PATCH_SWAP_STEP, EXPRESS_PATCH_SWAP,
EXPRESS_BURST, CIRCUIT_START, CIRCUIT_CHANGE_AT_MARK and CIRCUIT_TIMEOUT. -/
def Obligations.RingsLasersAndCircuits : Prop :=
  (∀ (e : Fin 8) (ring : Fin 101) (err : Int) (tags : List (Fin 17)) (s : State), s.ring e ring = .locked ∨ s.ring e ring = .drifting →
      ((∀ t ∈ tags, t.val = ringTarget ring) → ∃ s', Machine.exec (.ringLoopUpdate e ring err tags) s = .next s'
        ∧ s'.ring e ring = (if err.natAbs ≤ 500 then .locked else if err.natAbs ≤ 3000 then .drifting else .lost)
        ∧ s'.evqOf e = (s.evqOf e).drop 1 ∧ (err.natAbs ≤ 3000 → s'.regs = s.regs) ∧ s'.mem = s.mem ∧ s'.fab = s.fab)
      ∧ (∀ t, tags.find? (fun t => t.val != ringTarget ring) = some t → ∃ s', Machine.exec (.ringLoopUpdate e ring err tags) s = .next s'
        ∧ s'.ring e ring = .sweeping 0 ∧ s'.getF Fld.OPT_FLAGS_WRONG_LINE = 1
        ∧ s'.getF Fld.OPT_WRONG_LINE_CNT_COUNT = (s.getF Fld.OPT_WRONG_LINE_CNT_COUNT + 1) % 2 ^ 32
        ∧ (s.getF Fld.OPT_WRONG_LINE_LOG_VALID = 0 → s'.getF Fld.OPT_WRONG_LINE_LOG_VALID = 1
          ∧ s'.getF Fld.OPT_WRONG_LINE_LOG_ENGINE = e.val ∧ s'.getF Fld.OPT_WRONG_LINE_LOG_RING = ring.val
          ∧ s'.getF Fld.OPT_WRONG_LINE_LOG_EXPECTED = ringTarget ring ∧ s'.getF Fld.OPT_WRONG_LINE_LOG_FOUND = t.val)))
  ∧ (∀ (e : Fin 8) (ring : Fin 101) (s : State),
      (s.ring e ring = .lost → ∃ s', Machine.exec (.ringRelockDone e ring) s = .next s' ∧ s'.ring e ring = .locked
        ∧ (96 ≤ ring.val → s'.regs = s.regs) ∧ s'.mem = s.mem ∧ s'.fab = s.fab)
      ∧ (∀ n, s.ring e ring = .sweeping n →
        (∃ s', Machine.exec (.wrongLineSweepDone e ring true) s = .next s' ∧ s'.ring e ring = .locked)
        ∧ (n = 0 → Machine.exec (.wrongLineSweepDone e ring false) s = .next (s.setRing e ring (.sweeping 1)))
        ∧ (n ≠ 0 → ring.val < 96 → ∃ s', Machine.exec (.wrongLineSweepDone e ring false) s = .next s' ∧ s'.ring e ring = .parked
          ∧ s'.laneState (portOf e (ring.val % 32)) (waveOf (ring.val % 32)) = 5
          ∧ laneKey (portOf e (ring.val % 32)) (waveOf (ring.val % 32)) ∈ s'.store.gone)))
  ∧ (∀ (e : Fin 8) (l : Fin 37) (power : BitVec 16) (s : State), l.val ≤ 32 →
      (s.laserState e l = 2 → 6500 ≤ power.toNat → power.toNat < 8000 → ∃ s', Machine.exec (.laserPowerMeasurement e l power) s = .next s'
        ∧ s'.getF (Fld.OPT_LASER_POWER e l) = power.toNat ∧ s'.laserState e l = 3 ∧ s'.getF Fld.OPT_FLAGS_FADE = 1
        ∧ s'.getF Fld.OPT_FADE_CNT_COUNT = (s.getF Fld.OPT_FADE_CNT_COUNT + 1) % 2 ^ 32 ∧ s'.mem = s.mem ∧ s'.fab = s.fab)
      ∧ (s.laserState e l = 3 → 8500 ≤ power.toNat → ∃ s', Machine.exec (.laserPowerMeasurement e l power) s = .next s'
        ∧ s'.getF (Fld.OPT_LASER_POWER e l) = power.toNat ∧ s'.laserState e l = 2)
      ∧ (∀ k, s.laserState e l = 3 → 3000 ≤ power.toNat → power.toNat < 6500 → s.spare e = some k → s.swapLaser e = none →
        s.swapWait e = [] → ∃ s', Machine.exec (.laserPowerMeasurement e l power) s = .next s' ∧ s'.swapLaser e = some l.val
          ∧ s'.getF (Fld.OPT_PATCH_PROG_STEP e) = 1 ∧ s'.getF (Fld.OPT_PATCH_PROG_PATCH e) = k
          ∧ s'.getF (Fld.OPT_ENG_STATUS_SWAP_BUSY e) = 1 ∧ s'.laserState e (33 + k) = 1
          ∧ s'.getF (Fld.OPT_LASER_CHAN e (33 + k)) = laserChan l))
  ∧ (∀ (e : Fin 8) (l k : Nat) (s : State), s.swapLaser e = some l → l < 32 → s.swapPauses e l = false → s.portUp (portOf e l) = false →
      s.opt.due = [] →
      (∀ c ∈ [(1, 2), (2, 3), (3, 4), (4, 5)], s.getF (Fld.OPT_PATCH_PROG_STEP e) = c.1 →
        ∃ s', Machine.exec (.patchSwapStep e) s = .next s' ∧ s'.getF (Fld.OPT_PATCH_PROG_STEP e) = c.2 ∧ s'.mem = s.mem
          ∧ ((c.1 = 1 → s.laneState (portOf e l) (waveOf l) ≠ 1) → s'.regs = (s.setF (Fld.OPT_PATCH_PROG_STEP e) c.2).regs)
          ∧ (c.1 = 1 → s.laneState (portOf e l) (waveOf l) = 1 → s'.getF (Fld.OPT_LANE_RUNG (portOf e l) (waveOf l)) = 0))
      ∧ (s.getF (Fld.OPT_PATCH_PROG_STEP e) = 5 → k = s.getF (Fld.OPT_PATCH_PROG_PATCH e) → s.swapWait e = [] →
        s.getF Fld.OPT_CIRCUIT_STATE ≠ 1 → ∃ s', Machine.exec (.patchSwapStep e) s = .next s' ∧ s'.swapLaser e = none
          ∧ s'.getF (Fld.OPT_PATCH_PROG_STEP e) = 0 ∧ s'.laserState e l = 4 ∧ s'.laserState e (33 + k) = 2
          ∧ s'.getF (Fld.OPT_LANE_PATCHED (portOf e l) (waveOf l)) = 1 ∧ s'.getF (Fld.OPT_LANE_PATCH (portOf e l) (waveOf l)) = k
          ∧ s'.getF (Fld.OPT_PATCH_PROG_SWAPS e) = (s.getF (Fld.OPT_PATCH_PROG_SWAPS e) + 1) % 2 ^ 32
          ∧ s'.getF (Fld.OPT_ENG_STATUS_SWAP_BUSY e) = 0 ∧ s'.mem = s.mem ∧ s'.fab = s.fab))
  ∧ (∀ (e : Fin 8) (k : Nat) (s : State), s.swapLaser e = some 32 → s.getF (Fld.OPT_PATCH_PROG_STEP e) = 3 → s.swapWait e = [] →
      k = s.getF (Fld.OPT_PATCH_PROG_PATCH e) → s.getF Fld.OPT_CIRCUIT_STATE ≠ 1 →
      ∃ s', Machine.exec (.expressPatchSwap e) s = .next s' ∧ s'.swapLaser e = none ∧ s'.ring e 100 = .locked
        ∧ s'.getF (Fld.OPT_ENG_STATUS_EXP_LOST e) = 0 ∧ s'.laserState e 32 = 4 ∧ s'.laserState e (33 + k) = 2
        ∧ s'.getF (Fld.OPT_PATCH_PROG_SWAPS e) = (s.getF (Fld.OPT_PATCH_PROG_SWAPS e) + 1) % 2 ^ 32 ∧ s'.mem = s.mem ∧ s'.fab = s.fab)
  ∧ (∀ (e : Fin 8) (port : Fin 2) (q : List Nat) (s : State), smapGet (fun _ => []) s.opt.expressQ e = port.val :: q →
      (s.swapLaser e ≠ some 32 ∨ s.getF (Fld.OPT_PATCH_PROG_STEP e) ≠ 3) → ∃ s', Machine.exec (.expressBurst e port) s = .next s'
        ∧ smapGet (fun _ => []) s'.opt.expressQ e = q ∧ smapGet (fun _ => 0) s'.opt.steer e = port.val
        ∧ (∀ f, (s.port (2 * e + port)).ctlDue = some f →
          s'.port (2 * e + port) = { s.port (2 * e + port) with ctlDue := none, ctl := some f, wire := some f })
        ∧ (∀ n l, (s.port (2 * e + port)).ctlDue = none → (s.port (2 * e + port)).express.todo = n :: l →
          (s'.port (2 * e + port)).express.todo = l)
        ∧ (∀ q, q ≠ 2 * e.val + port.val → s'.port q = s.port q)
        ∧ s' = { s with fab := { s.fab with ports := s'.fab.ports }
                        opt := { s.opt with expressQ := s'.opt.expressQ, steer := s'.opt.steer } })
  ∧ (∀ (p : RegPath) (v : Word) (s : State), Safety.reaches s p .OPT_CIRCUIT 0 0 (withBit Fld.OPT_CIRCUIT_START v) → Safety.handedOver s →
      (s.circuitOpen = true → ∃ s', Machine.exec (.circuitStart p v) s = .next s' ∧ s'.lastCode = cDONE ∧ s'.getF Fld.OPT_CIRCUIT_STATE = 1
        ∧ s'.getF Fld.OPT_CIRCUIT_CODE = 0 ∧ s'.getF Fld.OPT_CIRCUIT_UP = 0 ∧ s'.getF Fld.OPT_CIRCUIT_PORTS = fieldOf v 0 16
        ∧ Safety.keepsRegs s s' [RegId.OPT_CIRCUIT.addr] ∧ s' = { s with regs := s'.regs, lastCode := cDONE })
      ∧ (p ≠ .bar0 → s.circuitOpen = false → s.regChanges .OPT_CIRCUIT 0 0 (withBit Fld.OPT_CIRCUIT_START v) = true →
        Machine.exec (.circuitStart p v) s = .next { s with lastCode := cSTATE_REJECT }))
  ∧ (∀ s : State, s.getF Fld.OPT_CIRCUIT_STATE = 1 → s.getF Fld.OPT_CIRCUIT_MARK_MARK ≤ s.now →
      s.devState ≠ stHOLD → (∀ e, s.swapLaser e = none) → s.getF Fld.OPT_CIRCUIT_PORTS ≠ 0 →
      ∃ s', Machine.exec .circuitChangeAtMark s = .next s' ∧ s'.getF Fld.OPT_CIRCUIT_STATE = 2 ∧ s'.opt.circuitAt = some s.now
        ∧ (∀ p : Fin 16, (s.getF Fld.OPT_CIRCUIT_PORTS).testBit p = true → s'.portUp p = false
          ∧ s'.getF (Fld.ABR_PORT_STATUS_DOWN p) = 0 ∧ s'.getF (Fld.ABR_PORT_STATUS_PEER_DEV p) = 0
          ∧ ∀ w : Fin 16, s.laneState p w ≠ 0 → laneKey p w ∉ s'.store.gone → s'.laneState p w = 1)
        ∧ (∀ p : Fin 16, (s.getF Fld.OPT_CIRCUIT_PORTS).testBit p = false →
          s'.reg (RegId.ABR_PORT_STATUS.addr p) = s.reg (RegId.ABR_PORT_STATUS.addr p)) ∧ s'.mem = s.mem ∧ s'.bays = s.bays)
  ∧ (∀ (t : Nat) (s : State), s.opt.circuitAt = some t → s.getF Fld.OPT_CIRCUIT_STATE = 2 → t + 5000000 ≤ s.now → s.running 0x33 = none →
      ∃ s', Machine.exec .circuitTimeout s = .next s' ∧ s'.getF Fld.OPT_CIRCUIT_STATE = 3 ∧ s'.getF Fld.OPT_CIRCUIT_CODE = cTIMEOUT.toNat
        ∧ s'.getF Fld.OPT_CIRCUIT_UP = s.getF Fld.OPT_CIRCUIT_UP ∧ s'.opt.circuitAt = none
        ∧ Safety.keepsRegs s s' [RegId.OPT_CIRCUIT.addr] ∧ s'.mem = s.mem ∧ s'.fab = s.fab)

/-- REF_LOST, REF_RETURN, SCRIBE_TICK, SCR_SET_WRITE, the four time exchange events, DEGRADED_TIMEOUT, DEGRADED_CLEAR, LAUNCH_FIRE,
CALENDAR_TICK, CELL_EMPTY and SCR_LATCH_GO. -/
def Obligations.ScribeAndCalendar : Prop :=
  (∀ s : State, s.getF Fld.SCR_STATUS_REF_SRC = 0 → ∃ s', Machine.exec (.refLost .noEdge) s = .next s' ∧ s'.getF Fld.SCR_FLAGS_REF_LOST = 1
      ∧ s'.getF Fld.SCR_REF_LOST_CNT_COUNT = (s.getF Fld.SCR_REF_LOST_CNT_COUNT + 1) % 2 ^ 32 ∧ s'.getF Fld.SCR_STATUS_REF_SRC = 1
      ∧ s'.getF Fld.SCR_STATUS_DEGRADED = 1 ∧ s'.getF Fld.LDG_STEP_STATUS_TICK_CLEAN = 0
      ∧ Safety.onlyRegs s s' [RegId.SCR_FLAGS.addr, RegId.SCR_REF_LOST_CNT.addr, RegId.SCR_STATUS.addr, RegId.LDG_STEP_STATUS.addr])
  ∧ (∀ (x : Int) (s : State), x.natAbs ≤ 20000 → ∃ s', Machine.exec (.refLost (.frequency x)) s = .next s'
      ∧ s'.reg RegId.SCR_REF_FREQ.addr = putField (s.reg RegId.SCR_REF_FREQ.addr) 0 32 (BitVec.ofInt 32 x).toNat
      ∧ Safety.onlyRegs s s' [RegId.SCR_REF_FREQ.addr])
  ∧ (∀ s : State, ∃ s', Machine.exec .refReturn s = .next s' ∧ s'.getF Fld.SCR_STATUS_REF_SRC = 0
      ∧ s'.getF Fld.SCR_STATUS_DEGRADED = s.getF Fld.SCR_STATUS_DEGRADED ∧ Safety.onlyRegs s s' [RegId.SCR_STATUS.addr])
  ∧ (∀ (adv : Fin 3) (s : State) (slew : Prop), s.scribeRuns = true → s.fab.stalled = [] →
      (slew ↔ 2047 ≤ s.scr.sinceSlew ∧ s.slews adv.val = true) →
      ∃ s', Machine.exec (.scribeTick adv) s = .next s'
        ∧ (slew → s.getF Fld.SCR_SYNC_ROLE = 2 ∧ adv.val ≠ 1 ∧ (∀ o, s.scr.owe = some o → 4 < o → adv.val = 2)
          ∧ (∀ o, s.scr.owe = some o → o < -4 → adv.val = 0) ∧ s'.now = (s.now + adv.val) % 2 ^ 64 ∧ s'.scr.sinceSlew = 0 ∧ s'.getF Fld.LDG_STEP_STATUS_TICK_CLEAN = 0)
        ∧ (¬ slew → s'.now = (s.now + 1) % 2 ^ 64 ∧ s'.reg RegId.LDG_STEP_STATUS.addr = s.reg RegId.LDG_STEP_STATUS.addr)
        ∧ Safety.keepsRegs s s' [RegId.SCR_COUNT.addr, RegId.LDG_STEP_STATUS.addr]
        ∧ s' = { s with regs := s'.regs, scr := { s.scr with sinceSlew := s'.scr.sinceSlew, owe := s'.scr.owe } })
  ∧ (∀ (p : RegPath) (v : Word) (s : State), Safety.reaches s p .SCR_SET 0 0 v → Safety.handedOver s →
      (s.devState = stREADY → s.launchQueue = [] → s.getF Fld.OPT_CIRCUIT_STATE ≠ 1 → s.getF Fld.ABR_EPOCH_CTRL_STATE ≠ 1 →
        (∀ b t m g, (s.thr b t).waitFor ≠ .scribe m g) → ∃ s', Machine.exec (.scrSetWrite p 8 v) s = .next s' ∧ s'.lastCode = cDONE
          ∧ s'.now = v.toNat ∧ s'.getF Fld.LDG_STEP_STATUS_TICK_CLEAN = 0
          ∧ Safety.keepsRegs s s' [RegId.SCR_COUNT.addr, RegId.LDG_STEP_STATUS.addr] ∧ s' = { s with regs := s'.regs, lastCode := cDONE })
      ∧ (s.devState ≠ stREADY → p ≠ .bar0 → Machine.exec (.scrSetWrite p 8 v) s = .next { s with lastCode := cSTATE_REJECT })
      ∧ (p ≠ .bar0 → Machine.exec (.scrSetWrite p 4 v) s = .next { s with lastCode := cMALFORMED }))
  ∧ (∀ (x : BitVec 16) (t1 : Word) (s : State) (p : Nat), s.scribeRuns = true → s.getF Fld.SCR_SYNC_ROLE = 2 →
      p = s.getF Fld.SCR_SYNC_PARENT → s.portUp p = true → 2 ≤ (s.port p).shared →
      ∃ s' t, Machine.exec (.timeExchangeSend x t1) s = .next s' ∧ s'.scr.sent = s.scr.sent ++ [(x, timeStamp s.now t1)]
        ∧ (s'.port p).express.replay = (s.port p).express.replay ++ [t] ∧ t.p.type = 0xA
        ∧ (devOf t.p.dst).toNat = s.getF (Fld.ABR_PORT_STATUS_PEER_DEV p)
        ∧ t.p.payload = [timeWord 1 x p, timeStamp s.now t1, 0, 0].flatMap (fun w => leBytes 8 w.toNat)
        ∧ s'.regs = s.regs ∧ s'.mem = s.mem ∧ s'.bays = s.bays)
  ∧ (∀ (port : Fin 16) (words : List Word) (t2 t3 : Word) (s : State), s.scribeRuns = true → s.getF Fld.SCR_SYNC_ROLE ≠ 0 →
      fieldOf (words.getD 0 0) 56 8 = 1 → s.portUp port = true → 2 ≤ (s.port port).shared →
      ∃ s' t, Machine.exec (.timeRequestArrival port words t2 t3) s = .next s'
        ∧ (s'.port port).express.replay = (s.port port).express.replay ++ [t] ∧ t.p.type = 0xA
        ∧ t.p.payload = [timeWord 2 ((words.getD 0 0).extractLsb' 40 16) port, words.getD 1 0, timeStamp (s.landedAt words) t2, timeStamp s.now t3].flatMap
          (fun w => leBytes 8 w.toNat)
        ∧ s'.scr = { s.scr with landed := s'.scr.landed } ∧ s'.regs = s.regs ∧ s'.mem = s.mem ∧ s'.bays = s.bays)
  ∧ (∀ (port : Fin 16) (w0 t1 t2 t3 t4 t : Word) (s : State) (x : BitVec 16) (a : Int) (r : Int × Int), x = w0.extractLsb' 40 16 →
      fieldOf w0 56 8 = 2 → (x, t1) ∈ s.scr.sent → a = (BitVec.ofNat 16 (s.getF (Fld.SCR_ASYM_ASYM port))).toInt →
      t4 = timeStamp (s.landedAt [w0, t1, t2, t3]) t → r = exchange t1 t2 t3 t4 a → (s.scr.rtts ≠ [] → r.1 ≤ smallest s.scr.rtts + 64) → s.scr.offs.length < 7 →
      ∃ s', Machine.exec (.timeReplyArrival port [w0, t1, t2, t3] t) s = .next s'
        ∧ s'.scr.sent = s.scr.sent.filter (fun e => e.1 != x) ∧ s'.scr.offs = r.2 :: s.scr.offs ∧ s'.scr.rtts = (r.1 :: s.scr.rtts).take 64
        ∧ r.1 = (t2 - t1).toInt + (t4 - t3).toInt ∧ r.2 = ((t2 - t1).toInt - (t4 - t3).toInt + a) / 2
        ∧ s'.getF Fld.SCR_STATUS_EXCH = (s.getF Fld.SCR_STATUS_EXCH + 1) % 2 ^ 16
        ∧ s'.getF Fld.SCR_STATUS_DELAY = (BitVec.ofInt 16 ((r.1 - a) / 2 / 8)).toNat
        ∧ Safety.keepsRegs s s' [RegId.SCR_STATUS.addr] ∧ s'.mem = s.mem
        ∧ s'.fab = { s.fab with arrived := s'.fab.arrived })
  ∧ (∀ s : State, Machine.exec .timeReplyTimeout s = .next { s with scr := { s.scr with sent := s.scr.sent.drop 1 } })
  ∧ (∀ (c : DegradedCause) (s : State), s.degradedCause c = true → ∃ s', Machine.exec (.degradedTimeout c) s = .next s'
      ∧ s'.getF Fld.SCR_STATUS_DEGRADED = 1 ∧ c ∈ s'.scr.degraded
      ∧ (s.getF Fld.SCR_STATUS_DEGRADED = 0 → s'.getF Fld.LDG_STEP_STATUS_TICK_CLEAN = 0)
      ∧ Safety.keepsRegs s s' [RegId.SCR_STATUS.addr, RegId.LDG_STEP_STATUS.addr])
  ∧ (∀ s : State, (s.getF Fld.SCR_STATUS_REF_SRC = 0 → (∀ c ∈ s.scr.degraded, s.degradedCause c = false) →
        Machine.exec .degradedClear s = .next (s.setF Fld.SCR_STATUS_DEGRADED 0))
      ∧ (s.getF Fld.SCR_STATUS_REF_SRC = 1 ∨ (∃ c ∈ s.scr.degraded, s.degradedCause c = true) →
        Machine.exec .degradedClear s = .next s))
  ∧ (∀ (c : HostCmd) (rest : List HostCmd) (s : State), s.launchQueue = c :: rest → s.ringsRun = true → s.devState ≠ stHOLD →
      c.mark.toNat ≤ s.now → ∃ s', Machine.exec .launchFire s = .next s'
        ∧ s'.cmd c.k = some { c with stage := .fetched, late := some (s.now - c.mark.toNat) }
        ∧ (c.mark.toNat + 100 < s.now → s'.getF Fld.SCR_LAUNCH_LATE = (s.getF Fld.SCR_LAUNCH_LATE + 1) % 2 ^ 32)
        ∧ (s.now ≤ c.mark.toNat + 100 → s'.getF Fld.SCR_LAUNCH_LATE = s.getF Fld.SCR_LAUNCH_LATE)
        ∧ Safety.keepsRegs s s' [RegId.SCR_LAUNCH.addr, RegId.LDG_STEP_STATUS.addr] ∧ s'.mem = s.mem ∧ s'.bays = s.bays)
  ∧ (∀ (s : State) (cal : Word), s.power.calOn = true → cal = s.reg RegId.SCR_CAL.addr + 2 →
      (s.power.aux = false → s.power.v48 = true) → (s.power.aux = true → s.power.charging = true → s.power.cell = cellFull) →
      (s.getF Fld.SCR_CAL_STATUS_ARMED = 0 → s.scr.latchArmed = false →
        Machine.exec .calendarTick s = .next (s.setReg RegId.SCR_CAL.addr cal))
      ∧ (s.getF Fld.SCR_CAL_STATUS_ARMED = 1 → s.getF Fld.SCR_CAL_ALARM_ALARM ≤ cal.toNat → s.mgmt.events.length < 64 →
        s.devState ≠ stPATROL → s.devState ≠ stOFF → ∃ s' e, Machine.exec .calendarTick s = .next s'
          ∧ s'.reg RegId.SCR_CAL.addr = cal ∧ s'.getF Fld.SCR_CAL_STATUS_ARMED = 0 ∧ s'.getF Fld.SCR_CAL_STATUS_FIRED = 1
          ∧ s'.mgmt.events = s.mgmt.events ++ [e] ∧ e.code = 5 ∧ e.cal = cal)
      ∧ (s.scr.latchArmed = true → s.getF Fld.SCR_CAL_STATUS_ARMED = 0 → ∃ s', Machine.exec .calendarTick s = .next s'
        ∧ s'.getF Fld.SCR_LATCH_COUNT_COUNT = s.now ∧ s'.reg RegId.SCR_LATCH_CAL.addr = cal ∧ s'.getF Fld.SCR_LATCH_READY = 1
        ∧ s'.scr.latchArmed = false
        ∧ Safety.keepsRegs s s' [RegId.SCR_CAL.addr, RegId.SCR_LATCH_COUNT.addr, RegId.SCR_LATCH_CAL.addr, RegId.SCR_LATCH.addr]))
  ∧ (∀ s : State, s.power.calOn = true → s.power.aux = false → s.power.v48 = false → ∃ s', Machine.exec .calendarTick s = .next s'
      ∧ s'.reg RegId.SCR_CAL.addr = s.reg RegId.SCR_CAL.addr + 2 ∧ s'.power.cell ≤ s.power.cell ∧ s.power.cell ≤ s'.power.cell + 1
      ∧ (s'.power.calOn = true ↔ 0 < s'.power.cell) ∧ s'.getF Fld.SCR_CAL_STATUS_CELL_LOW = (if 10 * s'.power.cell < 3 * cellFull then 1 else 0))
  ∧ (∀ s : State, s.power.aux = false → s.power.v48 = false → ∃ s', Machine.exec .cellEmpty s = .next s'
      ∧ s'.getF Fld.SCR_CAL_STATUS_CELL_LOW = 1 ∧ s'.power = { s.power with calOn := false, cell := 0 }
      ∧ Safety.keepsRegs s s' [RegId.SCR_CAL_STATUS.addr])
  ∧ (∀ (p : RegPath) (v : Word) (s : State), Safety.reaches s p .SCR_LATCH 0 0 (withBit Fld.SCR_LATCH_GO v) →
      ∃ s', Machine.exec (.scrLatchGo p v) s = .next s' ∧ s'.lastCode = cDONE ∧ s'.scr.latchArmed = true
        ∧ s'.getF Fld.SCR_LATCH_READY = 0 ∧ Safety.keepsRegs s s' [RegId.SCR_LATCH.addr] ∧ s'.mem = s.mem)

/-- STEP_ADVANCE, DIGEST_START, LEAF_DIGEST_DONE, BASTE_FORCE, BASTE_COPY_DONE, BASTE_TRICKLE_LEAF, BASTE_PARTNERED, RISK_UPDATE and
HEM_STORE. -/
def Obligations.StepsDigestsAndBastes : Prop :=
  (∀ (p : RegPath) (v : Word) (s : State), Safety.reaches s p .LDG_STEP 0 0 (withBit Fld.LDG_STEP_ADV v) → Safety.handedOver s →
      (s.devState = stRUN ∨ s.devState = stQUARANTINE → s.getF Fld.MSC_LEASE_STATE ≠ 2 → s.getF Fld.LDG_BASTE_CTRL_EN = 0 →
        ∃ s', Machine.exec (.stepAdvance p v) s = .next s' ∧ s'.lastCode = cDONE
          ∧ s'.getF Fld.LDG_STEP_NUMBER = (s.getF Fld.LDG_STEP_NUMBER + 1) % 2 ^ 48
          ∧ s'.getF Fld.LDG_STEP_STATUS_VALID = 1 ∧ s'.getF Fld.LDG_STEP_STATUS_TICK_CLEAN = 1
          ∧ s'.getF Fld.LDG_STEP_STATUS_CAUSE = 0 ∧ s'.getF Fld.LDG_STEP_STATUS_TICK_EVENTS = 0
          ∧ s'.ldg.history = (s.closedStep :: s.ldg.history).take 256 ∧ s'.ldg.opened = s.now
          ∧ Safety.keepsRegs s s' [RegId.LDG_STEP.addr, RegId.LDG_STEP_STATUS.addr] ∧ s'.mem = s.mem ∧ s'.bays = s.bays)
      ∧ (s.devState = stREADY → p ≠ .bar0 → Machine.exec (.stepAdvance p v) s = .next { s with lastCode := cSTATE_REJECT }))
  ∧ (∀ (p : RegPath) (v : Word) (s : State) (c : Nat), Safety.reaches s p .LDG_DIGEST_CTRL 0 0 (withBit Fld.LDG_DIGEST_CTRL_START v) →
      c = fieldOf v 0 3 →
      (s.ldg.digest = none → c < 4 → s.regionsOf c ≠ [] → (∀ i ∈ s.regionsOf c, s.writtenDigest i = none
          ∧ s.inMemory (s.regionAt i).1 (s.regionAt i).2 = true) → ∃ s' d, Machine.exec (.digestStart p v) s = .next s' ∧ s'.lastCode = cDONE
        ∧ s'.ldg.digest = some d ∧ d.cls = c ∧ d.done = []
        ∧ d.leaves = (s.regionsOf c).flatMap (fun i => leavesOf i (s.regionAt i).1 (s.regionAt i).2) ∧ d.total = d.leaves.length
        ∧ s'.getF Fld.LDG_DIGEST_PROG_STATE = 1 ∧ s'.getF Fld.LDG_DIGEST_PROG_POSITION = 0
        ∧ Safety.keepsRegs s s' [RegId.LDG_DIGEST_CTRL.addr, RegId.LDG_DIGEST_PROG.addr] ∧ s'.mem = s.mem)
      ∧ (s.ldg.digest ≠ none → p ≠ .bar0 → Machine.exec (.digestStart p v) s = .next { s with lastCode := cSTATE_REJECT }))
  ∧ (∀ (s : State) (x : Leaf) (rest : List Leaf) (bs : List Byte), s.ownRead 3 x.addr x.len = (s, cDONE, bs) → Safety.handedOver s →
      (s.ldg.baste.leaves = x :: rest → rest ≠ [] → s.basteState = 2 → s.getF Fld.LDG_BASTE_CTRL_PART_EN = 0 →
        Machine.exec .leafDigestDone s = .next (s.updBaste fun b => { b with leaves := rest, done := b.done ++ [(x.region, sha3 bs)] }))
      ∧ (∀ d, s.ldg.baste.leaves = [] → s.ldg.digest = some d → d.leaves = x :: rest → s.running 0x23 = none →
        (rest ≠ [] → ∃ s', Machine.exec .leafDigestDone s = .next s'
          ∧ s'.ldg.digest = some { d with leaves := rest, done := d.done ++ [(x.region, sha3 bs)] }
          ∧ s'.getF Fld.LDG_DIGEST_PROG_POSITION = (d.done.length + 1) % 2 ^ 32
          ∧ Safety.keepsRegs s s' [RegId.LDG_DIGEST_PROG.addr] ∧ s'.mem = s.mem)
        ∧ (rest = [] → ∃ s', Machine.exec .leafDigestDone s = .next s' ∧ s'.ldg.digest = none
          ∧ s'.classDigest d.cls = sha3 (leBytes 1 d.cls ++ leBytes 1 (s.regionsOf d.cls).length
              ++ (s.regionsOf d.cls).flatMap (({ d with leaves := [], done := d.done ++ [(x.region, sha3 bs)] } : DigestJob).region s))
          ∧ s'.getF Fld.LDG_DIGEST_PROG_STATE = 2 ∧ s'.getF Fld.LDG_DIGEST_PROG_CODE = 0 ∧ s'.mem = s.mem)))
  ∧ (∀ (p : RegPath) (v w : Word) (s : State), w = withBit Fld.LDG_BASTE_CTRL_FORCE v → Safety.reaches s p .LDG_BASTE_CTRL 0 0 w →
      s.basteState ≠ 3 → 1 ≤ fieldOf v 16 8 → fieldOf v 16 8 ≤ 100 → 1 ≤ fieldOf v 0 13 → fieldOf v 0 13 ≤ 4096 →
      (s.noThread = false → ∃ s', Machine.exec (.basteForce p v) s = .next s' ∧ s'.lastCode = cDONE ∧ s'.ldg.baste.forced = true
        ∧ s'.regs = (s.plainWrite .LDG_BASTE_CTRL 0 0 w).regs ∧ s'.mem = s.mem ∧ s'.bays = s.bays)
      ∧ (s.noThread = true → s.basteRuns = false → s.ldg.hem = none → s.slotIsRead = false → s.regionsOk s.secRegions = true → s.reserve.1 < s.reserve.2.2 →
        s.mapped s.reserve.1 (s.reserve.2.2 - s.reserve.1) = true → slotBytes s.secRegions ≤ s.reserve.2.1 - s.reserve.1 →
        ∃ s', Machine.exec (.basteForce p v) s = .next s' ∧ s'.lastCode = cDONE ∧ s'.basteState = 1
          ∧ s'.getF Fld.LDG_BASTE_STATUS_STEP = s.getF Fld.LDG_STEP_NUMBER ∧ s'.ldg.baste.regions = s.secRegions
          ∧ s'.getF Fld.LDG_BASTE_STATS_BASTES = (s.getF Fld.LDG_BASTE_STATS_BASTES + 1) % 2 ^ 16 ∧ s'.bays = s.bays))
  ∧ (∀ (s t u : State) (c : Code), s.basteState = 1 →
      (∀ b ∈ s.bays.map Prod.fst, s.bayQuiet (BitVec.ofNat 10 b) = true) → copyRegions s.reserve.1 s.ldg.baste.regions s = (t, c) →
      (c = cDONE → t.ownWrite 3 t.reserve.1 s.ldg.baste.head = (u, cDONE) → u.running 0x20 = none → Safety.handedOver u → u.openColls = [] →
        u.getF Fld.MSC_LEASE_STATE ≠ 2 → (s.ldg.baste.regions.flatMap fun r => leavesOf r.off (u.reserve.1 + r.off) r.len) ≠ [] →
        ∃ s', Machine.exec .basteCopyDone s = .next s' ∧ s'.basteState = 2 ∧ s'.mem = u.mem ∧ s'.bays = u.bays
          ∧ s'.ldg.baste.leaves = s.ldg.baste.regions.flatMap fun r => leavesOf r.off (u.reserve.1 + r.off) r.len)
      ∧ (c ≠ cDONE → t.host.cmds = [] → Safety.handedOver t → t.openColls = [] → t.getF Fld.MSC_LEASE_STATE ≠ 2 →
        ∃ s', Machine.exec .basteCopyDone s = .next s' ∧ s'.basteState = 6 ∧ s'.getF Fld.LDG_BASTE_STATUS_CODE = c.toNat
          ∧ s'.ldg.baste.due = true ∧ s'.mem = t.mem))
  ∧ (∀ s : State, s.basteState = 3 → s.ldg.baste.leaves = [] → s.host.cmds = [] → Safety.handedOver s →
      (∀ code, s.ldg.baste.fail = some code → ∀ i ∈ [Instr.basteTrickleLeaf code, .bastePartnered code], ∃ s', Machine.exec i s = .next s'
        ∧ s'.basteState = 5 ∧ s'.getF Fld.LDG_BASTE_STATUS_CODE = code.toNat ∧ s'.ldg.baste.trickle = []
        ∧ Safety.keepsRegs s s' [RegId.LDG_BASTE_STATUS.addr, RegId.LDG_BASTE_PROG.addr] ∧ s'.mem = s.mem)
      ∧ (∀ x rest bs (y : PairSrc), s.ldg.baste.fail = none → s.ldg.baste.begun = true → s.ldg.baste.trickle = x :: rest → rest ≠ [] →
        s.ownRead 3 x.addr x.len = (s, cDONE, bs) → s.fab.stalled = [] →
        s.fab.src (BitVec.ofNat 16 (s.getF Fld.LDG_BASTE_CTRL_PARTNER)) = some y → y.broken = false → y.waiting = [] →
        y.window ≤ y.unacked.length →
        ∃ s', Machine.exec (.basteTrickleLeaf cDONE) s = .next s' ∧ s'.basteState = 3 ∧ s'.ldg.baste.trickle = rest
          ∧ s'.ldg.baste.trickled = s.ldg.baste.trickled + x.len ∧ s'.mem = s.mem
          ∧ ∀ a, a = s.reserve.2.1 + (x.addr - s.reserve.1) →
            s'.fab.src y.dev = some { y with waiting := ledgerStores .baste (servingEp a) a x.len x.addr [] })
      ∧ (s.ldg.baste.fail = none → s.ldg.baste.closing = true → s.fab.reqsLeft (.ledger .baste) = false →
        ∃ s', Machine.exec (.bastePartnered cDONE) s = .next s' ∧ s'.basteState = 4 ∧ s'.getF Fld.LDG_BASTE_STATUS_CODE = cDONE.toNat
          ∧ Safety.keepsRegs s s' [RegId.LDG_BASTE_STATUS.addr, RegId.LDG_BASTE_PROG.addr] ∧ s'.mem = s.mem))
  ∧ (∀ s : State, ∃ s', Machine.exec .riskUpdate s = .next s'
      ∧ s'.getF Fld.LDG_RISK_TOTAL = min 255 (s'.getF Fld.LDG_RISK_MEM + s'.getF Fld.LDG_RISK_LINK + s'.getF Fld.LDG_RISK_LASER
          + s'.getF Fld.LDG_RISK_THERMAL + s'.getF Fld.LDG_RISK_AGE + s'.getF Fld.LDG_RISK_NBR)
      ∧ s'.getF Fld.LDG_RISK_LASER = min 64 (8 * s.fadedNow + 24 * s.noSpareNow)
      ∧ (s.now < s.ldg.nbrAt + 60000000000 → s'.getF Fld.LDG_RISK_NBR = s.getF Fld.LDG_RISK_NBR)
      ∧ Safety.keepsRegs s s' [RegId.LDG_RISK.addr] ∧ s'.mem = s.mem ∧ s'.bays = s.bays)
  ∧ (∀ (s : State) (h : HemJob) (p : Nat × Nat) (rest : List (Nat × Nat)) (c : Code) (bs : List Byte), s.ldg.hem = some h →
      h.pieces = p :: rest → h.fail = none → h.closing = false → h.begun = true → s.host.cmds = [] → Safety.handedOver s →
      s.ownRead 3 p.1 p.2 = (s, c, bs) →
      (c ≠ cDONE → ∃ s', Machine.exec (.hemStore cDONE) s = .next s' ∧ s'.ldg.hem = none ∧ s'.getF Fld.LDG_HEM_PROG_STATE = 3
        ∧ s'.getF Fld.LDG_HEM_PROG_CODE = c.toNat ∧ Safety.keepsRegs s s' [RegId.LDG_HEM_PROG.addr] ∧ s'.mem = s.mem)
      ∧ (∀ y : PairSrc, c = cDONE → s.fab.stalled = [] → s.fab.src (devOf h.coord) = some y → y.broken = false → y.waiting = [] →
        y.window ≤ y.unacked.length → ∃ s', Machine.exec (.hemStore cDONE) s = .next s'
        ∧ s'.ldg.hem = some { h with pieces := rest, sent := h.sent + p.2 }
        ∧ s'.fab.src y.dev = some { y with waiting := ledgerStores .hem (epOf h.coord) (h.obj + (p.1 - s.reserve.1)) p.2 p.1 [] }
        ∧ s'.getF Fld.LDG_HEM_PROG_POSITION = (h.sent + p.2) / 0x100000 % 2 ^ 32
        ∧ Safety.keepsRegs s s' [RegId.LDG_HEM_PROG.addr] ∧ s'.mem = s.mem))

/-- The eight events of plumb mode. -/
def Obligations.PlumbMode : Prop :=
  (∀ (partner : List Word) (s : State), s.getF Fld.LDG_PLUMB_STATE = 1 → s.getF Fld.LDG_PLUMB_START_MARK ≤ s.now →
      (partner.flatMap (fun w => leBytes 8 w.toNat) = s.classDigest 0 → ∃ s', Machine.exec (.plumbStartAtMark partner) s = .next s'
        ∧ s'.plumbing = true ∧ s'.getF Fld.LDG_PLUMB_STOP_MARK = 0 ∧ s'.ldg.plumb = ⟨[], [], [], [], s.now, 0⟩
        ∧ (∀ d h, d = BitVec.ofNat 16 (s.getF Fld.LDG_PLUMB_PARTNER) → h = s.headerFor s.devCoord d →
          ∃ y, s'.heldOf h = s.heldOf h ++ [y] ∧ y.p.type = 0xB ∧ devOf y.p.dst = d
            ∧ y.p.payload = notePayload .plumbProgram ((cutParts 8 64).map fun p => leNat (((s.classDigest 0).drop p.1).take p.2)))
        ∧ Safety.keepsRegs s s' [RegId.LDG_PLUMB.addr, RegId.LDG_PLUMB_STOP.addr] ∧ s'.mem = s.mem ∧ s'.bays = s.bays)
      ∧ (partner.flatMap (fun w => leBytes 8 w.toNat) ≠ s.classDigest 0 → s.getF Fld.LDG_PLUMB_REP0_VALID = 0 →
        ∃ s', Machine.exec (.plumbStartAtMark partner) s = .next s' ∧ s'.plumbing = true
          ∧ s'.getF Fld.LDG_PLUMB_CODE = cPLUMB_DIVERGED.toNat ∧ s'.getF Fld.LDG_PLUMB_REP0_VALID = 1
          ∧ s'.getF Fld.LDG_PLUMB_REP0_KIND = 3 ∧ s'.getF Fld.LDG_PLUMB_REP0_STEP = s.getF Fld.LDG_STEP_NUMBER
          ∧ s'.getF Fld.LDG_PLUMB_STATS_DIVERGE_CNT = (s.getF Fld.LDG_PLUMB_STATS_DIVERGE_CNT + 1) % 2 ^ 32
          ∧ s'.getF Fld.LDG_PLUMB_STOP_MARK = s.ownStop % 2 ^ 64))
  ∧ (∀ s : State, s.plumbing = true → ∃ s', Machine.exec .plumbBatchSend s = .next s' ∧ s'.ldg.plumb.toSend = []
      ∧ (∀ b, s'.plumbBay b = { s.plumbBay b with sent := (s.plumbBay b).count })
      ∧ s'.getF Fld.LDG_PLUMB_STATS_BATCHES = (s.getF Fld.LDG_PLUMB_STATS_BATCHES + 1) % 2 ^ 16
      ∧ Safety.keepsRegs s s' [RegId.LDG_PLUMB_STATS.addr] ∧ s'.mem = s.mem ∧ s'.bays = s.bays)
  ∧ (∀ (s : State), s.plumbing = true →
      (∀ (p : PlumbPair) (x : PlumbBay), x = s.plumbBay p.bay.toNat → x.theirs = [] → p.n ≤ x.count →
        ∃ s', Machine.exec (.plumbBatchArrival [p] []) s = .next s' ∧ s' = { s with ldg := s'.ldg, fab := s'.fab } ∧ s'.ldg.plumb.heard = s.now
          ∧ s'.plumbBay p.bay.toNat = { x with matched := if x.valueAt p.n = some p.p then max x.matched p.n else x.matched })
      ∧ (∀ c : PlumbChunk,
        (s.ldg.plumb.table.find? (fun x => x.own != false && keyOf x.chunk == keyOf c) = none →
          s.ldg.plumb.table.length < 8192 →
          ∃ s' e, Machine.exec (.plumbBatchArrival [] [c]) s = .next s' ∧ s' = { s with ldg := s'.ldg, fab := s'.fab }
            ∧ s'.ldg.plumb.table = s.ldg.plumb.table ++ [e] ∧ e.chunk = c ∧ e.own = false ∧ e.since = s.now)
        ∧ (∀ e, s.ldg.plumb.table.find? (fun x => x.own != false && keyOf x.chunk == keyOf c) = some e →
          ∃ s', Machine.exec (.plumbBatchArrival [] [c]) s = .next s' ∧ e ∉ s'.ldg.plumb.table
            ∧ (e.chunk.check = c.check → s'.regs = s.regs)
            ∧ (e.chunk.check ≠ c.check → s'.getF Fld.LDG_PLUMB_CODE = cPLUMB_DIVERGED.toNat
              ∧ s'.getF Fld.LDG_PLUMB_STATS_DIVERGE_CNT = (s.getF Fld.LDG_PLUMB_STATS_DIVERGE_CNT + 1) % 2 ^ 32))))
  ∧ (∀ (b : BayId) (es : List PlumbStrip) (s : State) (x : PlumbBay), s.plumbing = true → x = s.plumbBay b.toNat →
      (x.ring.reverse.find? (fun e => decide (x.matched ≤ e.1.n) && es.any fun t => t.n == e.1.n && t.check != e.1.check) = none →
        ∃ s', Machine.exec (.plumbEntryExchange b es) s = .next s' ∧ s' = { s with ldg := s'.ldg, fab := s'.fab } ∧ s'.ldg.plumb.heard = s.now)
      ∧ (∀ e, x.ring.reverse.find? (fun e => decide (x.matched ≤ e.1.n) && es.any fun t => t.n == e.1.n && t.check != e.1.check)
            = some e → s.getF Fld.LDG_PLUMB_REP0_VALID = 0 → ∃ s', Machine.exec (.plumbEntryExchange b es) s = .next s'
          ∧ s'.getF Fld.LDG_PLUMB_REP0_VALID = 1 ∧ s'.getF Fld.LDG_PLUMB_REP0_KIND = 0 ∧ s'.getF Fld.LDG_PLUMB_REP0_BAY = b.toNat
          ∧ s'.getF Fld.LDG_PLUMB_REP0_STEP = e.2 % 2 ^ 48 ∧ s'.getF Fld.LDG_PLUMB_REP1_OFF_LO = e.1.offLo.toNat
          ∧ s'.getF Fld.LDG_PLUMB_REP1_OFF_HI = e.1.offHi.toNat
          ∧ s'.getF Fld.LDG_PLUMB_STATS_DIVERGE_CNT = (s.getF Fld.LDG_PLUMB_STATS_DIVERGE_CNT + 1) % 2 ^ 32))
  ∧ (∀ (c : PlumbChunk) (e : PlumbEntry) (s : State), s.plumbing = true → s.now < s.ldg.plumb.heard + 2000000 →
      s.ldg.plumb.table.find? (fun e => e.chunk == c && decide (e.since + 2000000 ≤ s.now)) = some e →
      ∃ s', Machine.exec (.plumbUnmatchedTimeout c) s = .next s' ∧ s'.ldg.plumb.table = s.ldg.plumb.table.erase e
        ∧ s'.getF Fld.LDG_PLUMB_CODE = cPLUMB_DIVERGED.toNat
        ∧ s'.getF Fld.LDG_PLUMB_STATS_DIVERGE_CNT = (s.getF Fld.LDG_PLUMB_STATS_DIVERGE_CNT + 1) % 2 ^ 32
        ∧ (s.getF Fld.LDG_PLUMB_REP0_VALID = 0 → s'.getF Fld.LDG_PLUMB_REP0_KIND = 2))
  ∧ (∀ (mark : Word) (rep : PlumbReport) (s : State), s.plumbing = true →
      (s.getF Fld.LDG_PLUMB_STOP_MARK = 0 → s.ownStop < 2 ^ 64 → ∃ s', Machine.exec (.plumbStopMarkArrival mark rep) s = .next s'
        ∧ s'.getF Fld.LDG_PLUMB_STOP_MARK = min s.ownStop mark.toNat ∧ s'.getF Fld.LDG_PLUMB_CODE = cPLUMB_DIVERGED.toNat
        ∧ (s.getF Fld.LDG_PLUMB_REP0_VALID = 0 → s'.getF Fld.LDG_PLUMB_REP0_VALID = 1
          ∧ ∀ f ∈ [Fld.LDG_PLUMB_REP0_KIND, Fld.LDG_PLUMB_REP0_BAY, Fld.LDG_PLUMB_REP0_STEP], s'.getF f = f.of rep.rep0)
        ∧ (s.getF Fld.LDG_PLUMB_REP0_VALID = 0 → (∀ f ∈ [Fld.LDG_PLUMB_REP1_OFF_LO, Fld.LDG_PLUMB_REP1_OFF_HI, Fld.LDG_PLUMB_REP1_INDEX], s'.getF f = f.of rep.rep1)
          ∧ ∀ f ∈ [Fld.LDG_PLUMB_REP2_SEQ, Fld.LDG_PLUMB_REP2_GROUP], s'.getF f = f.of rep.rep2))
      ∧ (s.getF Fld.LDG_PLUMB_STOP_MARK ≠ 0 → ∃ s', Machine.exec (.plumbStopMarkArrival mark rep) s = .next s'
        ∧ s'.getF Fld.LDG_PLUMB_STOP_MARK = min (s.getF Fld.LDG_PLUMB_STOP_MARK) mark.toNat ∧ s'.ldg.plumb.heard = s.now
        ∧ Safety.keepsRegs s s' [RegId.LDG_PLUMB_STOP.addr]))
  ∧ (∀ s : State, s.plumbing = true → s.getF Fld.LDG_PLUMB_STOP_MARK ≠ 0 → s.getF Fld.LDG_PLUMB_STOP_MARK ≤ s.now →
      s.basteState ≠ 1 → ∃ s', Machine.exec .plumbStopAtMark s = .next s' ∧ s'.getF Fld.LDG_PLUMB_STATE = 3
        ∧ s'.getF Fld.LDG_PLUMB_CODE = cPLUMB_DIVERGED.toNat ∧ s'.getF Fld.LDG_STEP_STATUS_VALID = 0
        ∧ s'.host.job = s.host.job.map (fun j => { j with plumb := true })
        ∧ (∀ (b : BayId) (t : Thread), b.toNat ∈ s.bays.map Prod.fst → (s.thr b t).status.st = .run → (s.thr b t).stop = none →
          (s'.thr b t).status.st = .drain) ∧ s'.mem = s.mem
        ∧ Safety.keepsRegs s s' [RegId.LDG_PLUMB.addr, RegId.LDG_STEP_STATUS.addr])
  ∧ (∀ s : State, s.plumbing = true → s.ldg.plumb.heard + 2000000 ≤ s.now →
      ∃ s', Machine.exec .plumbPartnerLost s = .next s' ∧ s'.getF Fld.LDG_PLUMB_STATE = 4 ∧ s'.getF Fld.MSC_EVENT_PLUMB_LOST = 1
        ∧ s'.getF Fld.MSC_EVENT_CNT_PLUMB_LOST = (s.getF Fld.MSC_EVENT_CNT_PLUMB_LOST + 1) % 2 ^ 32
        ∧ s'.ldg.history = s.ldg.history.map (fun r => { r with matched := s.stepMatched r, strips := none }) ∧ s'.mem = s.mem ∧ s'.bays = s.bays)

/-- EPOCH_ARM, EPOCH_CHANGE_AT_MARK, LEASE_EXPIRY, LEASE_GRACE_EXPIRY, LEASE, RENEW, EXPEL, QUARANTINE and RELEASE. -/
def Obligations.EpochsLeasesAndMembership : Prop :=
  (∀ (p : RegPath) (v : Word) (s : State), Safety.reaches s p .ABR_EPOCH_CTRL 0 0 (withBit Fld.ABR_EPOCH_CTRL_ARM v) → Safety.handedOver s →
      (s.epochOpen = true → s.now < s.getF Fld.ABR_EPOCH_MARK_MARK → ∃ s', Machine.exec (.epochArm p v) s = .next s' ∧ s'.lastCode = cDONE
        ∧ s'.getF Fld.ABR_EPOCH_CTRL_STATE = 1 ∧ s' = { s with regs := s'.regs, lastCode := cDONE }
        ∧ Safety.keepsRegs s s' [RegId.ABR_EPOCH_CTRL.addr])
      ∧ (s.epochOpen = false → p ≠ .bar0 → Machine.exec (.epochArm p v) s = .next { s with lastCode := cSTATE_REJECT }))
  ∧ (∀ s : State, s.getF Fld.ABR_EPOCH_CTRL_STATE = 1 → s.getF Fld.ABR_EPOCH_MARK_MARK ≤ s.now → Safety.handedOver s →
      (s.devState = stHOLD → Machine.exec .epochChangeAtMark s = .next s)
      ∧ (s.devState ≠ stHOLD → s.openColls = [] → s.fab.early = [] → ∃ s', Machine.exec .epochChangeAtMark s = .next s'
        ∧ s'.getF Fld.ABR_EPOCH_CURRENT = s.getF Fld.ABR_EPOCH_NEXT ∧ s'.getF Fld.ABR_EPOCH_CTRL_STATE = 2
        ∧ s'.getF Fld.ABR_EPOCH_CTRL_ABORTS = s.getF Fld.ABR_EPOCH_CTRL_ABORTS
        ∧ s'.ldg.launches = (s.getF Fld.ABR_EPOCH_MARK_MARK, s.now) :: s.ldg.launches
        ∧ Safety.keepsRegs s s' [RegId.ABR_EPOCH.addr, RegId.ABR_EPOCH_CTRL.addr, RegId.SCR_LAUNCH.addr, RegId.LDG_STEP_STATUS.addr]
        ∧ s'.mem = s.mem ∧ s'.bays = s.bays))
  ∧ (∀ s : State, s.getF Fld.MSC_LEASE_EN = 1 → s.getF Fld.MSC_LEASE_STATE = 1 →
      (s.devState = stRUN ∨ s.devState = stQUARANTINE ∨ s.devState = stHOLD → s.ldg.hem = none → s.basteState ≠ 3 →
        s.mgmt.events.length < 64 → ∃ s' e, Machine.exec .leaseExpiry s = .next s' ∧ s'.getF Fld.MSC_LEASE_STATE = 2
          ∧ s'.getF Fld.MSC_LEASE_REMAIN = 0 ∧ s'.getF Fld.MSC_LEASE_CNT_EXPIRIES = (s.getF Fld.MSC_LEASE_CNT_EXPIRIES + 1) % 2 ^ 32
          ∧ s'.ldg.baste.due = true ∧ s'.mgmt.events = s.mgmt.events ++ [e] ∧ e.code = 6
          ∧ Safety.keepsRegs s s' [RegId.MSC_LEASE.addr, RegId.MSC_LEASE_CNT.addr] ∧ s'.mem = s.mem ∧ s'.bays = s.bays)
      ∧ (s.devState = stREADY → ∃ s', Machine.exec .leaseExpiry s = .next s' ∧ s'.getF Fld.MSC_LEASE_STATE = 3
        ∧ s'.getF Fld.MSC_LEASE_REMAIN = 0 ∧ s'.devState = stHELD
        ∧ s'.getF Fld.MSC_LEASE_CNT_EXPIRIES = (s.getF Fld.MSC_LEASE_CNT_EXPIRIES + 1) % 2 ^ 32 ∧ s'.mem = s.mem ∧ s'.bays = s.bays))
  ∧ (∀ s : State, s.getF Fld.MSC_LEASE_STATE = 2 → s.basteState ≠ 1 → s.openColls = [] → s.host.job = none → Safety.handedOver s →
      ∃ s', Machine.exec .leaseGraceExpiry s = .next s' ∧ s'.devState = stHELD ∧ s'.getF Fld.MSC_LEASE_STATE = 3
        ∧ s'.getF Fld.LDG_STEP_STATUS_VALID = 0 ∧ s'.mem = s.mem ∧ s'.bays = s.bays)
  ∧ (∀ (tag : Byte) (p : List Byte) (s : State) (len grace : Nat), Safety.requested s 0x10 tag p →
      len = orDefault (payBits p 31 16) 2000 → grace = orDefault (payBits p 47 32) 500 →
      (p.length = 6 → payBits p 0 0 = 1 → 100 ≤ len → len ≤ 60000 → grace ≤ 10000 → ∃ s', Machine.exec .lease s = .next s'
        ∧ s'.getF Fld.MSC_LEASE_EN = 1 ∧ s'.getF Fld.MSC_LEASE_STATE = 1 ∧ s'.getF Fld.MSC_LEASE_LENGTH = len
        ∧ s'.getF Fld.MSC_LEASE_GRACE = grace ∧ s'.getF Fld.MSC_LEASE_REMAIN = len ∧ Safety.replied s' 0x10 tag cDONE []
        ∧ Safety.keepsRegs s s' [RegId.MSC_LEASE.addr] ∧ s'.mem = s.mem ∧ s'.bays = s.bays)
      ∧ (p.length = 6 → payBits p 0 0 = 0 → ∃ s', Machine.exec .lease s = .next s' ∧ s'.getF Fld.MSC_LEASE_EN = 0
        ∧ s'.getF Fld.MSC_LEASE_STATE = 0 ∧ Safety.replied s' 0x10 tag cDONE [])
      ∧ ((p.length ≠ 6 ∨ (payBits p 0 0 = 1 ∧ (len < 100 ∨ 60000 < len ∨ 10000 < grace))) → ∃ s', Machine.exec .lease s = .next s'
        ∧ Safety.replied s' 0x10 tag cRANGE [] ∧ Safety.keepsRegs s s' [RegId.MSC_MGMT_ERR.addr]))
  ∧ (∀ (tag : Byte) (s : State), Safety.requested s 0x11 tag [] → ∃ s', Machine.exec .renew s = .next s'
      ∧ s'.getF Fld.MSC_LEASE_STATE = 1 ∧ s'.getF Fld.MSC_LEASE_REMAIN = s.getF Fld.MSC_LEASE_LENGTH
      ∧ s'.getF Fld.MSC_LEASE_CNT_RENEWALS = (s.getF Fld.MSC_LEASE_CNT_RENEWALS + 1) % 2 ^ 32
      ∧ s'.devState = (if s.devState = stHELD then stREADY else s.devState) ∧ Safety.replied s' 0x11 tag cDONE []
      ∧ s'.mem = s.mem ∧ s'.bays = s.bays)
  ∧ (∀ (tag : Byte) (s : State), Safety.requested s 0x12 tag [] → s.basteState ≠ 1 → s.host.job = none → s.openColls = [] →
      Safety.handedOver s → ∃ s', Machine.exec .expel s = .next s' ∧ s'.devState = stREADY ∧ s'.getF Fld.LDG_STEP_STATUS_VALID = 0
        ∧ s'.getF Fld.LDG_PLUMB_EN = 0 ∧ s'.getF Fld.LDG_PLUMB_STATE = 0 ∧ s'.getF Fld.MSC_LEASE_EN = 0
        ∧ s'.getF Fld.MSC_LEASE_STATE = 0 ∧ Safety.replied s' 0x12 tag cDONE [] ∧ s'.mem = s.mem)
  ∧ (∀ (tag : Byte) (s : State),
      (Safety.requested s 0x13 tag [] → ∃ s', Machine.exec .quarantine s = .next s' ∧ s'.devState = stQUARANTINE
        ∧ Safety.replied s' 0x13 tag cDONE [] ∧ s'.mem = s.mem ∧ s'.bays = s.bays)
      ∧ (Safety.requested s 0x14 tag [] → ∃ s', Machine.exec .release s = .next s' ∧ s'.devState = stRUN
        ∧ Safety.replied s' 0x14 tag cDONE [] ∧ s'.mem = s.mem ∧ s'.bays = s.bays))

/-- The events and registers of the host interface. -/
def Obligations.RingsAndRecords : Prop :=
  (∀ (q : Fin 16) (v : Word) (s : State),
      (Safety.reaches s .bar0 .MSC_SQ_TAIL q.val 0 v →
        ((Fld.MSC_SQ_TAIL_TAIL q.val).of v < s.sqSize q → Machine.exec (.sqTailDoorbell q v) s = .next
          { s.setF (Fld.MSC_SQ_TAIL_TAIL q.val) ((Fld.MSC_SQ_TAIL_TAIL q.val).of v) with lastCode := cDONE })
        ∧ (s.sqSize q ≤ (Fld.MSC_SQ_TAIL_TAIL q.val).of v → ∃ s', Machine.exec (.sqTailDoorbell q v) s = .next s'
          ∧ s'.getF (Fld.MSC_SQ_TAIL_TAIL q.val) = s.getF (Fld.MSC_SQ_TAIL_TAIL q.val)
          ∧ s'.getF Fld.MSC_HOST_ERR_CNT_COUNT = (s.getF Fld.MSC_HOST_ERR_CNT_COUNT + 1) % 2 ^ 32
          ∧ (s.getF Fld.MSC_HOST_ERR_VALID = 0 → s'.getF Fld.MSC_HOST_ERR_KIND = 2 ∧ s'.getF Fld.MSC_HOST_ERR_RING = q.val
            ∧ s'.getF Fld.MSC_HOST_ERR_CODE = cRANGE.toNat)))
      ∧ (Safety.reaches s .bar0 .MSC_CQ_HEAD q.val 0 v → (Fld.MSC_CQ_HEAD_HEAD q.val).of v < s.cqSize q →
        ((Fld.MSC_CQ_HEAD_HEAD q.val).of v + s.cqSize q - s.getF (Fld.MSC_CQ_HEAD_HEAD q.val)) % s.cqSize q
          ≤ (s.cqTail q + s.cqSize q - s.getF (Fld.MSC_CQ_HEAD_HEAD q.val)) % s.cqSize q →
        Machine.exec (.cqHeadDoorbell q v) s = .next
          { s.setF (Fld.MSC_CQ_HEAD_HEAD q.val) ((Fld.MSC_CQ_HEAD_HEAD q.val).of v) with lastCode := cDONE }))
  ∧ (∀ (q : Fin 16) (bs : List Byte) (s : State) (c : HostCmd), c = cmdOf s.host.next q bs → bs.length = 64 →
      s.mayFetch q (c.flags.testBit 1) = true → (∀ d ∈ s.host.cmds, d.k < s.host.next) →
      (formatOk c bs = true → c.launched = false → ∃ s', Machine.exec (.descriptorFetch q (.data bs)) s = .next s'
        ∧ s'.host = { s.host with next := s.host.next + 1, cmds := s.host.cmds ++ [c], turn := s.takeTurn q 1 }
        ∧ s'.getF (Fld.MSC_SQ_STATUS_HEAD q.val) = (s.getF (Fld.MSC_SQ_STATUS_HEAD q.val) + 1) % s.sqSize q % 2 ^ 16
        ∧ Safety.keepsRegs s s' [RegId.MSC_SQ_STATUS.addr q.val] ∧ s'.mem = s.mem ∧ s'.bays = s.bays)
      ∧ (formatOk c bs = true → c.launched = true → s.launchQueue.length < 256 → s.now < c.mark.toNat →
        ∃ s', Machine.exec (.descriptorFetch q (.data bs)) s = .next s' ∧ s'.cmd c.k = some { c with stage := .launch }
          ∧ Safety.keepsRegs s s' [RegId.MSC_SQ_STATUS.addr q.val] ∧ s'.mem = s.mem ∧ s'.bays = s.bays)
      ∧ (formatOk c bs = false → ∃ s', Machine.exec (.descriptorFetch q (.data bs)) s = .next s'
        ∧ Safety.recorded s s' c cMALFORMED ∧ s'.mem = s.mem ∧ s'.bays = s.bays))
  ∧ (∀ (q : Fin 16) (bs : List Byte) (s : State), bs.length = 64 →
      (s.nextRing ≠ some q.val → Machine.exec (.descriptorFetch q (.data bs)) s = .next s)
      ∧ (s.nextRing = some q.val → (cmdOf s.host.next q bs).flags.testBit 1 = true → s.outstanding q.val ≠ 0 →
        Machine.exec (.descriptorFetch q (.data bs)) s = .next { s with host := { s.host with turn := s.takeTurn q (s.sqWeight q) } }))
  ∧ (∀ (q : Fin 16) (s : State), s.mayFetch q false = true → ∀ r ∈ [HostReadResult.unsupported, .completerAbort, .poison, .timeout],
      ∃ s', Machine.exec (.descriptorFetch q r) s = .next s' ∧ s'.getF (Fld.MSC_SQ_CFG_STATE q.val) = 2 ∧ s'.host.cmds = s.host.cmds
        ∧ (s.getF Fld.MSC_HOST_ERR_VALID = 0 → s'.getF Fld.MSC_HOST_ERR_KIND = 3 ∧ s'.getF Fld.MSC_HOST_ERR_RING = q.val
          ∧ s'.getF Fld.MSC_HOST_ERR_CODE = (hostReadCode r).toNat) ∧ s'.mem = s.mem)
  ∧ (∀ (q : Fin 16) (s : State) (r : Record) (rest : List Record), s.waitingOf q = r :: rest → s.ringsRun = true → s.cqRoom q = true →
      (s.getF (Fld.MSC_CQ_CFG_INT_EN q.val) = 0 → ∃ s', Machine.exec (.completionRecordWrite q .written) s = .next s' ∧ s'.waitingOf q = rest
        ∧ s'.cqWritten q = s.cqWritten q + 1 ∧ s'.regs = s.regs ∧ s'.mem = s.mem
        ∧ s'.host.mem = (s.hostWrite (s.getF (Fld.MSC_CQ_BASE_BASE q.val) * 4096 + 32 * s.cqTail q) (s.recordBytes r (s.cqPhase q))).host.mem)
      ∧ (∃ s', Machine.exec (.completionRecordWrite q .failed) s = .next s' ∧ s'.waitingOf q = r :: rest
        ∧ s'.getF (Fld.MSC_CQ_CFG_STATE q.val) = 2
        ∧ (s.getF Fld.MSC_HOST_ERR_VALID = 0 → s'.getF Fld.MSC_HOST_ERR_KIND = 4 ∧ s'.getF Fld.MSC_HOST_ERR_RING = q.val))
      ∧ (s.getF (Fld.MSC_CQ_CFG_INT_EN q.val) = 1 → s.getF (Fld.MSC_CQ_CFG_COAL_CNT q.val) ≤ s.sinceOf q + 1 →
        s.getF (Fld.MSC_MSIX_CTRL_MASK (s.getF (Fld.MSC_CQ_CFG_VECTOR q.val))) = 0 →
        ∃ s', Machine.exec (.completionRecordWrite q .messageFailed) s = .next s' ∧ s'.waitingOf q = rest
          ∧ (s'.getF Fld.MSC_MSIX_PBA_PENDING).testBit (s.getF (Fld.MSC_CQ_CFG_VECTOR q.val)) = true
          ∧ s'.getF Fld.MSC_HOST_ERR_CNT_COUNT = (s.getF Fld.MSC_HOST_ERR_CNT_COUNT + 1) % 2 ^ 32
          ∧ (s.getF Fld.MSC_HOST_ERR_VALID = 0 → s'.getF Fld.MSC_HOST_ERR_KIND = 5) ∧ s'.mem = s.mem))
  ∧ (∀ (q : Fin 16) (s : State) (v : Nat), s.getF (Fld.MSC_CQ_CFG_INT_EN q.val) = 1 → 0 < s.getF (Fld.MSC_CQ_CFG_COAL_US q.val) →
      0 < s.sinceOf q → v = s.getF (Fld.MSC_CQ_CFG_VECTOR q.val) → ∃ s', Machine.exec (.interruptCoalesceTimeout q) s = .next s'
        ∧ s'.sinceOf q = 0 ∧ (s.getF (Fld.MSC_MSIX_CTRL_MASK v) = 1 → s'.host.mem = s.host.mem
          ∧ s'.getF Fld.MSC_MSIX_PBA_PENDING = (s.getF Fld.MSC_MSIX_PBA_PENDING ||| 2 ^ v) % 2 ^ 64)
        ∧ (s.getF (Fld.MSC_MSIX_CTRL_MASK v) = 0 → s'.regs = s.regs ∧ s'.host.mem = (s.hostWrite (s.getF (Fld.MSC_MSIX_ADDR_ADDR v))
          (leBytes 4 (s.getF (Fld.MSC_MSIX_CTRL_DATA v)))).host.mem) ∧ s'.mem = s.mem)
  ∧ (∀ (q : Fin 16) (off : BitVec 20) (v : Word) (s : State),
      (bar0Base + off.toNat = RegId.MSC_SQ_BASE.addr q.val → Safety.reaches s .bar0 .MSC_SQ_BASE q.val 0 v →
        s.getF (Fld.MSC_SQ_CFG_EN q.val) = 0 → Machine.exec (.ringConfigWrite off v) s = .next
          { s.plainWrite .MSC_SQ_BASE q.val 0 v with lastCode := cDONE })
      ∧ (bar0Base + off.toNat = RegId.MSC_SQ_CFG.addr q.val → Safety.reaches s .bar0 .MSC_SQ_CFG q.val 0 v →
        s.getF (Fld.MSC_SQ_CFG_EN q.val) = 0 → (Fld.MSC_SQ_CFG_EN q.val).of v = 1 → sizeOk ((Fld.MSC_SQ_CFG_SIZE_LOG2 q.val).of v) = true →
        ∃ s', Machine.exec (.ringConfigWrite off v) s = .next s' ∧ s'.lastCode = cDONE ∧ s'.getF (Fld.MSC_SQ_CFG_EN q.val) = 1
          ∧ s'.getF (Fld.MSC_SQ_CFG_STATE q.val) = 1 ∧ s'.getF (Fld.MSC_SQ_STATUS_HEAD q.val) = 0
          ∧ s'.getF (Fld.MSC_SQ_TAIL_TAIL q.val) = 0
          ∧ Safety.keepsRegs s s' [RegId.MSC_SQ_CFG.addr q.val, RegId.MSC_SQ_STATUS.addr q.val, RegId.MSC_SQ_TAIL.addr q.val]))
  ∧ (∀ (k : Nat) (s : State) (c : HostCmd) (x : HostRead) (xs : List HostRead), s.cmd k = some c → c.k = k → c.op = 0x02 →
      c.stage = .running → c.toRead = 0 → c.reads = x :: xs → s.host.holdAsked = none → Safety.handedOver s →
      (∀ bs : List Byte, bs.length = x.len → 0 < x.len → x.dig = none → bayAddr 0 0 ≤ x.dev → x.dev + x.len ≤ bayAddr 1023 0x100000 →
        s.clockOff = false → s.cutRange x.dev x.len = false →
        s.ecc1 = [] → s.ecc2 = [] → ∃ s', Machine.exec (.hostReadCompletion k (.data bs)) s = .next s' ∧ Safety.recorded s s' c cDONE
          ∧ s'.mem = (s.setMemBytes x.dev bs).mem ∧ s'.bays = s.bays)
      ∧ (∀ r ∈ [HostReadResult.unsupported, .completerAbort, .poison, .timeout], ∃ s', Machine.exec (.hostReadCompletion k r) s = .next s'
        ∧ Safety.recorded s s' c (hostReadCode r) ∧ s'.mem = s.mem ∧ s'.bays = s.bays)
      ∧ (∃ s', Machine.exec (.hostCompletionTimeout k) s = .next s' ∧ Safety.recorded s s' c cTIMEOUT ∧ s'.mem = s.mem ∧ s'.bays = s.bays))
  ∧ (∀ (s : State) (r : HostReset), ∀ x ∈ [Instr.functionLevelReset r, .perstAssert], ∃ s', Machine.exec x s = .next s'
      ∧ (∀ q : Fin 16, s'.getF (Fld.MSC_SQ_CFG_EN q.val) = 0 ∧ s'.getF (Fld.MSC_CQ_CFG_EN q.val) = 0
        ∧ s'.getF (Fld.MSC_SQ_STATUS_HEAD q.val) = 0 ∧ s'.getF (Fld.MSC_SQ_TAIL_TAIL q.val) = 0 ∧ s'.getF (Fld.MSC_CQ_HEAD_HEAD q.val) = 0)
      ∧ s'.host.waiting = [] ∧ s'.launchQueue = [] ∧ s'.getF Fld.MSC_MSIX_PBA_PENDING = 0 ∧ s'.host.mem = s.host.mem
      ∧ s'.mem = s.mem ∧ s'.bays = s.bays ∧ s'.fab = s.fab ∧ s'.devState = s.devState)

/-- NOP, WRITE, READ, COPY, FILL, REG_WRITE, XFER, JOB_LOAD, JOB_START, JOB_STOP, JOB_END, HOLD and RESUME, and the state check of
every host command. -/
def Obligations.HostCommandsStart : Prop :=
  (∀ (k : Nat) (s : State) (c : HostCmd) (m v w : HostReadResult), s.cmd k = some c → c.stage = .fetched → c.k = k →
      s.endJob = s → s.dmaRunning.length < 64 → s.host.late = [] → Safety.handedOver s → opStates c.op s.cmdState = false →
      ∀ x ∈ [(0x01, Instr.nop k), (0x02, .write k), (0x03, .read k), (0x04, .copy k), (0x05, .fill k), (0x06, .regWrite k),
          (0x07, .xfer k), (0x10, .jobLoad k), (0x11, .jobStart k m), (0x12, .jobStop k), (0x13, .hold k), (0x14, .resume k),
          (0x20, .baste k), (0x21, .hem k), (0x22, .restore k v w), (0x23, .digest k), (0x24, .record k), (0x30, .scrub k),
          (0x31, .fold (.host k)), (0x32, .retrain k), (0x33, .circuit k)],
        c.op = x.1 → ∃ s', Machine.exec x.2 s = .next s' ∧ Safety.recorded s s' c cSTATE_REJECT ∧ s'.mem = s.mem ∧ s'.bays = s.bays
          ∧ s'.ldg = s.ldg ∧ s'.hbm = s.hbm ∧ Safety.keepsRegs s s' [RegId.MSC_SQ_CFG.addr c.sq])
  ∧ (∀ (k : Nat) (s : State) (c : HostCmd), Safety.starts s k 0x01 c → c.k = k → ∃ s', Machine.exec (.nop k) s = .next s'
      ∧ Safety.recorded s s' c cDONE ∧ s'.mem = s.mem ∧ s'.bays = s.bays ∧ Safety.keepsRegs s s' [RegId.MSC_SQ_CFG.addr c.sq])
  ∧ (∀ (k : Nat) (s : State) (c : HostCmd), Safety.starts s k 0x02 c → c.k = k → s.writeOk (c.op_ 1) (c.op_ 2) = true →
      s.access .host s.devCoord permW (c.f 1 0 48) (c.op_ 2).toNat = (s, true) → ∃ s', Machine.exec (.write k) s = .next s'
        ∧ s'.cmd k = some { c with stage := .running, reads := [hostReadOf (c.op_ 0) (c.op_ 1) (c.op_ 2)] }
        ∧ s' = { s with host := { s.host with cmds := s'.host.cmds } })
  ∧ (∀ (k : Nat) (s : State) (c : HostCmd) (a n : Nat), c.k = k → s.host.holdAsked = none → s.ecc1 = [] → s.ecc2 = [] →
      Safety.handedOver s → s.clockOff = false → s.cutRange a n = false →
      bayAddr 0 0 ≤ a → a + n ≤ bayAddr 1023 0x100000 → 0 < n → n ≤ 4096 →
      (Safety.starts s k 0x03 c → a = c.f 1 0 48 → n = (c.op_ 2).toNat → s.access .host s.devCoord permR a n = (s, true) →
        ∃ s', Machine.exec (.read k) s = .next s' ∧ Safety.recorded s s' c cDONE
          ∧ s'.host.mem = (s.hostWrite (c.op_ 0).toNat (s.memBytes a n)).host.mem ∧ s'.mem = s.mem ∧ s'.bays = s.bays)
      ∧ (Safety.starts s k 0x05 c → a = (c.op_ 0).toNat → n = (c.op_ 1).toNat → a % 8 = 0 → n % 8 = 0 →
        s.access .host s.devCoord permW a n = (s, true) → ∃ s', Machine.exec (.fill k) s = .next s' ∧ Safety.recorded s s' c cDONE
          ∧ (∀ i, i < n → s'.memByte (a + i) = BitVec.ofNat 8 ((c.op_ 2).toNat / 256 ^ (i % 8))) ∧ Safety.keepsMem s s' a n
          ∧ s'.bays = s.bays))
  ∧ (∀ (k : Nat) (s : State) (c : HostCmd) (m : DmaMove), c.k = k → m = s.moveOf c → m.dev = s.devCoord → s.dmaRunning.length < 64 →
      Safety.handedOver s → s.clockOff = false → s.cutRange m.loc m.len = false → s.cutRange m.rem m.len = false →
      s.host.holdAsked = none → s.ecc1 = [] → s.ecc2 = [] → 8 ≤ m.len → m.len ≤ 2048 → m.loc % 8 = 0 → m.rem % 8 = 0 → m.len % 8 = 0 →
      bayAddr 0 0 ≤ m.loc → m.loc + m.len ≤ bayAddr 1023 0x100000 → bayAddr 0 0 ≤ m.rem → m.rem + m.len ≤ bayAddr 1023 0x100000 →
      (m.loc + m.len ≤ m.rem ∨ m.rem + m.len ≤ m.loc) →
      s.access .host s.devCoord (if m.pull then permW else permR) m.loc m.len = (s, true) →
      (∀ t : State, t.regs = s.regs → t.access .hdma t.devCoord (if m.pull then permR else permW) m.rem m.len = (t, true)) →
      ∀ x ∈ [(0x04, Instr.copy k), (0x07, .xfer k)], Safety.starts s k x.1 c → ∃ s', Machine.exec x.2 s = .next s'
        ∧ Safety.recorded s s' c cDONE ∧ s'.bays = s.bays
        ∧ s'.mem = (if m.pull then s.setMemBytes m.loc (s.memBytes m.rem m.len) else s.setMemBytes m.rem (s.memBytes m.loc m.len)).mem)
  ∧ (∀ (k : Nat) (s : State) (c : HostCmd) (b : BayId), Safety.starts s k 0x06 c → c.k = k → Safety.handedOver s →
      (c.op_ 0).toNat = RegId.BAY_MAIN_PC.addr b.toNat → Safety.reaches s .hostCmd .BAY_MAIN_PC b.toNat 0 (c.op_ 1) →
      ∃ s', Machine.exec (.regWrite k) s = .next s' ∧ Safety.recorded s s' c cDONE
        ∧ s'.getF (Fld.BAY_MAIN_PC_PC b.toNat) = fieldOf (c.op_ 1) 3 17 ∧ s'.mem = s.mem ∧ s'.bays = s.bays
        ∧ Safety.keepsRegs s s' [RegId.BAY_MAIN_PC.addr b.toNat, RegId.MSC_SQ_CFG.addr c.sq])
  ∧ (∀ (k : Nat) (s : State) (c : HostCmd), Safety.starts s k 0x10 c → c.k = k → (c.op_ 0).toNat % 64 = 0 → 0 < c.f 1 0 17 →
      c.f 1 0 17 ≤ 65536 → ∃ s', Machine.exec (.jobLoad k) s = .next s' ∧ s'.cmd k = some { c with stage := .running, toRead := c.f 1 0 17 }
        ∧ s'.getF Fld.MSC_STATE_JOB_LOADED = 0 ∧ s'.getF Fld.MSC_LOAD_PROG_STATE = 1 ∧ s'.devState = s.devState
        ∧ Safety.keepsRegs s s' [RegId.MSC_STATE.addr, RegId.MSC_LOAD_PROG.addr] ∧ s'.mem = s.mem ∧ s'.bays = s.bays)
  ∧ (∀ (k : Nat) (s : State) (c : HostCmd) (bs : List Byte) (b : BayId), Safety.starts s k 0x11 c → c.k = k →
      s.getF Fld.MSC_STATE_JOB_LOADED = 1 → s.host.job = none → s.getF Fld.ABR_CTRL_FAB_EN = 1 → c.op_ 0 ≠ 0 → maskBays bs = [b.toNat] →
      (s.bay b).live = false → (s.bay b).colls = [] → Safety.handedOver s → ∃ s' j, Machine.exec (.jobStart k (.data bs)) s = .next s' ∧ s'.devState = stRUN ∧ s'.host.job = some j
        ∧ j.cmd = some k ∧ j.bays = [b.toNat] ∧ (s'.thr b .main).status.st = .run
        ∧ (s'.thr b .main).pc = BitVec.ofNat 20 (8 * s.getF (Fld.BAY_MAIN_PC_PC b.toNat))
        ∧ s'.getF (Fld.BAY_CTRL_SEAM_EN b.toNat) = c.f 1 0 1 ∧ Safety.keepsBays s s' b ∧ s'.mem = s.mem)
  ∧ (∀ (k : Nat) (s : State) (c : HostCmd) (j : Job), Safety.starts s k 0x12 c → c.k = k → s.host.job = some j →
      (∃ b ∈ j.bays, (s.bay (BitVec.ofNat 10 b)).live = true) → ∃ s', Machine.exec (.jobStop k) s = .next s'
        ∧ s'.host.job = some { j with stopped := true } ∧ s'.cmd k = some { c with stage := .running } ∧ s'.mem = s.mem ∧ s'.regs = s.regs)
  ∧ (∀ (s : State) (j : Job) (k : Nat) (c : HostCmd), s.host.job = some j → s.devState = stRUN → j.lease = false → j.cmd = some k →
      s.cmd k = some c → c.k = k → (∀ b ∈ j.bays, (s.bay (BitVec.ofNat 10 b)).live = false) → (∀ d ∈ s.host.cmds, d.op ≠ 0x12) →
      ∃ s', Machine.exec .jobEnd s = .next s' ∧ s'.devState = stREADY ∧ s'.host.job = none ∧ Safety.recorded s s' c j.code
        ∧ s'.mem = s.mem ∧ s'.bays = s.bays)
  ∧ (∀ (k : Nat) (s : State) (c : HostCmd), Safety.starts s k 0x13 c → c.k = k → s.host.holdAsked = none → s.devState = stRUN →
      (s.dataBusy = false → ∃ s', Machine.exec (.hold k) s = .next s' ∧ s'.devState = stHOLD ∧ s'.host.before = stRUN
        ∧ Safety.recorded s s' c cDONE ∧ s'.getF Fld.LDG_STEP_STATUS_TICK_CLEAN = 0 ∧ s'.mem = s.mem ∧ s'.bays = s.bays)
      ∧ (s.dataBusy = true → ∃ s', Machine.exec (.hold k) s = .next s' ∧ s'.devState = stRUN ∧ s'.host.holdAsked = some k ∧ s'.regs = s.regs))
  ∧ (∀ (k : Nat) (s : State) (c : HostCmd), Safety.starts s k 0x14 c → c.k = k → s.host.before = stRUN ∨ s.host.before = stQUARANTINE →
      s.devState = stHOLD → s.openColls = [] → Safety.handedOver s → s.host.late = [] → (∀ x ∈ s.fab.srcs, x.waiting = []) →
      s.launchQueue = [] → s.getF Fld.OPT_CIRCUIT_STATE ≠ 1 → s.getF Fld.ABR_EPOCH_CTRL_STATE ≠ 1 →
      ∃ s', Machine.exec (.resume k) s = .next s'
        ∧ s'.devState = s.host.before ∧ Safety.recorded s s' c cDONE ∧ s'.mem = s.mem ∧ s'.bays = s.bays)

/-- BASTE, HEM, HEM_DONE, RESTORE, DIGEST, RECORD, SCRUB, the host command FOLD, RETRAIN and CIRCUIT. -/
def Obligations.HostCommandsOfTheLedger : Prop :=
  ∀ (k : Nat) (s : State) (c : HostCmd), c.k = k →
    (Safety.starts s k 0x20 c → s.basteRuns = false → s.noThread = false → ∃ s', Machine.exec (.baste k) s = .next s'
      ∧ s'.ldg.baste.forced = true ∧ s'.cmd k = some { c with stage := .running } ∧ s'.regs = s.regs ∧ s'.mem = s.mem ∧ s'.bays = s.bays)
    ∧ (Safety.starts s k 0x21 c → s.basteState = 4 ∨ s.basteState = 5 → s.ldg.hem = none → c.f 2 0 8 ≤ 100 →
      ∃ s' h, Machine.exec (.hem k) s = .next s' ∧ s'.ldg.hem = some h ∧ h.cmd = some k ∧ h.coord.toNat = c.f 0 0 28 ∧ h.obj = c.f 1 0 48
        ∧ h.rate = (if c.f 2 0 8 = 0 then 25 else c.f 2 0 8) ∧ h.sent = 0 ∧ s'.getF Fld.LDG_HEM_PROG_STATE = 1
        ∧ s'.cmd k = some { c with stage := .running } ∧ Safety.keepsRegs s s' [RegId.LDG_HEM_PROG.addr] ∧ s'.mem = s.mem ∧ s'.bays = s.bays)
    ∧ (∀ (h : HemJob) (st : Code), s.ldg.hem = some h → h.cmd = some k → s.cmd k = some c →
      h.fail = some st ∨ (h.fail = none ∧ h.closing = true ∧ s.fab.reqsLeft (.ledger .hem) = false ∧ st = cDONE) →
      ∃ s', Machine.exec (.hemDone st) s = .next s' ∧ s'.ldg.hem = none
        ∧ s'.getF Fld.LDG_HEM_PROG_STATE = (if st = cDONE then 2 else 3) ∧ s'.getF Fld.LDG_HEM_PROG_CODE = st.toNat
        ∧ (h.fail = none → s'.getF Fld.LDG_HEM_PROG_PCT = 10000) ∧ Safety.recorded s s' c st ∧ s'.mem = s.mem ∧ s'.bays = s.bays)
    ∧ (∀ (v w : HostReadResult) (y : PairSrc), Safety.starts s k 0x22 c → Safety.handedOver s → s.ldg.restore = none → c.f 0 0 2 = 1 →
      (c.f 0 4 1 = 1 → c.f 0 2 2 ≠ 2) → c.f 0 5 2 ≠ 3 → s.fab.stalled = [] → s.fab.src (devOf (BitVec.ofNat 28 (c.f 1 0 28))) = some y →
      y.broken = false → y.waiting = [] → y.window ≤ y.unacked.length →
      ∃ s' j x, Machine.exec (.restore k v w) s = .next s' ∧ s'.ldg.restore = some j ∧ j.cmd = k ∧ j.want = some ⟨false, 0, 8192⟩
        ∧ s'.fab.src y.dev = some x ∧ x = { y with waiting := x.waiting }
        ∧ x.waiting.map (fun r => (r.org, r.type, r.addr, r.len))
          = (List.range 4).map (fun i => (Origin.ledger .restore, 3, BitVec.ofNat 48 (s.reserve.2.1 + 2048 * i), 2048))
        ∧ s'.getF Fld.LDG_RESTORE_PROG_STATE = 1 ∧ s'.cmd k = some { c with stage := .running }
        ∧ Safety.keepsRegs s s' [RegId.LDG_RESTORE_PROG.addr] ∧ s'.mem = s.mem ∧ s'.bays = s.bays)
    ∧ (∀ (v w : HostReadResult) (m : List Byte) (t : State), Safety.starts s k 0x22 c → Safety.handedOver s → s.ldg.restore = none →
      c.f 0 0 2 = 0 → c.f 0 4 1 = 0 → c.f 0 5 2 = 0 → c.f 0 7 1 = 1 → s.slotLives = true →
      t = (((s.setCmd { c with stage := .running }).setFs [(Fld.LDG_RESTORE_PROG_PCT, 0), (Fld.LDG_RESTORE_PROG_STATE, 1),
          (Fld.LDG_RESTORE_PROG_CODE, 0)]).updLdg fun l => { l with restore := some ⟨k, ⟨⟨true, BitVec.ofNat 28 (c.f 1 0 28), c.f 2 0 48⟩,
          none, 0, true⟩, hostBytes v w, [], none, [], []⟩ }).setFs
        [(Fld.LDG_RESTORE_STATUS_FIRST_FAIL, 0xFF), (Fld.LDG_RESTORE_STATUS_SKEW_ITEM, 0xFF), (Fld.LDG_RESTORE_STATUS_FAILS, 0),
          (Fld.LDG_RESTORE_STATUS_REFETCHED, 0), (Fld.LDG_RESTORE_PROG_POSITION, 0)] →
      t.ownRead 3 s.reserve.1 8192 = (t, cDONE, m) →
      (manMagic m = true → manSelf m = true → manRegions m = [] → ∃ s', Machine.exec (.restore k v w) s = .next s'
        ∧ Safety.recorded s s' c cDONE ∧ s'.getF Fld.LDG_CURSOR_CURSOR = manNum m 32 8 ∧ s'.getF Fld.LDG_STEP_NUMBER = manNum m 8 8 % 2 ^ 48
        ∧ (∀ i : Fin 64, s'.reg (RegId.LDG_RNG_KEY.addr i.val) = BitVec.ofNat 64 (manNum m (128 + 16 * i.val) 8)
          ∧ s'.reg (RegId.LDG_RNG_CTR.addr i.val) = BitVec.ofNat 64 (manNum m (136 + 16 * i.val) 8))
        ∧ s'.getF Fld.LDG_RESTORE_PROG_STATE = 2 ∧ s'.mem = s.mem ∧ s'.bays = s.bays)
      ∧ (manMagic m = false → ∃ s', Machine.exec (.restore k v w) s = .next s' ∧ Safety.recorded s s' c cRANGE
        ∧ s'.getF Fld.LDG_RESTORE_PROG_STATE = 3 ∧ s'.getF Fld.LDG_RESTORE_PROG_CODE = cRANGE.toNat
        ∧ Safety.keepsRegs s s' [RegId.LDG_RESTORE_STATUS.addr, RegId.LDG_RESTORE_PROG.addr, RegId.MSC_SQ_CFG.addr c.sq] ∧ s'.mem = s.mem))
    ∧ (Safety.starts s k 0x23 c → s.ldg.digest = none → c.f 0 0 3 < 4 → s.regionsOf (c.f 0 0 3) ≠ [] →
      (∀ i ∈ s.regionsOf (c.f 0 0 3), s.writtenDigest i = none ∧ s.inMemory (s.regionAt i).1 (s.regionAt i).2 = true) →
      ∃ s' d, Machine.exec (.digest k) s = .next s' ∧ s'.ldg.digest = some d ∧ d.cls = c.f 0 0 3 ∧ d.done = []
        ∧ d.leaves = (s.regionsOf (c.f 0 0 3)).flatMap (fun i => leavesOf i (s.regionAt i).1 (s.regionAt i).2)
        ∧ s'.cmd k = some { c with stage := .running } ∧ Safety.keepsRegs s s' [RegId.LDG_DIGEST_PROG.addr] ∧ s'.mem = s.mem)
    ∧ (Safety.starts s k 0x24 c → s.ldg.digest = none →
      (∀ rs, s.ldg.steps (c.op_ 0).toNat (c.op_ 1).toNat = some rs → ∃ s', Machine.exec (.record k) s = .next s'
        ∧ Safety.recorded s s' c cDONE ∧ s'.store = { s.store with records := s.store.records + 1 }
        ∧ s'.host.mem = (s.hostWrite (c.op_ 2).toNat (s.signedRecord (c.op_ 0).toNat (c.op_ 1).toNat rs (c.f 3 0 1 == 1))).host.mem ∧ s'.mem = s.mem ∧ s'.bays = s.bays)
      ∧ (s.ldg.steps (c.op_ 0).toNat (c.op_ 1).toNat = none → ∃ s', Machine.exec (.record k) s = .next s'
        ∧ Safety.recorded s s' c cRANGE ∧ s'.host.mem = s.host.mem ∧ s'.store = s.store))
    ∧ (Safety.starts s k 0x30 c → s.hbm.scrub = none → ∃ s', Machine.exec (.scrub k) s = .next s' ∧ s'.hbm = { s.hbm with scrub := some 0 }
      ∧ s'.getF Fld.HBM_SCRUB_PROG_STATE = 1 ∧ s'.cmd k = some { c with stage := .running }
      ∧ Safety.keepsRegs s s' [RegId.HBM_SCRUB_PROG.addr] ∧ s'.mem = s.mem ∧ s'.bays = s.bays)
    ∧ (Safety.starts s k 0x31 c → s.hbm.fold = none → c.f 0 8 1 = 0 →
      (c.f 0 0 8 ∉ s.hbm.waiting → ∃ s', Machine.exec (.fold (.host k)) s = .next s' ∧ Safety.recorded s s' c cRANGE
        ∧ s'.hbm = s.hbm ∧ s'.mem = s.mem ∧ s'.bays = s.bays)
      ∧ (c.f 0 0 8 ∈ s.hbm.waiting → s.getF Fld.HBM_CAP_FOLDS ≠ 16 → ∃ s' j, Machine.exec (.fold (.host k)) s = .next s'
        ∧ s'.hbm.fold = some j ∧ j.pc = c.f 0 0 8 ∧ j.copied = 0 ∧ s'.getF Fld.HBM_FOLD_PROG_STATE = 1
        ∧ s'.getF Fld.HBM_FOLD_PROG_PC = c.f 0 0 8 ∧ s'.getF Fld.HBM_CAP_LIVE_BANDS = s.getF Fld.HBM_CAP_LIVE_BANDS - 1 ∧ s'.bays = s.bays))
    ∧ (Safety.starts s k 0x32 c → ∃ s', Machine.exec (.retrain k) s = .next s' ∧ s'.cmd k = some { c with stage := .running }
      ∧ s' = { s with host := { s.host with cmds := s'.host.cmds } })
    ∧ (Safety.starts s k 0x33 c → s.circuitOpen = true → ∃ s', Machine.exec (.circuit k) s = .next s'
      ∧ s'.getF Fld.OPT_CIRCUIT_STATE = 1 ∧ s'.getF Fld.OPT_CIRCUIT_PORTS = c.f 0 0 16 ∧ s'.reg RegId.OPT_CIRCUIT_MARK.addr = c.op_ 1
      ∧ s'.cmd k = some { c with stage := .running }
      ∧ Safety.keepsRegs s s' [RegId.OPT_CIRCUIT.addr, RegId.OPT_CIRCUIT_MARK.addr] ∧ s'.mem = s.mem ∧ s'.bays = s.bays)

/-- BOOT_ROM, FUSE_BLOW, MAILBOX_GO, MAILBOX_RESTART, FIRMWARE_WRITE_DONE, FW_WRITE_IDLE_TIMEOUT, MEAS_EXTEND, ACCESS_TABLE_WRITE and
ACCESS_TABLE_LOCK. -/
def Obligations.BootFusesAndFirmware : Prop :=
  (∀ (e : Bool) (s : State) (h body zeros : List Byte), s.devState = stRESET → s.power.good = true → s.power.booted = false →
      h = s.store.flash.take 8192 → body = (s.store.flash.drop 8192).take (imgBody h) → zeros = List.replicate 64 0 →
      (s.romHeader h ≠ 0 → ∃ s', Machine.exec (.bootRom e) s = .next s' ∧ s'.devState = stRECOVERY
        ∧ s'.getF Fld.MSC_FW_STATUS_BOOT_FAIL = s.romHeader h ∧ s'.meas = [] ∧ s'.mem = s.mem ∧ s'.bays = s.bays ∧ s'.store = s.store)
      ∧ (s.romHeader h = 0 → (e = true ∨ sha3 body ≠ imgPart h 32 64) → ∃ s', Machine.exec (.bootRom e) s = .next s'
        ∧ s'.devState = stRECOVERY ∧ s'.getF Fld.MSC_FW_STATUS_BOOT_FAIL = (if e then 6 else 5)
        ∧ s'.measOf 0 = sha3 (zeros ++ imgDigest h) ∧ s'.measOf 1 = zeros ∧ s'.mem = s.mem ∧ s'.bays = s.bays)
      ∧ (s.romHeader h = 0 → e = false → sha3 body = imgPart h 32 64 → s.store.bench = false → s.power.refOk = true →
        ∃ s', Machine.exec (.bootRom e) s = .next s' ∧ s'.devState = stREADY ∧ s'.power.booted = true
          ∧ s'.getF Fld.MSC_FW_STATUS_RUN_SVN = imgSvn h ∧ s'.getF Fld.MSC_FW_STATUS_KEY_SLOT = (s.keySlot h).getD 0
          ∧ s'.getF Fld.MSC_FW_STATUS_BOOT_FAIL = 0 ∧ s'.getF Fld.MSC_FW_VERSION_VERSION = imgVersion h
          ∧ s'.measOf 0 = sha3 (zeros ++ imgDigest h) ∧ s'.measOf 1 = sha3 (zeros ++ imgPart h 32 64)
          ∧ s'.getF Fld.MSC_STRAP_CAUSE = strapCause s.power.samples
          ∧ (strapCause s.power.samples = 0 → s'.getF Fld.ABR_CTRL_FAB_EN = 1
            ∧ ∀ x ∈ s.power.samples, s'.getF Fld.MSC_STRAP_DEV = (x.row ++ x.rack ++ x.tray ++ x.slot).toNat
              ∧ s'.getF Fld.MSC_STRAP_PROF = x.prof.toNat ∧ s'.getF Fld.ABR_CTRL_PROF = x.prof.toNat)
          ∧ (strapCause s.power.samples ≠ 0 → s'.getF Fld.ABR_CTRL_FAB_EN = s.getF Fld.ABR_CTRL_FAB_EN
            ∧ s'.getF Fld.MSC_STRAP_STRAP_FAULT = 1)
          ∧ s'.getF Fld.OPT_FW_CTRL_ENG_EN = 0xFF ∧ s'.getF Fld.OPT_FW_CTRL_LOCK = 1 ∧ s'.mem = s.mem ∧ s'.bays = s.bays))
  ∧ (∀ (s : State) (n : Nat), s.power.booted = true → stREADY ≤ s.devState → s.devState ≠ stLATCHED →
      n = s.getF Fld.MSC_FW_STATUS_FUSE_COUNT →
      (n < 64 → n < s.getF Fld.MSC_FW_STATUS_RUN_SVN → ∃ s', Machine.exec .fuseBlow s = .next s'
        ∧ s'.getF Fld.MSC_FW_STATUS_FUSE_COUNT = n + 1 ∧ s'.getF Fld.MSC_FW_STATUS_RUN_SVN = s.getF Fld.MSC_FW_STATUS_RUN_SVN
        ∧ s'.getF Fld.MSC_FW_STATUS_REVOKED = s.getF Fld.MSC_FW_STATUS_REVOKED ∧ Safety.onlyRegs s s' [RegId.MSC_FW_STATUS.addr])
      ∧ (s.getF Fld.MSC_FW_STATUS_RUN_SVN ≤ n → Machine.exec .fuseBlow s = .next s))
  ∧ (∀ (v : Word) (s : State) (n : Nat) (bs : List Byte),
      (Safety.reaches s .bar0 .MSC_MBX_CTRL 0 0 (withBit Fld.MSC_MBX_CTRL_GO v) →
        (s.devState ≠ stRECOVERY → Machine.exec (.mailboxGo v) s = .next { s with lastCode := cDONE })
        ∧ (s.devState = stRECOVERY → Fld.MSC_MBX_CTRL_RESTART.of v = 0 → s.getF Fld.MSC_MBX_STATUS_READY = 1 → s.fwWhole = false →
          n = Fld.MSC_MBX_CTRL_LEN.of v → 1 ≤ n → n ≤ 2048 → s.fwBytes.length + n < 8192 →
          bs = ((List.range 256).flatMap fun i => leBytes 8 (s.reg (RegId.MSC_MBX_DATA.addr i)).toNat).take n →
          ∃ s', Machine.exec (.mailboxGo v) s = .next s' ∧ s'.lastCode = cDONE ∧ s'.fwBytes = s.fwBytes ++ bs
            ∧ s'.getF Fld.MSC_MBX_STATUS_CODE = cDONE.toNat ∧ s'.getF Fld.MSC_MBX_STATUS_BYTES = s.fwBytes.length + n
            ∧ s'.getF Fld.MSC_FW_PROG_STATE = 1 ∧ s'.store = s.store ∧ s'.mem = s.mem
            ∧ Safety.keepsRegs s s' [RegId.MSC_MBX_CTRL.addr, RegId.MSC_MBX_STATUS.addr, RegId.MSC_FW_PROG.addr]))
      ∧ (Safety.reaches s .bar0 .MSC_MBX_CTRL 0 0 (withBit Fld.MSC_MBX_CTRL_RESTART v) →
        (s.devState ≠ stRECOVERY → Machine.exec (.mailboxRestart v) s = .next { s with lastCode := cDONE })
        ∧ (s.devState = stRECOVERY → Fld.MSC_MBX_CTRL_GO.of v = 0 → ∃ s', Machine.exec (.mailboxRestart v) s = .next s'
          ∧ s'.lastCode = cDONE ∧ s'.fwWrite = none ∧ s'.getF Fld.MSC_MBX_STATUS_CODE = cDONE.toNat
          ∧ s'.getF Fld.MSC_MBX_STATUS_BYTES = 0 ∧ s'.store = s.store ∧ s'.mem = s.mem
          ∧ Safety.keepsRegs s s' [RegId.MSC_MBX_CTRL.addr, RegId.MSC_MBX_STATUS.addr])))
  ∧ (∀ (s : State) (ok : Bool) (code : Code), s.fwWhole = true → ok = (sha3 (s.fwBytes.drop 8192) == imgPart s.fwBytes 32 64) →
      code = (if ok then cDONE else cDIGEST_FAIL) → ∃ s', Machine.exec .firmwareWriteDone s = .next s' ∧ s'.fwWrite = none
        ∧ s'.getF Fld.MSC_FW_STATUS_IMAGE = (if ok then 0 else 1) ∧ s'.getF Fld.MSC_FW_PROG_STATE = (if ok then 2 else 3)
        ∧ s'.getF Fld.MSC_FW_PROG_CODE = code.toNat ∧ s'.store = s.store ∧ s'.mem = s.mem ∧ s'.bays = s.bays
        ∧ (s.devState = stRECOVERY → ok = true → s'.power.resetDue = true) ∧ (s.devState ≠ stRECOVERY → s'.power = s.power)
        ∧ (∀ tag p, s.mgmt.req = some (0x40, tag, p) → Safety.replied s' 0x40 tag code []))
  ∧ (∀ s : State, s.fwWrite ≠ none → s.fwWhole = false → ∃ s', Machine.exec .fwWriteIdleTimeout s = .next s' ∧ s'.fwWrite = none
      ∧ s'.getF Fld.MSC_FW_PROG_STATE = 3 ∧ s'.getF Fld.MSC_FW_PROG_CODE = cRANGE.toNat
      ∧ s' = { s with regs := s'.regs, fwWrite := none } ∧ Safety.keepsRegs s s' [RegId.MSC_FW_PROG.addr])
  ∧ (∀ (p : RegPath) (v : Word) (s : State) (r : Nat), Safety.reaches s p .MSC_MEAS_EXT 0 0 (withBit Fld.MSC_MEAS_EXT_GO v) →
      r = fieldOf v 0 3 →
      (s.tableStates = true → 5 ≤ r → ∃ s', Machine.exec (.measExtend p v) s = .next s' ∧ s'.lastCode = cDONE
        ∧ s'.measOf r = sha3 (s.measOf r ++ (List.range 8).flatMap fun w => leBytes 8 (s.reg (RegId.MSC_MEAS_DATA.addr w)).toNat)
        ∧ (∀ q, q ≠ r → s'.measOf q = s.measOf q) ∧ s' = { s with regs := s'.regs, meas := s'.meas, lastCode := cDONE }
        ∧ Safety.keepsRegs s s' [RegId.MSC_MEAS_EXT.addr])
      ∧ (p ≠ .bar0 → (s.tableStates = true → r < 5 → Machine.exec (.measExtend p v) s = .next { s with lastCode := cACCESS_DENIED })
        ∧ (s.tableStates = false → Machine.exec (.measExtend p v) s = .next { s with lastCode := cSTATE_REJECT })))
  ∧ (∀ (p : RegPath) (v : Word) (s : State) (t i g k : Nat), t < 1116 → i < 64 → g < 64 → k < 8 →
      ∀ x ∈ [(RegId.MSC_ACC_A, t, i, s.getF (Fld.MSC_ACC_CTRL_LOCK t) == 1), (.MSC_ACC_B, t, i, s.getF (Fld.MSC_ACC_CTRL_LOCK t) == 1),
          (.MSC_BAY_GROUP, g, 0, s.anyLock), (.MSC_PEER_RANGE, k, 0, s.anyLock)], Safety.reaches s p x.1 x.2.1 x.2.2.1 v →
        (s.tableStates = true → x.2.2.2 = false →
          Machine.exec (.accessTableWrite p (BitVec.ofNat 48 (x.1.addr x.2.1 x.2.2.1)) v) s = .next
            { s.plainWrite x.1 x.2.1 x.2.2.1 v with lastCode := cDONE })
        ∧ (p ≠ .bar0 → s.regChanges x.1 x.2.1 x.2.2.1 v = true →
          (s.tableStates = true → x.2.2.2 = true → Machine.exec (.accessTableWrite p (BitVec.ofNat 48 (x.1.addr x.2.1 x.2.2.1)) v) s = .next
            { s with lastCode := cACCESS_DENIED })
          ∧ (s.tableStates = false → Machine.exec (.accessTableWrite p (BitVec.ofNat 48 (x.1.addr x.2.1 x.2.2.1)) v) s = .next
            { s with lastCode := cSTATE_REJECT })))
  ∧ (∀ (p : RegPath) (t : Fin 1116) (v : Word) (s : State),
      Safety.reaches s p .MSC_ACC_CTRL t.val 0 (withBit (Fld.MSC_ACC_CTRL_LOCK t.val) v) →
      ∃ s', Machine.exec (.accessTableLock p t v) s = .next s' ∧ s'.lastCode = cDONE ∧ s'.getF (Fld.MSC_ACC_CTRL_LOCK t.val) = 1
        ∧ s' = { s with regs := s'.regs, lastCode := cDONE } ∧ Safety.keepsRegs s s' [RegId.MSC_ACC_CTRL.addr t.val])

/-- SENSOR_READ, TPC_UPDATE, POWER_SAMPLE, THERMAL_SHUTDOWN, LEAK_DETECT, DVFS_WRITE, DVFS_CHANGE_DONE, REPLAN_DUE and
MAX_POINT_APPLY. -/
def Obligations.ThermalAndClocks : Prop :=
  (∀ (x : Sensor) (s : State), s.tpcRuns = true →
      (∀ t : Int, x ≠ .coolant → -160 ≤ t → t ≤ 600 → Machine.exec (.sensorRead x (some t)) s = .next
        { s with tpc := { s.tpc with excluded := s.tpc.excluded.filter fun y => y != x, seen := (x, t) :: s.tpc.seen } })
      ∧ (∀ r : Reading, x ≠ .coolant → (∀ t, r = some t → t < -160 ∨ 600 < t) →
        (x ∈ s.tpc.excluded → Machine.exec (.sensorRead x r) s = .next s)
        ∧ (x ∉ s.tpc.excluded → ∃ s', Machine.exec (.sensorRead x r) s = .next s'
          ∧ s'.getF Fld.TPC_SENSOR_FAULT_RING = (s.getF Fld.TPC_SENSOR_FAULT_RING + 1) % 2 ^ 32
          ∧ s'.tpc = { s.tpc with excluded := x :: s.tpc.excluded } ∧ s' = { s with regs := s'.regs, tpc := s'.tpc }
          ∧ Safety.keepsRegs s s' [RegId.TPC_SENSOR_FAULT.addr]))
      ∧ (∀ t : Int, Machine.exec (.sensorRead .coolant (some t)) s = .next
        { s with tpc := { s.tpc with coolFault := false, seen := (.coolant, t) :: s.tpc.seen } })
      ∧ (∃ s', Machine.exec (.sensorRead .coolant none) s = .next s' ∧ s'.tpc.coolFault = true
        ∧ s'.tpc.seen = (.coolant, 164) :: s.tpc.seen ∧ s'.getF Fld.TPC_SENSOR_FAULT_COOLANT
          = (s.getF Fld.TPC_SENSOR_FAULT_COOLANT + if s.tpc.coolFault then 0 else 1) % 2 ^ 16))
  ∧ (∀ s : State, s.tpcRuns = true → s.getF Fld.TPC_CLOCK_CAP ≤ 256 → (∀ i, i < 10 → s.readingOf i < (thresholds i).2.2) →
      ∃ s', Machine.exec .tpcUpdate s = .next s' ∧ s'.tpc.seen = [] ∧ s'.mem = s.mem ∧ s'.bays = s.bays
        ∧ (∀ i, i < 10 → s'.lastReading i = s.readingOf i
          ∧ s'.thermalLevel i = (if (thresholds i).2.1 < s.readingOf i ∨ (s.thermalLevel i = 2 ∧ (thresholds i).2.1 - 12 < s.readingOf i) then 2
            else if (thresholds i).1 ≤ s.readingOf i ∨ (1 ≤ s.thermalLevel i ∧ (thresholds i).1 - 12 < s.readingOf i) then 1 else 0))
        ∧ s'.getF Fld.TPC_CLOCK_CAP =
          (if s.getF Fld.TPC_POWER_CAP_W * s.tpc.power.length < (s.tpc.power.map Prod.snd).foldl (· + ·) 0
            then max 64 (s.getF Fld.TPC_CLOCK_CAP - 4)
            else if 100 * (s.tpc.power.map Prod.snd).foldl (· + ·) 0 < 98 * s.getF Fld.TPC_POWER_CAP_W * s.tpc.power.length
            then min 256 (s.getF Fld.TPC_CLOCK_CAP + 2) else s.getF Fld.TPC_CLOCK_CAP)
        ∧ (∀ c, c < 6 → s'.factor c = moveFactor (s'.wanted c) (s.factor c))
        ∧ ((∃ c, c < 6 ∧ s'.factor c ≠ s.factor c) → s'.getF Fld.LDG_STEP_STATUS_TICK_CLEAN = 0))
  ∧ (∀ (mv watts : Nat) (s : State), s.tpcRuns = true → ∃ s' l, Machine.exec (.powerSample mv watts) s = .next s'
      ∧ l = ((mv, watts) :: s.tpc.power).take 100 ∧ s'.tpc = { s.tpc with power := l }
      ∧ s'.getF Fld.TPC_POWER_INPUT_MV = ((l.map Prod.fst).foldl (· + ·) 0 / l.length) % 2 ^ 16
      ∧ s'.getF Fld.TPC_POWER_INPUT_W = ((l.map Prod.snd).foldl (· + ·) 0 / l.length) % 2 ^ 16
      ∧ s' = { s with regs := s'.regs, tpc := s'.tpc } ∧ Safety.keepsRegs s s' [RegId.TPC_POWER.addr])
  ∧ (∀ (c : ShutdownCause) (inst : BitVec 4) (temp : BitVec 16) (s : State), s.power.good = true →
      (s.openColls = [] → s.fab.early = [] → Safety.canonical s → inst.toNat < (shutdownLimit c).2.2 →
        (∀ h, (shutdownLimit c).1 = some h → h ≤ temp.toInt) →
        ∀ x ∈ [(Instr.thermalShutdown c inst temp, (shutdownLimit c).2.1, inst.toNat, if c = .leak then 0 else temp.toNat),
            (.leakDetect, 5, 0, 0)], ∃ s', Machine.exec x.1 s = .next s' ∧ s'.devState = stLATCHED
          ∧ s'.getF Fld.TPC_SHUTDOWN_LATCH = 1 ∧ s'.getF Fld.TPC_SHUTDOWN_CAUSE = x.2.1 ∧ s'.getF Fld.TPC_SHUTDOWN_INSTANCE = x.2.2.1
          ∧ s'.getF Fld.TPC_SHUTDOWN_TEMP = x.2.2.2 ∧ s'.getF Fld.TPC_SHUTDOWN_COUNT = (s.getF Fld.TPC_SHUTDOWN_COUNT + 1) % 2 ^ 32
          ∧ s'.getF Fld.TPC_POWER_ENTRY = 0 ∧ s'.power.good = false ∧ s'.mem = [] ∧ s'.bays = [] ∧ s'.host.cmds = []
          ∧ s'.host.job = none ∧ s'.pending = s.pending ∧ s'.store = s.store)
      ∧ (∀ h, (shutdownLimit c).1 = some h → temp.toInt < h → Machine.exec (.thermalShutdown c inst temp) s = .next s))
  ∧ (∀ s : State, s.power.good = false → s.power.v48 = false → s.power.aux = true → s.devState ≠ stOFF →
      s.getF Fld.TPC_SHUTDOWN_LATCH = 0 → ∃ s', Machine.exec .leakDetect s = .next s' ∧ s'.getF Fld.TPC_SHUTDOWN_LATCH = 1
        ∧ s'.getF Fld.TPC_SHUTDOWN_CAUSE = 5 ∧ Safety.onlyRegs s s' [RegId.TPC_SHUTDOWN.addr])
  ∧ (∀ (p : RegPath) (v : Word) (s : State), Safety.reaches s p .TPC_DVFS 0 0 v →
      (s.dvfsStates = true → ∃ s', Machine.exec (.dvfsWrite p v) s = .next s'
        ∧ ((∀ d, d < 4 → elemOf 4 v.toNat d % 8 ≤ 4 ∧ s.maxPoint d ≤ elemOf 4 v.toNat d % 8) → s'.lastCode = cDONE)
        ∧ (∀ d, d < 4 → (elemOf 4 v.toNat d % 8 ≤ 4 → s.maxPoint d ≤ elemOf 4 v.toNat d % 8 → s'.pointOf d = elemOf 4 v.toNat d % 8
            ∧ (s.reached d ≠ s'.pointOf d → smapGet (fun _ => none) s.tpc.moving d = none →
              smapGet (fun _ => none) s'.tpc.moving d = some (s'.pointOf d)
              ∧ s'.reached d = max (s.reached d) (s'.pointOf d)))
          ∧ (4 < elemOf 4 v.toNat d % 8 ∨ elemOf 4 v.toNat d % 8 < s.maxPoint d → elemOf 4 v.toNat d % 8 ≠ s.pointOf d →
            s'.pointOf d = s.pointOf d ∧ s'.lastCode = cRANGE))
        ∧ s'.mem = s.mem ∧ s'.bays = s.bays)
      ∧ (s.dvfsStates = false → p ≠ .bar0 → s.pointOf 0 ≠ 1 → s.maxPoint 0 ≤ 1 → elemOf 4 v.toNat 0 % 8 = 1 →
        Machine.exec (.dvfsWrite p v) s = .next { s with lastCode := cSTATE_REJECT }))
  ∧ (∀ (d : Fin 4) (p : Nat) (s : State), smapGet (fun _ => none) s.tpc.moving d.val = some p →
      (s.pointOf d.val = p → ∃ s', Machine.exec (.dvfsChangeDone d) s = .next s' ∧ s'.reached d.val = p
        ∧ smapGet (fun _ => none) s'.tpc.moving d.val = none ∧ (s.reached d.val ≠ p → s'.getF Fld.LDG_STEP_STATUS_TICK_CLEAN = 0)
        ∧ s' = { s with regs := s'.regs, tpc := s'.tpc } ∧ Safety.keepsRegs s s' [RegId.LDG_STEP_STATUS.addr])
      ∧ (s.pointOf d.val ≠ p → ∃ s', Machine.exec (.dvfsChangeDone d) s = .next s'
        ∧ smapGet (fun _ => none) s'.tpc.moving d.val = some (s.pointOf d.val) ∧ s'.reached d.val = max p (s.pointOf d.val)))
  ∧ (∀ (m : AgeMeasure) (s : State), s.power.booted = true → s.devState ≠ stRECOVERY → s.devState ≠ stLATCHED →
      s.getF Fld.TPC_POWER_ENTRY = 0 →
      (s.getF Fld.TPC_AGE_RUN_HOURS / 500 < m.hours / 500 → ∃ s' margin, Machine.exec (.replanDue m) s = .next s'
        ∧ s'.getF Fld.TPC_AGE_SUPPLY_REPLANS = (s.getF Fld.TPC_AGE_SUPPLY_REPLANS + 1) % 2 ^ 16
        ∧ s'.getF Fld.TPC_AGE_RUN_HOURS = m.hours % 2 ^ 32 ∧ s'.getF Fld.TPC_AGE_MARGIN = margin
        ∧ margin = min (s'.getF Fld.TPC_AGE_SHARE_SLACK) (min (min m.drift 10000) (min (min m.laser 10000) (min m.eye 10000)))
        ∧ s'.getF Fld.TPC_AGE_SHARE_DRIFT = min m.drift 10000 ∧ s'.getF Fld.TPC_AGE_SHARE_LASER = min m.laser 10000
        ∧ s'.getF Fld.TPC_AGE_SHARE_EYE = min m.eye 10000 ∧ s'.store.plans = ((margin, m.hours) :: s.store.plans).take 8
        ∧ (margin < 2500 → s'.getF Fld.TPC_FLAGS_MARGIN_LOW = 1) ∧ s'.mem = s.mem ∧ s'.bays = s.bays)
      ∧ (m.hours / 500 ≤ s.getF Fld.TPC_AGE_RUN_HOURS / 500 → Machine.exec (.replanDue m) s = .next s))
  ∧ (∀ (d : Fin 4) (s : State),
      (s.devState = stREADY → d.val ∉ s.tpc.raise → s.pointOf d.val < s.maxPoint d.val → s.reached d.val ≠ s.maxPoint d.val →
        smapGet (fun _ => none) s.tpc.moving d.val = none → ∃ s', Machine.exec (.maxPointApply d) s = .next s'
          ∧ s'.pointOf d.val = s.maxPoint d.val ∧ smapGet (fun _ => none) s'.tpc.moving d.val = some (s.maxPoint d.val)
          ∧ s'.maxPoint d.val = s.maxPoint d.val ∧ s'.mem = s.mem ∧ s'.bays = s.bays)
      ∧ (s.devState ≠ stREADY → Machine.exec (.maxPointApply d) s = .next s))

/-- POWER_ON, RESET_ASSERT, INPUT_LOSS, AUX_INPUT_LOSS, AUX_INPUT_RETURN, LATCH_CLEAR, BENCH_CHECK, PATROL_SAMPLE, PATROL_WAKE,
PATROL_ENTRY_STEP and PATROL_ENTRY_ABANDON. -/
def Obligations.PowerResetAndPatrol : Prop :=
  (∀ (c : WakeCause) (l : List Straps) (refOk : Bool) (s : State), Safety.canonical s →
      ∀ x ∈ [(Instr.powerOn .powerOn l refOk, s.power.v48 = false ∧ s.power.contact = false),
          (.powerOn .resetRelease l refOk, s.power.contact = true ∧ s.power.v48 = true), (.powerOn .deviceReset l refOk, s.power.resetDue = true),
          (.patrolWake c none l refOk, s.devState = stPATROL ∧ s.wakeEnabled c = true ∧ s.wakeSeen c = true ∧ s.power.v48 = true
            ∧ (s.power.addrOnly = true → c = .address))], x.2 →
        ∃ s', Machine.exec x.1 s = .next s' ∧ s'.mem = [] ∧ s'.bays = [] ∧ s'.host.mem = s.host.mem ∧ s'.store = s.store
          ∧ s'.pending = s.pending ∧ s'.power.booted = false
          ∧ (∀ y, l.head? = some y → s'.getF Fld.MSC_MGMT_STATIC = 0x50 + y.slot.toNat)
          ∧ s'.getF Fld.TPC_WAKE_CAUSE = (if x.1 = .patrolWake c none l refOk then wakeCode c else 0)
          ∧ (x.1 = .patrolWake c none l refOk → s'.getF Fld.TPC_WAKE_FAIL = 0
            ∧ s'.getF Fld.TPC_WAKE_WAKES = (s.getF Fld.TPC_WAKE_WAKES + 1) % 2 ^ 32)
          ∧ (s.getF Fld.TPC_SHUTDOWN_LATCH = 0 → s'.devState = stRESET ∧ s'.power.good = true ∧ s'.power.samples = l ∧ s'.power.refOk = refOk))
  ∧ (∀ (l : List Straps) (refOk : Bool) (s : State), Safety.canonical s → s.power.v48 = false → s.power.contact = false →
      s.getF Fld.TPC_SHUTDOWN_LATCH = 1 → ∃ s', Machine.exec (.powerOn .powerOn l refOk) s = .next s' ∧ s'.devState = stLATCHED
        ∧ s'.power.good = false ∧ s'.mem = [])
  ∧ (∀ (ns : Nat) (s : State),
      (ns < 10000 → Machine.exec (.resetAssert ns) s = .next s)
      ∧ (1000000 ≤ ns → ∃ s', Machine.exec (.resetAssert ns) s = .next s' ∧ s'.power.contact = true ∧ s'.power.good = false
        ∧ s'.devState = (if s.devState = stOFF then stOFF else if s.getF Fld.TPC_SHUTDOWN_LATCH = 1 then stLATCHED else stRESET) ∧ s'.mem = [] ∧ s'.bays = [] ∧ s'.store = s.store
        ∧ s'.host.mem = s.host.mem)
      ∧ (10000 ≤ ns → ns < 1000000 → ∃ s', Machine.exec (.resetAssert ns) s = .next s'
        ∧ (s' = { s with fresh := s.fresh + 1 } ∨ (s'.power.contact = true ∧ s'.power.good = false ∧ s'.mem = [] ∧ s'.bays = []))))
  ∧ (∀ s : State, (s.power.v48 = false → Machine.exec .inputLoss s = .next s)
      ∧ (s.power.v48 = true → ∃ s', Machine.exec .inputLoss s = .next s' ∧ s'.power.v48 = false ∧ s'.power.good = false
        ∧ s'.devState = (if s.power.aux = true ∧ s.devState ≠ stOFF then stPATROL else stOFF) ∧ s'.mem = [] ∧ s'.bays = []
        ∧ s'.store = s.store ∧ s'.host.mem = s.host.mem ∧ (s.power.aux = false → s'.getF Fld.TPC_SHUTDOWN_LATCH = 0)))
  ∧ (∀ s : State,
      (s.power.v48 = true → Machine.exec .auxInputLoss s = .next { s with power := { s.power with aux := false, charging := false } })
      ∧ (s.power.v48 = false → ∃ s', Machine.exec .auxInputLoss s = .next s' ∧ s'.devState = stOFF ∧ s'.power.aux = false
        ∧ s'.power.charging = false ∧ s'.getF Fld.TPC_SHUTDOWN_LATCH = 0 ∧ s'.mem = s.mem ∧ s'.bays = s.bays))
  ∧ (∀ (mv : Nat) (s : State), (mv < 3000 → Machine.exec (.auxInputReturn mv) s = .next s)
      ∧ (3000 ≤ mv → ∃ s', Machine.exec (.auxInputReturn mv) s = .next s' ∧ s'.power.aux = true
        ∧ s'.power.charging = (decide (3135 ≤ mv) && decide (mv ≤ 3465)) ∧ s'.power.calOn = true
        ∧ (s.power.calOn = true → s'.regs = s.regs)
        ∧ (s.power.calOn = false → s'.reg RegId.SCR_CAL.addr = 0 ∧ s'.getF Fld.SCR_CAL_STATUS_VALID = 0
          ∧ Safety.keepsRegs s s' [RegId.SCR_CAL.addr, RegId.SCR_CAL_STATUS.addr]) ∧ s'.mem = s.mem ∧ s'.bays = s.bays))
  ∧ (∀ (c : LatchClear) (s : State) (ok : Bool), ok = (match c with
        | .inputLow => !s.power.v48
        | .command => decide (s.devState = stLATCHED) && s.mgmt.req.any fun r => decide (r.1 = 0x20 ∨ r.1 = 0x21)) →
      (ok = true → ∃ s', Machine.exec (.latchClear c) s = .next s' ∧ s'.getF Fld.TPC_SHUTDOWN_LATCH = 0
        ∧ s'.getF Fld.TPC_SHUTDOWN_CAUSE = s.getF Fld.TPC_SHUTDOWN_CAUSE ∧ Safety.onlyRegs s s' [RegId.TPC_SHUTDOWN.addr])
      ∧ (ok = false → Machine.exec (.latchClear c) s = .next s))
  ∧ (∀ (s : State) (faces : Bool), faces = ((List.range 16).all fun p => s.portUp p
        && s.getF (Fld.ABR_PORT_STATUS_PEER_DEV p) == s.devCoord.toNat && s.getF (Fld.ABR_PORT_STATUS_PEER_PORT p) == p) →
      (s.power.benching = false → Machine.exec .benchCheck s = .next s)
      ∧ (s.power.benching = true → ∃ s', Machine.exec .benchCheck s = .next s' ∧ s'.devState = stREADY ∧ s'.power.benching = false
        ∧ s'.mem = s.mem ∧ s'.bays = s.bays ∧ (faces = true → s'.getF Fld.MSC_STATE_BENCH = 1
          ∧ s'.getF Fld.ABR_CTRL_FAB_EN = (if s.getF Fld.MSC_STRAP_CAUSE = 0 then 1 else 0))
        ∧ (faces = false → s'.getF Fld.MSC_STATE_BENCH = s.getF Fld.MSC_STATE_BENCH ∧ s'.store.bench = false)))
  ∧ (∀ (r : PatrolReadings) (s : State), s.devState = stPATROL → s.getF Fld.TPC_SHUTDOWN_LATCH = 0 →
      (r.leak = false → r.coolant < 200 → r.junction < 460 → ∃ s', Machine.exec (.patrolSample r) s = .next s'
        ∧ s' = { s with power := s'.power } ∧ s'.power.lastSample = some r
        ∧ (∀ o, s.power.lastSample = some o → s'.power.crossed = (List.range 5).filter fun q => s.inLimits o q != s.inLimits r q))
      ∧ (r.leak = true ∨ 200 ≤ r.coolant ∨ 460 ≤ r.junction → ∃ s', Machine.exec (.patrolSample r) s = .next s'
        ∧ s'.getF Fld.TPC_SHUTDOWN_LATCH = 1 ∧ s'.devState = stPATROL
        ∧ s'.getF Fld.TPC_SHUTDOWN_CAUSE = (if r.leak then 5 else if 200 ≤ r.coolant then 4 else 1)
        ∧ s' = { s with regs := s'.regs, power := s'.power } ∧ Safety.keepsRegs s s' [RegId.TPC_SHUTDOWN.addr]))
  ∧ (∀ (r : PatrolReadings) (s : State), s.devState ≠ stPATROL → Machine.exec (.patrolSample r) s = .next s)
  ∧ (∀ (c : WakeCause) (fail : Option (Fin 4)) (l : List Straps) (refOk : Bool) (s : State) (step : Nat),
      (s.devState ≠ stPATROL ∨ s.wakeEnabled c = false ∨ s.wakeSeen c = false → Machine.exec (.patrolWake c fail l refOk) s = .next s)
      ∧ (s.devState = stPATROL → s.wakeEnabled c = true → s.wakeSeen c = true → s.power.addrOnly = false →
        (step = 1 ∧ s.power.v48 = false ∨ s.power.v48 = true ∧ ∃ k, fail = some k ∧ step = k.val + 1) →
        ∃ s', Machine.exec (.patrolWake c fail l refOk) s = .next s' ∧ s'.devState = stPATROL ∧ s'.getF Fld.TPC_WAKE_CAUSE = wakeCode c
          ∧ s'.getF Fld.TPC_WAKE_FAIL = 1 ∧ s'.getF Fld.TPC_WAKE_FAIL_STEP = step
          ∧ s'.getF Fld.TPC_WAKE_WAKES = s.getF Fld.TPC_WAKE_WAKES ∧ s'.power.addrOnly = true
          ∧ s' = { s with regs := s'.regs, power := s'.power } ∧ Safety.keepsRegs s s' [RegId.TPC_WAKE.addr]))
  ∧ (∀ s : State,
      (s.getF Fld.TPC_POWER_ENTRY = 0 → s.host.job = none → s.power.offDue = false → s.power.patrolDue = true → s.devState = stREADY →
        ∃ s', Machine.exec .patrolEntryStep s = .next s' ∧ s'.getF Fld.TPC_POWER_ENTRY = 1 ∧ s'.power.patrolDue = false
          ∧ Safety.keepsRegs s s' [RegId.TPC_POWER.addr] ∧ s'.mem = s.mem ∧ s'.bays = s.bays)
      ∧ (s.getF Fld.TPC_POWER_ENTRY = 1 → (s.workDone = false → Machine.exec .patrolEntryStep s = .next s)
        ∧ (s.workDone = true → ∃ s', Machine.exec .patrolEntryStep s = .next s' ∧ s'.getF Fld.TPC_POWER_ENTRY = 2
          ∧ Safety.onlyRegs s s' [RegId.TPC_POWER.addr]))
      ∧ (s.getF Fld.TPC_POWER_ENTRY = 2 → ∃ s', Machine.exec .patrolEntryStep s = .next s' ∧ s'.getF Fld.TPC_POWER_ENTRY = 3
        ∧ s'.getF Fld.ABR_CTRL_FAB_EN = 0 ∧ s'.power.fabWas = (s.getF Fld.ABR_CTRL_FAB_EN == 1) ∧ s'.mem = s.mem ∧ s'.bays = s.bays)
      ∧ (s.getF Fld.TPC_POWER_ENTRY = 3 → ∃ s', Machine.exec .patrolEntryStep s = .next s' ∧ s'.getF Fld.TPC_POWER_ENTRY = 4
        ∧ s'.hbm = { s.hbm with selfRefresh := List.range 8 } ∧ s' = { s with regs := s'.regs, hbm := s'.hbm }
        ∧ Safety.keepsRegs s s' [RegId.TPC_POWER.addr])
      ∧ (4 ≤ s.getF Fld.TPC_POWER_ENTRY → ∃ s', Machine.exec .patrolEntryStep s = .next s' ∧ s'.devState = stPATROL ∧ s'.mem = []
        ∧ s'.bays = [] ∧ s'.power.good = false ∧ s'.store = s.store))
  ∧ (∀ (c : WakeCause) (s : State),
      (s.getF Fld.TPC_POWER_ENTRY ≠ 0 → s.wakeEnabled c = true → s.mgmt.events.length < 64 → ∃ s' e,
        Machine.exec (.patrolEntryAbandon c) s = .next s' ∧ s'.getF Fld.TPC_POWER_ENTRY = 0
          ∧ s'.getF Fld.TPC_POWER_ABANDON_CNT = (s.getF Fld.TPC_POWER_ABANDON_CNT + 1) % 2 ^ 8
          ∧ s'.getF Fld.TPC_WAKE_CAUSE = wakeCode c ∧ s'.mgmt.events = s.mgmt.events ++ [e] ∧ e.code = 0x0B ∧ e.detail = wakeCode c
          ∧ s'.devState = s.devState ∧ s'.mem = s.mem ∧ s'.bays = s.bays)
      ∧ (s.getF Fld.TPC_POWER_ENTRY = 0 ∨ s.wakeEnabled c = false → Machine.exec (.patrolEntryAbandon c) s = .next s))

/-- MGMT_REQUEST, MGMT_REPLY_READ, BUS_CLOCK_TIMEOUT, FRAME_INCOMPLETE_TIMEOUT and the I3C common commands. -/
def Obligations.ManagementBus : Prop :=
  (∀ (s : State) (frame : List Byte) (cmd tag : Byte) (p b : List Byte),
      (s.portAnswers = false → Machine.exec (.mgmtRequest frame) s = .next s)
      ∧ (s.portAnswers = true → s.getF Fld.TPC_POWER_ENTRY = 0 →
        (s.mgmt.req ≠ none → ∃ s', Machine.exec (.mgmtRequest frame) s = .next s'
          ∧ s'.getF Fld.MSC_MGMT_ERR_BUSY_DROP = (s.getF Fld.MSC_MGMT_ERR_BUSY_DROP + 1) % 2 ^ 16
          ∧ Safety.onlyRegs s s' [RegId.MSC_MGMT.addr, RegId.MSC_MGMT_ERR.addr])
        ∧ (s.mgmt.req = none → p.length ≤ 2080 → b = [cmd, tag] ++ leBytes 2 p.length ++ p →
          frame = b ++ leBytes 4 (crc32c b).toNat →
          (s.accepts cmd.toNat = some true → ∃ s', Machine.exec (.mgmtRequest frame) s = .next s'
            ∧ s'.mgmt = { s.mgmt with req := some (cmd.toNat, tag, p), reply := some ⟨tag, cmd.toNat, cDONE, true, []⟩ }
            ∧ s'.getF Fld.MSC_MGMT_MODE = (if s.getF Fld.MSC_MGMT_DYN = 0 then 1 else 2)
            ∧ s' = { s with regs := s'.regs, mgmt := s'.mgmt } ∧ Safety.keepsRegs s s' [RegId.MSC_MGMT.addr])
          ∧ (s.accepts cmd.toNat = some false → ∃ s', Machine.exec (.mgmtRequest frame) s = .next s'
            ∧ Safety.replied s' cmd.toNat tag cSTATE_REJECT []
            ∧ s'.getF Fld.MSC_MGMT_ERR_REJECTS = (s.getF Fld.MSC_MGMT_ERR_REJECTS + 1) % 2 ^ 16
            ∧ Safety.keepsRegs s s' [RegId.MSC_MGMT.addr, RegId.MSC_MGMT_ERR.addr] ∧ s'.mem = s.mem ∧ s'.bays = s.bays)
          ∧ (s.accepts cmd.toNat = none → ∃ s', Machine.exec (.mgmtRequest frame) s = .next s'
            ∧ Safety.replied s' cmd.toNat tag cMALFORMED []
            ∧ s'.getF Fld.MSC_MGMT_ERR_CRC_FAIL = (s.getF Fld.MSC_MGMT_ERR_CRC_FAIL + 1) % 2 ^ 16))
        ∧ (s.mgmt.req = none → frame.length < 8
            ∨ leNat (frame.drop (frame.length - 4)) ≠ (crc32c (frame.take (frame.length - 4))).toNat →
          ∃ s', Machine.exec (.mgmtRequest frame) s = .next s' ∧ Safety.replied s' (frame.getD 0 0).toNat (frame.getD 1 0) cMALFORMED []
            ∧ s'.getF Fld.MSC_MGMT_ERR_CRC_FAIL = (s.getF Fld.MSC_MGMT_ERR_CRC_FAIL + 1) % 2 ^ 16
            ∧ Safety.keepsRegs s s' [RegId.MSC_MGMT.addr, RegId.MSC_MGMT_ERR.addr] ∧ s'.mem = s.mem ∧ s'.bays = s.bays)))
  ∧ (∀ (s : State) (r : Reply) (b : List Byte), s.portAnswers = true → s.mgmt.reply = some r →
      b = [r.tag] ++ leBytes 1 r.cmd ++ leBytes 1 r.code.toNat ++ leBytes 1 (if r.pend then 1 else 0) ++ leBytes 2 r.payload.length
        ++ r.payload → Machine.exec .mgmtReplyRead s = .next
        { s with mgmt := { s.mgmt with out := b ++ leBytes 4 (crc32c b).toNat } })
  ∧ (∀ s : State, s.portAnswers = true → ∀ x ∈ [Instr.busClockTimeout, .frameIncompleteTimeout], ∃ s', Machine.exec x s = .next s'
      ∧ s'.getF Fld.MSC_MGMT_ERR_TIMEOUTS = (s.getF Fld.MSC_MGMT_ERR_TIMEOUTS + 1) % 2 ^ 16
      ∧ Safety.onlyRegs s s' [RegId.MSC_MGMT_ERR.addr])
  ∧ (∀ (s : State) (static addr : BitVec 7), s.portAnswers = true →
      ∀ x ∈ [(Instr.entdaa addr, if s.getF Fld.MSC_MGMT_DYN = 0 then addr.toNat else s.getF Fld.MSC_MGMT_DYN, s.getF Fld.MSC_MGMT_IBI_EN),
          (.setdasa static addr, if s.getF Fld.MSC_MGMT_DYN = 0 then addr.toNat else s.getF Fld.MSC_MGMT_DYN, s.getF Fld.MSC_MGMT_IBI_EN),
          (.setnewda addr, if s.getF Fld.MSC_MGMT_DYN = 0 then 0 else addr.toNat, s.getF Fld.MSC_MGMT_IBI_EN),
          (.rstdaa, 0, s.getF Fld.MSC_MGMT_IBI_EN), (.enec, s.getF Fld.MSC_MGMT_DYN, 1), (.disec, s.getF Fld.MSC_MGMT_DYN, 0)],
        (x.1 = .setdasa static addr → s.getF Fld.MSC_MGMT_STATIC = static.toNat) → ∃ s', Machine.exec x.1 s = .next s'
          ∧ s'.getF Fld.MSC_MGMT_DYN = x.2.1 ∧ s'.getF Fld.MSC_MGMT_IBI_EN = x.2.2 ∧ s'.getF Fld.MSC_MGMT_MODE = 2
          ∧ s'.getF Fld.MSC_MGMT_STATIC = s.getF Fld.MSC_MGMT_STATIC ∧ s'.getF Fld.MSC_MGMT_DROPPED = s.getF Fld.MSC_MGMT_DROPPED
          ∧ Safety.onlyRegs s s' [RegId.MSC_MGMT.addr])
  ∧ (∀ (s : State) (static addr : BitVec 7), s.getF Fld.MSC_MGMT_STATIC ≠ static.toNat → Machine.exec (.setdasa static addr) s = .next s)
  ∧ (∀ s : State, s.portAnswers = true →
      ∀ x ∈ [(Instr.getpid, Config.i3cAnswer 0), (.getbcr, Config.i3cAnswer 1), (.getdcr, Config.i3cAnswer 2), (.getmwl, Config.i3cAnswer 3),
          (.getmrl, Config.i3cAnswer 4), (.getstatus, leBytes 2 (Config.freeValue s.fresh))], ∃ s', Machine.exec x.1 s = .next s'
        ∧ s'.getF Fld.MSC_MGMT_MODE = 2 ∧ s'.mgmt.out = (if s.getF Fld.MSC_MGMT_DYN = 0 then s.mgmt.out else x.2)
        ∧ s' = { s with regs := s'.regs, mgmt := { s.mgmt with out := s'.mgmt.out }, fresh := s'.fresh }
        ∧ Safety.keepsRegs s s' [RegId.MSC_MGMT.addr])
  ∧ (∀ (s : State) (static addr : BitVec 7), s.portAnswers = false →
      ∀ x ∈ [Instr.mgmtReplyRead, .busClockTimeout, .frameIncompleteTimeout, .entdaa addr, .setdasa static addr, .setnewda addr, .rstdaa,
        .enec, .disec, .getpid, .getbcr, .getdcr, .getstatus, .getmwl, .getmrl], Machine.exec x s = .next s)

/-- The commands of R533 and R534 but those of leases and membership, and the refusals of all of them. -/
def Obligations.ManagementCommands : Prop :=
  (∀ (tag : Byte) (p : List Byte) (m : AgeMeasure) (s : State), Safety.handedOver s →
      ∀ x ∈ [(Instr.status, 0x01, noPayload p), (.events, 0x02, noPayload p), (.sensors, 0x03, noPayload p),
          (.lease, 0x10, sized 6 p), (.renew, 0x11, noPayload p), (.expel, 0x12, noPayload p), (.quarantine, 0x13, noPayload p),
          (.release, 0x14, noPayload p), (.nbr, 0x15, sized 1 p), (.off, 0x20, noPayload p), (.patrol, 0x21, noPayload p),
          (.patrolSet, 0x22, sized 28 p), (.powerCap, 0x23, sized 2 p && decide (800 ≤ leNat p) && decide (leNat p ≤ 2100)),
          (.replan m, 0x24, noPayload p), (.calSet, 0x30, sized 8 p), (.alarmSet, 0x31, sized 9 p),
          (.fwWrite, 0x40, decide (5 ≤ p.length) && decide (p.length ≤ 2052)), (.quote, 0x41, sized 32 p),
          (.certRead, 0x42, sized 1 p), (.challenge, 0x43, sized 32 p), (.permit, 0x50, sized 1 p), (.bench, 0x51, sized 1 p)],
        s.mgmt.req = some (x.2.1, tag, p) → (x.2.1 = 0x12 → s.basteState ≠ 1) → (x.2.1 = 0x40 → s.fwWhole = false) →
        ∀ code : Code, (s.accepts x.2.1 = some false ∧ code = cSTATE_REJECT) ∨ (s.accepts x.2.1 = some true ∧ x.2.2 = false ∧ code = cRANGE) →
        ∃ s', Machine.exec x.1 s = .next s' ∧ Safety.replied s' x.2.1 tag code []
          ∧ s'.getF Fld.MSC_MGMT_ERR_REJECTS = (s.getF Fld.MSC_MGMT_ERR_REJECTS + 1) % 2 ^ 16
          ∧ s' = { s with regs := s'.regs, mgmt := s'.mgmt } ∧ Safety.keepsRegs s s' [RegId.MSC_MGMT_ERR.addr])
  ∧ (∀ (tag : Byte) (p : List Byte) (s : State),
      (Safety.requested s 0x01 tag [] → ∃ s', Machine.exec .status s = .next s' ∧ Safety.replied s' 0x01 tag cDONE
        ([RegId.MSC_STATE, .TPC_WAKE, .MSC_FW_STATUS, .MSC_STRAP, .MSC_MGMT].flatMap fun r => leBytes 8 (s.regView r 0 0).toNat)
        ∧ s' = { s with mgmt := s'.mgmt })
      ∧ (Safety.requested s 0x02 tag [] → ∃ s', Machine.exec .events s = .next s'
        ∧ Safety.replied s' 0x02 tag cDONE (s.mgmt.events.flatMap fun e => leBytes 1 e.code ++ leBytes 1 e.detail ++ leBytes 2 e.dev.toNat
            ++ List.replicate 4 0 ++ leBytes 8 e.cal.toNat) ∧ s'.mgmt.events = [] ∧ s' = { s with mgmt := s'.mgmt })
      ∧ (Safety.requested s 0x03 tag [] → ∃ s', Machine.exec .sensors s = .next s' ∧ Safety.replied s' 0x03 tag cDONE
        ([(RegId.TPC_TEMP, 0), (.TPC_TEMP_DIE, 0), (.TPC_TEMP_DIE, 1), (.TPC_TEMP_DIE, 2), (.TPC_TEMP_DIE, 3), (.TPC_TEMP_HDR, 0),
          (.TPC_LEVELS, 0), (.TPC_POWER, 0)].flatMap fun r => leBytes 8 (s.regView r.1 r.2 0).toNat) ∧ s' = { s with mgmt := s'.mgmt })
      ∧ (∀ v : Byte, Safety.requested s 0x15 tag [v] → ∃ s', Machine.exec .nbr s = .next s' ∧ Safety.replied s' 0x15 tag cDONE []
        ∧ s'.getF Fld.LDG_RISK_NBR = v.toNat ∧ s'.getF Fld.LDG_RISK_TOTAL = min 255 (s.getF Fld.LDG_RISK_MEM + s.getF Fld.LDG_RISK_LINK
          + s.getF Fld.LDG_RISK_LASER + s.getF Fld.LDG_RISK_THERMAL + s.getF Fld.LDG_RISK_AGE + v.toNat)
        ∧ Safety.keepsRegs s s' [RegId.LDG_RISK.addr] ∧ s'.mem = s.mem ∧ s'.bays = s.bays)
      ∧ (Safety.requested s 0x20 tag [] →
        (s.host.job = none → ∃ s', Machine.exec .off s = .next s' ∧ s'.devState = stOFF ∧ s'.mem = [] ∧ s'.bays = []
          ∧ s'.power.good = false ∧ s'.store = s.store ∧ s'.getF Fld.TPC_SHUTDOWN_LATCH = 0)
        ∧ (∀ j, s.host.job = some j → (∃ b ∈ j.bays, (s.bay (BitVec.ofNat 10 b)).live = true) → Safety.handedOver s →
          ∃ s', Machine.exec .off s = .next s' ∧ s'.power.offDue = true ∧ Safety.replied s' 0x20 tag cDONE []
            ∧ s'.host.job = some { j with stopped := true } ∧ s'.mem = s.mem))
      ∧ (Safety.requested s 0x21 tag [] → Safety.handedOver s →
        (s.devState = stLATCHED → ∃ s', Machine.exec .patrol s = .next s' ∧ Safety.replied s' 0x21 tag cDONE []
          ∧ s'.getF Fld.TPC_SHUTDOWN_LATCH = 0 ∧ s'.getF Fld.TPC_POWER_ENTRY = 4
          ∧ Safety.keepsRegs s s' [RegId.TPC_SHUTDOWN.addr, RegId.TPC_POWER.addr] ∧ s'.mem = s.mem ∧ s'.bays = s.bays)
        ∧ (s.devState = stREADY → ∃ s', Machine.exec .patrol s = .next s' ∧ Safety.replied s' 0x21 tag cDONE []
          ∧ s'.getF Fld.TPC_POWER_ENTRY = 1 ∧ Safety.keepsRegs s s' [RegId.TPC_POWER.addr] ∧ s'.mem = s.mem ∧ s'.bays = s.bays))
      ∧ (Safety.requested s 0x22 tag p → p.length = 28 → 1 ≤ payBits p 11 0 → payBits p 11 0 ≤ 3600 → ∃ s', Machine.exec .patrolSet s = .next s'
        ∧ Safety.replied s' 0x22 tag cDONE [] ∧ s'.getF Fld.TPC_PATROL_PERIOD = payBits p 11 0
        ∧ s'.getF Fld.TPC_PATROL_WAKE_THRESH = payBits p 16 16 ∧ s'.getF Fld.TPC_PATROL_WAKE_ADDR = payBits p 17 17
        ∧ s'.getF Fld.TPC_PATROL_WAKE_ALARM = payBits p 18 18
        ∧ (∀ q, q < 5 → s'.getF (Fld.TPC_PATROL_LIM_LOW q) = payBits (p.drop (3 + 5 * q)) 15 0
          ∧ s'.getF (Fld.TPC_PATROL_LIM_HIGH q) = payBits (p.drop (3 + 5 * q)) 31 16
          ∧ s'.getF (Fld.TPC_PATROL_LIM_WAKE_EN q) = payBits (p.drop (3 + 5 * q)) 32 32)
        ∧ Safety.keepsRegs s s' (RegId.TPC_PATROL.addr :: (List.range 5).map fun q => RegId.TPC_PATROL_LIM.addr q)
        ∧ s' = { s with regs := s'.regs, mgmt := s'.mgmt })
      ∧ (Safety.requested s 0x23 tag p → p.length = 2 → 800 ≤ leNat p → leNat p ≤ 2100 → ∃ s', Machine.exec .powerCap s = .next s'
        ∧ Safety.replied s' 0x23 tag cDONE [] ∧ s'.getF Fld.TPC_POWER_CAP_W = leNat p ∧ Safety.keepsRegs s s' [RegId.TPC_POWER.addr]
        ∧ s' = { s with regs := s'.regs, mgmt := s'.mgmt })
      ∧ (∀ m : AgeMeasure, Safety.requested s 0x24 tag [] → ∃ s', Machine.exec (.replan m) s = .next s' ∧ s'.mgmt.req = none
        ∧ s'.mgmt.reply = some ⟨tag, 0x24, cDONE, false, []⟩
        ∧ s'.getF Fld.TPC_AGE_SUPPLY_REPLANS = (s.getF Fld.TPC_AGE_SUPPLY_REPLANS + 1) % 2 ^ 16
        ∧ s'.getF Fld.TPC_AGE_RUN_HOURS = max m.hours (s.getF Fld.TPC_AGE_RUN_HOURS) % 2 ^ 32
        ∧ s'.getF Fld.TPC_AGE_SHARE_DRIFT = min m.drift 10000 ∧ s'.getF Fld.TPC_AGE_SHARE_LASER = min m.laser 10000
        ∧ s'.getF Fld.TPC_AGE_SHARE_EYE = min m.eye 10000 ∧ s'.mem = s.mem ∧ s'.bays = s.bays)
      ∧ (Safety.requested s 0x30 tag p → p.length = 8 → leNat p % 2 = 0 → s.getF Fld.SCR_CAL_STATUS_ARMED = 0 →
        ∃ s', Machine.exec .calSet s = .next s' ∧ Safety.replied s' 0x30 tag cDONE [] ∧ s'.reg RegId.SCR_CAL.addr = BitVec.ofNat 64 (leNat p)
          ∧ s'.getF Fld.SCR_CAL_STATUS_VALID = 1 ∧ Safety.keepsRegs s s' [RegId.SCR_CAL.addr, RegId.SCR_CAL_STATUS.addr]
          ∧ s' = { s with regs := s'.regs, mgmt := s'.mgmt })
      ∧ (Safety.requested s 0x31 tag p → p.length = 9 → payBits p 64 64 = 1 → (s.reg RegId.SCR_CAL.addr).toNat < payBits p 63 0 →
        ∃ s', Machine.exec .alarmSet s = .next s' ∧ Safety.replied s' 0x31 tag cDONE [] ∧ s'.getF Fld.SCR_CAL_ALARM_ALARM = payBits p 63 0
          ∧ s'.getF Fld.SCR_CAL_STATUS_ARMED = 1 ∧ s'.getF Fld.SCR_CAL_STATUS_FIRED = 0
          ∧ s'.getF Fld.SCR_CAL_STATUS_VALID = s.getF Fld.SCR_CAL_STATUS_VALID
          ∧ Safety.keepsRegs s s' [RegId.SCR_CAL_ALARM.addr, RegId.SCR_CAL_STATUS.addr])
      ∧ (Safety.requested s 0x40 tag p → 5 ≤ p.length → p.length ≤ 2052 → s.fwWhole = false →
        (leNat (p.take 4) = 0 → ∃ s', Machine.exec .fwWrite s = .next s' ∧ Safety.replied s' 0x40 tag cDONE []
          ∧ s'.fwWrite = some ⟨p.drop 4⟩ ∧ s'.getF Fld.MSC_FW_PROG_STATE = 1 ∧ s'.store = s.store
          ∧ Safety.keepsRegs s s' [RegId.MSC_FW_PROG.addr] ∧ s'.mem = s.mem)
        ∧ (leNat (p.take 4) ≠ 0 → s.fwWrite ≠ none → leNat (p.take 4) ≠ s.fwBytes.length → ∃ s', Machine.exec .fwWrite s = .next s'
          ∧ Safety.replied s' 0x40 tag cRANGE [] ∧ s'.fwWrite = none ∧ s'.getF Fld.MSC_FW_PROG_STATE = 3 ∧ s'.store = s.store))
      ∧ (Safety.requested s 0x41 tag p → p.length = 32 → ∃ s', Machine.exec .quote s = .next s' ∧ Safety.replied s' 0x41 tag cDONE
        (s.quoteBody p ++ Config.sign [0x44, 0x5A, 0x41, 0x51] (sha3 (s.quoteBody p))) ∧ s' = { s with mgmt := s'.mgmt })
      ∧ (Safety.requested s 0x43 tag p → p.length = 32 → ∃ s', Machine.exec .challenge s = .next s' ∧ Safety.replied s' 0x43 tag cDONE
        (s.challengeBody p ++ Config.sign [0x44, 0x5A, 0x4D, 0x43] (sha3 (s.challengeBody p))) ∧ s' = { s with mgmt := s'.mgmt })
      ∧ (∀ v : Byte, v.toNat ≤ 1 →
        (Safety.requested s 0x42 tag [v] → ∃ s', Machine.exec .certRead s = .next s'
          ∧ Safety.replied s' 0x42 tag cDONE (Config.certificate v.toNat) ∧ s' = { s with mgmt := s'.mgmt })
        ∧ (Safety.requested s 0x51 tag [v] → ∃ s', Machine.exec .bench s = .next s' ∧ Safety.replied s' 0x51 tag cDONE []
          ∧ s' = { s with store := { s.store with bench := v == 1 }, power := { s.power with resetDue := true }, mgmt := s'.mgmt }))
      ∧ (∀ v : Byte, Safety.requested s 0x50 tag [v] → ∃ s', Machine.exec .permit s = .next s' ∧ Safety.replied s' 0x50 tag cDONE []
        ∧ s'.getF Fld.MSC_HBM1500_PERMIT_STACK = s.getF Fld.MSC_HBM1500_PERMIT_STACK ||| v.toNat
        ∧ Safety.keepsRegs s s' [RegId.MSC_HBM1500_PERMIT.addr] ∧ s' = { s with regs := s'.regs, mgmt := s'.mgmt }))
end

