-- ==== Sys2Proof/Laws/Access.lean ====
section
/-! SUPPORT. What the access checks read: the registers alone. -/

namespace Sys2Proof.Machine

variable {s t : State}

theorem reg_of_regs (h : t.regs = s.regs) (a : Nat) : t.reg a = s.reg a := by simp only [State.reg, h]

theorem getF_of_regs (h : t.regs = s.regs) (f : Field) : t.getF f = s.getF f := by simp only [State.getF, reg_of_regs h]

theorem reserve_of_regs (h : t.regs = s.regs) : t.reserve = s.reserve := by simp only [State.reserve, getF_of_regs h]

theorem inReserve_of_regs (h : t.regs = s.regs) (a n : Nat) : t.inReserve a n = s.inReserve a n := by
  unfold State.inReserve; rw [reserve_of_regs h]

theorem deniedOn_of_regs (h : t.regs = s.regs) (m : Master) (i page : Nat) (p : Perms) : t.deniedOn m i page p = s.deniedOn m i page p := by
  have e : t.accEntries i = s.accEntries i := by unfold State.accEntries; rw [h, show t.reg = s.reg from funext (reg_of_regs h)]
  unfold State.deniedOn; rw [e]

/-- Pages that no rule denies are allowed, and the state stays. -/
theorem checkPages_allowed {m : Master} {dev : DevCoord} {p : Perms} (n q : Nat)
    (h : ∀ i, i < n → ∀ x, targetOf ((q + i) * 4096) = some x → (s.deniedOn m x.1 x.2 p).isNone = true) :
    checkPages s m dev p n q = (s, true) := by
  induction n generalizing q with
  | zero => rfl
  | succ n ih =>
    have r := ih (q + 1) (fun i hi x hx => h (i + 1) (by omega) x (by rw [← hx, show q + (i + 1) = q + 1 + i by omega]))
    rw [checkPages]
    cases e : targetOf (q * 4096) with
    | none => exact r
    | some x => simp only [h 0 (by omega) x (by simpa using e), if_true, r]

/-- An access within one page that no rule denies leaves the state. -/
theorem access_one {m : Master} {dev : DevCoord} {p : Perms} {a n i page : Nat} (hn : 0 < n) (hp : (a + n - 1) / 4096 = a / 4096)
    (hg : targetOf (a / 4096 * 4096) = some (i, page)) (hr : s.inReserve a n = false) (hd : (s.deniedOn m i page p).isNone = true) :
    s.access m dev p a n = (s, true) := by
  have hn' : n ≠ 0 := by omega
  have hc : (a + n - 1) / 4096 + 1 - a / 4096 = 1 := by omega
  simp only [State.access, hr, Bool.and_false, Bool.false_eq_true, if_false, State.checkAccess, hn', hc, checkPages, hg, hd, if_true]

end Sys2Proof.Machine
end

