-- ==== Sys2Proof/Laws/SMap.lean ====
section
/-! SUPPORT. Laws of sparse maps: read after write, and every operation keeps the canonical form. -/

namespace Sys2Proof.Machine

variable {α : Type}

/-- Above the last trimmed key, trimming changes no read. -/
theorem smapGet_trim (d : Nat → α) (m : SMap α) (k j : Nat) (h : k < j) :
    smapGet d (smapTrim k m) j = smapGet d m j := by
  induction m with
  | nil => rfl
  | cons p m ih =>
    obtain ⟨a, x⟩ := p
    simp only [smapTrim]
    split
    · rfl
    · rw [ih]
      have h1 : ¬ j = a := by omega
      have h2 : ¬ j < a := by omega
      simp [smapGet, h1, h2]

/-- Below the first kept key, a trimmed map reads as unlisted. -/
theorem smapGet_trim_le (d : Nat → α) (m : SMap α) (k j : Nat) (h : j ≤ k) :
    smapGet d (smapTrim k m) j = d j := by
  induction m with
  | nil => rfl
  | cons p m ih =>
    obtain ⟨a, x⟩ := p
    simp only [smapTrim]
    split
    · have h1 : ¬ j = a := by omega
      have h2 : j < a := by omega
      simp [smapGet, h1, h2]
    · exact ih

/-- Read after write. -/
theorem smapGet_set [DecidableEq α] (d : Nat → α) (m : SMap α) (k : Nat) (v : α) (j : Nat) :
    smapGet d (smapSet d m k v) j = if j = k then v else smapGet d m j := by
  induction m with
  | nil =>
    simp only [smapSet]
    split
    · rename_i h; by_cases hj : j = k
      · subst hj; simp [smapGet, h]
      · simp [smapGet, hj]
    · by_cases hj : j = k <;> simp [smapGet, hj]
  | cons p m ih =>
    obtain ⟨a, x⟩ := p
    simp only [smapSet]
    by_cases hka : k < a
    · rw [if_pos hka]
      by_cases hv : v = d k
      · rw [if_pos hv]
        by_cases hj : j = k
        · subst hj; simp [smapGet, hka, show ¬ j = a by omega, hv]
        · simp [hj]
      · rw [if_neg hv]
        by_cases hj : j = k
        · simp [smapGet, hj]
        · by_cases hlt : j < k
          · simp [smapGet, hj, hlt, show ¬ j = a by omega, show j < a by omega]
          · simp only [smapGet, if_neg hj, if_neg hlt]
    · rw [if_neg hka]
      by_cases hk : k = a
      · rw [if_pos hk]
        subst hk
        by_cases hj : j = k
        · subst hj
          by_cases hv : v = d j
          · simp [hv, smapGet_trim_le]
          · simp [hv, smapGet]
        · by_cases hlt : j < k
          · by_cases hv : v = d k
            · simp [hv, hj, smapGet, hlt, smapGet_trim_le d m k j (by omega)]
            · simp [hv, hj, smapGet, hlt]
          · by_cases hv : v = d k
            · simp [hv, hj, smapGet, hlt, smapGet_trim d m k j (by omega)]
            · simp [hv, hj, smapGet, hlt, smapGet_trim d m k j (by omega)]
      · rw [if_neg hk]
        by_cases hja : j = a
        · subst hja; simp [smapGet, show ¬ j = k by omega]
        · by_cases hlt : j < a
          · simp [smapGet, hja, hlt, show ¬ j = k by omega]
          · simp only [smapGet, if_neg hja, if_neg hlt]; exact ih

/-- Read of the key just written. -/
@[simp] theorem smapGet_set_self [DecidableEq α] (d : Nat → α) (m : SMap α) (k : Nat) (v : α) :
    smapGet d (smapSet d m k v) k = v := by simp [smapGet_set]

/-- A write leaves every other key alone. -/
theorem smapGet_set_ne [DecidableEq α] (d : Nat → α) (m : SMap α) (k : Nat) (v : α) (j : Nat) (h : j ≠ k) :
    smapGet d (smapSet d m k v) j = smapGet d m j := by simp [smapGet_set, h]

@[simp] theorem smapGet_nil (d : Nat → α) (k : Nat) : smapGet d [] k = d k := rfl

/-- A stricter lower bound is enough for a looser one. -/
theorem smapWfFrom_mono [DecidableEq α] (d : Nat → α) (m : SMap α) (l l' : Option Nat)
    (h : ∀ x, l' = some x → ∃ y, l = some y ∧ x ≤ y) (hw : smapWfFrom d l m = true) : smapWfFrom d l' m = true := by
  cases m with
  | nil => rfl
  | cons p m =>
    obtain ⟨a, x⟩ := p
    simp only [smapWfFrom, Bool.and_eq_true] at hw ⊢
    refine ⟨⟨?_, hw.1.2⟩, hw.2⟩
    cases l' with
    | none => rfl
    | some z =>
      obtain ⟨y, hy, hz⟩ := h z rfl
      subst hy
      have := hw.1.1
      simp only [smapAbove, decide_eq_true_eq] at this ⊢
      omega

/-- Trimming keeps the canonical form and leaves only keys above `k`. -/
theorem smapWfFrom_trim [DecidableEq α] (d : Nat → α) (m : SMap α) (lo : Option Nat) (k : Nat)
    (hw : smapWfFrom d lo m = true) : smapWfFrom d (some k) (smapTrim k m) = true := by
  induction m generalizing lo with
  | nil => rfl
  | cons p m ih =>
    obtain ⟨a, x⟩ := p
    simp only [smapWfFrom, Bool.and_eq_true] at hw
    simp only [smapTrim]
    split
    · rename_i h
      simp only [smapWfFrom, Bool.and_eq_true, decide_eq_true_eq]
      exact ⟨⟨by simpa [smapAbove] using h, by simpa using hw.1.2⟩, hw.2⟩
    · exact ih _ hw.2

/-- A write keeps the canonical form. -/
theorem smapWfFrom_set [DecidableEq α] (d : Nat → α) (m : SMap α) (lo : Option Nat) (k : Nat) (v : α)
    (hlo : ∀ x, lo = some x → x < k) (hw : smapWfFrom d lo m = true) : smapWfFrom d lo (smapSet d m k v) = true := by
  have hk0 : smapAbove lo k = true := by
    cases lo with
    | none => rfl
    | some l => simpa [smapAbove] using hlo l rfl
  induction m generalizing lo with
  | nil =>
    simp only [smapSet]
    split
    · rfl
    · rename_i h
      simp only [smapWfFrom, Bool.and_eq_true, decide_eq_true_eq, and_true]
      exact ⟨hk0, h⟩
  | cons p m ih =>
    obtain ⟨a, x⟩ := p
    have hw' := hw
    simp only [smapWfFrom, Bool.and_eq_true] at hw
    simp only [smapSet]
    split
    · rename_i h
      split
      · exact hw'
      · rename_i hv
        simp only [smapWfFrom, Bool.and_eq_true, decide_eq_true_eq]
        exact ⟨⟨hk0, hv⟩, ⟨by simpa [smapAbove] using h, by simpa using hw.1.2⟩, hw.2⟩
    · split
      · rename_i h1 h2
        subst h2
        split
        · refine smapWfFrom_mono d _ (some k) _ ?_ (smapWfFrom_trim d m (some k) k hw.2)
          intro z hz
          exact ⟨k, rfl, by have := hlo z hz; omega⟩
        · rename_i hv
          simp only [smapWfFrom, Bool.and_eq_true, decide_eq_true_eq]
          exact ⟨⟨hk0, hv⟩, smapWfFrom_trim d m (some k) k hw.2⟩
      · rename_i h1 h2
        simp only [smapWfFrom, Bool.and_eq_true]
        refine ⟨hw.1, ih (some a) (by intro z hz; cases hz; omega) hw.2 (by simp [smapAbove]; omega)⟩

/-- A write keeps the canonical form. -/
theorem smapWf_set [DecidableEq α] (d : Nat → α) (m : SMap α) (k : Nat) (v : α) (hw : smapWf d m = true) :
    smapWf d (smapSet d m k v) = true :=
  smapWfFrom_set d m none k v (by simp) hw

@[simp] theorem smapWf_nil [DecidableEq α] (d : Nat → α) : smapWf d ([] : SMap α) = true := rfl

end Sys2Proof.Machine
end

