-- ==== Sys2Proof/Laws/Canonical.lean ====
section
/-! SUPPORT. The canonical form of memory, of the host's memory and of the registers is kept by every operation that writes one of them:
a write, a range of writes, and the removal of a range (contents that are lost or zeroed). -/

namespace Sys2Proof.Machine

variable {α : Type}

/-- Removing entries keeps the canonical form. -/
theorem smapWfFrom_filter [DecidableEq α] (d : Nat → α) (m : SMap α) (p : Nat × α → Bool) (lo : Option Nat)
    (hw : smapWfFrom d lo m = true) : smapWfFrom d lo (m.filter p) = true := by
  induction m generalizing lo with
  | nil => rfl
  | cons e m ih =>
    obtain ⟨a, x⟩ := e
    simp only [smapWfFrom, Bool.and_eq_true] at hw
    rw [List.filter_cons]
    split
    · simp only [smapWfFrom, Bool.and_eq_true]
      exact ⟨hw.1, ih _ hw.2⟩
    · refine smapWfFrom_mono d _ (some a) _ ?_ (ih _ hw.2)
      intro z hz
      subst hz
      have := hw.1.1
      simp only [smapAbove, decide_eq_true_eq] at this
      exact ⟨a, rfl, by omega⟩

theorem smapWf_filter [DecidableEq α] (d : Nat → α) (m : SMap α) (p : Nat × α → Bool) (hw : smapWf d m = true) :
    smapWf d (m.filter p) = true :=
  smapWfFrom_filter d m p none hw

/-- What is removed reads as unlisted, and what stays reads as before. -/
theorem smapGet_filter (d : Nat → α) (m : SMap α) (p : Nat → Bool) (k : Nat) [DecidableEq α] (hw : smapWf d m = true) :
    smapGet d (m.filter fun e => p e.1) k = if p k then smapGet d m k else d k := by
  suffices h : ∀ lo, smapWfFrom d lo m = true →
      smapGet d (m.filter fun e => p e.1) k = if p k then smapGet d m k else d k from h none hw
  clear hw
  induction m with
  | nil => intro lo _; simp
  | cons e m ih =>
    obtain ⟨a, x⟩ := e
    intro lo h
    simp only [smapWfFrom, Bool.and_eq_true] at h
    have above : ∀ (q : SMap α) (l : Nat), smapWfFrom d (some l) q = true → k ≤ l → smapGet d q k = d k := by
      intro q l hq hk
      cases q with
      | nil => rfl
      | cons e q =>
        obtain ⟨b, y⟩ := e
        simp only [smapWfFrom, Bool.and_eq_true, smapAbove, decide_eq_true_eq] at hq
        rw [smapGet, if_neg (by omega), if_pos (by omega)]
    rw [List.filter_cons]
    by_cases hp : p a = true
    · rw [if_pos hp]
      by_cases e : k = a
      · subst e; simp [smapGet, hp]
      · by_cases l : k < a
        · simp [smapGet, e, l]
        · simp only [smapGet, e, l, if_false]; exact ih _ h.2
    · rw [if_neg hp]
      by_cases e : k = a
      · subst e
        rw [ih _ h.2, if_neg hp, if_neg hp]
      · by_cases l : k < a
        · rw [ih _ h.2, smapGet, if_neg e, if_pos l, above m a h.2 (by omega)]
        · rw [ih _ h.2, smapGet, if_neg e, if_neg l]

/-! ### The named operations -/

/-- The canonical form depends on the three maps alone. -/
theorem canonical_of_eq {s t : State} (h : Safety.canonical s) (hm : t.mem = s.mem) (hh : t.host.mem = s.host.mem) (hr : t.regs = s.regs) :
    Safety.canonical t := by
  unfold Safety.canonical; rw [hm, hh, hr]; exact h

theorem canonical_reset : Safety.canonical State.reset := ⟨rfl, rfl, rfl⟩

theorem canonical_setReg {s : State} (h : Safety.canonical s) (a : Nat) (v : Word) : Safety.canonical (s.setReg a v) :=
  ⟨h.1, h.2.1, smapWf_set _ _ _ _ h.2.2⟩

theorem canonical_setF {s : State} (h : Safety.canonical s) (f : Field) (v : Nat) : Safety.canonical (s.setF f v) := canonical_setReg h _ _

theorem canonical_incF {s : State} (h : Safety.canonical s) (f : Field) (n : Nat) : Safety.canonical (s.incF f n) := canonical_setF h _ _

theorem canonical_setFs {s : State} (l : List (Field × Nat)) (h : Safety.canonical s) : Safety.canonical (s.setFs l) := by
  induction l generalizing s with
  | nil => exact h
  | cons p l ih => exact ih (canonical_setF h p.1 p.2)

theorem canonical_stick {s : State} (h : Safety.canonical s) (f c : Field) : Safety.canonical (s.stick f c) :=
  canonical_incF (canonical_setF h f 1) c 1

theorem canonical_clearFlag {s : State} (h : Safety.canonical s) (f : Field) : Safety.canonical (s.clearFlag f) := canonical_setF h f 0

theorem canonical_bitsEvent {s : State} (h : Safety.canonical s) (c : Code) : Safety.canonical (s.bitsEvent c) := by
  unfold State.bitsEvent
  dsimp only
  split
  · exact canonical_setF (canonical_setF h _ _) _ _
  · exact canonical_setF h _ _

theorem canonical_tickEvent {s : State} (h : Safety.canonical s) (n : Nat) : Safety.canonical (s.tickEvent n) := by
  unfold State.tickEvent
  split
  · exact h
  · exact canonical_incF (canonical_setF h _ _) _ _

theorem canonical_setMem {s : State} (h : Safety.canonical s) (a : Nat) (v : Byte) : Safety.canonical (s.setMem a v) :=
  ⟨smapWf_set _ _ _ _ h.1, h.2.1, h.2.2⟩

theorem canonical_setMemBytes {s : State} (h : Safety.canonical s) (a : Nat) (l : List Byte) : Safety.canonical (s.setMemBytes a l) := by
  induction l generalizing s a with
  | nil => exact h
  | cons v l ih => exact ih (canonical_setMem h a v) _

theorem canonical_hostWrite {s : State} (h : Safety.canonical s) (a : Nat) (l : List Byte) : Safety.canonical (s.hostWrite a l) := by
  induction l generalizing s a with
  | nil => exact h
  | cons v l ih =>
    have w : Safety.canonical (s.updHost fun x => { x with mem := smapSet memDefault x.mem a v }) :=
      ⟨h.1, smapWf_set memDefault s.host.mem a v h.2.1, h.2.2⟩
    exact ih w _

/-- Bytes of device memory removed. -/
theorem canonical_filterMem {s t : State} (h : Safety.canonical s) (p : Nat × Byte → Bool) (hm : t.mem = s.mem.filter p)
    (hh : t.host.mem = s.host.mem) (hr : t.regs = s.regs) : Safety.canonical t := by
  unfold Safety.canonical; rw [hm, hh, hr]; exact ⟨smapWf_filter _ _ _ h.1, h.2⟩

end Sys2Proof.Machine
end

