-- ==== Sys2Proof/Laws/Issue.lean ====
section
/-! SUPPORT. What the issue of a bay instruction does, said once: under `Safety.ready` the gate opens, and only its checks
decide between issue and a precise fault. -/

namespace Sys2Proof.Machine

/-- A thread in RUN that waits for nothing issues. -/
theorem issues_of_run {r : ThreadRec} (h : r.status.st = .run) (h' : r.waitFor = .none) : r.issues = true := by
  simp [ThreadRec.issues, h, h']

/-- The gate of a ready instruction: a failed check is a precise fault of the fetched state, MALFORMED before RANGE (R178);
without one the instruction issues from the fetched state. -/
theorem issueGate_of_ready {s : State} {b : BayId} {t : Thread} {i : BayInstr} (chk : Check) (h : Safety.ready s b t i) :
    issueGate s b t i chk =
      if chk.mal then .stop ((Safety.fetched s b t).preciseFault b t cMALFORMED)
      else if chk.rng then .stop ((Safety.fetched s b t).preciseFault b t cRANGE)
      else .go (Safety.fetched s b t) := by
  obtain ⟨hg, hr, hw, he, hf, ho, hp, hq⟩ := h
  have hi := issues_of_run hr hw
  have h1 : (s.thr b t).pend.find? i.amoGate = none := by
    rw [List.find?_eq_none]
    intro p hp'; simp [(hp p hp').1]
  have h2 : ((s.thr b t).pend.any fun p => i.gregs.contains p.reg && p.reg != 0) = false := by
    rw [List.any_eq_false]
    intro p hp' hc
    simp only [Bool.and_eq_true, List.contains_iff_mem, bne_iff_ne, ne_eq] at hc
    exact hc.2 ((hp p hp').2 hc.1)
  unfold State.thr at hi h1 h2
  simp only [issueGate, Safety.fetched]
  rw [hg, hi, he, hf, ho, h1, h2, hq]
  rfl

/-- A gate that opens runs the effect. -/
@[simp] theorem run_go (s s' : State) (eff : State → State) : (Gate.go s').run s eff = eff s' := rfl

/-- A gate that stops answers its own state. -/
@[simp] theorem run_stop (s s' : State) (eff : State → State) : (Gate.stop s').run s eff = s' := rfl

/-- A stalled instruction has no effect. -/
@[simp] theorem run_stall (s : State) (eff : State → State) : Gate.stall.run s eff = s := rfl

/-- A ready instruction whose checks pass runs its effect on the fetched state. -/
theorem run_of_ready {s : State} {b : BayId} {t : Thread} {i : BayInstr} {chk : Check} (h : Safety.ready s b t i)
    (hm : chk.mal = false) (hr : chk.rng = false) (eff : State → State) :
    (issueGate s b t i chk).run s eff = eff (Safety.fetched s b t) := by
  simp [issueGate_of_ready chk h, hm, hr]

end Sys2Proof.Machine
end

