-- ==== Sys2Proof/Laws/RegMap.lean ====
section
/-! SUPPORT. The register map is one-to-one: the address of a register locates that register and no other. -/

namespace Sys2Proof.Machine

/-- One past the last byte of a kind, counted from its base. -/
def RegSpec.span (p : RegSpec) : Nat := (p.n1 - 1) * p.s1 + (p.n2 - 1) * p.s2 + 8

/-- No address of a register of the first kind lies in a register of the second: their spans do not meet, or they share a stride and
never a residue. -/
def RegSpec.apart (p q : RegSpec) : Bool :=
  Nat.ble (p.base + p.span) q.base || Nat.ble (q.base + q.span) p.base
    || (Nat.beq p.s1 q.s1 && Nat.ble q.base (p.base + p.s1) && (List.range p.n2).all fun j =>
        let o := (p.base + p.s1 + j * p.s2 - q.base) % p.s1
        !(Nat.blt (o / q.s2) q.n2 && Nat.blt (o % q.s2) 8))

/-- The place of a kind is well formed: its strides hold its registers of 8 bytes. -/
def RegSpec.ok (p : RegSpec) : Bool := Nat.ble ((p.n2 - 1) * p.s2 + 8) p.s1 && Nat.ble 8 p.s2 && Nat.ble 1 p.n2

theorem RegSpec.ok_iff (p : RegSpec) : p.ok = true ↔ (p.n2 - 1) * p.s2 + 8 ≤ p.s1 ∧ 8 ≤ p.s2 ∧ 1 ≤ p.n2 := by
  simp [RegSpec.ok, and_assoc]

/-- A register of a kind lies within its own block. -/
theorem RegSpec.ok_bound {p : RegSpec} (h : p.ok = true) {j : Nat} (hj : j < p.n2) : j * p.s2 + 8 ≤ p.s1 := by
  rw [RegSpec.ok_iff] at h
  have := Nat.mul_le_mul_right p.s2 (show j ≤ p.n2 - 1 by omega)
  omega

/-- The address of a register locates its own instance. -/
theorem RegId.instAt_addr (r : RegId) (h : r.spec.ok = true) {i j : Nat} (hi : i < r.spec.n1) (hj : j < r.spec.n2) :
    r.instAt (r.addr i j) = some (i, j) := by
  have hb := RegSpec.ok_bound h hj
  rw [RegSpec.ok_iff] at h
  have h1 : r.addr i j - r.spec.base = j * r.spec.s2 + r.spec.s1 * i := by
    rw [RegId.addr, Nat.mul_comm r.spec.s1 i]; omega
  have h2 : (j * r.spec.s2 + r.spec.s1 * i) / r.spec.s1 = i := by
    rw [Nat.add_mul_div_left _ _ (by omega), Nat.div_eq_of_lt (by omega), Nat.zero_add]
  have h3 : (j * r.spec.s2 + r.spec.s1 * i) % r.spec.s1 = j * r.spec.s2 := by
    rw [Nat.add_mul_mod_self_left, Nat.mod_eq_of_lt (by omega)]
  have h4 : ¬ r.addr i j < r.spec.base := by rw [RegId.addr]; omega
  simp only [RegId.instAt, h1, h2, h3, h4, if_false, Nat.mul_mod_left, Nat.mul_div_cancel _ (show 0 < r.spec.s2 by omega)]
  rw [if_pos ⟨hi, hj, by decide⟩]

/-- The address of a register does not lie in a kind that is apart. -/
theorem RegId.instAt_apart (r q : RegId) (h : r.spec.ok = true) (ho : q.spec.ok = true) (ha : r.spec.apart q.spec = true) {i j : Nat}
    (hi : i < r.spec.n1) (hj : j < r.spec.n2) : q.instAt (r.addr i j) = none := by
  have hb := RegSpec.ok_bound h hj
  have hm := Nat.mul_le_mul_right r.spec.s1 (show i ≤ r.spec.n1 - 1 by omega)
  have hn := Nat.mul_le_mul_right r.spec.s2 (show j ≤ r.spec.n2 - 1 by omega)
  simp only [RegSpec.apart, Bool.or_eq_true, Bool.and_eq_true, Nat.ble_eq, Nat.beq_eq, List.all_eq_true, List.mem_range] at ha
  unfold RegId.instAt
  dsimp only
  rcases ha with (ha | ha) | ⟨⟨hs, hq⟩, ha⟩
  · rw [if_pos]; unfold RegId.addr; unfold RegSpec.span at ha; omega
  · split
    · rfl
    · rename_i hge
      rw [if_neg]
      rintro ⟨h1, h2, h3⟩
      obtain ⟨ho1, ho2, ho3⟩ := (RegSpec.ok_iff _).mp ho
      unfold RegSpec.span at ha
      have ho' : q.spec.base + ((q.spec.n1 - 1) * q.spec.s1 + (q.spec.n2 - 1) * q.spec.s2 + 8) ≤ r.addr i j := by
        unfold RegId.addr; omega
      generalize ho4 : r.addr i j - q.spec.base = o at h1 h2 h3
      have ho5 : (q.spec.n1 - 1) * q.spec.s1 + (q.spec.n2 - 1) * q.spec.s2 + 8 ≤ o := by omega
      have e1 := Nat.div_add_mod o q.spec.s1
      have e2 := Nat.div_add_mod (o % q.spec.s1) q.spec.s2
      have e3 := Nat.mod_lt o (show 0 < q.spec.s1 by omega)
      have m1 := Nat.mul_le_mul_left q.spec.s1 (show o / q.spec.s1 ≤ q.spec.n1 - 1 by omega)
      have m2 := Nat.mul_le_mul_left q.spec.s2 (show o % q.spec.s1 / q.spec.s2 ≤ q.spec.n2 - 1 by omega)
      rw [Nat.mul_comm _ (q.spec.n1 - 1)] at m1
      rw [Nat.mul_comm _ (q.spec.n2 - 1)] at m2
      omega
  · split
    · rfl
    · rename_i hge
      rw [if_neg]
      rintro ⟨-, h2, h3⟩
      have := ha j hj
      simp only [Bool.not_eq_true', Bool.and_eq_false_iff] at this
      have he : (r.addr i j - q.spec.base) % q.spec.s1 = (r.spec.base + r.spec.s1 + j * r.spec.s2 - q.spec.base) % r.spec.s1 := by
        rw [← hs]
        have : r.spec.base + r.spec.s1 + j * r.spec.s2 - q.spec.base + r.spec.s1 * i = r.addr i j - q.spec.base + r.spec.s1 * 1 := by
          unfold RegId.addr at hge ⊢; rw [Nat.mul_comm r.spec.s1 i]; omega
        rw [← Nat.add_mul_mod_self_left (r.spec.base + r.spec.s1 + j * r.spec.s2 - q.spec.base) r.spec.s1 i, this,
          Nat.add_mul_mod_self_left]
      rw [he] at h2 h3
      rcases this with h | h
      · have := (Bool.eq_false_iff.mp h); exact this (by simpa [Nat.blt_eq] using h2)
      · have := (Bool.eq_false_iff.mp h); exact this (by simpa [Nat.blt_eq] using h3)

/-- Every kind is in the list of kinds. -/
theorem mem_regKinds (r : RegId) : r ∈ regKinds := by cases r <;> decide

/-- Every kind's place is well formed. -/
theorem regKinds_ok : regKinds.all (fun r => r.spec.ok) = true := by decide

/-- Kinds of a part of the map lie apart from every other kind. -/
theorem regKinds_apart : regKinds.all (fun r => regKinds.all fun q => decide (r = q) || r.spec.apart q.spec) = true := by
  decide +kernel

/-- The address of a register finds that register among the kinds (R7). -/
theorem regKinds_addr (r : RegId) {i j : Nat} (hi : i < r.spec.n1) (hj : j < r.spec.n2) :
    (regKinds.findSome? fun r' => (r'.instAt (r.addr i j)).map fun p => (r', p.1, p.2)) = some (r, i, j) := by
  have hok : ∀ q : RegId, q.spec.ok = true := fun q => List.all_eq_true.mp regKinds_ok q (mem_regKinds q)
  have hap : ∀ q : RegId, r = q ∨ r.spec.apart q.spec = true := fun q => by
    have := List.all_eq_true.mp (List.all_eq_true.mp regKinds_apart r (mem_regKinds r)) q (mem_regKinds q)
    simpa using this
  have key : ∀ l : List RegId, r ∈ l →
      (l.findSome? fun r' => (r'.instAt (r.addr i j)).map fun p => (r', p.1, p.2)) = some (r, i, j) := by
    intro l
    induction l with
    | nil => intro h; cases h
    | cons q l ih =>
      intro h
      rcases hap q with h' | h'
      · subst h'; rw [List.findSome?_cons, r.instAt_addr (hok r) hi hj]; rfl
      · rw [List.findSome?_cons, r.instAt_apart q (hok r) (hok q) h' hi hj]
        rcases List.mem_cons.mp h with h'' | h''
        · subst h''
          have := r.instAt_addr (hok r) hi hj
          rw [r.instAt_apart r (hok r) (hok r) h' hi hj] at this
          cases this
        · exact ih h''
  exact key _ (mem_regKinds r)

/-- The address of a register locates that register, but for the holes of the level table (R7, R313). -/
theorem regLocate_addr (r : RegId) {i j : Nat} (hi : i < r.spec.n1) (hj : j < r.spec.n2)
    (hh : (r == .ABR_LEVEL && levelHole i j) = false) : regLocate (r.addr i j) = some (r, i, j) := by
  unfold regLocate
  rw [regKinds_addr r hi hj]
  simp [Option.filter, hh]

/-- Registers at one address are one register. -/
theorem RegId.addr_inj (r q : RegId) {i j i' j' : Nat} (hi : i < r.spec.n1) (hj : j < r.spec.n2) (hi' : i' < q.spec.n1)
    (hj' : j' < q.spec.n2) (h : r.addr i j = q.addr i' j') : r = q ∧ i = i' ∧ j = j' := by
  have h1 := regKinds_addr r hi hj
  have h2 := regKinds_addr q hi' hj'
  rw [h, h2] at h1
  simp only [Option.some.injEq, Prod.mk.injEq] at h1
  exact ⟨h1.1.symm, h1.2.1.symm, h1.2.2.symm⟩

/-- Registers of two kinds lie at two addresses. -/
theorem RegId.addr_ne (r q : RegId) {i j i' j' : Nat} (hi : i < r.spec.n1) (hj : j < r.spec.n2) (hi' : i' < q.spec.n1)
    (hj' : j' < q.spec.n2) (h : r ≠ q) : r.addr i j ≠ q.addr i' j' :=
  fun e => h (RegId.addr_inj r q hi hj hi' hj' e).1

end Sys2Proof.Machine
end

