-- ==== Sys2Proof/Laws/State.lean ====
section
/-! SUPPORT. One lemma per field per update of `State`, and what a register field, a byte and a bay read after an update. -/

namespace Sys2Proof.Machine

/-! ### `setReg` -/

@[simp] theorem State.setReg_pending (s : State) (a : Nat) (v : Word) : (s.setReg a v).pending = s.pending := rfl
@[simp] theorem State.setReg_bays (s : State) (a : Nat) (v : Word) : (s.setReg a v).bays = s.bays := rfl
@[simp] theorem State.setReg_mem (s : State) (a : Nat) (v : Word) : (s.setReg a v).mem = s.mem := rfl
@[simp] theorem State.setReg_ecc1 (s : State) (a : Nat) (v : Word) : (s.setReg a v).ecc1 = s.ecc1 := rfl
@[simp] theorem State.setReg_ecc2 (s : State) (a : Nat) (v : Word) : (s.setReg a v).ecc2 = s.ecc2 := rfl
@[simp] theorem State.setReg_hbmBad (s : State) (a : Nat) (v : Word) : (s.setReg a v).hbmBad = s.hbmBad := rfl
@[simp] theorem State.setReg_flits (s : State) (a : Nat) (v : Word) : (s.setReg a v).flits = s.flits := rfl
@[simp] theorem State.setReg_hbm (s : State) (a : Nat) (v : Word) : (s.setReg a v).hbm = s.hbm := rfl
@[simp] theorem State.setReg_fab (s : State) (a : Nat) (v : Word) : (s.setReg a v).fab = s.fab := rfl
@[simp] theorem State.setReg_opt (s : State) (a : Nat) (v : Word) : (s.setReg a v).opt = s.opt := rfl
@[simp] theorem State.setReg_scr (s : State) (a : Nat) (v : Word) : (s.setReg a v).scr = s.scr := rfl
@[simp] theorem State.setReg_host (s : State) (a : Nat) (v : Word) : (s.setReg a v).host = s.host := rfl
@[simp] theorem State.setReg_ldg (s : State) (a : Nat) (v : Word) : (s.setReg a v).ldg = s.ldg := rfl
@[simp] theorem State.setReg_tpc (s : State) (a : Nat) (v : Word) : (s.setReg a v).tpc = s.tpc := rfl
@[simp] theorem State.setReg_power (s : State) (a : Nat) (v : Word) : (s.setReg a v).power = s.power := rfl
@[simp] theorem State.setReg_store (s : State) (a : Nat) (v : Word) : (s.setReg a v).store = s.store := rfl
@[simp] theorem State.setReg_fwWrite (s : State) (a : Nat) (v : Word) : (s.setReg a v).fwWrite = s.fwWrite := rfl
@[simp] theorem State.setReg_mgmt (s : State) (a : Nat) (v : Word) : (s.setReg a v).mgmt = s.mgmt := rfl
@[simp] theorem State.setReg_meas (s : State) (a : Nat) (v : Word) : (s.setReg a v).meas = s.meas := rfl
@[simp] theorem State.setReg_fresh (s : State) (a : Nat) (v : Word) : (s.setReg a v).fresh = s.fresh := rfl
@[simp] theorem State.setReg_lastCode (s : State) (a : Nat) (v : Word) : (s.setReg a v).lastCode = s.lastCode := rfl
@[simp] theorem State.setReg_lastData (s : State) (a : Nat) (v : Word) : (s.setReg a v).lastData = s.lastData := rfl
@[simp] theorem State.setReg_memByte (s : State) (a : Nat) (v : Word) (k : Nat) : (s.setReg a v).memByte k = s.memByte k := rfl
@[simp] theorem State.setReg_bay (s : State) (a : Nat) (v : Word) (k : BayId) : (s.setReg a v).bay k = s.bay k := rfl
@[simp] theorem State.setReg_thr (s : State) (a : Nat) (v : Word) (k : BayId) (t' : Thread) : (s.setReg a v).thr k t' = s.thr k t' := rfl

/-! ### `setF` -/

@[simp] theorem State.setF_pending (s : State) (f : Field) (v : Nat) : (s.setF f v).pending = s.pending := rfl
@[simp] theorem State.setF_bays (s : State) (f : Field) (v : Nat) : (s.setF f v).bays = s.bays := rfl
@[simp] theorem State.setF_mem (s : State) (f : Field) (v : Nat) : (s.setF f v).mem = s.mem := rfl
@[simp] theorem State.setF_ecc1 (s : State) (f : Field) (v : Nat) : (s.setF f v).ecc1 = s.ecc1 := rfl
@[simp] theorem State.setF_ecc2 (s : State) (f : Field) (v : Nat) : (s.setF f v).ecc2 = s.ecc2 := rfl
@[simp] theorem State.setF_hbmBad (s : State) (f : Field) (v : Nat) : (s.setF f v).hbmBad = s.hbmBad := rfl
@[simp] theorem State.setF_flits (s : State) (f : Field) (v : Nat) : (s.setF f v).flits = s.flits := rfl
@[simp] theorem State.setF_hbm (s : State) (f : Field) (v : Nat) : (s.setF f v).hbm = s.hbm := rfl
@[simp] theorem State.setF_fab (s : State) (f : Field) (v : Nat) : (s.setF f v).fab = s.fab := rfl
@[simp] theorem State.setF_opt (s : State) (f : Field) (v : Nat) : (s.setF f v).opt = s.opt := rfl
@[simp] theorem State.setF_scr (s : State) (f : Field) (v : Nat) : (s.setF f v).scr = s.scr := rfl
@[simp] theorem State.setF_host (s : State) (f : Field) (v : Nat) : (s.setF f v).host = s.host := rfl
@[simp] theorem State.setF_ldg (s : State) (f : Field) (v : Nat) : (s.setF f v).ldg = s.ldg := rfl
@[simp] theorem State.setF_tpc (s : State) (f : Field) (v : Nat) : (s.setF f v).tpc = s.tpc := rfl
@[simp] theorem State.setF_power (s : State) (f : Field) (v : Nat) : (s.setF f v).power = s.power := rfl
@[simp] theorem State.setF_store (s : State) (f : Field) (v : Nat) : (s.setF f v).store = s.store := rfl
@[simp] theorem State.setF_fwWrite (s : State) (f : Field) (v : Nat) : (s.setF f v).fwWrite = s.fwWrite := rfl
@[simp] theorem State.setF_mgmt (s : State) (f : Field) (v : Nat) : (s.setF f v).mgmt = s.mgmt := rfl
@[simp] theorem State.setF_meas (s : State) (f : Field) (v : Nat) : (s.setF f v).meas = s.meas := rfl
@[simp] theorem State.setF_fresh (s : State) (f : Field) (v : Nat) : (s.setF f v).fresh = s.fresh := rfl
@[simp] theorem State.setF_lastCode (s : State) (f : Field) (v : Nat) : (s.setF f v).lastCode = s.lastCode := rfl
@[simp] theorem State.setF_lastData (s : State) (f : Field) (v : Nat) : (s.setF f v).lastData = s.lastData := rfl
@[simp] theorem State.setF_memByte (s : State) (f : Field) (v : Nat) (k : Nat) : (s.setF f v).memByte k = s.memByte k := rfl
@[simp] theorem State.setF_bay (s : State) (f : Field) (v : Nat) (k : BayId) : (s.setF f v).bay k = s.bay k := rfl
@[simp] theorem State.setF_thr (s : State) (f : Field) (v : Nat) (k : BayId) (t' : Thread) : (s.setF f v).thr k t' = s.thr k t' := rfl

/-! ### `incF` -/

@[simp] theorem State.incF_pending (s : State) (f : Field) (n : Nat) : (s.incF f n).pending = s.pending := rfl
@[simp] theorem State.incF_bays (s : State) (f : Field) (n : Nat) : (s.incF f n).bays = s.bays := rfl
@[simp] theorem State.incF_mem (s : State) (f : Field) (n : Nat) : (s.incF f n).mem = s.mem := rfl
@[simp] theorem State.incF_ecc1 (s : State) (f : Field) (n : Nat) : (s.incF f n).ecc1 = s.ecc1 := rfl
@[simp] theorem State.incF_ecc2 (s : State) (f : Field) (n : Nat) : (s.incF f n).ecc2 = s.ecc2 := rfl
@[simp] theorem State.incF_hbmBad (s : State) (f : Field) (n : Nat) : (s.incF f n).hbmBad = s.hbmBad := rfl
@[simp] theorem State.incF_flits (s : State) (f : Field) (n : Nat) : (s.incF f n).flits = s.flits := rfl
@[simp] theorem State.incF_hbm (s : State) (f : Field) (n : Nat) : (s.incF f n).hbm = s.hbm := rfl
@[simp] theorem State.incF_fab (s : State) (f : Field) (n : Nat) : (s.incF f n).fab = s.fab := rfl
@[simp] theorem State.incF_opt (s : State) (f : Field) (n : Nat) : (s.incF f n).opt = s.opt := rfl
@[simp] theorem State.incF_scr (s : State) (f : Field) (n : Nat) : (s.incF f n).scr = s.scr := rfl
@[simp] theorem State.incF_host (s : State) (f : Field) (n : Nat) : (s.incF f n).host = s.host := rfl
@[simp] theorem State.incF_ldg (s : State) (f : Field) (n : Nat) : (s.incF f n).ldg = s.ldg := rfl
@[simp] theorem State.incF_tpc (s : State) (f : Field) (n : Nat) : (s.incF f n).tpc = s.tpc := rfl
@[simp] theorem State.incF_power (s : State) (f : Field) (n : Nat) : (s.incF f n).power = s.power := rfl
@[simp] theorem State.incF_store (s : State) (f : Field) (n : Nat) : (s.incF f n).store = s.store := rfl
@[simp] theorem State.incF_fwWrite (s : State) (f : Field) (n : Nat) : (s.incF f n).fwWrite = s.fwWrite := rfl
@[simp] theorem State.incF_mgmt (s : State) (f : Field) (n : Nat) : (s.incF f n).mgmt = s.mgmt := rfl
@[simp] theorem State.incF_meas (s : State) (f : Field) (n : Nat) : (s.incF f n).meas = s.meas := rfl
@[simp] theorem State.incF_fresh (s : State) (f : Field) (n : Nat) : (s.incF f n).fresh = s.fresh := rfl
@[simp] theorem State.incF_lastCode (s : State) (f : Field) (n : Nat) : (s.incF f n).lastCode = s.lastCode := rfl
@[simp] theorem State.incF_lastData (s : State) (f : Field) (n : Nat) : (s.incF f n).lastData = s.lastData := rfl
@[simp] theorem State.incF_memByte (s : State) (f : Field) (n : Nat) (k : Nat) : (s.incF f n).memByte k = s.memByte k := rfl
@[simp] theorem State.incF_bay (s : State) (f : Field) (n : Nat) (k : BayId) : (s.incF f n).bay k = s.bay k := rfl
@[simp] theorem State.incF_thr (s : State) (f : Field) (n : Nat) (k : BayId) (t' : Thread) : (s.incF f n).thr k t' = s.thr k t' := rfl

/-! ### `stick` -/

@[simp] theorem State.stick_pending (s : State) (f c : Field) : (s.stick f c).pending = s.pending := rfl
@[simp] theorem State.stick_bays (s : State) (f c : Field) : (s.stick f c).bays = s.bays := rfl
@[simp] theorem State.stick_mem (s : State) (f c : Field) : (s.stick f c).mem = s.mem := rfl
@[simp] theorem State.stick_ecc1 (s : State) (f c : Field) : (s.stick f c).ecc1 = s.ecc1 := rfl
@[simp] theorem State.stick_ecc2 (s : State) (f c : Field) : (s.stick f c).ecc2 = s.ecc2 := rfl
@[simp] theorem State.stick_hbmBad (s : State) (f c : Field) : (s.stick f c).hbmBad = s.hbmBad := rfl
@[simp] theorem State.stick_flits (s : State) (f c : Field) : (s.stick f c).flits = s.flits := rfl
@[simp] theorem State.stick_hbm (s : State) (f c : Field) : (s.stick f c).hbm = s.hbm := rfl
@[simp] theorem State.stick_fab (s : State) (f c : Field) : (s.stick f c).fab = s.fab := rfl
@[simp] theorem State.stick_opt (s : State) (f c : Field) : (s.stick f c).opt = s.opt := rfl
@[simp] theorem State.stick_scr (s : State) (f c : Field) : (s.stick f c).scr = s.scr := rfl
@[simp] theorem State.stick_host (s : State) (f c : Field) : (s.stick f c).host = s.host := rfl
@[simp] theorem State.stick_ldg (s : State) (f c : Field) : (s.stick f c).ldg = s.ldg := rfl
@[simp] theorem State.stick_tpc (s : State) (f c : Field) : (s.stick f c).tpc = s.tpc := rfl
@[simp] theorem State.stick_power (s : State) (f c : Field) : (s.stick f c).power = s.power := rfl
@[simp] theorem State.stick_store (s : State) (f c : Field) : (s.stick f c).store = s.store := rfl
@[simp] theorem State.stick_fwWrite (s : State) (f c : Field) : (s.stick f c).fwWrite = s.fwWrite := rfl
@[simp] theorem State.stick_mgmt (s : State) (f c : Field) : (s.stick f c).mgmt = s.mgmt := rfl
@[simp] theorem State.stick_meas (s : State) (f c : Field) : (s.stick f c).meas = s.meas := rfl
@[simp] theorem State.stick_fresh (s : State) (f c : Field) : (s.stick f c).fresh = s.fresh := rfl
@[simp] theorem State.stick_lastCode (s : State) (f c : Field) : (s.stick f c).lastCode = s.lastCode := rfl
@[simp] theorem State.stick_lastData (s : State) (f c : Field) : (s.stick f c).lastData = s.lastData := rfl
@[simp] theorem State.stick_memByte (s : State) (f c : Field) (k : Nat) : (s.stick f c).memByte k = s.memByte k := rfl
@[simp] theorem State.stick_bay (s : State) (f c : Field) (k : BayId) : (s.stick f c).bay k = s.bay k := rfl
@[simp] theorem State.stick_thr (s : State) (f c : Field) (k : BayId) (t' : Thread) : (s.stick f c).thr k t' = s.thr k t' := rfl

/-! ### `clearFlag` -/

@[simp] theorem State.clearFlag_pending (s : State) (f : Field) : (s.clearFlag f).pending = s.pending := rfl
@[simp] theorem State.clearFlag_bays (s : State) (f : Field) : (s.clearFlag f).bays = s.bays := rfl
@[simp] theorem State.clearFlag_mem (s : State) (f : Field) : (s.clearFlag f).mem = s.mem := rfl
@[simp] theorem State.clearFlag_ecc1 (s : State) (f : Field) : (s.clearFlag f).ecc1 = s.ecc1 := rfl
@[simp] theorem State.clearFlag_ecc2 (s : State) (f : Field) : (s.clearFlag f).ecc2 = s.ecc2 := rfl
@[simp] theorem State.clearFlag_hbmBad (s : State) (f : Field) : (s.clearFlag f).hbmBad = s.hbmBad := rfl
@[simp] theorem State.clearFlag_flits (s : State) (f : Field) : (s.clearFlag f).flits = s.flits := rfl
@[simp] theorem State.clearFlag_hbm (s : State) (f : Field) : (s.clearFlag f).hbm = s.hbm := rfl
@[simp] theorem State.clearFlag_fab (s : State) (f : Field) : (s.clearFlag f).fab = s.fab := rfl
@[simp] theorem State.clearFlag_opt (s : State) (f : Field) : (s.clearFlag f).opt = s.opt := rfl
@[simp] theorem State.clearFlag_scr (s : State) (f : Field) : (s.clearFlag f).scr = s.scr := rfl
@[simp] theorem State.clearFlag_host (s : State) (f : Field) : (s.clearFlag f).host = s.host := rfl
@[simp] theorem State.clearFlag_ldg (s : State) (f : Field) : (s.clearFlag f).ldg = s.ldg := rfl
@[simp] theorem State.clearFlag_tpc (s : State) (f : Field) : (s.clearFlag f).tpc = s.tpc := rfl
@[simp] theorem State.clearFlag_power (s : State) (f : Field) : (s.clearFlag f).power = s.power := rfl
@[simp] theorem State.clearFlag_store (s : State) (f : Field) : (s.clearFlag f).store = s.store := rfl
@[simp] theorem State.clearFlag_fwWrite (s : State) (f : Field) : (s.clearFlag f).fwWrite = s.fwWrite := rfl
@[simp] theorem State.clearFlag_mgmt (s : State) (f : Field) : (s.clearFlag f).mgmt = s.mgmt := rfl
@[simp] theorem State.clearFlag_meas (s : State) (f : Field) : (s.clearFlag f).meas = s.meas := rfl
@[simp] theorem State.clearFlag_fresh (s : State) (f : Field) : (s.clearFlag f).fresh = s.fresh := rfl
@[simp] theorem State.clearFlag_lastCode (s : State) (f : Field) : (s.clearFlag f).lastCode = s.lastCode := rfl
@[simp] theorem State.clearFlag_lastData (s : State) (f : Field) : (s.clearFlag f).lastData = s.lastData := rfl
@[simp] theorem State.clearFlag_memByte (s : State) (f : Field) (k : Nat) : (s.clearFlag f).memByte k = s.memByte k := rfl
@[simp] theorem State.clearFlag_bay (s : State) (f : Field) (k : BayId) : (s.clearFlag f).bay k = s.bay k := rfl
@[simp] theorem State.clearFlag_thr (s : State) (f : Field) (k : BayId) (t' : Thread) : (s.clearFlag f).thr k t' = s.thr k t' := rfl

/-! ### `setMem` -/

@[simp] theorem State.setMem_pending (s : State) (a : Nat) (v : Byte) : (s.setMem a v).pending = s.pending := rfl
@[simp] theorem State.setMem_regs (s : State) (a : Nat) (v : Byte) : (s.setMem a v).regs = s.regs := rfl
@[simp] theorem State.setMem_bays (s : State) (a : Nat) (v : Byte) : (s.setMem a v).bays = s.bays := rfl
@[simp] theorem State.setMem_ecc1 (s : State) (a : Nat) (v : Byte) : (s.setMem a v).ecc1 = s.ecc1 := rfl
@[simp] theorem State.setMem_ecc2 (s : State) (a : Nat) (v : Byte) : (s.setMem a v).ecc2 = s.ecc2 := rfl
@[simp] theorem State.setMem_hbmBad (s : State) (a : Nat) (v : Byte) : (s.setMem a v).hbmBad = s.hbmBad := rfl
@[simp] theorem State.setMem_flits (s : State) (a : Nat) (v : Byte) : (s.setMem a v).flits = s.flits := rfl
@[simp] theorem State.setMem_hbm (s : State) (a : Nat) (v : Byte) : (s.setMem a v).hbm = s.hbm := rfl
@[simp] theorem State.setMem_fab (s : State) (a : Nat) (v : Byte) : (s.setMem a v).fab = s.fab := rfl
@[simp] theorem State.setMem_opt (s : State) (a : Nat) (v : Byte) : (s.setMem a v).opt = s.opt := rfl
@[simp] theorem State.setMem_scr (s : State) (a : Nat) (v : Byte) : (s.setMem a v).scr = s.scr := rfl
@[simp] theorem State.setMem_host (s : State) (a : Nat) (v : Byte) : (s.setMem a v).host = s.host := rfl
@[simp] theorem State.setMem_ldg (s : State) (a : Nat) (v : Byte) : (s.setMem a v).ldg = s.ldg := rfl
@[simp] theorem State.setMem_tpc (s : State) (a : Nat) (v : Byte) : (s.setMem a v).tpc = s.tpc := rfl
@[simp] theorem State.setMem_power (s : State) (a : Nat) (v : Byte) : (s.setMem a v).power = s.power := rfl
@[simp] theorem State.setMem_store (s : State) (a : Nat) (v : Byte) : (s.setMem a v).store = s.store := rfl
@[simp] theorem State.setMem_fwWrite (s : State) (a : Nat) (v : Byte) : (s.setMem a v).fwWrite = s.fwWrite := rfl
@[simp] theorem State.setMem_mgmt (s : State) (a : Nat) (v : Byte) : (s.setMem a v).mgmt = s.mgmt := rfl
@[simp] theorem State.setMem_meas (s : State) (a : Nat) (v : Byte) : (s.setMem a v).meas = s.meas := rfl
@[simp] theorem State.setMem_fresh (s : State) (a : Nat) (v : Byte) : (s.setMem a v).fresh = s.fresh := rfl
@[simp] theorem State.setMem_lastCode (s : State) (a : Nat) (v : Byte) : (s.setMem a v).lastCode = s.lastCode := rfl
@[simp] theorem State.setMem_lastData (s : State) (a : Nat) (v : Byte) : (s.setMem a v).lastData = s.lastData := rfl
@[simp] theorem State.setMem_reg (s : State) (a : Nat) (v : Byte) (r : Nat) : (s.setMem a v).reg r = s.reg r := rfl
@[simp] theorem State.setMem_getF (s : State) (a : Nat) (v : Byte) (g : Field) : (s.setMem a v).getF g = s.getF g := rfl
@[simp] theorem State.setMem_bay (s : State) (a : Nat) (v : Byte) (k : BayId) : (s.setMem a v).bay k = s.bay k := rfl
@[simp] theorem State.setMem_thr (s : State) (a : Nat) (v : Byte) (k : BayId) (t' : Thread) : (s.setMem a v).thr k t' = s.thr k t' := rfl

/-! ### `setBay` -/

@[simp] theorem State.setBay_pending (s : State) (b : BayId) (y : Bay) : (s.setBay b y).pending = s.pending := rfl
@[simp] theorem State.setBay_regs (s : State) (b : BayId) (y : Bay) : (s.setBay b y).regs = s.regs := rfl
@[simp] theorem State.setBay_mem (s : State) (b : BayId) (y : Bay) : (s.setBay b y).mem = s.mem := rfl
@[simp] theorem State.setBay_ecc1 (s : State) (b : BayId) (y : Bay) : (s.setBay b y).ecc1 = s.ecc1 := rfl
@[simp] theorem State.setBay_ecc2 (s : State) (b : BayId) (y : Bay) : (s.setBay b y).ecc2 = s.ecc2 := rfl
@[simp] theorem State.setBay_hbmBad (s : State) (b : BayId) (y : Bay) : (s.setBay b y).hbmBad = s.hbmBad := rfl
@[simp] theorem State.setBay_flits (s : State) (b : BayId) (y : Bay) : (s.setBay b y).flits = s.flits := rfl
@[simp] theorem State.setBay_hbm (s : State) (b : BayId) (y : Bay) : (s.setBay b y).hbm = s.hbm := rfl
@[simp] theorem State.setBay_fab (s : State) (b : BayId) (y : Bay) : (s.setBay b y).fab = s.fab := rfl
@[simp] theorem State.setBay_opt (s : State) (b : BayId) (y : Bay) : (s.setBay b y).opt = s.opt := rfl
@[simp] theorem State.setBay_scr (s : State) (b : BayId) (y : Bay) : (s.setBay b y).scr = s.scr := rfl
@[simp] theorem State.setBay_host (s : State) (b : BayId) (y : Bay) : (s.setBay b y).host = s.host := rfl
@[simp] theorem State.setBay_ldg (s : State) (b : BayId) (y : Bay) : (s.setBay b y).ldg = s.ldg := rfl
@[simp] theorem State.setBay_tpc (s : State) (b : BayId) (y : Bay) : (s.setBay b y).tpc = s.tpc := rfl
@[simp] theorem State.setBay_power (s : State) (b : BayId) (y : Bay) : (s.setBay b y).power = s.power := rfl
@[simp] theorem State.setBay_store (s : State) (b : BayId) (y : Bay) : (s.setBay b y).store = s.store := rfl
@[simp] theorem State.setBay_fwWrite (s : State) (b : BayId) (y : Bay) : (s.setBay b y).fwWrite = s.fwWrite := rfl
@[simp] theorem State.setBay_mgmt (s : State) (b : BayId) (y : Bay) : (s.setBay b y).mgmt = s.mgmt := rfl
@[simp] theorem State.setBay_meas (s : State) (b : BayId) (y : Bay) : (s.setBay b y).meas = s.meas := rfl
@[simp] theorem State.setBay_fresh (s : State) (b : BayId) (y : Bay) : (s.setBay b y).fresh = s.fresh := rfl
@[simp] theorem State.setBay_lastCode (s : State) (b : BayId) (y : Bay) : (s.setBay b y).lastCode = s.lastCode := rfl
@[simp] theorem State.setBay_lastData (s : State) (b : BayId) (y : Bay) : (s.setBay b y).lastData = s.lastData := rfl
@[simp] theorem State.setBay_reg (s : State) (b : BayId) (y : Bay) (r : Nat) : (s.setBay b y).reg r = s.reg r := rfl
@[simp] theorem State.setBay_getF (s : State) (b : BayId) (y : Bay) (g : Field) : (s.setBay b y).getF g = s.getF g := rfl
@[simp] theorem State.setBay_memByte (s : State) (b : BayId) (y : Bay) (k : Nat) : (s.setBay b y).memByte k = s.memByte k := rfl

/-! ### `updBay` -/

@[simp] theorem State.updBay_pending (s : State) (b : BayId) (f : Bay → Bay) : (s.updBay b f).pending = s.pending := rfl
@[simp] theorem State.updBay_regs (s : State) (b : BayId) (f : Bay → Bay) : (s.updBay b f).regs = s.regs := rfl
@[simp] theorem State.updBay_mem (s : State) (b : BayId) (f : Bay → Bay) : (s.updBay b f).mem = s.mem := rfl
@[simp] theorem State.updBay_ecc1 (s : State) (b : BayId) (f : Bay → Bay) : (s.updBay b f).ecc1 = s.ecc1 := rfl
@[simp] theorem State.updBay_ecc2 (s : State) (b : BayId) (f : Bay → Bay) : (s.updBay b f).ecc2 = s.ecc2 := rfl
@[simp] theorem State.updBay_hbmBad (s : State) (b : BayId) (f : Bay → Bay) : (s.updBay b f).hbmBad = s.hbmBad := rfl
@[simp] theorem State.updBay_flits (s : State) (b : BayId) (f : Bay → Bay) : (s.updBay b f).flits = s.flits := rfl
@[simp] theorem State.updBay_hbm (s : State) (b : BayId) (f : Bay → Bay) : (s.updBay b f).hbm = s.hbm := rfl
@[simp] theorem State.updBay_fab (s : State) (b : BayId) (f : Bay → Bay) : (s.updBay b f).fab = s.fab := rfl
@[simp] theorem State.updBay_opt (s : State) (b : BayId) (f : Bay → Bay) : (s.updBay b f).opt = s.opt := rfl
@[simp] theorem State.updBay_scr (s : State) (b : BayId) (f : Bay → Bay) : (s.updBay b f).scr = s.scr := rfl
@[simp] theorem State.updBay_host (s : State) (b : BayId) (f : Bay → Bay) : (s.updBay b f).host = s.host := rfl
@[simp] theorem State.updBay_ldg (s : State) (b : BayId) (f : Bay → Bay) : (s.updBay b f).ldg = s.ldg := rfl
@[simp] theorem State.updBay_tpc (s : State) (b : BayId) (f : Bay → Bay) : (s.updBay b f).tpc = s.tpc := rfl
@[simp] theorem State.updBay_power (s : State) (b : BayId) (f : Bay → Bay) : (s.updBay b f).power = s.power := rfl
@[simp] theorem State.updBay_store (s : State) (b : BayId) (f : Bay → Bay) : (s.updBay b f).store = s.store := rfl
@[simp] theorem State.updBay_fwWrite (s : State) (b : BayId) (f : Bay → Bay) : (s.updBay b f).fwWrite = s.fwWrite := rfl
@[simp] theorem State.updBay_mgmt (s : State) (b : BayId) (f : Bay → Bay) : (s.updBay b f).mgmt = s.mgmt := rfl
@[simp] theorem State.updBay_meas (s : State) (b : BayId) (f : Bay → Bay) : (s.updBay b f).meas = s.meas := rfl
@[simp] theorem State.updBay_fresh (s : State) (b : BayId) (f : Bay → Bay) : (s.updBay b f).fresh = s.fresh := rfl
@[simp] theorem State.updBay_lastCode (s : State) (b : BayId) (f : Bay → Bay) : (s.updBay b f).lastCode = s.lastCode := rfl
@[simp] theorem State.updBay_lastData (s : State) (b : BayId) (f : Bay → Bay) : (s.updBay b f).lastData = s.lastData := rfl
@[simp] theorem State.updBay_reg (s : State) (b : BayId) (f : Bay → Bay) (r : Nat) : (s.updBay b f).reg r = s.reg r := rfl
@[simp] theorem State.updBay_getF (s : State) (b : BayId) (f : Bay → Bay) (g : Field) : (s.updBay b f).getF g = s.getF g := rfl
@[simp] theorem State.updBay_memByte (s : State) (b : BayId) (f : Bay → Bay) (k : Nat) : (s.updBay b f).memByte k = s.memByte k := rfl

/-! ### `updThr` -/

@[simp] theorem State.updThr_pending (s : State) (b : BayId) (t : Thread) (f : ThreadRec → ThreadRec) : (s.updThr b t f).pending = s.pending := rfl
@[simp] theorem State.updThr_regs (s : State) (b : BayId) (t : Thread) (f : ThreadRec → ThreadRec) : (s.updThr b t f).regs = s.regs := rfl
@[simp] theorem State.updThr_mem (s : State) (b : BayId) (t : Thread) (f : ThreadRec → ThreadRec) : (s.updThr b t f).mem = s.mem := rfl
@[simp] theorem State.updThr_ecc1 (s : State) (b : BayId) (t : Thread) (f : ThreadRec → ThreadRec) : (s.updThr b t f).ecc1 = s.ecc1 := rfl
@[simp] theorem State.updThr_ecc2 (s : State) (b : BayId) (t : Thread) (f : ThreadRec → ThreadRec) : (s.updThr b t f).ecc2 = s.ecc2 := rfl
@[simp] theorem State.updThr_hbmBad (s : State) (b : BayId) (t : Thread) (f : ThreadRec → ThreadRec) : (s.updThr b t f).hbmBad = s.hbmBad := rfl
@[simp] theorem State.updThr_flits (s : State) (b : BayId) (t : Thread) (f : ThreadRec → ThreadRec) : (s.updThr b t f).flits = s.flits := rfl
@[simp] theorem State.updThr_hbm (s : State) (b : BayId) (t : Thread) (f : ThreadRec → ThreadRec) : (s.updThr b t f).hbm = s.hbm := rfl
@[simp] theorem State.updThr_fab (s : State) (b : BayId) (t : Thread) (f : ThreadRec → ThreadRec) : (s.updThr b t f).fab = s.fab := rfl
@[simp] theorem State.updThr_opt (s : State) (b : BayId) (t : Thread) (f : ThreadRec → ThreadRec) : (s.updThr b t f).opt = s.opt := rfl
@[simp] theorem State.updThr_scr (s : State) (b : BayId) (t : Thread) (f : ThreadRec → ThreadRec) : (s.updThr b t f).scr = s.scr := rfl
@[simp] theorem State.updThr_host (s : State) (b : BayId) (t : Thread) (f : ThreadRec → ThreadRec) : (s.updThr b t f).host = s.host := rfl
@[simp] theorem State.updThr_ldg (s : State) (b : BayId) (t : Thread) (f : ThreadRec → ThreadRec) : (s.updThr b t f).ldg = s.ldg := rfl
@[simp] theorem State.updThr_tpc (s : State) (b : BayId) (t : Thread) (f : ThreadRec → ThreadRec) : (s.updThr b t f).tpc = s.tpc := rfl
@[simp] theorem State.updThr_power (s : State) (b : BayId) (t : Thread) (f : ThreadRec → ThreadRec) : (s.updThr b t f).power = s.power := rfl
@[simp] theorem State.updThr_store (s : State) (b : BayId) (t : Thread) (f : ThreadRec → ThreadRec) : (s.updThr b t f).store = s.store := rfl
@[simp] theorem State.updThr_fwWrite (s : State) (b : BayId) (t : Thread) (f : ThreadRec → ThreadRec) : (s.updThr b t f).fwWrite = s.fwWrite := rfl
@[simp] theorem State.updThr_mgmt (s : State) (b : BayId) (t : Thread) (f : ThreadRec → ThreadRec) : (s.updThr b t f).mgmt = s.mgmt := rfl
@[simp] theorem State.updThr_meas (s : State) (b : BayId) (t : Thread) (f : ThreadRec → ThreadRec) : (s.updThr b t f).meas = s.meas := rfl
@[simp] theorem State.updThr_fresh (s : State) (b : BayId) (t : Thread) (f : ThreadRec → ThreadRec) : (s.updThr b t f).fresh = s.fresh := rfl
@[simp] theorem State.updThr_lastCode (s : State) (b : BayId) (t : Thread) (f : ThreadRec → ThreadRec) : (s.updThr b t f).lastCode = s.lastCode := rfl
@[simp] theorem State.updThr_lastData (s : State) (b : BayId) (t : Thread) (f : ThreadRec → ThreadRec) : (s.updThr b t f).lastData = s.lastData := rfl
@[simp] theorem State.updThr_reg (s : State) (b : BayId) (t : Thread) (f : ThreadRec → ThreadRec) (r : Nat) : (s.updThr b t f).reg r = s.reg r := rfl
@[simp] theorem State.updThr_getF (s : State) (b : BayId) (t : Thread) (f : ThreadRec → ThreadRec) (g : Field) : (s.updThr b t f).getF g = s.getF g := rfl
@[simp] theorem State.updThr_memByte (s : State) (b : BayId) (t : Thread) (f : ThreadRec → ThreadRec) (k : Nat) : (s.updThr b t f).memByte k = s.memByte k := rfl

/-! ### `preciseFault` -/

@[simp] theorem State.preciseFault_pending (s : State) (b : BayId) (t : Thread) (c : Code) : (s.preciseFault b t c).pending = s.pending := rfl
@[simp] theorem State.preciseFault_regs (s : State) (b : BayId) (t : Thread) (c : Code) : (s.preciseFault b t c).regs = s.regs := rfl
@[simp] theorem State.preciseFault_mem (s : State) (b : BayId) (t : Thread) (c : Code) : (s.preciseFault b t c).mem = s.mem := rfl
@[simp] theorem State.preciseFault_ecc1 (s : State) (b : BayId) (t : Thread) (c : Code) : (s.preciseFault b t c).ecc1 = s.ecc1 := rfl
@[simp] theorem State.preciseFault_ecc2 (s : State) (b : BayId) (t : Thread) (c : Code) : (s.preciseFault b t c).ecc2 = s.ecc2 := rfl
@[simp] theorem State.preciseFault_hbmBad (s : State) (b : BayId) (t : Thread) (c : Code) : (s.preciseFault b t c).hbmBad = s.hbmBad := rfl
@[simp] theorem State.preciseFault_flits (s : State) (b : BayId) (t : Thread) (c : Code) : (s.preciseFault b t c).flits = s.flits := rfl
@[simp] theorem State.preciseFault_hbm (s : State) (b : BayId) (t : Thread) (c : Code) : (s.preciseFault b t c).hbm = s.hbm := rfl
@[simp] theorem State.preciseFault_fab (s : State) (b : BayId) (t : Thread) (c : Code) : (s.preciseFault b t c).fab = s.fab := rfl
@[simp] theorem State.preciseFault_opt (s : State) (b : BayId) (t : Thread) (c : Code) : (s.preciseFault b t c).opt = s.opt := rfl
@[simp] theorem State.preciseFault_scr (s : State) (b : BayId) (t : Thread) (c : Code) : (s.preciseFault b t c).scr = s.scr := rfl
@[simp] theorem State.preciseFault_host (s : State) (b : BayId) (t : Thread) (c : Code) : (s.preciseFault b t c).host = s.host := rfl
@[simp] theorem State.preciseFault_ldg (s : State) (b : BayId) (t : Thread) (c : Code) : (s.preciseFault b t c).ldg = s.ldg := rfl
@[simp] theorem State.preciseFault_tpc (s : State) (b : BayId) (t : Thread) (c : Code) : (s.preciseFault b t c).tpc = s.tpc := rfl
@[simp] theorem State.preciseFault_power (s : State) (b : BayId) (t : Thread) (c : Code) : (s.preciseFault b t c).power = s.power := rfl
@[simp] theorem State.preciseFault_store (s : State) (b : BayId) (t : Thread) (c : Code) : (s.preciseFault b t c).store = s.store := rfl
@[simp] theorem State.preciseFault_fwWrite (s : State) (b : BayId) (t : Thread) (c : Code) : (s.preciseFault b t c).fwWrite = s.fwWrite := rfl
@[simp] theorem State.preciseFault_mgmt (s : State) (b : BayId) (t : Thread) (c : Code) : (s.preciseFault b t c).mgmt = s.mgmt := rfl
@[simp] theorem State.preciseFault_meas (s : State) (b : BayId) (t : Thread) (c : Code) : (s.preciseFault b t c).meas = s.meas := rfl
@[simp] theorem State.preciseFault_fresh (s : State) (b : BayId) (t : Thread) (c : Code) : (s.preciseFault b t c).fresh = s.fresh := rfl
@[simp] theorem State.preciseFault_lastCode (s : State) (b : BayId) (t : Thread) (c : Code) : (s.preciseFault b t c).lastCode = s.lastCode := rfl
@[simp] theorem State.preciseFault_lastData (s : State) (b : BayId) (t : Thread) (c : Code) : (s.preciseFault b t c).lastData = s.lastData := rfl
@[simp] theorem State.preciseFault_reg (s : State) (b : BayId) (t : Thread) (c : Code) (r : Nat) : (s.preciseFault b t c).reg r = s.reg r := rfl
@[simp] theorem State.preciseFault_getF (s : State) (b : BayId) (t : Thread) (c : Code) (g : Field) : (s.preciseFault b t c).getF g = s.getF g := rfl
@[simp] theorem State.preciseFault_memByte (s : State) (b : BayId) (t : Thread) (c : Code) (k : Nat) : (s.preciseFault b t c).memByte k = s.memByte k := rfl

/-! ### Updates of several registers -/

/-- Writing fields in order changes registers only. -/
theorem State.setFs_regs_only (s : State) (l : List (Field × Nat)) : s.setFs l = { s with regs := (s.setFs l).regs } := by
  induction l generalizing s with
  | nil => rfl
  | cons p l ih => rw [show s.setFs (p :: l) = (s.setF p.1 p.2).setFs l from rfl, ih]; rfl

/-- A Bits event changes registers only. -/
theorem State.bitsEvent_regs_only (s : State) (c : Code) : s.bitsEvent c = { s with regs := (s.bitsEvent c).regs } := by
  unfold State.bitsEvent; dsimp only; split <;> rfl

/-- Events that break tick-repeat change registers only. -/
theorem State.tickEvent_regs_only (s : State) (n : Nat) : s.tickEvent n = { s with regs := (s.tickEvent n).regs } := by
  unfold State.tickEvent; split <;> rfl

@[simp] theorem State.setFs_pending (s : State) (l : List (Field × Nat)) : (s.setFs l).pending = s.pending := by rw [s.setFs_regs_only]
@[simp] theorem State.setFs_bays (s : State) (l : List (Field × Nat)) : (s.setFs l).bays = s.bays := by rw [s.setFs_regs_only]
@[simp] theorem State.setFs_mem (s : State) (l : List (Field × Nat)) : (s.setFs l).mem = s.mem := by rw [s.setFs_regs_only]
@[simp] theorem State.setFs_ecc1 (s : State) (l : List (Field × Nat)) : (s.setFs l).ecc1 = s.ecc1 := by rw [s.setFs_regs_only]
@[simp] theorem State.setFs_ecc2 (s : State) (l : List (Field × Nat)) : (s.setFs l).ecc2 = s.ecc2 := by rw [s.setFs_regs_only]
@[simp] theorem State.setFs_hbmBad (s : State) (l : List (Field × Nat)) : (s.setFs l).hbmBad = s.hbmBad := by rw [s.setFs_regs_only]
@[simp] theorem State.setFs_flits (s : State) (l : List (Field × Nat)) : (s.setFs l).flits = s.flits := by rw [s.setFs_regs_only]
@[simp] theorem State.setFs_hbm (s : State) (l : List (Field × Nat)) : (s.setFs l).hbm = s.hbm := by rw [s.setFs_regs_only]
@[simp] theorem State.setFs_fab (s : State) (l : List (Field × Nat)) : (s.setFs l).fab = s.fab := by rw [s.setFs_regs_only]
@[simp] theorem State.setFs_opt (s : State) (l : List (Field × Nat)) : (s.setFs l).opt = s.opt := by rw [s.setFs_regs_only]
@[simp] theorem State.setFs_scr (s : State) (l : List (Field × Nat)) : (s.setFs l).scr = s.scr := by rw [s.setFs_regs_only]
@[simp] theorem State.setFs_host (s : State) (l : List (Field × Nat)) : (s.setFs l).host = s.host := by rw [s.setFs_regs_only]
@[simp] theorem State.setFs_ldg (s : State) (l : List (Field × Nat)) : (s.setFs l).ldg = s.ldg := by rw [s.setFs_regs_only]
@[simp] theorem State.setFs_tpc (s : State) (l : List (Field × Nat)) : (s.setFs l).tpc = s.tpc := by rw [s.setFs_regs_only]
@[simp] theorem State.setFs_power (s : State) (l : List (Field × Nat)) : (s.setFs l).power = s.power := by rw [s.setFs_regs_only]
@[simp] theorem State.setFs_store (s : State) (l : List (Field × Nat)) : (s.setFs l).store = s.store := by rw [s.setFs_regs_only]
@[simp] theorem State.setFs_fwWrite (s : State) (l : List (Field × Nat)) : (s.setFs l).fwWrite = s.fwWrite := by rw [s.setFs_regs_only]
@[simp] theorem State.setFs_mgmt (s : State) (l : List (Field × Nat)) : (s.setFs l).mgmt = s.mgmt := by rw [s.setFs_regs_only]
@[simp] theorem State.setFs_meas (s : State) (l : List (Field × Nat)) : (s.setFs l).meas = s.meas := by rw [s.setFs_regs_only]
@[simp] theorem State.setFs_fresh (s : State) (l : List (Field × Nat)) : (s.setFs l).fresh = s.fresh := by rw [s.setFs_regs_only]
@[simp] theorem State.setFs_lastCode (s : State) (l : List (Field × Nat)) : (s.setFs l).lastCode = s.lastCode := by rw [s.setFs_regs_only]
@[simp] theorem State.setFs_lastData (s : State) (l : List (Field × Nat)) : (s.setFs l).lastData = s.lastData := by rw [s.setFs_regs_only]
@[simp] theorem State.setFs_memByte (s : State) (l : List (Field × Nat)) (k : Nat) : (s.setFs l).memByte k = s.memByte k := by rw [s.setFs_regs_only]; rfl
@[simp] theorem State.setFs_bay (s : State) (l : List (Field × Nat)) (k : BayId) : (s.setFs l).bay k = s.bay k := by rw [s.setFs_regs_only]; rfl
@[simp] theorem State.setFs_thr (s : State) (l : List (Field × Nat)) (k : BayId) (t' : Thread) : (s.setFs l).thr k t' = s.thr k t' := by rw [s.setFs_regs_only]; rfl

@[simp] theorem State.bitsEvent_pending (s : State) (c : Code) : (s.bitsEvent c).pending = s.pending := by rw [s.bitsEvent_regs_only]
@[simp] theorem State.bitsEvent_bays (s : State) (c : Code) : (s.bitsEvent c).bays = s.bays := by rw [s.bitsEvent_regs_only]
@[simp] theorem State.bitsEvent_mem (s : State) (c : Code) : (s.bitsEvent c).mem = s.mem := by rw [s.bitsEvent_regs_only]
@[simp] theorem State.bitsEvent_ecc1 (s : State) (c : Code) : (s.bitsEvent c).ecc1 = s.ecc1 := by rw [s.bitsEvent_regs_only]
@[simp] theorem State.bitsEvent_ecc2 (s : State) (c : Code) : (s.bitsEvent c).ecc2 = s.ecc2 := by rw [s.bitsEvent_regs_only]
@[simp] theorem State.bitsEvent_hbmBad (s : State) (c : Code) : (s.bitsEvent c).hbmBad = s.hbmBad := by rw [s.bitsEvent_regs_only]
@[simp] theorem State.bitsEvent_flits (s : State) (c : Code) : (s.bitsEvent c).flits = s.flits := by rw [s.bitsEvent_regs_only]
@[simp] theorem State.bitsEvent_hbm (s : State) (c : Code) : (s.bitsEvent c).hbm = s.hbm := by rw [s.bitsEvent_regs_only]
@[simp] theorem State.bitsEvent_fab (s : State) (c : Code) : (s.bitsEvent c).fab = s.fab := by rw [s.bitsEvent_regs_only]
@[simp] theorem State.bitsEvent_opt (s : State) (c : Code) : (s.bitsEvent c).opt = s.opt := by rw [s.bitsEvent_regs_only]
@[simp] theorem State.bitsEvent_scr (s : State) (c : Code) : (s.bitsEvent c).scr = s.scr := by rw [s.bitsEvent_regs_only]
@[simp] theorem State.bitsEvent_host (s : State) (c : Code) : (s.bitsEvent c).host = s.host := by rw [s.bitsEvent_regs_only]
@[simp] theorem State.bitsEvent_ldg (s : State) (c : Code) : (s.bitsEvent c).ldg = s.ldg := by rw [s.bitsEvent_regs_only]
@[simp] theorem State.bitsEvent_tpc (s : State) (c : Code) : (s.bitsEvent c).tpc = s.tpc := by rw [s.bitsEvent_regs_only]
@[simp] theorem State.bitsEvent_power (s : State) (c : Code) : (s.bitsEvent c).power = s.power := by rw [s.bitsEvent_regs_only]
@[simp] theorem State.bitsEvent_store (s : State) (c : Code) : (s.bitsEvent c).store = s.store := by rw [s.bitsEvent_regs_only]
@[simp] theorem State.bitsEvent_fwWrite (s : State) (c : Code) : (s.bitsEvent c).fwWrite = s.fwWrite := by rw [s.bitsEvent_regs_only]
@[simp] theorem State.bitsEvent_mgmt (s : State) (c : Code) : (s.bitsEvent c).mgmt = s.mgmt := by rw [s.bitsEvent_regs_only]
@[simp] theorem State.bitsEvent_meas (s : State) (c : Code) : (s.bitsEvent c).meas = s.meas := by rw [s.bitsEvent_regs_only]
@[simp] theorem State.bitsEvent_fresh (s : State) (c : Code) : (s.bitsEvent c).fresh = s.fresh := by rw [s.bitsEvent_regs_only]
@[simp] theorem State.bitsEvent_lastCode (s : State) (c : Code) : (s.bitsEvent c).lastCode = s.lastCode := by rw [s.bitsEvent_regs_only]
@[simp] theorem State.bitsEvent_lastData (s : State) (c : Code) : (s.bitsEvent c).lastData = s.lastData := by rw [s.bitsEvent_regs_only]
@[simp] theorem State.bitsEvent_memByte (s : State) (c : Code) (k : Nat) : (s.bitsEvent c).memByte k = s.memByte k := by rw [s.bitsEvent_regs_only]; rfl
@[simp] theorem State.bitsEvent_bay (s : State) (c : Code) (k : BayId) : (s.bitsEvent c).bay k = s.bay k := by rw [s.bitsEvent_regs_only]; rfl
@[simp] theorem State.bitsEvent_thr (s : State) (c : Code) (k : BayId) (t' : Thread) : (s.bitsEvent c).thr k t' = s.thr k t' := by rw [s.bitsEvent_regs_only]; rfl

@[simp] theorem State.tickEvent_pending (s : State) (n : Nat) : (s.tickEvent n).pending = s.pending := by rw [s.tickEvent_regs_only]
@[simp] theorem State.tickEvent_bays (s : State) (n : Nat) : (s.tickEvent n).bays = s.bays := by rw [s.tickEvent_regs_only]
@[simp] theorem State.tickEvent_mem (s : State) (n : Nat) : (s.tickEvent n).mem = s.mem := by rw [s.tickEvent_regs_only]
@[simp] theorem State.tickEvent_ecc1 (s : State) (n : Nat) : (s.tickEvent n).ecc1 = s.ecc1 := by rw [s.tickEvent_regs_only]
@[simp] theorem State.tickEvent_ecc2 (s : State) (n : Nat) : (s.tickEvent n).ecc2 = s.ecc2 := by rw [s.tickEvent_regs_only]
@[simp] theorem State.tickEvent_hbmBad (s : State) (n : Nat) : (s.tickEvent n).hbmBad = s.hbmBad := by rw [s.tickEvent_regs_only]
@[simp] theorem State.tickEvent_flits (s : State) (n : Nat) : (s.tickEvent n).flits = s.flits := by rw [s.tickEvent_regs_only]
@[simp] theorem State.tickEvent_hbm (s : State) (n : Nat) : (s.tickEvent n).hbm = s.hbm := by rw [s.tickEvent_regs_only]
@[simp] theorem State.tickEvent_fab (s : State) (n : Nat) : (s.tickEvent n).fab = s.fab := by rw [s.tickEvent_regs_only]
@[simp] theorem State.tickEvent_opt (s : State) (n : Nat) : (s.tickEvent n).opt = s.opt := by rw [s.tickEvent_regs_only]
@[simp] theorem State.tickEvent_scr (s : State) (n : Nat) : (s.tickEvent n).scr = s.scr := by rw [s.tickEvent_regs_only]
@[simp] theorem State.tickEvent_host (s : State) (n : Nat) : (s.tickEvent n).host = s.host := by rw [s.tickEvent_regs_only]
@[simp] theorem State.tickEvent_ldg (s : State) (n : Nat) : (s.tickEvent n).ldg = s.ldg := by rw [s.tickEvent_regs_only]
@[simp] theorem State.tickEvent_tpc (s : State) (n : Nat) : (s.tickEvent n).tpc = s.tpc := by rw [s.tickEvent_regs_only]
@[simp] theorem State.tickEvent_power (s : State) (n : Nat) : (s.tickEvent n).power = s.power := by rw [s.tickEvent_regs_only]
@[simp] theorem State.tickEvent_store (s : State) (n : Nat) : (s.tickEvent n).store = s.store := by rw [s.tickEvent_regs_only]
@[simp] theorem State.tickEvent_fwWrite (s : State) (n : Nat) : (s.tickEvent n).fwWrite = s.fwWrite := by rw [s.tickEvent_regs_only]
@[simp] theorem State.tickEvent_mgmt (s : State) (n : Nat) : (s.tickEvent n).mgmt = s.mgmt := by rw [s.tickEvent_regs_only]
@[simp] theorem State.tickEvent_meas (s : State) (n : Nat) : (s.tickEvent n).meas = s.meas := by rw [s.tickEvent_regs_only]
@[simp] theorem State.tickEvent_fresh (s : State) (n : Nat) : (s.tickEvent n).fresh = s.fresh := by rw [s.tickEvent_regs_only]
@[simp] theorem State.tickEvent_lastCode (s : State) (n : Nat) : (s.tickEvent n).lastCode = s.lastCode := by rw [s.tickEvent_regs_only]
@[simp] theorem State.tickEvent_lastData (s : State) (n : Nat) : (s.tickEvent n).lastData = s.lastData := by rw [s.tickEvent_regs_only]
@[simp] theorem State.tickEvent_memByte (s : State) (n : Nat) (k : Nat) : (s.tickEvent n).memByte k = s.memByte k := by rw [s.tickEvent_regs_only]; rfl
@[simp] theorem State.tickEvent_bay (s : State) (n : Nat) (k : BayId) : (s.tickEvent n).bay k = s.bay k := by rw [s.tickEvent_regs_only]; rfl
@[simp] theorem State.tickEvent_thr (s : State) (n : Nat) (k : BayId) (t' : Thread) : (s.tickEvent n).thr k t' = s.thr k t' := by rw [s.tickEvent_regs_only]; rfl

/-! ### `setMemBytes` -/

/-- Writing bytes changes device memory only. -/
theorem State.setMemBytes_mem_only (s : State) (a : Nat) (l : List Byte) :
    s.setMemBytes a l = { s with mem := (s.setMemBytes a l).mem } := by
  induction l generalizing s a with
  | nil => rfl
  | cons v l ih => rw [show s.setMemBytes a (v :: l) = (s.setMem a v).setMemBytes (a + 1) l from rfl, ih]; rfl

@[simp] theorem State.setMemBytes_pending (s : State) (a : Nat) (l : List Byte) : (s.setMemBytes a l).pending = s.pending := by rw [s.setMemBytes_mem_only]
@[simp] theorem State.setMemBytes_regs (s : State) (a : Nat) (l : List Byte) : (s.setMemBytes a l).regs = s.regs := by rw [s.setMemBytes_mem_only]
@[simp] theorem State.setMemBytes_bays (s : State) (a : Nat) (l : List Byte) : (s.setMemBytes a l).bays = s.bays := by rw [s.setMemBytes_mem_only]
@[simp] theorem State.setMemBytes_ecc1 (s : State) (a : Nat) (l : List Byte) : (s.setMemBytes a l).ecc1 = s.ecc1 := by rw [s.setMemBytes_mem_only]
@[simp] theorem State.setMemBytes_ecc2 (s : State) (a : Nat) (l : List Byte) : (s.setMemBytes a l).ecc2 = s.ecc2 := by rw [s.setMemBytes_mem_only]
@[simp] theorem State.setMemBytes_hbmBad (s : State) (a : Nat) (l : List Byte) : (s.setMemBytes a l).hbmBad = s.hbmBad := by rw [s.setMemBytes_mem_only]
@[simp] theorem State.setMemBytes_flits (s : State) (a : Nat) (l : List Byte) : (s.setMemBytes a l).flits = s.flits := by rw [s.setMemBytes_mem_only]
@[simp] theorem State.setMemBytes_hbm (s : State) (a : Nat) (l : List Byte) : (s.setMemBytes a l).hbm = s.hbm := by rw [s.setMemBytes_mem_only]
@[simp] theorem State.setMemBytes_fab (s : State) (a : Nat) (l : List Byte) : (s.setMemBytes a l).fab = s.fab := by rw [s.setMemBytes_mem_only]
@[simp] theorem State.setMemBytes_opt (s : State) (a : Nat) (l : List Byte) : (s.setMemBytes a l).opt = s.opt := by rw [s.setMemBytes_mem_only]
@[simp] theorem State.setMemBytes_scr (s : State) (a : Nat) (l : List Byte) : (s.setMemBytes a l).scr = s.scr := by rw [s.setMemBytes_mem_only]
@[simp] theorem State.setMemBytes_host (s : State) (a : Nat) (l : List Byte) : (s.setMemBytes a l).host = s.host := by rw [s.setMemBytes_mem_only]
@[simp] theorem State.setMemBytes_ldg (s : State) (a : Nat) (l : List Byte) : (s.setMemBytes a l).ldg = s.ldg := by rw [s.setMemBytes_mem_only]
@[simp] theorem State.setMemBytes_tpc (s : State) (a : Nat) (l : List Byte) : (s.setMemBytes a l).tpc = s.tpc := by rw [s.setMemBytes_mem_only]
@[simp] theorem State.setMemBytes_power (s : State) (a : Nat) (l : List Byte) : (s.setMemBytes a l).power = s.power := by rw [s.setMemBytes_mem_only]
@[simp] theorem State.setMemBytes_store (s : State) (a : Nat) (l : List Byte) : (s.setMemBytes a l).store = s.store := by rw [s.setMemBytes_mem_only]
@[simp] theorem State.setMemBytes_fwWrite (s : State) (a : Nat) (l : List Byte) : (s.setMemBytes a l).fwWrite = s.fwWrite := by rw [s.setMemBytes_mem_only]
@[simp] theorem State.setMemBytes_mgmt (s : State) (a : Nat) (l : List Byte) : (s.setMemBytes a l).mgmt = s.mgmt := by rw [s.setMemBytes_mem_only]
@[simp] theorem State.setMemBytes_meas (s : State) (a : Nat) (l : List Byte) : (s.setMemBytes a l).meas = s.meas := by rw [s.setMemBytes_mem_only]
@[simp] theorem State.setMemBytes_fresh (s : State) (a : Nat) (l : List Byte) : (s.setMemBytes a l).fresh = s.fresh := by rw [s.setMemBytes_mem_only]
@[simp] theorem State.setMemBytes_lastCode (s : State) (a : Nat) (l : List Byte) : (s.setMemBytes a l).lastCode = s.lastCode := by rw [s.setMemBytes_mem_only]
@[simp] theorem State.setMemBytes_lastData (s : State) (a : Nat) (l : List Byte) : (s.setMemBytes a l).lastData = s.lastData := by rw [s.setMemBytes_mem_only]
@[simp] theorem State.setMemBytes_reg (s : State) (a : Nat) (l : List Byte) (k : Nat) : (s.setMemBytes a l).reg k = s.reg k := by rw [s.setMemBytes_mem_only]; rfl
@[simp] theorem State.setMemBytes_getF (s : State) (a : Nat) (l : List Byte) (g : Field) : (s.setMemBytes a l).getF g = s.getF g := by rw [s.setMemBytes_mem_only]; rfl
@[simp] theorem State.setMemBytes_bay (s : State) (a : Nat) (l : List Byte) (k : BayId) : (s.setMemBytes a l).bay k = s.bay k := by rw [s.setMemBytes_mem_only]; rfl
@[simp] theorem State.setMemBytes_thr (s : State) (a : Nat) (l : List Byte) (k : BayId) (t' : Thread) : (s.setMemBytes a l).thr k t' = s.thr k t' := by rw [s.setMemBytes_mem_only]; rfl

/-! ### Registers read back -/

/-- A register reads what was written to it. -/
@[simp] theorem State.reg_setReg_self (s : State) (a : Nat) (v : Word) : (s.setReg a v).reg a = v := by
  simp [State.reg, State.setReg]

/-- Another register keeps its value. -/
theorem State.reg_setReg_ne (s : State) (a : Nat) (v : Word) (r : Nat) (h : r ≠ a) : (s.setReg a v).reg r = s.reg r := by
  simp [State.reg, State.setReg, smapGet_set_ne _ _ _ _ _ h]

/-- A register read after a register write. -/
theorem State.reg_setReg (s : State) (a : Nat) (v : Word) (r : Nat) :
    (s.setReg a v).reg r = if r = a then v else s.reg r := by
  split
  · subst r; simp
  · rw [State.reg_setReg_ne _ _ _ _ ‹_›]

/-- Another register keeps its value when a field is written. -/
theorem State.reg_setF_ne (s : State) (f : Field) (v r : Nat) (h : r ≠ f.reg) : (s.setF f v).reg r = s.reg r :=
  State.reg_setReg_ne _ _ _ _ h

/-- A field reads what was put into it, reduced to its width. -/
theorem fieldOf_putField (w : Word) (lo width v : Nat) (h : lo + width ≤ 64) :
    fieldOf (putField w lo width v) lo width = v % 2 ^ width := by
  unfold fieldOf putField
  have : (((w &&& ~~~ ((BitVec.allOnes width).setWidth 64 <<< lo)) ||| ((BitVec.ofNat width v).setWidth 64 <<< lo)).extractLsb' lo width)
      = BitVec.ofNat width v := by
    ext i hi
    have h1 : lo + i < 64 := by omega
    have h2 : ¬ (lo + i < lo) := by omega
    simp [BitVec.getElem_extractLsb', h1, hi]
  rw [this]; simp

/-- A field keeps its value when a disjoint field of the same word is put. -/
theorem fieldOf_putField_ne (w : Word) (lo width v lo' width' : Nat) (h : lo + width ≤ lo' ∨ lo' + width' ≤ lo) :
    fieldOf (putField w lo width v) lo' width' = fieldOf w lo' width' := by
  unfold fieldOf putField
  congr 1
  ext i hi
  simp only [BitVec.getElem_extractLsb', BitVec.getLsbD_or, BitVec.getLsbD_and, BitVec.getLsbD_not, BitVec.getLsbD_shiftLeft,
    BitVec.getLsbD_setWidth, BitVec.getLsbD_allOnes, BitVec.getLsbD_ofNat]
  rcases h with h | h
  · have h3 : ¬ (lo' + i < lo) := by omega
    have h4 : ¬ (lo' + i - lo < width) := by omega
    simp only [h3, h4, decide_false, Bool.and_false, Bool.false_and, Bool.or_false, Bool.not_false, Bool.and_true]
    by_cases h5 : lo' + i < 64
    · simp [h5]
    · simp [BitVec.getLsbD_of_ge _ _ (Nat.not_lt.mp h5), h5]
  · have h3 : lo' + i < lo := by omega
    simp only [h3, decide_true, Bool.not_true, Bool.and_false, Bool.false_and, Bool.or_false, Bool.not_false, Bool.and_true]
    by_cases h5 : lo' + i < 64
    · simp [h5]
    · simp [BitVec.getLsbD_of_ge _ _ (Nat.not_lt.mp h5), h5]

/-- A register field reads what was written to it, reduced to its width. -/
theorem State.getF_setF_self (s : State) (f : Field) (v : Nat) (h : f.lo + f.width ≤ 64) :
    (s.setF f v).getF f = v % 2 ^ f.width := by
  simp [State.getF, State.setF, fieldOf_putField _ _ _ _ h]

/-- A field of another register keeps its value. -/
theorem State.getF_setF_reg (s : State) (f g : Field) (v : Nat) (h : g.reg ≠ f.reg) : (s.setF f v).getF g = s.getF g := by
  simp [State.getF, State.reg_setF_ne _ _ _ _ h]

/-- A disjoint field of the same register keeps its value. -/
theorem State.getF_setF_disjoint (s : State) (f g : Field) (v : Nat) (h : g.reg = f.reg)
    (h' : f.lo + f.width ≤ g.lo ∨ g.lo + g.width ≤ f.lo) : (s.setF f v).getF g = s.getF g := by
  simp [State.getF, State.setF, h, fieldOf_putField_ne _ _ _ _ _ _ h']

/-- A field that lies apart, in another register or in disjoint bits of the same one, keeps its value. -/
theorem State.getF_setF_apart (s : State) (f g : Field) (v : Nat)
    (h : g.reg ≠ f.reg ∨ f.lo + f.width ≤ g.lo ∨ g.lo + g.width ≤ f.lo) : (s.setF f v).getF g = s.getF g := by
  by_cases hr : g.reg = f.reg
  · exact State.getF_setF_disjoint _ _ _ _ hr (h.resolve_left (fun x => x hr))
  · exact State.getF_setF_reg _ _ _ _ hr

/-! ### Memory read back -/

/-- A byte read after a byte write. -/
theorem State.memByte_setMem (s : State) (a : Nat) (v : Byte) (x : Nat) :
    (s.setMem a v).memByte x = if x = a then v else s.memByte x := by
  simp [State.memByte, State.setMem, smapGet_set]

/-- A byte read after a write of bytes: the byte written there, or the old one. -/
theorem State.memByte_setMemBytes (s : State) (a : Nat) (l : List Byte) (x : Nat) :
    (s.setMemBytes a l).memByte x = if h : a ≤ x ∧ x - a < l.length then l[x - a]'h.2 else s.memByte x := by
  induction l generalizing s a with
  | nil => simp [State.setMemBytes]
  | cons v l ih =>
    rw [show s.setMemBytes a (v :: l) = (s.setMem a v).setMemBytes (a + 1) l from rfl, ih, State.memByte_setMem]
    by_cases h1 : x = a
    · subst h1; simp [show ¬ (x + 1 ≤ x) by omega]
    · by_cases h2 : a + 1 ≤ x ∧ x - (a + 1) < l.length
      · have h3 : a ≤ x ∧ x - a < (v :: l).length := by simp; omega
        rw [dif_pos h2, dif_pos h3]
        have h4 : x - a = x - (a + 1) + 1 := by omega
        simp [h4]
      · have h3 : ¬ (a ≤ x ∧ x - a < (v :: l).length) := by simp; omega
        rw [dif_neg h2, dif_neg h3, if_neg h1]

/-- A write of bytes keeps the canonical form of the memory. -/
theorem State.memWf_setMem (s : State) (a : Nat) (v : Byte) (h : memWf s.mem = true) : memWf (s.setMem a v).mem = true :=
  smapWf_set _ _ _ _ h

/-- A write of bytes keeps the canonical form of the memory. -/
theorem State.memWf_setMemBytes (s : State) (a : Nat) (l : List Byte) (h : memWf s.mem = true) :
    memWf (s.setMemBytes a l).mem = true := by
  induction l generalizing s a with
  | nil => exact h
  | cons v l ih => exact ih _ _ (s.memWf_setMem a v h)

/-- Opening the contents of bytes keeps the canonical form of the memory. -/
theorem State.memWf_openBytes (s : State) (a n : Nat) (h : memWf s.mem = true) : memWf (s.openBytes a n).mem = true :=
  State.memWf_setMemBytes _ _ _ h

/-! ### Bays read back -/

/-- A bay read after a bay is replaced. -/
theorem State.bay_setBay (s : State) (b c : BayId) (y : Bay) : (s.setBay b y).bay c = if c = b then y else s.bay c := by
  simp only [State.bay, State.setBay, smapGet_set, BitVec.toNat_inj]

/-- The bay replaced. -/
@[simp] theorem State.bay_setBay_self (s : State) (b : BayId) (y : Bay) : (s.setBay b y).bay b = y := by
  simp [State.bay_setBay]

/-- The bay changed. -/
@[simp] theorem State.bay_updBay_self (s : State) (b : BayId) (f : Bay → Bay) : (s.updBay b f).bay b = f (s.bay b) := by
  simp [State.updBay]

/-- Another bay. -/
theorem State.bay_updBay_ne (s : State) (b c : BayId) (f : Bay → Bay) (h : c ≠ b) : (s.updBay b f).bay c = s.bay c := by
  simp [State.updBay, State.bay_setBay, h]

/-- A thread replaced. -/
@[simp] theorem Bay.thr_setThr_self (y : Bay) (t : Thread) (r : ThreadRec) : (y.setThr t r).thr t = r := by
  cases t <;> rfl

/-- The thread changed. -/
@[simp] theorem State.thr_updThr_self (s : State) (b : BayId) (t : Thread) (f : ThreadRec → ThreadRec) :
    (s.updThr b t f).thr b t = f (s.thr b t) := by
  simp [State.updThr, State.thr]

/-- The bay whose thread changed. -/
theorem State.bay_updThr_self (s : State) (b : BayId) (t : Thread) (f : ThreadRec → ThreadRec) :
    (s.updThr b t f).bay b = (s.bay b).setThr t (f (s.thr b t)) := by
  simp [State.updThr, State.thr]

/-- Another bay. -/
theorem State.bay_updThr_ne (s : State) (b c : BayId) (t : Thread) (f : ThreadRec → ThreadRec) (h : c ≠ b) :
    (s.updThr b t f).bay c = s.bay c := State.bay_updBay_ne _ _ _ _ h

/-! ### g registers -/

/-- g0 reads as zero (R41). -/
@[simp] theorem ThreadRec.getG_zero (r : ThreadRec) : r.getG 0 = 0 := rfl

/-- A write to g0 is discarded (R41). -/
@[simp] theorem ThreadRec.setG_zero (r : ThreadRec) (v : Word) : r.setG 0 v = r := rfl

/-- A g register read after a write. -/
theorem ThreadRec.getG_setG (r : ThreadRec) (i j : BitVec 5) (v : Word) :
    (r.setG i v).getG j = if j = i ∧ i ≠ 0 then v else r.getG j := by
  by_cases hi : i = 0
  · subst hi; rw [if_neg (fun x => x.2 rfl)]; rfl
  · have hs : r.setG i v = { r with g := r.g.set i.toNat v i.isLt } := if_neg hi
    rw [hs]
    by_cases hj : j = i
    · subst hj; unfold ThreadRec.getG; rw [if_neg hi, if_pos ⟨rfl, hi⟩]; simp only [Vector.getElem_set_self]
    · have h : i.toNat ≠ j.toNat := fun h => hj (BitVec.eq_of_toNat_eq h.symm)
      unfold ThreadRec.getG
      simp only [Vector.getElem_set_ne _ _ h]
      rw [if_neg (fun x => hj x.1 : ¬ (j = i ∧ i ≠ 0))]

end Sys2Proof.Machine
end

