-- ==== Sys2Proof/Laws/Ecc.lean ====
section
/-! SUPPORT. What one access to bay memory can do (R55, R562): its frame, its bytes, and the registers it counts in. -/

namespace Sys2Proof.Machine

/-- A thread as part of its bay. -/
theorem State.thr_eq (s : State) (b : BayId) (t : Thread) : s.thr b t = (s.bay b).thr t := rfl

/-- Counting in a field leaves every other register alone. -/
theorem State.reg_incF_ne (s : State) (f : Field) (n r : Nat) (h : r ≠ f.reg) : (s.incF f n).reg r = s.reg r :=
  State.reg_setF_ne _ _ _ _ h

/-- Events that break tick-repeat change the step register alone. -/
theorem State.reg_tickEvent_ne (s : State) (n r : Nat) (h : r ≠ RegId.LDG_STEP_STATUS.addr) : (s.tickEvent n).reg r = s.reg r := by
  unfold State.tickEvent; split
  · rfl
  · rw [State.reg_incF_ne, State.reg_setF_ne] <;> exact h

/-- A Bits event changes the step register alone. -/
theorem State.reg_bitsEvent_ne (s : State) (c : Code) (r : Nat) (h : r ≠ RegId.LDG_STEP_STATUS.addr) : (s.bitsEvent c).reg r = s.reg r := by
  unfold State.bitsEvent; dsimp only; split
  · rw [State.reg_setF_ne, State.reg_setF_ne] <;> exact h
  · rw [State.reg_setF_ne] ; exact h

/-- A read of bay memory changes registers and the list of single-bit errors only. -/
theorem State.eccRead_only (s : State) (b : BayId) (o n : Nat) :
    (s.eccRead b o n).1 = { s with regs := (s.eccRead b o n).1.regs, ecc1 := (s.eccRead b o n).1.ecc1 } := by
  unfold State.eccRead; split
  · rfl
  · dsimp only; split <;> (try rw [State.tickEvent_regs_only]) <;> rfl

@[simp] theorem State.eccRead_bay (s : State) (b c : BayId) (o n : Nat) : ((s.eccRead b o n).1).bay c = s.bay c := by
  rw [s.eccRead_only]; rfl
@[simp] theorem State.eccRead_bays (s : State) (b : BayId) (o n : Nat) : ((s.eccRead b o n).1).bays = s.bays := by
  rw [s.eccRead_only]
@[simp] theorem State.eccRead_thr (s : State) (b c : BayId) (o n : Nat) (t : Thread) : ((s.eccRead b o n).1).thr c t = s.thr c t := by
  rw [s.eccRead_only]; rfl
@[simp] theorem State.eccRead_mem (s : State) (b : BayId) (o n : Nat) : ((s.eccRead b o n).1).mem = s.mem := by
  rw [s.eccRead_only]
@[simp] theorem State.eccRead_memByte (s : State) (b : BayId) (o n x : Nat) : ((s.eccRead b o n).1).memByte x = s.memByte x := by
  rw [s.eccRead_only]; rfl
@[simp] theorem State.eccRead_fab (s : State) (b : BayId) (o n : Nat) : ((s.eccRead b o n).1).fab = s.fab := by
  rw [s.eccRead_only]
@[simp] theorem State.eccRead_host (s : State) (b : BayId) (o n : Nat) : ((s.eccRead b o n).1).host = s.host := by
  rw [s.eccRead_only]
@[simp] theorem State.eccRead_ldg (s : State) (b : BayId) (o n : Nat) : ((s.eccRead b o n).1).ldg = s.ldg := by
  rw [s.eccRead_only]
@[simp] theorem State.eccRead_ecc2 (s : State) (b : BayId) (o n : Nat) : ((s.eccRead b o n).1).ecc2 = s.ecc2 := by
  rw [s.eccRead_only]

/-- A read of bay memory counts in the bay's own counters and the open step. -/
theorem State.eccRead_reg (s : State) (b : BayId) (o n r : Nat) (h : r ∉ Safety.issueRegs b) :
    ((s.eccRead b o n).1).reg r = s.reg r := by
  simp only [Safety.issueRegs, List.mem_cons, List.not_mem_nil, or_false, not_or] at h
  unfold State.eccRead; split
  · rfl
  · dsimp only; split
    · rw [State.reg_incF_ne _ _ _ _ h.1, State.reg_tickEvent_ne _ _ _ h.2, State.reg_incF_ne _ _ _ _ h.1]; rfl
    · rw [State.reg_tickEvent_ne _ _ _ h.2, State.reg_incF_ne _ _ _ _ h.1]; rfl

/-- Bytes of memory do not depend on registers, bays or error lists. -/
theorem State.memBytes_congr (s t : State) (h : s.mem = t.mem) (a n : Nat) : s.memBytes a n = t.memBytes a n := by
  induction n generalizing a with
  | zero => rfl
  | succ n ih => simp only [State.memBytes, State.memByte, h, ih]

@[simp] theorem State.eccRead_bayBytes (s : State) (b c : BayId) (o n o' n' : Nat) :
    ((s.eccRead b o n).1).bayBytes c o' n' = s.bayBytes c o' n' := State.memBytes_congr _ _ (by simp) _ _

/-- Without errors a read of bay memory has no effect. -/
theorem State.eccRead_clean (s : State) (b : BayId) (o n : Nat) (h1 : s.ecc1 = []) (h2 : s.ecc2 = []) :
    s.eccRead b o n = (s, false) := if_pos (Or.inr ⟨h1, h2⟩)

/-- A write of bay memory that no error hinders stores its bytes, and changes nothing else. -/
theorem State.bayWrite_clean (s : State) (b : BayId) (o : Nat) (bs : List Byte) (h1 : s.ecc1 = []) (h2 : s.ecc2 = []) :
    s.bayWrite b o bs = (s.setMemBytes (bayAddr b o) bs, false) := by
  unfold State.bayWrite
  split
  · rename_i h; subst h; rfl
  · have h3 : (s.setMemBytes (bayAddr b o) bs).ecc1 = [] := by simp [h1]
    have h4 : (s.setMemBytes (bayAddr b o) bs).ecc2 = [] := by simp [h2]
    simp only [h1, h2, List.any_nil, Bool.false_eq_true, if_false, List.filter_nil, if_true, h3, h4]
    rw [← h3]; congr 1
    rw [State.setMemBytes_mem_only]; simp [h1, h2]

/-! ### The fetch of an instruction -/

/-- A register of another kind than those that issue counts in. -/
theorem not_mem_issueRegs (b : BayId) (r : RegId) {i j : Nat} (hi : i < r.spec.n1) (hj : j < r.spec.n2)
    (h : r ≠ .BAY_MEM_ECC) (h' : r ≠ .LDG_STEP_STATUS) : r.addr i j ∉ Safety.issueRegs b := by
  simp only [Safety.issueRegs, List.mem_cons, List.not_mem_nil, or_false, not_or]
  exact ⟨RegId.addr_ne r .BAY_MEM_ECC hi hj b.isLt (by decide) h, RegId.addr_ne r .LDG_STEP_STATUS hi hj (by decide) (by decide) h'⟩

/-- A field of a register that a read of bay memory does not count in. -/
theorem State.eccRead_getF (s : State) (b : BayId) (o n : Nat) (f : Field) (h : f.reg ∉ Safety.issueRegs b) :
    ((s.eccRead b o n).1).getF f = s.getF f := by
  simp [State.getF, State.eccRead_reg _ _ _ _ _ h]

@[simp] theorem State.eccRead_power (s : State) (b : BayId) (o n : Nat) : ((s.eccRead b o n).1).power = s.power := by
  rw [s.eccRead_only]

/-- A read of bay memory leaves the device's coordinate. -/
@[simp] theorem State.eccRead_devCoord (s : State) (b : BayId) (o n : Nat) : ((s.eccRead b o n).1).devCoord = s.devCoord := by
  unfold State.devCoord
  rw [State.eccRead_getF, State.eccRead_getF, State.eccRead_getF, State.eccRead_power]
  · exact not_mem_issueRegs b .MSC_STRAP (by decide) (by decide) (by decide) (by decide)
  · exact not_mem_issueRegs b .MSC_STRAP (by decide) (by decide) (by decide) (by decide)
  · exact not_mem_issueRegs b .MSC_STATE (by decide) (by decide) (by decide) (by decide)

/-- A read of bay memory leaves the device's state. -/
@[simp] theorem State.eccRead_devState (s : State) (b : BayId) (o n : Nat) : ((s.eccRead b o n).1).devState = s.devState :=
  State.eccRead_getF _ _ _ _ _ (not_mem_issueRegs b .MSC_STATE (by decide) (by decide) (by decide) (by decide))

/-- What a fetch changes: the errors and registers that a read of bay memory changes, and the thread's line buffer (R49, R55). -/
theorem fetched_cases (s : State) (b : BayId) (t : Thread) :
    Safety.fetched s b t = s ∨ ∃ bad, Safety.fetched s b t
      = (s.eccRead b ((s.thr b t).pc.toNat / 64 * 64) 64).1.updThr b t fun r => { r with line := some ((s.thr b t).pc.toNat / 64, bad) } := by
  unfold Safety.fetched State.fetchLine
  dsimp only
  split
  · exact .inl rfl
  · exact .inr ⟨_, rfl⟩

@[simp] theorem fetched_mem (s : State) (b : BayId) (t : Thread) : (Safety.fetched s b t).mem = s.mem := by
  obtain h | ⟨bad, h⟩ := fetched_cases s b t <;> rw [h]; simp
@[simp] theorem fetched_fab (s : State) (b : BayId) (t : Thread) : (Safety.fetched s b t).fab = s.fab := by
  obtain h | ⟨bad, h⟩ := fetched_cases s b t <;> rw [h]; simp
@[simp] theorem fetched_devState (s : State) (b : BayId) (t : Thread) : (Safety.fetched s b t).devState = s.devState := by
  obtain h | ⟨bad, h⟩ := fetched_cases s b t <;> rw [h]
  exact State.eccRead_devState ..
@[simp] theorem fetched_devCoord (s : State) (b : BayId) (t : Thread) : (Safety.fetched s b t).devCoord = s.devCoord := by
  obtain h | ⟨bad, h⟩ := fetched_cases s b t <;> rw [h]
  exact State.eccRead_devCoord ..
theorem fetched_reg (s : State) (b : BayId) (t : Thread) : Safety.keepsRegs s (Safety.fetched s b t) (Safety.issueRegs b) := by
  intro a ha
  obtain h | ⟨bad, h⟩ := fetched_cases s b t <;> rw [h]
  exact State.eccRead_reg _ _ _ _ _ ha

/-! ### Requests that ended -/

/-- With nothing ended, nothing is handed over. -/
theorem State.settled_of_handedOver (s : State) (h : Safety.handedOver s) : s.settled = s := by
  obtain ⟨h', h'', -⟩ := h
  unfold State.settled State.settleEnded State.loseNeighbours
  simp [h', h'']

/-- With nothing ended, no message slot hears of an end. -/
theorem State.settleMsgs_of_handedOver (s : State) (h : Safety.handedOver s) : s.settleMsgs = s := by
  have h' : s.fab.ended = [] := h.1
  unfold State.settleMsgs
  simp only [h', List.filter_nil, List.foldl_nil]
  rw [← h']

/-- With nothing ended, the Ledger hears of no end. -/
theorem State.settleLedger_of_handedOver (s : State) (h : Safety.handedOver s) : s.settleLedger = s := by
  have h' : s.fab.ended = [] := h.1
  unfold State.settleLedger
  simp only [h', List.filterMap_nil, List.filter_nil, List.foldl_nil]
  rw [← h']

/-- With nothing ended, no requester hears of an end. -/
theorem State.settledAll_of_handedOver (s : State) (h : Safety.handedOver s) : s.settledAll = s := by
  have h' : s.fab.ended = [] := h.1
  have hd : s.settleDma = s := by
    unfold State.settleDma
    simp only [h', List.filter_nil, List.foldl_nil, List.filterMap_nil, List.eraseDups_nil]
    rw [← h']
  unfold State.settledAll
  rw [State.settled_of_handedOver s h, hd, State.settleLedger_of_handedOver s h]
  unfold State.beyondFolds
  rw [if_neg fun x => x.2 (h.2.2 x.1)]

end Sys2Proof.Machine
end

