-- ==== Sys2Proof/Laws/Hbm.lean ====
section
/-! SUPPORT. What a read of a range of HBM answers where no unit of it has an error and no cache serves it: the bytes of memory, and the
state unchanged. -/

namespace Sys2Proof.Machine

variable {s t : State}

/-! ### Ranges of memory -/

theorem memBytes_of_mem (h : t.mem = s.mem) (a n : Nat) : t.memBytes a n = s.memBytes a n := by
  induction n generalizing a with
  | zero => rfl
  | succ n ih => rw [State.memBytes, State.memBytes, ih, State.memByte, State.memByte, h]

@[simp] theorem memBytes_length (a n : Nat) : (s.memBytes a n).length = n := by
  induction n generalizing a with
  | zero => rfl
  | succ n ih => rw [State.memBytes, List.length_cons, ih]

theorem memBytes_append (a m n : Nat) : s.memBytes a (m + n) = s.memBytes a m ++ s.memBytes (a + m) n := by
  induction m generalizing a with
  | zero => simp [State.memBytes]
  | succ m ih => rw [show m + 1 + n = m + n + 1 by omega, State.memBytes, State.memBytes, ih, List.cons_append, show a + 1 + m = a + (m + 1) by omega]

/-- A part of a range. -/
theorem memBytes_part (a i n k : Nat) (h : i + n ≤ k) : ((s.memBytes a k).drop i).take n = s.memBytes (a + i) n := by
  obtain ⟨r, rfl⟩ : ∃ r, k = i + (n + r) := ⟨k - i - n, by omega⟩
  rw [memBytes_append, memBytes_append, List.drop_left' (memBytes_length _ _), List.take_left' (memBytes_length _ _)]

/-- Memory that lists nothing reads as zeros. -/
theorem memBytes_nil (h : s.mem = []) (a n : Nat) : s.memBytes a n = List.replicate n 0 := by
  induction n generalizing a with
  | zero => rfl
  | succ n ih => rw [State.memBytes, ih, State.memByte, h, List.replicate_succ]; rfl

theorem setMemBytes_memByte_lt (a x : Nat) (bs : List Byte) (h : x < a) : (s.setMemBytes a bs).memByte x = s.memByte x := by
  induction bs generalizing s a with
  | nil => rfl
  | cons v bs ih =>
    rw [State.setMemBytes, ih _ (by omega), State.memByte, State.setMem, smapGet_set_ne _ _ _ _ _ (by omega)]; rfl

/-- What was written reads back. -/
theorem memBytes_setMemBytes (a : Nat) (bs : List Byte) : (s.setMemBytes a bs).memBytes a bs.length = bs := by
  induction bs generalizing s a with
  | nil => rfl
  | cons v bs ih =>
    rw [List.length_cons, State.memBytes, State.setMemBytes, setMemBytes_memByte_lt _ _ _ (by omega), ih, State.memByte, State.setMem,
      smapGet_set_self]

/-! ### A read of HBM -/

theorem mapped_of_regs (h : t.regs = s.regs) (a n : Nat) : t.mapped a n = s.mapped a n := by
  unfold State.mapped State.bandLive; simp only [getF_of_regs h]

/-- No unit of HBM has an error or open contents, and every pseudo-channel is trained. -/
def State.hbmSound (s : State) : Prop := s.hbm.open_ = [] ∧ s.hbmBad = [] ∧ s.hbm.train = []

theorem unitRead_sound (h : s.hbmSound) (src u : Nat) : s.unitRead src u [] = (s, some (s.memBytes (u * 32) 32)) := by
  have e : s.trainOf (s.placeOf (u * 32)).1 ≠ .dead := by simp [State.trainOf, h.2.2]
  simp [State.unitRead, h.2.1, e]

/-- A fold of reads that leave the state and each bring some bytes. -/
theorem foldl_reads {α : Type} {g : State × Option (List Byte) → α → State × Option (List Byte)} (b : α → List Byte) (xs : List α)
    (h : ∀ l, ∀ x ∈ xs, g (s, some l) x = (s, some (l ++ b x))) (l : List Byte) :
    xs.foldl g (s, some l) = (s, some (l ++ xs.flatMap b)) := by
  induction xs generalizing l with
  | nil => simp
  | cons x xs ih =>
    rw [List.foldl_cons, h l x (by simp), ih (fun l y hy => h l y (by simp [hy])), List.flatMap_cons, List.append_assoc]

theorem units_bytes (u k : Nat) :
    ((List.range k).map (· + u)).flatMap (fun v => s.memBytes (v * 32) 32) = s.memBytes (u * 32) (32 * k) := by
  induction k with
  | zero => simp [State.memBytes]
  | succ k ih =>
    rw [List.range_succ, List.map_append, List.flatMap_append, ih, show 32 * (k + 1) = 32 * k + 32 by omega, memBytes_append]
    simp [show u * 32 + 32 * k = (k + u) * 32 by omega]

theorem hbmRead_sound (h : s.hbmSound) (src a n : Nat) (hn : 0 < n) : s.hbmRead src a n [] = (s, some (s.memBytes a n)) := by
  unfold State.hbmRead unitsOf
  dsimp only
  rw [foldl_reads (fun v => s.memBytes (v * 32) 32) _ (by intro l u _; simp [unitRead_sound h]), units_bytes]
  simp only [List.nil_append, Option.map_some]
  rw [memBytes_part _ _ _ _ (by omega), show a / 32 * 32 + a % 32 = a by omega]

theorem granRead_sound (h : s.hbmSound) (src a n : Nat) (hn : 0 < n) (hc : s.cachedAt a = false) :
    s.granRead src a n [] = (s, some (s.memBytes a n)) := by
  simp [State.granRead, State.settleRange, h.1, hc, hbmRead_sound h _ _ _ hn]

/-- Length of the piece in the granule of the first address. -/
theorem granPieces_cons (k a n : Nat) :
    ∃ m, 0 < m ∧ m ≤ n + 1 ∧ (m = 256 - a % 256 ∨ m = n + 1 ∧ m ≤ 256 - a % 256)
      ∧ granPieces (k + 1) a (n + 1) = (a, m) :: granPieces k (a + m) (n + 1 - m) := by
  refine ⟨min (n + 1) (256 - a % 256), ?_, ?_, ?_, rfl⟩ <;> omega

/-- The pieces of a range are its bytes. -/
theorem granPieces_bytes (k a n : Nat) (hk : n = 0 ∨ n + a % 256 ≤ 256 * k) :
    (granPieces k a n).flatMap (fun p => s.memBytes p.1 p.2) = s.memBytes a n := by
  induction k generalizing a n with
  | zero => obtain rfl : n = 0 := by omega
            rfl
  | succ k ih =>
    cases n with
    | zero => rfl
    | succ n =>
      obtain ⟨m, h0, h1, h2, e⟩ := granPieces_cons k a n
      rw [e, List.flatMap_cons, ih _ _ (by omega), ← memBytes_append, show m + (n + 1 - m) = n + 1 by omega]

theorem granPieces_mem (k a n : Nat) : ∀ p ∈ granPieces k a n, a ≤ p.1 ∧ p.1 < a + n ∧ 0 < p.2 := by
  induction k generalizing a n with
  | zero => simp [granPieces]
  | succ k ih =>
    cases n with
    | zero => simp [granPieces]
    | succ n =>
      obtain ⟨m, h0, h1, _, e⟩ := granPieces_cons k a n
      intro p hp
      rw [e] at hp
      rcases List.mem_cons.mp hp with rfl | hp
      · exact ⟨Nat.le_refl _, by simp, h0⟩
      · have := ih _ _ p hp; omega

/-- A read of HBM on the device's own account that the access tables allow. -/
theorem ownRead_hbm (h : s.hbmSound) (src a n : Nat) (hr : regionOf a = .hbm) (hm : s.mapped a n = true)
    (ha : s.checkAccess .msc s.devCoord permR a n = (s, true)) (hc : ∀ x, a ≤ x → x < a + n → s.cachedAt x = false) :
    s.ownRead src a n = (s, cDONE, s.memBytes a n) := by
  simp only [State.ownRead, hm, ha, Bool.not_true, Bool.false_eq_true, if_false, if_true, State.devRead, hr]
  rw [foldl_reads (fun p => s.memBytes p.1 p.2) _ (by
    intro l p hp
    have b := granPieces_mem _ _ _ p hp
    simp [granRead_sound h _ _ _ b.2.2 (hc p.1 b.1 b.2.1)]), granPieces_bytes _ _ _ (by omega)]
  rfl

end Sys2Proof.Machine
end

