-- ==== Sys2Proof/Laws/RegWrite.lean ====
section
/-! SUPPORT. A 64-bit register write that reaches its register: the path, the tables and the map let it through, and only the
register's own rules decide (R11, R488, R489, R563). -/

namespace Sys2Proof.Machine

/-- An access that the tables allow changes nothing. -/
theorem checkPages_true (s : State) (m : Master) (d : DevCoord) (p : Perms) (n q : Nat) :
    (checkPages s m d p n q).2 = true → (checkPages s m d p n q).1 = s := by
  induction n generalizing q with
  | zero => intro _; rfl
  | succ n ih =>
    unfold checkPages
    split
    · exact ih _
    · dsimp only; split
      · exact ih _
      · intro h; simp at h

/-- An access that the tables allow changes nothing (R488). -/
theorem State.checkAccess_true {s : State} {m : Master} {d : DevCoord} {p : Perms} {a n : Nat}
    (h : (s.checkAccess m d p a n).2 = true) : s.checkAccess m d p a n = (s, true) := by
  refine Prod.ext ?_ h
  unfold State.checkAccess at h ⊢
  split
  · rfl
  · rename_i hn; rw [if_neg hn] at h; exact checkPages_true _ _ _ _ _ _ h

/-- The place of a kind lies in register space and its addresses are multiples of 8. -/
def RegSpec.inside (p : RegSpec) : Bool :=
  Nat.ble regBase p.base && Nat.ble (p.base + p.span) regEnd && Nat.beq (p.base % 8) 0 && Nat.beq (p.s1 % 8) 0 && Nat.beq (p.s2 % 8) 0

theorem regKinds_inside : regKinds.all (fun r => r.spec.inside) = true := by decide

/-- A register's address lies in register space, aligned for a 64-bit access (R7, R11). -/
theorem RegId.addr_inside (r : RegId) {i j : Nat} (hi : i < r.spec.n1) (hj : j < r.spec.n2) :
    regBase ≤ r.addr i j ∧ r.addr i j < regEnd ∧ r.addr i j % 8 = 0 := by
  have h := List.all_eq_true.mp regKinds_inside r (mem_regKinds r)
  simp only [RegSpec.inside, Bool.and_eq_true, Nat.ble_eq, Nat.beq_eq, RegSpec.span] at h
  obtain ⟨⟨⟨⟨h1, h2⟩, h3⟩, h4⟩, h5⟩ := h
  have m1 := Nat.mul_le_mul_right r.spec.s1 (show i ≤ r.spec.n1 - 1 by omega)
  have m2 := Nat.mul_le_mul_right r.spec.s2 (show j ≤ r.spec.n2 - 1 by omega)
  have e1 : i * r.spec.s1 % 8 = 0 := by rw [Nat.mul_mod, h4]; simp
  have e2 : j * r.spec.s2 % 8 = 0 := by rw [Nat.mul_mod, h5]; simp
  unfold RegId.addr
  omega

/-- A write that reaches its register: the register's own rules decide its effect and its code; a refusal through BAR0 is recorded as
the host's (R467). -/
theorem State.write64_of_reaches {s : State} {p : RegPath} {r : RegId} {i j : Nat} {v : Word} (h : Safety.reaches s p r i j v)
    (hi : i < r.spec.n1) (hj : j < r.spec.n2) :
    s.write64 p r i j v =
      if p = .bar0 ∧ (writeBy r i j v s).2 ≠ cDONE then
        ({ (writeBy r i j v s).1 with lastCode := (writeBy r i j v s).2 } : State).hostRefused (r.addr i j) (writeBy r i j v s).2
      else { (writeBy r i j v s).1 with lastCode := (writeBy r i j v s).2 } := by
  obtain ⟨h0, h1, h2, h3⟩ := h
  obtain ⟨b1, b2, b3⟩ := r.addr_inside hi hj
  have hc := State.checkAccess_true h2
  have hw : s.writeReg p (r.addr i j) 8 v = writeBy r i j v s := by
    unfold State.writeReg
    rw [if_neg (by simp [regAligned, b3]), if_neg (by omega)]
    simp only [regLocate_addr r hi hj h0, widen, if_true]
    rw [if_neg (by simp), if_neg (by simp [h1]), hc]
    simp
  unfold State.write64 State.regWriteBy
  rw [if_neg, hw]
  rintro ⟨hp, hb⟩
  have := h3 hp
  rcases hb with hb | ⟨hb1, hb2, hb3, hb4⟩
  · rw [this.1] at hb; cases hb
  · rcases this.2 with h | h | h | h
    · exact h hb1
    · omega
    · omega
    · rw [h] at hb4; cases hb4

/-- A write that reaches its register and that the register completes. -/
theorem State.write64_done {s : State} {p : RegPath} {r : RegId} {i j : Nat} {v : Word} (h : Safety.reaches s p r i j v)
    (hi : i < r.spec.n1) (hj : j < r.spec.n2) (hd : (writeBy r i j v s).2 = cDONE) :
    s.write64 p r i j v = { (writeBy r i j v s).1 with lastCode := cDONE } := by
  rw [State.write64_of_reaches h hi hj, if_neg (fun x => x.2 hd), hd]

end Sys2Proof.Machine
end

