-- ==== Sys2Proof/Laws/Sha3.lean ====
section
/-! SUPPORT. The length of a digest. -/

namespace Sys2Proof.Machine

theorem keccakRound_length (a : List Nat) (rc : Nat) : (keccakRound a rc).length = 25 := by simp [keccakRound, lanes]

/-- The permutation keeps 25 lanes. -/
theorem keccak_length (a : List Nat) (h : a.length = 25) : (keccak a).length = 25 := by
  have go : ∀ (l : List Nat) (a : List Nat), a.length = 25 → (l.foldl keccakRound a).length = 25 := by
    intro l
    induction l with
    | nil => exact fun a h => h
    | cons c l ih => exact fun a _ => ih _ (keccakRound_length a c)
  exact go _ a h

theorem absorb_length (n : Nat) (a : List Nat) (bs : List Byte) (h : a.length = 25) : (absorb n a bs).length = 25 := by
  induction n generalizing a bs with
  | zero => exact h
  | succ n ih => exact ih _ _ (keccak_length _ (by simp))

/-- A digest has 64 bytes. -/
@[simp] theorem sha3_length (bs : List Byte) : (sha3 bs).length = 64 := by
  have h := absorb_length (bs.length / 72 + 1) (List.replicate 25 0) (shaPad bs) (by simp)
  have e : ∀ l : List Nat, (l.flatMap (leBytes 8)).length = 8 * l.length := by
    intro l
    induction l with
    | nil => rfl
    | cons x l ih => rw [List.flatMap_cons, List.length_append, ih, List.length_cons]; simp only [leBytes, List.length_cons, List.length_nil]; omega
  rw [sha3, e, List.length_take, h]; rfl

end Sys2Proof.Machine
end

