-- ==== Sys2Proof/WellFormed.lean ====
section
/-! DEFINITION. What operands a command of the outside world can carry: limits that the operand types do not state. A command that
breaks one still has its meaning; no sender of R8, R286 or R497 forms it. -/

namespace Sys2Proof

/-- A register or aperture access carries at most the eight bytes of its value (R11). -/
def WellFormed.size (n : Nat) : Bool := decide (1 ≤ n) && decide (n ≤ 8)

/-- A packet carries at most 2 KiB in units of 8 B, and a chunk header of 32 B or none (R286, R287). -/
def WellFormed.packet (p : Packet) : Bool :=
  decide (p.payload.length ≤ 2048) && decide (p.payload.length % 8 = 0) && (p.chunkHdr.isEmpty || p.chunkHdr.length == 32)

/-- An HBM request moves 1 to 256 bytes (R246). -/
def WellFormed.hbmOp : HbmOp → Bool
  | .read n => decide (1 ≤ n) && decide (n ≤ 256)
  | .write l => decide (1 ≤ l.length) && decide (l.length ≤ 256)
  | .amo _ _ _ => true

/-- Errors of a codeword name each symbol once (R249). -/
def WellFormed.errs (l : SymErrs) : Bool := decide (l.map Prod.fst).Nodup

/-- The straps are sampled eight times (R537). -/
def WellFormed.straps (l : List Straps) : Bool := l.length == 8

/-- A temperature fits 16 bits (R520). -/
def WellFormed.temp (t : Int) : Bool := decide (-32768 ≤ t) && decide (t ≤ 32767)

/-- A re-plan measures the four dies (R518). -/
def WellFormed.age (m : AgeMeasure) : Bool := m.slackByStep.length == 4

/-- A TIME packet carries four words (R360). -/
def WellFormed.time (l : List Word) : Bool := l.length == 4

/-- The operands of a command respect these limits. -/
def Instr.wellFormed : Instr → Bool
  | .registerWrite _ _ n _ => WellFormed.size n
  | .scrSetWrite _ n _ => WellFormed.size n
  | .debugApertureAccess _ _ n _ => WellFormed.size n
  | .frameLanding _ f _ _ => f.packet.all WellFormed.packet
  | .sequencedPacketArrival p => WellFormed.packet p
  | .ackArrival p => WellFormed.packet p
  | .getRspArrival p => WellFormed.packet p
  | .amoReqArrival p => WellFormed.packet p
  | .amoRspArrival p => WellFormed.packet p
  | .amoRelArrival p => WellFormed.packet p
  | .hbmRequest _ _ op es => WellFormed.hbmOp op && es.all WellFormed.errs
  | .patrolScrub _ es => WellFormed.errs es
  | .powerOn _ l _ => WellFormed.straps l
  | .patrolWake _ _ l _ => WellFormed.straps l
  | .sensorRead _ r => r.all WellFormed.temp
  | .patrolSample r => WellFormed.temp r.coolant && WellFormed.temp r.junction
  | .replan m => WellFormed.age m
  | .replanDue m => WellFormed.age m
  | .timeRequestArrival _ l _ _ => WellFormed.time l
  | .timeReplyArrival _ l _ => WellFormed.time l
  | _ => true

end Sys2Proof
end

