-- ==== Sys2Proof/Tests/Slice0.lean ====
section
/-! SUPPORT. States that the tests start from, and the model's own tests. -/

namespace Sys2Proof.Tests

set_option Elab.async false

open Machine

/-- A device in a state of `MSC_STATE`, its rails up and its firmware running. -/
def dev (st : Nat) : State :=
  (State.reset.setF Fld.MSC_STATE_STATE st).updPower fun p => { p with good := true, booted := true }

/-- A device in RUN whose bay 3 has a main thread in RUN. -/
def running : State := (dev stRUN).updThr 3 .main fun r => r.setSt .run

/-- The same with a value in a general register of that thread. -/
def withG (i : BitVec 5) (v : Word) : State := running.updThr 3 .main fun r => r.setG i v

/-! ### Well-formed commands: for each check, a command it refuses -/

/-- A packet with so many bytes of chunk header and payload. -/
def packetOf (chunkHdr payload : Nat) : Packet :=
  { running.blankPacket 3 3 3 with chunkHdr := List.replicate chunkHdr 0, payload := List.replicate payload 0 }

theorem test_wellFormed_sizes :
    (Instr.registerWrite .msc 0 9 0).wellFormed = false ∧ (Instr.scrSetWrite .msc 0 0).wellFormed = false
      ∧ (Instr.debugApertureAccess true 0 16 0).wellFormed = false ∧ (Instr.registerWrite .msc 0 8 0).wellFormed = true := by decide +kernel

theorem test_wellFormed_packets :
    (Instr.sequencedPacketArrival (packetOf 0 2056)).wellFormed = false ∧ (Instr.ackArrival (packetOf 0 4)).wellFormed = false
      ∧ (Instr.getRspArrival (packetOf 8 0)).wellFormed = false ∧ (Instr.amoReqArrival (packetOf 32 2048)).wellFormed = true := by
  decide +kernel

theorem test_wellFormed_memory :
    (Instr.hbmRequest .peer 0 (.read 257) []).wellFormed = false ∧ (Instr.hbmRequest .peer 0 (.write []) []).wellFormed = false
      ∧ (Instr.patrolScrub 0 [(5, 1), (5, 2)]).wellFormed = false := by decide +kernel

theorem test_wellFormed_lists :
    (Instr.powerOn .powerOn [] true).wellFormed = false ∧ (Instr.sensorRead .coolant (some 40000)).wellFormed = false
      ∧ (Instr.replan ⟨[], 0, 0, 0, [], [], false, 0⟩).wellFormed = false
      ∧ (Instr.timeReplyArrival 0 [1, 2] 3).wellFormed = false := by decide +kernel

/-! ### Worked examples of the spec -/

/-- The four words of the example of chapter 06. -/
theorem test_words_of_chapter06 :
    decodeBay 0x8180000400600100 = some (.p .accWin ⟨0, 0, 0, 0, 1, 0x600100⟩)
      ∧ decodeBay 0x5001800010480001 = some (.v .vld ⟨3, 0, 0, 0, 1, 0, 0, 9, 0, 1⟩)
      ∧ decodeBay 0x8080000000000000 = some (.p .turn ⟨0, 0, 0, 0, 0, 0⟩)
      ∧ decodeBay 0x800A63A400000006 = some (.p .mm ⟨5, 6, 7, 4, 1, 6⟩) := by decide +kernel

theorem test_words_are_not_reserved :
    [0x8180000400600100, 0x5001800010480001, 0x8080000000000000, 0x800A63A400000006].all (fun w => !isReserved w) = true := by decide +kernel

/-- ACC.WIN of that example: acc1 in auto mode with KLOG 12. -/
theorem test_accWin_of_chapter06 (a : AccBlock) :
    (accWinOf ⟨0, 0, 0, 0, 1, 0x600100⟩ a).auto = true ∧ (accWinOf ⟨0, 0, 0, 0, 1, 0x600100⟩ a).klog = 12 := by
  unfold accWinOf; exact ⟨rfl, rfl⟩

/-- The window of 123 of chapter 04: three products and one that rounds to zero. -/
theorem test_window_of_chapter04 :
    elemWrite 0 (prodSum 123 ([(0x3C, 0x3A), (0x32, 0x2C), (0xC3, 0x36), (0x18, 0x38)].map fun p =>
      pressProduct (Fmt.e4m3.decode p.1) (Fmt.e4m3.decode p.2))) = ⟨BitVec.ofInt 128 (-2), false, false, 1⟩ := by decide +kernel

/-- The window that grows by 2 in chapter 04. -/
theorem test_rescale_of_chapter04 : w128Rescale 22 2 = 6 ∧ w128Rescale (BitVec.ofInt 128 (-9)) 2 = BitVec.ofInt 128 (-2) := by
  decide +kernel

/-- The computed scale of chapter 04: 1,000 and 3.296875 to FP8 E4M3. -/
theorem test_scale_of_chapter04 :
    Fmt.e4m3.computedScale [.ofInt 1000, .fin false 211 (-6)] = 0x80
      ∧ Fmt.e4m3.convertBlock true none [some (.ofInt 1000), some (.fin false 211 (-6))] = (0x80, [some 0x7E, some 0x3D]) := by decide +kernel

/-- Row D of the softmax of chapter 05: two +∞, so 0.5 for each. -/
theorem test_softmax_of_chapter05 :
    let v := [Machine.Num.inf false, .ofInt 3, .inf false, .inf true]
    let x := smFin (smAcc .binary32 4 (fun _ => true) (fun i => v.getD i .zero) smInit)
    x.mode = 2 ∧ x.k = 2 ∧ [0, 1, 2, 3].map (fun i => smOutElem x true (v.getD i .zero)) = [0x3F000000, 0, 0x3F000000, 0] := by decide +kernel

/-- The permutation of chapter 05: element 4 is inactive, and the index 8 gives zero. -/
theorem test_perm_of_chapter05 :
    let r : VecRegs := ⟨(((Vector.replicate 32 0).set 1 (vPack 32 [10, 11, 12, 13, 14, 15, 16, 17])).set 2
      (vPack 32 [7, 0, 8, 3, 255, 3, 1, 6])).set 3 (vPack 32 [0, 0, 0, 0, 99]), Vector.replicate 8 0xEF⟩
    let o := vecEval .perm ⟨3, 1, 2, 0, 2, 1, 0, 0, 0, 0⟩ 8 0 0 r 0
    o.vs = [(3, vPack 32 [17, 10, 0, 13, 99, 13, 11, 16])] ∧ o.events = [(.laneRange, 1)] := by
  decide +kernel

/-- The tree of chapter 07: N 10, ROOT 4, F 3. -/
theorem test_tree_of_chapter07 :
    [4, 0, 1, 2].map (treeChildren 10 3 4) = [[0, 1, 2], [3, 5, 6], [7, 8, 9], []]
      ∧ [4, 0, 5, 9].map (treeParent 3 4) = [none, some 4, some 0, some 1] := by decide +kernel

/-- The interleave of chapter 08. -/
theorem test_interleave_of_chapter08 :
    bandOf 0x00032A4137C0 = 3 ∧ interleave false 0x00032A4137C0 = (0x5C, 0x2A41) ∧ interleave true 0x00032A4137C0 = (0x71, 0xA904) := by
  decide +kernel

/-- The exchange of chapter 11 in eighths of a nanosecond: a delay of 220.000 each way, an offset of 12.125. -/
theorem test_exchange_of_chapter11 : exchange 40000000 40001857 40002400 40004063 0 = (440 * 8, 97) := by decide +kernel

/-- Entry 0 of table 741 (chapter 16), and bay 661 (chapter 00). -/
theorem test_addresses_of_chapter16 : RegId.MSC_ACC_A.addr 741 0 = 0x01F00A4B9400 ∧ bayAddr 661 0 = 0x011029500000 := by decide +kernel

/-- The hottest sensor at 102.5 °C throttles to 224 (chapter 17). -/
theorem test_throttle_of_chapter17 : throttleTarget 2 410 = 224 := by decide +kernel

/-- The straps of chapter 18: the two groups, and the all-zero straps, that parity refuses. -/
theorem test_straps_of_chapter18 :
    strapCause (List.replicate 8 ⟨3, 7, 1, 6, 0, 0⟩) = 0 ∧ strapCause (List.replicate 8 ⟨0, 0, 0, 0, 3, 0⟩) = 0
      ∧ strapCause (List.replicate 8 ⟨0, 0, 0, 0, 0, 0⟩) = 2 := by decide +kernel

/-! ### Checks computed by hand elsewhere: the published check values of the two cyclic codes and of SHA3-512 -/

/-- The bytes of "123456789" and of "abc". -/
def nine : List Byte := [0x31, 0x32, 0x33, 0x34, 0x35, 0x36, 0x37, 0x38, 0x39]

theorem test_crc : crc64 nine = 0x6C40DF5F0B497347 ∧ crc32c nine = 0xE3069283 := by decide +kernel

theorem test_sha3 : (sha3 [0x61, 0x62, 0x63]).take 8 = [0xB7, 0x51, 0x85, 0x0B, 0x1A, 0x57, 0x16, 0x8A] := by decide +kernel

/-! ### The interface -/

/-- A step of the reset state idles, and no row of the table has bits. -/
theorem test_interface : core.step core.reset = .next State.reset ∧ (decodeTableWord 64 0).isNone = true := ⟨rfl, rfl⟩

end Sys2Proof.Tests
end

