-- ==== Sys2Proof/Tests/Witness1.lean ====
section
/-! SUPPORT. For each statement about bay instructions, a state and operands that meet its hypotheses, clause by clause. -/

namespace Sys2Proof.Tests

set_option Elab.async false

open Machine

/-- A thread of bay 3 ready for an instruction that is not at the last offset. -/
def okS (c : SCode) (f : SFields) : Prop := Safety.ready running 3 .main (.s c f) ∧ Safety.notLast running 3 .main

/-- Rows of two registers and a destination. -/
theorem witness_ScalarRegisterResults : okS .add ⟨1, 2, 3, 0, 0⟩ ∧ okS .mulhu ⟨1, 2, 3, 0, 0⟩ := by
  unfold okS Safety.ready Safety.notLast; decide +kernel

theorem witness_ScalarDivision : okS .div ⟨1, 2, 3, 0, 0⟩ ∧ okS .remu ⟨1, 2, 3, 0, 0⟩ := by
  unfold okS Safety.ready Safety.notLast; decide +kernel

theorem witness_ScalarImmediateResults :
    okS .addImm ⟨1, 2, 0, 0, 0xFFFFFFFF⟩ ∧ okS .lih ⟨1, 2, 0, 0, 7⟩ ∧ okS .setvl ⟨1, 2, 0, 0, 3⟩ ∧ okS .rdsys ⟨1, 0, 0, 0, 4⟩ := by
  unfold okS Safety.ready Safety.notLast; decide +kernel

/-- The last aligned word of bay memory. -/
theorem witness_ScalarLoads :
    okS .ld ⟨1, 0, 0, 0, 0xFFFF8⟩ ∧ ((running.thr 3 .main).getG 0 + (0xFFFF8 : BitVec 32).signExtend 64).toNat + 8 = 0x100000
      ∧ ((Safety.fetched running 3 .main).eccRead 3 0xFFFF8 8).2 = false := by
  unfold okS Safety.ready Safety.notLast; decide +kernel

theorem witness_ScalarStores :
    okS .sd ⟨0, 0, 3, 0, 0xFFFF8⟩ ∧ ((Safety.fetched running 3 .main).bayWrite 3 0xFFFF8 (leBytes 8 0)).2 = false := by
  unfold okS Safety.ready Safety.notLast; decide +kernel

/-- The target of a taken branch, of a jump and of a jump to a register at the last offset; and a branch not taken. -/
theorem witness_BranchesAndJumps :
    okS .beq ⟨0, 2, 2, 0, 0x1FFFF⟩ ∧ ((0xFFFF8 : Nat) : Int) = (running.thr 3 .main).pc.toNat + (0x1FFFF : BitVec 32).toInt * 8
      ∧ okS .bne ⟨0, 2, 2, 0, 1⟩ ∧ okS .jal ⟨1, 0, 0, 0, 0x1FFFF⟩ ∧ okS .jalr ⟨1, 0, 0, 0, 0xFFFF8⟩ := by
  unfold okS Safety.ready Safety.notLast; decide +kernel

theorem witness_ScalarRegisterFrame : ∃ s', exec (.add 3 .main ⟨1, 2, 3, 0, 0⟩) running = .next s' := ⟨_, rfl⟩

/-- One byte short of alignment, and one aligned word past the end. -/
theorem witness_LoadAndStoreAddressChecks :
    okS .ld ⟨1, 0, 0, 0, 1⟩ ∧ okS .ld ⟨1, 0, 0, 0, 0x100000⟩ ∧ (running.thr 3 .main).stop = none
      ∧ ((running.thr 3 .main).getG 0 + (0x100000 : BitVec 32).signExtend 64).toNat % 8 = 0 := by
  unfold okS Safety.ready Safety.notLast; decide +kernel

theorem witness_ReservedEncodingFaults :
    isReserved 0 = true ∧ running.gated = false ∧ (running.thr 3 .main).status.st = .run ∧ (running.thr 3 .main).waitFor = .none
      ∧ (running.eccRead 3 0 8).2 = false ∧ (BayInstr.s .add ⟨1, 2, 3, 0, 0⟩).fieldsOk = true := by decide +kernel

theorem witness_InstructionWordsRoundTrip : decodeBay 0x8080000000000000 ≠ none := by decide +kernel

/-! ### Engines -/

/-- Bay 3 with one entry in its main thread's vector queue. -/
def vecWith (op : VecOp) (vl : BitVec 9) : State :=
  running.updBay 3 fun y => { y with mainVq := [⟨0, 0, vl, op⟩] }

/-- Bay 3 with one entry in its press queue. -/
def pressWith (op : PressOp) : State := running.updBay 3 fun y => { y with pq := [⟨0, 0, op⟩] }

/-- Vector fields with a destination, two sources and a format. -/
def vf (fmt : BitVec 4) : VFields := ⟨1, 2, 3, 0, fmt, 0, 0, 0, 0, 0⟩

/-- VIADD and a mask operation on an idle queue; VLD.R of the last 256 bytes; VLD at VL 0; REDTOPK at VL 0. -/
theorem witness_VectorInstructionsIssue :
    (Safety.ready running 3 .main (.v .viadd (vf 0)) ∧ Safety.vecOperands (running.thr 3 .main) .viadd (vf 0))
      ∧ (Safety.ready (withG 4 0xFFF00) 3 .main (.v .vldR ⟨1, 0, 0, 0, 0, 0, 0, 4, 0, 0⟩)
        ∧ Safety.vecOperands ((withG 4 0xFFF00).thr 3 .main) .vldR ⟨1, 0, 0, 0, 0, 0, 0, 4, 0, 0⟩) := by
  unfold Safety.ready Safety.vecOperands; decide +kernel

/-- A whole register of bytes: VL at its capacity. -/
theorem witness_VectorIntegerLanes :
    (vecWith (.instr .viadd (vf 0) 0 0) 256).clockOff = false
      ∧ Safety.vecQueue ((vecWith (.instr .viadd (vf 0) 0 0) 256).bay 3) .main = [⟨0, 0, 256, .instr .viadd (vf 0) 0 0⟩]
      ∧ (vecWith (.instr .viadd (vf 0) 0 0) 256).takesQueue 3 .main = true ∧ VCode.viadd.fieldsOk (vf 0) = true ∧ (256 : BitVec 9).toNat ≤ vCap (widthOf (vf 0).fmt.toNat) := by
  unfold Safety.vecQueue; decide +kernel

theorem witness_VectorMaskLogic :
    (vecWith (.instr .mand (vf 0) 0 0) 0).clockOff = false
      ∧ Safety.vecQueue ((vecWith (.instr .mand (vf 0) 0 0) 0).bay 3) .main = [⟨0, 0, 0, .instr .mand (vf 0) 0 0⟩]
      ∧ (vecWith (.instr .mand (vf 0) 0 0) 0).takesQueue 3 .main = true
      ∧ (1 : Fin 8).val = (vf 0).vd.toNat % 8 ∧ (2 : Fin 8).val = (vf 0).va.toNat % 8 ∧ (3 : Fin 8).val = (vf 0).vb.toNat % 8 := by
  unfold Safety.vecQueue; decide +kernel

/-- The last 256 bytes of bay memory, both ways. -/
theorem witness_WholeRegisterCopies :
    Safety.vecQueue ((vecWith (.instr .vldR (vf 0) 0xFFF00 0) 0).bay 3) .main = [⟨0, 0, 0, .instr .vldR (vf 0) 0xFFF00 0⟩]
      ∧ (vecWith (.instr .vldR (vf 0) 0xFFF00 0) 0).takesQueue 3 .main = true
      ∧ (vecWith (.instr .vstR (vf 0) 0xFFF00 0) 0).takesQueue 3 .main = true
      ∧ (vecWith (.instr .vldR (vf 0) 0xFFF00 0) 0).ecc1 = [] ∧ (vecWith (.instr .vldR (vf 0) 0xFFF00 0) 0).ecc2 = [] ∧ (0xFFF00 : Word).toNat % 64 = 0
      ∧ (0xFFF00 : Word).toNat + 256 ≤ 0x100000
      ∧ Safety.vecQueue ((vecWith (.instr .vstR (vf 0) 0xFFF00 0) 0).bay 3) .main = [⟨0, 0, 0, .instr .vstR (vf 0) 0xFFF00 0⟩] := by
  unfold Safety.vecQueue; decide +kernel

/-- TURN and ACC.WIN on an idle press. -/
theorem witness_PressInstructionsIssue :
    (Safety.ready running 3 .main (.p .turn ⟨0, 0, 0, 0, 0, 0⟩)
        ∧ pressCheck (running.bay 3) (running.thr 3 .main) .turn ⟨0, 0, 0, 0, 0, 0⟩ = Check.none)
      ∧ (Safety.ready running 3 .main (.p .accWin ⟨0, 0, 0, 0, 1, 0x100⟩)
        ∧ pressCheck (running.bay 3) (running.thr 3 .main) .accWin ⟨0, 0, 0, 0, 1, 0x100⟩ = Check.none) := by
  unfold Safety.ready; decide +kernel

theorem witness_PressTurnsAndClears :
    (pressWith .turn).clockOff = false ∧ Safety.handedOver (pressWith .turn) ∧ ((pressWith .turn).bay 3).pq = [⟨0, 0, .turn⟩]
      ∧ ((pressWith (.accClr ⟨0, 0, 0, 0, 1, 0⟩)).bay 3).pq = [⟨0, 0, .accClr ⟨0, 0, 0, 0, 1, 0⟩⟩]
      ∧ ((pressWith (.accWin ⟨0, 0, 0, 0, 0, 0⟩)).bay 3).pq = [⟨0, 0, .accWin ⟨0, 0, 0, 0, 0, 0⟩⟩] := by
  unfold Safety.handedOver; decide +kernel

theorem witness_FoldedRowsAreNotFed :
    (pressWith (.mm ⟨0, 0, 0, 4, 0, 2⟩ 0 0 0 (some 0))).clockOff = false
      ∧ Safety.handedOver (pressWith (.mm ⟨0, 0, 0, 4, 0, 2⟩ 0 0 0 (some 0)))
      ∧ ((pressWith (.mm ⟨0, 0, 0, 4, 0, 2⟩ 0 0 0 (some 0))).bay 3).pq = [⟨0, 0, .mm ⟨0, 0, 0, 4, 0, 2⟩ 0 0 0 (some 0)⟩] := by
  unfold Safety.handedOver; decide +kernel

theorem witness_WindowedSumsAreOrderFree :
    [Machine.Num.zero, .nan].Perm [.nan, .zero] ∧ (elemWrite 0 (prodSum 123 [])).event = false
      ∧ (elemWrite (elemWrite 0 (prodSum 123 [])).value (prodSum 123 [])).event = false :=
  ⟨List.Perm.swap _ _ _, by decide +kernel⟩

/-! ### Waits, fences and control -/

/-- A sync that holds, one that waits for the press, END, and the two releases. -/
theorem witness_SyncAndEnd :
    (Safety.ready running 3 .main (.x .sync ⟨0, 0, 0, 0, 7⟩) ∧ Safety.notLast running 3 .main ∧ running.syncDone 3 .main true true true = true)
      ∧ (Safety.ready (pressWith .turn) 3 .main (.x .sync ⟨0, 0, 0, 0, 1⟩) ∧ (pressWith .turn).syncDone 3 .main false false true = false)
      ∧ Safety.ready running 3 .main (.x .endThread ⟨0, 0, 0, 0, 0⟩) := by
  unfold Safety.ready Safety.notLast; decide +kernel

/-- A waiting thread, and a draining one. -/
def waiting (w : WaitFor) : State := running.updThr 3 .main fun r => { r.setSt .wait with waitFor := w }
def draining (g : ThreadState) : State := running.updThr 3 .main fun r => { r.setSt .drain with stop := some ⟨g, 0, false⟩ }

theorem witness_SyncAndEnd_releases :
    (((waiting (.sync true true true)).thr 3 .main).waitFor = .sync true true true ∧ (waiting (.sync true true true)).gated = false
        ∧ (waiting (.sync true true true)).syncDone 3 .main true true true = true)
      ∧ (((draining .idle).thr 3 .main).stop = some ⟨.idle, 0, false⟩ ∧ ((draining .idle).thr 3 .main).status.st = .drain
        ∧ (draining .idle).gated = false ∧ ((draining .idle).bay 3).drained .main = true ∧ Safety.handedOver (draining .idle)) := by
  unfold Safety.handedOver; decide +kernel

/-- A message slot in use. -/
def slotOf (k : MsgKind) : Slot :=
  { t := .main, kind := k, qseq := 0, pc := 0, ord := 0, loc := 0x100, dest := 0, dev := 0, len := 8, flag := 0, cw := none, aop := 0, x := 1, cmp := 0
    gd := 5, moved := 0, flagDone := false, acks := [], acked := 0, pieces := [], fail := none, gen := 0, smark := 0, spinc := 0, sends := 0
    refused := false, first := 0, forColl := none, buf := [] }

/-- Bay 3 with a request in slot 0. -/
def slotWith (x : Slot) : State := running.updBay 3 fun y => { y with slots := [(0, some x)], msgCount := 1 }

theorem witness_FenceReportsTheFirstFailure :
    (Safety.ready running 3 .main (.x .fence ⟨0, 0, 0, 1, 0⟩) ∧ Safety.notLast running 3 .main
        ∧ (∀ e ∈ (running.bay 3).usedSlots, e.2.kind = .get) ∧ (∀ e ∈ (running.bay 3).fenceFails, e.1 < (running.bay 3).msgCount))
      ∧ (Safety.ready (slotWith (slotOf .put)) 3 .main (.x .fence ⟨0, 0, 0, 1, 0⟩)
        ∧ ∃ e ∈ ((slotWith (slotOf .put)).bay 3).usedSlots, e.2.kind ≠ .get ∧ e.2.ord < ((slotWith (slotOf .put)).bay 3).msgCount)
      ∧ (((waiting (.fence 0 1 none)).thr 3 .main).waitFor = .fence 0 1 none ∧ (∀ p ∈ ((waiting (.fence 0 1 none)).thr 3 .main).pend, p.failed = none)
        ∧ ∀ e ∈ ((waiting (.fence 0 1 none)).bay 3).usedSlots, e.2.kind = .get ∨ 0 ≤ e.2.ord) := by
  unfold Safety.ready Safety.notLast; decide +kernel

/-- WAIT.FLAG on the last word of bay memory; a flag that holds at a reread, and one whose timeout has passed. -/
theorem witness_WaitsOnFlagsAndMarks :
    (Safety.ready (withG 4 0xFFFF8) 3 .main (.x .waitFlag ⟨4, 0, 0, 1, 0⟩) ∧ Safety.notLast (withG 4 0xFFFF8) 3 .main
        ∧ (((withG 4 0xFFFF8).thr 3 .main).getG 4).toNat = 0xFFFF8 ∧ ((Safety.fetched (withG 4 0xFFFF8) 3 .main).eccRead 3 0xFFFF8 8).2 = false)
      ∧ ((waiting (.flag 0xFFFF8 0 0 (some 0) 1)).gated = false ∧ ((waiting (.flag 0xFFFF8 0 0 (some 0) 1)).eccRead 3 0xFFFF8 8).2 = false
        ∧ flagHolds 0 ((waiting (.flag 0xFFFF8 0 0 (some 0) 1)).flagWord 3 0xFFFF8) 0 = true) := by
  unfold Safety.ready Safety.notLast; decide +kernel

/-- The timebase far enough for every bay's lag, and a mark ahead. -/
def late : State := running.setF Fld.SCR_COUNT_COUNT 0xFFFFF

theorem witness_WaitsOnFlagsAndMarks_times :
    0 + (late).bayLagMax 3 ≤ late.now
      ∧ (Safety.ready late 3 .main (.x .waitScribe ⟨0, 0, 0, 1, 0⟩) ∧ ((late.thr 3 .main).getG 0).toNat + late.bayLagMax 3 ≤ late.now)
      ∧ (Safety.ready (withG 4 9) 3 .main (.x .waitScribe ⟨4, 0, 0, 1, 0⟩) ∧ (withG 4 9).now < (((withG 4 9).thr 3 .main).getG 4).toNat) := by
  unfold Safety.ready; decide +kernel

/-- The MSC reaches `BAY_CTRL` of an idle bay, and of a live one. -/
theorem witness_BayControl :
    (Safety.reaches (dev stREADY) .msc .BAY_CTRL 3 0 (withBit (Fld.BAY_CTRL_GO 3) (packWord [(1, 0)])) ∧ ((dev stREADY).bay 3).live = false
        ∧ ((dev stREADY).bay 3).colls = [] ∧ Safety.handedOver (dev stREADY))
      ∧ (Safety.reaches running .msc .BAY_CTRL 3 0 (withBit (Fld.BAY_CTRL_STOP 3) (packWord [(1, 0)])) ∧ (running.bay 3).live = true ∧ Safety.handedOver running)
      ∧ (Safety.reaches running .msc .BAY_CTRL 3 0 (packWord [(1, 1)]) ∧ running.seamEn 3 ≠ true) := by
  unfold Safety.reaches Safety.handedOver; decide +kernel

end Sys2Proof.Tests
end

