-- ==== Sys2Proof/Tests/Witness2.lean ====
section
/-! SUPPORT. For each statement about messages and collectives, a state and operands that meet its hypotheses, clause by clause. -/

namespace Sys2Proof.Tests

set_option Elab.async false

open Machine

/-! ### Messages -/

/-- Bay 3 with the registers of a message: local offset 0x100, target 0x80 of its own bay, 8 bytes. -/
def msgRegs : State :=
  running.updThr 3 .main fun r => ((r.setG 4 0x100).setG 5 (BitVec.ofNat 64 (bayAddr 3 0x80))).setG 6 8

/-- The four M-format instructions, with the destination in the device; the slot taken is the first. -/
theorem witness_MessageRequestsIssue :
    (Safety.ready msgRegs 3 .main (.m .put ⟨4, 5, 6, 0, 0, 0, 0, 1, 0⟩)
        ∧ msgCheck (msgRegs.thr 3 .main) .put ⟨4, 5, 6, 0, 0, 0, 0, 1, 0⟩ = Check.none)
      ∧ (Safety.ready msgRegs 3 .main (.m .get ⟨4, 5, 6, 0, 0, 0, 0, 1, 0⟩)
        ∧ msgCheck (msgRegs.thr 3 .main) .get ⟨4, 5, 6, 0, 0, 0, 0, 1, 0⟩ = Check.none)
      ∧ (Safety.ready msgRegs 3 .main (.m .amo ⟨4, 5, 6, 0, 0, 0, 0, 0, 0⟩)
        ∧ msgCheck (msgRegs.thr 3 .main) .amo ⟨4, 5, 6, 0, 0, 0, 0, 0, 0⟩ = Check.none)
      ∧ Safety.handedOver msgRegs ∧ (msgRegs.bay 3).freeSlot = 0
      ∧ msgRegs.destDev ((msgRegs.thr 3 .main).getG 5) = msgRegs.devCoord := by
  unfold Safety.ready Safety.handedOver; decide +kernel

/-- A request of bay 3 for the last 8 bytes of bay 3, and of bay 4. -/
def toBay (k : MsgKind) (b : BayId) : Slot := { slotOf k with dest := BitVec.ofNat 64 (bayAddr b 0xFFFF8) }

theorem witness_MessagePacketsReachBayMemory :
    ((slotWith (toBay .put 3)).clockOff = false ∧ Safety.handedOver (slotWith (toBay .put 3)) ∧ (slotWith (toBay .put 3)).ecc1 = []
        ∧ (slotWith (toBay .put 3)).ecc2 = [] ∧ ((slotWith (toBay .put 3)).bay 3).slot 0 = some (toBay .put 3)
        ∧ (toBay .put 3).dev = (slotWith (toBay .put 3)).devCoord ∧ (slotWith (toBay .put 3)).cut 3 = false
        ∧ fieldOf (toBay .put 3).dest 0 48 = bayAddr 3 0xFFFF8
        ∧ (slotWith (toBay .put 3)).partReady 3 (toBay .put 3) (.put (bayAddr 3 0xFFFF8) 8) = true
        ∧ (slotWith (toBay .get 3)).partReady 3 (toBay .get 3) (.get (bayAddr 3 0xFFFF8) 8) = true)
      ∧ ((slotWith (toBay .put 4)).access (.group ((slotWith (toBay .put 4)).bayGroup 3)) (slotWith (toBay .put 4)).devCoord permW
          (bayAddr 4 0xFFFF8) 8).2 = false := by
  unfold Safety.handedOver; decide +kernel

/-- Slots with the acknowledgement that each clause speaks of. -/
def putAcked : Slot := { slotOf .put with moved := 8, acks := [⟨cDONE, 8, []⟩] }
def getAcked : Slot := { slotOf .get with len := 9, moved := 8, acks := [⟨cDONE, 8, [1, 2, 3, 4, 5, 6, 7, 8]⟩] }
def amoAcked : Slot := { slotOf .amo with moved := 8, acks := [⟨cDONE, 8, [1, 2, 3, 4, 5, 6, 7, 8]⟩] }
def putFailed : Slot := { slotOf .put with moved := 8, acks := [⟨cRANGE, 8, []⟩] }

theorem witness_MessageAcknowledgementsComplete :
    (slotWith putAcked).clockOff = false
      ∧ (((slotWith putAcked).bay 3).slot 0 = some putAcked ∧ putAcked.acked + 8 = putAcked.len ∧ putAcked.moved = putAcked.len
        ∧ (slotWith putAcked).fab.reqsLeft (.msg 3 0 putAcked.ord) = false)
      ∧ (((slotWith getAcked).bay 3).slot 0 = some getAcked ∧ getAcked.acked + 8 < getAcked.len ∧ (slotWith getAcked).ecc1 = [])
      ∧ ((slotWith amoAcked).bay 3).slot 0 = some amoAcked
      ∧ ((slotWith putFailed).bay 3).slot 0 = some putFailed := by decide +kernel

/-! ### Collectives -/

/-- A broadcast of 8 bytes over group 5 by SEQ 9, at the member of rank 1; the root has rank 0. -/
def bcast : CollBlock := ⟨0, 0x0300005000010000, 0x0000000900000001, 0x0008000000000000, 0x0000000000000008, 0⟩

/-- A reduce of one binary64 element over the same group, by its root. -/
def redu : CollBlock := ⟨0, 0x0400005000000000, 0x0000000900000001, 0x0008000000000000, 0x0000100000000008, 0⟩

/-- Bay 3 with that block at offset 0x1000, its offset in g4. -/
def blockAt (k : CollBlock) : State :=
  (withG 4 0x1000).setMemBytes (bayAddr 3 0x1000)
    (leBytes 8 k.w0.toNat ++ leBytes 8 k.w1.toNat ++ leBytes 8 k.w2.toNat ++ leBytes 8 k.w3.toNat ++ leBytes 8 k.w4.toNat)

/-- The fields of a vector SPLICE that stores a whole register, its block in g4. -/
def xf : XFields := ⟨0, 0, 0, 4, 0xF⟩

theorem witness_SpliceFormsIssue :
    Safety.ready (blockAt bcast) 3 .main (.x .spliceVb xf)
      ∧ spliceCheck (blockAt bcast) 3 ((blockAt bcast).thr 3 .main) .spliceVb xf = Check.none
      ∧ ((Safety.fetched (blockAt bcast) 3 .main).eccRead 3 0x1000 40).2 = false
      ∧ (blockAt bcast).readBlock 3 0x1000 = { bcast with off := 0x1000 } := by
  unfold Safety.ready; decide +kernel

/-- An entry written by the host; an entry whose check runs, its list misaligned; one whose list holds bay 0 of the device alone. -/
def grpAt (list : Nat) : State := running.setFs [(Fld.ABR_GRP_W0_STATE 5, 1), (Fld.ABR_GRP_W2_LIST 5, list)]

theorem witness_GroupEntriesAreChecked :
    (Safety.reaches running .bar0 .ABR_GRP_W0 4095 0 (withBit (Fld.ABR_GRP_W0_VALID 4095) (packWord [(0, 5)])) ∧ running.grpBusy 4095 = false
        ∧ running.grpBusy 0 = false)
      ∧ ((grpAt 4).getF (Fld.ABR_GRP_W0_STATE 5) = 1 ∧ (grpAt 4).getF (Fld.ABR_GRP_W2_LIST 5) % 64 ≠ 0)
      ∧ ((grpAt 64).getF (Fld.ABR_GRP_W0_STATE 5) = 1 ∧ (grpAt 64).getF (Fld.ABR_GRP_W2_LIST 5) = 64 ∧ (grpAt 64).grpN 5 = 1
        ∧ regionOf (64 + 4 * 1 - 1) = .hbm ∧ ((grpAt 64).ownRead 7 64 4).2 = (cDONE, [0].flatMap (leBytes 4))
        ∧ (grpAt 64).grpRoot 5 < 1) := by
  unfold Safety.reaches; decide +kernel

/-- The collective of a block, joined, with a neighbour as its parent or its child. -/
def collOf (k : CollBlock) (up : Option Neighbour) (down : List Neighbour) : Coll :=
  { running.newColl k 0 0 0 0 with joined := true, parent := up, children := down }

/-- Bay 3 with an open collective. -/
def withColl (c : Coll) : State := running.updBay 3 fun y => { y with colls := [c] }

/-- Bay 0 alone in group 5, at its rank 0, for a broadcast by itself. -/
def rooted : CollBlock := { bcast with w0 := 0x0300005000000000 }
def ready5 : State := running.setFs [(Fld.ABR_GRP_W0_STATE 5, 2), (Fld.ABR_GRP_W2_LIST 5, 64)]

/-- Bay 3 with a SPLICE at the head of its press queue, or of its vector queue. -/
def spliceP : State := running.updBay 3 fun y => { y with pq := [⟨0, 0, .splice false xf 0 0 0 rooted⟩] }
def spliceV : State := running.updBay 3 fun y => { y with mainVq := [⟨0, 0, 0, .splice .spliceVb xf 0 0 0 bcast⟩] }

theorem witness_CollectivesJoin :
    (((spliceP.bay 3).coll 5 9 = none ∧ (spliceP.bay 3).pq = [⟨0, 0, .splice false xf 0 0 0 rooted⟩]) ∧ rooted.names 5 9 = true)
      ∧ ((spliceV.bay 3).coll 5 9 = none ∧ (spliceV.bay 3).pq = []
        ∧ (spliceV.bay 3).mainVq = [⟨0, 0, 0, .splice .spliceVb xf 0 0 0 bcast⟩] ∧ bcast.names 5 9 = true
        ∧ bcast.op = 3 ∧ bcast.rank ≠ bcast.root ∧ spliceV.clockOff = false ∧ spliceV.takesQueue 3 .main = true
        ∧ (spliceV.bay 3).colls.length < 8)
      ∧ ((ready5.bay 0).coll 5 9 = none
        ∧ (let s := ready5.updBay 0 fun y => { y with colls := y.colls ++ [ready5.newColl rooted 0 0 0 0] }
           (s.joinCheck 0 rooted).2 = none ∧ (s.joinCheck 0 rooted).1.bays = s.bays ∧ (s.joinCheck 0 rooted).1.fab = ready5.fab)
        ∧ ready5.fab.earlyOf 0 5 9 = none)
      ∧ ((running.bay 3).coll 5 9 = none ∧ running.fab.earlyOf 3 5 9 = none ∧ Safety.handedOver running)
      ∧ ((withColl (collOf bcast none [])).bay 3).coll 5 9 = some (collOf bcast none []) := by
  unfold Safety.handedOver; decide +kernel

/-- Bay 3 with an open collective and its seam handlers running. -/
def seaming (c : Coll) : State := ((withColl c).setF (Fld.BAY_CTRL_SEAM_EN 3) 1).updThr 3 .seam fun r => r.setSt .run

/-- A neighbour of rank 0, nothing exchanged yet. -/
def nb : Neighbour := Neighbour.fresh 0
def data8 : List Byte := [1, 2, 3, 4, 5, 6, 7, 8]

theorem witness_ChunksCreditsAndAcknowledgements :
    ((allZero data8 = false ∧ data8.length = bcast.chunkLen 0 ∧ 0 < bcast.nc ∧ bcast.reduce = false)
        ∧ ((seaming (collOf bcast (some nb) [])).bay 3).coll bcast.group bcast.seq = some (collOf bcast (some nb) [])
        ∧ (seaming (collOf bcast (some nb) [])).seamRuns 3 = true ∧ (seaming (collOf bcast (some nb) [])).ecc1 = []
        ∧ (seaming (collOf bcast (some nb) [])).ecc2 = []
        ∧ (collOf bcast (some nb) []).parent.map (fun n => n.rank) = some 0 ∧ (collOf bcast (some nb) []).done = 0)
      ∧ (data8.length = redu.chunkLen 0 ∧ 0 < redu.nc ∧ redu.reduce = true
        ∧ ((seaming (collOf redu none [nb])).bay 3).coll redu.group redu.seq = some (collOf redu none [nb])
        ∧ (seaming (collOf redu none [nb])).seamRuns 3 = true
        ∧ [nb].findIdx? (fun m => m.rank == 0) = some 0 ∧ nb.staged = none ∧ nb.sent = 0)
      ∧ (Safety.handedOver running ∧ (running.bay 3).coll (BitVec.ofNat 12 (hdrField [] 0 2)) (BitVec.ofNat 32 (hdrField [] 4 4)) = none)
      ∧ (let h := chunkHeader bcast 0 1 0 data8
         ((seaming (collOf bcast none [])).bay 3).coll (BitVec.ofNat 12 (hdrField h 0 2)) (BitVec.ofNat 32 (hdrField h 4 4))
            = some (collOf bcast none [])
          ∧ (seaming (collOf bcast none [])).seamRuns 3 = true ∧ (withColl (collOf bcast none [])).seamRuns 3 = false
          ∧ ((withColl (collOf bcast none [])).bay 3).coll (BitVec.ofNat 12 (hdrField h 0 2)) (BitVec.ofNat 32 (hdrField h 4 4))
            = some (collOf bcast none [])
          ∧ hdrField h 28 4 ≠ (seaming (collOf bcast none [])).getF Fld.ABR_EPOCH_CURRENT)
      ∧ ((withColl (collOf redu (some nb) [])).bay 3).coll redu.group redu.seq = some (collOf redu (some nb) []) := by
  unfold Safety.handedOver; decide +kernel

/-- Bay 3 with an early record of an abort since reset, at a count far enough. -/
def earlyAborted : State :=
  { running.setF Fld.SCR_COUNT_COUNT 10000000 with
    fab := { running.fab with early := [{ EarlyRec.blank 3 5 9 with abort := some (cRANGE, 0) }] } }

/-- A collective whose child has not joined for 2,000,000 ticks. -/
def silent : State := (withColl (collOf bcast none [nb])).setF Fld.SCR_COUNT_COUNT 2000000

/-- The same with a join notice to a member in another device, refused, and with another that stands. -/
def noticeTo (refused : Bool) : Notice := ⟨.join, 5, 9, 3, 1, 0x0042000, 7, 0, 0, 0, false, refused⟩
def noticed : State := running.mapNotices fun _ => [noticeTo true, noticeTo false]

/-- A chunk the child of rank 0 lacks, with the count of the last packet to it. -/
def slowOf (l : List (Nat × Nat)) : State := withColl { collOf bcast none [nb] with told := l }

theorem witness_AbortNoticesAndEarlyRecords :
    (((withColl (collOf bcast none [])).bay 3).coll 5 9 ≠ none ∧ (running.bay 3).coll 5 9 = none ∧ running.fab.earlyOf 3 5 9 = none)
      ∧ (earlyAborted.fab.earlyOf 3 5 9 = some { EarlyRec.blank 3 5 9 with abort := some (cRANGE, 0) } ∧ 0 + 10000000 ≤ earlyAborted.now)
      ∧ ((silent.bay 3).coll 5 9 = some (collOf bcast none [nb]) ∧ silent.waitsOn 3 (collOf bcast none [nb]) 0 = true
        ∧ (collOf bcast none [nb]).opened + 2000000 ≤ silent.now)
      ∧ (noticed.fab.notices[0]? = some (noticeTo true) ∧ noticed.fab.notices[1]? = some (noticeTo false)
        ∧ devOf (noticeTo true).dst ≠ noticed.devCoord)
      ∧ ((slowOf [(0, 5)]).slowDue 3 5 9 0 = some (some 5) ∧ 5 / 100000 = (slowOf [(0, 5)]).now / 100000)
      ∧ ((slowOf []).slowDue 3 5 9 0 = some none ∧ ((slowOf []).bay 3).main.status.st ≠ .fault
        ∧ ((slowOf []).bay 3).main.status.st ≠ .stopped)
      ∧ (slowOf []).slowDue 3 5 9 1 = none := by decide +kernel

theorem witness_ExpertNotices :
    ((withColl (collOf bcast none [])).bay 3).coll 5 9 = some (collOf bcast none []) ∧ (collOf bcast none []).joined = true
      ∧ ((running.bay 3).coll 5 9 = none ∧ running.fab.earlyOf 3 5 9 = none ∧ Safety.handedOver running) := by
  unfold Safety.handedOver; decide +kernel

end Sys2Proof.Tests
end

