-- ==== Sys2Proof/Tests/Witness3.lean ====
section
/-! SUPPORT. For each statement about registers, links and memory, a state and operands that meet its hypotheses, clause by clause. -/

namespace Sys2Proof.Tests

set_option Elab.async false

open Machine

/-! ### Registers and links -/

/-- The last bay's PC by each path; a read-only register; an address of no register; a register that a bay may not write. -/
theorem witness_RegisterWritesFollowTheirRules :
    (Safety.reaches running .msc .BAY_MAIN_PC 1023 0 8 ∧ (writeBy .BAY_MAIN_PC 1023 0 8 running).2 = cDONE
        ∧ 1023 < RegId.BAY_MAIN_PC.spec.n1 ∧ 0 < RegId.BAY_MAIN_PC.spec.n2)
      ∧ (Safety.reaches running .msc .SCR_COUNT 0 0 0 ∧ RegId.SCR_COUNT.readOnly = true)
      ∧ regAligned 2 4 = false
      ∧ (regAligned (regBase - 8) 8 = true ∧ regBase - 8 < regBase ∧ regAligned regEnd 8 = true)
      ∧ (regAligned (regEnd - 8) 8 = true ∧ regLocate (regEnd - 8) = none
        ∧ (running.checkAccess (running.pathMaster .msc) running.devCoord permW (regEnd - 8) 8).2 = true)
      ∧ pathMay (.bay 3) .OPT_FW_CTRL (RegId.OPT_FW_CTRL.addr 0 0) 0 = false
      ∧ Safety.handedOver running := by
  unfold Safety.reaches Safety.handedOver; decide +kernel

/-- The aperture enabled at the start of bay memory, and disabled as after reset. -/
def aperture : State := running.setFs [(Fld.MSC_DBG_WIN_EN, 1), (Fld.MSC_DBG_WIN_BASE, 0x1100)]

theorem witness_DebugAperture :
    (aperture.barsOff = false ∧ Safety.handedOver aperture ∧ aperture.host.late = [] ∧ aperture.clockOff = false
        ∧ aperture.cut 0 = false ∧ aperture.ecc1 = [] ∧ aperture.ecc2 = [] ∧ aperture.getF Fld.MSC_DBG_WIN_EN = 1
        ∧ aperture.getF Fld.MSC_DBG_WIN_BASE * 2 ^ 28 + 0 = bayAddr 0 0
        ∧ regAligned (bayAddr 0 0) 8 = true
        ∧ (aperture.checkAccess .host aperture.devCoord permW (bayAddr 0 0) 8).2 = true
        ∧ (aperture.checkAccess .host aperture.devCoord permR (bayAddr 0 0) 8).2 = true)
      ∧ (running.getF Fld.MSC_DBG_WIN_EN = 0 ∧ running.getF Fld.MSC_HOST_ERR_VALID = 0)
      ∧ (let s := aperture.setF Fld.MSC_STATE_STATE stHOLD
         s.clockOff = true ∧ s.barsOff = false ∧ s.getF Fld.MSC_DBG_WIN_EN = 1
          ∧ regionOf (s.getF Fld.MSC_DBG_WIN_BASE * 2 ^ 28 + 0) = .bay) := by
  unfold Safety.handedOver; decide +kernel

/-- The firewall's first window of engine 7 open for both, to the engine's last byte. -/
def fwOpen : State :=
  running.setFs [(Fld.OPT_FW_WIN_EN 7 0, 1), (Fld.OPT_FW_WIN_WRITE 7 0, 1), (Fld.OPT_FW_WIN_READ 7 0, 1), (Fld.OPT_FW_WIN_LIMIT 7 0, 0xFFFF)]

theorem witness_FirewallAndTestPorts :
    (running.getF Fld.OPT_FW_CTRL_LOCK = 0 ∧ Safety.reaches running .msc .OPT_FW_CTRL 0 0 1 ∧ Safety.reaches running .msc .OPT_FW_WIN 7 7 1)
      ∧ (fwOpen.windowOk 7 true 0xFFF8 8 = true ∧ fwOpen.windowOk 7 false 0xFFF8 8 = true ∧ running.windowOk 7 true 0 8 = false)
      ∧ (running.evqOf 7).length < 64
      ∧ smapGet (fun _ => 0) ({ running with tpc := { running.tpc with hbmFails := [(7, 2)] } } : State).tpc.hbmFails 7 = 2 := by
  unfold Safety.reaches; decide +kernel

/-- A packet of device 1 for bay 3 of the device, and its frame on port 0. -/
def pkt (t : BitVec 4) : Packet := { running.blankPacket t 3 3 with src := coordOf 1 3, vc := BitVec.ofNat 2 (vcOfType t.toNat) }
def l0 : Word := BitVec.ofNat 64 ((vcOfType 3) * 2 ^ 25 + 2 ^ 20 + 64)
def frame : Frame := ⟨l0, (headerCheck l0 0 (some (pkt 3))).setWidth 64, some (pkt 3), crc32c []⟩

/-- Port 0 up with its engine enabled. -/
def portUp0 : State := running.setFs [(Fld.ABR_PORT_STATUS_UP 0, 1), (Fld.OPT_FW_CTRL_ENG_EN, 0xFF)]

/-- Port 0 with a frame not acknowledged. -/
def replay0 : State :=
  portUp0.setPort 0 { portUp0.port 0 with bulk := ⟨1, 0, [⟨0, pkt 3, 0, true, true, .here⟩], [], 0, none⟩ }

theorem witness_LinksCarryFrames :
    (Safety.handedOver running ∧ smapGet (fun _ => 0) running.flits (linkKey (.bond 7 15)) < 15
        ∧ smapGet (fun _ => 0) ({ running with flits := [(3, 15)] } : State).flits 3 = 15)
      ∧ (frame.packet = some (pkt 3) ∧ (portUp0.getF Fld.OPT_FW_CTRL_ENG_EN).testBit (0 / 2) = true ∧ portUp0.portUp 0 = true
        ∧ portUp0.landingOk 0 false (linkHdr frame) = true ∧ (linkHdr frame).lseq = ((portUp0.port 0).lane (linkHdr frame).express).rx
        ∧ (pkt 3).type.toNat < 13)
      ∧ ((running.setHeld 1 [⟨pkt 3, .here, none, false⟩]).fab.stalled = []
        ∧ (running.setHeld 1 [⟨pkt 3, .here, none, false⟩]).replayPort 1 = none
        ∧ (running.setHeld 1 [⟨pkt 3, .here, none, false⟩]).heldOf 1 = [⟨pkt 3, .here, none, false⟩] ∧ devOf (pkt 3).dst = running.devCoord)
      ∧ (replay0.portUp 0 = true ∧ (((replay0.port 0).lane false).acknowledge (0 - 1)).replay.head? = some ⟨0, pkt 3, 0, true, true, .here⟩
        ∧ (((replay0.port 0).lane false).acknowledge (0 - 1)).tries < 16)
      ∧ (let s := replay0.setPort 0 { replay0.port 0 with bulk := { (replay0.port 0).bulk with todo := [0] } }
         s.replayPort 0 = some 0 ∧ (s.port 0).bulk.todo = [0]
          ∧ (s.port 0).bulk.replay.find? (fun t => t.lseq == 0) = some ⟨0, pkt 3, 0, true, true, .here⟩) := by
  unfold Safety.handedOver; decide +kernel

/-- Port 15 down, its lane 0 trained at rung 1. -/
def trained : State :=
  running.setFs [(Fld.ABR_CTRL_FAB_EN, 1), (Fld.OPT_LANE_STATE 15 0, 1), (Fld.OPT_LANE_RUNG 15 0, 1)]

theorem witness_PortsUpAndDown :
    (trained.getF Fld.ABR_CTRL_FAB_EN = 1 ∧ trained.portUp 15 = false ∧ trained.getF (Fld.ABR_PORT_STATUS_DOWN 15) = 0
        ∧ trained.onRung 15 = true ∧ trained.getF (Fld.OPT_ENG_STATUS_EXP_LOST (15 / 2)) = 0 ∧ trained.miswired 15 1 15 = false)
      ∧ (portUp0.portUp 0 = true ∧ replay0.firstAffected 0 ≠ none ∧ replay0.getF Fld.ABR_FAB_ERR_VALID = 0)
      ∧ (Safety.reaches (dev stREADY) .msc .ABR_LEVEL 3 63 (packWord [(32, 1)]) ∧ (dev stREADY).devState = stREADY
        ∧ fieldOf (packWord [(32, 1)]) 32 3 ≠ levelField 0 (dev stREADY).devCoord)
      ∧ (levelHole 1 63 = true ∧ (running.checkAccess (running.pathMaster .msc) running.devCoord permW (RegId.ABR_LEVEL.addr 1 63) 8).2 = true)
      ∧ (Safety.reaches running .msc .ABR_LEVEL 1 0 (packWord [(32, 1)]) ∧ running.devState ≠ stREADY
        ∧ running.regChanges .ABR_LEVEL 1 0 (packWord [(32, 1)]) = true) := by
  unfold Safety.reaches; decide +kernel

/-! ### HBM and LLS -/

/-- A GET of bay 3 for the bytes at 0 of HBM. -/
def getHbm : Slot := { slotOf .get with dest := 0, len := 32 }

/-- Band 0 not cached, its unit 1 beyond correction. -/
def badUnit : State := { running.setF (Fld.HBM_BAND_CACHE 0) 0 with hbmBad := [1] }

theorem witness_MemoryRequestsAreServed :
    (64 % 32 + 32 ≤ 32 ∧ regionOf 64 = .hbm ∧ badUnit.bandLive (bandOf 64) = true ∧ badUnit.cachedAt 64 = false
        ∧ badUnit.hbm.retrains = [] ∧ Safety.handedOver badUnit ∧ badUnit.inReserve 64 8 = false ∧ badUnit.hbm.selfRefresh = [] ∧ badUnit.hbm.open_ = []
        ∧ badUnit.trainOf (badUnit.placeOf (64 / 32 * 32)).1 ≠ .dead ∧ 64 / 32 ∉ badUnit.hbmBad)
      ∧ (1 = 63 / 32 ∧ 63 / 32 ∈ badUnit.hbmBad ∧ badUnit.cachedAt 63 = false ∧ badUnit.getF Fld.HBM_UE_LOG_VALID = 0
        ∧ badUnit.getF Fld.HBM_CAP_FOLDS < 16)
      ∧ regionOf 0x0F0000000000 = .none := by
  unfold Safety.handedOver; decide +kernel

/-- The same with its reserve at the device's first bytes, and with a channel in retraining. -/
def reserved : State := badUnit.setFs [(Fld.LDG_RES_BASE, 0), (Fld.LDG_RES_LOCAL_GIB, 1)]
def heldUnit : State := { badUnit with hbm := { badUnit.hbm with retrains := [⟨(badUnit.placeOf 64).1, .errorRate, 0, .full⟩] } }

theorem witness_MemoryRequestsAreServed_held :
    (reserved.inReserve 64 8 = true ∧ reserved.cachedAt 64 = false ∧ reserved.hbm.retrains = [])
      ∧ (heldUnit.hbm.retrains = [⟨(heldUnit.placeOf 64).1, .errorRate, 0, .full⟩] ∧ heldUnit.hbm.queue = [] ∧ heldUnit.cachedAt 64 = false
        ∧ heldUnit.bandLive (bandOf 64) = true) := by decide +kernel

/-- Bay 3 with that request, the first table open to every class. -/
def mayRead : State :=
  ((slotWith getHbm).setReg (RegId.MSC_ACC_A.addr 0 0) (BitVec.allOnes 64)).setReg (RegId.MSC_ACC_A.addr 0 0 + 8) 0x00FFFFFF00000000

theorem witness_MemoryRequestsAreServed_bay :
    mayRead.clockOff = false ∧ (mayRead.bay 3).slot 0 = some getHbm
      ∧ getHbm.dev = mayRead.devCoord ∧ mayRead.cut 3 = false ∧ mayRead.hbm.retrains = [] ∧ (0 : BitVec 48).toNat = fieldOf getHbm.dest 0 48 + getHbm.moved
      ∧ mayRead.partReady 3 getHbm (.get 0 32) = true
      ∧ (mayRead.checkAccess (.group (mayRead.bayGroup 3)) mayRead.devCoord permR 0 32).2 = true := by
  decide +kernel

/-- A unit corrected and not yet written back. -/
def corrected : State := { running with hbm := { running.hbm with writeback := [(2, List.replicate 32 7)] } }

theorem witness_ScrubWritebackAndRefresh :
    (corrected.hbm.writeback.find? (fun e => e.1 == 64 / 32) = some (2, List.replicate 32 7) ∧ corrected.hbm.line (64 / 32 / 8) = none)
      ∧ (regionOf 64 = .hbm ∧ running.bandLive (bandOf 64) = true ∧ running.devState ≠ stHOLD ∧ running.hbm.retrains = []
        ∧ running.hbm.open_ = [] ∧ running.hbm.scrub = none ∧ running.getF Fld.HBM_SCRUB_INTERVAL ≠ 0
        ∧ running.trainOf (running.placeOf 64).1 ≠ .dead ∧ 2 ∉ running.hbmBad ∧ rsDecode [(0, 1)] = some (some (0, 1))
        ∧ Safety.handedOver running)
      ∧ ((dev stHOLD).devState = stHOLD ∧ 7 ∉ (dev stHOLD).hbm.selfRefresh) := by unfold Safety.handedOver; decide +kernel

/-- A retraining in progress; a fold that waits, and one in progress at its first piece. -/
def retraining : State := { running with hbm := { running.hbm with retrains := [⟨255, .errorRate, 0, .full⟩] } }
def foldWaits : State := { running.setF Fld.HBM_FOLD_CTRL_AUTO 1 with hbm := { running.hbm with waiting := [255] } }
def folding (n : Nat) : State := { running with hbm := { running.hbm with fold := some ⟨255, [⟨255, 255, 0, 0⟩], n⟩ } }

theorem witness_RetrainingAndFolding :
    (running.trainOf 255 ≠ .dead ∧ running.hbm.retrains = [] ∧ running.mustRetrain 255 .marginPlan = true
        ∧ running.mustRetrain 255 .errorRate = false)
      ∧ (retraining.hbm.retrains.find? (fun r => r.pc == 255) = some ⟨255, .errorRate, 0, .full⟩ ∧ retraining.retrainCmd 255 = none
        ∧ retraining.hbm.queue = [] ∧ retraining.host.late = [] ∧ Safety.handedOver retraining)
      ∧ (foldWaits.hbm.fold = none ∧ foldWaits.hbm.waiting.head? = some 255 ∧ foldWaits.getF Fld.HBM_FOLD_CTRL_AUTO = 1
        ∧ foldWaits.getF Fld.HBM_CAP_FOLDS < 16 ∧ Safety.handedOver foldWaits ∧ memWf foldWaits.mem = true)
      ∧ ((folding 0).hbm.fold = some ⟨255, [⟨255, 255, 0, 0⟩], 0⟩ ∧ [(⟨255, 255, 0, 0⟩ : SliceEntry)][0 / 256]? = some ⟨255, 255, 0, 0⟩
        ∧ (folding 0).devState ≠ stHOLD ∧ (folding 0).hbm.lines = [] ∧ (folding 0).hbmBad = [] ∧ (folding 0).trainOf 255 ≠ .dead
        ∧ (folding 0).running 0x31 = none ∧ 0 + 1 ≠ 256 * 1)
      ∧ ((folding 255).hbm.fold = some ⟨255, [⟨255, 255, 0, 0⟩], 255⟩ ∧ 255 + 1 = 256 * 1) := by
  unfold Safety.handedOver; decide +kernel

/-- The last segment and band, in READY unchanged and changed; in RUN. -/
theorem witness_SegmentsAndBandsChange :
    (Safety.reaches (dev stREADY) .msc .LLS_SEG 63 0 0 ∧ Safety.reaches (dev stREADY) .msc .LLS_SEG 63 0 1
        ∧ (dev stREADY).getF (Fld.LLS_SEG_BUSY 63) = 0 ∧ memWf (dev stREADY).mem = true
        ∧ (fieldOf 0 0 1 : Nat) ≠ fieldOf 1 0 1)
      ∧ (Safety.reaches (dev stREADY) .msc .HBM_BAND 255 0 3 ∧ (dev stREADY).getF (Fld.HBM_BAND_BUSY 255) = 0) := by
  unfold Safety.reaches; decide +kernel

theorem witness_SegmentsAndBandsChange_refused :
    (running.devState ≠ stREADY ∧ Safety.reaches running .msc .LLS_SEG 63 0 1 ∧ Safety.reaches running .msc .HBM_BAND 255 0 3
        ∧ running.regChanges .HBM_BAND 255 0 3 = true
        ∧ running.regChanges .LLS_SEG 63 0 (BitVec.ofNat 64 (1 - running.getF (Fld.LLS_SEG_MODE 63))) = true) := by
  unfold Safety.reaches; decide +kernel

end Sys2Proof.Tests
end

