-- ==== Sys2Proof/Tests/Witness4.lean ====
section
/-! SUPPORT. For each statement about pairs and light, a state and operands that meet its hypotheses, clause by clause. -/

namespace Sys2Proof.Tests

set_option Elab.async false

open Machine

/-! ### Pairs -/

/-- A state with the fabric changed. -/
def withFab (f : Fabric → Fabric) : State := { running with fab := f running.fab }

/-- A table open to every class. -/
def opened (s : State) (t : Nat) : State :=
  (s.setReg (RegId.MSC_ACC_A.addr t 0) (BitVec.allOnes 64)).setReg (RegId.MSC_ACC_A.addr t 0 + 8) 0x00FFFFFF00000000

/-- The device receives from device 1, expecting `q`; device 1 may reach bay 4. -/
def hears (q : BitVec 16) : State :=
  opened ((withFab fun f => { f with dsts := [⟨1, 0, q, [], [], 0⟩] }).setFs
    [(Fld.MSC_PEER_RANGE_EN 0, 1), (Fld.MSC_PEER_RANGE_LO 0, 1), (Fld.MSC_PEER_RANGE_HI 0, 1)]) 84

/-- A store of 8 bytes at the end of bay 4. -/
def store8 (q : BitVec 16) : Packet :=
  { pkt 0 with seq := q, addr := BitVec.ofNat 48 (bayAddr 4 0xFFFF8), plen := 1, payload := data8 }

theorem witness_SequencedPackets_arrival :
    ((store8 9).type = 0 ∧ devOf (store8 9).dst = (hears 9).devCoord ∧ (hears 9).fab.dst (devOf (store8 9).src) = some ⟨1, 0, 9, [], [], 0⟩
        ∧ (store8 9).pinc = 0 ∧ Safety.handedOver (hears 9) ∧ (store8 9).seq = 9 ∧ (hears 9).fab.amoWait = []
        ∧ (hears 9).served (store8 9).addr.toNat 8 = true ∧ (hears 9).ecc1 = [] ∧ (hears 9).ecc2 = []
        ∧ bayAddr 0 0 ≤ (store8 9).addr.toNat ∧ (store8 9).addr.toNat + 8 ≤ bayAddr 1023 0x100000
        ∧ (hears 9).inPeerSlot (store8 9).addr.toNat 8 = false ∧ (hears 9).cutRange (store8 9).addr.toNat 8 = false
        ∧ (hears 9).refusal (store8 9) permW 8 = (hears 9, cDONE))
      ∧ ((hears 9).devState ≠ stHELD ∧ (hears 9).ledgerPacket { store8 9 with epoch := 1 } 8 = false
        ∧ ({ store8 9 with epoch := 1 } : Packet).epoch ≠ BitVec.ofNat 32 ((hears 9).getF Fld.ABR_EPOCH_CURRENT))
      ∧ ((store8 8).seq ≠ 9 ∧ seqCovered (store8 8).seq (9 - 1) = true)
      ∧ ((store8 10).seq ≠ 9 ∧ seqCovered (store8 10).seq (9 - 1) = false) := by
  unfold Safety.handedOver; decide +kernel

/-- The pair to device 1 with a chunk packet sent as SEQ 0, and one of the Ledger. -/
def chunkReq : Req :=
  { org := .chunk 3 5 9 0 0 false, type := 2, srcEp := 3, dstEp := 3, addr := 0, len := 8, data := bayAddr 3 0, given := data8, hdr := [], slot := 0 }
def pairTo (r : Req) : PairSrc :=
  { dev := 1, pinc := 0, next := 1, opens := false, unheard := true, window := 32, unacked := [(0, r)], waiting := [], broken := false
    roundEnd := 0, echoed := false, last := 0 }
def sends (x : PairSrc) : State := withFab fun f => { f with srcs := [x] }
/-- A hem to device 1 that has sent its first store, a packet of the pair. -/
def hem1 : HemJob := ⟨none, coordOf 1 0, 0, 25, [], 0, 0, true, false, none⟩
def hemReq : Req := { chunkReq with org := .ledger .hem }
def hemSends : State := { sends (pairTo hemReq) with ldg := { running.ldg with hem := some hem1 } }

def ackOf (ece : BitVec 1) : Packet := { pkt 5 with ece := ece, status := cDONE }

theorem witness_SequencedPackets_pair :
    (devOf (ackOf 1).dst = (sends (pairTo chunkReq)).devCoord
        ∧ (sends (pairTo chunkReq)).fab.src (devOf (ackOf 1).src) = some (pairTo chunkReq) ∧ (pairTo chunkReq).pinc = (ackOf 1).pinc
        ∧ (pairTo chunkReq).window ≤ 128 ∧ (sends (pairTo chunkReq)).fab.stalled = [] ∧ Safety.handedOver (sends (pairTo chunkReq))
        ∧ seqCovered 0 (ackOf 1).ackSeq = true ∧ chunkReq.org = .chunk 3 5 9 0 0 false ∧ (pairTo chunkReq).echoed = false)
      ∧ ((sends (pairTo chunkReq)).payloadOf chunkReq = (sends (pairTo chunkReq), cDONE, data8)
        ∧ (sends (pairTo chunkReq)).reqWaits chunkReq = false)
      ∧ (hemSends.fab.src 1 = some (pairTo hemReq) ∧ Safety.handedOver hemSends ∧ hemSends.openColls = [] ∧ hemSends.fab.stalled = []
        ∧ hemSends.ldg.hem = some hem1 ∧ hem1.fail = none ∧ hemReq.org = .ledger .hem ∧ hemSends.getF Fld.ABR_FAB_ERR_VALID = 0)
      ∧ (sends { pairTo chunkReq with unacked := [], broken := true }).fab.src 1 = some { pairTo chunkReq with unacked := [], broken := true } := by
  unfold Safety.handedOver; decide +kernel

/-- A GET and an AMO of bay 3 to device 1. -/
def farSlot (k : MsgKind) (len : Nat) : Slot := { slotOf k with dest := 0x8001000000000000, dev := 1, len := len }
def atom (tomb : Bool) : AtomRec := ⟨0, 1, 3, 0, 0, tomb, false, cDONE, 7, 0⟩

theorem witness_RemoteReadsAndAtomics_requester :
    ((pkt 4).dst = coordOf (slotWith (farSlot .get 2049)).devCoord 3 ∧ (slotWith (farSlot .get 2049)).clockOff = false
        ∧ Safety.handedOver (slotWith (farSlot .get 2049)) ∧ ((slotWith (farSlot .get 2049)).bay 3).slot 0 = some (farSlot .get 2049)
        ∧ (pkt 4).addr.toNat < 2049 ∧ 0 + min 2048 (2049 - 0) < 2049 ∧ 0 ∉ (farSlot .get 2049).pieces
        ∧ 0 ∈ ({ farSlot .get 2049 with pieces := [0] } : Slot).pieces)
      ∧ ((farSlot .get 2049).dev ≠ (slotWith (farSlot .get 2049)).devCoord
        ∧ (slotWith (farSlot .get 2049)).fab.reqsLeft (.msg 3 0 (farSlot .get 2049).ord) = false)
      ∧ ((slotWith (farSlot .amo 8)).amoSlot 3 0 = some (farSlot .amo 8) ∧ (farSlot .amo 8).refused = false ∧ (farSlot .amo 8).acks = []
        ∧ (farSlot .amo 8).sends < 9 ∧ (slotWith (farSlot .amo 8)).now < (farSlot .amo 8).first + 2000000
        ∧ (slotWith (farSlot .amo 8)).fab.reqsLeft (.msg 3 0 (farSlot .amo 8).ord) = false ∧ (slotWith { farSlot .amo 8 with sends := 9 }).amoSlot 3 0 = some { farSlot .amo 8 with sends := 9 })
      ∧ ((pkt 7).dst = coordOf (slotWith (farSlot .amo 8)).devCoord 3 ∧ (farSlot .amo 8).gen = (pkt 7).gen ∧ (farSlot .amo 8).len = 8
        ∧ (farSlot .amo 8).forColl = none ∧ (slotWith (farSlot .amo 8)).clockOff = false) := by
  unfold Safety.handedOver; decide +kernel

/-- An AMO_REQ of slot 0 of bay 3 of device 1. -/
def amoReq : Packet := { pkt 6 with smark := 0xFFFF }

theorem witness_RemoteReadsAndAtomics_serving :
    (devOf amoReq.dst = running.devCoord ∧ running.amoReady amoReq = true ∧ atomHeader amoReq = 0)
      ∧ ((withFab fun f => { f with atoms := [atom false] }).fab.atoms.find? (fun x => x.is 0 (devOf amoReq.src) (epOf amoReq.src) amoReq.slot)
        = some (atom false) ∧ (atom false).gen = amoReq.gen)
      ∧ (running.fab.atoms.find? (fun x => x.is 0 (devOf amoReq.src) (epOf amoReq.src) amoReq.slot) = none ∧ running.logUsed 0 < 8192
        ∧ running.amoReady { amoReq with epoch := 1 } = true
        ∧ (running.takeArrived { amoReq with epoch := 1 }).refusal { amoReq with epoch := 1 } permA 8
          = (running.takeArrived { amoReq with epoch := 1 }, cEPOCH_STALE))
      ∧ (8192 ≤ (withFab fun f => { f with atoms := List.replicate 8192 { atom false with bay := 4 } }).logUsed 0)
      ∧ ((atom false).is (atomHeader (pkt 8)) (devOf (pkt 8).src) (epOf (pkt 8).src) (pkt 8).slot = true
        ∧ (withFab fun f => { f with atoms := [atom false] }).tombs (atomHeader (pkt 8)) < 65536)
      ∧ ∀ x ∈ (withFab fun f => { f with atoms := [atom true] }).fab.atoms, x.parked = false := by
  decide +kernel

/-! ### Light -/

/-- Port 15 up with lane 0 in a state of `OPT_LANE`, at rung 2 both ways. -/
def lane15 (st : Nat) : State :=
  running.setFs [(Fld.ABR_PORT_STATUS_UP 15, 1), (Fld.OPT_LANE_STATE 15 0, st), (Fld.OPT_LANE_RUNG 15 0, 2), (Fld.OPT_LANE_TX_RUNG 15 0, 2)]

theorem witness_LanesAndLadders :
    ((lane15 2).portUp 15 = true ∧ (lane15 2).laneState 15 0 = 2 ∧ (1 : Fin 4).val ≠ (lane15 2).getF (Fld.OPT_LANE_TX_RUNG 15 0))
      ∧ ((lane15 4).laneDrains 15 0 = true ∧ (lane15 4).opt.due = [] ∧ (lane15 4).opt.leaving = []
        ∧ ({ lane15 4 with opt := { (lane15 4).opt with leaving := [(240, true)] } } : State).opt.leaving.find? (fun x => x.1 == laneKey 15 0)
          = some (laneKey 15 0, true))
      ∧ ((lane15 4).laneState 15 0 = 4 ∧ (lane15 4).getF (Fld.OPT_LANE_RUNG 15 0) ≠ 0 ∧ (lane15 4).swapLaser (15 / 2) = none
        ∧ ∀ v : Fin 16, v ≠ 0 → (lane15 4).laneDrains 15 v = false)
      ∧ ((lane15 2).changing 15 = false ∧ (lane15 2).getF (Fld.OPT_LANE_RUNG 15 0) = 2
        ∧ ((lane15 2).setF (Fld.OPT_LANE_RUNG 15 0) 3).getF (Fld.OPT_LANE_RUNG 15 0) = 3)
      ∧ (running.portUp 14 = false ∧ running.portUp 15 = false)
      ∧ (running.getF (Fld.ABR_PORT_STATUS_DOWN 15) = 0 ∧ laneKey 15 0 ∉ running.store.gone ∧ running.ringsOut (15 / 2) (laneNo 15 0) = false
        ∧ running.swapLaser (15 / 2) = none ∧ running.opt.due = [])
      ∧ ((lane15 2).setFs [(Fld.OPT_LANE_STATE 15 1, 4), (Fld.OPT_LANE_RUNG 15 1, 2)]).changing 15 = true := by decide +kernel

/-- A ring of engine 7. -/
def ringAt (r : Nat) (x : RingState) : State := running.setRing 7 r x

/-- Laser 0 of engine 7 in a state, patch laser 3 spare. -/
def laser7 (st : Nat) : State := running.setFs [(Fld.OPT_LASER_STATE 7 0, st), (Fld.OPT_LASER_STATE 7 36, 5)]

/-- A swap of laser `l` of engine 7 at a step. -/
def swap7 (l step : Nat) : State :=
  { running.setFs [(Fld.OPT_PATCH_PROG_STEP 7, step)] with opt := { running.opt with swapOf := [(7, some l)] } }

theorem witness_RingsLasersAndCircuits_lasers :
    ((ringAt 100 .locked).ring 7 100 = .locked ∧ (ringAt 100 .lost).ring 7 100 = .lost
        ∧ (ringAt 95 (.sweeping 0)).ring 7 95 = .sweeping 0 ∧ (ringAt 95 (.sweeping 1)).ring 7 95 = .sweeping 1
        ∧ [(0 : Fin 17)].find? (fun t => t.val != ringTarget 100) = some 0)
      ∧ ((laser7 2).laserState 7 0 = 2 ∧ (laser7 3).laserState 7 0 = 3 ∧ (laser7 3).spare 7 = some 3 ∧ (laser7 3).swapLaser 7 = none
        ∧ (laser7 3).swapWait 7 = [])
      ∧ ((swap7 31 5).swapLaser 7 = some 31 ∧ (swap7 31 5).ringsOut 7 31 = false ∧ (swap7 31 5).portUp (portOf 7 31) = false
        ∧ (swap7 31 5).swapPauses 7 31 = false ∧ (swap7 31 5).opt.due = []
        ∧ (swap7 31 4).getF (Fld.OPT_PATCH_PROG_STEP 7) = 4 ∧ (swap7 31 5).getF (Fld.OPT_PATCH_PROG_STEP 7) = 5
        ∧ (swap7 31 5).swapWait 7 = [] ∧ (swap7 31 5).getF Fld.OPT_CIRCUIT_STATE ≠ 1)
      ∧ ((swap7 32 3).swapLaser 7 = some 32 ∧ (swap7 32 3).getF (Fld.OPT_PATCH_PROG_STEP 7) = 3
        ∧ (swap7 32 3).swapWait 7 = [] ∧ (swap7 32 3).getF Fld.OPT_CIRCUIT_STATE ≠ 1)
      ∧ (smapGet (fun _ => []) ({ running with opt := { running.opt with expressQ := [(7, [1])] } } : State).opt.expressQ 7 = [1]
        ∧ running.swapLaser 7 ≠ some 32) := by decide +kernel

/-- A circuit change in a state, naming port 15. -/
def circuit (st : Nat) : State := running.setFs [(Fld.OPT_CIRCUIT_STATE, st), (Fld.OPT_CIRCUIT_PORTS, 0x8000)]

/-- One that started at reset and has run out of time. -/
def circuitLate : State := { (circuit 2).setF Fld.SCR_COUNT_COUNT 5000000 with opt := { running.opt with circuitAt := some 0 } }

theorem witness_RingsLasersAndCircuits_circuit :
    (Safety.reaches (dev stREADY) .msc .OPT_CIRCUIT 0 0 (withBit Fld.OPT_CIRCUIT_START 0x8000) ∧ Safety.handedOver (dev stREADY)
        ∧ (dev stREADY).circuitOpen = true)
      ∧ (Safety.reaches running .msc .OPT_CIRCUIT 0 0 (withBit Fld.OPT_CIRCUIT_START 0x8000) ∧ running.circuitOpen = false
        ∧ running.regChanges .OPT_CIRCUIT 0 0 (withBit Fld.OPT_CIRCUIT_START 0x8000) = true)
      ∧ ((circuit 1).getF Fld.OPT_CIRCUIT_STATE = 1 ∧ (circuit 1).getF Fld.OPT_CIRCUIT_MARK_MARK ≤ (circuit 1).now
        ∧ (circuit 1).opt.swapOf = [] ∧ (circuit 1).devState ≠ stHOLD ∧ (circuit 1).getF Fld.OPT_CIRCUIT_PORTS ≠ 0 ∧ ((circuit 1).getF Fld.OPT_CIRCUIT_PORTS).testBit 15 = true
        ∧ laneKey 15 0 ∉ (circuit 1).store.gone)
      ∧ (circuitLate.opt.circuitAt = some 0 ∧ circuitLate.getF Fld.OPT_CIRCUIT_STATE = 2 ∧ 0 + 5000000 ≤ circuitLate.now
        ∧ circuitLate.running 0x33 = none) := by
  unfold Safety.reaches Safety.handedOver; decide +kernel

end Sys2Proof.Tests
end

