-- ==== Sys2Proof/Tests/Witness5.lean ====
section
/-! SUPPORT. For each statement about the scribe timebase, the Ledger, plumb mode and epochs, a state and operands that meet its
hypotheses, clause by clause. -/

namespace Sys2Proof.Tests

set_option Elab.async false

open Machine

/-! ### The scribe timebase and the calendar -/

/-- A follower of port 0, which is up with its reserved space and credit. -/
def follower : State :=
  ((portUp0.setFs [(Fld.SCR_SYNC_ROLE, 2), (Fld.SCR_SYNC_PARENT, 0)]).setPort 0 { portUp0.port 0 with shared := 2 }).updScr fun x =>
    { x with sinceSlew := 2047, owe := some 8, sent := [(9, 100)], outside := 16 }

/-- A command of ring 0 at a stage. -/
def cmdAt (op : Nat) (stage : CmdStage) : HostCmd := { cmdOf 1 0 (List.replicate 64 0) with op := op, stage := stage }

/-- A device in a state that holds a command. -/
def withCmd (st : Nat) (c : HostCmd) : State := { dev st with host := { (dev st).host with cmds := [c] } }

theorem witness_ScribeAndCalendar :
    (running.getF Fld.SCR_STATUS_REF_SRC = 0 ∧ ((-20000 : Int).natAbs ≤ 20000))
      ∧ (follower.scribeRuns = true ∧ follower.fab.stalled = [] ∧ 2047 ≤ follower.scr.sinceSlew
        ∧ follower.slews 2 = true ∧ follower.slews 0 = false)
      ∧ (follower.portUp (follower.getF Fld.SCR_SYNC_PARENT) = true ∧ 2 ≤ (follower.port 0).shared
        ∧ fieldOf ([packWord [(56, 1)]].getD 0 0) 56 8 = 1)
      ∧ (fieldOf (packWord [(56, 2), (40, 9)]) 56 8 = 2 ∧ ((packWord [(56, 2), (40, 9)]).extractLsb' 40 16, (100 : Word)) ∈ follower.scr.sent
        ∧ follower.scr.rtts = [] ∧ follower.scr.offs.length < 7)
      ∧ follower.degradedCause .offsetOutside = true
      ∧ ((withCmd stRUN (cmdAt 0x20 .launch)).launchQueue = [cmdAt 0x20 .launch] ∧ (withCmd stRUN (cmdAt 0x20 .launch)).ringsRun = true
        ∧ (withCmd stRUN (cmdAt 0x20 .launch)).devState ≠ stHOLD ∧ (cmdAt 0x20 .launch).mark.toNat ≤ (withCmd stRUN (cmdAt 0x20 .launch)).now) := by
  decide +kernel

theorem witness_ScribeAndCalendar_set :
    (Safety.reaches (dev stREADY) .msc .SCR_SET 0 0 7 ∧ Safety.handedOver (dev stREADY) ∧ (dev stREADY).launchQueue = []
        ∧ (dev stREADY).getF Fld.OPT_CIRCUIT_STATE ≠ 1 ∧ (dev stREADY).getF Fld.ABR_EPOCH_CTRL_STATE ≠ 1)
      ∧ (Safety.reaches running .msc .SCR_SET 0 0 7 ∧ running.devState ≠ stREADY) := by
  unfold Safety.reaches Safety.handedOver; decide +kernel

theorem witness_ScribeAndCalendar_noWait (b : BayId) (t : Thread) (m : Word) (g : BitVec 5) : ((dev stREADY).thr b t).waitFor ≠ .scribe m g := by
  cases t <;> exact fun h => nomatch h

/-- The calendar running with its alarm armed at the next tick; with a latch armed; a device whose inputs are both lost. -/
def alarm : State := running.setF Fld.SCR_CAL_STATUS_ARMED 1
def latching : State := running.updScr fun x => { x with latchArmed := true }

theorem witness_ScribeAndCalendar_calendar :
    (running.power.calOn = true ∧ running.getF Fld.SCR_CAL_STATUS_ARMED = 0 ∧ running.scr.latchArmed = false)
      ∧ (alarm.getF Fld.SCR_CAL_STATUS_ARMED = 1 ∧ alarm.getF Fld.SCR_CAL_ALARM_ALARM ≤ (alarm.reg RegId.SCR_CAL.addr + 2).toNat
        ∧ alarm.mgmt.events.length < 64 ∧ alarm.devState ≠ stPATROL ∧ alarm.devState ≠ stOFF)
      ∧ (latching.scr.latchArmed = true ∧ latching.getF Fld.SCR_CAL_STATUS_ARMED = 0)
      ∧ ((running.power.aux = false → running.power.v48 = true)
        ∧ (running.power.aux = true → running.power.charging = true → running.power.cell = cellFull))
      ∧ (let s := running.updPower fun p => { p with aux := false, v48 := false, cell := 1 }
         s.power.aux = false ∧ s.power.v48 = false ∧ s.power.calOn = true)
      ∧ Safety.reaches running .msc .SCR_LATCH 0 0 (withBit Fld.SCR_LATCH_GO 0) := by
  unfold Safety.reaches; decide +kernel

/-! ### The Ledger -/

/-- One region of 8 bytes of bay memory in class 3, and one secure region; a reserve of 1 GiB for itself and 1 for the peer. -/
def regions (st : Nat) : State :=
  (dev st).setFs [(Fld.LDG_REGION_A_EN 63, 1), (Fld.LDG_REGION_A_CLASS 63, 3), (Fld.LDG_REGION_A_BASE 63, bayAddr 0 0),
    (Fld.LDG_REGION_B_LENGTH 63, 8), (Fld.LDG_SEC_A_EN 0, 1), (Fld.LDG_SEC_A_BASE 0, bayAddr 0 0), (Fld.LDG_SEC_B_LENGTH 0, 8),
    (Fld.LDG_RES_BASE, 1), (Fld.LDG_RES_LOCAL_GIB, 1), (Fld.LDG_RES_PEER_GIB, 1)]

/-- The leaf of those bytes, and a digest of it in progress. -/
def leaf8 : Leaf := ⟨63, bayAddr 0 0, 8⟩
def digesting (l : List Leaf) : State := (regions stRUN).updLdg fun x => { x with digest := some ⟨3, l, 2, []⟩ }

/-- A baste in a state with its leaves. -/
def baste (st : Nat) (l : List Leaf) : State := (running.setF Fld.LDG_BASTE_STATUS_STATE st).updBaste fun b => { b with leaves := l }

theorem witness_StepsDigestsAndBastes_digest :
    (Safety.reaches (dev stRUN) .msc .LDG_STEP 0 0 (withBit Fld.LDG_STEP_ADV 0) ∧ Safety.handedOver (dev stRUN)
        ∧ (dev stRUN).getF Fld.MSC_LEASE_STATE ≠ 2 ∧ (dev stRUN).getF Fld.LDG_BASTE_CTRL_EN = 0
        ∧ Safety.reaches (dev stREADY) .msc .LDG_STEP 0 0 (withBit Fld.LDG_STEP_ADV 0)) := by
  unfold Safety.reaches Safety.handedOver; decide +kernel

theorem witness_StepsDigestsAndBastes_start :
    (Safety.reaches (regions stRUN) .msc .LDG_DIGEST_CTRL 0 0 (withBit Fld.LDG_DIGEST_CTRL_START 3) ∧ fieldOf 3 0 3 = 3
        ∧ (regions stRUN).ldg.digest = none ∧ (regions stRUN).regionsOf 3 = [63] ∧ (regions stRUN).writtenDigest 63 = none
        ∧ (regions stRUN).inMemory ((regions stRUN).regionAt 63).1 ((regions stRUN).regionAt 63).2 = true)
      ∧ (Safety.reaches (digesting [leaf8]) .msc .LDG_DIGEST_CTRL 0 0 (withBit Fld.LDG_DIGEST_CTRL_START 3) ∧ (digesting [leaf8]).ldg.digest ≠ none) := by
  unfold Safety.reaches; decide +kernel

theorem witness_StepsDigestsAndBastes_leaf :
    ((baste 2 [leaf8, leaf8]).ownRead 3 leaf8.addr leaf8.len = (baste 2 [leaf8, leaf8], cDONE, List.replicate 8 0)
        ∧ (baste 2 [leaf8, leaf8]).ldg.baste.leaves = [leaf8, leaf8] ∧ (baste 2 [leaf8, leaf8]).basteState = 2
        ∧ (baste 2 [leaf8, leaf8]).getF Fld.LDG_BASTE_CTRL_PART_EN = 0 ∧ Safety.handedOver (baste 2 [leaf8, leaf8])
        ∧ Safety.handedOver (digesting [leaf8, leaf8]) ∧ Safety.handedOver (digesting [leaf8]))
      ∧ ((digesting [leaf8, leaf8]).ownRead 3 leaf8.addr leaf8.len = (digesting [leaf8, leaf8], cDONE, List.replicate 8 0)
        ∧ (digesting [leaf8, leaf8]).ldg.baste.leaves = [] ∧ (digesting [leaf8, leaf8]).ldg.digest = some ⟨3, [leaf8, leaf8], 2, []⟩
        ∧ (digesting [leaf8, leaf8]).running 0x23 = none)
      ∧ ((digesting [leaf8]).ownRead 3 leaf8.addr leaf8.len = (digesting [leaf8], cDONE, List.replicate 8 0)
        ∧ (digesting [leaf8]).ldg.digest = some ⟨3, [leaf8], 2, []⟩) := by unfold Safety.handedOver; decide +kernel

/-- A write that forces a baste at a rate of 1 % and a page count of 4,096. -/
def force : Word := packWord [(16, 1), (0, 4096)]

theorem witness_StepsDigestsAndBastes_force :
    (Safety.reaches running .msc .LDG_BASTE_CTRL 0 0 (withBit Fld.LDG_BASTE_CTRL_FORCE force) ∧ running.basteState ≠ 3
        ∧ 1 ≤ fieldOf force 16 8 ∧ fieldOf force 16 8 ≤ 100 ∧ 1 ≤ fieldOf force 0 13 ∧ fieldOf force 0 13 ≤ 4096 ∧ running.noThread = false)
      ∧ (Safety.reaches (regions stRUN) .msc .LDG_BASTE_CTRL 0 0 (withBit Fld.LDG_BASTE_CTRL_FORCE force) ∧ (regions stRUN).basteState ≠ 3
        ∧ (regions stRUN).noThread = true ∧ (regions stRUN).basteRuns = false ∧ (regions stRUN).ldg.hem = none
        ∧ (regions stRUN).slotIsRead = false
        ∧ (regions stRUN).regionsOk (regions stRUN).secRegions = true ∧ (regions stRUN).reserve.1 < (regions stRUN).reserve.2.2
        ∧ (regions stRUN).mapped (regions stRUN).reserve.1 ((regions stRUN).reserve.2.2 - (regions stRUN).reserve.1) = true
        ∧ slotBytes (regions stRUN).secRegions ≤ (regions stRUN).reserve.2.1 - (regions stRUN).reserve.1) := by
  unfold Safety.reaches; decide +kernel

/-- A baste that copies that region; one that copies a region of no address. -/
def copying (base : Nat) : State :=
  ((regions stRUN).setF Fld.LDG_BASTE_STATUS_STATE 1).updBaste fun b => { b with head := [1], regions := [⟨base, 8, 8192, false, []⟩] }

/-- The state and code of that copy, and of the write of the manifest's head after it. -/
def copied (base : Nat) : State × Code := copyRegions (copying base).reserve.1 (copying base).ldg.baste.regions (copying base)
def headed : State × Code := (copied (bayAddr 0 0)).1.ownWrite 3 (copied (bayAddr 0 0)).1.reserve.1 [1]

theorem witness_StepsDigestsAndBastes_copy :
    ((copying (bayAddr 0 0)).basteState = 1 ∧ (copying (bayAddr 0 0)).bays = [] ∧ (copied (bayAddr 0 0)).2 = cDONE ∧ headed.2 = cDONE
        ∧ headed.1.running 0x20 = none ∧ Safety.handedOver headed.1 ∧ headed.1.getF Fld.MSC_LEASE_STATE ≠ 2 ∧ headed.1.openColls = []
        ∧ (((copying (bayAddr 0 0)).ldg.baste.regions.flatMap fun r => leavesOf r.off (headed.1.reserve.1 + r.off) r.len) ≠ []))
      ∧ ((copied 0x01F200000000).2 ≠ cDONE ∧ (copied 0x01F200000000).1.host.cmds = [] ∧ Safety.handedOver (copied 0x01F200000000).1
        ∧ (copied 0x01F200000000).1.openColls = [] ∧ (copied 0x01F200000000).1.getF Fld.MSC_LEASE_STATE ≠ 2) := by
  unfold Safety.handedOver; decide +kernel

/-- The pair to device 1 with its window full, and bastes to it: one that trickles leaves, one that its partner refused, one whose
stores are all acknowledged; a hem of one piece. -/
def full1 : PairSrc := { pairTo chunkReq with window := 1 }
def trickling (l : List Leaf) (fail : Option Code) (closing : Bool) : State :=
  (((sends full1).setFs [(Fld.LDG_BASTE_STATUS_STATE, 3), (Fld.LDG_BASTE_CTRL_PARTNER, 1)])).updBaste fun b =>
    { b with trickle := l, begun := true, closing := closing, fail := fail }
def hemPiece : HemJob := ⟨none, coordOf 1 0, 0, 100, [(bayAddr 0 0, 8)], 8, 0, true, false, none⟩
def hemming : State := (sends full1).updLdg fun x => { x with hem := some hemPiece }

theorem witness_StepsDigestsAndBastes_trickle :
    (let s := trickling [leaf8, leaf8] none false
     s.basteState = 3 ∧ s.ldg.baste.leaves = [] ∧ s.host.cmds = [] ∧ Safety.handedOver s ∧ s.ldg.baste.trickle = [leaf8, leaf8]
        ∧ s.ownRead 3 leaf8.addr leaf8.len = (s, cDONE, List.replicate 8 0) ∧ s.fab.stalled = []
        ∧ s.fab.src (BitVec.ofNat 16 (s.getF Fld.LDG_BASTE_CTRL_PARTNER)) = some full1 ∧ full1.broken = false ∧ full1.waiting = []
        ∧ full1.window ≤ full1.unacked.length)
      ∧ ((trickling [] (some cRANGE) false).ldg.baste.fail = some cRANGE ∧ (trickling [] none true).ldg.baste.closing = true
        ∧ (trickling [] none true).fab.reqsLeft (.ledger .baste) = false)
      ∧ running.now < running.ldg.nbrAt + 60000000000
      ∧ (hemming.ldg.hem = some hemPiece ∧ hemming.host.cmds = [] ∧ Safety.handedOver hemming
        ∧ hemming.fab.src (devOf hemPiece.coord) = some full1
        ∧ hemming.ownRead 3 (bayAddr 0 0) 8 = (hemming, cDONE, List.replicate 8 0)) := by unfold Safety.handedOver; decide +kernel

/-! ### Plumb mode -/

/-- Plumb mode in a state of `LDG_PLUMB`, changed. -/
def plumb (st : Nat) (f : Plumb → Plumb) : State := (running.setF Fld.LDG_PLUMB_STATE st).updLdg fun x => { x with plumb := f x.plumb }
def chunkP : PlumbChunk := ⟨3, 5, 9, 0, 0, 0, 7⟩
def stripP : PlumbStrip := ⟨0, 1, 1, 0, 255⟩

/-- Bay 3 with one strip completed. -/
def stripped : State := plumb 2 fun p => { p with bays := [(3, { PlumbBay.reset with count := 1, p := 1, ring := [(stripP, 0)] })] }

/-- A chunk of the device's own that the partner has not sent for 2,000,000 ticks, the partner heard since. -/
def unmatched : State :=
  (plumb 2 fun p => { p with table := [⟨chunkP, true, 0, 0⟩], heard := 1 }).setF Fld.SCR_COUNT_COUNT 2000000

theorem witness_PlumbMode :
    ((plumb 1 id).getF Fld.LDG_PLUMB_STATE = 1 ∧ (plumb 1 id).getF Fld.LDG_PLUMB_START_MARK ≤ (plumb 1 id).now
        ∧ ((List.replicate 8 (0 : Word)).flatMap fun w => leBytes 8 w.toNat) = (plumb 1 id).classDigest 0
        ∧ ((List.replicate 8 (1 : Word)).flatMap fun w => leBytes 8 w.toNat) ≠ (plumb 1 id).classDigest 0
        ∧ (plumb 1 id).getF Fld.LDG_PLUMB_REP0_VALID = 0)
      ∧ ((plumb 2 id).plumbing = true ∧ ((plumb 2 id).plumbBay 3).theirs = []
        ∧ (plumb 2 id).ldg.plumb.table.find? (fun x => x.own != false && keyOf x.chunk == keyOf chunkP) = none
        ∧ (plumb 2 id).ldg.plumb.table.length < 8192)
      ∧ (unmatched.plumbing = true ∧ unmatched.ldg.plumb.table.find? (fun x => x.own != false && keyOf x.chunk == keyOf chunkP)
          = some ⟨chunkP, true, 0, 0⟩ ∧ unmatched.now < unmatched.ldg.plumb.heard + 2000000
        ∧ unmatched.ldg.plumb.table.find? (fun e => e.chunk == chunkP && decide (e.since + 2000000 ≤ unmatched.now))
          = some ⟨chunkP, true, 0, 0⟩)
      ∧ ((stripped.plumbBay 3).ring.reverse.find? (fun e => decide ((stripped.plumbBay 3).matched ≤ e.1.n)
            && [({ stripP with check := 2 } : PlumbStrip)].any fun t => t.n == e.1.n && t.check != e.1.check) = some (stripP, 0)
        ∧ (stripped.plumbBay 3).ring.reverse.find? (fun e => decide ((stripped.plumbBay 3).matched ≤ e.1.n)
            && [stripP].any fun t => t.n == e.1.n && t.check != e.1.check) = none
        ∧ stripped.getF Fld.LDG_PLUMB_REP0_VALID = 0)
      ∧ ((plumb 2 id).getF Fld.LDG_PLUMB_STOP_MARK = 0 ∧ (plumb 2 id).ownStop < 2 ^ 64
        ∧ ((unmatched.setF Fld.LDG_PLUMB_STOP_MARK 65536).getF Fld.LDG_PLUMB_STOP_MARK ≠ 0
          ∧ (unmatched.setF Fld.LDG_PLUMB_STOP_MARK 65536).getF Fld.LDG_PLUMB_STOP_MARK ≤ unmatched.now
          ∧ (unmatched.setF Fld.LDG_PLUMB_STOP_MARK 65536).basteState ≠ 1 ∧ 3 ∈ unmatched.bays.map Prod.fst
          ∧ (unmatched.thr 3 .main).status.st = .run ∧ (unmatched.thr 3 .main).stop = none))
      ∧ ((unmatched.setF Fld.SCR_COUNT_COUNT 2000001).plumbing = true
        ∧ (unmatched.setF Fld.SCR_COUNT_COUNT 2000001).ldg.plumb.heard + 2000000 ≤ (unmatched.setF Fld.SCR_COUNT_COUNT 2000001).now) := by
  decide +kernel

/-! ### Epochs, leases and membership -/

/-- An epoch armed for a mark; a lease held, or in its grace. -/
def epochAt (st : Nat) : State := (dev st).setF Fld.ABR_EPOCH_CTRL_STATE 1
def leased (st lease : Nat) : State := (dev st).setFs [(Fld.MSC_LEASE_EN, 1), (Fld.MSC_LEASE_STATE, lease)]

theorem witness_EpochsLeasesAndMembership_epoch :
    (Safety.reaches ((dev stRUN).setF Fld.ABR_EPOCH_MARK_MARK 1) .msc .ABR_EPOCH_CTRL 0 0 (withBit Fld.ABR_EPOCH_CTRL_ARM 0)
        ∧ Safety.handedOver (dev stRUN) ∧ ((dev stRUN).setF Fld.ABR_EPOCH_MARK_MARK 1).epochOpen = true
        ∧ ((dev stRUN).setF Fld.ABR_EPOCH_MARK_MARK 1).now < ((dev stRUN).setF Fld.ABR_EPOCH_MARK_MARK 1).getF Fld.ABR_EPOCH_MARK_MARK)
      ∧ (Safety.reaches (epochAt stRUN) .msc .ABR_EPOCH_CTRL 0 0 (withBit Fld.ABR_EPOCH_CTRL_ARM 0) ∧ (epochAt stRUN).epochOpen = false)
      ∧ ((epochAt stRUN).getF Fld.ABR_EPOCH_CTRL_STATE = 1 ∧ (epochAt stRUN).getF Fld.ABR_EPOCH_MARK_MARK ≤ (epochAt stRUN).now
        ∧ Safety.handedOver (epochAt stRUN) ∧ (epochAt stRUN).devState ≠ stHOLD ∧ (epochAt stRUN).openColls = [] ∧ (epochAt stRUN).fab.early = []
        ∧ (epochAt stHOLD).devState = stHOLD) := by
  unfold Safety.reaches Safety.handedOver; decide +kernel

theorem witness_EpochsLeasesAndMembership_lease :
    ((leased stRUN 1).getF Fld.MSC_LEASE_EN = 1 ∧ (leased stRUN 1).getF Fld.MSC_LEASE_STATE = 1 ∧ (leased stRUN 1).devState = stRUN
        ∧ (leased stRUN 1).ldg.hem = none ∧ (leased stRUN 1).basteState ≠ 3 ∧ (leased stRUN 1).mgmt.events.length < 64
        ∧ (leased stREADY 1).devState = stREADY)
      ∧ ((leased stRUN 2).getF Fld.MSC_LEASE_STATE = 2 ∧ (leased stRUN 2).basteState ≠ 1 ∧ (leased stRUN 2).openColls = []
        ∧ (leased stRUN 2).host.job = none ∧ Safety.handedOver (leased stRUN 2)) := by
  unfold Safety.handedOver; decide +kernel

/-- A device in a state with a request of a command. -/
def asked (st cmd : Nat) (p : List Byte) : State := { dev st with mgmt := { (dev st).mgmt with req := some (cmd, 1, p) } }

/-- LEASE with the shortest length and the longest grace, with EN clear, too short, and too long; RENEW, EXPEL, QUARANTINE, RELEASE. -/
theorem witness_EpochsLeasesAndMembership_commands :
    (∀ p ∈ [[1, 0, 100, 0, 0x10, 0x27], [0, 0, 0, 0, 0, 0], [1, 0, 99, 0, 0, 0], [1]], Safety.requested (asked stRUN 0x10 p) 0x10 1 p)
      ∧ (orDefault (payBits [1, 0, 100, 0, 0x10, 0x27] 31 16) 2000 = 100 ∧ orDefault (payBits [1, 0, 100, 0, 0x10, 0x27] 47 32) 500 = 10000
        ∧ payBits [1, 0, 100, 0, 0x10, 0x27] 0 0 = 1 ∧ payBits [0, 0, 0, 0, 0, 0] 0 0 = 0
        ∧ orDefault (payBits [1, 0, 99, 0, 0, 0] 31 16) 2000 < 100) := by
  unfold Safety.requested; decide +kernel

theorem witness_EpochsLeasesAndMembership_members :
    Safety.requested { leased stHELD 3 with mgmt := (asked stHELD 0x11 []).mgmt } 0x11 1 []
      ∧ (Safety.requested (asked stRUN 0x12 []) 0x12 1 [] ∧ (asked stRUN 0x12 []).basteState ≠ 1 ∧ (asked stRUN 0x12 []).host.job = none
        ∧ (asked stRUN 0x12 []).openColls = [] ∧ Safety.handedOver (asked stRUN 0x12 []))
      ∧ Safety.requested (asked stRUN 0x13 []) 0x13 1 [] ∧ Safety.requested (asked stQUARANTINE 0x14 []) 0x14 1 [] := by
  unfold Safety.requested Safety.handedOver; decide +kernel

end Sys2Proof.Tests
end

