-- ==== Sys2Proof/Tests/Witness6.lean ====
section
/-! SUPPORT. For each statement about the host interface, a state and operands that meet its hypotheses, clause by clause. -/

namespace Sys2Proof.Tests

set_option Elab.async false

open Machine

/-! ### Rings and records -/

/-- Rings of four entries enabled, number 15 and its completion ring 0, with a descriptor to fetch. -/
def ringed : State :=
  (dev stREADY).setFs [(Fld.MSC_SQ_CFG_EN 15, 1), (Fld.MSC_SQ_CFG_STATE 15, 1), (Fld.MSC_SQ_CFG_SIZE_LOG2 15, 6), (Fld.MSC_SQ_TAIL_TAIL 15, 1),
    (Fld.MSC_CQ_CFG_EN 0, 1), (Fld.MSC_CQ_CFG_STATE 0, 1), (Fld.MSC_CQ_CFG_SIZE_LOG2 0, 6)]

/-- The descriptor of a NOP, with bytes 0, 1 and 8 given. -/
def desc (op flags mark : Byte) : List Byte := [op, flags] ++ List.replicate 6 0 ++ [mark] ++ List.replicate 55 0

/-- A record of that ring. -/
def rec0 : Record := ringed.recordOf (cmdAt 1 .running) 0 cDONE 0 0
def recorded0 : State := ringed.setWaiting 0 [rec0]

theorem witness_RingsAndRecords_doorbells :
    (Safety.reaches ringed .bar0 .MSC_SQ_TAIL 15 0 63 ∧ (Fld.MSC_SQ_TAIL_TAIL 15).of 63 < ringed.sqSize 15
        ∧ ringed.sqSize 15 ≤ (Fld.MSC_SQ_TAIL_TAIL 15).of 64 ∧ ringed.getF Fld.MSC_HOST_ERR_VALID = 0)
      ∧ (Safety.reaches ringed .bar0 .MSC_CQ_HEAD 0 0 0 ∧ (Fld.MSC_CQ_HEAD_HEAD 0).of 0 < ringed.cqSize 0
        ∧ ((Fld.MSC_CQ_HEAD_HEAD 0).of 0 + ringed.cqSize 0 - ringed.getF (Fld.MSC_CQ_HEAD_HEAD 0)) % ringed.cqSize 0
          ≤ (ringed.cqTail 0 + ringed.cqSize 0 - ringed.getF (Fld.MSC_CQ_HEAD_HEAD 0)) % ringed.cqSize 0) := by
  unfold Safety.reaches; decide +kernel

theorem witness_RingsAndRecords_fetch :
    (desc 1 0 0).length = 64 ∧ ringed.mayFetch 15 false = true ∧ ringed.host.cmds = []
      ∧ (formatOk (cmdOf 0 15 (desc 1 0 0)) (desc 1 0 0) = true ∧ (cmdOf 0 15 (desc 1 0 0)).launched = false)
      ∧ (formatOk (cmdOf 0 15 (desc 1 1 9)) (desc 1 1 9) = true ∧ (cmdOf 0 15 (desc 1 1 9)).launched = true
        ∧ ringed.launchQueue.length < 256 ∧ ringed.now < (cmdOf 0 15 (desc 1 1 9)).mark.toNat)
      ∧ formatOk (cmdOf 0 15 (desc 0xFF 0 0)) (desc 0xFF 0 0) = false
      ∧ (recorded0.waitingOf 0 = [rec0] ∧ recorded0.ringsRun = true ∧ recorded0.cqRoom 0 = true
        ∧ recorded0.getF (Fld.MSC_CQ_CFG_INT_EN 0) = 0) := by decide +kernel

/-- Ring 15 with a command outstanding that came from it. -/
def ordered : State := { ringed with host := { ringed.host with cmds := [{ cmdAt 1 .running with sq := 15 }] } }

theorem witness_RingsAndRecords_turns :
    ringed.nextRing = some 15 ∧ ringed.nextRing ≠ some 0
      ∧ (ordered.nextRing = some 15 ∧ (cmdOf 0 15 (desc 1 2 0)).flags.testBit 1 = true ∧ ordered.outstanding 15 ≠ 0) := by decide +kernel

/-- A record that waits for completion ring 0, whose next message its vector would send. -/
def messaging : State :=
  recorded0.setFs [(Fld.MSC_CQ_CFG_INT_EN 0, 1), (Fld.MSC_MSIX_CTRL_MASK (ringed.getF (Fld.MSC_CQ_CFG_VECTOR 0)), 0)]

theorem witness_RingsAndRecords_message :
    messaging.waitingOf 0 = [rec0] ∧ messaging.ringsRun = true ∧ messaging.cqRoom 0 = true
      ∧ messaging.getF (Fld.MSC_CQ_CFG_INT_EN 0) = 1 ∧ messaging.getF (Fld.MSC_CQ_CFG_COAL_CNT 0) ≤ messaging.sinceOf 0 + 1
      ∧ messaging.getF (Fld.MSC_MSIX_CTRL_MASK (messaging.getF (Fld.MSC_CQ_CFG_VECTOR 0))) = 0
      ∧ messaging.getF Fld.MSC_HOST_ERR_VALID = 0 := by decide +kernel

/-- Ring 15 with interrupts, one record since its last message; the same with its vector unmasked. -/
def coalescing : State :=
  { ringed.setFs [(Fld.MSC_CQ_CFG_INT_EN 15, 1), (Fld.MSC_CQ_CFG_COAL_US 15, 1)] with host := { ringed.host with since := [(15, 1)] } }

/-- A WRITE of 8 bytes to the end of bay memory, its read of host memory under way. -/
def writing : HostCmd := { cmdAt 0x02 .running with reads := [⟨0, 8, bayAddr 1023 0xFFFF8, none, []⟩] }

theorem witness_RingsAndRecords_registers :
    (coalescing.getF (Fld.MSC_CQ_CFG_INT_EN 15) = 1 ∧ 0 < coalescing.getF (Fld.MSC_CQ_CFG_COAL_US 15) ∧ 0 < coalescing.sinceOf 15
        ∧ coalescing.getF (Fld.MSC_MSIX_CTRL_MASK (coalescing.getF (Fld.MSC_CQ_CFG_VECTOR 15))) = 1
        ∧ (coalescing.setF (Fld.MSC_MSIX_CTRL_MASK 0) 0).getF (Fld.MSC_MSIX_CTRL_MASK 0) = 0)
      ∧ (bar0Base + (BitVec.ofNat 20 (RegId.MSC_SQ_BASE.addr 15 - bar0Base)).toNat = RegId.MSC_SQ_BASE.addr 15
        ∧ Safety.reaches (dev stREADY) .bar0 .MSC_SQ_BASE 15 0 1 ∧ (dev stREADY).getF (Fld.MSC_SQ_CFG_EN 15) = 0)
      ∧ (bar0Base + (BitVec.ofNat 20 (RegId.MSC_SQ_CFG.addr 15 - bar0Base)).toNat = RegId.MSC_SQ_CFG.addr 15
        ∧ Safety.reaches (dev stREADY) .bar0 .MSC_SQ_CFG 15 0 (packWord [((Fld.MSC_SQ_CFG_EN 15).lo, 1), ((Fld.MSC_SQ_CFG_SIZE_LOG2 15).lo, 6)])
        ∧ (Fld.MSC_SQ_CFG_EN 15).of (packWord [((Fld.MSC_SQ_CFG_EN 15).lo, 1), ((Fld.MSC_SQ_CFG_SIZE_LOG2 15).lo, 6)]) = 1
        ∧ sizeOk ((Fld.MSC_SQ_CFG_SIZE_LOG2 15).of (packWord [((Fld.MSC_SQ_CFG_EN 15).lo, 1), ((Fld.MSC_SQ_CFG_SIZE_LOG2 15).lo, 6)])) = true)
      ∧ ((withCmd stREADY writing).cmd 1 = some writing ∧ (withCmd stREADY writing).host.holdAsked = none
        ∧ Safety.handedOver (withCmd stREADY writing) ∧ (withCmd stREADY writing).clockOff = false
        ∧ (withCmd stREADY writing).cutRange (bayAddr 1023 0xFFFF8) 8 = false
        ∧ bayAddr 0 0 ≤ bayAddr 1023 0xFFFF8 ∧ bayAddr 1023 0xFFFF8 + 8 ≤ bayAddr 1023 0x100000) := by
  unfold Safety.reaches Safety.handedOver; decide +kernel

/-! ### Host commands -/

/-- A fetched command with operands, and the device in a state that holds it. -/
def hc (op : Nat) (p : List Word) : HostCmd := { cmdAt op .fetched with p := p }
def hcIn (st op : Nat) (p : List Word) : State := withCmd st (hc op p)

/-- An address of bay memory as an operand. -/
def bayOp (b : BayId) : Word := BitVec.ofNat 64 (bayAddr b 0)

theorem witness_HostCommandsStart_states :
    (∀ op ∈ [0x01, 0x02, 0x03, 0x04, 0x05, 0x06, 0x07, 0x10, 0x11, 0x12, 0x13, 0x14, 0x20, 0x21, 0x22, 0x23, 0x24, 0x30, 0x31, 0x32, 0x33],
        (hcIn stPATROL op []).cmd 1 = some (hc op []) ∧ (hcIn stPATROL op []).endJob = hcIn stPATROL op []
          ∧ (hcIn stPATROL op []).dmaRunning.length < 64 ∧ (hcIn stPATROL op []).host.late = [] ∧ Safety.handedOver (hcIn stPATROL op [])
          ∧ opStates op (hcIn stPATROL op []).cmdState = false)
      ∧ (∀ x ∈ [(stREADY, 0x01), (stHOLD, 0x01)], (hcIn x.1 x.2 []).cmd 1 = some (hc x.2 []) ∧ (hcIn x.1 x.2 []).endJob = hcIn x.1 x.2 []
          ∧ opStates x.2 (hcIn x.1 x.2 []).cmdState = true ∧ (hcIn x.1 x.2 []).getF Fld.TPC_POWER_ENTRY = 0) := by
  unfold Safety.handedOver; decide +kernel

/-- WRITE, READ and FILL of 8 bytes of bay memory; a register write; COPY of 8 bytes between bays. -/
def wr : State := hcIn stREADY 0x02 [0, bayOp 1, 8]
def rd : State := hcIn stREADY 0x03 [0, bayOp 1, 8]
def fi : State := hcIn stREADY 0x05 [bayOp 1, 8, 7]
def rw_ : State := hcIn stREADY 0x06 [BitVec.ofNat 64 (RegId.BAY_MAIN_PC.addr 1023), 8]
def cp : State := opened (hcIn stREADY 0x04 [bayOp 1, bayOp 2, 8]) 82

theorem witness_HostCommandsStart_data :
    (Safety.starts wr 1 0x02 (hc 0x02 [0, bayOp 1, 8]) ∧ wr.writeOk (bayOp 1) 8 = true
        ∧ wr.access .host wr.devCoord permW ((hc 0x02 [0, bayOp 1, 8]).f 1 0 48) 8 = (wr, true))
      ∧ (Safety.starts rd 1 0x03 (hc 0x03 [0, bayOp 1, 8]) ∧ (hc 0x03 [0, bayOp 1, 8]).f 1 0 48 = bayAddr 1 0
        ∧ rd.access .host rd.devCoord permR (bayAddr 1 0) 8 = (rd, true) ∧ rd.host.holdAsked = none
        ∧ Safety.handedOver rd ∧ rd.clockOff = false ∧ rd.cutRange (bayAddr 1 0) 8 = false)
      ∧ (Safety.starts fi 1 0x05 (hc 0x05 [bayOp 1, 8, 7]) ∧ (bayOp 1).toNat = bayAddr 1 0 ∧ bayAddr 1 0 % 8 = 0
        ∧ Safety.handedOver fi ∧ fi.clockOff = false ∧ fi.cutRange (bayAddr 1 0) 8 = false
        ∧ fi.access .host fi.devCoord permW (bayAddr 1 0) 8 = (fi, true)) := by
  unfold Safety.starts Safety.handedOver; decide +kernel

theorem witness_HostCommandsStart_moves :
    Safety.starts rw_ 1 0x06 (hc 0x06 [BitVec.ofNat 64 (RegId.BAY_MAIN_PC.addr 1023), 8]) ∧ Safety.handedOver rw_
      ∧ Safety.reaches rw_ .hostCmd .BAY_MAIN_PC 1023 0 8
      ∧ (Safety.starts cp 1 0x04 (hc 0x04 [bayOp 1, bayOp 2, 8])
        ∧ cp.moveOf (hc 0x04 [bayOp 1, bayOp 2, 8]) = ⟨cp.devCoord, bayAddr 1 0, bayAddr 2 0, 8, false⟩
        ∧ Safety.handedOver cp ∧ cp.clockOff = false ∧ cp.cutRange (bayAddr 1 0) 8 = false ∧ cp.cutRange (bayAddr 2 0) 8 = false
        ∧ cp.access .host cp.devCoord permR (bayAddr 1 0) 8 = (cp, true)) := by
  unfold Safety.starts Safety.handedOver Safety.reaches; decide +kernel

/-- The remote end of the COPY is open to header DMA in every state with these registers. -/
theorem witness_HostCommandsStart_remote (t : State) (h : t.regs = cp.regs) :
    t.access .hdma t.devCoord permW (bayAddr 2 0) 8 = (t, true) := by
  have r : cp.inReserve (bayAddr 2 0) 8 = false := by decide +kernel
  have n : (cp.deniedOn .hdma 82 0 permW).isNone = true := by decide +kernel
  exact access_one (by decide) (by decide +kernel) (i := 82) (page := 0) (by decide +kernel) ((inReserve_of_regs h _ _).trans r)
    (by rw [deniedOn_of_regs h]; exact n)

/-- A job's bay 3 live; a job that has ended; a device in HOLD. -/
def job3 : Job := ⟨some 1, [3], false, false, false, none, []⟩
def jobRuns : State := { running with host := { running.host with cmds := [hc 0x12 []], job := some job3 } }
def jobEnded : State := { dev stRUN with host := { (dev stRUN).host with cmds := [cmdAt 0x11 .running], job := some job3 } }
def loaded : State := (hcIn stREADY 0x11 [64, 0]).setFs [(Fld.MSC_STATE_JOB_LOADED, 1), (Fld.ABR_CTRL_FAB_EN, 1)]

theorem witness_HostCommandsStart_jobs :
    (Safety.starts (hcIn stREADY 0x10 [64, 65536]) 1 0x10 (hc 0x10 [64, 65536]) ∧ (hc 0x10 [64, 65536]).f 1 0 17 = 65536)
      ∧ (Safety.starts loaded 1 0x11 (hc 0x11 [64, 0]) ∧ loaded.getF Fld.MSC_STATE_JOB_LOADED = 1 ∧ loaded.host.job = none
        ∧ loaded.getF Fld.ABR_CTRL_FAB_EN = 1 ∧ maskBays [8] = [3] ∧ (loaded.bay 3).live = false
        ∧ (loaded.bay 3).colls = [] ∧ Safety.handedOver loaded)
      ∧ (Safety.starts jobRuns 1 0x12 (hc 0x12 []) ∧ jobRuns.host.job = some job3 ∧ (jobRuns.bay (BitVec.ofNat 10 3)).live = true)
      ∧ (jobEnded.host.job = some job3 ∧ jobEnded.devState = stRUN ∧ jobEnded.cmd 1 = some (cmdAt 0x11 .running)
        ∧ (jobEnded.bay (BitVec.ofNat 10 3)).live = false ∧ ∀ d ∈ jobEnded.host.cmds, d.op ≠ 0x12) := by
  unfold Safety.starts Safety.handedOver; decide +kernel

/-- HOLD with nothing in execution, and with a READ in execution. -/
def holdBusy : State := { hcIn stRUN 0x13 [] with host := { (hcIn stRUN 0x13 []).host with cmds := [hc 0x13 [], { cmdAt 3 .running with k := 2 }] } }
def held : State := { hcIn stHOLD 0x14 [] with host := { (hcIn stHOLD 0x14 []).host with before := stRUN } }

theorem witness_HostCommandsStart_hold :
    (Safety.starts (hcIn stRUN 0x13 []) 1 0x13 (hc 0x13 []) ∧ (hcIn stRUN 0x13 []).host.holdAsked = none
        ∧ (hcIn stRUN 0x13 []).devState = stRUN ∧ (hcIn stRUN 0x13 []).dataBusy = false)
      ∧ (Safety.starts holdBusy 1 0x13 (hc 0x13 []) ∧ holdBusy.dataBusy = true)
      ∧ (Safety.starts held 1 0x14 (hc 0x14 []) ∧ held.host.before = stRUN ∧ held.devState = stHOLD ∧ held.openColls = []
        ∧ Safety.handedOver held ∧ held.host.late = [] ∧ (∀ x ∈ held.fab.srcs, x.waiting = []) ∧ held.launchQueue = []
        ∧ held.getF Fld.OPT_CIRCUIT_STATE ≠ 1 ∧ held.getF Fld.ABR_EPOCH_CTRL_STATE ≠ 1) := by
  unfold Safety.starts Safety.handedOver; decide +kernel

/-- The Ledger's commands: a baste while a bay runs, a hem of a sealed slot, a hem that has sent everything. -/
def basted : State := { running with host := { running.host with cmds := [hc 0x20 []] } }
def sealed : State := (hcIn stREADY 0x21 [7, 64, 100]).setF Fld.LDG_BASTE_STATUS_STATE 4
def hemLast (fail : Option Code) : HemJob := ⟨some 1, 0, 0, 25, [], 8, 8, true, true, fail⟩
def hemDone_ (fail : Option Code) : State :=
  { withCmd stREADY (cmdAt 0x21 .running) with ldg := { (dev stREADY).ldg with hem := some (hemLast fail) } }

/-- The digest of one region as it stands, a record of no step, a fold of a pseudo-channel that waits, and a circuit change. -/
def dig : State := { regions stREADY with host := (hcIn stREADY 0x23 [3]).host }
def stepped : State := { hcIn stREADY 0x24 [0, 0, 0, 0] with ldg := (State.stepBoundary (dev stREADY)).ldg }
def foldIn (w : List Nat) : State := { hcIn stREADY 0x31 [255] with hbm := { (dev stREADY).hbm with waiting := w } }

theorem witness_HostCommandsOfTheLedger :
    (Safety.starts basted 1 0x20 (hc 0x20 []) ∧ basted.basteRuns = false ∧ basted.noThread = false)
      ∧ (Safety.starts sealed 1 0x21 (hc 0x21 [7, 64, 100]) ∧ sealed.basteState = 4 ∧ sealed.ldg.hem = none
        ∧ (hc 0x21 [7, 64, 100]).f 2 0 8 ≤ 100)
      ∧ (∀ f ∈ [none, some cRANGE], (hemDone_ f).ldg.hem = some (hemLast f) ∧ (hemDone_ f).cmd 1 = some (cmdAt 0x21 .running)
        ∧ ((hemLast f).fail = some cRANGE ∨ (hemLast f).fail = none ∧ (hemLast f).closing = true
          ∧ (hemDone_ f).fab.reqsLeft (.ledger .hem) = false))
      ∧ (Safety.starts dig 1 0x23 (hc 0x23 [3]) ∧ dig.ldg.digest = none ∧ (hc 0x23 [3]).f 0 0 3 = 3 ∧ dig.regionsOf 3 = [63]
        ∧ dig.writtenDigest 63 = none ∧ dig.inMemory (dig.regionAt 63).1 (dig.regionAt 63).2 = true)
      ∧ (Safety.starts stepped 1 0x24 (hc 0x24 [0, 0, 0, 0]) ∧ stepped.ldg.digest = none ∧ (stepped.ldg.steps 0 0).isSome = true
        ∧ stepped.ldg.steps 1 0 = none) := by
  unfold Safety.starts; decide +kernel

theorem witness_HostCommandsOfTheLedger_memory :
    (Safety.starts (hcIn stREADY 0x30 []) 1 0x30 (hc 0x30 []) ∧ (hcIn stREADY 0x30 []).hbm.scrub = none)
      ∧ (Safety.starts (foldIn []) 1 0x31 (hc 0x31 [255]) ∧ (foldIn []).hbm.fold = none ∧ (hc 0x31 [255]).f 0 8 1 = 0
        ∧ (hc 0x31 [255]).f 0 0 8 ∉ (foldIn []).hbm.waiting)
      ∧ (Safety.starts (foldIn [255]) 1 0x31 (hc 0x31 [255]) ∧ (hc 0x31 [255]).f 0 0 8 ∈ (foldIn [255]).hbm.waiting
        ∧ (foldIn [255]).getF Fld.HBM_CAP_FOLDS ≠ 16)
      ∧ Safety.starts (hcIn stREADY 0x32 [255]) 1 0x32 (hc 0x32 [255])
      ∧ (Safety.starts (hcIn stREADY 0x33 [0x8000, 9]) 1 0x33 (hc 0x33 [0x8000, 9]) ∧ (hcIn stREADY 0x33 [0x8000, 9]).circuitOpen = true) := by
  unfold Safety.starts; decide +kernel

/-- A manifest of no region, and what stands before its digest. -/
def manifestHead : List Byte := [0x44, 0x5A, 0x42, 0x4D, 1, 0] ++ List.replicate 7290 0
def manifest : List Byte := manifestHead ++ (sha3 manifestHead ++ List.replicate 832 0)

/-- RESTORE of the configuration only: from the slot of device 1, whose pair has its window full, and from the local slot, whose band is not cached. -/
def restoring : HostCmd := hc 0x22 [packWord [(0, 1), (7, 1)], packWord [(0, (coordOf 1 0).toNat)]]
def fetching : State := { withCmd stREADY restoring with fab := (sends full1).fab }
def local_ : HostCmd := hc 0x22 [packWord [(7, 1)]]
def slotted (m : SMap Byte) : State := 
  { (regions stREADY).setF (Fld.HBM_BAND_CACHE 0) 0 with host := (withCmd stREADY local_).host, mem := m }

/-- The same once the restore has begun. -/
def begun (m : SMap Byte) : State :=
  ((((slotted m).setCmd { local_ with stage := .running }).setFs [(Fld.LDG_RESTORE_PROG_PCT, 0), (Fld.LDG_RESTORE_PROG_STATE, 1),
    (Fld.LDG_RESTORE_PROG_CODE, 0)]).updLdg fun l => { l with restore := some ⟨1, ⟨⟨true, 0, 0⟩, none, 0, true⟩, (cDONE, []), [],
    none, [], []⟩ }).setFs [(Fld.LDG_RESTORE_STATUS_FIRST_FAIL, 0xFF), (Fld.LDG_RESTORE_STATUS_SKEW_ITEM, 0xFF),
    (Fld.LDG_RESTORE_STATUS_FAILS, 0), (Fld.LDG_RESTORE_STATUS_REFETCHED, 0), (Fld.LDG_RESTORE_PROG_POSITION, 0)]

theorem manifestHead_length : manifestHead.length = 7296 := by
  simp only [manifestHead, List.length_append, List.length_replicate, List.length_cons, List.length_nil]

theorem witness_HostCommandsOfTheLedger_restore :
    (Safety.starts fetching 1 0x22 restoring ∧ Safety.handedOver fetching ∧ fetching.ldg.restore = none ∧ restoring.f 0 0 2 = 1
        ∧ restoring.f 0 4 1 = 0 ∧ restoring.f 0 5 2 ≠ 3 ∧ fetching.fab.stalled = []
        ∧ fetching.fab.src (devOf (BitVec.ofNat 28 (restoring.f 1 0 28))) = some full1 ∧ full1.broken = false ∧ full1.waiting = []
        ∧ full1.window ≤ full1.unacked.length)
      ∧ (Safety.starts (slotted []) 1 0x22 local_ ∧ Safety.handedOver (slotted []) ∧ (slotted []).ldg.restore = none
        ∧ (local_.f 0 0 2 = 0 ∧ local_.f 0 4 1 = 0 ∧ local_.f 0 5 2 = 0 ∧ local_.f 0 7 1 = 1) ∧ (slotted []).slotLives = true) := by
  unfold Safety.starts Safety.handedOver; decide +kernel

/-- The local slot's manifest is read as memory holds it, whatever that is. -/
theorem witness_HostCommandsOfTheLedger_slot (m : SMap Byte) :
    (begun m).ownRead 3 (slotted m).reserve.1 8192 = (begun m, cDONE, (begun m).memBytes (2 ^ 30) 8192) := by
  have r : (begun m).regs = (begun []).regs := rfl
  have e : (slotted m).reserve.1 = 2 ^ 30 := by
    rw [reserve_of_regs (t := slotted m) (s := slotted []) rfl]; decide +kernel
  rw [e]
  refine ownRead_hbm ⟨rfl, rfl, rfl⟩ _ _ _ (by decide +kernel) ?_ ?_ ?_
  · rw [mapped_of_regs r]; decide +kernel
  · rw [State.checkAccess, if_neg (by decide), show (2 ^ 30 + 8192 - 1) / 4096 + 1 - 2 ^ 30 / 4096 = 2 by decide,
      show 2 ^ 30 / 4096 = 2 ^ 18 by decide]
    refine checkPages_allowed _ _ fun i hi x hx => ?_
    have d : ∀ i, i < 2 → ∃ x, targetOf ((2 ^ 18 + i) * 4096) = some x ∧ ((begun []).deniedOn .msc x.1 x.2 permR).isNone = true := by
      intro i hi
      obtain rfl | rfl : i = 0 ∨ i = 1 := by omega
      · exact ⟨(0, 2 ^ 18), by decide +kernel⟩
      · exact ⟨(0, 2 ^ 18 + 1), by decide +kernel⟩
    obtain ⟨y, hy, hd⟩ := d i hi
    rw [hx] at hy
    cases hy
    rw [deniedOn_of_regs r]; exact hd
  · intro x h0 h1
    have b : bandOf x = 0 := by unfold bandOf; omega
    have c : (begun m).getF (Fld.HBM_BAND_CACHE 0) = 0 := by
      rw [getF_of_regs r]; decide +kernel
    simp [State.cachedAt, b, c]

theorem witness_HostCommandsOfTheLedger_manifest :
    manMagic manifest = true ∧ manRegions manifest = [] ∧ manSelf manifest = true ∧ manifest.length = 8192 := by
  have h : manifest.length = 8192 := by
    simp only [manifest, List.length_append, manifestHead_length, sha3_length, List.length_replicate]
  refine ⟨by decide +kernel, by decide +kernel, ?_, h⟩
  have a : manifest.take 7296 = manifestHead := by rw [manifest, ← manifestHead_length, List.take_left]
  have b : (manifest.drop 7296).take 64 = sha3 manifestHead := by
    rw [manifest, ← manifestHead_length, List.drop_left, ← sha3_length manifestHead, List.take_left]
  simp only [manSelf, a, b, beq_self_eq_true]

/-- The local slot holds that manifest, or nothing. -/
theorem witness_HostCommandsOfTheLedger_slots :
    (begun ((slotted []).setMemBytes (2 ^ 30) manifest).mem).memBytes (2 ^ 30) 8192 = manifest
      ∧ manMagic ((begun []).memBytes (2 ^ 30) 8192) = false := by
  constructor
  · have e := memBytes_setMemBytes (s := slotted []) (2 ^ 30) manifest
    have k : ∀ m, (begun m).mem = m := fun m => rfl
    rw [witness_HostCommandsOfTheLedger_manifest.2.2.2] at e
    rw [memBytes_of_mem (s := (slotted []).setMemBytes (2 ^ 30) manifest) (t := begun _) (k _)]
    exact e
  · rw [memBytes_nil rfl]; decide +kernel

end Sys2Proof.Tests
end

