-- ==== Sys2Proof/Tests/Witness7.lean ====
section
/-! SUPPORT. For each statement about boot, heat and power, a state and operands that meet its hypotheses, clause by clause. -/

namespace Sys2Proof.Tests

set_option Elab.async false

open Machine

/-! ### Boot, fuses, firmware and the access tables -/

/-- A firmware image of one byte: SVN 1, its key and a signature of zeros. -/
def fwKey : List Byte := List.replicate 2592 7
def fwStart : List Byte := [0x44, 0x5A, 0x46, 0x57, 1, 0, 0, 0, 1] ++ List.replicate 15 0 ++ [1] ++ List.replicate 7 0
def fwRest : List Byte := List.replicate 96 0 ++ (fwKey ++ List.replicate 5344 0)
def fwHeader : List Byte := fwStart ++ (sha3 [9] ++ (sha3 fwKey ++ fwRest))

/-- The module with that image in its flash, its rails up, about to boot. -/
def flashed : State :=
  { State.reset.updPower fun p => { p with good := true } with store := { State.reset.store with flash := fwHeader ++ [9] } }

theorem fwHeader_length : fwHeader.length = 8192 := by
  simp only [fwHeader, fwStart, fwRest, fwKey, List.length_append, sha3_length, List.length_replicate, List.length_cons, List.length_nil]

theorem fwHeader_body : imgPart fwHeader 32 64 = sha3 [9] := by
  have d : fwHeader.drop 32 = sha3 [9] ++ (sha3 fwKey ++ fwRest) := by
    rw [fwHeader, show 32 = fwStart.length from by decide, List.drop_left]
  rw [imgPart, d, ← sha3_length [9], List.take_left]

theorem fwHeader_id : imgPart fwHeader 96 64 = sha3 fwKey := by
  have d : fwHeader.drop 96 = sha3 fwKey ++ fwRest := by
    rw [fwHeader, ← List.append_assoc, show 96 = (fwStart ++ sha3 [9]).length from by rw [List.length_append, sha3_length]; decide, List.drop_left]
  rw [imgPart, d, ← sha3_length fwKey, List.take_left]

theorem fwHeader_key : imgPart fwHeader 256 2592 = fwKey := by
  have d : fwHeader.drop 256 = fwKey ++ List.replicate 5344 0 := by
    rw [fwHeader, fwRest, ← List.append_assoc, ← List.append_assoc, ← List.append_assoc,
      show 256 = (((fwStart ++ sha3 [9]) ++ sha3 fwKey) ++ List.replicate 96 (0 : Byte)).length from by
        rw [List.length_append, List.length_append, List.length_append, sha3_length, sha3_length, List.length_replicate]; decide,
      List.drop_left]
  rw [imgPart, d, show 2592 = fwKey.length from by rw [fwKey, List.length_replicate], List.take_left]

/-- Where the ROM holds the hash of this key and the signature verifies, the header passes every check of the ROM: what the device's
keys are is open (`Config.romKeyHash`, `Config.verify`). -/
theorem witness_BootFusesAndFirmware_accepted (hk : Config.romKeyHash 0 = sha3 fwKey) (hv : imgSigned fwHeader = true) :
    flashed.store.flash.take 8192 = fwHeader ∧ (flashed.store.flash.drop 8192).take (imgBody fwHeader) = [9]
      ∧ flashed.romHeader fwHeader = 0 ∧ sha3 [9] = imgPart fwHeader 32 64 := by
  have n : imgBody fwHeader = 1 := by decide +kernel
  have c1 : (!imgFormat fwHeader || !imgSize fwHeader || decide (64 < imgSvn fwHeader)) = false := by decide +kernel
  have k : flashed.keySlot fwHeader = some 0 := by
    have r : (!(flashed.getF Fld.MSC_FW_STATUS_REVOKED).testBit 0 && Config.romKeyHash 0 == sha3 fwKey) = true := by
      rw [hk, beq_self_eq_true, Bool.and_true]; decide +kernel
    simp only [State.keySlot, fwHeader_id, fwHeader_key, ne_eq, not_true_eq_false, if_false]
    exact List.find?_cons_of_pos (l := [1, 2, 3]) (by exact r)
  refine ⟨?_, ?_, ?_, fwHeader_body.symm⟩
  · rw [flashed, ← fwHeader_length, List.take_left]
  · rw [n, flashed, ← fwHeader_length, List.drop_left]; rfl
  · have f : ¬imgSvn fwHeader < flashed.getF Fld.MSC_FW_STATUS_FUSE_COUNT := by decide +kernel
    simp only [Bool.or_eq_false_iff, decide_eq_false_iff_not] at c1
    simp [State.romHeader, c1.1.1, c1.1.2, c1.2, k, f, hv]

theorem witness_BootFusesAndFirmware_boot :
    (flashed.devState = stRESET ∧ flashed.power.good = true ∧ flashed.power.booted = false ∧ flashed.store.bench = false
        ∧ flashed.power.refOk = true)
      ∧ (State.reset.updPower fun p => { p with good := true }).romHeader ((State.reset.updPower fun p => { p with good := true }).store.flash.take 8192) ≠ 0
      ∧ ((dev stREADY).power.booted = true ∧ (dev stREADY).getF Fld.MSC_FW_STATUS_RUN_SVN ≤ (dev stREADY).getF Fld.MSC_FW_STATUS_FUSE_COUNT
        ∧ ((dev stREADY).setFs [(Fld.MSC_FW_STATUS_RUN_SVN, 64), (Fld.MSC_FW_STATUS_FUSE_COUNT, 63)]).getF Fld.MSC_FW_STATUS_FUSE_COUNT
          < ((dev stREADY).setFs [(Fld.MSC_FW_STATUS_RUN_SVN, 64), (Fld.MSC_FW_STATUS_FUSE_COUNT, 63)]).getF Fld.MSC_FW_STATUS_RUN_SVN) := by
  decide +kernel

/-- A chunk of 2,048 bytes through the mailbox; an image whole, and one begun. -/
def chunk : Word := packWord [(Fld.MSC_MBX_CTRL_LEN.lo, 2048)]
def whole : State := { dev stRECOVERY with fwWrite := some ⟨List.replicate 24 0 ++ [1] ++ List.replicate 8168 0⟩ }
def mailed : State := { dev stRECOVERY with fwWrite := some ⟨[1]⟩ }

theorem witness_BootFusesAndFirmware_mailbox :
    (Safety.reaches (dev stRECOVERY) .bar0 .MSC_MBX_CTRL 0 0 (withBit Fld.MSC_MBX_CTRL_GO chunk) ∧ Fld.MSC_MBX_CTRL_RESTART.of chunk = 0
        ∧ (dev stRECOVERY).getF Fld.MSC_MBX_STATUS_READY = 1 ∧ (dev stRECOVERY).fwWhole = false ∧ Fld.MSC_MBX_CTRL_LEN.of chunk = 2048
        ∧ (dev stRECOVERY).fwBytes.length + 2048 < 8192)
      ∧ (Safety.reaches (dev stRECOVERY) .bar0 .MSC_MBX_CTRL 0 0 (withBit Fld.MSC_MBX_CTRL_RESTART 0) ∧ Fld.MSC_MBX_CTRL_GO.of 0 = 0)
      ∧ Safety.reaches (dev stREADY) .bar0 .MSC_MBX_CTRL 0 0 (withBit Fld.MSC_MBX_CTRL_GO chunk)
      ∧ whole.fwWhole = true ∧ (mailed.fwWrite ≠ none ∧ mailed.fwWhole = false) := by
  unfold Safety.reaches; decide +kernel

/-- The first access table locked. -/
def locked : State := (dev stREADY).setF (Fld.MSC_ACC_CTRL_LOCK 0) 1

/-- A device whose other registers are as at reset has no table locked. -/
theorem dev_unlocked (st : Nat) : (dev st).anyLock = false := by
  rw [State.anyLock, List.any_eq_false]
  intro t ht
  have ht : t < RegId.MSC_ACC_CTRL.spec.n1 := List.mem_range.mp ht
  have ne := RegId.addr_ne .MSC_ACC_CTRL .MSC_STATE ht (by decide : 0 < RegId.MSC_ACC_CTRL.spec.n2)
    (by decide : 0 < RegId.MSC_STATE.spec.n1) (by decide : 0 < RegId.MSC_STATE.spec.n2) (by decide)
  have r : (dev st).reg (RegId.MSC_ACC_CTRL.addr t) = 0 := by
    have e : (dev st).reg (RegId.MSC_ACC_CTRL.addr t) = regDefault (RegId.MSC_ACC_CTRL.addr t) := smapGet_set_ne _ _ _ _ _ ne
    rw [e, regDefault, regLocate_addr _ ht (by decide) rfl]; rfl
  rw [State.getF, show (Fld.MSC_ACC_CTRL_LOCK t).reg = RegId.MSC_ACC_CTRL.addr t from rfl, r]
  exact (by decide : ¬(fieldOf 0 63 1 == 1) = true)

theorem witness_BootFusesAndFirmware_tables :
    (Safety.reaches (dev stREADY) .hostCmd .MSC_MEAS_EXT 0 0 (withBit Fld.MSC_MEAS_EXT_GO 7) ∧ (dev stREADY).tableStates = true ∧ fieldOf 7 0 3 = 7
        ∧ fieldOf 4 0 3 < 5 ∧ Safety.reaches (dev stRECOVERY) .hostCmd .MSC_MEAS_EXT 0 0 (withBit Fld.MSC_MEAS_EXT_GO 7)
        ∧ (dev stRECOVERY).tableStates = false) := by
  unfold Safety.reaches; decide +kernel

theorem witness_BootFusesAndFirmware_unlocked :
    (Safety.reaches (dev stREADY) .msc .MSC_ACC_A 1115 63 1 ∧ Safety.reaches (dev stREADY) .msc .MSC_ACC_B 1115 63 1
        ∧ ((dev stREADY).getF (Fld.MSC_ACC_CTRL_LOCK 1115) == 1) = false ∧ (dev stREADY).tableStates = true)
      ∧ Safety.reaches (dev stREADY) .msc .MSC_BAY_GROUP 63 0 1 ∧ Safety.reaches (dev stREADY) .msc .MSC_PEER_RANGE 7 0 1 := by
  unfold Safety.reaches; decide +kernel

theorem witness_BootFusesAndFirmware_locks :
    (Safety.reaches locked .msc .MSC_ACC_A 0 63 1 ∧ locked.regChanges .MSC_ACC_A 0 63 1 = true ∧ locked.tableStates = true
        ∧ (locked.getF (Fld.MSC_ACC_CTRL_LOCK 0) == 1) = true ∧ locked.anyLock = true)
      ∧ Safety.reaches locked .msc .MSC_BAY_GROUP 63 0 1 ∧ locked.regChanges .MSC_BAY_GROUP 63 0 1 = true
      ∧ Safety.reaches (dev stRECOVERY) .msc .MSC_ACC_A 1115 63 1
      ∧ Safety.reaches (dev stREADY) .msc .MSC_ACC_CTRL 1115 0 (withBit (Fld.MSC_ACC_CTRL_LOCK 1115) 0) := by
  unfold Safety.reaches; decide +kernel

/-! ### Heat and clocks -/

/-- A sensor excluded; the MAX_POINT of die 3 raised above its clock point; a change of die 3 in progress. -/
def excludedBay : State := running.updTpc fun x => { x with excluded := [.bay 1023] }
def slower : State := (dev stREADY).setFs [(Fld.TPC_DVFS_POINT, 0x3000), (Fld.TPC_DVFS_MAX_POINT, 0x4000)]
def moving (p : Nat) : State := running.updTpc fun x => { x with moving := [(3, some p)] }

theorem witness_ThermalAndClocks_readings :
    (running.tpcRuns = true ∧ (Sensor.bay 1023 ∉ running.tpc.excluded) ∧ Sensor.bay 1023 ∈ excludedBay.tpc.excluded ∧ Sensor.bay 1023 ≠ .coolant)
      ∧ (running.getF Fld.TPC_CLOCK_CAP ≤ 256 ∧ ∀ i ∈ List.range 10, running.readingOf i < (thresholds i).2.2)
      ∧ ((dev stRUN).power.good = true ∧ (dev stRUN).openColls = [] ∧ (dev stRUN).fab.early = [] ∧ Safety.canonical (dev stRUN)
        ∧ (5 : BitVec 4).toNat < (shutdownLimit .logic).2.2 ∧ (shutdownLimit .logic).1 = some 460 ∧ (460 : Int) ≤ (460 : BitVec 16).toInt
        ∧ (459 : BitVec 16).toInt < 460 ∧ (0 : BitVec 4).toNat < (shutdownLimit .leak).2.2 ∧ (shutdownLimit .leak).1 = none)
      ∧ ((State.reset.updPower fun p => { p with v48 := false }).power.good = false ∧ State.reset.power.aux = true
        ∧ State.reset.devState ≠ stOFF ∧ State.reset.getF Fld.TPC_SHUTDOWN_LATCH = 0) := by
  unfold Safety.canonical; decide +kernel

theorem witness_ThermalAndClocks_clocks :
    (Safety.reaches running .msc .TPC_DVFS 0 0 0x4321 ∧ running.dvfsStates = true ∧ (dev stRECOVERY).dvfsStates = false
        ∧ Safety.reaches (dev stRECOVERY) .msc .TPC_DVFS 0 0 1 ∧ (dev stRECOVERY).maxPoint 0 ≤ 1 ∧ elemOf 4 1 0 % 8 = 1)
      ∧ (smapGet (fun _ => none) (moving (running.pointOf 3)).tpc.moving 3 = some (running.pointOf 3)
        ∧ smapGet (fun _ => none) (moving 4).tpc.moving 3 = some 4 ∧ (moving 4).pointOf 3 ≠ 4)
      ∧ (slower.devState = stREADY ∧ slower.tpc.raise = [] ∧ slower.pointOf 3 < slower.maxPoint 3 ∧ slower.reached 3 ≠ slower.maxPoint 3
        ∧ smapGet (fun _ => none) slower.tpc.moving 3 = none)
      ∧ (running.power.booted = true ∧ running.devState ≠ stRECOVERY ∧ running.devState ≠ stLATCHED ∧ running.getF Fld.TPC_POWER_ENTRY = 0
        ∧ running.getF Fld.TPC_AGE_RUN_HOURS / 500 < 500 / 500 ∧ 499 / 500 ≤ running.getF Fld.TPC_AGE_RUN_HOURS / 500) := by
  unfold Safety.reaches; decide +kernel

end Sys2Proof.Tests
end

