-- ==== Sys2Proof/Tests/Witness8.lean ====
section
/-! SUPPORT. For each statement about power states and the management port, and for the statements about every step, a state and
operands that meet its hypotheses, clause by clause. -/

namespace Sys2Proof.Tests

set_option Elab.async false

open Machine

/-! ### The whole machine -/

theorem witness_StepRunsTheFrontCommand : State.reset.pending = [] := by decide

theorem witness_StepsKeepTheMapsCanonical :
    Safety.canonical State.reset ∧ Safety.canonical (((dev stRUN).setMem 5 7).updHost fun h => { h with mem := [(9, 1)] }) := by
  unfold Safety.canonical; decide +kernel

/-! ### Power, resets and PATROL -/

/-- A device in a state of `MSC_STATE` with a change of its power inputs. -/
def powered (st : Nat) (f : Power → Power) : State := (State.reset.setF Fld.MSC_STATE_STATE st).updPower f

/-- In PATROL with every wake source on: the coolant has crossed its limits, and the alarm has fired. -/
def asleep : State :=
  ((powered stPATROL fun p => { p with crossed := [0, 4] }).setFs [(Fld.TPC_PATROL_WAKE_THRESH, 1), (Fld.TPC_PATROL_LIM_WAKE_EN 0, 1),
    (Fld.TPC_PATROL_LIM_WAKE_EN 4, 1), (Fld.TPC_PATROL_WAKE_ADDR, 1), (Fld.TPC_PATROL_WAKE_ALARM, 1)]).setFs
    [(Fld.SCR_CAL_STATUS_FIRED, 1), (Fld.TPC_WAKE_WAKES, 0xFFFFFFFF)]

/-- The latch set. -/
def latched (st : Nat) (f : Power → Power) : State := (powered st f).setF Fld.TPC_SHUTDOWN_LATCH 1

def straps5 : Straps := ⟨1, 2, 3, 5, 0, 4⟩
def cool : PatrolReadings := ⟨199, 459, 48000, 3300, false⟩

theorem witness_PowerResetAndPatrol_up :
    Safety.canonical (powered stOFF fun p => { p with v48 := false })
      ∧ ((powered stOFF fun p => { p with v48 := false }).power.v48 = false ∧ (powered stOFF fun p => { p with v48 := false }).power.contact = false
        ∧ (powered stOFF fun p => { p with v48 := false }).getF Fld.TPC_SHUTDOWN_LATCH = 0 ∧ [straps5].head? = some straps5)
      ∧ ((powered stRESET fun p => { p with contact := true }).power.contact = true
        ∧ (powered stRESET fun p => { p with contact := true }).power.v48 = true)
      ∧ (powered stRECOVERY fun p => { p with resetDue := true }).power.resetDue = true
      ∧ (latched stPATROL fun p => { p with v48 := false }).getF Fld.TPC_SHUTDOWN_LATCH = 1
      ∧ (latched stPATROL fun p => { p with v48 := false }).power.v48 = false := by
  unfold Safety.canonical; decide +kernel

theorem witness_PowerResetAndPatrol_wakes :
    Safety.canonical asleep
      ∧ (asleep.devState = stPATROL ∧ asleep.power.v48 = true ∧ asleep.power.addrOnly = false)
      ∧ (∀ c ∈ [WakeCause.threshold 0, .threshold 4, .address, .calendar], asleep.wakeEnabled c = true ∧ asleep.wakeSeen c = true)
      ∧ ((dev stREADY).devState ≠ stPATROL ∧ (powered stPATROL id).wakeEnabled .calendar = false ∧ asleep.wakeSeen (.threshold 1) = false)
      ∧ (asleep.updPower fun p => { p with v48 := false }).power.v48 = false
      ∧ (asleep.updPower fun p => { p with v48 := false }).wakeSeen .address = true ∧ (3 : Fin 4).val + 1 = 4 := by
  unfold Safety.canonical; decide +kernel

theorem witness_PowerResetAndPatrol_inputs :
    ((9999 : Nat) < 10000 ∧ 1000000 ≤ 1000000 ∧ 10000 ≤ 999999 ∧ 999999 < 1000000)
      ∧ ((dev stRUN).power.v48 = true ∧ (dev stRUN).power.aux = true ∧ (powered stPATROL fun p => { p with v48 := false }).power.v48 = false
        ∧ ((dev stRUN).updPower fun p => { p with aux := false }).power.aux = false)
      ∧ (2999 < 3000 ∧ 3000 ≤ 3135 ∧ (powered stOFF fun p => { p with calOn := false }).power.calOn = false ∧ State.reset.power.calOn = true)
      ∧ ((powered stPATROL fun p => { p with v48 := false }).power.v48 = false
        ∧ (asked stLATCHED 0x21 []).devState = stLATCHED ∧ (asked stLATCHED 0x21 []).mgmt.req = some (0x21, 1, [])
        ∧ State.reset.power.v48 = true ∧ (asked stRUN 0x21 []).devState ≠ stLATCHED) := by
  decide +kernel

/-- A device each of whose ports reaches itself, waiting for the bench check. -/
def mirrored : State :=
  ((List.range 16).foldl (fun s p => s.setFs [(Fld.ABR_PORT_STATUS_UP p, 1), (Fld.ABR_PORT_STATUS_PEER_PORT p, p)])
    (powered stRESET fun p => { p with good := true, booted := true, benching := true })).setF Fld.OPT_FW_CTRL_ENG_EN 0xFF

theorem witness_PowerResetAndPatrol_bench :
    (mirrored.power.benching = true ∧ ((List.range 16).all fun p => mirrored.portUp p
        && mirrored.getF (Fld.ABR_PORT_STATUS_PEER_DEV p) == mirrored.devCoord.toNat && mirrored.getF (Fld.ABR_PORT_STATUS_PEER_PORT p) == p) = true
        ∧ mirrored.getF Fld.MSC_STRAP_CAUSE = 0)
      ∧ (powered stRESET fun p => { p with benching := true }).portUp 0 = false
      ∧ State.reset.power.benching = false := by
  decide +kernel

theorem witness_PowerResetAndPatrol_samples :
    (asleep.devState = stPATROL ∧ asleep.getF Fld.TPC_SHUTDOWN_LATCH = 0)
      ∧ (cool.leak = false ∧ cool.coolant < 200 ∧ cool.junction < 460)
      ∧ (asleep.updPower fun p => { p with lastSample := some cool }).power.lastSample = some cool
      ∧ (200 ≤ ({ cool with coolant := 200 } : PatrolReadings).coolant ∧ 460 ≤ ({ cool with junction := 460 } : PatrolReadings).junction
        ∧ ({ cool with leak := true } : PatrolReadings).leak = true)
      ∧ (dev stREADY).devState ≠ stPATROL := by
  decide +kernel

/-- At each step of the entry into PATROL. -/
def entering (n : Nat) : State := (dev stREADY).setFs [(Fld.TPC_POWER_ENTRY, n), (Fld.TPC_PATROL_WAKE_ADDR, 1)]

theorem witness_PowerResetAndPatrol_entry :
    (((entering 0).updPower fun p => { p with patrolDue := true }).getF Fld.TPC_POWER_ENTRY = 0
        ∧ ((entering 0).updPower fun p => { p with patrolDue := true }).host.job = none
        ∧ ((entering 0).updPower fun p => { p with patrolDue := true }).power.offDue = false
        ∧ ((entering 0).updPower fun p => { p with patrolDue := true }).power.patrolDue = true
        ∧ ((entering 0).updPower fun p => { p with patrolDue := true }).devState = stREADY)
      ∧ ((entering 1).getF Fld.TPC_POWER_ENTRY = 1 ∧ (entering 1).workDone = true
        ∧ ({ entering 1 with fwWrite := some ⟨[]⟩ } : State).workDone = false)
      ∧ ((entering 2).getF Fld.TPC_POWER_ENTRY = 2 ∧ (entering 3).getF Fld.TPC_POWER_ENTRY = 3 ∧ 4 ≤ (entering 4).getF Fld.TPC_POWER_ENTRY)
      ∧ ((entering 4).wakeEnabled .address = true ∧ (entering 4).mgmt.events.length < 64 ∧ (entering 4).wakeEnabled .calendar = false) := by
  decide +kernel

/-! ### The management port -/

/-- A held request, and a reply to read. -/
def answered (r : Reply) : State := { dev stREADY with mgmt := { (dev stREADY).mgmt with reply := some r } }

/-- The frame of a command without payload, its check in place; the same with its last byte changed. -/
def bare (cmd : Byte) : List Byte := [cmd, 1] ++ leBytes 2 0
def sound (cmd : Byte) : List Byte := bare cmd ++ leBytes 4 (crc32c (bare cmd)).toNat

theorem witness_ManagementBus_frames :
    ((dev stREADY).portAnswers = true ∧ (dev stREADY).getF Fld.TPC_POWER_ENTRY = 0 ∧ (dev stREADY).mgmt.req = none)
      ∧ ((dev stPATROL).portAnswers = false ∧ (dev stOFF).portAnswers = false ∧ State.reset.portAnswers = false)
      ∧ ((asked stREADY 0x01 []).mgmt.req ≠ none ∧ (asked stREADY 0x01 []).portAnswers = true)
      ∧ (sound 0x01 = bare 0x01 ++ leBytes 4 (crc32c (bare 0x01)).toNat ∧ (dev stREADY).accepts 0x01 = some true
        ∧ (dev stREADY).accepts 0x13 = some false ∧ (dev stREADY).accepts 0x99 = none)
      ∧ ((sound 0x01).dropLast.length < 8 ∧ (2080 : Nat) ≤ 2080) := by
  decide +kernel

theorem witness_ManagementBus_wrongCheck :
    leNat ((0x02 :: (sound 0x01).drop 1).drop ((0x02 :: (sound 0x01).drop 1).length - 4))
      ≠ (crc32c ((0x02 :: (sound 0x01).drop 1).take ((0x02 :: (sound 0x01).drop 1).length - 4))).toNat := by
  decide +kernel

theorem witness_ManagementBus_bus :
    ((answered ⟨1, 2, cDONE, true, [7]⟩).portAnswers = true ∧ (answered ⟨1, 2, cDONE, true, [7]⟩).mgmt.reply = some ⟨1, 2, cDONE, true, [7]⟩)
      ∧ (dev stREADY).portAnswers = true ∧ (dev stREADY).getF Fld.MSC_MGMT_DYN = 0
      ∧ ((dev stREADY).setF Fld.MSC_MGMT_DYN 9).getF Fld.MSC_MGMT_DYN = 9
      ∧ (dev stREADY).getF Fld.MSC_MGMT_STATIC = (0x50 : BitVec 7).toNat ∧ (dev stREADY).getF Fld.MSC_MGMT_STATIC ≠ (0x51 : BitVec 7).toNat
      ∧ (dev stPATROL).portAnswers = false := by
  decide +kernel

/-- Every code of R533 and R534 has a state that accepts it, and each but STATUS one of READY, RUN and RECOVERY that does not. -/
theorem witness_ManagementCommands_states :
    (∀ c ∈ [0x01, 0x02, 0x03, 0x10, 0x12, 0x15, 0x20, 0x21, 0x22, 0x23, 0x24, 0x30, 0x31, 0x40, 0x41, 0x42, 0x43, 0x50, 0x51],
        Safety.requested (asked stREADY c []) c 1 [])
      ∧ Safety.requested (asked stRUN 0x13 []) 0x13 1 [] ∧ Safety.requested (asked stQUARANTINE 0x14 []) 0x14 1 []
      ∧ Safety.requested ((asked stREADY 0x11 []).setF Fld.MSC_LEASE_EN 1) 0x11 1 []
      ∧ Safety.handedOver (asked stREADY 0x01 []) ∧ (asked stREADY 0x12 []).basteState ≠ 1 ∧ (asked stREADY 0x40 []).fwWhole = false := by
  unfold Safety.requested Safety.handedOver; decide +kernel

theorem witness_ManagementCommands_refused :
    (∀ c ∈ [0x02, 0x03, 0x10, 0x11, 0x12, 0x13, 0x14, 0x15, 0x22, 0x23, 0x24, 0x30, 0x31, 0x41, 0x42, 0x43, 0x50, 0x51],
        (asked stRECOVERY c []).accepts c = some false)
      ∧ (∀ c ∈ [0x01, 0x20, 0x21], (asked stHELD c []).accepts c = some true ∧ (asked stRESET c []).accepts c = some false)
      ∧ (asked stRUN 0x40 []).accepts 0x40 = some false
      ∧ (noPayload [1] = false ∧ sized 1 [] = false ∧ sized 28 [] = false ∧ (sized 2 [0x1F, 0x03] && decide (800 ≤ leNat [0x1F, 0x03])) = false
        ∧ (decide (5 ≤ [1, 2, 3, (4 : Byte)].length)) = false) := by
  decide +kernel

/-- A device whose job of bay 3 runs, asked to switch off. -/
def offRun : State := { jobRuns with mgmt := { jobRuns.mgmt with req := some (0x20, 1, []) } }

/-- The payload of PATROL_SET, of POWER_CAP at its bounds, of CAL_SET with an even count, of ALARM_SET that arms 1, of FW_WRITE at
offset 0 and at another. -/
def patrolP : List Byte := [0x10, 0x0E, 7] ++ List.replicate 25 1
def fwAsked (o : Byte) (st : State) : State := { st with mgmt := { st.mgmt with req := some (0x40, 1, [o, 0, 0, 0, 9]) } }

theorem witness_ManagementCommands_off :
    (Safety.requested (asked stREADY 0x20 []) 0x20 1 [] ∧ (asked stREADY 0x20 []).host.job = none)
      ∧ (Safety.requested offRun 0x20 1 [] ∧ offRun.host.job = some job3 ∧ (offRun.bay (BitVec.ofNat 10 3)).live = true
        ∧ Safety.handedOver offRun)
      ∧ (Safety.requested (asked stLATCHED 0x21 []) 0x21 1 [] ∧ (asked stLATCHED 0x21 []).devState = stLATCHED
        ∧ Safety.handedOver (asked stLATCHED 0x21 []) ∧ (asked stREADY 0x21 []).devState = stREADY) := by
  unfold Safety.requested Safety.handedOver; decide +kernel

theorem witness_ManagementCommands_payloads :
    (patrolP.length = 28 ∧ payBits patrolP 11 0 = 3600)
      ∧ (leNat [0x20, (0x03 : Byte)] = 800 ∧ leNat [0x34, (0x08 : Byte)] = 2100)
      ∧ (leNat ([2, 0, 0, 0, 0, 0, 0, 0] : List Byte) % 2 = 0 ∧ (asked stREADY 0x30 []).getF Fld.SCR_CAL_STATUS_ARMED = 0)
      ∧ (payBits [1, 0, 0, 0, 0, 0, 0, 0, 1] 64 64 = 1
        ∧ ((asked stREADY 0x31 []).reg RegId.SCR_CAL.addr).toNat < payBits [1, 0, 0, 0, 0, 0, 0, 0, 1] 63 0)
      ∧ (Safety.requested (fwAsked 0 (dev stREADY)) 0x40 1 [0, 0, 0, 0, 9] ∧ (fwAsked 0 (dev stREADY)).fwWhole = false
        ∧ leNat ([0, 0, 0, 0] : List Byte) = 0)
      ∧ (Safety.requested (fwAsked 2 mailed) 0x40 1 [2, 0, 0, 0, 9] ∧ (fwAsked 2 mailed).fwWrite ≠ none ∧ (fwAsked 2 mailed).fwWhole = false
        ∧ leNat ([2, 0, 0, 0] : List Byte) ≠ (fwAsked 2 mailed).fwBytes.length)
      ∧ ((List.replicate 32 (0 : Byte)).length = 32 ∧ (1 : Byte).toNat ≤ 1) := by
  unfold Safety.requested; decide +kernel

end Sys2Proof.Tests
end

section

/-! ### Every command answers a next state -/

namespace Sys2Proof

set_option Elab.async false

/-- Each command's meaning is a `Res.next` (`execAdd s = .next (..)` and so on), so its constructor alone decides it. -/
theorem Machine.exec_next (c : Instr) (s : State) : ∃ t, Machine.exec c s = .next t := by
  cases c <;> exact ⟨_, rfl⟩

/-- Settles O2: a step of no command answers the state it has, a step of a command answers what `Machine.exec` answers. -/
theorem everyCommandAnswersANextState : Obligations.EveryCommandAnswersANextState := by
  unfold Obligations.EveryCommandAnswersANextState
  refine ⟨Machine.exec_next, fun s => ?_⟩
  unfold Safety.runs Machine.step
  cases s.pending with
  | nil => exact ⟨s, rfl⟩
  | cons c cs => exact Machine.exec_next c { s with pending := cs }

end Sys2Proof
end

section

/-! ### The maps stay canonical

Every state function of the model keeps `Safety.canonical`: one lemma `Safety.canonical.<function>` each, in the order of the model,
whose proof follows the function's own text (`h.setF.incF` for `(s.setF ..).incF ..`, `.ite` for a condition, `.frame` for an update
of other parts of the state). An operation that answers an `Option` is followed by `Safety.answers`. -/

namespace Sys2Proof

set_option Elab.async false
open Machine

section
variable {s t : State} {α β : Type}

/-- What an operation that may answer no state answers is canonical. -/
def Safety.answers (o : Option State) : Prop := ∀ t ∈ o, canonical t

/-- The same where the operation answers a value beside the state. -/
def Safety.answersFst (o : Option (State × α)) : Prop := ∀ p ∈ o, canonical p.1

/-- An update of other parts of the state keeps the three maps. -/
theorem Safety.canonical.frame {pending bays ecc1 ecc2 hbmBad flits hbm fab opt scr ldg tpc power store fwWrite mgmt meas fresh lastCode lastData}
    (h : canonical s) : canonical ⟨pending, s.regs, bays, s.mem, ecc1, ecc2, hbmBad, flits, hbm, fab, opt, scr, s.host, ldg, tpc, power, store,
      fwWrite, mgmt, meas, fresh, lastCode, lastData⟩ := h

/-- Bytes of device memory lost or zeroed. -/
theorem Safety.canonical.filterMem
    {pending bays ecc1 ecc2 hbmBad flits hbm fab opt scr ldg tpc power store fwWrite mgmt meas fresh lastCode lastData p} (h : canonical s) :
    canonical ⟨pending, s.regs, bays, s.mem.filter p, ecc1, ecc2, hbmBad, flits, hbm, fab, opt, scr, s.host, ldg, tpc, power, store,
      fwWrite, mgmt, meas, fresh, lastCode, lastData⟩ := canonical_filterMem h p rfl rfl rfl

theorem Safety.canonical.of_eq {p : State × α} {x : α} (h : canonical p.1) (e : p = (t, x)) : canonical t := by
  subst e; exact h

theorem Safety.canonical.ite {c : Prop} [Decidable c] (hs : canonical s) (ht : canonical t) : canonical (if c then s else t) := by
  split <;> assumption

theorem Safety.canonical.ite_fst {c : Prop} [Decidable c] {p q : State × α} (hp : canonical p.1) (hq : canonical q.1) :
    canonical (if c then p else q).1 := by
  split <;> assumption

theorem Safety.canonical.elim {o : Option α} {f : α → State} (h : canonical s) (hf : ∀ x, canonical (f x)) : canonical (o.elim s f) := by
  cases o with
  | none => exact h
  | some x => exact hf x

theorem Safety.canonical.getD {o : Option State} (ho : answers o) (h : canonical s) : canonical (o.getD s) := by
  cases o with
  | none => exact h
  | some t => exact ho t rfl

theorem Safety.canonical.foldl {f : State → α → State} {l : List α} (h : canonical s) (hf : ∀ s x, canonical s → canonical (f s x)) :
    canonical (l.foldl f s) := by
  induction l generalizing s with
  | nil => exact h
  | cons x l ih => exact ih (hf s x h)

theorem Safety.canonical.foldl_mem {α : Type} {f : State → α → State} {l : List α} (h : canonical s)
    (hf : ∀ s x, x ∈ l → canonical s → canonical (f s x)) : canonical (l.foldl f s) := by
  induction l generalizing s with
  | nil => exact h
  | cons x l ih => exact ih (hf s x (List.mem_cons_self ..) h) fun t y hy => hf t y (List.mem_cons_of_mem x hy)

theorem Safety.canonical.foldl_fst {f : State × β → α → State × β} {l : List α} {p : State × β} (h : canonical p.1)
    (hf : ∀ p x, canonical p.1 → canonical (f p x).1) : canonical (l.foldl f p).1 := by
  induction l generalizing p with
  | nil => exact h
  | cons x l ih => exact ih (hf p x h)

theorem Safety.canonical.foldr {f : α → State → State} {l : List α} (h : canonical s) (hf : ∀ x s, canonical s → canonical (f x s)) :
    canonical (l.foldr f s) := by
  induction l with
  | nil => exact h
  | cons x l ih => exact hf x _ ih

theorem Safety.answers.none : answers none := fun _ h => nomatch h

theorem Safety.answers.some (h : canonical s) : answers (some s) := by
  rintro t ⟨⟩; exact h

theorem Safety.answers.ite {c : Prop} [Decidable c] {o o' : Option State} (h : answers o) (h' : answers o') : answers (if c then o else o') := by
  split <;> assumption

theorem Safety.answers.orElse {o o' : Option State} (h : answers o) (h' : answers o') : answers (o.orElse fun _ => o') := by
  cases o with
  | none => exact h'
  | some t => exact h

theorem Safety.answers.map {o : Option State} {f : State → State} (h : answers o) (hf : ∀ t, canonical t → canonical (f t)) :
    answers (o.map f) := by
  cases o with
  | none => exact .none
  | some t => exact .some (hf t (h t rfl))

theorem Safety.answers.mapTo {o : Option α} {f : α → State} (hf : ∀ x, canonical (f x)) : answers (o.map f) := by
  cases o with
  | none => exact .none
  | some x => exact .some (hf x)

theorem Safety.answersFst.none : answersFst (none : Option (State × α)) := fun _ h => nomatch h

theorem Safety.answersFst.some {p : State × α} (h : canonical p.1) : answersFst (some p) := by
  rintro t ⟨⟩; exact h

theorem Safety.answersFst.ite {c : Prop} [Decidable c] {o o' : Option (State × α)} (h : answersFst o) (h' : answersFst o') :
    answersFst (if c then o else o') := by
  split <;> assumption

theorem Safety.answersFst.mapTo {o : Option β} {f : β → State × α} (hf : ∀ x, canonical (f x).1) : answersFst (o.map f) := by
  cases o with
  | none => exact .none
  | some x => exact .some (hf x)

/-- The state from which an instruction issues, or with which it stops, is canonical. -/
def Safety.gates : Gate → Prop
  | .stall => True
  | .stop s | .go s => canonical s

theorem Safety.gates.ite {c : Prop} [Decidable c] {g g' : Gate} (h : gates g) (h' : gates g') : gates (if c then g else g') := by
  split <;> assumption

theorem Safety.canonical.run {g : Gate} {eff : State → State} (h : canonical s) (hg : gates g) (heff : ∀ t, canonical t → canonical (eff t)) :
    canonical (g.run s eff) := by
  cases g with
  | stall => exact h
  | stop t => exact hg
  | go t => exact heff t hg

end

section
variable {s : State}

/-! #### Machine/Ops -/

theorem Safety.canonical.setReg (h : canonical s) {a v} : canonical (s.setReg a v) := canonical_setReg h a v

theorem Safety.canonical.setF (h : canonical s) {f v} : canonical (s.setF f v) := canonical_setF h f v

theorem Safety.canonical.incF (h : canonical s) {f n} : canonical (s.incF f n) := canonical_incF h f n

theorem Safety.canonical.stick (h : canonical s) {flag cnt} : canonical (s.stick flag cnt) := canonical_stick h flag cnt

theorem Safety.canonical.setFs (h : canonical s) {l} : canonical (s.setFs l) := canonical_setFs l h

theorem Safety.canonical.bitsEvent (h : canonical s) {code} : canonical (s.bitsEvent code) := canonical_bitsEvent h code

theorem Safety.canonical.tickEvent (h : canonical s) {n} : canonical (s.tickEvent n) := canonical_tickEvent h n

theorem Safety.canonical.setMem (h : canonical s) {a v} : canonical (s.setMem a v) := canonical_setMem h a v

theorem Safety.canonical.setMemBytes (h : canonical s) {a l} : canonical (s.setMemBytes a l) := canonical_setMemBytes h a l

theorem Safety.canonical.setBay (h : canonical s) {b y} : canonical (s.setBay b y) :=
  h.frame

theorem Safety.canonical.updBay (h : canonical s) {b f} : canonical (s.updBay b f) :=
  h.setBay

theorem Safety.canonical.updThr (h : canonical s) {b t f} : canonical (s.updThr b t f) :=
  h.updBay

theorem Safety.canonical.eccRead (h : canonical s) {b o n} : canonical (s.eccRead b o n).1 :=
  .ite_fst h (.ite h.frame.incF.tickEvent.incF h.frame.incF.tickEvent)

theorem Safety.canonical.bayWrite (h : canonical s) {b o bs} : canonical (s.bayWrite b o bs).1 :=
  .ite_fst h (.ite_fst h.incF (.ite h.setMemBytes.frame h.setMemBytes.frame.incF.tickEvent))

theorem Safety.canonical.draw (h : canonical s) : canonical s.draw.1 :=
  h.frame

theorem Safety.canonical.openBytes (h : canonical s) {a n} : canonical (s.openBytes a n) :=
  h.draw.setMemBytes

/-! #### Machine/Flags -/

theorem Safety.canonical.preciseFault (h : canonical s) {b t cause} : canonical (s.preciseFault b t cause) :=
  h.updThr

theorem Safety.canonical.engineStop (h : canonical s) {b e cause flag qseq pc gd} : canonical (s.engineStop b e cause flag qseq pc gd) :=
  h.updBay

theorem Safety.canonical.flagEvents (h : canonical s) {b f n} : canonical (s.flagEvents b f n) :=
  .ite h h.setF.incF

/-! #### Machine/Lanes -/

theorem Safety.canonical.updOpt (h : canonical s) {f} : canonical (s.updOpt f) :=
  h.frame

theorem Safety.canonical.setLane (h : canonical s) {p w st} : canonical (s.setLane p w st) :=
  h.setF.setF

theorem Safety.canonical.setRungs (h : canonical s) {p w r t} : canonical (s.setRungs p w r t) :=
  h.setFs

theorem Safety.canonical.setRise (h : canonical s) {p w x} : canonical (s.setRise p w x) :=
  h.updOpt

theorem Safety.canonical.laserOff (h : canonical s) {e l} : canonical (s.laserOff e l) :=
  h.setFs

theorem Safety.canonical.removeLane (h : canonical s) {p w keep} : canonical (s.removeLane p w keep) :=
  .ite h.setRungs.setLane.updOpt.frame h.setRungs.setLane.updOpt

theorem Safety.canonical.leaveLane (h : canonical s) {p w} : canonical (s.leaveLane p w) := by
  unfold State.leaveLane
  split
  · exact h
  · exact .removeLane (.ite h.laserOff h)

theorem Safety.canonical.restLane (h : canonical s) {p w} : canonical (s.restLane p w) :=
  h.setRungs.setRise.setLane

theorem Safety.canonical.stopLanes (h : canonical s) {p} : canonical (s.stopLanes p) :=
  h.updOpt.foldl (fun _ _ h' => .ite h'.leaveLane h'.leaveLane.restLane)

theorem Safety.canonical.freshLanes (h : canonical s) {p} : canonical (s.freshLanes p) :=
  h.foldl (fun _ _ h' => .ite h' h'.restLane)

/-! #### Machine/RegAcc -/

theorem Safety.canonical.plainWrite (h : canonical s) {r i j v} : canonical (s.plainWrite r i j v) :=
  h.setReg

theorem Safety.canonical.guarded (h : canonical s) {r i j v ok code act} (hact : ∀ s, canonical s → canonical (act s).1) :
    canonical (s.guarded r i j v ok code act).1 :=
  .ite_fst (hact _ h) h

theorem Safety.canonical.limitedWrite (h : canonical s) {r i j v l} : canonical (s.limitedWrite r i j v l).1 :=
  h.plainWrite

/-! #### Machine/Access -/

theorem Safety.canonical.logDeny (h : canonical s) {m dev t page p} : canonical (s.logDeny m dev t page p) :=
  .ite h.incF h.incF.setFs

theorem Safety.canonical.checkPages (h : canonical s) {m dev p n q} : canonical (Machine.checkPages s m dev p n q).1 := by
  induction n generalizing q with
  | zero => exact h
  | succ n ih =>
    rw [Machine.checkPages]
    split
    · exact ih
    · exact .ite_fst ih h.logDeny

theorem Safety.canonical.checkAccess (h : canonical s) {m dev p a n} : canonical (s.checkAccess m dev p a n).1 :=
  .ite_fst h h.checkPages

theorem Safety.canonical.access (h : canonical s) {m dev p a n} : canonical (s.access m dev p a n).1 :=
  .ite_fst h h.checkAccess

theorem Safety.canonical.fabricAccess (h : canonical s) {dev ep p a n} : canonical (s.fabricAccess dev ep p a n).1 :=
  .ite_fst h h.checkAccess

/-! #### Machine/DevMem -/

theorem Safety.canonical.ueLog (h : canonical s) {src pc addr} : canonical (s.ueLog src pc addr) :=
  .ite (.ite h.incF h.incF.setFs) (.bitsEvent (.ite h.incF h.incF.setFs))

theorem Safety.canonical.corrected (h : canonical s) {pc u bs} : canonical (s.corrected pc u bs) := by
  unfold State.corrected
  exact h.incF.incF.tickEvent.frame

theorem Safety.canonical.foldPending (h : canonical s) : canonical s.foldPending :=
  h.setF

theorem Safety.canonical.failPc (h : canonical s) {pc} : canonical (s.failPc pc) :=
  .ite h h.setF.frame.foldPending

theorem Safety.canonical.pcError (h : canonical s) {pc} : canonical (s.pcError pc) :=
  .ite h.frame.failPc h.frame

theorem Safety.canonical.settleUnit (h : canonical s) {u} : canonical (s.settleUnit u) := by
  unfold State.settleUnit
  split
  · exact h
  · exact .ite h h.setMemBytes.frame

theorem Safety.canonical.unitRead (h : canonical s) {src u errs} : canonical (s.unitRead src u errs).1 :=
  .ite_fst h.ueLog.pcError (.ite_fst h (by split; exacts [h.frame.ueLog.pcError, by split; exacts [h, h.corrected]]))

theorem Safety.canonical.unitStore (h : canonical s) {u bs} : canonical (s.unitStore u bs) :=
  h.setMemBytes.frame

theorem Safety.canonical.unitWrite (h : canonical s) {src u i bs errs} : canonical (s.unitWrite src u i bs errs).1 := by
  unfold State.unitWrite
  dsimp only
  exact .ite_fst (.ite_fst h.ueLog h.unitStore) (by split; exacts [h.unitRead, h.unitRead.unitStore])

theorem Safety.canonical.hbmRead (h : canonical s) {src a n errs} : canonical (s.hbmRead src a n errs).1 :=
  h.foldl_fst (fun _ _ h' => h'.unitRead)

theorem Safety.canonical.hbmWrite (h : canonical s) {src a bs errs} : canonical (s.hbmWrite src a bs errs).1 :=
  h.foldl_fst (fun _ _ h' => h'.unitWrite)

theorem Safety.canonical.dropLine (h : canonical s) {g} : canonical (s.dropLine g) :=
  h.frame

theorem Safety.canonical.llsFix (h : canonical s) {p} : canonical (s.llsFix p) :=
  .ite h h.frame.incF.tickEvent

theorem Safety.canonical.writeBackLine (h : canonical s) {g} : canonical (s.writeBackLine g) :=
  .frame (by split; exacts [h.llsFix.incF.ueLog, h.llsFix])

theorem Safety.canonical.evict (h : canonical s) {l} : canonical (s.evict l) :=
  .dropLine (.ite h.writeBackLine h)

theorem Safety.canonical.allocate (h : canonical s) {g dirty fill} : canonical (s.allocate g dirty fill) := by
  unfold State.allocate
  dsimp only
  exact .frame (.ite h (by split; exacts [h.draw.evict, h.draw]))

theorem Safety.canonical.llsHit (h : canonical s) {src a n dirty} : canonical (s.llsHit src a n dirty).1 :=
  .ite_fst (.ite_fst h.llsFix.incF.ueLog h.llsFix.incF.dropLine) h.llsFix

theorem Safety.canonical.settleRange (h : canonical s) {a n} : canonical (s.settleRange a n) :=
  .ite h (h.foldl (fun _ _ h' => h'.settleUnit))

theorem Safety.canonical.fillLine (h : canonical s) {g bs} : canonical (s.fillLine g bs) :=
  h.allocate

theorem Safety.canonical.refetch (h : canonical s) {src a n errs} : canonical (s.refetch src a n errs).1 := by
  unfold State.refetch
  extract_lets +onlyGivenNames g r
  have hr : canonical r.1 := .foldl_fst h fun _ _ h' => h'.unitRead
  exact .ite hr.fillLine hr

theorem Safety.canonical.granRead (h : canonical s) {src a n errs} : canonical (s.granRead src a n errs).1 := by
  unfold State.granRead
  extract_lets s₁ main sill miss
  have h₁ : canonical s₁ := h.settleRange
  have hm : ∀ t, canonical t → canonical (miss t).1 := fun t ht => by
    dsimp only [miss]
    split
    · exact .ite ht.incF.hbmRead.fillLine ht.incF.hbmRead
    · exact ht.incF.hbmRead
  refine .ite_fst ?_ h₁.hbmRead
  split
  · exact hm _ h₁
  · extract_lets r
    split
    · exact h₁.incF.llsHit
    · exact h₁.incF.llsHit
    · exact h₁.incF.llsHit.refetch

theorem Safety.canonical.lineWrite (h : canonical s) {a bs} : canonical (s.lineWrite a bs) :=
  .frame (.setMemBytes (by split; exacts [h.setMemBytes, h]))

theorem Safety.canonical.granWrite (h : canonical s) {src a bs errs} : canonical (s.granWrite src a bs errs).1 := by
  unfold State.granWrite
  extract_lets +onlyGivenNames s₁ main sill
  have h₁ : canonical s₁ := h.settleRange
  refine .ite_fst ?_ h₁.hbmWrite
  split
  · exact .ite_fst h₁.incF.allocate.lineWrite h₁.incF.hbmWrite
  · dsimp only
    refine .ite_fst ?_ h₁.incF.llsFix.lineWrite
    split
    · exact .ite_fst h₁.incF.llsHit.refetch.lineWrite h₁.incF.llsHit.refetch.hbmWrite
    · exact h₁.incF.llsHit

theorem Safety.canonical.unitAmo (h : canonical s) {src a f errs} : canonical (s.unitAmo src a f errs).1 := by
  unfold State.unitAmo
  dsimp only
  split
  · exact h.unitRead
  · exact h.unitRead.unitStore

theorem Safety.canonical.granAmo (h : canonical s) {src a f errs} : canonical (s.granAmo src a f errs).1 := by
  unfold State.granAmo
  extract_lets s₁ sill put
  have h₁ : canonical s₁ := h.settleRange
  refine .ite_fst ?_ h₁.unitAmo
  split
  · exact h₁.incF.unitAmo
  · extract_lets +onlyGivenNames r
    split
    · exact h₁.incF.llsHit.lineWrite
    · exact h₁.incF.llsHit
    · extract_lets q
      have hq : canonical q.1 := .refetch (n := 8) h₁.incF.llsHit
      split
      · exact hq
      · exact .ite_fst hq.lineWrite hq.unitAmo

theorem Safety.canonical.bayRangeRead (h : canonical s) {a n} : canonical (s.bayRangeRead a n).1 := by
  unfold State.bayRangeRead
  extract_lets r
  have hr : canonical r.1 := .foldl_fst h fun _ _ h' => h'.eccRead
  exact .ite_fst hr.bitsEvent hr

theorem Safety.canonical.bayRangeWrite (h : canonical s) {a bs} : canonical (s.bayRangeWrite a bs).1 := by
  unfold State.bayRangeWrite
  extract_lets r
  have hr : canonical r.1 := .foldl_fst h fun _ _ h' => h'.bayWrite
  exact .ite_fst hr.bitsEvent hr

theorem Safety.canonical.devRead (h : canonical s) {src a n errs} : canonical (s.devRead src a n errs).1 := by
  unfold State.devRead
  refine .ite_fst h ?_
  split
  · extract_lets +onlyGivenNames r
    have h₁ : canonical r.1 := h.foldl_fst (fun _ _ h' => h'.granRead)
    split <;> exact h₁
  · extract_lets +onlyGivenNames s₁
    have h₁ : canonical s₁ := h.llsFix
    split
    · exact h₁.incF.ueLog
    · exact h₁
  · exact .ite_fst h h.bayRangeRead
  · exact h

theorem Safety.canonical.devWrite (h : canonical s) {src a bs errs} : canonical (s.devWrite src a bs errs).1 := by
  unfold State.devWrite
  refine .ite_fst h ?_
  split
  · extract_lets +onlyGivenNames r
    have h₁ : canonical r.1 := h.foldl_fst (fun _ _ h' => h'.granWrite)
    exact h₁
  · extract_lets +onlyGivenNames part s₁
    have h₁ : canonical s₁ := h.llsFix
    split
    · exact h₁.incF.ueLog
    · exact h₁.setMemBytes.frame
  · exact .ite_fst h h.bayRangeWrite
  · exact h

theorem Safety.canonical.amoStore (h : canonical p.1) {f wr} (hwr : ∀ s y, canonical s → canonical (wr s y).1) :
    canonical (Machine.amoStore p f wr).1 :=
  .ite_fst h (hwr _ _ h)

theorem Safety.canonical.bayAmo (h : canonical s) {a aop x cmp} : canonical (s.bayAmo a aop x cmp).1 :=
  h.bayRangeRead.amoStore (fun _ _ h' => h'.bayRangeWrite)

theorem Safety.canonical.devAmo (h : canonical s) {src a aop x cmp errs} : canonical (s.devAmo src a aop x cmp errs).1 :=
  .ite_fst (by split <;> exact h.granAmo) (h.devRead.amoStore (fun _ _ h' => h'.devWrite))

/-! #### Machine/Issue -/

theorem Safety.canonical.readLine (h : canonical s) {b t pc} : canonical (s.readLine b t pc) :=
  h.eccRead.updThr

theorem Safety.canonical.fetchLine (h : canonical s) {b t} : canonical (s.fetchLine b t).1 :=
  .ite h h.readLine

theorem Safety.canonical.issueGate (h : canonical s) {b t i chk} : gates (Machine.issueGate s b t i chk) := by
  unfold Machine.issueGate
  refine .ite trivial (.ite h.fetchLine.bitsEvent.preciseFault (.ite h.fetchLine.preciseFault ?_))
  split
  · exact h.fetchLine.updThr
  · exact .ite trivial (.ite trivial (.ite h.fetchLine.preciseFault (.ite h.fetchLine.preciseFault h.fetchLine)))

theorem Safety.canonical.issue (h : canonical s) {b t i chk eff} (heff : ∀ t, canonical t → canonical (eff t)) :
    canonical ((Machine.issueGate s b t i chk).run s eff) :=
  h.run h.issueGate heff

theorem Safety.canonical.opReserved (h : canonical s) {b t w} : canonical (Machine.opReserved s b t w) :=
  .ite h (.ite h.fetchLine.bitsEvent.preciseFault h.fetchLine.preciseFault)

/-! #### Machine/Scalar -/

theorem Safety.canonical.putG (h : canonical s) {b t i v} : canonical (s.putG b t i v) :=
  h.updThr

theorem Safety.canonical.opScalar (h : canonical s) {c val b t f} : canonical (Machine.opScalar c val b t f s) :=
  h.issue (fun _ h' => h'.putG)

theorem Safety.canonical.opAlu (h : canonical s) {c o b t f} : canonical (Machine.opAlu c o b t f s) :=
  h.opScalar

theorem Safety.canonical.opAluImm (h : canonical s) {c o b t f} : canonical (Machine.opAluImm c o b t f s) :=
  h.opScalar

theorem Safety.canonical.opMul (h : canonical s) {c o b t f} : canonical (Machine.opMul c o b t f s) :=
  h.opScalar

theorem Safety.canonical.opLoad (h : canonical s) {c n signed b t f} : canonical (Machine.opLoad c n signed b t f s) :=
  h.issue (fun _ h' => .ite h'.eccRead.bitsEvent.preciseFault h'.eccRead.putG)

theorem Safety.canonical.opStore (h : canonical s) {c n b t f} : canonical (Machine.opStore c n b t f s) :=
  h.issue (fun _ h' => .ite h'.bayWrite.bitsEvent.updThr h'.bayWrite.updThr)

theorem Safety.canonical.opBranch (h : canonical s) {c o b t f} : canonical (Machine.opBranch c o b t f s) :=
  h.issue (fun _ h' => h'.updThr)

theorem Safety.canonical.opJal (h : canonical s) {b t f} : canonical (Machine.opJal b t f s) :=
  h.issue (fun _ h' => h'.updThr)

theorem Safety.canonical.opJalr (h : canonical s) {b t f} : canonical (Machine.opJalr b t f s) :=
  h.issue (fun _ h' => h'.updThr)

theorem Safety.canonical.opSetvl (h : canonical s) {b t f} : canonical (Machine.opSetvl b t f s) :=
  h.issue (fun _ h' => h'.updThr)

theorem Safety.canonical.scribeCopy (h : canonical s) {b} : canonical (s.scribeCopy b).1 :=
  h.draw.frame

theorem Safety.canonical.opRdsys (h : canonical s) {b t f} : canonical (Machine.opRdsys b t f s) :=
  h.issue (fun _ h' => by split; exacts [h'.putG, h'.putG, h'.putG, h'.scribeCopy.putG, h'.putG])

/-! #### Machine/Pairs -/

theorem Safety.canonical.ownRead (h : canonical s) {src a n} : canonical (s.ownRead src a n).1 :=
  .ite_fst h (.ite_fst h.checkAccess.devRead h.checkAccess)

theorem Safety.canonical.ownWrite (h : canonical s) {src a bs} : canonical (s.ownWrite src a bs).1 :=
  .ite_fst h (.ite_fst h.checkAccess.devWrite h.checkAccess)

theorem Safety.canonical.setSlot (h : canonical s) {b i x} : canonical (s.setSlot b i x) :=
  h.updBay

theorem Safety.canonical.setPort (h : canonical s) {p x} : canonical (s.setPort p x) :=
  h.frame

theorem Safety.canonical.hold (h : canonical s) {x y} : canonical (s.hold x y) :=
  h.frame

theorem Safety.canonical.inject (h : canonical s) {p} : canonical (s.inject p) :=
  h.hold

theorem Safety.canonical.sendNote (h : canonical s) {type srcEp dst k fs} : canonical (s.sendNote type srcEp dst k fs) :=
  h.inject

theorem Safety.canonical.takeNote (h : canonical s) {type dstEp k fs} : canonical (s.takeNote type dstEp k fs) :=
  h.frame

theorem Safety.canonical.fabLog (h : canonical s) {code d port} : canonical (s.fabLog code d port) :=
  .ite h h.setFs

theorem Safety.canonical.fabErr (h : canonical s) {code d port} : canonical (s.fabErr code d port) :=
  h.incF.fabLog

theorem Safety.canonical.setSrc (h : canonical s) {x} : canonical (s.setSrc x) :=
  h.frame

theorem Safety.canonical.endReq (h : canonical s) {r c} : canonical (s.endReq r c) :=
  .frame (.ite h.bitsEvent h)

theorem Safety.canonical.padded (h : canonical s) {bs} : canonical (s.padded bs).1 :=
  .ite_fst h h.draw

theorem Safety.canonical.payloadOf (h : canonical s) {r} : canonical (s.payloadOf r).1 :=
  .ite_fst h (.ite_fst h.padded h.devRead.padded)

theorem Safety.canonical.sendAmo (h : canonical s) {r smark pinc} : canonical (s.sendAmo r smark pinc) := by
  unfold State.sendAmo
  split
  · split
    · exact h
    · exact .ite h h.updBay.inject
  · exact h

theorem Safety.canonical.pump (h : canonical s) {d n} : canonical (s.pump d n) := by
  induction n generalizing s with
  | zero => exact h
  | succ n ih =>
    rw [State.pump]
    split
    · exact h
    · split
      · exact h
      · refine .ite (ih h.setSrc.sendAmo) (.ite h (.ite (ih h.payloadOf.setSrc.endReq) (ih h.payloadOf.setSrc.inject)))

theorem Safety.canonical.pumpAll (h : canonical s) {d} : canonical (s.pumpAll d) := by
  unfold State.pumpAll
  split
  · exact h.pump
  · exact h

theorem Safety.canonical.sendNow (h : canonical s) {d rs} : canonical (s.sendNow d rs) := by
  unfold State.sendNow
  split
  · exact .ite (h.foldl (fun _ _ h' => h'.endReq)) h.setSrc.pumpAll
  · exact .ite (h.foldl (fun _ _ h' => h'.sendAmo)) (by split; exacts [h.frame, h.frame.pumpAll])

theorem Safety.canonical.sendReqs (h : canonical s) {d rs} : canonical (s.sendReqs d rs) :=
  .ite h.frame h.sendNow

theorem Safety.canonical.unstall (h : canonical s) {n} : canonical (s.unstall n) := by
  induction n generalizing s with
  | zero => exact h
  | succ n ih =>
    rw [State.unstall]
    split
    · exact h
    · exact .ite h (ih h.frame.sendNow)

theorem Safety.canonical.breakPair (h : canonical s) {d code port} : canonical (s.breakPair d code port) := by
  unfold State.breakPair
  dsimp only
  split
  · exact h.frame.fabErr.bitsEvent
  · exact .ite h.frame.fabErr.bitsEvent (h.frame.fabErr.bitsEvent.frame.foldl (fun _ _ h' => h'.endReq))

/-! #### Machine/Entries -/

theorem Safety.canonical.updPlumb (h : canonical s) {f} : canonical (s.updPlumb f) :=
  h.frame

theorem Safety.canonical.setPlumbBay (h : canonical s) {b x} : canonical (s.setPlumbBay b x) :=
  h.updPlumb

theorem Safety.canonical.noteHold (h : canonical s) {b} : canonical (s.noteHold b) :=
  .ite h h.setPlumbBay.incF

theorem Safety.canonical.plumbSay (h : canonical s) {k fs} : canonical (s.plumbSay k fs) :=
  h.sendNote

theorem Safety.canonical.plumbHeard (h : canonical s) {k fs} : canonical (s.plumbHeard k fs) :=
  h.takeNote

theorem Safety.canonical.settleSteps (h : canonical s) : canonical s.settleSteps :=
  h.frame

theorem Safety.canonical.takeStop (h : canonical s) {mark} : canonical (s.takeStop mark) :=
  h.setF

theorem Safety.canonical.chooseStop (h : canonical s) : canonical s.chooseStop :=
  h.takeStop.plumbSay

theorem Safety.canonical.sendReport (h : canonical s) : canonical s.sendReport :=
  h.plumbSay

theorem Safety.canonical.diverge (h : canonical s) {kind bay step lo hi idx seq group} :
    canonical (s.diverge kind bay step lo hi idx seq group) :=
  .chooseStop (.sendReport (.setF (.ite h.settleSteps.incF h.settleSteps.incF.setFs)))

theorem Safety.canonical.divergeChunk (h : canonical s) {kind e} : canonical (s.divergeChunk kind e) :=
  h.diverge

theorem Safety.canonical.comparePairs (h : canonical s) {b x} : canonical (s.comparePairs b x) :=
  .ite (.plumbSay (.ite h.setPlumbBay.updPlumb h.setPlumbBay)) (.ite h.setPlumbBay.updPlumb h.setPlumbBay)

theorem Safety.canonical.strip (h : canonical s) {b any check lo hi} : canonical (s.strip b any check lo hi) :=
  .ite h h.comparePairs

theorem Safety.canonical.chunkHold (h : canonical s) {k} : answers (s.chunkHold k) :=
  .ite .none (.some h.updPlumb.incF)

theorem Safety.canonical.sendRing (h : canonical s) {b} : canonical (s.sendRing b) :=
  h.foldl (fun _ _ h' => h'.plumbSay)

theorem Safety.canonical.meetEntry (h : canonical s) {e} : canonical (s.meetEntry e) := by
  unfold State.meetEntry
  split
  · exact .updPlumb (.ite h.updPlumb h.divergeChunk)
  · exact h.updPlumb

theorem Safety.canonical.chunkEntry (h : canonical s) {c} : canonical (s.chunkEntry c) :=
  .ite h h.updPlumb.meetEntry

/-! #### Machine/Vector -/

theorem Safety.canonical.readRows (h : canonical s) {b l} : canonical (Machine.readRows b l s).1 := by
  induction l generalizing s with
  | nil => exact h
  | cons r l ih => exact .ite_fst h.eccRead (ih h.eccRead)

theorem Safety.canonical.storeWord (h : canonical s) {b cs k} : canonical (s.storeWord b cs k).1 := by
  unfold State.storeWord
  refine .ite_fst h.incF ?_
  extract_lets +onlyGivenNames one s₁ s₂
  have h₁ : canonical s₁ := h.foldl (fun _ _ h' => h'.setMem)
  have h₂ : canonical s₂ := h₁.frame
  exact .ite h₂.incF.tickEvent h₂

theorem Safety.canonical.storeWords (h : canonical s) {b cs l} : canonical (Machine.storeWords b cs l s).1 := by
  induction l generalizing s with
  | nil => exact h
  | cons k l ih => exact .ite_fst h.storeWord (ih h.storeWord)

theorem Safety.canonical.storeGroups (h : canonical s) {b l} : canonical (Machine.storeGroups b l s).1 := by
  induction l generalizing s with
  | nil => exact h
  | cons g l ih => exact .ite_fst h.storeWords (ih h.storeWords)

theorem Safety.canonical.storeBytes (h : canonical s) {b cs} : canonical (s.storeBytes b cs).1 :=
  h.storeGroups

theorem Safety.canonical.vstore (h : canonical s) {p b vl act src} : canonical (Machine.vstore p b vl act src s).1 :=
  .ite_fst (.ite_fst h.readRows h) (.storeBytes (.ite_fst h.readRows h))

theorem Safety.canonical.opVecIssue (h : canonical s) {c b t f} : canonical (Machine.opVecIssue c b t f s) :=
  h.issue (fun _ h' => h'.updBay)

theorem Safety.canonical.commitVec (h : canonical s) {b q qseq gd o} : canonical (s.commitVec b q qseq gd o) :=
  h.updBay

theorem Safety.canonical.vecEvents (h : canonical s) {b o} : canonical (s.vecEvents b o) := by
  unfold State.vecEvents
  extract_lets +onlyGivenNames s₁ s₂
  have h₁ : canonical s₁ := h.foldl (fun _ _ h' => h'.flagEvents)
  have h₂ : canonical s₂ := .ite h₁ h₁.incF
  exact .ite h₂ h₂.incF

theorem Safety.canonical.engineError (h : canonical s) {b e qseq pc gd} : canonical (s.engineError b e qseq pc gd) :=
  h.bitsEvent.engineStop

theorem Safety.canonical.vecInstr (h : canonical s) {b q e c f x y} : canonical (Machine.vecInstr b q e c f x y s) := by
  unfold Machine.vecInstr
  extract_lets +onlyGivenNames rg vl act stop
  have hs : ∀ t, canonical t → canonical (stop t) := fun t ht => ht.engineError
  split
  · exact .ite (hs _ h.readRows) h.readRows.commitVec
  · exact .ite (hs _ h.vstore) h.vstore
  · exact .ite (hs _ h.readRows) h.readRows.commitVec
  · exact h.bayWrite
  · extract_lets needsFree d o t
    have ht : canonical t := .vecEvents (.ite_fst h.draw h)
    split
    · exact ht.engineStop
    · exact ht.commitVec

/-! #### Machine/Press -/

theorem Safety.canonical.opPressIssue (h : canonical s) {c b t f} : canonical (Machine.opPressIssue c b t f s) :=
  h.issue (fun _ h' => h'.updBay)

theorem Safety.canonical.accRead (h : canonical s) {b a i} : canonical (Machine.accRead b a i s).1 :=
  .ite (.incF (.ite h h.incF.tickEvent)) (.ite h h.incF.tickEvent)

theorem Safety.canonical.pressRead (h : canonical s) {b o n} : canonical (Machine.pressRead b o n s).1 :=
  h.readRows

theorem Safety.canonical.runTurn (h : canonical s) {b} : canonical (Machine.runTurn b s) :=
  h.updBay

theorem Safety.canonical.mmCount (h : canonical s) {b c} : canonical (s.mmCount b c) := by
  unfold State.mmCount
  extract_lets +onlyGivenNames s₁ s₂ s₃ s₄ s₅
  have h₁ : canonical s₁ := h.flagEvents
  have h₂ : canonical s₂ := .ite h₁ h₁.incF
  have h₃ : canonical s₃ := .ite h₂ h₂.incF
  have h₄ : canonical s₄ := .ite h₃ h₃.incF
  have h₅ : canonical s₅ := .ite h₄ h₄.incF
  exact .ite h₅ h₅.incF

theorem Safety.canonical.healAcc (h : canonical s) {b one a} : canonical (s.healAcc b one a) :=
  h.updBay

theorem Safety.canonical.accStRows (h : canonical s) {b a fo dst sc r0 n i} : canonical (Machine.accStRows b a fo dst sc r0 n i s).1 := by
  induction n generalizing s i with
  | zero => exact h
  | succ n ih =>
    rw [Machine.accStRows]
    refine .ite_fst h.accRead (.ite_fst h.accRead.bayWrite ?_)
    split
    · exact ih h.accRead.bayWrite
    · exact .ite_fst h.accRead.bayWrite.bayWrite (ih h.accRead.bayWrite.bayWrite)

/-! #### Machine/Sync -/

theorem Safety.canonical.launchFired (h : canonical s) {mark now} : canonical (s.launchFired mark now) :=
  .ite (.incF (.ite h.frame.incF.tickEvent h.frame)) (.ite h.frame.incF.tickEvent h.frame)

theorem Safety.canonical.enterWait (h : canonical s) {b t w} : canonical (s.enterWait b t w) :=
  h.updThr

theorem Safety.canonical.leaveWait (h : canonical s) {b t gd v} : canonical (s.leaveWait b t gd v) :=
  h.updThr

theorem Safety.canonical.opSync (h : canonical s) {b t f} : canonical (Machine.opSync b t f s) :=
  h.issue (fun _ h' => .ite h'.updThr h'.enterWait)

theorem Safety.canonical.opSyncRelease (h : canonical s) {b t} : canonical (Machine.opSyncRelease b t s) := by
  unfold Machine.opSyncRelease
  split
  · exact .ite h.leaveWait h
  · exact h

theorem Safety.canonical.fenceFinish (h : canonical s) {b t limit gd seen} : canonical (s.fenceFinish b t limit gd seen) := by
  unfold State.fenceFinish
  dsimp only
  split
  · exact h.updThr
  · exact h.updBay.updThr.leaveWait

theorem Safety.canonical.opFence (h : canonical s) {b t f} : canonical (Machine.opFence b t f s) :=
  h.issue (fun _ h' => .ite h'.fenceFinish h'.enterWait)

theorem Safety.canonical.opFenceComplete (h : canonical s) {b t} : canonical (Machine.opFenceComplete b t s) := by
  unfold Machine.opFenceComplete
  split
  · exact .ite h.fenceFinish h
  · exact h

theorem Safety.canonical.readFlag (h : canonical s) {b t off cmp cond gd other} (hother : ∀ s, canonical s → canonical (other s)) :
    canonical (s.readFlag b t off cmp cond gd other) :=
  .ite h.eccRead.bitsEvent.preciseFault (.ite h.eccRead.leaveWait (hother _ h.eccRead))

theorem Safety.canonical.opWaitFlag (h : canonical s) {b t f} : canonical (Machine.opWaitFlag b t f s) :=
  h.issue (fun _ h' => h'.readFlag (fun _ h'' => .ite h''.enterWait h''.scribeCopy.enterWait))

theorem Safety.canonical.opWaitFlagReread (h : canonical s) {b t} : canonical (Machine.opWaitFlagReread b t s) := by
  unfold Machine.opWaitFlagReread
  split
  · exact .ite h (h.readFlag (fun _ h' => h'))
  · exact h

theorem Safety.canonical.opWaitFlagTimeout (h : canonical s) {b t} : canonical (Machine.opWaitFlagTimeout b t s) := by
  unfold Machine.opWaitFlagTimeout
  split
  · exact .ite h (h.scribeCopy.readFlag (fun _ h' => h'.leaveWait))
  · exact h

theorem Safety.canonical.releaseScribe (h : canonical s) {b t mark now gd} : canonical (s.releaseScribe b t mark now gd) :=
  h.launchFired.leaveWait

theorem Safety.canonical.opWaitScribe (h : canonical s) {b t f} : canonical (Machine.opWaitScribe b t f s) :=
  h.issue (fun _ h' => .ite h'.scribeCopy.releaseScribe h'.scribeCopy.enterWait)

theorem Safety.canonical.opWaitScribeRelease (h : canonical s) {b t} : canonical (Machine.opWaitScribeRelease b t s) := by
  unfold Machine.opWaitScribeRelease
  split
  · exact .ite h h.scribeCopy.releaseScribe
  · exact h

theorem Safety.canonical.opEnd (h : canonical s) {b t f} : canonical (Machine.opEnd b t f s) :=
  h.issue (fun _ h' => h'.updThr)

theorem Safety.canonical.bayGo (h : canonical s) {b} : canonical (s.bayGo b) :=
  h.updBay

theorem Safety.canonical.bayStop (h : canonical s) {b} : canonical (s.bayStop b) :=
  h.updBay

/-! #### Machine/Message -/

theorem Safety.canonical.startSlot (h : canonical s) {b i x} : canonical (s.startSlot b i x) :=
  .ite h (.ite h.endReq (.ite h.sendReqs h.setSlot.sendReqs))

theorem Safety.canonical.takeSlot (h : canonical s) {b t k f} : canonical (s.takeSlot b t k f) :=
  h.setBay.startSlot

theorem Safety.canonical.failSlot (h : canonical s) {b i code} : canonical (s.failSlot b i code) := by
  unfold State.failSlot
  split
  · exact h
  · exact .ite h (.setSlot (.ite h.incF h.incF.setFs))

theorem Safety.canonical.endSlot (h : canonical s) {b i} : canonical (s.endSlot b i) := by
  unfold State.endSlot
  split
  · exact h
  · refine .ite h ?_
    extract_lets +onlyGivenNames s₁
    have h₁ : canonical s₁ := h.setSlot
    split
    · split; exacts [h₁.bayWrite, h₁]
    · split; exacts [h₁.updBay, h₁]
    · split; exacts [h₁.updBay, h₁]
    · split; exacts [h₁.updBay.updThr, h₁]

theorem Safety.canonical.deliverAmo (h : canonical s) {b i v} : canonical (s.deliverAmo b i v) := by
  unfold State.deliverAmo
  split
  · exact h
  · exact h.setSlot.updThr

theorem Safety.canonical.pushAck (h : canonical s) {b i x a} : canonical (s.pushAck b i x a) :=
  h.setSlot

theorem Safety.canonical.carryPart (h : canonical s) {b i x p rd wr at_} (hrd : ∀ t a n, canonical t → canonical (rd t a n).1)
    (hwr : ∀ t a bs, canonical t → canonical (wr t a bs).1) (hat : ∀ t a o x y, canonical t → canonical (at_ t a o x y).1) :
    canonical (s.carryPart b i x p rd wr at_) := by
  unfold State.carryPart
  cases (decide (bayAddr b 0 ≤ p.range.1) && decide (p.range.1 + p.range.2 ≤ bayAddr b 0x100000))
  all_goals
    extract_lets +onlyGivenNames m own chk
    have hc : ∀ t q, canonical t → canonical (chk t q).1 := fun t q ht => .ite_fst ht ht.access
    refine .ite h.pushAck ?_
    split
    · refine .ite h.eccRead.bitsEvent.setSlot.failSlot.endSlot ?_
      extract_lets +onlyGivenNames bs x' c
      have hc' : canonical c.1 := .ite_fst h.eccRead (hc _ _ h.eccRead)
      exact .ite hc'.pushAck (hwr _ _ _ hc').pushAck
    · exact .ite (hc _ _ h).pushAck (hrd _ _ _ (hc _ _ h)).pushAck
    · exact .ite (hc _ _ h).pushAck (hat _ _ _ _ _ (hc _ _ h)).pushAck
    · exact .ite (hc _ _ h).pushAck (hat _ _ _ _ _ (hc _ _ h)).pushAck

theorem Safety.canonical.opMessageAck (h : canonical s) {b slot} : canonical (Machine.opMessageAck b slot s) := by
  unfold Machine.opMessageAck
  extract_lets +onlyGivenNames i
  split
  · exact h
  · split
    · exact h
    · refine .ite h ?_
      extract_lets +onlyGivenNames s₁ s₂
      have h₁ : canonical s₁ := h.setSlot
      have h₂ : canonical s₂ := .ite h₁.failSlot (by split; exacts [.ite h₁ h₁.bayWrite, h₁.deliverAmo, h₁])
      exact h₂.endSlot

theorem Safety.canonical.slotReqDone (h : canonical s) {b i ord r code} : canonical (s.slotReqDone b i ord r code) := by
  unfold State.slotReqDone
  split
  · exact h
  · exact .ite h (.endSlot (.ite h.failSlot (.ite (.ite h.setSlot.sendReqs h.setSlot) h)))

theorem Safety.canonical.opMsgIssue (h : canonical s) {k b t f} : canonical (Machine.opMsgIssue k b t f s) :=
  h.issue (fun _ h' => h'.takeSlot)

theorem Safety.canonical.settleMsgs (h : canonical s) : canonical s.settleMsgs :=
  h.frame.foldl (fun _ _ h' => by split; exacts [h'.slotReqDone, h'])

/-! #### Machine/Coll -/

theorem Safety.canonical.setColl (h : canonical s) {b c} : canonical (s.setColl b c) :=
  h.updBay

theorem Safety.canonical.settle (h : canonical s) {b k i code} : canonical (s.settle b k i code) :=
  h.bayWrite

theorem Safety.canonical.withdrawLedger (h : canonical s) {u} : canonical (s.withdrawLedger u) :=
  h.frame

theorem Safety.canonical.dropColl (h : canonical s) {b g q} : canonical (s.dropColl b g q) :=
  h.frame.updBay

theorem Safety.canonical.mapNotices (h : canonical s) {f} : canonical (s.mapNotices f) :=
  h.frame

theorem Safety.canonical.tell (h : canonical s) {b g q r} : canonical (s.tell b g q r) := by
  unfold State.tell
  split
  · exact h.setColl
  · exact h.frame

theorem Safety.canonical.noteTo (h : canonical s) {b g q dst kind fs} : canonical (s.noteTo b g q dst kind fs) :=
  .ite (by split; exacts [h.tell, h]) (.sendNote (by split; exacts [h.tell, h]))

theorem Safety.canonical.sendNotice (h : canonical s) {n} : canonical (s.sendNotice n) :=
  h.noteTo

theorem Safety.canonical.notify (h : canonical s) {n} : canonical (s.notify n) :=
  .ite h.frame h.frame.sendNotice

theorem Safety.canonical.sendAborts (h : canonical s) {b g q rank code detector dest} :
    canonical (s.sendAborts b g q rank code detector dest) :=
  h.foldl (fun _ _ h' => h'.notify)

theorem Safety.canonical.dropNotices (h : canonical s) {b g q} : canonical (s.dropNotices b g q) :=
  h.frame

theorem Safety.canonical.abortColl (h : canonical s) {b g q code detector} : canonical (s.abortColl b g q code detector) := by
  unfold State.abortColl
  split
  · exact h
  · extract_lets +onlyGivenNames s₁ s₂ s₃ s₄
    have h₁ : canonical s₁ := h.foldl (fun _ _ h' => .ite h' h'.settle)
    have h₂ : canonical s₂ := h₁.foldl (fun _ _ h' => h'.openBytes)
    have h₃ : canonical s₃ := h₂.dropColl.dropNotices.bitsEvent
    have h₄ : canonical s₄ := h₃.incF
    exact .ite h₄ h₄.setFs

theorem Safety.canonical.detect (h : canonical s) {b g q code} : canonical (s.detect b g q code) := by
  unfold State.detect
  split
  · exact h
  · exact h.abortColl.sendAborts

theorem Safety.canonical.abortDevice (h : canonical s) {code p} : canonical (s.abortDevice code p) :=
  h.foldl (fun _ _ h' => .sendAborts (h'.foldl (fun _ _ h'' => h''.abortColl)))

theorem Safety.canonical.chunkRead (h : canonical s) {b k i} : canonical (s.chunkRead b k i).1 :=
  .ite_fst h.eccRead h.eccRead

theorem Safety.canonical.sendChunk (h : canonical s) {b k rank i bs} : canonical (s.sendChunk b k rank i bs) :=
  .ite (.frame (.tell (.ite h.incF h))) (.sendReqs (.tell (.ite h.incF h)))

theorem Safety.canonical.combine (h : canonical s) {b k i j} : canonical (s.combine b k i j).1 := by
  unfold State.combine
  extract_lets +onlyGivenNames n own o e
  have h₁ : canonical own.1 := h.chunkRead
  have h₂ : canonical e.1 := h₁.eccRead
  split
  · exact h₁
  · exact .ite_fst h₂ (.ite h₂.bayWrite.flagEvents h₂.bayWrite.flagEvents.incF)

theorem Safety.canonical.takeWork (h : canonical s) {b c limit} : canonical (s.takeWork b c limit) :=
  h.updBay

theorem Safety.canonical.stepPost (h : canonical s) {b c} : answers (Machine.stepPost s b c) :=
  .ite (.some h.setColl.updBay) .none

theorem Safety.canonical.stepForward (h : canonical s) {b c} : answers (Machine.stepForward s b c) := by
  unfold Machine.stepForward
  refine .ite .none ?_
  split
  · exact .none
  · refine .ite h.chunkHold ?_
    extract_lets +onlyGivenNames r
    have h₁ : canonical r.1 := h.chunkRead
    split
    · exact .some h₁.bitsEvent.detect
    · extract_lets +onlyGivenNames c' s₂ least s₃
      have h₂ : canonical s₂ := h₁.setColl
      have h₃ : canonical s₃ := .ite h₂.chunkEntry h₂
      exact .some h₃.takeWork.sendChunk

theorem Safety.canonical.stepCombine (h : canonical s) {b c} : answers (Machine.stepCombine s b c) := by
  unfold Machine.stepCombine
  refine .ite .none ?_
  split
  · exact .some h.setColl
  · exact .ite (.ite (.some h.combine.bitsEvent.detect) (.some (.ite h.combine.setColl.noteTo h.combine.setColl))) .none

theorem Safety.canonical.stepUp (h : canonical s) {b c} : answers (Machine.stepUp s b c) := by
  unfold Machine.stepUp
  refine .ite .none ?_
  split
  · exact .none
  · refine .ite (.ite h.chunkHold ?_) .none
    dsimp only
    split
    · exact .some h.chunkRead.bitsEvent.detect
    · exact .some h.chunkRead.chunkEntry.setColl.takeWork.sendChunk

theorem Safety.canonical.stepFlag (h : canonical s) {b c} : answers (Machine.stepFlag s b c) := by
  unfold Machine.stepFlag
  split
  · exact .none
  · exact .some (.setColl (.ite h.settle.takeWork h.settle))

theorem Safety.canonical.stepClose (h : canonical s) {b c} : answers (Machine.stepClose s b c) :=
  .ite .none (.ite (.some h.settle.dropColl.dropNotices) .none)

theorem Safety.canonical.collStep (h : canonical s) {b c} : answers (Machine.collStep s b c) := by
  unfold Machine.collStep
  refine .ite .none ?_
  exact .orElse h.stepPost (.ite .none (.orElse h.stepForward (.orElse h.stepCombine (.orElse h.stepUp (.orElse h.stepFlag h.stepClose)))))

theorem Safety.canonical.runColl (h : canonical s) {b g q n} : canonical (s.runColl b g q n) := by
  induction n generalizing s with
  | zero => exact h
  | succ n ih =>
    rw [State.runColl]
    refine .ite h ?_
    split
    · exact h
    · split
      · exact h
      · next t e => exact ih (h.collStep t e)

/-! #### Machine/Splice -/

theorem Safety.canonical.opSplice (h : canonical s) {c b t f} : canonical (Machine.opSplice c b t f s) :=
  h.issue (fun _ h' => .ite h'.eccRead.bitsEvent.preciseFault h'.eccRead.updBay)

theorem Safety.canonical.routeTokens {x : State × Routing} (h : canonical x.1) {b k topk n i} :
    canonical (Machine.routeTokens b k topk n i x).1 := by
  induction n generalizing x i with
  | zero => exact h
  | succ n ih => exact .ite_fst h (.ite_fst h.eccRead.bitsEvent (ih h.eccRead))

theorem Safety.canonical.expertStore (h : canonical s) {b k d addr from_ bs} : canonical (s.expertStore b k d addr from_ bs).1 :=
  .ite_fst (.ite_fst h.access.devWrite h.access) h.sendReqs

theorem Safety.canonical.storeRows (h : canonical s) {b c l} : canonical (Machine.storeRows b c l s).1 := by
  induction l generalizing s with
  | nil => exact h
  | cons r l ih =>
    exact .ite_fst h.eccRead.bitsEvent (.ite_fst h.eccRead (.ite_fst h.eccRead.expertStore (ih h.eccRead.expertStore)))

theorem Safety.canonical.storeTallies (h : canonical s) {b k x l} : canonical (Machine.storeTallies b k x l s).1 := by
  induction l generalizing s with
  | nil => exact h
  | cons e l ih => exact .ite_fst (ih h) (.ite_fst h.expertStore (ih h.expertStore.notify))

theorem Safety.canonical.dispatch (h : canonical s) {b c} : canonical (s.dispatch b c) := by
  unfold State.dispatch
  extract_lets +onlyGivenNames k x w
  have h₁ : canonical x.1 := h.routeTokens
  have h₂ : canonical w.1 := h₁.storeRows
  refine .ite h₂.detect ?_
  split
  · exact h₂.detect
  · exact .ite h₂.storeTallies.detect (by split; exacts [h₂.storeTallies, h₂.storeTallies.setColl])

theorem Safety.canonical.reroute (h : canonical s) {b c} : canonical (s.reroute b c) := by
  unfold State.reroute
  dsimp only
  split
  · exact h.routeTokens.detect
  · exact h.routeTokens.setColl

theorem Safety.canonical.fetchDone (h : canonical s) {b c x bs} : canonical (s.fetchDone b c x bs) :=
  .ite (.ite h.setColl.detect (.ite h.setColl.detect h.setColl)) h.setColl

theorem Safety.canonical.fetch (h : canonical s) {b c x} : answers (s.fetch b c x) := by
  unfold State.fetch
  refine .ite (.ite (.some h.access.detect) (.some (.ite h.access.devRead.detect h.access.devRead.fetchDone))) ?_
  exact .ite .none (.some h.setBay.sendReqs)

theorem Safety.canonical.storeOutputs (h : canonical s) {b c s₀ n i} : canonical (Machine.storeOutputs b c s₀ n i s).1 := by
  induction n generalizing s i with
  | zero => exact h
  | succ n ih => exact .ite_fst h.bayWrite (ih h.bayWrite)

theorem Safety.canonical.stepCombineSource (h : canonical s) {b c} : answers (Machine.stepCombineSource s b c) := by
  unfold Machine.stepCombineSource
  refine .ite .none ?_
  split
  · split
    · exact .ite h.fetch .none
    · exact .some h.detect
  · have hw := h.storeOutputs (b := b) (c := c) (s₀ := s) (n := c.ntok) (i := 0)
    exact .ite (.some hw.bitsEvent.detect) (.some (hw.setColl.foldl fun _ _ h' => h'.notify))

theorem Safety.canonical.stepCloseExperts (h : canonical s) {b c} : answers (Machine.stepCloseExperts s b c) :=
  .ite (.some (.dropNotices (.dropColl (.settle (.ite h.bayWrite h))))) .none

theorem Safety.canonical.expertStep (h : canonical s) {b c} : answers (Machine.expertStep s b c) :=
  .ite (.some h.dispatch) (.ite (.some h.reroute) (.orElse (.ite h.stepCombineSource .none) h.stepCloseExperts))

theorem Safety.canonical.runExperts (h : canonical s) {b g q n} : canonical (s.runExperts b g q n) := by
  induction n generalizing s with
  | zero => exact h
  | succ n ih =>
    rw [State.runExperts]
    refine .ite h ?_
    split
    · exact h
    · refine .ite h ?_
      split
      · exact h
      · next t e => exact ih (h.expertStep t e)

theorem Safety.canonical.work (h : canonical s) {b g q} : canonical (s.work b g q) := by
  unfold State.work
  split
  · exact h
  · exact .ite h.runExperts h.runColl

theorem Safety.canonical.workBay (h : canonical s) {b} : canonical (s.workBay b) :=
  h.foldl (fun _ _ h' => h'.work)

theorem Safety.canonical.workAll (h : canonical s) : canonical s.workAll :=
  h.foldl (fun _ _ h' => h'.work)

theorem Safety.canonical.chunkAck (h : canonical s) {b g q rank idx code} : canonical (s.chunkAck b g q rank idx code) := by
  unfold State.chunkAck
  split
  · exact h
  · exact .ite h (.ite h.detect h.setColl.work)

theorem Safety.canonical.freeTallies (h : canonical s) {b g q} : canonical (s.freeTallies b g q) :=
  h.foldl (fun _ _ h' => h'.mapNotices.sendNotice)

theorem Safety.canonical.fetchFails (h : canonical s) {b i} : canonical (s.fetchFails b i) := by
  unfold State.fetchFails
  split
  · exact h
  · split
    · exact h.setSlot.detect
    · exact h

theorem Safety.canonical.reqDone (h : canonical s) {r code} : canonical (s.reqDone r code) := by
  unfold State.reqDone
  split
  · exact h.slotReqDone.fetchFails
  · exact .ite h.chunkAck h
  · exact .ite h.detect h.freeTallies.work
  · exact h
  · exact h

theorem Safety.canonical.settleEnded (h : canonical s) {n} : canonical (s.settleEnded n) := by
  induction n generalizing s with
  | zero => exact h
  | succ n ih =>
    refine .ite h (ih (h.frame.foldl fun s e h' => ?_))
    split
    · exact h'.detect
    · exact h'.reqDone

theorem Safety.canonical.joinCheck (h : canonical s) {b k} : canonical (s.joinCheck b k).1 := by
  unfold State.joinCheck
  refine .ite_fst h ?_
  extract_lets +onlyGivenNames r
  have h₁ : canonical r.1 := h.ownRead
  exact .ite_fst h₁ (.ite_fst h₁ (.ite_fst h₁ (.ite_fst h₁ (.ite_fst h₁ h₁))))

theorem Safety.canonical.takeEarly (h : canonical s) {b k e} : canonical (s.takeEarly b k e) := by
  unfold State.takeEarly
  split
  · exact h.abortColl
  · split
    · exact h
    · exact .ite h.detect h.setColl

theorem Safety.canonical.openColl (h : canonical s) {b k ga gb gc fmt} : canonical (s.openColl b k ga gb gc fmt) := by
  unfold State.openColl
  extract_lets +onlyGivenNames c s₁ j
  have hj : canonical j.1 := h.updBay.joinCheck
  split
  · exact hj.frame.detect
  · extract_lets s₂ s₃
    have h₃ : canonical s₃ := hj.setColl.foldl fun _ _ h' => h'.notify
    split
    · exact h₃
    · exact h₃.frame.takeEarly

theorem Safety.canonical.acceptColl (h : canonical s) {b k ga gb gc fmt} : answers (s.acceptColl b k ga gb gc fmt) :=
  .ite (.some h) (.ite .none (.some h.openColl))

theorem Safety.canonical.raiseHigh (h : canonical s) {b k hi} : canonical (s.raiseHigh b k hi) := by
  unfold State.raiseHigh
  split
  · exact h
  · exact h.setColl.work

theorem Safety.canonical.loseNeighbours (h : canonical s) : canonical s.loseNeighbours := by
  unfold State.loseNeighbours
  dsimp only
  exact .ite h (h.frame.foldl (fun _ _ h' => by split; exacts [h', .ite h'.detect h']))

theorem Safety.canonical.settled (h : canonical s) : canonical s.settled :=
  h.settleEnded.loseNeighbours

theorem Safety.canonical.answer (h : canonical s) {code} : canonical (s.answer code) :=
  h.frame

theorem Safety.canonical.noticeFate (h : canonical s) {kind b g q rank expert accepted} :
    canonical (s.noticeFate kind b g q rank expert accepted) :=
  h.mapNotices

theorem Safety.canonical.early (h : canonical s) {b g q limit f} : canonical (s.early b g q limit f).1 := by
  unfold State.early
  split
  · exact h.frame
  · exact .ite_fst h.frame.tickEvent h

theorem Safety.canonical.notice (h : canonical s) {kind b g q rank expert take keep} (htake : ∀ s y, canonical s → canonical (take s y)) :
    canonical (s.notice kind b g q rank expert take keep) := by
  unfold State.notice
  split
  · exact .ite (.answer (htake _ _ h.noticeFate)) h
  · exact .ite h.early.noticeFate.answer h.noticeFate.answer

theorem Safety.canonical.opJoinNotice (h : canonical s) {b g q rank digest} : canonical (Machine.opJoinNotice b g q rank digest s) :=
  .settled (h.takeNote.notice (fun _ _ h' => .ite h'.detect h'.setColl.work))

theorem Safety.canonical.opTallyNotice (h : canonical s) {b g q rank expert} : canonical (Machine.opTallyNotice b g q rank expert s) :=
  .settled (h.takeNote.notice (fun _ _ h' => h'.setColl.work))

theorem Safety.canonical.opReleaseNotice (h : canonical s) {b g q rank} : canonical (Machine.opReleaseNotice b g q rank s) :=
  .settled (h.takeNote.notice (fun _ _ h' => h'.setColl.work))

theorem Safety.canonical.opDoneNotice (h : canonical s) {b g q rank} : canonical (Machine.opDoneNotice b g q rank s) :=
  .settled (h.takeNote.notice (fun _ _ h' => h'.setColl.work))

theorem Safety.canonical.takeInner (h : canonical s) {b rank x} : canonical (s.takeInner b rank x) :=
  h.frame

theorem Safety.canonical.opChunk (h : canonical s) {b rank x data} : canonical (Machine.opChunk b rank x data s) := by
  unfold Machine.opChunk
  extract_lets +onlyGivenNames g i q
  split
  · exact h.takeInner.answer
  · refine .ite h ?_
    extract_lets +onlyGivenNames s₁ k c s₂
    have h₁ : canonical s₁ := h.takeInner
    have h₂ : canonical s₂ := h₁.setColl
    refine .ite h₁.answer (.ite h₁.answer (.ite h₂.detect.answer (.ite h₂.detect.answer (.ite ?_ ?_))))
    · split
      · exact h₂.answer
      · split
        · exact h₂
        · exact .ite h₂.answer (.ite h₂.answer (.ite h₂.bayWrite.bitsEvent.detect.answer h₂.bayWrite.setColl.work.answer))
    · exact .ite h₂.answer (.ite h₂.answer (.ite h₂.answer
        (.ite h₂.bayWrite.bitsEvent.detect.answer h₂.bayWrite.setColl.work.answer)))

theorem Safety.canonical.opCredit (h : canonical s) {b g q} : canonical (Machine.opCredit b g q s) := by
  unfold Machine.opCredit
  dsimp only
  split
  · exact h.takeNote.answer
  · split
    · exact .ite h.takeNote.setColl.work.settled.answer h.takeNote
    · exact h.takeNote

theorem Safety.canonical.opChunkAck (h : canonical s) {b g q rank idx status} : canonical (Machine.opChunkAck b g q rank idx status s) := by
  unfold Machine.opChunkAck
  dsimp only
  split
  · exact .ite h.mapNotices h
  · exact .ite (.settled (.work (.ite h.mapNotices.setColl h.mapNotices))) h.chunkAck.settled

theorem Safety.canonical.opAbortNotice (h : canonical s) {b g q code det} : canonical (Machine.opAbortNotice b g q code det s) := by
  unfold Machine.opAbortNotice
  extract_lets +onlyGivenNames s₁ rank fwd
  have h₁ : canonical s₁ := h.takeNote
  have hf (t : State) (ht : canonical t) : canonical (fwd t) := .ite ht.sendAborts ht
  split
  · exact (hf _ h₁.abortColl.mapNotices).answer
  · exact .ite h₁.mapNotices.answer (.answer (.ite h₁.early.mapNotices (hf _ h₁.early.mapNotices)))

theorem Safety.canonical.opEarlyExpiry (h : canonical s) {b g q} : canonical (Machine.opEarlyExpiry b g q s) := by
  unfold Machine.opEarlyExpiry
  split
  · exact .ite h.frame h
  · exact h

theorem Safety.canonical.opNoticeResend (h : canonical s) {k} : canonical (Machine.opNoticeResend k s) := by
  unfold Machine.opNoticeResend
  split
  · exact h
  · exact .ite h h.mapNotices.sendNotice

theorem Safety.canonical.opSlowSend (h : canonical s) {b g q rank} : canonical (Machine.opSlowSend b g q rank s) := by
  unfold Machine.opSlowSend
  split
  · exact h
  · exact .ite h h.noteTo.incF.tickEvent

theorem Safety.canonical.opSlowArrival (h : canonical s) {b g q rank} : canonical (Machine.opSlowArrival b g q rank s) := by
  unfold Machine.opSlowArrival
  dsimp only
  split
  · exact h.takeNote.setColl
  · exact h.takeNote

theorem Safety.canonical.opSilence (h : canonical s) {b g q rank} : canonical (Machine.opSilence b g q rank s) := by
  unfold Machine.opSilence
  split
  · exact .ite h.detect h
  · exact h

theorem Safety.canonical.opGroupCheck (h : canonical s) {g} : canonical (Machine.opGroupCheck g s) :=
  .ite h (.frame (.setFs (.ite_fst h (.ite_fst h h.ownRead))))

/-! #### Machine/Device -/

theorem Safety.canonical.updHost (h : canonical s) {f} (hf : ∀ x, (f x).mem = x.mem := by exact fun _ => rfl) : canonical (s.updHost f) :=
  canonical_of_eq h rfl (hf _) rfl

theorem Safety.canonical.hostWrite (h : canonical s) {a l} : canonical (s.hostWrite a l) := canonical_hostWrite h a l

theorem Safety.canonical.sendMsi (h : canonical s) {v} : canonical (s.sendMsi v) :=
  .ite h.setF h.hostWrite

theorem Safety.canonical.hostErr (h : canonical s) {kind ring code addr} : canonical (s.hostErr kind ring code addr) :=
  .sendMsi (.ite h.incF h.incF.setFs)

theorem Safety.canonical.mgmtEvent (h : canonical s) {code detail} : canonical (s.mgmtEvent code detail) :=
  .ite h.incF h.frame

theorem Safety.canonical.extendMeas (h : canonical s) {r d} : canonical (s.extendMeas r d) :=
  h.frame

theorem Safety.canonical.portReady (h : canonical s) {p} : canonical (s.portReady p) :=
  .ite h.freshLanes.setFs.setPort h.setPort

theorem Safety.canonical.enterReady (h : canonical s) : canonical s.enterReady :=
  .extendMeas (h.foldl (fun _ _ h' => h'.portReady))

theorem Safety.canonical.setDevState (h : canonical s) {n} : canonical (s.setDevState n) := by
  unfold State.setDevState
  refine .ite h ?_
  extract_lets +onlyGivenNames s₁ s₂ s₃
  have h₁ : canonical s₁ := h.setF.stick.sendMsi
  have h₂ : canonical s₂ := h₁.mgmtEvent
  have h₃ : canonical s₃ := .ite h₂.setF h₂
  exact .ite h₃.enterReady h₃

theorem Safety.canonical.setWaiting (h : canonical s) {q l} : canonical (s.setWaiting q l) :=
  h.updHost

theorem Safety.canonical.post (h : canonical s) {r} : canonical (s.post r) :=
  .ite h h.setWaiting

theorem Safety.canonical.setCmd (h : canonical s) {c} : canonical (s.setCmd c) :=
  h.updHost

theorem Safety.canonical.ringOff (h : canonical s) {q} : canonical (s.ringOff q) :=
  .ite h.setF h

theorem Safety.canonical.finishCmd (h : canonical s) {k code detail result} : canonical (s.finishCmd k code detail result) := by
  unfold State.finishCmd
  split
  · exact h
  · exact .ringOff (.ite h.updHost h.updHost.post)

theorem Safety.canonical.finishLong (h : canonical s) {k code detail} : canonical (s.finishLong k code detail) :=
  h.finishCmd

theorem Safety.canonical.updLdg (h : canonical s) {f} : canonical (s.updLdg f) :=
  h.frame

theorem Safety.canonical.hemEnd (h : canonical s) {x code} : canonical (s.hemEnd x code) :=
  .elim h.withdrawLedger.updLdg.setFs (fun _ => h.withdrawLedger.updLdg.setFs.finishLong)

theorem Safety.canonical.showProgress (h : canonical s) {op} : canonical (s.showProgress op) := by
  unfold State.showProgress
  split
  · exact h
  · exact .ite h.setCmd.post h

theorem Safety.canonical.faultReport (h : canonical s) {b t} : canonical (s.faultReport b t) := by
  unfold State.faultReport
  split
  · exact h
  · exact .ite h (by dsimp only; split; exacts [h.updHost, h.updHost.post])

theorem Safety.canonical.abortStopped (h : canonical s) {b p} : canonical (s.abortStopped b p) :=
  h.foldl (fun _ _ h' => h'.detect)

theorem Safety.canonical.opDrainDone (h : canonical s) {b t} : canonical (Machine.opDrainDone b t s) := by
  unfold Machine.opDrainDone
  extract_lets +onlyGivenNames r r'
  split
  · exact h
  · refine .ite h ?_
    extract_lets status s₁ s₂
    have h₁ : canonical s₁ := h.updThr
    have h₂ : canonical s₂ := by unfold s₂; split; exacts [h₁, h₁.abortStopped, h₁.abortStopped, h₁]
    exact .ite h₂.faultReport h₂

theorem Safety.canonical.stopBays (h : canonical s) : canonical s.stopBays := by
  unfold State.stopBays
  split
  · exact h
  · exact h.foldl (fun _ _ h' => h'.bayStop)

theorem Safety.canonical.updJob (h : canonical s) {f} : canonical (s.updJob f) :=
  h.updHost

theorem Safety.canonical.stopDone (h : canonical s) : canonical s.stopDone :=
  h.foldl (fun _ _ h' => h'.finishCmd)

theorem Safety.canonical.endJob (h : canonical s) : canonical s.endJob := by
  unfold State.endJob
  split
  · exact h
  · exact .ite (.stopDone (.elim h.updHost.setDevState (fun _ => h.updHost.setDevState.finishCmd))) h

theorem Safety.canonical.deviceLoss (h : canonical s) : canonical s.deviceLoss :=
  h.updJob.stopBays.abortDevice

/-! #### Machine/Engines -/

/-- The state that an instruction of the press leaves. -/
def Machine.PressEnd.state : PressEnd → State
  | .done s | .error s | .trap s => s

theorem Safety.canonical.tookRow {x : MmRun} (h : canonical x.s) {pipe bad trap} : canonical (x.tookRow pipe bad trap).s := by
  unfold MmRun.tookRow
  split
  · exact h
  · split
    · exact h.draw
    · exact h

theorem Safety.canonical.ite_run {c : Prop} [Decidable c] {x y : MmRun} (hx : canonical x.s) (hy : canonical y.s) :
    canonical (if c then x else y).s := by
  split <;> assumption

theorem Safety.canonical.ite_end {c : Prop} [Decidable c] {x y : PressEnd} (hx : canonical x.state) (hy : canonical y.state) :
    canonical (if c then x else y).state := by
  split <;> assumption

theorem Safety.canonical.done (h : canonical s) : canonical (PressEnd.done s).state := h

theorem Safety.canonical.error (h : canonical s) : canonical (PressEnd.error s).state := h

theorem Safety.canonical.mmRows {x : MmRun} (h : canonical x.s) {b k fa depth a sc useS ow zr mask r0 pipe n i} :
    canonical (Machine.mmRows b k fa depth a sc useS ow zr mask r0 pipe n i x).s := by
  induction n generalizing x i with
  | zero => exact h
  | succ n ih =>
    unfold Machine.mmRows
    refine .ite_run h (.ite_run (ih ?_) ?_)
    · exact h
    extract_lets +onlyGivenNames d c
    have hd : canonical d.1 := h.pressRead
    have hc : canonical c.1 := .ite_fst hd.pressRead hd
    have hq : canonical (if ow then (c.1, x.acc, false) else Machine.accRead b x.acc (r0 + i) c.1).1 := .ite_fst hc hc.accRead
    exact .ite_run (.ite hd hc) (.ite_run (ih hc) (ih (.tookRow hq)))

theorem Safety.canonical.accLdRows {x : MmRun} (h : canonical x.s) {b src r0 add n i} :
    canonical (Machine.accLdRows b src r0 add n i x).s := by
  induction n generalizing x i with
  | zero => exact h
  | succ n ih =>
    unfold Machine.accLdRows
    extract_lets +onlyGivenNames o d
    have hd : canonical d.1 := h.pressRead
    exact .ite_run h (.ite_run hd (ih (.tookRow (.ite_fst hd.accRead hd))))

theorem Safety.canonical.runMm (h : canonical s) {b f ga gs gr mask} : canonical (Machine.runMm b f ga gs gr mask s).state := by
  unfold Machine.runMm
  extract_lets +onlyGivenNames y one k fa cls depth useS rr x s₁
  have hx : canonical x.s := .mmRows h
  have h₁ : canonical s₁ := hx.mmCount
  exact .ite_end h₁.healAcc (.ite_end h₁.healAcc (.done h₁.updBay))

theorem Safety.canonical.runLds (h : canonical s) {b f g} : canonical (Machine.runLds b f g s).state :=
  .ite_end h.pressRead (.ite_end h.pressRead.pressRead (.ite_end h.pressRead.pressRead.pressRead (.done h.pressRead.pressRead.pressRead.updBay)))

theorem Safety.canonical.runAccSt (h : canonical s) {b fo one clr ga gs gr} : canonical (Machine.runAccSt b fo one clr ga gs gr s).state :=
  .ite_end (.error h.accStRows.updBay) (.done h.accStRows.strip.updBay)

theorem Safety.canonical.runAccLd (h : canonical s) {b f ga gr} : canonical (Machine.runAccLd b f ga gr s).state := by
  unfold Machine.runAccLd
  extract_lets +onlyGivenNames one rr x s₁
  have hx : canonical x.s := .accLdRows h
  have h₁ : canonical s₁ := hx.mmCount
  exact .ite_end h₁.healAcc (.ite_end h₁.healAcc (.done h₁.updBay))

theorem Safety.canonical.spliceAccSt (h : canonical s) {b f ga gb gc k} : canonical (Machine.spliceAccSt b f ga gb gc k s).state := by
  have hr := h.runAccSt (b := b) (fo := f.mod.toNat % 16) (one := f.mod.getLsbD 4) (clr := f.mod.getLsbD 5) (ga := ga) (gs := gb) (gr := gc)
  unfold Machine.spliceAccSt
  dsimp only
  split
  · next t e => exact Safety.canonical.raiseHigh (s := t) (by rwa [e] at hr)
  · exact hr

theorem Safety.canonical.pressRun (h : canonical s) {b op} : ∀ e ∈ Machine.pressRun b op s, canonical e.state := by
  cases op with
  | mm f ga gs gr mask => rintro _ ⟨⟩; exact h.runMm
  | lds f ga => rintro _ ⟨⟩; exact h.runLds
  | turn => rintro _ ⟨⟩; exact h.runTurn
  | accClr f => rintro _ ⟨⟩; exact .done h.updBay
  | accSt f ga gs gr => rintro _ ⟨⟩; exact h.runAccSt
  | accLd f ga gr => rintro _ ⟨⟩; exact h.runAccLd
  | accWin f => rintro _ ⟨⟩; exact .done h.updBay
  | splice reduce f ga gb gc k =>
    intro e he
    obtain ⟨t, ht, rfl⟩ := Option.mem_map.mp he
    have ht' : canonical t := h.acceptColl t ht
    exact .ite_end ht'.spliceAccSt ht'.work

theorem Safety.canonical.opPressAccept (h : canonical s) {b} : canonical (Machine.opPressAccept b s) := by
  unfold Machine.opPressAccept
  refine .ite h ?_
  split
  · exact h
  · refine .ite h.noteHold ?_
    split
    · exact h
    · next t e => exact Safety.canonical.settled (h.updBay.pressRun _ e)
    · next t e => exact Safety.canonical.engineError (h.updBay.pressRun _ e)
    · next t e => exact Safety.canonical.engineStop (h.updBay.pressRun _ e)

theorem Safety.canonical.spliceVst (h : canonical s) {b f ga gb vl} : canonical (Machine.spliceVst b f ga gb vl s).1 :=
  .ite_fst h.bayWrite h.vstore

theorem Safety.canonical.acceptCombine (h : canonical s) {b k} : canonical (Machine.acceptCombine b k s) := by
  unfold Machine.acceptCombine
  split
  · exact h
  · exact .ite h (.work (.ite (h.foldl (fun _ _ h' => h'.notify)) h))

theorem Safety.canonical.vecSplice (h : canonical s) {b e c f ga gb gc k} : answers (Machine.vecSplice b e c f ga gb gc k s) := by
  refine .ite .none (.map h.acceptColl fun s h' => ?_)
  split
  · exact .ite h' h'.work
  · exact .ite h' h'.acceptCombine
  · exact .ite (.ite h'.spliceVst.engineError h'.spliceVst.raiseHigh) h'.work

theorem Safety.canonical.opVectorStart (h : canonical s) {b q} : canonical (Machine.opVectorStart b q s) := by
  unfold Machine.opVectorStart
  refine .ite h ?_
  split
  · split
    · exact h
    · split
      · exact h.updBay.vecInstr
      · exact .getD (.map h.updBay.vecSplice fun _ h' => h'.settled) h
  · split
    · exact h
    · split; exacts [h.updBay.vecInstr, h.updBay]

theorem Safety.canonical.opCollectiveJoin (h : canonical s) {b g q} : canonical (Machine.opCollectiveJoin b g q s) :=
  .ite h (.ite h.opPressAccept (.ite h.opVectorStart h))

/-! #### Machine/Hbm -/

theorem Safety.canonical.updHbm (h : canonical s) {f} : canonical (s.updHbm f) :=
  h.frame

theorem Safety.canonical.wakeStacks (h : canonical s) {a n} : canonical (s.wakeStacks a n) :=
  .ite h h.updHbm

theorem Safety.canonical.serveSlot (h : canonical s) {b i addr op errs} : canonical (s.serveSlot b i addr op errs) := by
  unfold State.serveSlot
  split
  · exact h
  · split
    · exact h
    · exact .ite h (h.carryPart (fun _ _ _ h' => h'.devRead) (fun _ _ _ h' => h'.devWrite) (fun _ _ _ _ _ h' => h'.devAmo))

theorem Safety.canonical.serveHbm (h : canonical s) {src a op errs} : canonical (s.serveHbm src a op errs) := by
  unfold State.serveHbm
  dsimp only
  split
  · exact h.wakeStacks.serveSlot
  · exact .ite h.wakeStacks.frame (by split; exacts [h.wakeStacks.devRead.frame, h.wakeStacks.devWrite.frame, h.wakeStacks.devAmo.frame])
  · exact .ite h.wakeStacks.frame (by split; exacts [h.wakeStacks.devRead.frame, h.wakeStacks.devWrite.frame, h.wakeStacks.devAmo.frame])
  · exact .ite h.wakeStacks.frame (by split; exacts [h.wakeStacks.devRead.frame, h.wakeStacks.devWrite.frame, h.wakeStacks.devAmo.frame])

theorem Safety.canonical.joinQueue (h : canonical s) {pc src a op errs} : canonical (s.joinQueue pc src a op errs) :=
  .ite h h.updHbm

theorem Safety.canonical.takeHbm (h : canonical s) {src a op errs} : canonical (s.takeHbm src a op errs) := by
  unfold State.takeHbm
  split
  · exact h.joinQueue
  · exact h.serveHbm

theorem Safety.canonical.beyondFolds (h : canonical s) : canonical s.beyondFolds :=
  .ite h.updHbm.foldPending.deviceLoss h

theorem Safety.canonical.opHbmRequest (h : canonical s) {src addr op errs} : canonical (Machine.opHbmRequest src addr op errs s) :=
  .ite h.takeHbm.beyondFolds h

theorem Safety.canonical.serveHeld (h : canonical s) {pc row mainTurn n} : canonical (s.serveHeld pc row mainTurn n) := by
  induction n generalizing s row mainTurn with
  | zero => exact h
  | succ n ih =>
    rw [State.serveHeld]
    dsimp only
    split
    · exact h
    · split
      · exact h
      · exact ih h.updHbm.takeHbm

theorem Safety.canonical.opEccWriteback (h : canonical s) {addr} : canonical (Machine.opEccWriteback addr s) := by
  unfold Machine.opEccWriteback
  dsimp only
  split
  · exact h
  · split
    · exact .ite h.updHbm h.unitStore
    · exact h.unitStore

theorem Safety.canonical.endScrub (h : canonical s) : canonical s.endScrub :=
  .elim h.updHbm.setFs (fun _ => h.updHbm.setFs.finishLong)

theorem Safety.canonical.scrubStep (h : canonical s) {u} : canonical (s.scrubStep u) :=
  .ite h (.ite h.setFs.showProgress.updHbm h.setFs.showProgress.endScrub)

theorem Safety.canonical.opPatrolScrub (h : canonical s) {addr errs} : canonical (Machine.opPatrolScrub addr errs s) :=
  .ite h (.beyondFolds (.ite h.settleUnit.unitRead.scrubStep h.settleUnit.unitRead))

theorem Safety.canonical.stackTemp (h : canonical s) {k t} : canonical (s.stackTemp k t) :=
  .ite (.ite h.setFs.updHbm h.setFs) (.tickEvent (.ite h.setFs.updHbm h.setFs))

theorem Safety.canonical.opHbmTempRead (h : canonical s) {stack temp} : canonical (Machine.opHbmTempRead stack temp s) := by
  unfold Machine.opHbmTempRead
  split
  · exact h.frame.stackTemp
  · exact .ite h.frame.incF.stackTemp h.frame

theorem Safety.canonical.opSelfRefresh (h : canonical s) {stack} : canonical (Machine.opSelfRefresh stack s) :=
  .ite h.updHbm h

theorem Safety.canonical.startRetrain (h : canonical s) {pc cause} : canonical (s.startRetrain pc cause) :=
  .ite h h.updHbm.incF.tickEvent

theorem Safety.canonical.opRetrainStart (h : canonical s) {pc cause} : canonical (Machine.opRetrainStart pc cause s) :=
  .ite h.startRetrain h

theorem Safety.canonical.endRetrain (h : canonical s) {pc t} : canonical (s.endRetrain pc t) :=
  .beyondFolds (.serveHeld (.elim (.ite h.updHbm h.updHbm.failPc) (fun _ => .finishCmd (.ite h.updHbm h.updHbm.failPc))))

theorem Safety.canonical.opRetrainDone (h : canonical s) {pc res} : canonical (Machine.opRetrainDone pc res s) := by
  unfold Machine.opRetrainDone
  split
  · exact h
  · split
    · exact h.endRetrain
    · dsimp only
      split
      · exact .ite h.updHbm.incF h.updHbm.incF
      · exact h.updHbm.incF
      · exact h.endRetrain

theorem Safety.canonical.dropBand (h : canonical s) {band} : canonical (s.dropBand band) := h.filterMem

theorem Safety.canonical.dropReserve (h : canonical s) {band} : canonical (s.dropReserve band) := by
  unfold State.dropReserve
  extract_lets r reset ldg baste s₁ s₂ s₃ s₄
  have h₂ : canonical s₂ := h.setFs.frame.withdrawLedger
  have h₃ : canonical s₃ := .ite (h₂.elim fun _ => .ite h₂.finishCmd h₂) h
  have h₄ : canonical s₄ := .ite (h₃.elim fun _ => h₃.hemEnd) h₃
  exact .ite h₄.setF h₄

theorem Safety.canonical.startFold (h : canonical s) {pc} : canonical (s.startFold pc) := by
  unfold State.startFold
  extract_lets +onlyGivenNames s₁
  have h₁ : canonical s₁ := h.updHbm
  refine .ite h₁.foldPending.deviceLoss ?_
  extract_lets +onlyGivenNames top moves s₂ s₃
  have h₂ : canonical s₂ := h₁.setFs.dropReserve.dropBand
  have h₃ : canonical s₃ := h₂.updHbm.foldPending
  exact .ite h₃.endScrub h₃

theorem Safety.canonical.opFoldStart (h : canonical s) {pc} : canonical (Machine.opFoldStart pc s) :=
  .ite h.startFold h

theorem Safety.canonical.settleUnits (h : canonical s) {us : List Nat} : canonical (us.foldl (fun s u => s.settleUnit u) s) :=
  h.foldl fun _ _ h' => h'.settleUnit

theorem Safety.canonical.loseUnits (h : canonical s) {pc us} : canonical (s.loseUnits pc us) := by
  unfold State.loseUnits
  split
  · exact h
  · extract_lets s₁ s₂ first s₃ s₄
    have h₁ : canonical s₁ := Safety.canonical.settleUnits h
    have h₂ : canonical s₂ := .filterMem h₁
    have h₃ : canonical s₃ := h₂.incF.incF
    exact .bitsEvent (.ite h₃.setFs h₃)

theorem Safety.canonical.endFold (h : canonical s) : canonical s.endFold := by
  unfold State.endFold
  extract_lets +onlyGivenNames s₁ s₂ s₃
  have h₁ : canonical s₁ := h.updHbm
  have h₂ : canonical s₂ := h₁.setF.foldPending
  have h₃ : canonical s₃ := .ite h₂.tickEvent h₂
  exact .elim h₃ (fun _ => h₃.finishLong)

theorem Safety.canonical.opFoldPiece (h : canonical s) {lost} : canonical (Machine.opFoldPiece lost s) := by
  unfold Machine.opFoldPiece
  split
  · exact h
  · split
    · exact h
    · refine .ite h ?_
      extract_lets +onlyGivenNames k s₁ us s₂ s₃ n j s₄ s₅
      have h₁ : canonical s₁ := h.foldl (fun _ _ h' => h'.evict)
      have h₂ : canonical s₂ := h₁.updHbm
      have h₃ : canonical s₃ := h₂.loseUnits
      have h₄ : canonical s₄ := h₃.updHbm.setFs
      have h₅ : canonical s₅ := h₄.showProgress
      exact .ite h₅.endFold h₅

theorem Safety.canonical.writeBackSill (h : canonical s) {sill} : canonical (s.writeBackSill sill) :=
  h.foldl (fun _ _ h' => h'.writeBackLine)

theorem Safety.canonical.placeLine (h : canonical s) {l} : canonical (s.placeLine l) :=
  .ite h.updHbm (by split; exacts [h.updHbm.draw.dropLine, h.updHbm.draw])

theorem Safety.canonical.replaceSill (h : canonical s) {sill} : canonical (s.replaceSill sill) :=
  .ite (h.foldl fun _ _ h' => h'.dropLine) (h.updHbm.foldr fun _ _ h' => h'.placeLine)

theorem Safety.canonical.clearSeg (h : canonical s) {j} : canonical (s.clearSeg j) := h.filterMem

theorem Safety.canonical.changeSeg (h : canonical s) {j mode} : canonical (s.changeSeg j mode) :=
  .clearSeg (.replaceSill (.setFs (.ite (h.writeBackSill.foldl (fun _ _ h' => h'.dropLine)) h.writeBackSill)))

theorem Safety.canonical.writeSeg (h : canonical s) {j v} : canonical (Machine.writeSeg j v s).1 :=
  h.guarded (fun _ h' => .ite h' h'.changeSeg)

theorem Safety.canonical.dropLines (h : canonical s) {band} : canonical (s.dropLines band) :=
  h.foldl (fun _ _ h' => h'.dropLine)

theorem Safety.canonical.changeMode (h : canonical s) {band mode} : canonical (s.changeMode band mode) :=
  h.dropLines.setF.draw.frame

theorem Safety.canonical.changeCache (h : canonical s) {band c} : canonical (s.changeCache band c) :=
  .setF (.ite h (h.foldl (fun _ _ h' => h'.evict)))

theorem Safety.canonical.writeBand (h : canonical s) {band v} : canonical (Machine.writeBand band v s).1 := by
  unfold Machine.writeBand
  refine h.guarded fun s h' => ?_
  extract_lets m c dm dc s₁ s₂
  have h₁ : canonical s₁ := .ite h'.changeMode h'
  have h₂ : canonical s₂ := .ite h₁.changeCache h₁
  exact .ite h₂.setF h₂

theorem Safety.canonical.opLlsChangeDone (h : canonical s) {t} : canonical (Machine.opLlsChangeDone t s) := by
  unfold Machine.opLlsChangeDone
  split <;> exact h.setF

theorem Safety.canonical.opHbm1500 (h : canonical s) {p stack w} : canonical (Machine.opHbm1500 p stack w s) :=
  h.answer

/-! #### Machine/Ledger -/

theorem Safety.canonical.stepBoundary (h : canonical s) : canonical s.stepBoundary :=
  h.updLdg.setFs

theorem Safety.canonical.noteWritten (h : canonical s) {i bs} : canonical (s.noteWritten i bs) :=
  h.updLdg

theorem Safety.canonical.digestProg (h : canonical s) {st done total code} : canonical (s.digestProg st done total code) :=
  h.setFs

theorem Safety.canonical.digestFail (h : canonical s) {code} : canonical (s.digestFail code) :=
  .elim h.updLdg.digestProg (fun _ => h.updLdg.digestProg.finishLong)

theorem Safety.canonical.digestEnd (h : canonical s) {d} : canonical (s.digestEnd d) :=
  .elim h.updLdg.digestProg (fun _ => h.updLdg.digestProg.finishLong)

theorem Safety.canonical.digestStart (h : canonical s) {cls} : canonical (s.digestStart cls).1 := by
  unfold State.digestStart
  refine .ite_fst h ?_
  refine .ite_fst h ?_
  extract_lets +onlyGivenNames rs leaves d s₁
  have h₁ : canonical s₁ := h.updLdg.digestProg
  exact .ite_fst h₁.digestFail (.ite_fst h₁.digestEnd h₁)

theorem Safety.canonical.digestLeaf (h : canonical s) {d} : canonical (s.digestLeaf d) := by
  unfold State.digestLeaf
  split
  · exact h
  · exact .ite h.ownRead.digestFail (.ite h.ownRead.updLdg.digestProg.showProgress.digestEnd h.ownRead.updLdg.digestProg.showProgress)

theorem Safety.canonical.opPlumbStart (h : canonical s) {partner} : canonical (Machine.opPlumbStart partner s) :=
  .ite h (.ite h.settleSteps.updPlumb.setFs.plumbHeard.plumbSay h.settleSteps.updPlumb.setFs.plumbHeard.plumbSay.diverge)

theorem Safety.canonical.opPlumbSend (h : canonical s) : canonical (Machine.opPlumbSend s) :=
  .ite h (.incF (.updPlumb (.foldl (h.foldl (fun _ _ h' => h'.plumbSay)) (fun _ _ h' => h'.plumbSay))))

theorem Safety.canonical.takePair (h : canonical s) {p} : canonical (s.takePair p) :=
  h.plumbHeard.comparePairs

theorem Safety.canonical.takeEntry (h : canonical s) {c} : canonical (s.takeEntry c) :=
  .ite h h.plumbHeard.meetEntry

theorem Safety.canonical.opPlumbArrival (h : canonical s) {pairs chunks} : canonical (Machine.opPlumbArrival pairs chunks s) :=
  .ite h (.foldl (h.updPlumb.foldl (fun _ _ h' => h'.takePair)) (fun _ _ h' => h'.takeEntry))

theorem Safety.canonical.opPlumbExchange (h : canonical s) {b entries} : canonical (Machine.opPlumbExchange b entries s) := by
  unfold Machine.opPlumbExchange
  refine .ite h ?_
  extract_lets +onlyGivenNames s₁ s₂
  have h₁ : canonical s₁ := h.updPlumb
  have h₂ : canonical s₂ := .ite h₁.plumbHeard.sendRing (h₁.foldl (fun _ _ h' => h'.plumbHeard))
  dsimp only
  split
  · exact h₂
  · exact h₂.diverge

theorem Safety.canonical.opPlumbUnmatched (h : canonical s) {c} : canonical (Machine.opPlumbUnmatched c s) :=
  .ite h (by split; exacts [h, h.divergeChunk.updPlumb])

theorem Safety.canonical.copyReport (h : canonical s) {rep} : canonical (s.copyReport rep) :=
  .ite h h.setFs

theorem Safety.canonical.opPlumbStopMark (h : canonical s) {mark rep} : canonical (Machine.opPlumbStopMark mark rep s) := by
  unfold Machine.opPlumbStopMark
  refine .ite h ?_
  extract_lets s₁ s₂ s₃
  have h₁ : canonical s₁ := h.updPlumb.plumbHeard.plumbHeard
  have h₂ : canonical s₂ := h₁.settleSteps.incF.setF
  have h₃ : canonical s₃ := .ite h₁ h₂.copyReport.chooseStop
  exact h₃.takeStop

theorem Safety.canonical.opPlumbStop (h : canonical s) : canonical (Machine.opPlumbStop s) :=
  .ite h (.setFs (.updJob (.bitsEvent (h.foldl (fun _ _ h' => h'.bayStop)))))

theorem Safety.canonical.opPlumbLost (h : canonical s) : canonical (Machine.opPlumbLost s) :=
  .ite h h.settleSteps.setF.stick.sendMsi.mgmtEvent

theorem Safety.canonical.writeRegion (h : canonical s) {r i v} : canonical (Machine.writeRegion r i v s).1 :=
  h.guarded (fun _ h' => h'.plainWrite)

theorem Safety.canonical.writeDigestCtrl (h : canonical s) {v} : canonical (Machine.writeDigestCtrl v s).1 :=
  .ite_fst h (.ite_fst h.setF.digestStart h.setF)

theorem Safety.canonical.stateWrite (h : canonical s) {r i v ok} : canonical (s.stateWrite r i v ok).1 :=
  h.guarded (fun _ h' => h'.plainWrite)

theorem Safety.canonical.writeRng (h : canonical s) {r i v} : canonical (Machine.writeRng r i v s).1 :=
  h.stateWrite

theorem Safety.canonical.writePlumb (h : canonical s) {r v} : canonical (Machine.writePlumb r v s).1 :=
  .ite_fst h.stateWrite h.stateWrite.settleSteps.setFs

/-! #### Machine/Secure -/

theorem Safety.canonical.riskTotal (h : canonical s) : canonical s.riskTotal :=
  h.setF

theorem Safety.canonical.opRiskUpdate (h : canonical s) : canonical (Machine.opRiskUpdate s) :=
  h.updLdg.setFs.riskTotal

theorem Safety.canonical.updBaste (h : canonical s) {f} : canonical (s.updBaste f) :=
  h.updLdg

theorem Safety.canonical.basteEnd (h : canonical s) {st code} : canonical (s.basteEnd st code) :=
  h.setFs.withdrawLedger.updBaste.foldl (fun _ _ h' => h'.finishCmd)

theorem Safety.canonical.basteProg (h : canonical s) : canonical s.basteProg :=
  h.setFs.showProgress

theorem Safety.canonical.zeroManifest (h : canonical s) {a} : canonical (s.zeroManifest a) := h.filterMem

theorem Safety.canonical.basteStart (h : canonical s) : canonical s.basteStart := by
  unfold State.basteStart
  extract_lets +onlyGivenNames l r s₁ s₂ s₃
  have h₁ : canonical s₁ := h.updBaste
  have h₂ : canonical s₂ := h₁.withdrawLedger
  have h₃ : canonical s₃ := h₂.setFs
  exact .ite h₃.basteEnd (.ite h₃.basteEnd h₃.updBaste.zeroManifest.setF.incF)

theorem Safety.canonical.basteTry (h : canonical s) {force} : canonical (s.basteTry force) :=
  .ite h (.ite (.ite h h.updBaste.incF) h.basteStart)

theorem Safety.canonical.basteBoundary (h : canonical s) : canonical s.basteBoundary :=
  .ite h (.ite h (.basteTry (.updBaste (.ite h h.incF))))

theorem Safety.canonical.basteForce (h : canonical s) : canonical s.basteForce :=
  .ite h.updBaste.updBaste.basteTry h.updBaste

theorem Safety.canonical.copyRegions (h : canonical s) {base l} : canonical (Machine.copyRegions base l s).1 := by
  induction l generalizing s with
  | nil => exact h
  | cons r l ih => exact .ite_fst h.ownRead (.ite_fst h.ownRead.ownWrite (ih h.ownRead.ownWrite))

theorem Safety.canonical.trickleSend (h : canonical s) {off len data given} : canonical (s.trickleSend off len data given) :=
  h.sendReqs

theorem Safety.canonical.trickleBegin (h : canonical s) : canonical s.trickleBegin :=
  .ite h h.trickleSend.updBaste

theorem Safety.canonical.trickleClose (h : canonical s) : canonical s.trickleClose :=
  .ite h.trickleBegin.trickleSend.updBaste h

theorem Safety.canonical.basteSeal (h : canonical s) : canonical s.basteSeal :=
  .ite h (.ite h.ownWrite.basteEnd (.ite h.ownWrite.updBaste.setF.trickleClose h.ownWrite.updBaste.basteEnd))

theorem Safety.canonical.leaseStop (h : canonical s) : canonical s.leaseStop :=
  .ite h.abortDevice.stopBays.updJob.setFs h.abortDevice.stopBays.updJob.setFs.setDevState

theorem Safety.canonical.opBasteCopy (h : canonical s) : canonical (Machine.opBasteCopy s) := by
  unfold Machine.opBasteCopy
  refine .ite h ?_
  extract_lets b c c' s₁ leaves s₂ s₃ s₄ s₅
  have h₁ : canonical c.1 := h.copyRegions
  have h₁' : canonical c'.1 := .ite_fst h₁.ownWrite h₁
  have h₃ : canonical s₃ := h₁'.updBaste.setF.basteProg
  have h₄ : canonical s₄ := .ite h₁'.basteEnd.updBaste (.ite h₃.basteSeal h₃)
  have h₅ : canonical s₅ := h₄.workAll
  exact .ite h₅.leaseStop h₅

theorem Safety.canonical.basteLeaf (h : canonical s) {x rest} : canonical (s.basteLeaf x rest) :=
  .ite h.ownRead.basteEnd (.basteSeal (.ite h.ownRead.updBaste.setF h.ownRead.updBaste))

theorem Safety.canonical.opLeafDigest (h : canonical s) : canonical (Machine.opLeafDigest s) := by
  unfold Machine.opLeafDigest
  split
  · exact .ite h.basteLeaf h
  · exact .elim h (fun _ => h.digestLeaf)

theorem Safety.canonical.trickleCut (h : canonical s) {code} : canonical (s.trickleCut code) :=
  .ite h.withdrawLedger.updBaste.basteEnd h.withdrawLedger.updBaste.setF

theorem Safety.canonical.opTrickleLeaf (h : canonical s) {status} : canonical (Machine.opTrickleLeaf status s) := by
  unfold Machine.opTrickleLeaf
  refine .ite h ?_
  split
  · exact h.trickleCut
  · exact h
  · exact .ite h.ownRead.basteEnd h.ownRead.trickleBegin.trickleSend.updBaste.basteProg.trickleClose

theorem Safety.canonical.opPartnered (h : canonical s) {status} : canonical (Machine.opPartnered status s) :=
  .ite h (by split; exacts [h.trickleCut, .ite h.basteEnd h])

theorem Safety.canonical.advance (h : canonical s) : canonical s.advance := by
  unfold State.advance
  extract_lets +onlyGivenNames s₁ expiring s₂ s₃
  have h₁ : canonical s₁ := h.stepBoundary
  have h₂ : canonical s₂ := .ite h₁.updBaste h₁
  have h₃ : canonical s₃ := h₂.basteBoundary
  exact .ite h₃.leaseStop h₃

theorem Safety.canonical.writeStep (h : canonical s) {v} : canonical (Machine.writeStep v s).1 :=
  .ite_fst (.ite_fst h.advance h) h.stateWrite

theorem Safety.canonical.opLeaseExpiry (h : canonical s) : canonical (Machine.opLeaseExpiry s) := by
  unfold Machine.opLeaseExpiry
  refine .ite h ?_
  extract_lets +onlyGivenNames st s₁
  have h₁ : canonical s₁ := h.setF.incF
  refine .ite ?_ (.ite h₁.setF.setDevState h₁)
  extract_lets +onlyGivenNames s₂ s₃ s₄
  have h₂ : canonical s₂ := h₁.setF.mgmtEvent
  have h₃ : canonical s₃ := h₂.updBaste
  have h₄ : canonical s₄ := .ite h₃.trickleCut h₃
  exact .elim h₄ (fun _ => h₄.hemEnd)

theorem Safety.canonical.opLeaseGrace (h : canonical s) : canonical (Machine.opLeaseGrace s) :=
  .ite h.bitsEvent.leaseStop h

theorem Safety.canonical.hemStart (h : canonical s) {k coord obj rate} : answers (s.hemStart k coord obj rate) :=
  .ite .none (.some h.updLdg.setFs)

theorem Safety.canonical.hemSend (h : canonical s) {x off len data given} : canonical (s.hemSend x off len data given) :=
  h.sendReqs

theorem Safety.canonical.opHemStore (h : canonical s) {status} : canonical (Machine.opHemStore status s) := by
  unfold Machine.opHemStore
  split
  · exact h
  · refine .ite h ?_
    extract_lets +onlyGivenNames base s₁
    have h₁ : canonical s₁ := .ite h h.hemSend
    split
    · exact .ite h₁.ownRead.hemEnd h₁.ownRead.hemSend.updLdg
    · exact .ite h₁.ownRead.hemEnd h₁.ownRead.hemSend.updLdg.setFs.showProgress

theorem Safety.canonical.opHemDone (h : canonical s) {status} : canonical (Machine.opHemDone status s) := by
  unfold Machine.opHemDone
  split
  · exact h
  · exact .ite h (by split; exacts [h.hemEnd, .ite h.setF.hemEnd h])

theorem Safety.canonical.restorePart (h : canonical s) {w} : canonical (s.restorePart w).1 := by
  unfold State.restorePart
  split
  · exact h
  · split
    · exact h
    · exact h.updLdg

theorem Safety.canonical.sourceRead (h : canonical s) {a fb off n} : canonical (s.sourceRead a fb off n).1 := by
  unfold State.sourceRead
  split
  · exact h
  · exact .ite_fst h (.ite_fst (.ite_fst h.ownRead h) h.restorePart)

theorem Safety.canonical.restoreManifest (h : canonical s) {a} : canonical (s.restoreManifest a).1 := by
  unfold State.restoreManifest
  extract_lets +onlyGivenNames r
  have h₁ : canonical r.1 := h.sourceRead
  exact .ite_fst h₁ (.ite_fst h₁ (.ite_fst h₁ (.ite_fst h₁.sourceRead h₁.sourceRead)))

theorem Safety.canonical.restoreRegion (h : canonical s) {a fb off r} : canonical (s.restoreRegion a fb off r).1 :=
  .ite_fst h.sourceRead (.ite_fst h.sourceRead.ownWrite h.sourceRead.ownWrite)

theorem Safety.canonical.restoreRegions (h : canonical s) {a wrote l} : canonical (Machine.restoreRegions a wrote l s).1 := by
  induction l generalizing s wrote with
  | nil => exact h
  | cons x l ih =>
    obtain ⟨i, r⟩ := x
    rw [Machine.restoreRegions]
    refine .ite_fst (ih h.restoreRegion.setF) (.ite_fst h.restoreRegion ?_)
    extract_lets +onlyGivenNames s₁ bad m
    have hm : canonical m.1 := h.restoreRegion.incF.sourceRead
    split
    · exact .ite_fst (ih hm.restoreRegion.incF.setF) hm.restoreRegion.setF
    · exact hm.setF

theorem Safety.canonical.restoreCursor (h : canonical s) {m} : canonical (s.restoreCursor m) :=
  .setF (.setF (h.foldl (fun _ _ h' => h'.setReg.setReg)))

theorem Safety.canonical.restoreRun (h : canonical s) {a supplied} : canonical (s.restoreRun a supplied).1 := by
  unfold State.restoreRun
  extract_lets +onlyGivenNames s₁ r
  have hr : canonical r.1 := h.setFs.restoreManifest
  clear_value r
  refine .ite_fst hr (.ite_fst hr ?_)
  split
  · exact hr.setF
  · refine .ite_fst hr (.ite_fst ?_ (.ite hr.restoreRegions hr.restoreRegions.restoreCursor))
    exact hr.restoreRegions.foldl fun _ _ h' => h'.openBytes

theorem Safety.canonical.abortEarly (h : canonical s) {code p told} : canonical (s.abortEarly code p told) :=
  h.foldl (fun _ _ h' => .ite h'.frame h'.frame.sendAborts)

theorem Safety.canonical.epochChange (h : canonical s) : canonical s.epochChange :=
  h.launchFired.setFs.abortDevice.abortEarly.incF

theorem Safety.canonical.opEpochChange (h : canonical s) : canonical (Machine.opEpochChange s) :=
  .ite h.epochChange h

theorem Safety.canonical.writeEpoch (h : canonical s) {r v} : canonical (Machine.writeEpoch r v s).1 :=
  h.stateWrite

theorem Safety.canonical.writeEpochCtrl (h : canonical s) {v} : canonical (Machine.writeEpochCtrl v s).1 :=
  .ite_fst h (.ite_fst h h.setF.opEpochChange)

theorem Safety.canonical.writeSec (h : canonical s) {r i v} : canonical (Machine.writeSec r i v s).1 :=
  h.stateWrite

theorem Safety.canonical.writeRes (h : canonical s) {v} : canonical (Machine.writeRes v s).1 :=
  h.guarded (fun _ h' => h'.limitedWrite)

theorem Safety.canonical.writeBasteCtrl (h : canonical s) {v} : canonical (Machine.writeBasteCtrl v s).1 :=
  .ite_fst h (.ite h.limitedWrite.basteForce h.limitedWrite)

theorem Safety.canonical.writeCursor (h : canonical s) {v} : canonical (Machine.writeCursor v s).1 :=
  h.stateWrite

/-! #### Machine/HostIf -/

theorem Safety.canonical.fire (h : canonical s) {c} : canonical (s.fire c) :=
  h.launchFired.setCmd

theorem Safety.canonical.opLaunchFire (h : canonical s) : canonical (Machine.opLaunchFire s) := by
  unfold Machine.opLaunchFire
  split
  · exact h
  · exact .ite h.fire h

theorem Safety.canonical.queueLaunch (h : canonical s) {c} : canonical (s.queueLaunch c) :=
  .ite h.finishCmd (.ite h.fire h.setCmd)

theorem Safety.canonical.takeDescriptor (h : canonical s) {q c} : canonical (s.takeDescriptor q c) :=
  h.setF.incF.updHost

theorem Safety.canonical.opDescriptorFetch (h : canonical s) {q r} : canonical (Machine.opDescriptorFetch q r s) := by
  unfold Machine.opDescriptorFetch
  split
  · exact .ite h (.ite h.updHost (.ite h.takeDescriptor.finishCmd (.ite h.takeDescriptor.queueLaunch h.takeDescriptor)))
  · exact .ite h h.setF.hostErr

theorem Safety.canonical.failMsi (h : canonical s) {v} : canonical (s.failMsi v) :=
  .ite h.sendMsi h.setF.hostErr

theorem Safety.canonical.ringMessage (h : canonical s) {q fails} : canonical (s.ringMessage q fails) :=
  .ite h.updHost.failMsi h.updHost.sendMsi

theorem Safety.canonical.coalesce (h : canonical s) {q fails} : canonical (s.coalesce q fails) :=
  .ite h (.ite h.updHost.ringMessage h.updHost)

theorem Safety.canonical.writeRecord (h : canonical s) {q r rest fails} : canonical (s.writeRecord q r rest fails) :=
  .coalesce (.updHost h.hostWrite.setWaiting)

theorem Safety.canonical.opRecordWrite (h : canonical s) {q ok} : canonical (Machine.opRecordWrite q ok s) := by
  unfold Machine.opRecordWrite
  split
  · exact h
  · exact .ite h (.ite h.writeRecord h.setF.hostErr)

theorem Safety.canonical.opCoalesceTimeout (h : canonical s) {q} : canonical (Machine.opCoalesceTimeout q s) :=
  .ite h.ringMessage h

theorem Safety.canonical.writeSqTail (h : canonical s) {q v} : canonical (Machine.writeSqTail q v s).1 :=
  .ite_fst h h.setF

theorem Safety.canonical.writeCqHead (h : canonical s) {q v} : canonical (Machine.writeCqHead q v s).1 :=
  .ite_fst h h.setF

theorem Safety.canonical.writeSqBase (h : canonical s) {q v} : canonical (Machine.writeSqBase q v s).1 :=
  h.stateWrite

theorem Safety.canonical.writeCqBase (h : canonical s) {q v} : canonical (Machine.writeCqBase q v s).1 :=
  h.stateWrite

theorem Safety.canonical.writeSqCfg (h : canonical s) {q v} : canonical (Machine.writeSqCfg q v s).1 :=
  .ite_fst h (.ite_fst h.limitedWrite.setFs h.limitedWrite.ringOff)

theorem Safety.canonical.writeCqCfg (h : canonical s) {q v} : canonical (Machine.writeCqCfg q v s).1 :=
  .ite_fst h (.ite_fst h.limitedWrite.updHost.setFs (.ite_fst h.limitedWrite h.limitedWrite.setF))

theorem Safety.canonical.writeMsix (h : canonical s) {i v} : canonical (Machine.writeMsix i v s).1 :=
  .ite_fst h.plainWrite.setF.sendMsi h.plainWrite

theorem Safety.canonical.resetHostIf (h : canonical s) : canonical s.resetHostIf :=
  .setF (.foldl (h.updHost.foldl (fun _ _ h' => h'.setFs)) (fun _ _ h' => h'.setReg.setReg))

/-! #### Machine/HostCmd -/

theorem Safety.canonical.passRanges (h : canonical s) {l} : canonical (Machine.passRanges l s).1 := by
  induction l generalizing s with
  | nil => exact h
  | cons x l ih => exact .ite_fst (ih h.access) h.access

theorem Safety.canonical.begin (h : canonical s) {k op chk run} (hrun : ∀ x s, canonical s → canonical (run x s)) :
    canonical (s.begin k op chk run) := by
  unfold State.begin
  split
  · exact h
  · exact .ite h (.ite h.endJob.finishCmd (.ite h.endJob.finishCmd (.ite h.endJob.passRanges.finishCmd (hrun _ _ h.endJob.passRanges.setCmd))))

theorem Safety.canonical.holdGo (h : canonical s) : canonical s.holdGo := by
  unfold State.holdGo
  split
  · exact h
  · exact .ite h (.ite h.updHost.updHost.setDevState.tickEvent.finishCmd h.updHost.finishCmd)

theorem Safety.canonical.finishData (h : canonical s) {k code result} : canonical (s.finishData k code result) :=
  h.finishCmd.holdGo.beyondFolds

theorem Safety.canonical.dmaRead (h : canonical s) {a n} : canonical (s.dmaRead a n).1 :=
  h.wakeStacks.devRead

theorem Safety.canonical.dmaWrite (h : canonical s) {a bs} : canonical (s.dmaWrite a bs).1 :=
  h.wakeStacks.devWrite

theorem Safety.canonical.opWrite (h : canonical s) {k} : canonical (Machine.opWrite k s) :=
  h.begin (fun _ _ h' => h'.setCmd)

theorem Safety.canonical.readPieces (h : canonical s) {host dev l} : canonical (Machine.readPieces host dev l s).1 := by
  induction l generalizing s with
  | nil => exact h
  | cons x l ih => exact .ite_fst h.dmaRead (ih h.dmaRead.hostWrite)

theorem Safety.canonical.opRead (h : canonical s) {k} : canonical (Machine.opRead k s) :=
  .ite h (h.begin (fun _ _ h' => h'.readPieces.finishData))

theorem Safety.canonical.fillPieces (h : canonical s) {dev pat l} : canonical (Machine.fillPieces dev pat l s).1 := by
  induction l generalizing s with
  | nil => exact h
  | cons x l ih => exact .ite_fst h.dmaWrite (ih h.dmaWrite)

theorem Safety.canonical.opFill (h : canonical s) {k} : canonical (Machine.opFill k s) :=
  .ite h (h.begin (fun _ _ h' => h'.fillPieces.finishData))

theorem Safety.canonical.loadProg (h : canonical s) {st done total code} : canonical (s.loadProg st done total code) :=
  h.setFs

theorem Safety.canonical.endHostData (h : canonical s) {c code} : canonical (s.endHostData c code) :=
  .ite (.finishLong (.ite h.loadProg.setF h.loadProg)) h.finishData

theorem Safety.canonical.nextEntry (h : canonical s) {c} : canonical (s.nextEntry c) := by
  unfold State.nextEntry
  split
  · exact h.endHostData
  · exact .ite h.endHostData (.ite h.endHostData (.ite h.passRanges.endHostData h.passRanges.setCmd))

theorem Safety.canonical.opJobLoad (h : canonical s) {k} : canonical (Machine.opJobLoad k s) :=
  h.begin (fun _ _ h' => h'.setF.loadProg.setCmd)

theorem Safety.canonical.listArrives (h : canonical s) {c bs} : canonical (s.listArrives c bs) :=
  .ite h.setCmd h.setCmd.nextEntry

theorem Safety.canonical.dataArrives (h : canonical s) {c r bs} : canonical (s.dataArrives c r bs) := by
  unfold State.dataArrives
  extract_lets +onlyGivenNames bs w
  have h₁ : canonical w.1 := h.dmaWrite
  refine .ite h₁.endHostData ?_
  extract_lets +onlyGivenNames n c s₂ s₃
  have h₂ : canonical s₂ := h₁.setCmd
  have h₃ : canonical s₃ := .ite h₂.loadProg.showProgress h₂
  refine .ite h₃.setCmd ?_
  extract_lets +onlyGivenNames s₄
  have h₄ : canonical s₄ := .elim h₃ (fun _ => h₃.noteWritten)
  exact .ite h₄.setCmd.nextEntry h₄.endHostData

theorem Safety.canonical.opHostRead (h : canonical s) {k r} : canonical (Machine.opHostRead k r s) := by
  unfold Machine.opHostRead
  split
  · exact h
  · refine .ite h (.ite ?_ ?_)
    · split; exacts [h.listArrives, h.endHostData]
    · split
      · exact h
      · split; exacts [.ite h h.dataArrives, h.endHostData]

theorem Safety.canonical.opHostTimeout (h : canonical s) {k} : canonical (Machine.opHostTimeout k s) := by
  unfold Machine.opHostTimeout
  split
  · exact h
  · exact .ite h.endHostData h

theorem Safety.canonical.dmaRemote (h : canonical s) {p a n} : canonical (s.dmaRemote p a n).1 :=
  .ite_fst h (.ite_fst h h.access)

theorem Safety.canonical.ownPieces (h : canonical s) {m l} : canonical (Machine.ownPieces m l s).1 := by
  induction l generalizing s with
  | nil => exact h
  | cons x l ih =>
    exact .ite_fst h.dmaRemote (.ite_fst h.dmaRemote.dmaRead (.ite_fst h.dmaRemote.dmaRead.dmaWrite (ih h.dmaRemote.dmaRead.dmaWrite)))

theorem Safety.canonical.openOverlap (h : canonical s) {m} : canonical (s.openOverlap m) :=
  .ite h (.ite h.openBytes h.openBytes)

theorem Safety.canonical.endDma (h : canonical s) {c code} : canonical (s.endDma c code) :=
  h.finishData

theorem Safety.canonical.dmaCheck (h : canonical s) {k} : canonical (s.dmaCheck k) := by
  unfold State.dmaCheck
  split
  · exact h
  · exact .ite h (by split; exacts [h.endDma, .ite h h.endDma])

theorem Safety.canonical.dmaEnd (h : canonical s) {r code} : canonical (s.dmaEnd r code) := by
  unfold State.dmaEnd
  split
  · split
    · exact h
    · exact h.setCmd
  · exact h

theorem Safety.canonical.settleDma (h : canonical s) : canonical s.settleDma :=
  .foldl (h.frame.foldl (fun _ _ h' => h'.dmaEnd)) (fun _ _ h' => h'.dmaCheck)

theorem Safety.canonical.restoreAsk (h : canonical s) {j} : canonical (s.restoreAsk j) :=
  .elim h.updLdg (fun _ => h.updLdg.sendReqs)

theorem Safety.canonical.restoreGo (h : canonical s) : canonical s.restoreGo := by
  unfold State.restoreGo
  split
  · exact h
  · exact .ite h (by dsimp only; split; exacts [h.restoreAsk, h.restoreRun.updLdg.setFs.finishLong])

theorem Safety.canonical.restoreTake (h : canonical s) {code bs} : canonical (s.restoreTake code bs) := by
  unfold State.restoreTake
  split
  · exact h
  · split
    · exact h
    · exact h.withdrawLedger.updLdg.restoreGo

theorem Safety.canonical.restoreData (h : canonical s) {src offset status bs} : canonical (s.restoreData src offset status bs) := by
  unfold State.restoreData
  split
  · exact h
  · split
    · exact h
    · exact .ite h (.ite h.restoreTake (.ite h.updLdg (.ite h.restoreAsk h.restoreTake)))

theorem Safety.canonical.ledgerFails (h : canonical s) {u code} : canonical (s.ledgerFails u code) := by
  unfold State.ledgerFails
  split
  · exact h.withdrawLedger.updBaste
  · exact h.withdrawLedger.updLdg
  · exact h.restoreTake

theorem Safety.canonical.settleLedger (h : canonical s) : canonical s.settleLedger :=
  h.frame.foldl (fun _ _ h' => .ite h' h'.ledgerFails)

theorem Safety.canonical.settledAll (h : canonical s) : canonical s.settledAll :=
  h.settled.settleDma.settleLedger.beyondFolds

theorem Safety.canonical.runDma (h : canonical s) {c} : canonical (Machine.runDma c s) :=
  .ite (.endDma (.ite h.ownPieces.openOverlap h.ownPieces)) h.setCmd.sendReqs.settleDma

theorem Safety.canonical.opDma (h : canonical s) {k op} : canonical (Machine.opDma k op s) :=
  .ite h (h.begin (fun _ _ h' => h'.runDma))

theorem Safety.canonical.pullData (h : canonical s) {c offset status bs} : canonical (s.pullData c offset status bs) := by
  unfold State.pullData
  refine .ite h ?_
  refine .ite h.setCmd.dmaCheck ?_
  extract_lets +onlyGivenNames w
  have h₁ : canonical w.1 := h.dmaWrite
  exact .ite h₁.setCmd.dmaCheck (.ite h₁.setCmd (.ite h₁.setCmd.endDma h₁.setCmd.sendReqs.settleDma))

theorem Safety.canonical.startBay (h : canonical s) {seam b} : canonical (s.startBay seam b) :=
  .ite h h.setF.bayGo.workBay

theorem Safety.canonical.runJob (h : canonical s) {c bays} : canonical (Machine.runJob c bays s) :=
  .ite h.updHost.updHost.finishCmd (h.updHost.setDevState.foldl (fun _ _ h' => h'.startBay))

theorem Safety.canonical.opJobStart (h : canonical s) {k mask} : canonical (Machine.opJobStart k mask s) :=
  h.begin (fun _ _ h' => .ite h'.runJob (by split; exacts [h'.runJob, h'.finishCmd]))

theorem Safety.canonical.opJobStop (h : canonical s) {k} : canonical (Machine.opJobStop k s) :=
  h.begin (fun _ _ h' => h'.updJob.stopBays.endJob)

theorem Safety.canonical.opHold (h : canonical s) {k} : canonical (Machine.opHold k s) :=
  h.begin (fun _ _ h' => h'.updHost.holdGo)

theorem Safety.canonical.opResume (h : canonical s) {k} : canonical (Machine.opResume k s) :=
  .ite h (h.begin (fun _ _ h' => h'.setDevState.finishCmd.workAll))

theorem Safety.canonical.opNop (h : canonical s) {k} : canonical (Machine.opNop k s) :=
  h.begin (fun _ _ h' => h'.finishCmd)

theorem Safety.canonical.opBaste (h : canonical s) {k} : canonical (Machine.opBaste k s) :=
  h.begin (fun _ _ h' => h'.basteForce)

theorem Safety.canonical.opHem (h : canonical s) {k} : canonical (Machine.opHem k s) :=
  h.begin (fun _ _ h' => .getD h'.hemStart h')

theorem Safety.canonical.opRestore (h : canonical s) {k values more} : canonical (Machine.opRestore k values more s) :=
  h.begin (fun _ _ h' => h'.setFs.updLdg.restoreGo)

theorem Safety.canonical.opDigest (h : canonical s) {k} : canonical (Machine.opDigest k s) :=
  h.begin (fun _ _ h' => h'.digestStart)

theorem Safety.canonical.opRecord (h : canonical s) {k} : canonical (Machine.opRecord k s) :=
  h.begin (fun _ _ h' => by split; exacts [h', h'.frame.hostWrite.finishCmd])

theorem Safety.canonical.opScrub (h : canonical s) {k} : canonical (Machine.opScrub k s) :=
  h.begin (fun _ _ h' => h'.updHbm.setFs)

theorem Safety.canonical.opHostFold (h : canonical s) {k} : canonical (Machine.opHostFold k s) := by
  unfold Machine.opHostFold
  refine h.begin fun c s h' => ?_
  extract_lets s₁ s₂
  have h₁ : canonical s₁ := .ite h'.failPc h'
  have h₂ : canonical s₂ := .ite h₁ h₁.startFold
  exact .ite h₂ h₂.draw.finishLong

theorem Safety.canonical.opRetrain (h : canonical s) {k} : canonical (Machine.opRetrain k s) :=
  h.begin (fun _ _ h' => h')

/-! #### Machine/Link -/

theorem Safety.canonical.linkDown (h : canonical s) {l} : canonical (s.linkDown l) := by
  unfold State.linkDown
  split
  · exact h.setF
  · exact h.setF
  · exact h.deviceLoss

theorem Safety.canonical.opFlitReplay (h : canonical s) {l ok} : canonical (Machine.opFlitReplay l ok s) :=
  .ite h (.ite h.incF.tickEvent.frame.linkDown h.incF.tickEvent.frame)

theorem Safety.canonical.updPort (h : canonical s) {p f} : canonical (s.updPort p f) :=
  h.setPort

theorem Safety.canonical.fitBursts (h : canonical s) {p} : canonical (s.fitBursts p) :=
  h.frame

theorem Safety.canonical.dropFrame (h : canonical s) {p lane f} : canonical (s.dropFrame p lane f) :=
  .ite h.incF h.incF.updPort

theorem Safety.canonical.takeFrame (h : canonical s) {p f q} : canonical (s.takeFrame p f q) :=
  .ite h.updPort.fitBursts.incF (.hold (.ite h.updPort.fitBursts.updPort.frame h.updPort.fitBursts.updPort))

theorem Safety.canonical.opFrameLanding (h : canonical s) {p lane f corr uncorr} :
    canonical (Machine.opFrameLanding p lane f corr uncorr s) := by
  unfold Machine.opFrameLanding
  extract_lets +onlyGivenNames s₁
  have h₁ : canonical s₁ := h.incF.incF.tickEvent
  refine .ite h₁ ?_
  refine .ite h₁.dropFrame ?_
  split
  · exact h₁.updPort.fitBursts
  · exact .ite h₁.takeFrame (.ite h₁.incF h₁.incF.updPort)

theorem Safety.canonical.opCreditReturn (h : canonical s) {p c} : canonical (Machine.opCreditReturn p c s) :=
  .ite h.updPort h

theorem Safety.canonical.opLeadPause (h : canonical s) {p} : canonical (Machine.opLeadPause p s) :=
  h.updPort

theorem Safety.canonical.unreachable (h : canonical s) {p code port} : canonical (s.unreachable p code port) :=
  .ite h.breakPair h.fabErr.inject

theorem Safety.canonical.setHeld (h : canonical s) {x l} : canonical (s.setHeld x l) :=
  h.frame

theorem Safety.canonical.freeSpace (h : canonical s) {x} : canonical (s.freeSpace x) := by
  unfold State.freeSpace
  split
  · exact h
  · exact .ite h h.updPort

theorem Safety.canonical.sendTodo (h : canonical s) {p express} : canonical (s.sendTodo p express) := by
  unfold State.sendTodo
  dsimp only
  split
  · exact h
  · exact h.updPort

theorem Safety.canonical.sendFrame (h : canonical s) {x port kind how ce} : canonical (s.sendFrame x port kind how ce) :=
  .ite h.updPort.fitBursts h.updPort.sendTodo

theorem Safety.canonical.forward (h : canonical s) {ce x} : answers (s.forward ce x) := by
  unfold State.forward
  refine .ite (.some h.freeSpace.unreachable) ?_
  split
  · exact .some h.freeSpace.frame
  · exact .none
  · exact .some h.freeSpace.unreachable
  · exact .ite .none (by split; exacts [.none, .some h.sendFrame.freeSpace])

theorem Safety.canonical.forwardFirst (h : canonical s) {hdr ce blocked firsts before l} :
    canonical (Machine.forwardFirst hdr ce blocked firsts before l s) := by
  induction l generalizing blocked firsts before with
  | nil => exact h
  | cons x l ih =>
    rw [Machine.forwardFirst]
    refine .ite ih ?_
    split
    · next t e => exact h.setHeld.forward t e
    · exact ih

theorem Safety.canonical.opPacketForward (h : canonical s) {x} : canonical (Machine.opPacketForward x s) := by
  unfold Machine.opPacketForward
  split
  · exact h.sendTodo
  · exact h.unstall.forwardFirst.settledAll

theorem Safety.canonical.stopPort (h : canonical s) {p} : canonical (s.stopPort p) :=
  h.setHeld.setPort.fitBursts.stopLanes.setF

theorem Safety.canonical.portDown (h : canonical s) {p c} : canonical (s.portDown p c) :=
  .ite h (.tickEvent (.setFs (.stopPort (.elim h.updPort (fun _ => h.updPort.fabLog)))))

theorem Safety.canonical.opNak (h : canonical s) {p express q} : canonical (Machine.opNak p express q s) := by
  unfold Machine.opNak
  dsimp only
  exact .ite h (by split; exacts [h.updPort.fitBursts, .ite h (.ite h.portDown h.updPort.fitBursts.incF.tickEvent)])

theorem Safety.canonical.opControlFrame (h : canonical s) {p} : canonical (Machine.opControlFrame p s) :=
  .ite h (.ite h.setPort.fitBursts h.setPort)

/-! #### Machine/Fabric -/

theorem Safety.canonical.takeArrived (h : canonical s) {p} : canonical (s.takeArrived p) :=
  h.frame

theorem Safety.canonical.setDst (h : canonical s) {x} : canonical (s.setDst x) :=
  h.frame

theorem Safety.canonical.sendAck (h : canonical s) {x p seq status} : canonical (s.sendAck x p seq status) :=
  h.inject

theorem Safety.canonical.refusal (h : canonical s) {p perm n} : canonical (s.refusal p perm n).1 :=
  .ite_fst h (.ite_fst h (.ite_fst h (.ite_fst h (.ite_fst h h.fabricAccess))))

theorem Safety.canonical.peerManifest (h : canonical s) {a n} : canonical (s.peerManifest a n) :=
  .ite h.setF h

theorem Safety.canonical.applyStore (h : canonical s) {p} : answersFst (s.applyStore p) :=
  .ite .none (.ite (.some h.refusal) (.some h.refusal.wakeStacks.devWrite.peerManifest))

theorem Safety.canonical.applyFlag (h : canonical s) {p} : answersFst (s.applyFlag p) :=
  .ite .none (.ite (.some h.refusal) (.some h.refusal.wakeStacks.devAmo))

theorem Safety.canonical.noteReader (h : canonical s) {p n} : canonical (s.noteReader p n) :=
  .ite h.updLdg h

theorem Safety.canonical.applyGet (h : canonical s) {p} : answersFst (s.applyGet p) :=
  .ite .none (.ite (.some h.refusal) (.some h.refusal.noteReader.wakeStacks.devRead.inject))

theorem Safety.canonical.applyChunk (h : canonical s) {p} : answersFst (s.applyChunk p) := by
  unfold State.applyChunk
  refine .ite (.some h) ?_
  refine .ite (.some h) ?_
  split
  · exact .none
  · refine .ite (.some (p := (_, _)) h.setDst) ?_
    dsimp only
    split
    · exact .some (p := (_, _)) h.setDst
    · exact .ite .none (.some (p := (_, _)) h.setDst.opChunk)

theorem Safety.canonical.applySeq (h : canonical s) {p} : answersFst (s.applySeq p) := by
  unfold State.applySeq
  split
  · exact h.applyStore
  · exact h.applyFlag
  · exact h.applyChunk
  · exact h.applyGet

theorem Safety.canonical.acceptSeq (h : canonical s) {p} : answers (s.acceptSeq p) := by
  unfold State.acceptSeq
  dsimp only
  split
  · exact .none
  · next r e => exact .mapTo fun _ => Safety.canonical.sendAck (.setDst (h.applySeq r e))

theorem Safety.canonical.drainAhead (h : canonical s) {d n} : canonical (s.drainAhead d n) := by
  induction n generalizing s with
  | zero => exact h
  | succ n ih =>
    rw [State.drainAhead]
    split
    · exact h
    · split
      · exact h
      · split
        · exact h
        · next t e => exact ih (h.setDst.acceptSeq t e)

theorem Safety.canonical.pairFor (h : canonical s) {p} : answersFst (s.pairFor p) := by
  unfold State.pairFor
  dsimp only
  split
  · exact .ite (.some h) (.ite (.some h.setDst) .none)
  · exact .ite (.mapTo fun _ => h.frame.setDst) .none

theorem Safety.canonical.amoReply (h : canonical s) {p status v} : canonical (s.amoReply p status v) :=
  h.inject

theorem Safety.canonical.unpark (h : canonical s) {x} : canonical (s.unpark x) :=
  .ite h (by split; exacts [h, h.frame])

theorem Safety.canonical.amoPerform (h : canonical s) {p} : canonical (s.amoPerform p) := by
  unfold State.amoPerform
  extract_lets a c r hd d x s₁ old s₂
  have h₁ : canonical s₁ := .ite_fst h.refusal h.refusal.wakeStacks.devAmo
  exact h₁.frame.unpark.amoReply

theorem Safety.canonical.amoFull (h : canonical s) {p} : canonical (s.amoFull p) :=
  h.incF.tickEvent.amoReply

theorem Safety.canonical.amoHandle (h : canonical s) {p} : canonical (s.amoHandle p) := by
  unfold State.amoHandle
  dsimp only
  split
  · exact .ite h.amoPerform h.amoFull
  · exact .ite (.ite h h.incF.tickEvent.amoReply) (.ite (.ite h.amoFull h.amoPerform) h)

theorem Safety.canonical.amoWaiting (h : canonical s) : canonical s.amoWaiting :=
  h.frame.foldl (fun _ _ h' => h'.amoHandle)

theorem Safety.canonical.opAmoReq (h : canonical s) {p} : canonical (Machine.opAmoReq p s) :=
  .ite h (.ite h.takeArrived.amoHandle (.ite h.takeArrived h.takeArrived.frame))

theorem Safety.canonical.opAmoRel (h : canonical s) {p} : canonical (Machine.opAmoRel p s) :=
  .ite h h.takeArrived.frame

theorem Safety.canonical.opAtomicExpiry (h : canonical s) {x d b slot} : canonical (Machine.opAtomicExpiry x d b slot s) :=
  h.frame.unpark

theorem Safety.canonical.opSequenced (h : canonical s) {p} : canonical (Machine.opSequenced p s) := by
  unfold Machine.opSequenced
  refine .ite h ?_
  split
  · exact h.takeArrived
  · next s₁ x e =>
    have h₁ : canonical s₁ := h.pairFor _ e
    refine .ite ?_ (.ite h₁.takeArrived.sendAck.tickEvent (.ite h₁.takeArrived.setDst h₁.takeArrived))
    split
    · exact h
    · next s₂ e' => exact (h₁.acceptSeq s₂ e').takeArrived.drainAhead.amoWaiting.settledAll

theorem Safety.canonical.opAck (h : canonical s) {p} : canonical (Machine.opAck p s) := by
  unfold Machine.opAck
  refine .ite h ?_
  extract_lets +onlyGivenNames s₁ s₂
  have h₁ : canonical s₁ := h.takeArrived
  have h₂ : canonical s₂ := .ite h₁.incF.tickEvent h₁
  split
  · exact h₂
  · refine .ite h₂ ?_
    refine .ite (.ite h₂.setSrc.tickEvent h₂.setSrc) ?_
    extract_lets +onlyGivenNames x' s₃ code bad s₄ s₅
    have h₃ : canonical s₃ := .ite h₂.setSrc.tickEvent h₂.setSrc
    have h₄ : canonical s₄ := .ite h₃.bitsEvent h₃
    have h₅ : canonical s₅ := h₄.foldl (fun _ _ h' => .ite h'.endReq h'.reqDone)
    exact h₅.pumpAll.unstall.settledAll

theorem Safety.canonical.tellChunk (h : canonical s) {r} : canonical (s.tellChunk r) := by
  unfold State.tellChunk
  split
  · exact h.tell
  · exact h

theorem Safety.canonical.opRto (h : canonical s) {d} : canonical (Machine.opRto d s) := by
  unfold Machine.opRto
  split
  · exact h
  · exact .ite h (.tickEvent (h.foldl (fun _ _ h' => .ite h'.payloadOf h'.payloadOf.tellChunk.inject)))

theorem Safety.canonical.opPairBreak (h : canonical s) {d} : canonical (Machine.opPairBreak d s) := by
  unfold Machine.opPairBreak
  split
  · exact h
  · exact .ite h h.breakPair.settledAll

theorem Safety.canonical.opHoldoff (h : canonical s) {d} : canonical (Machine.opHoldoff d s) := by
  unfold Machine.opHoldoff
  split
  · exact h
  · exact .ite h h.frame.unstall.settledAll

theorem Safety.canonical.opUnreachable (h : canonical s) {d} : canonical (Machine.opUnreachable d s) :=
  h.frame.breakPair.settledAll

theorem Safety.canonical.getData (h : canonical s) {b p} : canonical (s.getData b p) := by
  unfold State.getData
  dsimp only
  split
  · exact h
  · refine .ite h (.ite h.bitsEvent.failSlot.endSlot.fetchFails ?_)
    split
    · exact h.setSlot.bayWrite.endSlot
    · refine .ite h.setSlot ?_
      split
      · exact h.setSlot
      · split; exacts [h.setSlot, h.setSlot.fetchDone.work]

theorem Safety.canonical.opGetRsp (h : canonical s) {p} : canonical (Machine.opGetRsp p s) := by
  unfold Machine.opGetRsp
  refine .ite h ?_
  refine .ite h ?_
  extract_lets +onlyGivenNames s₁ s₂
  have h₁ : canonical s₁ := h.takeArrived
  have h₂ : canonical s₂ := .ite h₁.incF.tickEvent h₁
  refine .ite h₂.getData.settledAll ?_
  exact .ite h₂.restoreData.settledAll (by split; exacts [h₂.pullData.settledAll, h₂])

theorem Safety.canonical.opGetRetry (h : canonical s) {ep slot} : canonical (Machine.opGetRetry ep slot s) := by
  unfold Machine.opGetRetry
  refine .ite ?_ (.ite ?_ ?_)
  · dsimp only
    split
    · exact h
    · exact .ite h h.sendReqs.tickEvent.settledAll
  · split
    · exact h
    · exact .ite h (.settledAll (.tickEvent (.elim h fun _ => h.sendReqs)))
  · split
    · exact h
    · exact .ite h h.sendReqs.tickEvent.settledAll

theorem Safety.canonical.amoRelease (h : canonical s) {b i x} : canonical (s.amoRelease b i x) :=
  h.inject

theorem Safety.canonical.opAmoRsp (h : canonical s) {p} : canonical (Machine.opAmoRsp p s) := by
  unfold Machine.opAmoRsp
  refine .ite h ?_
  extract_lets +onlyGivenNames s₁
  have h₁ : canonical s₁ := h.takeArrived
  split
  · exact h₁
  · exact .ite h₁ (.ite h₁.setSlot.tickEvent (.ite h₁.amoRelease.deliverAmo.endSlot h₁.amoRelease.bitsEvent.failSlot.endSlot))

theorem Safety.canonical.opAmoResend (h : canonical s) {b i} : canonical (Machine.opAmoResend b i s) := by
  unfold Machine.opAmoResend
  split
  · exact h
  · exact .ite h (.ite (.ite h.failSlot.endSlot h.setSlot.inject.tickEvent) (.ite h.incF.bitsEvent.failSlot.endSlot h.setSlot.inject.tickEvent))

/-! #### Machine/Optics -/

theorem Safety.canonical.engWrite (h : canonical s) {e off l} : canonical (s.engWrite e off l) := by
  induction l generalizing s off with
  | nil => exact h
  | cons v l ih => exact ih h.updOpt

theorem Safety.canonical.opEngineReg (h : canonical s) {who e wr off len data} : canonical (Machine.opEngineReg who e wr off len data s) :=
  .ite h.incF.frame (.ite h.frame (.ite h.engWrite.frame h.frame))

theorem Safety.canonical.setEvq (h : canonical s) {e l} : canonical (s.setEvq e l) :=
  h.updOpt

theorem Safety.canonical.opEngineEvent (h : canonical s) {e ev} : canonical (Machine.opEngineEvent e ev s) :=
  .ite h h.setEvq

theorem Safety.canonical.writeFwCtrl (h : canonical s) {v} : canonical (Machine.writeFwCtrl v s).1 :=
  h.guarded (fun _ h' => h'.plainWrite)

theorem Safety.canonical.writeFwWin (h : canonical s) {e w v} : canonical (Machine.writeFwWin e w v s).1 :=
  h.guarded (fun _ h' => h'.plainWrite)

theorem Safety.canonical.setRing (h : canonical s) {e ring x} : canonical (s.setRing e ring x) :=
  h.updOpt

theorem Safety.canonical.later (h : canonical s) {p w x} : canonical (s.later p w x) :=
  h.updOpt

theorem Safety.canonical.agree (h : canonical s) {p w n} : canonical (s.agree p w n) :=
  h.updOpt

theorem Safety.canonical.holdLane (h : canonical s) {p w} : canonical (s.holdLane p w) :=
  .ite h (.ite h.later h.setRungs.setLane.incF.tickEvent)

theorem Safety.canonical.drainOut (h : canonical s) {p w keep} : canonical (s.drainOut p w keep) :=
  .ite h.setF.setLane.updOpt h.removeLane

theorem Safety.canonical.joinLane (h : canonical s) {p w} : canonical (s.joinLane p w) :=
  .ite h.setLane h

theorem Safety.canonical.stepRung (h : canonical s) {p w r} : canonical (s.stepRung p w r) :=
  .ite h.setRise.incF.tickEvent.drainOut h.setRise.incF.tickEvent.setF

theorem Safety.canonical.dueStep (h : canonical s) {p w r} : canonical (s.dueStep p w r) :=
  .ite h (.ite h.later h.stepRung)

theorem Safety.canonical.farRung (h : canonical s) {p w r} : canonical (s.farRung p w r) :=
  .ite h.setF (.ite h (.ite h.later h.setF.incF.tickEvent))

theorem Safety.canonical.farJoin (h : canonical s) {p w r} : canonical (s.farJoin p w r) :=
  .ite h (.ite h.later h.setF.joinLane)

theorem Safety.canonical.duePart (h : canonical s) {p w x} : canonical (s.duePart p w x) := by
  unfold State.duePart
  split
  · exact h.holdLane
  · exact h.dueStep
  · exact h.farRung
  · exact h.farJoin

theorem Safety.canonical.changeEnds (h : canonical s) {p} : canonical (s.changeEnds p) :=
  h.updOpt.foldl (fun _ _ h' => h'.duePart)

theorem Safety.canonical.rejoin (h : canonical s) {p w} : canonical (s.rejoin p w) :=
  h.joinLane.changeEnds

theorem Safety.canonical.opLaneDrain (h : canonical s) {p w x} : canonical (Machine.opLaneDrain p w x s) :=
  .ite h (.ite h.setRungs.setLane.agree.tickEvent (.ite h.setF.agree.changeEnds h))

theorem Safety.canonical.opLaneDrained (h : canonical s) {p w y} : canonical (Machine.opLaneDrained p w y s) :=
  .ite h h.setF.agree.leaveLane.changeEnds

theorem Safety.canonical.opLaneRung (h : canonical s) {p w r} : canonical (Machine.opLaneRung p w r s) :=
  h.farRung

theorem Safety.canonical.opLaneJoin (h : canonical s) {p w r z} : canonical (Machine.opLaneJoin p w r z s) :=
  .ite h.farJoin.agree.changeEnds h.farJoin

theorem Safety.canonical.opLossOfSignal (h : canonical s) {p} : canonical (Machine.opLossOfSignal p s) :=
  .ite h.portDown (.ite h h.freshLanes.setF)

theorem Safety.canonical.expressLost (h : canonical s) {e} : canonical (s.expressLost e) :=
  h.setF.opLossOfSignal.opLossOfSignal

theorem Safety.canonical.opSnr (h : canonical s) {p w snr uncorr} : canonical (Machine.opSnr p w snr uncorr s) := by
  unfold Machine.opSnr
  refine .ite (.ite h.expressLost h) ?_
  extract_lets +onlyGivenNames s₁
  have h₁ : canonical s₁ := h.setF
  refine .ite h₁.setRise ?_
  refine .ite h₁.setRise.dueStep ?_
  split
  · exact h₁.setRise
  · exact .ite h₁.setRise (by split; exacts [h₁.setRise, .ite h₁.setRise.dueStep h₁])

theorem Safety.canonical.trainLane (h : canonical s) {p w snr} : canonical (s.trainLane p w snr) := by
  unfold State.trainLane
  refine .ite h ?_
  extract_lets +onlyGivenNames e i r s₁
  have h₁ : canonical s₁ := h.setRing.setRing.setF
  exact .ite h₁.removeLane (.ite h₁.setF.rejoin h₁.setF.setLane.rejoin)

theorem Safety.canonical.noLight (h : canonical s) {p w} : canonical (s.noLight p w) :=
  .ite h h.setRungs

theorem Safety.canonical.opTraining (h : canonical s) {p snrs} : canonical (Machine.opTraining p snrs s) := by
  unfold Machine.opTraining
  extract_lets +onlyGivenNames s₁
  have h₁ : canonical s₁ := h.foldl (fun _ _ h' => by split; exacts [h'.noLight, h'.trainLane])
  exact .ite h₁ h₁.setF

theorem Safety.canonical.holdMiswired (h : canonical s) {p} : canonical (s.holdMiswired p) :=
  .ite h.portDown h.updPort.setFs

theorem Safety.canonical.circuitUp (h : canonical s) {p} : canonical (s.circuitUp p) :=
  .ite h (.ite (.elim h.setF.setFs.updOpt (fun _ => h.setF.setFs.updOpt.finishCmd)) h.setF)

theorem Safety.canonical.opPortUp (h : canonical s) {p peer port rtt} : canonical (Machine.opPortUp p peer port rtt s) := by
  unfold Machine.opPortUp
  refine .ite h ?_
  refine .ite h.setF ?_
  extract_lets +onlyGivenNames s₁
  have h₁ : canonical s₁ := h.setFs
  refine .ite h₁.holdMiswired ?_
  extract_lets +onlyGivenNames s₂ s₃
  have h₂ : canonical s₂ := h₁.setFs
  have h₃ : canonical s₃ := h₂.foldl (fun _ _ h' => .ite h'.setLane h')
  exact h₃.setPort.circuitUp

theorem Safety.canonical.writeLevel (h : canonical s) {l v x} : canonical (Machine.writeLevel l v x s).1 :=
  h.guarded (fun _ h' => h'.limitedWrite.foldl (fun _ _ h'' => .ite h''.holdMiswired h''))

theorem Safety.canonical.holdRing (h : canonical s) {e ring} : canonical (s.holdRing e ring) :=
  .elim h (fun _ => h.holdLane)

theorem Safety.canonical.wrongLine (h : canonical s) {e ring found} : canonical (s.wrongLine e ring found) := by
  unfold State.wrongLine
  extract_lets +onlyGivenNames s₁ s₂
  have h₁ : canonical s₁ := .ite h h.setFs
  have h₂ : canonical s₂ := h₁.stick.setRing.tickEvent.holdRing
  exact .ite h₂.holdLane h₂

theorem Safety.canonical.opRingLoop (h : canonical s) {e ring err tags} : canonical (Machine.opRingLoop e ring err tags s) := by
  unfold Machine.opRingLoop
  dsimp only
  split
  · exact h.setEvq
  · exact h.setEvq
  · exact h.setEvq
  · split
    · exact h.setEvq.wrongLine
    · exact .ite h.setEvq.setRing (.ite h.setEvq.setRing h.setEvq.setRing.holdRing)
  · split
    · exact h.setEvq.wrongLine
    · exact .ite h.setEvq.setRing (.ite h.setEvq.setRing h.setEvq.setRing.holdRing)

theorem Safety.canonical.laneBack (h : canonical s) {e i} : canonical (s.laneBack e i) :=
  .ite h.setLane h

theorem Safety.canonical.opRelock (h : canonical s) {e ring} : canonical (Machine.opRelock e ring s) := by
  unfold Machine.opRelock
  split
  · exact .elim h.setRing (fun _ => h.setRing.laneBack)
  · exact h

theorem Safety.canonical.opSweep (h : canonical s) {e ring found} : canonical (Machine.opSweep e ring found s) := by
  unfold Machine.opSweep
  split
  · exact .ite (.elim h.setRing (fun _ => h.setRing.laneBack)) (.ite h.setRing (.elim h.setRing (fun _ => h.setRing.removeLane)))
  · exact h

theorem Safety.canonical.noSpare (h : canonical s) {e l} : canonical (s.noSpare e l) :=
  .ite (.ite h.expressLost h) (.ite h (.ite h.drainOut.laserOff h.drainOut))

theorem Safety.canonical.swapBegin (h : canonical s) {e l k} : canonical (s.swapBegin e l k) :=
  h.updOpt.setFs.tickEvent

theorem Safety.canonical.askSwap (h : canonical s) {e l} : canonical (s.askSwap e l) :=
  .ite h (by split; exacts [h.noSpare, .ite h.swapBegin h.updOpt])

theorem Safety.canonical.fade (h : canonical s) {e l power} : canonical (s.fade e l power) :=
  .ite h.stick.setF (.ite h.setF h)

theorem Safety.canonical.opLaserPower (h : canonical s) {e l power} : canonical (Machine.opLaserPower e l power s) := by
  unfold Machine.opLaserPower
  extract_lets +onlyGivenNames s₁
  have h₁ : canonical s₁ := h.setF
  refine .ite h₁ ?_
  extract_lets +onlyGivenNames s₂ lane s₃
  have h₂ : canonical s₂ := h₁.fade
  have h₃ : canonical s₃ := .ite (.elim h₂ (fun _ => h₂.holdLane)) h₂
  exact .ite h₃.askSwap (.ite h₃.expressLost (.elim h₃ (fun _ => h₃.laneBack)))

theorem Safety.canonical.swapNext (h : canonical s) {e} : canonical (s.swapNext e) := by
  unfold State.swapNext
  split
  · exact h
  · exact h.updOpt.askSwap

theorem Safety.canonical.circuitPort (h : canonical s) {p} : canonical (s.circuitPort p) :=
  .setRing (h.stopPort.updPort.setFs.freshLanes.foldl (fun _ _ h' => h'.setRing))

theorem Safety.canonical.circuitGo (h : canonical s) : canonical s.circuitGo := by
  unfold State.circuitGo
  refine .ite h ?_
  extract_lets +onlyGivenNames s₁ s₂ s₃
  have h₁ : canonical s₁ := h.launchFired
  have h₂ : canonical s₂ := h₁.setFs.updOpt
  have h₃ : canonical s₃ := h₂.foldl (fun _ _ h' => h'.circuitPort)
  exact .ite (.elim h₃.setFs.updOpt (fun _ => h₃.setFs.updOpt.finishCmd)) h₃

theorem Safety.canonical.circuitArm (h : canonical s) : canonical s.circuitArm :=
  h.setFs

theorem Safety.canonical.writeCircuit (h : canonical s) {v} : canonical (Machine.writeCircuit v s).1 :=
  h.guarded (fun _ h' => .ite h'.plainWrite.circuitArm h'.plainWrite)

theorem Safety.canonical.writeCircuitMark (h : canonical s) {v} : canonical (Machine.writeCircuitMark v s).1 :=
  h.guarded (fun _ h' => h'.plainWrite)

theorem Safety.canonical.opCircuitTimeout (h : canonical s) : canonical (Machine.opCircuitTimeout s) := by
  unfold Machine.opCircuitTimeout
  split
  · exact h
  · exact .ite h (.elim h.setFs.updOpt (fun _ => h.setFs.updOpt.finishCmd))

theorem Safety.canonical.opCircuit (h : canonical s) {k} : canonical (Machine.opCircuit k s) :=
  h.begin (fun _ _ h' => h'.setFs.circuitArm)

theorem Safety.canonical.swapEnd (h : canonical s) {e l} : canonical (s.swapEnd e l) :=
  .swapNext (.circuitGo (.updOpt (.frame (.ite h.setFs.incF.setF h.setFs.incF.setFs))))

theorem Safety.canonical.swapTo (h : canonical s) {e n} : canonical (s.swapTo e n) :=
  h.setF

theorem Safety.canonical.swapData (h : canonical s) {e l} : canonical (s.swapData e l) := by
  unfold State.swapData
  refine .ite h ?_
  split
  · exact .ite h (.ite h.setF.setLane.swapTo (.ite h.setRungs.swapTo h.swapTo))
  · exact .ite h h.setRing.swapTo
  · exact h.setRing.swapTo
  · exact .ite h h.swapTo.rejoin
  · exact .ite h h.swapEnd
  · exact h

theorem Safety.canonical.opSwapStep (h : canonical s) {e} : canonical (Machine.opSwapStep e s) := by
  unfold Machine.opSwapStep
  split
  · exact h
  · exact .ite (.ite h.swapTo h) h.swapData

theorem Safety.canonical.opExpressSwap (h : canonical s) {e} : canonical (Machine.opExpressSwap e s) :=
  .ite h.setRing.swapEnd h

theorem Safety.canonical.burst (h : canonical s) {p} : canonical (s.burst p) := by
  unfold State.burst
  split
  · exact h.updPort
  · exact h.sendTodo

theorem Safety.canonical.opBurst (h : canonical s) {e port} : canonical (Machine.opBurst e port s) := by
  unfold Machine.opBurst
  split
  · exact h
  · exact .ite h h.burst.updOpt

theorem Safety.canonical.lightStore (h : canonical s) : canonical s.lightStore := by
  refine h.foldl fun s e he => ?_
  extract_lets s₁ s₂
  have h₁ : canonical s₁ := he.foldl fun _ _ h' => h'.setFs
  have h₂ : canonical s₂ := h₁.setF
  refine h₂.foldl fun s i hi => ?_
  extract_lets s₃
  have h₃ : canonical s₃ := .ite hi.setLane hi
  split
  · exact h₃
  · exact h₃.setFs

theorem Safety.canonical.ringsOn (h : canonical s) {e} : canonical (s.ringsOn e) :=
  .foldl (h.foldl (fun _ _ h' => h'.setRing)) (fun _ _ h' => by split; exacts [h', h'.setRing])

theorem Safety.canonical.lightOn (h : canonical s) : canonical s.lightOn := by
  unfold State.lightOn
  extract_lets +onlyGivenNames s₁
  have h₁ : canonical s₁ := h.foldl (fun _ _ h' => h'.ringsOn.foldl (fun _ _ h'' => .ite h'' (.ite h''.setFs.setLane h''.setFs)))
  exact h₁.foldl (fun _ _ h' => h'.setF)

theorem Safety.canonical.lightOff (h : canonical s) : canonical s.lightOff := by
  unfold State.lightOff
  extract_lets +onlyGivenNames s₁ s₂
  have h₁ : canonical s₁ := h.foldl (fun _ _ h' => h'.stopPort.setFs)
  have h₂ : canonical s₂ := h₁.foldl (fun _ _ h' => h'.foldl (fun _ _ h'' => .ite h''.laserOff h''))
  exact h₂.foldl (fun _ _ h' => h'.foldl (fun _ _ h'' => .ite h'' h''.setRungs.setLane))

/-! #### Machine/Scribe -/

theorem Safety.canonical.updScr (h : canonical s) {f} : canonical (s.updScr f) :=
  h.frame

theorem Safety.canonical.degrade (h : canonical s) : canonical s.degrade :=
  .ite h h.setF.tickEvent

theorem Safety.canonical.refLost (h : canonical s) : canonical s.refLost :=
  .ite h h.stick.setF.degrade.tickEvent

theorem Safety.canonical.opRefLost (h : canonical s) {c} : canonical (Machine.opRefLost c s) := by
  unfold Machine.opRefLost
  split
  · exact h.refLost
  · exact .ite h.setF.refLost h.setF

theorem Safety.canonical.opRefReturn (h : canonical s) : canonical (Machine.opRefReturn s) :=
  h.setF

theorem Safety.canonical.opScribeTick (h : canonical s) {adv} : canonical (Machine.opScribeTick adv s) := by
  unfold Machine.opScribeTick
  refine .ite h ?_
  extract_lets +onlyGivenNames slew s₁ s₂ s₃
  have h₁ : canonical s₁ := h.updScr
  have h₂ : canonical s₂ := h₁.incF
  have h₃ : canonical s₃ := .ite h₂.tickEvent h₂
  exact .ite h₃ h₃.unstall.settledAll

theorem Safety.canonical.fireUpTo (h : canonical s) {limit n} : canonical (s.fireUpTo limit n) := by
  induction n generalizing s with
  | zero => exact h
  | succ n ih =>
    rw [State.fireUpTo]
    split
    · exact h
    · exact .ite (ih h.opLaunchFire) h

theorem mem_putSorted {α : Type} {le : α → α → Bool} {x y : α} {l : List α} (h : y ∈ putSorted le x l) : y = x ∨ y ∈ l := by
  induction l with
  | nil => simpa [putSorted] using h
  | cons z l ih =>
    rw [putSorted] at h
    split at h
    · simpa using h
    · rcases List.mem_cons.mp h with h | h
      · simp [h]
      · rcases ih h with h | h <;> simp [h]

theorem mem_of_mem_sortedBy {α : Type} {le : α → α → Bool} {x : α} {l : List α} (h : x ∈ sortedBy le l) : x ∈ l := by
  induction l with
  | nil => exact h
  | cons y l ih =>
    rcases mem_putSorted h with h | h
    · simp [h]
    · simp [ih h]

/-- A change armed for a mark keeps the maps. -/
theorem Safety.canonical.armedMark {u : State} {e} (h : canonical s) (he : e ∈ u.armedMarks) : canonical (e.2 s) := by
  rcases List.mem_append.mp (mem_of_mem_sortedBy he) with he | he <;> split at he <;> simp only [List.mem_singleton, List.not_mem_nil] at he
  · subst he; exact h.circuitGo
  · subst he; exact h.opEpochChange

theorem Safety.canonical.fireMarks (h : canonical s) : canonical s.fireMarks :=
  .fireUpTo (.foldl_mem h fun _ _ he h' => .ite (h'.fireUpTo.armedMark he) h')

theorem Safety.canonical.releaseBay (h : canonical s) {b} : canonical (s.releaseBay b) :=
  h.opWaitScribeRelease.opWaitScribeRelease

theorem Safety.canonical.stepCount (h : canonical s) {v} : canonical (s.stepCount v) :=
  h.setF.tickEvent.fireMarks.foldl (fun _ _ h' => h'.releaseBay)

theorem Safety.canonical.opResumeLaunches (h : canonical s) {k} : canonical (Machine.opResumeLaunches k s) :=
  .ite (.fireMarks (h.opResume.foldl (fun _ _ h' => h'.pumpAll))) h.opResume

theorem Safety.canonical.writeScrSet (h : canonical s) {v} : canonical (Machine.writeScrSet v s).1 :=
  .ite_fst h.stepCount h

theorem Safety.canonical.unfollow (h : canonical s) : canonical s.unfollow :=
  .ite h h.updScr

theorem Safety.canonical.writeSync (h : canonical s) {v} : canonical (Machine.writeSync v s).1 :=
  h.guarded (fun _ h' => h'.limitedWrite.unfollow)

theorem Safety.canonical.writeAsym (h : canonical s) {p v} : canonical (Machine.writeAsym p v s).1 :=
  h.stateWrite

theorem Safety.canonical.sendTime (h : canonical s) {port words} : canonical (s.sendTime port words) := by
  unfold State.sendTime
  dsimp only
  split
  · exact h
  · exact h.sendFrame

theorem Safety.canonical.takeTime (h : canonical s) {words} : canonical (s.takeTime words) :=
  h.frame

theorem Safety.canonical.opTimeSend (h : canonical s) {xseq t1} : canonical (Machine.opTimeSend xseq t1 s) :=
  .ite h (by split; exacts [h, h.updScr.sendTime])

theorem Safety.canonical.opTimeRequest (h : canonical s) {port words t2 t3} : canonical (Machine.opTimeRequest port words t2 t3 s) :=
  .ite h.takeTime h.takeTime.sendTime

theorem Safety.canonical.servo (h : canonical s) : canonical s.servo := by
  unfold State.servo
  refine .ite h ?_
  extract_lets +onlyGivenNames m s₁ within out s₂ s₃ s₄
  have h₁ : canonical s₁ := h.setF
  have h₂ : canonical s₂ := h₁.updScr
  have h₃ : canonical s₃ := .ite h₂.degrade h₂
  have h₄ : canonical s₄ := .ite h₃.setF (.ite h₃.setF h₃)
  exact .ite h₄.updScr.stepCount h₄

theorem Safety.canonical.opTimeReply (h : canonical s) {port words t4} : canonical (Machine.opTimeReply port words t4 s) :=
  .ite h.takeTime (.ite h.takeTime.updScr h.takeTime.updScr.updScr.incF.setF.servo)

theorem Safety.canonical.opTimeTimeout (h : canonical s) : canonical (Machine.opTimeTimeout s) :=
  h.updScr

theorem Safety.canonical.opDegraded (h : canonical s) {c} : canonical (Machine.opDegraded c s) :=
  .ite h h.updScr.degrade

theorem Safety.canonical.opDegradedClear (h : canonical s) : canonical (Machine.opDegradedClear s) :=
  .ite h h.setF

theorem Safety.canonical.alarmCheck (h : canonical s) : canonical s.alarmCheck :=
  .ite (.ite h.setFs h.setFs.mgmtEvent) h

theorem Safety.canonical.setCell (h : canonical s) {n} : canonical (s.setCell n) :=
  .ite h.frame h.frame.setF

theorem Safety.canonical.cellTick (h : canonical s) : canonical s.cellTick :=
  .ite (.ite h h.setCell) (.ite h h.draw.setCell)

theorem Safety.canonical.opCalendarTick (h : canonical s) : canonical (Machine.opCalendarTick s) :=
  .ite h (.cellTick (.ite h.setReg.alarmCheck.updScr.setFs h.setReg.alarmCheck))

theorem Safety.canonical.writeLatch (h : canonical s) {v} : canonical (Machine.writeLatch v s).1 :=
  .ite h.updScr.setF h

theorem Safety.canonical.opCellEmpty (h : canonical s) : canonical (Machine.opCellEmpty s) :=
  .ite h h.setCell

theorem Safety.canonical.calendarBack (h : canonical s) : canonical s.calendarBack :=
  .ite h h.frame.setReg.setF

/-! #### Machine/Trust -/

theorem Safety.canonical.fwProg (h : canonical s) {st n total code} : canonical (s.fwProg st n total code) :=
  h.setFs

theorem Safety.canonical.fwEnd (h : canonical s) {code} : canonical (s.fwEnd code) := by
  unfold State.fwEnd
  exact h.fwProg.frame

theorem Safety.canonical.fwChunk (h : canonical s) {chunk} : canonical (s.fwChunk chunk).1 :=
  .ite_fst h.frame.fwProg (.ite_fst h.frame.fwEnd (.ite_fst h.frame.fwEnd h.frame.setF.fwProg.frame))

theorem Safety.canonical.fwFinish (h : canonical s) : canonical s.fwFinish.1 :=
  .ite h.setF.fwEnd.frame h.setF.fwEnd

theorem Safety.canonical.mbxShow (h : canonical s) {code} : canonical (s.mbxShow code) :=
  h.setFs

theorem Safety.canonical.writeMbx (h : canonical s) {v} : canonical (Machine.writeMbx v s).1 := by
  unfold Machine.writeMbx
  refine .ite_fst h ?_
  extract_lets +onlyGivenNames s₁ s₂
  have h₁ : canonical s₁ := h.plainWrite
  have h₂ : canonical s₂ := .ite h₁.frame.mbxShow h₁
  refine .ite_fst h₂ ?_
  refine .ite_fst h₂ ?_
  extract_lets +onlyGivenNames bs r
  have h₃ : canonical r.1 := .ite_fst h₂.fwEnd h₂.fwChunk
  exact h₃.mbxShow

theorem Safety.canonical.writeMeasExt (h : canonical s) {v} : canonical (Machine.writeMeasExt v s).1 :=
  .ite_fst h (.ite_fst h (.ite h.plainWrite.extendMeas h.plainWrite))

theorem Safety.canonical.tableWrite (h : canonical s) {r i j v locked} : canonical (s.tableWrite r i j v locked).1 :=
  h.guarded (fun _ h' => h'.plainWrite)

theorem Safety.canonical.writeAcc (h : canonical s) {r t i v} : canonical (Machine.writeAcc r t i v s).1 :=
  h.tableWrite

theorem Safety.canonical.writeGroups (h : canonical s) {r i v} : canonical (Machine.writeGroups r i v s).1 :=
  h.tableWrite

theorem Safety.canonical.writeAccCtrl (h : canonical s) {t v} : canonical (Machine.writeAccCtrl t v s).1 :=
  h.plainWrite

/-! #### Machine/Power -/

theorem Safety.canonical.updPower (h : canonical s) {f} : canonical (s.updPower f) :=
  h.frame

theorem Safety.canonical.clearRegs (h : canonical s) {p} : canonical (s.clearRegs p) :=
  .setFs (s := { s with regs := s.regs.filter fun e => keptRegs.contains e.1 || p e.1 }) ⟨h.1, h.2.1, smapWf_filter _ _ _ h.2.2⟩

theorem Safety.canonical.powerClear (h : canonical s) : canonical s.powerClear := by
  have hc : canonical (s.clearRegs fun _ => false) := h.clearRegs
  unfold State.powerClear
  exact .foldPending ⟨rfl, hc.2.1, hc.2.2⟩

theorem Safety.canonical.alwaysOnLost (h : canonical s) : canonical s.alwaysOnLost :=
  .updPower (.setF (h.foldl (fun _ _ h' => h'.setReg)))

theorem Safety.canonical.darkState (h : canonical s) {n} : canonical (s.darkState n) :=
  h.setF

theorem Safety.canonical.railsUp (h : canonical s) {samples refOk} : canonical (s.railsUp samples refOk) :=
  .ite h.powerClear.setF.setDevState h.powerClear.setF.updPower

theorem Safety.canonical.opPowerOn (h : canonical s) {ev samples refOk} : canonical (Machine.opPowerOn ev samples refOk s) := by
  unfold Machine.opPowerOn
  split
  · exact .ite h (.ite h.calendarBack.updPower h.calendarBack.updPower.setFs.railsUp)
  · exact .ite h (.ite h.updPower.setFs.railsUp h.updPower)
  · exact .ite h.setFs.railsUp h

theorem Safety.canonical.toReady (h : canonical s) : canonical s.toReady :=
  .ite h.setDevState.lightOn h.setDevState

theorem Safety.canonical.bootStraps (h : canonical s) : canonical s.bootStraps :=
  .extendMeas (.ite h.setFs.setFs h.setFs.stick.mgmtEvent)

theorem Safety.canonical.bootFirewall (h : canonical s) : canonical s.bootFirewall :=
  .setFs (h.foldl (fun _ _ h' => h'.foldl (fun _ _ h'' => h''.setReg)))

theorem Safety.canonical.firmware (h : canonical s) {x slot} : canonical (s.firmware x slot) := by
  unfold State.firmware
  extract_lets +onlyGivenNames s₁ c s₂ s₃ s₄
  have h₁ : canonical s₁ := h.setFs.updPower
  have h₂ : canonical s₂ := .ite h₁ h₁.mgmtEvent
  have h₃ : canonical s₃ := .ite h₂ h₂.refLost
  have h₄ : canonical s₄ := h₃.bootStraps.bootFirewall.lightStore
  exact .ite h₄.updPower.lightOn h₄.toReady

theorem Safety.canonical.bootFail (h : canonical s) {n} : canonical (s.bootFail n) :=
  h.setF.setDevState

theorem Safety.canonical.opBootRom (h : canonical s) {flashError} : canonical (Machine.opBootRom flashError s) := by
  unfold Machine.opBootRom
  refine .ite h ?_
  extract_lets +onlyGivenNames s₁
  have h₁ : canonical s₁ := h.frame
  refine .ite h₁.bootFail ?_
  extract_lets +onlyGivenNames s₂
  have h₂ : canonical s₂ := h₁.extendMeas
  exact .ite h₂.bootFail (.ite h₂.bootFail h₂.extendMeas.extendMeas.firmware)

theorem Safety.canonical.opFuseBlow (h : canonical s) : canonical (Machine.opFuseBlow s) :=
  .ite h.setF h

theorem Safety.canonical.opBenchCheck (h : canonical s) : canonical (Machine.opBenchCheck s) :=
  .ite h (.ite h.setFs.updPower.mgmtEvent.setDevState h.frame.lightOff.updPower.mgmtEvent.setDevState)

theorem Safety.canonical.opResetAssert (h : canonical s) {ns} : canonical (Machine.opResetAssert ns s) :=
  .ite h (.ite h.powerClear.updPower.darkState (.ite h.draw h.draw.powerClear.updPower.darkState))

theorem Safety.canonical.opInputLoss (h : canonical s) : canonical (Machine.opInputLoss s) :=
  .ite h (.ite h.powerClear.updPower.darkState h.powerClear.updPower.alwaysOnLost.darkState)

theorem Safety.canonical.opAuxLoss (h : canonical s) : canonical (Machine.opAuxLoss s) :=
  .ite h.updPower h.updPower.alwaysOnLost.darkState

theorem Safety.canonical.opAuxReturn (h : canonical s) {mv} : canonical (Machine.opAuxReturn mv s) :=
  .ite h h.calendarBack.updPower

theorem Safety.canonical.patrolNow (h : canonical s) : canonical s.patrolNow :=
  h.powerClear.darkState

theorem Safety.canonical.offNow (h : canonical s) : canonical s.offNow :=
  h.powerClear.alwaysOnLost.darkState

theorem Safety.canonical.leaseOff (h : canonical s) : canonical s.leaseOff :=
  h.setFs

theorem Safety.canonical.stopJob (h : canonical s) : canonical s.stopJob :=
  .endJob (.stopBays (.ite h.updJob.leaseOff.setDevState h.updJob.leaseOff))

theorem Safety.canonical.opLatchClear (h : canonical s) {c} : canonical (Machine.opLatchClear c s) := by
  unfold Machine.opLatchClear
  split
  · exact .ite h h.setF
  · split
    · exact .ite h.setF h
    · exact h

theorem Safety.canonical.latch (h : canonical s) {cause inst temp} : canonical (s.latch cause inst temp) :=
  h.setFs.incF

theorem Safety.canonical.opPatrolSample (h : canonical s) {r} : canonical (Machine.opPatrolSample r s) :=
  .ite h (.ite h.updPower (.ite h.updPower.latch (.ite h.updPower.latch (.ite h.updPower.latch h.updPower))))

theorem Safety.canonical.wakeRecord (h : canonical s) {c} : canonical (s.wakeRecord c) :=
  h.setFs

theorem Safety.canonical.opPatrolWake (h : canonical s) {c failStep samples refOk} :
    canonical (Machine.opPatrolWake c failStep samples refOk s) := by
  unfold Machine.opPatrolWake
  dsimp only
  exact .ite h (by split; exacts [h.wakeRecord.updPower.setFs.updPower, h.wakeRecord.updPower.setFs.incF.updPower.railsUp])

theorem Safety.canonical.opEntryStep (h : canonical s) : canonical (Machine.opEntryStep s) := by
  unfold Machine.opEntryStep
  split
  · exact .ite h.endJob (.ite h.endJob.offNow (.ite h.endJob.setF.updPower h.endJob))
  · exact .ite h.setF h
  · exact h.lightOff.setFs.updPower
  · exact h.updHbm.setF
  · exact h.patrolNow

theorem Safety.canonical.abandon (h : canonical s) {c} : canonical (s.abandon c) := by
  unfold State.abandon
  extract_lets n fab s₁ s₂ s₃
  have h₁ : canonical s₁ := .ite h.updHbm h
  have h₂ : canonical s₂ := h₁.lightOff
  have h₃ : canonical s₃ := .ite (.ite h₂.setF.lightOn h₂) h₁
  exact h₃.wakeRecord.setF.incF.mgmtEvent

theorem Safety.canonical.opEntryAbandon (h : canonical s) {c} : canonical (Machine.opEntryAbandon c s) :=
  .ite h h.abandon

/-! #### Machine/Thermal -/

theorem Safety.canonical.updTpc (h : canonical s) {f} : canonical (s.updTpc f) :=
  h.frame

theorem Safety.canonical.opSensorRead (h : canonical s) {x r} : canonical (Machine.opSensorRead x r s) :=
  .ite h (.ite (by split; exacts [h.updTpc, .updTpc (.ite h h.incF)]) (by split; exacts [h.updTpc, .ite h h.incF.updTpc]))

theorem Safety.canonical.showDie (h : canonical s) {d} : canonical (s.showDie d) := by
  unfold State.showDie
  extract_lets group top hot s₁
  have hg (t : State) (ht : canonical t) (f p) : canonical (group t f p) := .ite ht.setF (ht.elim fun _ => ht.setF)
  have h₁ : canonical s₁ := h.elim fun _ => h.setF
  exact hg _ (hg _ h₁ ..) ..

theorem Safety.canonical.showTemps (h : canonical s) : canonical s.showTemps :=
  .setFs (h.foldl (fun _ _ h' => h'.showDie))

theorem Safety.canonical.judge (h : canonical s) {i} : canonical (s.judge i) := by
  unfold State.judge
  extract_lets +onlyGivenNames t o n tgt s₁ s₂ s₃
  have h₁ : canonical s₁ := h.updTpc
  have h₂ : canonical s₂ := h₁.setF
  have h₃ : canonical s₃ := .ite h₂.stick.mgmtEvent h₂
  exact .ite h₃.stick.mgmtEvent h₃

theorem Safety.canonical.moveCap (h : canonical s) : canonical s.moveCap :=
  h.setF

theorem Safety.canonical.setFactor (h : canonical s) {c v} : canonical (s.setFactor c v) :=
  .ite h.setF h.setF

theorem Safety.canonical.moveClocks (h : canonical s) : canonical s.moveClocks :=
  .ite (.tickEvent (h.foldl (fun _ _ h' => h'.setFactor))) (h.foldl (fun _ _ h' => h'.setFactor))

theorem Safety.canonical.writeAll (h : canonical s) {q l} : canonical (s.writeAll q l) := by
  induction l generalizing s with
  | nil => exact h
  | cons r l ih => exact .ite (ih h.writeRecord) h

theorem Safety.canonical.thermalAbort (h : canonical s) {cause} : canonical (s.thermalAbort cause) := by
  unfold State.thermalAbort
  extract_lets +onlyGivenNames told s₁ run s₂
  have h₁ : canonical s₁ := h.abortDevice.abortEarly.mgmtEvent
  have h₂ : canonical s₂ := h₁.foldl (fun _ _ h' => h'.finishCmd)
  exact .ite (h₂.foldl (fun _ _ h' => h'.writeAll)) h₂

theorem Safety.canonical.thermalDark (h : canonical s) : canonical s.thermalDark := by
  have hc := h.clearRegs (p := fun a => decide (0x01F00A000000 ≤ a))
  unfold State.thermalDark
  exact ⟨rfl, hc.2.1, hc.2.2⟩

theorem Safety.canonical.thermalShutdown (h : canonical s) {cause inst temp} : canonical (s.thermalShutdown cause inst temp) := by
  have hd : canonical ((s.latch cause inst temp).thermalAbort cause).thermalDark := h.latch.thermalAbort.thermalDark
  unfold State.thermalShutdown
  exact hd.setF.setDevState

theorem Safety.canonical.opThermalShutdown (h : canonical s) {c inst temp} : canonical (Machine.opThermalShutdown c inst temp s) :=
  .ite h h.thermalShutdown

theorem Safety.canonical.opLeakDetect (h : canonical s) : canonical (Machine.opLeakDetect s) := by
  unfold Machine.opLeakDetect
  exact .ite h.thermalShutdown (.ite h.latch h)

theorem Safety.canonical.opTpcUpdate (h : canonical s) : canonical (Machine.opTpcUpdate s) := by
  unfold Machine.opTpcUpdate
  refine .ite h ?_
  extract_lets +onlyGivenNames r s₁ s₂ s₃
  have h₁ : canonical s₁ := h.updTpc
  have h₂ : canonical s₂ := h₁.showTemps.updTpc
  have h₃ : canonical s₃ := .moveClocks (.moveCap (h₂.foldl (fun _ _ h' => h'.judge)))
  split
  · exact .ite h₃.thermalShutdown h₃
  · exact h₃

theorem Safety.canonical.opPowerSample (h : canonical s) {mv watts} : canonical (Machine.opPowerSample mv watts s) :=
  .ite h h.updTpc.setFs

theorem Safety.canonical.reachPoint (h : canonical s) {d p} : canonical (s.reachPoint d p) :=
  h.updTpc.tickEvent

theorem Safety.canonical.setMoving (h : canonical s) {d m} : canonical (s.setMoving d m) :=
  h.updTpc

theorem Safety.canonical.startChange (h : canonical s) {d} : canonical (s.startChange d) :=
  .ite h (.setMoving (.ite h.reachPoint h))

theorem Safety.canonical.opDvfsDone (h : canonical s) {d} : canonical (Machine.opDvfsDone d s) := by
  unfold Machine.opDvfsDone
  split
  · exact h
  · exact .startChange (.setMoving (.ite h h.reachPoint))

theorem Safety.canonical.writeDvfs (h : canonical s) {v} : canonical (Machine.writeDvfs v s).1 :=
  h.guarded (fun _ h' => h'.plainWrite.foldl (fun _ _ h'' => h''.startChange))

theorem Safety.canonical.applyPoint (h : canonical s) {d} : canonical (s.applyPoint d) :=
  h.setF.startChange

theorem Safety.canonical.showPending (h : canonical s) : canonical s.showPending :=
  h.setF

theorem Safety.canonical.raiseMax (h : canonical s) {d} : canonical (s.raiseMax d) :=
  h.setF

theorem Safety.canonical.raiseDue (h : canonical s) {d} : canonical (s.raiseDue d) :=
  h.updTpc.foldl (fun _ _ h' => h'.raiseMax)

theorem Safety.canonical.opMaxPoint (h : canonical s) {d} : canonical (Machine.opMaxPoint d s) :=
  .ite h (.showPending (.ite h.raiseDue.applyPoint h.raiseDue))

theorem Safety.canonical.rePlan (h : canonical s) {m} : canonical (s.rePlan m) := by
  unfold State.rePlan
  extract_lets off runs s₁ s₂ s₃ s₄ stuck dim s₅ s₆ slack shares margin hours plans store s₇ s₈ low
  have h₁ : canonical s₁ := h.setF
  have h₂ : canonical s₂ := h₁.foldl fun _ _ h' => .ite h' (.ite h'.updTpc h'.raiseMax)
  have h₃ : canonical s₃ := .ite (h₂.foldl fun _ _ h' => .ite h'.applyPoint h') h₂
  have h₄ : canonical s₄ := h₃.showPending
  have h₅ : canonical s₅ := h₄.foldl fun _ _ h' => h'.opLaserPower
  have h₆ : canonical s₆ := h₅.foldl fun _ _ h' => h'.startRetrain
  have h₈ : canonical s₈ := h₆.frame.setFs.incF
  exact .ite h₈.stick.mgmtEvent h₈

theorem Safety.canonical.opReplanDue (h : canonical s) {m} : canonical (Machine.opReplanDue m s) := by
  unfold Machine.opReplanDue
  exact .ite h.rePlan h

/-! #### Machine/Mgmt -/

theorem Safety.canonical.updMgmt (h : canonical s) {f} : canonical (s.updMgmt f) :=
  h.frame

theorem Safety.canonical.reply (h : canonical s) {tag cmd code payload} : canonical (s.reply tag cmd code payload) :=
  .updMgmt (.ite h.incF h)

theorem Safety.canonical.opMgmtRequest (h : canonical s) {frame} : canonical (Machine.opMgmtRequest frame s) := by
  unfold Machine.opMgmtRequest
  refine .ite h ?_
  extract_lets s₁ s₂ n cmd tag len sound
  have h₁ : canonical s₁ := .ite h.abandon h
  have h₂ : canonical s₂ := h₁.setF
  refine .ite h₂.incF ?_
  split
  · exact h₂.incF.reply
  · exact h₂.reply
  · exact h₂.updMgmt

theorem Safety.canonical.opReplyRead (h : canonical s) : canonical (Machine.opReplyRead s) :=
  .ite h.updMgmt h

theorem Safety.canonical.opFrameTimeout (h : canonical s) : canonical (Machine.opFrameTimeout s) :=
  .ite h.incF h

theorem Safety.canonical.serve (h : canonical s) {cmd act} (hact : ∀ s y, canonical s → canonical (act s y).1) :
    canonical (s.serve cmd act) := by
  unfold State.serve
  split
  · exact h
  · exact .ite h (.ite h.reply (.reply (hact _ _ h)))

theorem Safety.canonical.serveIf (h : canonical s) {cmd ok act} (hact : ∀ s y, canonical s → canonical (act s y)) :
    canonical (s.serveIf cmd ok act) :=
  h.serve (fun _ _ h' => .ite_fst (hact _ _ h') h')

theorem Safety.canonical.serveRead (h : canonical s) {cmd ok out} : canonical (s.serveRead cmd ok out) :=
  h.serve (fun _ _ h' => .ite_fst h' h')

theorem Safety.canonical.ccc (h : canonical s) {act} (hact : ∀ s, canonical s → canonical (act s)) : canonical (s.ccc act) :=
  .ite (hact _ h.setF) h

theorem Safety.canonical.directed (h : canonical s) {act} (hact : ∀ s, canonical s → canonical (act s)) : canonical (s.directed act) :=
  h.ccc (fun _ h' => .ite h' (hact _ h'))

theorem Safety.canonical.assign (h : canonical s) {fresh addr} : canonical (s.assign fresh addr) :=
  h.ccc (fun _ h' => .ite h'.setF h')

theorem Safety.canonical.cccRead (h : canonical s) {n} : canonical (s.cccRead n) :=
  h.directed (fun _ h' => h'.updMgmt)

theorem Safety.canonical.opGetstatus (h : canonical s) : canonical (Machine.opGetstatus s) :=
  h.directed (fun _ h' => h'.draw.updMgmt)

theorem Safety.canonical.opStatus (h : canonical s) : canonical (Machine.opStatus s) :=
  h.serveRead

theorem Safety.canonical.opEvents (h : canonical s) : canonical (Machine.opEvents s) :=
  h.serve (fun _ _ h' => .ite_fst h'.updMgmt h')

theorem Safety.canonical.opSensors (h : canonical s) : canonical (Machine.opSensors s) :=
  h.serveRead

theorem Safety.canonical.leaseLive (h : canonical s) : canonical s.leaseLive :=
  h.setFs

theorem Safety.canonical.opLease (h : canonical s) : canonical (Machine.opLease s) :=
  h.serve (fun _ _ h' => .ite_fst h' (.ite_fst h'.leaseOff (.ite_fst h' h'.setFs.leaseLive)))

theorem Safety.canonical.opRenew (h : canonical s) : canonical (Machine.opRenew s) :=
  h.serveIf (fun _ _ h' => .ite h'.leaseLive.incF.setDevState h'.leaseLive.incF)

theorem Safety.canonical.expel (h : canonical s) : canonical s.expel := by
  unfold State.expel
  extract_lets +onlyGivenNames s₁ s₂ s₃ s₄
  have h₁ : canonical s₁ := h.foldl (fun _ _ h' => h'.bayStop)
  have h₂ : canonical s₂ := h₁.abortDevice.settleSteps.setFs
  have h₃ : canonical s₃ := h₂.bitsEvent.updJob.leaseOff
  have h₄ : canonical s₄ := .ite h₃.setDevState h₃
  exact h₄.endJob

theorem Safety.canonical.opExpel (h : canonical s) : canonical (Machine.opExpel s) :=
  .ite h (h.serveIf (fun _ _ h' => h'.expel))

theorem Safety.canonical.opQuarantine (h : canonical s) : canonical (Machine.opQuarantine s) :=
  h.serveIf (fun _ _ h' => h'.setDevState)

theorem Safety.canonical.opRelease (h : canonical s) : canonical (Machine.opRelease s) :=
  h.serveIf (fun _ _ h' => h'.setDevState)

theorem Safety.canonical.opNbr (h : canonical s) : canonical (Machine.opNbr s) :=
  h.serveIf (fun _ _ h' => h'.setF.updLdg.riskTotal)

theorem Safety.canonical.stopLong (h : canonical s) : canonical s.stopLong := by
  unfold State.stopLong
  extract_lets +onlyGivenNames s₁ d s₃ s₄ s₅ s₆ s₇
  have h₁ : canonical s₁ := h.foldl (fun _ _ h' => .ite h'.setF h')
  have h₂ : canonical d.1 := h₁.draw
  have h₃ : canonical s₃ := h₂.foldl (fun _ _ h' => h'.finishLong)
  have h₄ : canonical s₄ := .ite h₃.setF h₃
  have h₅ : canonical s₅ := h₄.withdrawLedger.withdrawLedger.withdrawLedger
  have h₆ : canonical s₆ := h₅.updLdg
  have h₇ : canonical s₇ := h₆.updHbm
  exact h₇.frame

theorem Safety.canonical.powerOff (h : canonical s) : canonical s.powerOff := by
  unfold State.powerOff
  dsimp only
  exact .ite h.setF.stopLong.stopJob.updPower h.setF.stopLong.stopJob.offNow

theorem Safety.canonical.opOff (h : canonical s) : canonical (Machine.opOff s) := by
  unfold Machine.opOff
  split
  · exact h
  · exact .ite (.powerOff (h.serveIf (fun _ _ h' => h'))) (h.serveIf (fun _ _ h' => h'))

theorem Safety.canonical.patrolCmd (h : canonical s) : canonical s.patrolCmd :=
  .ite h.setFs (.ite (.ite h.stopJob.setF h.stopJob.updPower) h.setF)

theorem Safety.canonical.opPatrol (h : canonical s) : canonical (Machine.opPatrol s) :=
  h.serveIf (fun _ _ h' => h'.patrolCmd)

theorem Safety.canonical.opPatrolSet (h : canonical s) : canonical (Machine.opPatrolSet s) :=
  h.serveIf (fun _ _ h' => h'.setFs.foldl (fun _ _ h'' => h''.setFs))

theorem Safety.canonical.opPowerCap (h : canonical s) : canonical (Machine.opPowerCap s) :=
  h.serveIf (fun _ _ h' => h'.setF)

theorem Safety.canonical.opReplan (h : canonical s) {m} : canonical (Machine.opReplan m s) := by
  unfold Machine.opReplan
  exact h.serveIf (fun _ _ h' => h'.rePlan)

theorem Safety.canonical.opCalSet (h : canonical s) : canonical (Machine.opCalSet s) :=
  h.serveIf (fun _ _ h' => h'.setReg.setF.alarmCheck)

theorem Safety.canonical.opAlarmSet (h : canonical s) : canonical (Machine.opAlarmSet s) :=
  h.serveIf (fun _ _ h' => .alarmCheck (.ite h'.setFs.setF h'.setFs))

theorem Safety.canonical.fwCommand (h : canonical s) {p} : canonical (s.fwCommand p).1 :=
  .ite_fst h (.ite_fst (.ite (.fwEnd (.ite h.frame h)) (.ite h.frame h)) (.fwChunk (.ite h.frame h)))

theorem Safety.canonical.opFwWrite (h : canonical s) : canonical (Machine.opFwWrite s) := by
  unfold Machine.opFwWrite
  split
  · exact h
  · exact .ite h (.ite h.reply (.ite h.fwCommand h.fwCommand.reply))

theorem Safety.canonical.opFwDone (h : canonical s) : canonical (Machine.opFwDone s) := by
  unfold Machine.opFwDone
  refine .ite h ?_
  extract_lets +onlyGivenNames r s₂
  have h₁ : canonical r.1 := h.fwFinish
  have h₂ : canonical s₂ := .ite h₁.setF h₁
  split
  · exact .ite h₂.reply h₂
  · exact h₂

theorem Safety.canonical.opFwIdle (h : canonical s) : canonical (Machine.opFwIdle s) :=
  .ite h.fwEnd h

theorem Safety.canonical.opQuote (h : canonical s) : canonical (Machine.opQuote s) :=
  h.serveRead

theorem Safety.canonical.opCertRead (h : canonical s) : canonical (Machine.opCertRead s) :=
  h.serveRead

theorem Safety.canonical.opChallenge (h : canonical s) : canonical (Machine.opChallenge s) :=
  h.serveRead

theorem Safety.canonical.opPermit (h : canonical s) : canonical (Machine.opPermit s) :=
  h.serveIf (fun _ _ h' => h'.setF)

theorem Safety.canonical.opBench (h : canonical s) : canonical (Machine.opBench s) :=
  h.serveIf (fun _ _ h' => h'.frame)

/-! #### Machine/RegWrite -/

theorem Safety.canonical.writeBayCtrl (h : canonical s) {b v} : canonical (Machine.writeBayCtrl b v s).1 :=
  .ite_fst h (.ite h.plainWrite.bayStop (.ite h.plainWrite.bayGo.workBay h.plainWrite))

theorem Safety.canonical.writeGroup (h : canonical s) {g v} : canonical (Machine.writeGroup g v s).1 :=
  .ite_fst h (.ite_fst (.ite_fst h (.ite_fst h h.plainWrite.setFs.frame)) (.ite_fst h.plainWrite.setF h.plainWrite.setFs.frame))

theorem Safety.canonical.writeGroupWord (h : canonical s) {r g v} : canonical (Machine.writeGroupWord r g v s).1 :=
  h.stateWrite

theorem Safety.canonical.writeE2e (h : canonical s) {v} : canonical (Machine.writeE2e v s).1 :=
  h.guarded (fun _ h' => h'.limitedWrite)

theorem Safety.canonical.writeFoldCtrl (h : canonical s) {v} : canonical (Machine.writeFoldCtrl v s).1 :=
  h.limitedWrite.foldPending

theorem Safety.canonical.writeScrub (h : canonical s) {v} : canonical (Machine.writeScrub v s).1 :=
  h.limitedWrite

theorem Safety.canonical.writeBy (h : canonical s) {r i j v} : canonical (Machine.writeBy r i j v s).1 := by
  unfold Machine.writeBy
  split
  · exact h.writeBayCtrl
  · exact h.writeSeg
  · exact h.writeBand
  · exact h.writeFoldCtrl
  · exact h.writeScrub
  · exact h.writeE2e
  · exact h.writeLevel
  · exact h.writeEpoch
  · exact h.writeEpoch
  · exact h.writeEpochCtrl
  · exact h.writeGroup
  · exact h.writeGroupWord
  · exact h.writeGroupWord
  · exact h.writeCircuit
  · exact h.writeCircuitMark
  · exact h.writeFwCtrl
  · exact h.writeFwWin
  · exact h.writeSync
  · exact h.writeScrSet
  · exact h.writeLatch
  · exact h.writeAsym
  · exact h.writeStep
  · exact h.writeDigestCtrl
  · exact h.writeRegion
  · exact h.writeRegion
  · exact h.writeRng
  · exact h.writeRng
  · exact h.writePlumb
  · exact h.writePlumb
  · exact h.writeBasteCtrl
  · exact h.writeRes
  · exact h.writeCursor
  · exact h.writeSec
  · exact h.writeSec
  · exact h.writeMeasExt
  · exact h.writeGroups
  · exact h.writeGroups
  · exact h.writeAccCtrl
  · exact h.writeAcc
  · exact h.writeAcc
  · exact h.writeSqBase
  · exact h.writeSqCfg
  · exact h.writeCqBase
  · exact h.writeCqCfg
  · exact h.writeSqTail
  · exact h.writeCqHead
  · exact h.writeMbx
  · exact .ite h.plainWrite h
  · exact h.writeMsix
  · exact h.writeDvfs
  · exact .ite_fst h h.plainWrite

theorem Safety.canonical.writeReg (h : canonical s) {p a size v} : canonical (s.writeReg p a size v).1 := by
  unfold State.writeReg
  refine .ite_fst h ?_
  refine .ite_fst h ?_
  split
  · exact h.checkAccess
  · exact .ite_fst h (.ite_fst h (.ite_fst h.checkAccess.writeBy h.checkAccess))

theorem Safety.canonical.hostRefused (h : canonical s) {a code} : canonical (s.hostRefused a code) :=
  .ite (by split <;> exact h.hostErr) h.hostErr

theorem Safety.canonical.regWriteBy (h : canonical s) {p a size v} : canonical (s.regWriteBy p a size v) :=
  .ite h (.ite h.writeReg.frame.hostRefused h.writeReg.frame)

/-! #### Machine/RegRows -/

theorem Safety.canonical.write64 (h : canonical s) {p r i j v} : canonical (s.write64 p r i j v) :=
  h.regWriteBy

theorem Safety.canonical.opBayTrigger (h : canonical s) {p b f} : canonical (Machine.opBayTrigger p b f s) :=
  h.write64

theorem Safety.canonical.opTableWrite (h : canonical s) {p addr v} : canonical (Machine.opTableWrite p addr v s) := by
  unfold Machine.opTableWrite
  split
  · exact .ite h.regWriteBy h
  · exact h

theorem Safety.canonical.opRegWrite (h : canonical s) {k} : canonical (Machine.opRegWrite k s) :=
  h.begin (fun _ _ h' => h'.writeReg.finishCmd)

theorem Safety.canonical.apertureFails (h : canonical s) {a code} : canonical (s.apertureFails a code) :=
  h.hostErr.frame

theorem Safety.canonical.aperture (h : canonical s) {x} : canonical (s.aperture x) := by
  unfold State.aperture
  refine .ite h.frame ?_
  refine .ite h.draw.apertureFails ?_
  refine .ite (.ite (.ite h.writeReg.frame h.writeReg.apertureFails) (.ite h.apertureFails (.ite h.checkAccess.frame h.checkAccess.apertureFails))) ?_
  refine .ite h.apertureFails ?_
  extract_lets +onlyGivenNames c
  have h₁ : canonical c.1 := h.access
  refine .ite h₁.apertureFails ?_
  refine .ite (.ite h₁.devWrite.frame h₁.devWrite.apertureFails) ?_
  extract_lets +onlyGivenNames r
  have h₂ : canonical r.1 := h₁.devRead
  exact .ite h₂.frame h₂.apertureFails

theorem Safety.canonical.opAperture (h : canonical s) {wr off size v} : canonical (Machine.opAperture wr off size v s) :=
  .ite h.updHost h.aperture

theorem Safety.canonical.serveLate (h : canonical s) {n} : canonical (s.serveLate n) := by
  induction n generalizing s with
  | zero => exact h
  | succ n ih =>
    rw [State.serveLate]
    split
    · exact h
    · exact .ite h (ih h.updHost.aperture)

theorem Safety.canonical.writeRegs (h : canonical s) {b a bs} : canonical (s.writeRegs b a bs).1 :=
  h.foldl_fst (fun _ _ h' => h'.writeReg)

theorem Safety.canonical.opPacketArrival (h : canonical s) {b src slot} : canonical (Machine.opPacketArrival b src slot s) := by
  unfold Machine.opPacketArrival
  split
  · exact h
  · split
    · exact h
    · exact .ite h (h.carryPart (fun _ _ _ h' => .ite_fst h' (.ite_fst h'.bayRangeRead h'.devRead))
        (fun _ _ _ h' => .ite_fst h'.writeRegs (.ite_fst h'.bayRangeWrite h'.devWrite))
        (fun _ _ _ _ _ h' => .ite_fst h'.bayAmo h'.devAmo))

/-- What a command answers is canonical. -/
theorem Safety.canonical.exec (h : canonical s) (c : Instr) : ∀ t, Machine.exec c s = .next t → canonical t := by
  suffices H : ∃ t, Machine.exec c s = .next t ∧ canonical t by
    obtain ⟨t, e, ht⟩ := H
    rintro _ e'
    cases e.symm.trans e'
    exact ht
  cases c with
  | registerWrite | scrSetWrite => exact ⟨_, rfl, h.regWriteBy.settledAll⟩
  | flitReplay => exact ⟨_, rfl, h.opFlitReplay.settledAll⟩
  | frameLanding => exact ⟨_, rfl, h.opFrameLanding⟩
  | engineRegAccess => exact ⟨_, rfl, h.opEngineReg⟩
  | engineEvent => exact ⟨_, rfl, h.opEngineEvent⟩
  | optFwCtrlWrite | optFwWinWrite | seamEnWrite | groupEntryW0Write | llsSegWrite | hbmBandWrite | abrLevelWrite | scrLatchGo |
    digestStart | basteForce | sqTailDoorbell | cqHeadDoorbell | mailboxGo | mailboxRestart | measExtend | accessTableLock |
    dvfsWrite =>
    exact ⟨_, rfl, h.write64⟩
  | hbm1500Instruction => exact ⟨_, rfl, h.opHbm1500⟩
  | hbmTempRead => exact ⟨_, rfl, h.opHbmTempRead⟩
  | bayGo => exact ⟨_, rfl, h.opBayTrigger.settledAll⟩
  | bayStop => exact ⟨_, rfl, h.opBayTrigger⟩
  | threadDrainDone => exact ⟨_, rfl, h.opDrainDone.settled⟩
  | add | sub | and | or | xor | shl | shr | sra | slt | sltu | seq | min | max | minu | maxu => exact ⟨_, rfl, h.opAlu⟩
  | addImm | subImm | andImm | orImm | xorImm | shlImm | shrImm | sraImm | sltImm | sltuImm | seqImm | minImm | maxImm | minuImm |
    maxuImm =>
    exact ⟨_, rfl, h.opAluImm⟩
  | li | lih => exact ⟨_, rfl, h.opScalar⟩
  | mul | mulh | mulhu | div | divu | rem | remu => exact ⟨_, rfl, h.opMul⟩
  | lb | lh | lw | ld | lbu | lhu | lwu => exact ⟨_, rfl, h.opLoad⟩
  | sb | sh | sw | sd => exact ⟨_, rfl, h.opStore⟩
  | beq | bne | blt | bge | bltu | bgeu => exact ⟨_, rfl, h.opBranch⟩
  | jal => exact ⟨_, rfl, h.opJal⟩
  | jalr => exact ⟨_, rfl, h.opJalr⟩
  | setvl => exact ⟨_, rfl, h.opSetvl⟩
  | rdsys => exact ⟨_, rfl, h.opRdsys⟩
  | vadd | vsub | vmul | vfma | vmin | vmax | vabs | vneg | vcmp | viadd | visub | vimul | vand | vor | vxor | vshl | vshr | exp2
    | log2 | rcp | rsqrt | sin | cos | sincosP | vdiv | vsqrt | vcvt | vld | vst | vldR | vstR | unfold | perm | mand | mor | mxor
    | mnot | mpop | redSum | redMax | redMin | redArgmax | redSumx | xcvt | redTopkInit | redTopk | softmaxInit | softmaxAcc |
    softmaxFin | softmaxOut =>
    exact ⟨_, rfl, h.opVecIssue⟩
  | fold => exact ⟨_, rfl, by split; exacts [h.opVecIssue, h.opHostFold]⟩
  | vectorStart => exact ⟨_, rfl, h.opVectorStart⟩
  | mm | lds | turn | accClr | accSt | accLd | accWin => exact ⟨_, rfl, h.opPressIssue⟩
  | pressAccept => exact ⟨_, rfl, h.opPressAccept⟩
  | put | putF | get | amo => exact ⟨_, rfl, h.opMsgIssue.settleMsgs⟩
  | fence => exact ⟨_, rfl, h.opFence⟩
  | fenceComplete => exact ⟨_, rfl, h.opFenceComplete⟩
  | messagePacketArrival => exact ⟨_, rfl, h.opPacketArrival.settledAll⟩
  | messageAckArrival => exact ⟨_, rfl, h.opMessageAck⟩
  | sync => exact ⟨_, rfl, h.opSync⟩
  | syncRelease => exact ⟨_, rfl, h.opSyncRelease⟩
  | waitFlag => exact ⟨_, rfl, h.opWaitFlag⟩
  | waitFlagReread => exact ⟨_, rfl, h.opWaitFlagReread⟩
  | waitFlagTimeout => exact ⟨_, rfl, h.opWaitFlagTimeout⟩
  | waitScribe => exact ⟨_, rfl, h.opWaitScribe⟩
  | waitScribeRelease => exact ⟨_, rfl, h.opWaitScribeRelease⟩
  | endThread => exact ⟨_, rfl, h.opEnd⟩
  | spliceMmb | spliceMmr | spliceVb | spliceVr | spliceDsp | spliceCmb => exact ⟨_, rfl, h.opSplice⟩
  | collectiveJoin => exact ⟨_, rfl, h.opCollectiveJoin⟩
  | joinNoticeArrival => exact ⟨_, rfl, h.opJoinNotice⟩
  | chunkArrival => exact ⟨_, rfl, h.opChunk.settled⟩
  | creditArrival => exact ⟨_, rfl, h.opCredit⟩
  | chunkAckArrival => exact ⟨_, rfl, h.opChunkAck⟩
  | abortNoticeArrival => exact ⟨_, rfl, h.opAbortNotice⟩
  | earlyRecordExpiry => exact ⟨_, rfl, h.opEarlyExpiry⟩
  | noticeResend => exact ⟨_, rfl, h.opNoticeResend⟩
  | slowNoticeSend => exact ⟨_, rfl, h.opSlowSend⟩
  | slowNoticeArrival => exact ⟨_, rfl, h.opSlowArrival⟩
  | silenceTimeout => exact ⟨_, rfl, h.opSilence⟩
  | tallyNoticeArrival => exact ⟨_, rfl, h.opTallyNotice⟩
  | releaseNoticeArrival => exact ⟨_, rfl, h.opReleaseNotice⟩
  | doneNoticeArrival => exact ⟨_, rfl, h.opDoneNotice⟩
  | groupCheckDone => exact ⟨_, rfl, h.opGroupCheck⟩
  | hbmRequest => exact ⟨_, rfl, h.opHbmRequest⟩
  | eccWriteback => exact ⟨_, rfl, h.opEccWriteback⟩
  | patrolScrub => exact ⟨_, rfl, h.opPatrolScrub⟩
  | retrainStart => exact ⟨_, rfl, h.opRetrainStart⟩
  | retrainDone => exact ⟨_, rfl, h.opRetrainDone.serveLate⟩
  | foldStart => exact ⟨_, rfl, h.opFoldStart.settled⟩
  | foldPieceCopy => exact ⟨_, rfl, h.opFoldPiece⟩
  | llsChangeDone => exact ⟨_, rfl, h.opLlsChangeDone⟩
  | packetForward => exact ⟨_, rfl, h.opPacketForward⟩
  | creditReturn => exact ⟨_, rfl, h.opCreditReturn⟩
  | leadPauseExpiry => exact ⟨_, rfl, h.opLeadPause⟩
  | nakArrival => exact ⟨_, rfl, h.opNak⟩
  | controlFrameTick => exact ⟨_, rfl, h.opControlFrame⟩
  | portSilenceTimeout | portDown => exact ⟨_, rfl, h.portDown⟩
  | portUp => exact ⟨_, rfl, h.opPortUp⟩
  | sequencedPacketArrival => exact ⟨_, rfl, h.opSequenced⟩
  | ackArrival => exact ⟨_, rfl, h.opAck⟩
  | rtoExpiry => exact ⟨_, rfl, h.opRto⟩
  | pairBreakTimeout => exact ⟨_, rfl, h.opPairBreak⟩
  | pairHoldoffExpiry => exact ⟨_, rfl, h.opHoldoff⟩
  | unreachableNoticeArrival => exact ⟨_, rfl, h.opUnreachable⟩
  | getRspArrival => exact ⟨_, rfl, h.opGetRsp⟩
  | getRetryTimeout => exact ⟨_, rfl, h.opGetRetry⟩
  | amoReqArrival => exact ⟨_, rfl, h.opAmoReq⟩
  | amoRspArrival => exact ⟨_, rfl, h.opAmoRsp⟩
  | amoRelArrival => exact ⟨_, rfl, h.opAmoRel⟩
  | amoResendTimeout => exact ⟨_, rfl, h.opAmoResend⟩
  | atomicRecordExpiry => exact ⟨_, rfl, h.opAtomicExpiry⟩
  | laneDrainMessage => exact ⟨_, rfl, h.opLaneDrain⟩
  | laneDrainedMessage => exact ⟨_, rfl, h.opLaneDrained⟩
  | laneRungMessage => exact ⟨_, rfl, h.opLaneRung⟩
  | laneJoinMessage => exact ⟨_, rfl, h.opLaneJoin⟩
  | snrMeasurement => exact ⟨_, rfl, h.opSnr⟩
  | laneTraining => exact ⟨_, rfl, h.opTraining⟩
  | lossOfSignal => exact ⟨_, rfl, h.opLossOfSignal⟩
  | laneHold => exact ⟨_, rfl, h.holdLane⟩
  | ringLoopUpdate => exact ⟨_, rfl, h.opRingLoop⟩
  | ringRelockDone => exact ⟨_, rfl, h.opRelock⟩
  | wrongLineSweepDone => exact ⟨_, rfl, h.opSweep⟩
  | laserPowerMeasurement => exact ⟨_, rfl, h.opLaserPower⟩
  | patchSwapStep => exact ⟨_, rfl, h.opSwapStep⟩
  | expressPatchSwap => exact ⟨_, rfl, h.opExpressSwap⟩
  | expressBurst => exact ⟨_, rfl, h.opBurst⟩
  | circuitStart | stepAdvance | epochArm => exact ⟨_, rfl, h.write64.settledAll⟩
  | circuitChangeAtMark => exact ⟨_, rfl, h.circuitGo⟩
  | circuitTimeout => exact ⟨_, rfl, h.opCircuitTimeout⟩
  | refLost => exact ⟨_, rfl, h.opRefLost⟩
  | refReturn => exact ⟨_, rfl, h.opRefReturn⟩
  | scribeTick => exact ⟨_, rfl, h.opScribeTick⟩
  | timeExchangeSend => exact ⟨_, rfl, h.opTimeSend⟩
  | timeRequestArrival => exact ⟨_, rfl, h.opTimeRequest⟩
  | timeReplyArrival => exact ⟨_, rfl, h.opTimeReply⟩
  | timeReplyTimeout => exact ⟨_, rfl, h.opTimeTimeout⟩
  | degradedTimeout => exact ⟨_, rfl, h.opDegraded⟩
  | degradedClear => exact ⟨_, rfl, h.opDegradedClear⟩
  | launchFire => exact ⟨_, rfl, h.opLaunchFire⟩
  | calendarTick => exact ⟨_, rfl, h.opCalendarTick⟩
  | cellEmpty => exact ⟨_, rfl, h.opCellEmpty⟩
  | leafDigestDone => exact ⟨_, rfl, h.opLeafDigest.settledAll⟩
  | plumbStartAtMark => exact ⟨_, rfl, h.opPlumbStart⟩
  | plumbBatchSend => exact ⟨_, rfl, h.opPlumbSend⟩
  | plumbBatchArrival => exact ⟨_, rfl, h.opPlumbArrival⟩
  | plumbEntryExchange => exact ⟨_, rfl, h.opPlumbExchange⟩
  | plumbUnmatchedTimeout => exact ⟨_, rfl, h.opPlumbUnmatched⟩
  | plumbStopMarkArrival => exact ⟨_, rfl, h.opPlumbStopMark⟩
  | plumbStopAtMark => exact ⟨_, rfl, h.opPlumbStop⟩
  | plumbPartnerLost => exact ⟨_, rfl, h.opPlumbLost⟩
  | basteCopyDone => exact ⟨_, rfl, h.opBasteCopy.settledAll⟩
  | basteTrickleLeaf => exact ⟨_, rfl, h.opTrickleLeaf.settledAll⟩
  | bastePartnered => exact ⟨_, rfl, h.opPartnered⟩
  | riskUpdate => exact ⟨_, rfl, h.opRiskUpdate⟩
  | epochChangeAtMark => exact ⟨_, rfl, h.opEpochChange.settled⟩
  | leaseExpiry => exact ⟨_, rfl, h.opLeaseExpiry⟩
  | leaseGraceExpiry => exact ⟨_, rfl, h.opLeaseGrace.settled⟩
  | descriptorFetch => exact ⟨_, rfl, h.opDescriptorFetch⟩
  | completionRecordWrite => exact ⟨_, rfl, h.opRecordWrite⟩
  | interruptCoalesceTimeout => exact ⟨_, rfl, h.opCoalesceTimeout⟩
  | ringConfigWrite => exact ⟨_, rfl, h.regWriteBy⟩
  | debugApertureAccess => exact ⟨_, rfl, h.opAperture.settledAll⟩
  | functionLevelReset | perstAssert => exact ⟨_, rfl, h.resetHostIf⟩
  | nop => exact ⟨_, rfl, h.opNop⟩
  | write => exact ⟨_, rfl, h.opWrite⟩
  | read => exact ⟨_, rfl, h.opRead⟩
  | copy | xfer => exact ⟨_, rfl, h.opDma⟩
  | fill => exact ⟨_, rfl, h.opFill⟩
  | regWrite => exact ⟨_, rfl, h.opRegWrite.settledAll⟩
  | jobLoad => exact ⟨_, rfl, h.opJobLoad⟩
  | jobStart => exact ⟨_, rfl, h.opJobStart.settledAll⟩
  | jobEnd => exact ⟨_, rfl, h.endJob⟩
  | jobStop => exact ⟨_, rfl, h.opJobStop⟩
  | hold => exact ⟨_, rfl, h.opHold⟩
  | resume => exact ⟨_, rfl, h.opResumeLaunches.serveLate.settledAll⟩
  | baste => exact ⟨_, rfl, h.opBaste⟩
  | hem => exact ⟨_, rfl, h.opHem⟩
  | hemDone => exact ⟨_, rfl, h.opHemDone⟩
  | restore => exact ⟨_, rfl, h.opRestore.settledAll⟩
  | digest => exact ⟨_, rfl, h.opDigest⟩
  | record => exact ⟨_, rfl, h.opRecord⟩
  | scrub => exact ⟨_, rfl, h.opScrub⟩
  | retrain => exact ⟨_, rfl, h.opRetrain⟩
  | circuit => exact ⟨_, rfl, h.opCircuit⟩
  | bootRom => exact ⟨_, rfl, h.opBootRom⟩
  | fuseBlow => exact ⟨_, rfl, h.opFuseBlow⟩
  | firmwareWriteDone => exact ⟨_, rfl, h.opFwDone⟩
  | accessTableWrite => exact ⟨_, rfl, h.opTableWrite⟩
  | sensorRead => exact ⟨_, rfl, h.opSensorRead⟩
  | tpcUpdate => exact ⟨_, rfl, h.opTpcUpdate⟩
  | powerSample => exact ⟨_, rfl, h.opPowerSample⟩
  | thermalShutdown => exact ⟨_, rfl, h.opThermalShutdown⟩
  | leakDetect => exact ⟨_, rfl, h.opLeakDetect⟩
  | dvfsChangeDone => exact ⟨_, rfl, h.opDvfsDone⟩
  | patrolSample => exact ⟨_, rfl, h.opPatrolSample⟩
  | patrolWake => exact ⟨_, rfl, h.opPatrolWake⟩
  | patrolEntryStep => exact ⟨_, rfl, h.opEntryStep⟩
  | patrolEntryAbandon => exact ⟨_, rfl, h.opEntryAbandon⟩
  | replanDue => exact ⟨_, rfl, h.opReplanDue⟩
  | maxPointApply => exact ⟨_, rfl, h.opMaxPoint⟩
  | mgmtRequest => exact ⟨_, rfl, h.opMgmtRequest⟩
  | mgmtReplyRead => exact ⟨_, rfl, h.opReplyRead⟩
  | busClockTimeout | frameIncompleteTimeout => exact ⟨_, rfl, h.opFrameTimeout⟩
  | entdaa | setnewda => exact ⟨_, rfl, h.assign⟩
  | setdasa => exact ⟨_, rfl, .ite h.assign h⟩
  | rstdaa | enec | disec => exact ⟨_, rfl, h.ccc (fun _ h' => h'.setF)⟩
  | getpid | getbcr | getdcr | getmwl | getmrl => exact ⟨_, rfl, h.cccRead⟩
  | getstatus => exact ⟨_, rfl, h.opGetstatus⟩
  | status => exact ⟨_, rfl, h.opStatus⟩
  | events => exact ⟨_, rfl, h.opEvents⟩
  | sensors => exact ⟨_, rfl, h.opSensors⟩
  | lease => exact ⟨_, rfl, h.opLease⟩
  | renew => exact ⟨_, rfl, h.opRenew⟩
  | expel => exact ⟨_, rfl, h.opExpel.settled⟩
  | quarantine => exact ⟨_, rfl, h.opQuarantine⟩
  | release => exact ⟨_, rfl, h.opRelease⟩
  | nbr => exact ⟨_, rfl, h.opNbr⟩
  | off => exact ⟨_, rfl, h.opOff.settled⟩
  | patrol => exact ⟨_, rfl, h.opPatrol.settled⟩
  | patrolSet => exact ⟨_, rfl, h.opPatrolSet⟩
  | powerCap => exact ⟨_, rfl, h.opPowerCap⟩
  | replan => exact ⟨_, rfl, h.opReplan⟩
  | calSet => exact ⟨_, rfl, h.opCalSet⟩
  | alarmSet => exact ⟨_, rfl, h.opAlarmSet⟩
  | fwWrite => exact ⟨_, rfl, h.opFwWrite⟩
  | quote => exact ⟨_, rfl, h.opQuote⟩
  | certRead => exact ⟨_, rfl, h.opCertRead⟩
  | challenge => exact ⟨_, rfl, h.opChallenge⟩
  | permit => exact ⟨_, rfl, h.opPermit⟩
  | bench => exact ⟨_, rfl, h.opBench⟩
  | benchCheck => exact ⟨_, rfl, h.opBenchCheck⟩
  | powerOn => exact ⟨_, rfl, h.opPowerOn⟩
  | resetAssert => exact ⟨_, rfl, h.opResetAssert⟩
  | inputLoss => exact ⟨_, rfl, h.opInputLoss⟩
  | auxInputLoss => exact ⟨_, rfl, h.opAuxLoss⟩
  | latchClear => exact ⟨_, rfl, h.opLatchClear⟩
  | reservedEncoding => exact ⟨_, rfl, h.opReserved⟩
  | hostReadCompletion => exact ⟨_, rfl, h.opHostRead⟩
  | hostCompletionTimeout => exact ⟨_, rfl, h.opHostTimeout⟩
  | fwWriteIdleTimeout => exact ⟨_, rfl, h.opFwIdle⟩
  | auxInputReturn => exact ⟨_, rfl, h.opAuxReturn⟩
  | selfRefreshEntry => exact ⟨_, rfl, h.opSelfRefresh⟩
  | bankRefresh => exact ⟨_, rfl, h⟩
  | hemStore => exact ⟨_, rfl, h.opHemStore.settledAll⟩

end

/-- Settles O3: `Machine.exec` answers a canonical state from a canonical state, and a step takes one command off the list, which is
no part of the three maps. -/
theorem stepsKeepTheMapsCanonical : Obligations.StepsKeepTheMapsCanonical := by
  unfold Obligations.StepsKeepTheMapsCanonical
  intro s t h e
  unfold Machine.step at e
  split at e
  · cases e
    exact h
  · next c cs _ => exact Safety.canonical.exec (s := { s with pending := cs }) h.frame c t e

end Sys2Proof
end

section

/-! ### Register writes (R11, R12, R488, R489, R563) -/

set_option Elab.async false

namespace Sys2Proof.Machine

section
variable {s : State} {p : RegPath} {r : RegId} {i j : Nat} {v : Word}

/-- A register's address fits the 48 bits of a command's address. -/
theorem RegId.addr_toNat (r : RegId) {i j : Nat} (hi : i < r.spec.n1) (hj : j < r.spec.n2) :
    (BitVec.ofNat 48 (r.addr i j)).toNat = r.addr i j := by
  have h := (r.addr_inside hi hj).2.1
  unfold regEnd at h
  rw [BitVec.toNat_ofNat]
  omega

/-- No kind with rules of its own is read-only: a read-only kind has the rule of the kinds that are not named. -/
theorem writeBy_readOnly (h : r.readOnly = true) : writeBy r i j v s = (s, cRANGE) := by
  unfold writeBy
  split
  case h_51 => exact if_pos h
  all_goals exact absurd h (by decide)

/-- A path other than BAR0 reports the outcome of its write as a code alone (R563). -/
theorem State.regWriteBy_of_ne_bar0 (hp : p ≠ .bar0) (a size : Nat) :
    s.regWriteBy p a size v = { (s.writeReg p a size v).1 with lastCode := (s.writeReg p a size v).2 } := by
  unfold State.regWriteBy
  rw [if_neg fun h => hp h.1]
  exact if_neg fun h => hp h.1

/-- An answer of a code leaves nothing handed over. -/
theorem State.settledAll_lastCode (h : Safety.handedOver s) (c : Code) :
    ({ s with lastCode := c } : State).settledAll = { s with lastCode := c } :=
  State.settledAll_of_handedOver { s with lastCode := c } h

/-- A write by such a path that leaves the state as it is answers its code. -/
theorem exec_registerWrite_code {c : Code} {a : BitVec 48} {size : Nat} (hs : Safety.handedOver s) (hp : p ≠ .bar0)
    (h : s.writeReg p a.toNat size v = (s, c)) :
    exec (.registerWrite p a size v) s = .next { s with lastCode := c } := by
  change Host.Outcome.next (s.regWriteBy p a.toNat size v).settledAll = _
  rw [State.regWriteBy_of_ne_bar0 hp, h]
  exact congrArg _ (State.settledAll_lastCode hs c)

theorem State.writeReg_misaligned {a size : Nat} (h : regAligned a size = false) : s.writeReg p a size v = (s, cMALFORMED) := by
  simp [State.writeReg, h]

theorem State.writeReg_outside {a size : Nat} (h : regAligned a size = true) (ha : a < regBase ∨ regEnd ≤ a) :
    s.writeReg p a size v = (s, cRANGE) := by
  simp [State.writeReg, h, ha]

/-- A hole of register space ignores the write (R12). -/
theorem State.writeReg_hole {a size : Nat} (h : regAligned a size = true) (h₁ : regBase ≤ a) (h₂ : a < regEnd) (hl : regLocate a = none)
    (hc : (s.checkAccess (s.pathMaster p) s.devCoord permW a size).2 = true) : s.writeReg p a size v = (s, cDONE) := by
  have ha : ¬ (a < regBase ∨ regEnd ≤ a) := by omega
  simp [State.writeReg, h, ha, hl, State.checkAccess_true hc]

/-- A register that the path may not write refuses before its tables are looked at (R489). -/
theorem State.writeReg_mayNot (hi : i < r.spec.n1) (hj : j < r.spec.n2) (hh : (r == .ABR_LEVEL && levelHole i j) = false)
    (hm : pathMay p r (r.addr i j) v = false) : s.writeReg p (r.addr i j) 8 v = (s, cACCESS_DENIED) := by
  obtain ⟨h₁, h₂, h₃⟩ := r.addr_inside hi hj
  have ha : ¬ (r.addr i j < regBase ∨ regEnd ≤ r.addr i j) := by omega
  simp [State.writeReg, regAligned, h₃, ha, regLocate_addr r hi hj hh, widen, hm]

/-- A 64-bit REGISTER_WRITE at a register's address is the write of that register. -/
theorem exec_registerWrite_addr (hi : i < r.spec.n1) (hj : j < r.spec.n2) :
    exec (.registerWrite p (BitVec.ofNat 48 (r.addr i j)) 8 v) s = .next (s.write64 p r i j v).settledAll := by
  change Host.Outcome.next (s.regWriteBy p (BitVec.ofNat 48 (r.addr i j)).toNat 8 v).settledAll = _
  rw [r.addr_toNat hi hj]
  rfl

/-- A write that reaches its register, and that a write through BAR0 completes, answers what the register's own rules answer. -/
theorem exec_registerWrite_reaches (hi : i < r.spec.n1) (hj : j < r.spec.n2) (h : Safety.reaches s p r i j v)
    (hd : p = .bar0 → (writeBy r i j v s).2 = cDONE) :
    exec (.registerWrite p (BitVec.ofNat 48 (r.addr i j)) 8 v) s = .next
      (State.settledAll { (writeBy r i j v s).1 with lastCode := (writeBy r i j v s).2 }) := by
  rw [exec_registerWrite_addr hi hj, State.write64_of_reaches h hi hj, if_neg fun x => x.2 (hd x.1)]

/-- A write of a register other than `HBM_CAP` leaves no more handed over than there was. -/
theorem handedOver_plainWrite (hi : i < r.spec.n1) (hj : j < r.spec.n2) (hr : r ≠ .HBM_CAP) (h : Safety.handedOver s) :
    Safety.handedOver (s.plainWrite r i j v) := by
  obtain ⟨hended, hlost, hfolds⟩ := h
  have hcap : (s.plainWrite r i j v).reg RegId.HBM_CAP.addr = s.reg RegId.HBM_CAP.addr :=
    State.reg_setReg_ne _ _ _ _ (RegId.addr_ne .HBM_CAP r Nat.one_pos Nat.one_pos hi hj hr.symm)
  exact ⟨hended, hlost, fun e => hfolds ((congrArg (fieldOf · _ _) hcap).symm.trans e)⟩

/-- The bits of `BAY_MAIN_PC` that a write takes are those of PC. -/
theorem fieldOf_written_mainPc (old v : Word) : fieldOf (RegId.BAY_MAIN_PC.written old v) 3 17 = fieldOf v 3 17 := by
  have hrw : RegId.BAY_MAIN_PC.bits .rw = 0xFFFF8 := by decide
  have hw1c : RegId.BAY_MAIN_PC.bits .w1c = 0 := by decide
  have hrw1s : RegId.BAY_MAIN_PC.bits .rw1s = 0 := by decide
  unfold RegId.written fieldOf
  rw [hrw, hw1c, hrw1s]
  congr 1
  ext k hk
  interval_cases k <;> simp

end

end Sys2Proof.Machine

namespace Sys2Proof
open Machine

/-- Settles O36, clause by clause: the lemmas above give the outcome of `State.writeReg`, and a path other than BAR0 answers it. -/
theorem registerWritesFollowTheirRules : Obligations.RegisterWritesFollowTheirRules := by
  unfold Obligations.RegisterWritesFollowTheirRules
  refine ⟨fun p r i j v s hi hj h hd => exec_registerWrite_reaches hi hj h hd, fun p r i j v s hi hj h hs hp hro => ?_,
    fun p b v s h hs => ?_, fun p a size v s hs hp => ⟨fun h => ?_, fun h ha => ?_, fun h h₁ h₂ hl hc => ?_⟩,
    fun p r i j v s hi hj hh hs hp hm => ?_⟩
  · have hw := writeBy_readOnly hro (i := i) (j := j) (v := v) (s := s)
    rw [exec_registerWrite_reaches hi hj h (fun e => absurd e hp), hw]
    exact congrArg _ (State.settledAll_lastCode hs cRANGE)
  · have hw : writeBy .BAY_MAIN_PC b.toNat 0 v s = (s.plainWrite .BAY_MAIN_PC b.toNat 0 v, cDONE) := rfl
    refine ⟨{ s.plainWrite .BAY_MAIN_PC b.toNat 0 v with lastCode := cDONE }, ?_, rfl, ?_, rfl, fun a ha => ?_⟩
    · rw [exec_registerWrite_reaches b.isLt Nat.one_pos h (fun _ => by rw [hw]), hw]
      exact congrArg _ (State.settledAll_lastCode (handedOver_plainWrite b.isLt Nat.one_pos (by decide) hs) cDONE)
    · change fieldOf ((s.plainWrite .BAY_MAIN_PC b.toNat 0 v).reg _) 3 17 = _
      rw [State.plainWrite]
      exact (congrArg (fieldOf · 3 17) (State.reg_setReg_self ..)).trans (fieldOf_written_mainPc _ v)
    · exact State.reg_setReg_ne _ _ _ _ fun e => ha (List.mem_singleton.mpr e)
  · exact exec_registerWrite_code hs hp (State.writeReg_misaligned h)
  · exact exec_registerWrite_code hs hp (State.writeReg_outside h ha)
  · exact exec_registerWrite_code hs hp (State.writeReg_hole h h₁ h₂ hl hc)
  · refine exec_registerWrite_code hs hp ?_
    rw [r.addr_toNat hi hj]
    exact State.writeReg_mayNot hi hj hh hm

end Sys2Proof
end

section

/-! ### Ports up and down (R281, R306, R317) -/

set_option Elab.async false

namespace Sys2Proof.Machine

section
variable {P Q : Nat → Prop} {r s t : State} {α : Type}

/-- What an operation keeps: device memory, the bays, the fabric, and every register whose address is not in `P`. -/
structure Confined (P : Nat → Prop) (s t : State) : Prop where
  mem : t.mem = s.mem
  bays : t.bays = s.bays
  fab : t.fab = s.fab
  reg : ∀ a, ¬ P a → t.reg a = s.reg a

theorem Confined.refl : Confined P s s := ⟨rfl, rfl, rfl, fun _ _ => rfl⟩

theorem Confined.mono (h : Confined P s t) (hPQ : ∀ a, P a → Q a) : Confined Q s t :=
  ⟨h.mem, h.bays, h.fab, fun a ha => h.reg a fun hP => ha (hPQ a hP)⟩

/-- An update of parts of the state beside those. -/
theorem Confined.frame {pending ecc1 ecc2 hbmBad flits hbm opt scr host ldg tpc power store fwWrite mgmt meas fresh lastCode lastData}
    (h : Confined P r s) : Confined P r ⟨pending, s.regs, s.bays, s.mem, ecc1, ecc2, hbmBad, flits, hbm, s.fab, opt, scr, host, ldg, tpc,
      power, store, fwWrite, mgmt, meas, fresh, lastCode, lastData⟩ := ⟨h.mem, h.bays, h.fab, h.reg⟩

theorem Confined.updOpt (h : Confined P r s) (f : Optics → Optics) : Confined P r (s.updOpt f) := h.frame

theorem Confined.setF (h : Confined P r s) {f : Field} (v : Nat) (hf : P f.reg) : Confined P r (s.setF f v) :=
  ⟨h.mem, h.bays, h.fab, fun a ha => (State.reg_setF_ne _ _ _ _ fun e => ha (by rwa [e])).trans (h.reg a ha)⟩

theorem Confined.foldl {f : State → α → State} {l : List α} (h : Confined P r s)
    (hf : ∀ s x, x ∈ l → Confined P r s → Confined P r (f s x)) : Confined P r (l.foldl f s) := by
  induction l generalizing s with
  | nil => exact h
  | cons x l ih => exact ih (hf s x (List.mem_cons_self ..) h) fun t y hy => hf t y (List.mem_cons_of_mem x hy)

theorem Confined.setFs (h : Confined P r s) {l : List (Field × Nat)} (hl : ∀ x ∈ l, P x.1.reg) : Confined P r (s.setFs l) :=
  h.foldl fun _ x hx h' => h'.setF x.2 (hl x hx)

theorem Confined.ite {c : Prop} [Decidable c] (hs : Confined P r s) (ht : Confined P r t) : Confined P r (if c then s else t) := by
  split <;> assumption

theorem Confined.tickEvent (h : Confined P r s) (n : Nat) (hP : P RegId.LDG_STEP_STATUS.addr) : Confined P r (s.tickEvent n) :=
  ⟨(s.tickEvent_mem n).trans h.mem, (s.tickEvent_bays n).trans h.bays, (s.tickEvent_fab n).trans h.fab,
    fun a ha => (State.reg_tickEvent_ne _ _ _ fun e => ha (by rwa [e])).trans (h.reg a ha)⟩

theorem Confined.trans (h : Confined P r s) (h' : Confined P s t) : Confined P r t :=
  ⟨h'.mem.trans h.mem, h'.bays.trans h.bays, h'.fab.trans h.fab, fun a ha => (h'.reg a ha).trans (h.reg a ha)⟩

/-- The same change of the fabric on both sides. -/
theorem Confined.withFab (h : Confined P s t) (f : Fabric → Fabric) : Confined P { s with fab := f s.fab } { t with fab := f t.fab } :=
  ⟨h.mem, h.bays, congrArg f h.fab, h.reg⟩

end

/-! #### A port's lanes -/

/-- The registers of the lanes of port `p` and of their engine's lasers. -/
def laneRegs (p : Nat) : List Nat :=
  RegId.OPT_ENG_STATUS.addr (p / 2) :: (List.range 16).map (fun w => RegId.OPT_LANE.addr p w)
    ++ (List.range 37).map fun l => RegId.OPT_LASER.addr (p / 2) l

section
variable {p w : Nat} {r s : State}

theorem mem_laneRegs {a : Nat} : a ∈ laneRegs p ↔ a = RegId.OPT_ENG_STATUS.addr (p / 2) ∨ (∃ w < 16, RegId.OPT_LANE.addr p w = a)
    ∨ ∃ l < 37, RegId.OPT_LASER.addr (p / 2) l = a := by
  simp [laneRegs]

theorem engStatus_mem_laneRegs : RegId.OPT_ENG_STATUS.addr (p / 2) ∈ laneRegs p := mem_laneRegs.mpr (.inl rfl)

theorem lane_mem_laneRegs (hw : w < 16) : RegId.OPT_LANE.addr p w ∈ laneRegs p := mem_laneRegs.mpr (.inr (.inl ⟨w, hw, rfl⟩))

theorem laser_mem_laneRegs {l : Nat} (hl : l < 37) : RegId.OPT_LASER.addr (p / 2) l ∈ laneRegs p :=
  mem_laneRegs.mpr (.inr (.inr ⟨l, hl, rfl⟩))

/-- Registers of other kinds are not among them. -/
theorem not_mem_laneRegs (hp : p < 16) {q : RegId} {i j : Nat} (hi : i < q.spec.n1) (hj : j < q.spec.n2)
    (hq : q ∉ [.OPT_ENG_STATUS, .OPT_LANE, .OPT_LASER]) : q.addr i j ∉ laneRegs p := by
  have he : p / 2 < 8 := by omega
  simp only [List.mem_cons, List.not_mem_nil, or_false, not_or] at hq
  obtain ⟨h₁, h₂, h₃⟩ := hq
  rw [mem_laneRegs]
  rintro (h | ⟨w, hw, h⟩ | ⟨l, hl, h⟩)
  · exact RegId.addr_ne q .OPT_ENG_STATUS hi hj he Nat.one_pos h₁ h
  · exact RegId.addr_ne q .OPT_LANE hi hj hp hw h₂ h.symm
  · exact RegId.addr_ne q .OPT_LASER hi hj he hl h₃ h.symm

theorem fieldOf_lt (w : Word) (lo width : Nat) : fieldOf w lo width < 2 ^ width := (w.extractLsb' lo width).isLt

/-- A lane's laser is one of the 37 of its engine: PATCH has two bits. -/
theorem laserOf_lt {i : Nat} (hi : i < 32) (e : Nat) : s.laserOf e i < 37 := by
  have hpatch : s.getF (Fld.OPT_LANE_PATCH (portOf e i) (waveOf i)) < 2 ^ 2 := fieldOf_lt ..
  unfold State.laserOf
  split <;> omega

theorem Confined.setLane (h : Confined (· ∈ laneRegs p) r s) (hw : w < 16) (st : Nat) : Confined (· ∈ laneRegs p) r (s.setLane p w st) :=
  (h.setF _ (lane_mem_laneRegs hw)).setF _ engStatus_mem_laneRegs

theorem Confined.setRungs (h : Confined (· ∈ laneRegs p) r s) (hw : w < 16) (x y : Nat) :
    Confined (· ∈ laneRegs p) r (s.setRungs p w x y) :=
  h.setFs (List.forall_mem_cons.mpr ⟨lane_mem_laneRegs hw, List.forall_mem_singleton.mpr (lane_mem_laneRegs hw)⟩)

theorem Confined.laserOff (h : Confined (· ∈ laneRegs p) r s) {l : Nat} (hl : l < 37) :
    Confined (· ∈ laneRegs p) r (s.laserOff (p / 2) l) :=
  h.setFs (List.forall_mem_cons.mpr ⟨laser_mem_laneRegs hl, List.forall_mem_singleton.mpr (laser_mem_laneRegs hl)⟩)

theorem Confined.removeLane (h : Confined (· ∈ laneRegs p) r s) (hw : w < 16) (keep : Bool) :
    Confined (· ∈ laneRegs p) r (s.removeLane p w keep) := by
  have h' := ((h.setRungs hw 0 0).setLane hw 5).updOpt fun o => { o with leaving := o.leaving.filter fun x => x.1 != laneKey p w }
  exact .ite h'.frame h'

theorem Confined.leaveLane (h : Confined (· ∈ laneRegs p) r s) (hw : w < 16) : Confined (· ∈ laneRegs p) r (s.leaveLane p w) := by
  unfold State.leaveLane
  split
  · exact h
  · have hl : s.laserOf (p / 2) (laneNo p w) < 37 := laserOf_lt (by unfold laneNo; omega) _
    exact .removeLane (.ite (h.laserOff hl) h) hw _

theorem Confined.restLane (h : Confined (· ∈ laneRegs p) r s) (hw : w < 16) : Confined (· ∈ laneRegs p) r (s.restLane p w) :=
  ((h.setRungs hw 0 0).updOpt _).setLane hw 1

/-- A port that stops carrying traffic changes its own lanes and their lasers only. -/
theorem Confined.stopLanes (h : Confined (· ∈ laneRegs p) r s) : Confined (· ∈ laneRegs p) r (s.stopLanes p) := by
  refine (h.updOpt _).foldl fun s w hw h => ?_
  have h' := h.leaveLane (List.mem_range.mp hw)
  exact .ite h' (h'.restLane (List.mem_range.mp hw))

end

/-! #### A port goes down (R306) -/

/-- The registers that a port going down may change. -/
def portRegs (p : Nat) : List Nat :=
  [RegId.ABR_PORT_STATUS.addr p, RegId.LDG_STEP_STATUS.addr, RegId.ABR_FAB_ERR.addr] ++ laneRegs p

section
variable {p : Nat} {r s : State}

theorem mem_portRegs {a : Nat} : a ∈ portRegs p ↔ a = RegId.ABR_PORT_STATUS.addr p ∨ a = RegId.LDG_STEP_STATUS.addr
    ∨ a = RegId.ABR_FAB_ERR.addr ∨ a ∈ laneRegs p := by
  simp [portRegs]

/-- Registers of other kinds are not among them. -/
theorem not_mem_portRegs (hp : p < 16) {q : RegId} {i j : Nat} (hi : i < q.spec.n1) (hj : j < q.spec.n2)
    (hq : q ∉ [.ABR_PORT_STATUS, .LDG_STEP_STATUS, .ABR_FAB_ERR, .OPT_ENG_STATUS, .OPT_LANE, .OPT_LASER]) :
    q.addr i j ∉ portRegs p := by
  simp only [List.mem_cons, List.not_mem_nil, or_false, not_or] at hq
  obtain ⟨h₁, h₂, h₃, h₄⟩ := hq
  rw [mem_portRegs]
  rintro (h | h | h | h)
  · exact RegId.addr_ne q .ABR_PORT_STATUS hi hj hp Nat.one_pos h₁ h
  · exact RegId.addr_ne q .LDG_STEP_STATUS hi hj Nat.one_pos Nat.one_pos h₂ h
  · exact RegId.addr_ne q .ABR_FAB_ERR hi hj Nat.one_pos Nat.one_pos h₃ h
  · exact not_mem_laneRegs hp hi hj (by simpa using h₄) h

/-- What a port leaves of the fabric when it stops: its unacknowledged frames are held again, ahead of the others, and its lanes are
empty. -/
def Fabric.afterStop (f : Fabric) (p : Nat) : Fabric :=
  let x := smapGet (fun _ => Port.reset) f.ports p
  let again := (x.bulk.replay ++ x.express.replay).map TxFrame.heldAgain
  let f := if p / 8 = 0 then { f with held0 := again ++ f.held0 } else { f with held1 := again ++ f.held1 }
  { f with ports := smapSet (fun _ => Port.reset) f.ports p { Port.reset with wasUp := x.wasUp, detours := x.detours } }

theorem Confined.fabLog (h : Confined (· ∈ portRegs p) r s) (c : Code) (d : DevCoord) (q : Nat) :
    Confined (· ∈ portRegs p) r (s.fabLog c d q) := by
  have hreg : RegId.ABR_FAB_ERR.addr ∈ portRegs p := mem_portRegs.mpr (.inr (.inr (.inl rfl)))
  exact .ite h (h.setFs fun x hx => by
    simp only [List.mem_cons, List.not_mem_nil, or_false] at hx
    obtain rfl | rfl | rfl | rfl := hx <;> exact hreg)

theorem Confined.fitBursts {P : Nat → Prop} (h : Confined P r s) (q : Nat) : Confined P r (s.fitBursts q) := h.frame

/-- A port that stops keeps all but its registers and the fabric. -/
theorem stopPort_confined (s : State) (p : Nat) :
    Confined (· ∈ RegId.ABR_PORT_STATUS.addr p :: laneRegs p) { s with fab := s.fab.afterStop p } (s.stopPort p) := by
  unfold State.stopPort
  extract_lets x again s₁ reset s₂
  have hfab : s₂.fab = s.fab.afterStop p := by
    by_cases hp : p / 8 = 0 <;>
      simp [s₂, s₁, again, x, reset, State.setPort, State.setHeld, State.heldOf, State.port, Fabric.afterStop, hp]
  have h₂ : Confined (· ∈ laneRegs p) { s with fab := s.fab.afterStop p } s₂ := ⟨rfl, rfl, hfab, fun _ _ => rfl⟩
  have hlanes := (h₂.fitBursts p).stopLanes.mono fun a ha => List.mem_cons_of_mem (RegId.ABR_PORT_STATUS.addr p) ha
  exact hlanes.setF 0 (List.mem_cons_self ..)

/-- A port about to stop: its detours are taken from the table, and the first destination affected is logged. -/
def State.downLogged (s : State) (p : Nat) : State :=
  let t := s.updPort p fun x => { x with detours := s.detoursOf p }
  (s.firstAffected p).elim t fun d => t.fabLog cLINK_LOST d p

theorem portDown_eq (hup : s.portUp p = true) (c : DownCause) : s.portDown p c
    = (((s.downLogged p).stopPort p).setFs [(Fld.ABR_PORT_STATUS_DOWN p, 1), (Fld.ABR_PORT_STATUS_CAUSE p, downCode c)]).tickEvent := by
  unfold State.portDown
  rw [if_neg (by simp [hup])]
  rfl

theorem downLogged_confined (s : State) (p : Nat) :
    Confined (· ∈ portRegs p) (s.updPort p fun x => { x with detours := s.detoursOf p }) (s.downLogged p) := by
  unfold State.downLogged
  cases s.firstAffected p with
  | none => exact .refl
  | some d => exact Confined.refl.fabLog _ _ _

/-- Once the destination is logged, the port's own registers, those of its lanes and the step's status change. -/
theorem portDown_confined_downLogged (hup : s.portUp p = true) (c : DownCause) :
    Confined (· ∈ RegId.LDG_STEP_STATUS.addr :: RegId.ABR_PORT_STATUS.addr p :: laneRegs p)
      { s.downLogged p with fab := (s.downLogged p).fab.afterStop p } (s.portDown p c) := by
  have hstep : RegId.LDG_STEP_STATUS.addr ∈ RegId.LDG_STEP_STATUS.addr :: RegId.ABR_PORT_STATUS.addr p :: laneRegs p :=
    List.mem_cons_self ..
  have hstatus : RegId.ABR_PORT_STATUS.addr p ∈ RegId.LDG_STEP_STATUS.addr :: RegId.ABR_PORT_STATUS.addr p :: laneRegs p :=
    List.mem_cons_of_mem _ (List.mem_cons_self ..)
  rw [portDown_eq hup]
  have h := (stopPort_confined (s.downLogged p) p).mono fun a ha => List.mem_cons_of_mem RegId.LDG_STEP_STATUS.addr ha
  exact (h.setFs (List.forall_mem_cons.mpr ⟨hstatus, List.forall_mem_singleton.mpr hstatus⟩)).tickEvent 1 hstep

/-- The fabric once a port has gone down. -/
def State.fabAfterDown (s : State) (p : Nat) : Fabric := (s.updPort p fun x => { x with detours := s.detoursOf p }).fab.afterStop p

/-- A port that goes down keeps all but its registers and the fabric. -/
theorem portDown_confined (hup : s.portUp p = true) (c : DownCause) :
    Confined (· ∈ portRegs p) { s with fab := s.fabAfterDown p } (s.portDown p c) := by
  refine ((downLogged_confined s p).withFab fun f => f.afterStop p).trans ((portDown_confined_downLogged hup c).mono fun a ha => ?_)
  simp only [List.mem_cons] at ha
  rw [mem_portRegs]
  tauto

theorem heldOf_afterStop (f : Fabric) : ({ s with fab := f.afterStop p } : State).heldOf (p / 8)
    = ((smapGet (fun _ => Port.reset) f.ports p).bulk.replay ++ (smapGet (fun _ => Port.reset) f.ports p).express.replay).map
        TxFrame.heldAgain ++ ({ s with fab := f } : State).heldOf (p / 8) := by
  by_cases hp : p / 8 = 0 <;> simp [State.heldOf, Fabric.afterStop, hp]

/-- The frames that the far end has not acknowledged are held again, ahead of the others (R306). -/
theorem heldOf_portDown (hup : s.portUp p = true) (c : DownCause) : (s.portDown p c).heldOf (p / 8)
    = ((s.port p).bulk.replay ++ (s.port p).express.replay).map TxFrame.heldAgain ++ s.heldOf (p / 8) := by
  have hfab : (s.portDown p c).fab = s.fabAfterDown p := (portDown_confined hup c).fab
  have h := heldOf_afterStop (s := s) (p := p) (s.updPort p fun x => { x with detours := s.detoursOf p }).fab
  have hport : smapGet (fun _ => Port.reset) (s.updPort p fun x => { x with detours := s.detoursOf p }).fab.ports p
      = { s.port p with detours := s.detoursOf p } := smapGet_set_self ..
  rw [hport] at h
  rw [State.heldOf, hfab]
  exact h

theorem getF_tickEvent_ne (f : Field) (n : Nat) (h : f.reg ≠ RegId.LDG_STEP_STATUS.addr) : (s.tickEvent n).getF f = s.getF f :=
  congrArg (fieldOf · _ _) (s.reg_tickEvent_ne n f.reg h)

/-- Fields of one register, by their bits: the field written. -/
theorem getF_setF_same {a lo width v : Nat} (h : lo + width ≤ 64) : (s.setF ⟨a, lo, width⟩ v).getF ⟨a, lo, width⟩ = v % 2 ^ width :=
  s.getF_setF_self ⟨a, lo, width⟩ v h

/-- Fields of one register, by their bits: a field beside the one written. -/
theorem getF_setF_beside {a lo width lo' width' v : Nat} (h : lo + width ≤ lo' ∨ lo' + width' ≤ lo) :
    (s.setF ⟨a, lo, width⟩ v).getF ⟨a, lo', width'⟩ = s.getF ⟨a, lo', width'⟩ :=
  s.getF_setF_disjoint ⟨a, lo, width⟩ ⟨a, lo', width'⟩ v rfl h

theorem setFs_cons (x : Field × Nat) (l : List (Field × Nat)) : s.setFs (x :: l) = (s.setF x.1 x.2).setFs l := rfl

theorem setFs_nil : s.setFs [] = s := rfl

/-- What ABR_PORT_STATUS shows of a port that has gone down (R316). -/
theorem portDown_status (hp : p < 16) (hup : s.portUp p = true) (c : DownCause) :
    (s.portDown p c).getF (Fld.ABR_PORT_STATUS_UP p) = 0 ∧ (s.portDown p c).getF (Fld.ABR_PORT_STATUS_DOWN p) = 1
      ∧ (s.portDown p c).getF (Fld.ABR_PORT_STATUS_CAUSE p) = downCode c := by
  have hne : RegId.ABR_PORT_STATUS.addr p ≠ RegId.LDG_STEP_STATUS.addr :=
    RegId.addr_ne .ABR_PORT_STATUS .LDG_STEP_STATUS hp Nat.one_pos Nat.one_pos Nat.one_pos (by decide)
  have hc : downCode c < 16 := by cases c <;> decide
  obtain ⟨u, hu⟩ : ∃ u : State, (s.downLogged p).stopPort p = u.setF (Fld.ABR_PORT_STATUS_UP p) 0 := ⟨_, rfl⟩
  rw [portDown_eq hup, hu, getF_tickEvent_ne _ _ hne, getF_tickEvent_ne _ _ hne, getF_tickEvent_ne _ _ hne]
  simp (disch := decide) [setFs_cons, setFs_nil, Fld.ABR_PORT_STATUS_UP, Fld.ABR_PORT_STATUS_DOWN, Fld.ABR_PORT_STATUS_CAUSE,
    getF_setF_same, getF_setF_beside, hc]

theorem fabLog_fields {u : State} (hv : u.getF Fld.ABR_FAB_ERR_VALID = 0) (c : Code) (d : DevCoord) (q : Nat) :
    (u.fabLog c d q).getF Fld.ABR_FAB_ERR_VALID = 1 ∧ (u.fabLog c d q).getF Fld.ABR_FAB_ERR_CODE = c.toNat
      ∧ (u.fabLog c d q).getF Fld.ABR_FAB_ERR_DEST_DEV = d.toNat := by
  have hc : c.toNat < 256 := c.isLt
  have hd : d.toNat < 65536 := d.isLt
  unfold State.fabLog
  rw [if_neg (by simp [hv])]
  simp (disch := decide) [setFs_cons, setFs_nil, Fld.ABR_FAB_ERR_VALID, Fld.ABR_FAB_ERR_CODE, Fld.ABR_FAB_ERR_DEST_DEV,
    Fld.ABR_FAB_ERR_PORT, getF_setF_same, getF_setF_beside, hc, hd]

/-- ABR_FAB_ERR records the first affected destination where none is recorded (R306, R315). -/
theorem portDown_fabErr (hp : p < 16) (hup : s.portUp p = true) (c : DownCause) {d : DevCoord} (hd : s.firstAffected p = some d)
    (hv : s.getF Fld.ABR_FAB_ERR_VALID = 0) :
    (s.portDown p c).getF Fld.ABR_FAB_ERR_VALID = 1 ∧ (s.portDown p c).getF Fld.ABR_FAB_ERR_CODE = cLINK_LOST.toNat
      ∧ (s.portDown p c).getF Fld.ABR_FAB_ERR_DEST_DEV = d.toNat := by
  have hout : RegId.ABR_FAB_ERR.addr ∉ RegId.LDG_STEP_STATUS.addr :: RegId.ABR_PORT_STATUS.addr p :: laneRegs p := by
    simp only [List.mem_cons, not_or]
    exact ⟨RegId.addr_ne .ABR_FAB_ERR .LDG_STEP_STATUS Nat.one_pos Nat.one_pos Nat.one_pos Nat.one_pos (by decide),
      RegId.addr_ne .ABR_FAB_ERR .ABR_PORT_STATUS Nat.one_pos Nat.one_pos hp Nat.one_pos (by decide),
      not_mem_laneRegs hp Nat.one_pos Nat.one_pos (by decide)⟩
  have hreg : (s.portDown p c).reg RegId.ABR_FAB_ERR.addr = (s.downLogged p).reg RegId.ABR_FAB_ERR.addr :=
    (portDown_confined_downLogged hup c).reg _ hout
  have hlog : s.downLogged p = (s.updPort p fun x => { x with detours := s.detoursOf p }).fabLog cLINK_LOST d p := by
    unfold State.downLogged
    rw [hd]
    rfl
  obtain ⟨h₁, h₂, h₃⟩ := fabLog_fields (u := s.updPort p fun x => { x with detours := s.detoursOf p }) hv cLINK_LOST d p
  rw [← hlog] at h₁ h₂ h₃
  exact ⟨(congrArg (fieldOf · _ _) hreg).trans h₁, (congrArg (fieldOf · _ _) hreg).trans h₂, (congrArg (fieldOf · _ _) hreg).trans h₃⟩

end

/-! #### A write of the level table (R281, R317) -/

section
variable {P : Nat → Prop} {p : Nat} {r s t : State}

theorem Confined.getF (h : Confined P s t) (f : Field) (hf : ¬ P f.reg) : t.getF f = s.getF f :=
  congrArg (fieldOf · _ _) (h.reg f.reg hf)

theorem status_mem_portRegs : RegId.ABR_PORT_STATUS.addr p ∈ portRegs p := mem_portRegs.mpr (.inl rfl)

theorem engStatus_mem_portRegs : RegId.OPT_ENG_STATUS.addr (p / 2) ∈ portRegs p :=
  mem_portRegs.mpr (.inr (.inr (.inr engStatus_mem_laneRegs)))

/-- A port held down as miswired keeps all but its registers and the fabric. -/
theorem holdMiswired_confined (s : State) (p : Nat) : ∃ f, Confined (· ∈ portRegs p) { s with fab := f } (s.holdMiswired p) := by
  unfold State.holdMiswired
  split
  · next hup => exact ⟨_, portDown_confined hup .miswired⟩
  · refine ⟨(s.updPort p fun x => { x with detours := s.detoursOf p }).fab, Confined.setFs ⟨rfl, rfl, rfl, fun _ _ => rfl⟩ ?_⟩
    exact List.forall_mem_cons.mpr ⟨status_mem_portRegs, List.forall_mem_singleton.mpr status_mem_portRegs⟩

/-- Ports held down as miswired, one after the other. -/
theorem foldl_holdMiswired_confined {f : State → Nat → State} (hf : ∀ s p, f s p = s ∨ f s p = s.holdMiswired p) (l : List Nat)
    (s : State) : ∃ fab, Confined (fun a => ∃ p ∈ l, a ∈ portRegs p) { s with fab := fab } (l.foldl f s) := by
  induction l generalizing s with
  | nil => exact ⟨s.fab, .refl⟩
  | cons p l ih =>
    obtain ⟨fab, h⟩ := ih (f s p)
    have hl : Confined (fun a => ∃ q ∈ p :: l, a ∈ portRegs q) { f s p with fab := fab } ((p :: l).foldl f s) :=
      h.mono fun a ⟨q, hq, ha⟩ => ⟨q, List.mem_cons_of_mem p hq, ha⟩
    rcases hf s p with e | e
    · rw [e] at hl
      exact ⟨fab, hl⟩
    · obtain ⟨fab', h'⟩ := holdMiswired_confined s p
      rw [e] at hl
      exact ⟨fab, ((h'.withFab fun _ => fab).mono fun a ha => ⟨p, List.mem_cons_self .., ha⟩).trans hl⟩

/-- A port whose far end is wrong by the level table is held down. -/
def State.recheckPort (l : Nat) (s : State) (p : Nat) : State :=
  let peer : DevCoord := BitVec.ofNat 16 (s.getF (Fld.ABR_PORT_STATUS_PEER_DEV p))
  if s.portUp p && s.levelOf p == l && s.miswired p peer (s.getF (Fld.ABR_PORT_STATUS_PEER_PORT p)) then s.holdMiswired p else s

/-- A write of the level table in READY, with another slot than this device's own as RELAY: the entry is written, and the ports that it
gives a wrong far end are held down. -/
theorem writeLevel_accepted {l k : Nat} {v : Word} (hs : s.devState = stREADY) (hv : fieldOf v 32 3 ≠ levelField 0 s.devCoord) :
    writeLevel l k v s = ((List.range 16).foldl (State.recheckPort l) (s.plainWrite .ABR_LEVEL l k v), cDONE) := by
  have hrelay : ((Fld.ABR_LEVEL_RELAY l k).of v != levelField 0 s.devCoord) = true := bne_iff_ne.mpr hv
  have hw : s.limitedWrite .ABR_LEVEL l k v [(Fld.ABR_LEVEL_RELAY l k, (Fld.ABR_LEVEL_RELAY l k).of v != levelField 0 s.devCoord)]
      = (s.plainWrite .ABR_LEVEL l k v, cDONE) := by
    simp [State.limitedWrite, limitFields, hrelay]
  unfold writeLevel State.guarded
  rw [if_pos (by simp [hs])]
  dsimp only
  rw [hw]
  rfl

theorem writeLevel_kept {l k : Nat} {v : Word} (hl : l < 4) (hk : k < 64) (hs : s.devState = stREADY)
    (hv : fieldOf v 32 3 ≠ levelField 0 s.devCoord) :
    (writeLevel l k v s).1.reg (RegId.ABR_LEVEL.addr l k) = RegId.ABR_LEVEL.written (s.reg (RegId.ABR_LEVEL.addr l k)) v
      ∧ (writeLevel l k v s).1.mem = s.mem ∧ (writeLevel l k v s).1.bays = s.bays := by
  rw [writeLevel_accepted hs hv]
  obtain ⟨fab, h⟩ := foldl_holdMiswired_confined (f := State.recheckPort l) (fun s p => (ite_eq_or_eq _ _ _).symm) (List.range 16)
    (s.plainWrite .ABR_LEVEL l k v)
  refine ⟨(h.reg _ ?_).trans (State.reg_setReg_self ..), h.mem, h.bays⟩
  rintro ⟨p, hp, ha⟩
  exact not_mem_portRegs (List.mem_range.mp hp) hl hk (by decide) ha

/-- Out of READY a write that would change the entry is refused (R317). -/
theorem writeLevel_refused {l k : Nat} {v : Word} (hs : s.devState ≠ stREADY) (hc : s.regChanges .ABR_LEVEL l k v = true) :
    writeLevel l k v s = (s, cSTATE_REJECT) := by
  unfold writeLevel State.guarded
  rw [if_neg (by simp [hs, hc])]

/-- The hole of the level table holds no register (R12, R313). -/
theorem regLocate_levelHole {l k : Nat} (hl : l < 4) (hk : k < 64) (h : levelHole l k = true) :
    regLocate (RegId.ABR_LEVEL.addr l k) = none := by
  unfold regLocate
  rw [regKinds_addr .ABR_LEVEL hl hk]
  simp [Option.filter, h]

/-! #### A port comes up (R281, R292) -/

theorem levelOf_lt (s : State) (p : Nat) : s.levelOf p < 4 := by
  unfold State.levelOf portLevel
  repeat' split
  all_goals decide

theorem levelOf_confined (h : Confined P s t) (hP : ¬ P RegId.ABR_CTRL.addr) (p : Nat) : t.levelOf p = s.levelOf p :=
  congrArg (portLevel · p) (h.getF Fld.ABR_CTRL_PROF hP)

/-- Whether a port's far end is wrong does not rest on the port's own registers. -/
theorem miswired_confined (hp : p < 16) (h : Confined (· ∈ portRegs p) s t) (hpow : t.power = s.power) (d : DevCoord) (q : Nat) :
    t.miswired p d q = s.miswired p d q := by
  have hlvl : t.levelOf p = s.levelOf p := levelOf_confined h (not_mem_portRegs hp Nat.one_pos Nat.one_pos (by decide)) p
  have hbench : t.getF Fld.MSC_STATE_BENCH = s.getF Fld.MSC_STATE_BENCH :=
    h.getF _ (not_mem_portRegs hp (q := .MSC_STATE) Nat.one_pos Nat.one_pos (by decide))
  have hcause : t.getF Fld.MSC_STRAP_CAUSE = s.getF Fld.MSC_STRAP_CAUSE :=
    h.getF _ (not_mem_portRegs hp (q := .MSC_STRAP) Nat.one_pos Nat.one_pos (by decide))
  have hdev : t.getF Fld.MSC_STRAP_DEV = s.getF Fld.MSC_STRAP_DEV :=
    h.getF _ (not_mem_portRegs hp (q := .MSC_STRAP) Nat.one_pos Nat.one_pos (by decide))
  have hcoord : t.devCoord = s.devCoord := by simp only [State.devCoord, hpow, hbench, hcause, hdev]
  have hentry (v : Nat) (hv : v ∈ List.range 64) : RegId.ABR_LEVEL.addr (s.levelOf p) v ∉ portRegs p :=
    not_mem_portRegs hp (levelOf_lt s p) (List.mem_range.mp hv) (by decide)
  have hany (f : Nat → State → Bool) (hf : ∀ v ∈ List.range 64, f v t = f v s) :
      ((List.range 64).any fun v => f v t) = (List.range 64).any fun v => f v s := by
    rw [Bool.eq_iff_iff, List.any_eq_true, List.any_eq_true]
    exact exists_congr fun v => and_congr_right fun hv => by rw [hf v hv]
  unfold State.miswired
  rw [hlvl, hbench, hcoord, hpow]
  refine congrArg (ite _ _) (congrArg (ite _ _) (hany (fun v u => decide (v < 2 ^ (s.levelOf p + if s.levelOf p = 3 then 3 else 2))
    && u.getF (Fld.ABR_LEVEL_VALID (s.levelOf p) v) == 1 && (u.getF (Fld.ABR_LEVEL_PORTMASK (s.levelOf p) v)).testBit p
    && levelField (s.levelOf p) d != v) fun v hv => ?_))
  rw [h.getF (Fld.ABR_LEVEL_VALID (s.levelOf p) v) (hentry v hv), h.getF (Fld.ABR_LEVEL_PORTMASK (s.levelOf p) v) (hentry v hv)]

/-! What a completed circuit change ends: its command (R349). -/

/-- The registers that the end of a circuit change may write. -/
def circuitRegs : List Nat := RegId.OPT_CIRCUIT.addr :: (List.range 16).map fun q => RegId.MSC_SQ_CFG.addr q

theorem not_mem_circuitRegs {q : RegId} {i j : Nat} (hi : i < q.spec.n1) (hj : j < q.spec.n2) (h₁ : q ≠ .OPT_CIRCUIT)
    (h₂ : q ≠ .MSC_SQ_CFG) : q.addr i j ∉ circuitRegs := by
  rw [circuitRegs, List.mem_cons, List.mem_map]
  rintro (h | ⟨k, hk, h⟩)
  · exact RegId.addr_ne q .OPT_CIRCUIT hi hj Nat.one_pos Nat.one_pos h₁ h
  · exact RegId.addr_ne q .MSC_SQ_CFG hi hj (List.mem_range.mp hk) Nat.one_pos h₂ h.symm

theorem Confined.ringOff (h : Confined (· ∈ circuitRegs) r s) (q : Nat) : Confined (· ∈ circuitRegs) r (s.ringOff q) := by
  unfold State.ringOff
  split
  · next hq => exact h.setF 0 (List.mem_cons_of_mem _ (List.mem_map_of_mem (List.mem_range.mpr hq.1)))
  · exact h

theorem Confined.post (h : Confined P r s) (x : Record) : Confined P r (s.post x) := .ite h h.frame

theorem Confined.finishCmd (h : Confined (· ∈ circuitRegs) r s) (k : Nat) (c : Code) : Confined (· ∈ circuitRegs) r (s.finishCmd k c) := by
  unfold State.finishCmd
  split
  · exact h
  · exact .ringOff (.ite h.frame (.post h.frame _)) _

theorem Confined.circuitUp (h : Confined (· ∈ circuitRegs) r s) (p : Nat) : Confined (· ∈ circuitRegs) r (s.circuitUp p) := by
  have hreg : RegId.OPT_CIRCUIT.addr ∈ circuitRegs := List.mem_cons_self ..
  unfold State.circuitUp
  refine .ite h ?_
  extract_lets up s₁ s₂
  have h₁ : Confined (· ∈ circuitRegs) r s₁ := h.setF up hreg
  have h₂ : Confined (· ∈ circuitRegs) r s₂ :=
    (h₁.setFs (List.forall_mem_cons.mpr ⟨hreg, List.forall_mem_singleton.mpr hreg⟩)).updOpt _
  refine .ite ?_ h₁
  cases s₂.running 0x33 with
  | none => exact h₂
  | some c => exact h₂.finishCmd _ _

end

section
variable {p rtt : Nat} {s : State} {d : DevCoord} {q : BitVec 4}

/-- The flag of a port's round trip that is too long. -/
def tooLong (p : Nat) : Field := if p % 2 = 0 then Fld.OPT_ENG_STATUS_TOO_LONG0 (p / 2) else Fld.OPT_ENG_STATUS_TOO_LONG1 (p / 2)

theorem tooLong_reg (p : Nat) : (tooLong p).reg = RegId.OPT_ENG_STATUS.addr (p / 2) := by
  unfold tooLong
  split <;> rfl

/-- A port that has trained and may come up. -/
structure State.Trained (s : State) (p : Nat) : Prop where
  enabled : s.getF Fld.ABR_CTRL_FAB_EN = 1
  notUp : s.portUp p = false
  notDown : s.getF (Fld.ABR_PORT_STATUS_DOWN p) = 0
  onRung : s.onRung p = true
  express : s.getF (Fld.OPT_ENG_STATUS_EXP_LOST (p / 2)) = 0

/-- The far end that a port found is shown. -/
def State.showPeer (s : State) (p : Nat) (d : DevCoord) (q : Nat) : State :=
  s.setFs [(tooLong p, 0), (Fld.ABR_PORT_STATUS_PEER_DEV p, d.toNat), (Fld.ABR_PORT_STATUS_PEER_PORT p, q)]

/-- A port shown as up, its wavelengths in service. -/
def State.showUp (s : State) (p : Nat) : State :=
  (List.range 16).foldl (fun s w => if s.laneState p w = 1 ∧ s.getF (Fld.OPT_LANE_RUNG p w) ≠ 0 then s.setLane p w 2 else s)
    (s.setFs [(Fld.ABR_PORT_STATUS_UP p, 1), (Fld.ABR_PORT_STATUS_CAUSE p, 0)])

theorem showPeer_confined (s : State) (p : Nat) (d : DevCoord) (q : Nat) : Confined (· ∈ portRegs p) s (s.showPeer p d q) := by
  refine Confined.refl.setFs (List.forall_mem_cons.mpr ⟨?_, List.forall_mem_cons.mpr ⟨status_mem_portRegs,
    List.forall_mem_singleton.mpr status_mem_portRegs⟩⟩)
  rw [tooLong_reg]
  exact engStatus_mem_portRegs

/-- Of what a port shows, its lanes change nothing. -/
theorem showUp_confined (s : State) (p : Nat) :
    Confined (· ∈ laneRegs p) (s.setFs [(Fld.ABR_PORT_STATUS_UP p, 1), (Fld.ABR_PORT_STATUS_CAUSE p, 0)]) (s.showUp p) :=
  Confined.refl.foldl fun _ _ hw h => .ite (h.setLane (List.mem_range.mp hw) 2) h

theorem showPeer_showUp_confined (s : State) (p : Nat) (d : DevCoord) (q : Nat) :
    Confined (· ∈ portRegs p) s ((s.showPeer p d q).showUp p) :=
  ((showPeer_confined s p d q).setFs (List.forall_mem_cons.mpr ⟨status_mem_portRegs, List.forall_mem_singleton.mpr
    status_mem_portRegs⟩)).trans ((showUp_confined _ p).mono fun _ ha => mem_portRegs.mpr (.inr (.inr (.inr ha))))

theorem Trained.opens (h : s.Trained p) : ¬ ((s.getF Fld.ABR_CTRL_FAB_EN = 0 ∧ !s.power.benching) ∨ s.portUp p
    ∨ s.getF (Fld.ABR_PORT_STATUS_DOWN p) = 1 ∨ !s.onRung p ∨ s.getF (Fld.OPT_ENG_STATUS_EXP_LOST (p / 2)) = 1) := by
  simp [h.enabled, h.notUp, h.notDown, h.onRung, h.express]

/-- A round trip above the limit is flagged, and the port stays as it is (R292). -/
theorem opPortUp_tooLong (h : s.Trained p) (hr : 5900 < rtt) : opPortUp p d q.toNat rtt s = s.setF (tooLong p) 1 := by
  unfold opPortUp
  dsimp only
  rw [if_neg (Trained.opens h), if_pos hr]
  rfl

/-- A port that finds the right far end comes up (R281, R292). -/
theorem opPortUp_up (hp : p < 16) (h : s.Trained p) (hr : rtt ≤ 5900) (hm : s.miswired p d q.toNat = false) :
    opPortUp p d q.toNat rtt s
      = (((s.showPeer p d q.toNat).showUp p).setPort p { Port.reset with wasUp := true, rtt := rtt }).circuitUp p := by
  have hm' : (s.showPeer p d q.toNat).miswired p d q.toNat = false :=
    (miswired_confined hp (showPeer_confined s p d q.toNat) (s.setFs_power _) d q.toNat).trans hm
  unfold opPortUp
  dsimp only
  rw [if_neg (Trained.opens h), if_neg (by omega)]
  change (if (s.showPeer p d q.toNat).miswired p d q.toNat = true then _ else _) = _
  rw [if_neg (by simp [hm'])]
  rfl

/-- What a port shows that came up. -/
theorem showUp_fields (hp : p < 16) :
    ((s.showPeer p d q.toNat).showUp p).getF (Fld.ABR_PORT_STATUS_UP p) = 1
      ∧ ((s.showPeer p d q.toNat).showUp p).getF (Fld.ABR_PORT_STATUS_PEER_DEV p) = d.toNat
      ∧ ((s.showPeer p d q.toNat).showUp p).getF (Fld.ABR_PORT_STATUS_PEER_PORT p) = q.toNat
      ∧ ((s.showPeer p d q.toNat).showUp p).getF (Fld.ABR_PORT_STATUS_CAUSE p) = 0 := by
  have hd : d.toNat < 65536 := d.isLt
  have hq : q.toNat < 16 := q.isLt
  have hne : RegId.ABR_PORT_STATUS.addr p ∉ laneRegs p := not_mem_laneRegs hp hp Nat.one_pos (by decide)
  have h := showUp_confined (s.showPeer p d q.toNat) p
  rw [h.getF (Fld.ABR_PORT_STATUS_UP p) hne, h.getF (Fld.ABR_PORT_STATUS_PEER_DEV p) hne,
    h.getF (Fld.ABR_PORT_STATUS_PEER_PORT p) hne, h.getF (Fld.ABR_PORT_STATUS_CAUSE p) hne]
  simp (disch := decide) [State.showPeer, setFs_cons, setFs_nil, Fld.ABR_PORT_STATUS_UP, Fld.ABR_PORT_STATUS_PEER_DEV,
    Fld.ABR_PORT_STATUS_PEER_PORT, Fld.ABR_PORT_STATUS_CAUSE, getF_setF_same, getF_setF_beside, hd, hq]

/-- Coming up ends at most a circuit change: what the port shows, its state and the memories stay. -/
theorem portUp_shows {t u : State} (hp : p < 16) (ht : Confined (· ∈ portRegs p) s t) {x : Port} (hu : u = (t.setPort p x).circuitUp p) :
    (∀ f : Field, f.reg = RegId.ABR_PORT_STATUS.addr p → u.getF f = t.getF f) ∧ u.levelOf p = s.levelOf p ∧ u.port p = x
      ∧ u.mem = s.mem ∧ u.bays = s.bays := by
  have hc : Confined (· ∈ circuitRegs) (t.setPort p x) u := hu ▸ Confined.refl.circuitUp p
  have hctrl : u.levelOf p = t.levelOf p :=
    levelOf_confined (s := t.setPort p x) hc (not_mem_circuitRegs Nat.one_pos Nat.one_pos (by decide) (by decide)) p
  refine ⟨fun f hf => ?_, hctrl.trans (levelOf_confined ht (not_mem_portRegs hp Nat.one_pos Nat.one_pos (by decide)) p), ?_,
    hc.mem.trans ht.mem, hc.bays.trans ht.bays⟩
  · refine hc.getF f ?_
    rw [hf]
    exact not_mem_circuitRegs hp Nat.one_pos (by decide) (by decide)
  · rw [State.port, hc.fab]
    exact smapGet_set_self ..

/-- LEVEL shows the port's level (R280). -/
theorem level_regView (s : State) (p : Nat) :
    (Fld.ABR_PORT_STATUS_LEVEL p).of (s.regView .ABR_PORT_STATUS p 0) = s.levelOf p :=
  (fieldOf_putField _ 60 2 _ (by decide)).trans (Nat.mod_eq_of_lt (levelOf_lt s p))

/-- The commands that take a port down, with the causes they show. -/
theorem exec_portDown {p : Fin 16} (hup : s.portUp p = true) {x : Instr × Nat}
    (hx : x ∈ [(Instr.portDown p .lossOfSignal, 1), (.portDown p .replayLimit, 2), (.portDown p .silence, 3), (.portDown p .miswired, 4),
      (.portSilenceTimeout p, 3), (.lossOfSignal p, 1)]) :
    ∃ c, exec x.1 s = .next (s.portDown p c) ∧ x.2 = downCode c := by
  have hloss : opLossOfSignal p s = s.portDown p .lossOfSignal := if_pos hup
  simp only [List.mem_cons, List.not_mem_nil, or_false] at hx
  obtain rfl | rfl | rfl | rfl | rfl | rfl := hx
  · exact ⟨.lossOfSignal, rfl, rfl⟩
  · exact ⟨.replayLimit, rfl, rfl⟩
  · exact ⟨.silence, rfl, rfl⟩
  · exact ⟨.miswired, rfl, rfl⟩
  · exact ⟨.silence, rfl, rfl⟩
  · exact ⟨.lossOfSignal, congrArg Host.Outcome.next hloss, rfl⟩

end

end Sys2Proof.Machine

namespace Sys2Proof
open Machine

/-- Settles O40: a port comes up by `opPortUp_up`, goes down by the facts of `State.portDown`, and the level table is written by
`writeLevel`. -/
theorem portsUpAndDown : Obligations.PortsUpAndDown := by
  unfold Obligations.PortsUpAndDown
  refine ⟨fun p d q rtt s h₁ h₂ h₃ h₄ h₅ => ⟨fun hr hm => ?_, fun hr => ?_⟩, fun p s hup x hx => ?_, fun p l k v s h hs hv => ?_,
    fun p l k v s hp h hs hc => ?_, fun p l k v s hp hh hc => ?_⟩
  · have hup := opPortUp_up p.isLt ⟨h₁, h₂, h₃, h₄, h₅⟩ hr hm
    have ht : Confined (· ∈ portRegs p) s ((s.showPeer p d q.toNat).showUp p) := showPeer_showUp_confined s p d q.toNat
    obtain ⟨hUP, hDEV, hPORT, hCAUSE⟩ := showUp_fields (s := s) (d := d) (q := q) p.isLt
    obtain ⟨hfield, hlevel, hport, hmem, hbays⟩ := portUp_shows p.isLt ht (x := { Port.reset with wasUp := true, rtt := rtt }) rfl
    exact ⟨_, congrArg Host.Outcome.next hup, (hfield _ rfl).trans hUP, (hfield _ rfl).trans hDEV, (hfield _ rfl).trans hPORT,
      (level_regView _ _).trans hlevel, (hfield _ rfl).trans hCAUSE, by rw [hport], hmem, hbays⟩
  · exact congrArg Host.Outcome.next (opPortUp_tooLong ⟨h₁, h₂, h₃, h₄, h₅⟩ hr)
  · obtain ⟨c, hexec, hcode⟩ := exec_portDown hup hx
    obtain ⟨hUP, hDOWN, hCAUSE⟩ := portDown_status p.isLt hup c
    have hkept := portDown_confined hup c
    exact ⟨_, hexec, hUP, hDOWN, hCAUSE.trans hcode.symm, heldOf_portDown hup c, hkept.mem, hkept.bays,
      fun d hd hv => portDown_fabErr p.isLt hup c hd hv, hkept.reg⟩
  · have hl : l.val + 1 < 4 := by omega
    obtain ⟨hreg, hmem, hbays⟩ := writeLevel_kept hl k.isLt hs hv
    refine ⟨_, congrArg Host.Outcome.next (State.write64_done h hl k.isLt ?_), rfl, hreg, hmem, hbays⟩
    exact congrArg Prod.snd (writeLevel_accepted hs hv)
  · have hl : l.val + 1 < 4 := by omega
    have hw : writeBy .ABR_LEVEL (l.val + 1) k.val v s = (s, cSTATE_REJECT) := writeLevel_refused hs hc
    refine congrArg Host.Outcome.next ((State.write64_of_reaches h hl k.isLt).trans ?_)
    rw [if_neg fun h => hp h.1, hw]
  · have hl : l.val + 1 < 4 := by omega
    obtain ⟨hlo, hhi, hdiv⟩ := RegId.ABR_LEVEL.addr_inside hl k.isLt
    have hw := State.writeReg_hole (v := v) (by simp [regAligned, hdiv]) hlo hhi (regLocate_levelHole hl k.isLt hh) hc
    refine congrArg Host.Outcome.next ((State.regWriteBy_of_ne_bar0 hp _ 8).trans ?_)
    rw [hw]

end Sys2Proof
end

section

/-! ### Requests to HBM (R246, R251, R257) -/

set_option Elab.async false

namespace Sys2Proof.Machine

/-- A pseudo-channel number beyond the 256 of the device: in the addressing of HBM_PC_FAILED by 64 bits a register, its bit is bit 63 of
LDG_STEP_STATUS, VALID. -/
def strayPc : Nat := (RegId.LDG_STEP_STATUS.addr - RegId.HBM_PC_FAILED.addr) / 8 * 64 + 63

/-- The device after reset with one live band, uncached, whose slice table (R261) names that pseudo-channel as the home of the band's
first slice. Unit 0 is beyond correction, and 16 errors of the last second stand against the pseudo-channel, so that one more fails it
(R257). -/
def straySlice : State :=
  { State.reset.setFs [(Fld.HBM_CAP_LIVE_BANDS, 1), (Fld.HBM_BAND_CACHE 0, 0)] with
    hbmBad := [0]
    hbm := { State.reset.hbm with slices := [⟨0, 0, strayPc, 0⟩], recent := List.replicate 16 (strayPc, 0) } }

/-- The state is one that the statement speaks of. -/
theorem straySlice_served : regionOf 0 = .hbm ∧ straySlice.bandLive (bandOf 0) = true ∧ straySlice.cachedAt 0 = false
    ∧ straySlice.hbm.selfRefresh = [] ∧ straySlice.hbm.open_ = [] ∧ Safety.handedOver straySlice ∧ straySlice.hbm.retrains = []
    ∧ 0 / 32 ∈ straySlice.hbmBad ∧ straySlice.getF Fld.HBM_CAP_FOLDS < 16 := by
  unfold Safety.handedOver
  decide +kernel

/-- VALID as a command leaves it. -/
def validAfter (i : Instr) (s : State) : Nat :=
  match exec i s with
  | .next t => t.getF Fld.LDG_STEP_STATUS_VALID
  | _ => 0

theorem validAfter_of_next {i : Instr} {s t : State} (h : exec i s = .next t) : validAfter i s = t.getF Fld.LDG_STEP_STATUS_VALID := by
  rw [validAfter, h]

/-- The read breaks the step's Bits validity, and then the failure of the pseudo-channel sets VALID again. -/
theorem validAfter_straySlice : validAfter (.hbmRequest .hostDma 0 (.read 8) []) straySlice = 1 := by decide +kernel

end Sys2Proof.Machine

namespace Sys2Proof
open Machine

/-- Refutes O41: the statement is about every state, and the pseudo-channel that the slice table gives is any number. Where it is
`strayPc`, the failure that the seventeenth error brings is written into LDG_STEP_STATUS, so the read of the uncorrectable unit does not
leave VALID 0. -/
theorem not_memoryRequestsAreServed : ¬ Obligations.MemoryRequestsAreServed := by
  unfold Obligations.MemoryRequestsAreServed
  intro h
  obtain ⟨hr, hl, hc, hsr, ho, hs, hret, hbad, hfolds⟩ := straySlice_served
  obtain ⟨hserved, -⟩ := h straySlice 0 8 (by decide) (by decide) hr hl hc hsr ho hs
  obtain ⟨-, hue⟩ := hserved hret (.hostDma, 1) (List.mem_cons_self ..)
  obtain ⟨t, hexec, -, -, -, hvalid, -⟩ := hue hbad hfolds
  have hone := validAfter_straySlice
  rw [validAfter_of_next hexec, hvalid] at hone
  exact absurd hone (by decide)

end Sys2Proof
end

section

/-! ### Issue on the fetched state, and the bay's copy of the scribe count (R31, R32, R49) -/

set_option Elab.async false

namespace Sys2Proof.Machine

section
variable {s : State} {b : BayId} {t : Thread}

@[simp] theorem ThreadRec.setG_pc (r : ThreadRec) (i : BitVec 5) (v : Word) : (r.setG i v).pc = r.pc := by
  unfold ThreadRec.setG
  split <;> rfl

@[simp] theorem ThreadRec.setG_status (r : ThreadRec) (i : BitVec 5) (v : Word) : (r.setG i v).status = r.status := by
  unfold ThreadRec.setG
  split <;> rfl

/-- An update of a thread depends on what it makes of the thread as it is. -/
theorem updThr_congr {f g : ThreadRec → ThreadRec} (h : f (s.thr b t) = g (s.thr b t)) : s.updThr b t f = s.updThr b t g :=
  congrArg (fun r => s.setBay b ((s.bay b).setThr t r)) h

/-- A fetch changes registers, bays and the list of single-bit errors only. -/
theorem fetched_only (s : State) (b : BayId) (t : Thread) : Safety.fetched s b t = { s with
    regs := (Safety.fetched s b t).regs, bays := (Safety.fetched s b t).bays, ecc1 := (Safety.fetched s b t).ecc1 } := by
  obtain h | ⟨bad, h⟩ := fetched_cases s b t
  · rw [h]
  · rw [h, State.eccRead_only]
    rfl

@[simp] theorem fetched_fresh (s : State) (b : BayId) (t : Thread) : (Safety.fetched s b t).fresh = s.fresh := by rw [fetched_only]
@[simp] theorem fetched_scr (s : State) (b : BayId) (t : Thread) : (Safety.fetched s b t).scr = s.scr := by rw [fetched_only]
@[simp] theorem fetched_tpc (s : State) (b : BayId) (t : Thread) : (Safety.fetched s b t).tpc = s.tpc := by rw [fetched_only]

/-- Of the thread a fetch changes the line buffer alone (R49). -/
theorem fetched_thr (s : State) (b : BayId) (t : Thread) :
    (Safety.fetched s b t).thr b t = { s.thr b t with line := ((Safety.fetched s b t).thr b t).line } := by
  obtain h | ⟨bad, h⟩ := fetched_cases s b t <;> rw [h]
  rw [State.thr_updThr_self, State.eccRead_thr]

@[simp] theorem fetched_pc (s : State) (b : BayId) (t : Thread) : ((Safety.fetched s b t).thr b t).pc = (s.thr b t).pc := by
  rw [fetched_thr]
@[simp] theorem fetched_status (s : State) (b : BayId) (t : Thread) : ((Safety.fetched s b t).thr b t).status = (s.thr b t).status := by
  rw [fetched_thr]

theorem fetched_keepsBays (s : State) (b : BayId) (t : Thread) : Safety.keepsBays s (Safety.fetched s b t) b := by
  intro c hc
  obtain h | ⟨bad, h⟩ := fetched_cases s b t <;> rw [h]
  rw [State.bay_updThr_ne _ _ _ _ _ hc, State.eccRead_bay]

theorem fetched_getF (s : State) (b : BayId) (t : Thread) (f : Field) (h : f.reg ∉ Safety.issueRegs b) :
    (Safety.fetched s b t).getF f = s.getF f :=
  congrArg (fieldOf · _ _) (fetched_reg s b t f.reg h)

@[simp] theorem fetched_now (s : State) (b : BayId) (t : Thread) : (Safety.fetched s b t).now = s.now :=
  fetched_getF s b t _ (not_mem_issueRegs b .SCR_COUNT Nat.one_pos Nat.one_pos (by decide) (by decide))

@[simp] theorem fetched_bayLagMax (s : State) (b : BayId) (t : Thread) (c : BayId) :
    (Safety.fetched s b t).bayLagMax c = s.bayLagMax c := by
  have hclock : (Safety.fetched s b t).getF Fld.TPC_CLOCK_DIE = s.getF Fld.TPC_CLOCK_DIE :=
    fetched_getF s b t _ (not_mem_issueRegs b .TPC_CLOCK Nat.one_pos Nat.one_pos (by decide) (by decide))
  simp only [State.bayLagMax, State.reached, hclock, fetched_tpc]

/-- A ready instruction that may not lie at the last offset, and does not, runs its effect on the fetched state (R181). -/
theorem run_endCheck {i : BayInstr} (h : Safety.ready s b t i) (hl : Safety.notLast s b t) (eff : State → State) :
    (issueGate s b t i (endCheck (s.thr b t).pc)).run s eff = eff (Safety.fetched s b t) :=
  run_of_ready h rfl (decide_eq_false hl) eff

/-- A g register written, and the next offset (R184). -/
theorem putG_fetched (i : BitVec 5) (v : Word) : (Safety.fetched s b t).putG b t i v
    = (Safety.fetched s b t).updThr b t fun r => { r.setG i v with pc := (s.thr b t).pc + 8 } :=
  updThr_congr (by simp [ThreadRec.advance])

/-- A read of the bay's copy of the count draws once and changes that copy alone. -/
theorem scribeCopy_state (s : State) (b : BayId) : (s.scribeCopy b).1 = { s with
    fresh := s.fresh + 1, scr := { s.scr with copies := ((s.scribeCopy b).1).scr.copies } } := rfl

theorem now_lt (s : State) : s.now < 2 ^ 64 := fieldOf_lt ..

/-- The copy is the value kept, behind the count by a lag within its bound, and behind the copy before it only where the count is. -/
theorem scribeCopy_bounds (s : State) (b : BayId) :
    (s.scribeCopy b).2.toNat ≤ s.now ∧ s.now ≤ (s.scribeCopy b).2.toNat + s.bayLagMax b
      ∧ smapGet (fun _ => 0) ((s.scribeCopy b).1).scr.copies b.toNat = (s.scribeCopy b).2.toNat
      ∧ min s.now (smapGet (fun _ => 0) s.scr.copies b.toNat) ≤ (s.scribeCopy b).2.toNat := by
  have hnow := now_lt s
  have hlag : s.draw.2 % (s.bayLagMax b + 1) < s.bayLagMax b + 1 := Nat.mod_lt _ (Nat.succ_pos _)
  have hcopies : smapGet (fun _ => 0) ((s.scribeCopy b).1).scr.copies b.toNat
      = min s.now (max (smapGet (fun _ => 0) s.scr.copies b.toNat) (s.now - s.draw.2 % (s.bayLagMax b + 1))) := smapGet_set_self ..
  have hval : (s.scribeCopy b).2.toNat
      = min s.now (max (smapGet (fun _ => 0) s.scr.copies b.toNat) (s.now - s.draw.2 % (s.bayLagMax b + 1))) :=
    Nat.mod_eq_of_lt (lt_of_le_of_lt (Nat.min_le_left ..) hnow)
  rw [hcopies, hval]
  omega

end

end Sys2Proof.Machine
end

section

/-! ### Immediate arithmetic, SETVL and RDSYS (R148, R184, R186) -/

set_option Elab.async false

namespace Sys2Proof.Machine

section
variable {s : State} {b : BayId} {t : Thread} {f : SFields}

theorem AluOp.eval_slt (x y : Word) : AluOp.slt.eval x y = if x.slt y then 1 else 0 := by simp [AluOp.eval, BitVec.slt]
theorem AluOp.eval_sltu (x y : Word) : AluOp.sltu.eval x y = if x.ult y then 1 else 0 := by simp [AluOp.eval, BitVec.ult]
theorem AluOp.eval_min (x y : Word) : AluOp.min.eval x y = if x.slt y then x else y := by simp [AluOp.eval, BitVec.slt]
theorem AluOp.eval_max (x y : Word) : AluOp.max.eval x y = if x.slt y then y else x := by simp [AluOp.eval, BitVec.slt]
theorem AluOp.eval_minu (x y : Word) : AluOp.minu.eval x y = if x.ult y then x else y := by simp [AluOp.eval, BitVec.ult]
theorem AluOp.eval_maxu (x y : Word) : AluOp.maxu.eval x y = if x.ult y then y else x := by simp [AluOp.eval, BitVec.ult]

/-- The low half of a sign-extended immediate is the immediate. -/
theorem extractLsb_signExtend (i : BitVec 32) : (i.signExtend 64).extractLsb' 0 32 = i := by
  ext k hk
  simp [← BitVec.getLsbD_eq_getElem, BitVec.getLsbD_signExtend, hk, show k < 64 by omega]

/-- A ready scalar instruction writes its value to GD. -/
theorem opScalar_of_ready {c : SCode} {val : ThreadRec → Word} {v : Word} (h : Safety.ready s b t (.s c f)) (hl : Safety.notLast s b t)
    (hv : val (s.thr b t) = v) : Host.Outcome.next (opScalar c val b t f s) = (.next ((Safety.fetched s b t).updThr b t fun r =>
      { r.setG f.gd v with pc := (s.thr b t).pc + 8 }) : Res) := by
  rw [← hv]
  exact congrArg _ ((run_endCheck h hl _).trans (putG_fetched _ _))

/-- SETVL (R148): the widths that its immediate names. -/
theorem opSetvl_of_ready {w : Nat} (h : Safety.ready s b t (.s .setvl f)) (hl : Safety.notLast s b t)
    (hw : widthOf (f.imm.toNat % 4) = w) : opSetvl b t f s = (Safety.fetched s b t).updThr b t fun r =>
      { r.setG f.gd (BitVec.ofNat 64 (min (2048 / w) ((s.thr b t).getG f.ga).toNat)) with
        pc := (s.thr b t).pc + 8
        vl := BitVec.ofNat 9 (min (2048 / w) ((s.thr b t).getG f.ga).toNat) } := by
  rw [← hw]
  exact (run_endCheck h hl _).trans (updThr_congr (by simp [ThreadRec.advance]))

theorem widthOf_imm {i : BitVec 32} {w : Nat} (h : (i, w) ∈ [((0 : BitVec 32), 8), (1, 16), (2, 32), (3, 64)]) :
    widthOf (i.toNat % 4) = w := by
  simp only [List.mem_cons, Prod.mk.injEq, List.not_mem_nil, or_false] at h
  obtain ⟨rfl, rfl⟩ | ⟨rfl, rfl⟩ | ⟨rfl, rfl⟩ | ⟨rfl, rfl⟩ := h <;> rfl

/-- What RDSYS writes to GD but for the count (R186). -/
def rdsysValue (s : State) (b : BayId) (t : Thread) (i : BitVec 32) : Word :=
  if i = 0 then b.setWidth 64
  else if i = 1 then if t = .seam then 1 else 0
  else if i = 2 then s.devCoord.setWidth 64
  else (s.thr b t).vl.setWidth 64

/-- RDSYS of the count writes the copy of the bay's domain. -/
theorem opRdsys_count (h : Safety.ready s b t (.s .rdsys f)) (hl : Safety.notLast s b t) (hi : f.imm = 3) :
    opRdsys b t f s = ({ Safety.fetched s b t with
      fresh := s.fresh + 1, scr := ((Safety.fetched s b t).scribeCopy b).1.scr } : State).updThr b t fun r =>
        { r.setG f.gd ((Safety.fetched s b t).scribeCopy b).2 with pc := (s.thr b t).pc + 8 } := by
  refine (run_endCheck h hl _).trans ?_
  rw [hi, ← fetched_fresh s b t, ← fetched_pc s b t]
  exact updThr_congr (by rw [ThreadRec.advance, ThreadRec.setG_pc]; rfl)

/-- Any other RDSYS writes a value and nothing else. -/
theorem opRdsys_other (h : Safety.ready s b t (.s .rdsys f)) (hl : Safety.notLast s b t) (hi : f.imm ≠ 3) :
    opRdsys b t f s = (Safety.fetched s b t).updThr b t fun r =>
      { r.setG f.gd (rdsysValue s b t f.imm) with pc := (s.thr b t).pc + 8 } := by
  refine (run_endCheck h hl _).trans (Eq.trans ?_ (putG_fetched f.gd _))
  split
  · next e => rw [BitVec.eq_of_toNat_eq (y := 0) e]; rfl
  · next e => rw [BitVec.eq_of_toNat_eq (y := 1) e]; rfl
  · next e => rw [BitVec.eq_of_toNat_eq (y := 2) e, fetched_devCoord]; rfl
  · next e => exact absurd (BitVec.eq_of_toNat_eq (y := 3) e) hi
  · next h₀ h₁ h₂ h₃ =>
    have hvalue : rdsysValue s b t f.imm = (s.thr b t).vl.setWidth 64 := by
      rw [rdsysValue, if_neg fun e => h₀ (by rw [e]; rfl), if_neg fun e => h₁ (by rw [e]; rfl), if_neg fun e => h₂ (by rw [e]; rfl)]
    rw [hvalue]

end

end Sys2Proof.Machine

namespace Sys2Proof
open Machine

/-- Settles O7: the rows that read an immediate by `opScalar_of_ready`, SETVL and RDSYS by their own lemmas, and the copy of the count by
`scribeCopy_bounds`. -/
theorem scalarImmediateResults : Obligations.ScalarImmediateResults := by
  unfold Obligations.ScalarImmediateResults
  refine ⟨fun p hp b t f s h hl => ?_, fun b t f s w h hl hw => congrArg _ (opSetvl_of_ready h hl (widthOf_imm hw)),
    fun b t f s h hl => ?_⟩
  · simp only [List.mem_cons, List.not_mem_nil, or_false] at hp
    obtain rfl | rfl | rfl | rfl | rfl | rfl | rfl | rfl | rfl | rfl | rfl | rfl | rfl | rfl | rfl | rfl | rfl := hp
    all_goals refine opScalar_of_ready h hl ?_
    exacts [rfl, rfl, rfl, rfl, rfl, rfl, rfl, rfl, AluOp.eval_slt .., AluOp.eval_sltu .., rfl, AluOp.eval_min .., AluOp.eval_max ..,
      AluOp.eval_minu .., AluOp.eval_maxu .., rfl, congrArg (· ++ _) (extractLsb_signExtend f.imm).symm]
  · by_cases hi : f.imm = 3
    · obtain ⟨hle, hlag, hkept, hback⟩ := scribeCopy_bounds (Safety.fetched s b t) b
      rw [fetched_now] at hle hlag hback
      rw [fetched_bayLagMax] at hlag
      rw [fetched_scr] at hback
      refine ⟨_, 1, ((Safety.fetched s b t).scribeCopy b).1.scr, congrArg Host.Outcome.next (opRdsys_count h hl hi),
        fun e => absurd hi e, ?_⟩
      rw [hi]
      refine ⟨fun e => absurd e (by decide), fun e => absurd e (by decide), fun e => absurd e (by decide),
        fun _ => ⟨?_, hle, hlag, hkept, hback⟩, fun e => absurd e (by decide)⟩
      rw [scribeCopy_state, fetched_scr]
    · refine ⟨rdsysValue s b t f.imm, 0, s.scr, (congrArg Host.Outcome.next (opRdsys_other h hl hi)).trans ?_,
        fun _ => ⟨rfl, rfl⟩, fun e => ?_, fun e => ?_, fun e => ?_, fun e => absurd e hi, fun e => ?_⟩
      · rw [Nat.add_zero, ← fetched_fresh s b t, ← fetched_scr s b t]
      all_goals
        rw [e]
        rfl

end Sys2Proof
end

section

/-! ### Waits on flags and scribe marks (R197 to R199) -/

set_option Elab.async false

namespace Sys2Proof.Machine

/-- What an operation of one bay's thread keeps: device memory and every other bay. -/
structure KeepsBeside (b : BayId) (s t : State) : Prop where
  mem : t.mem = s.mem
  bays : Safety.keepsBays s t b

section
variable {r s u : State} {b : BayId} {t : Thread} {f : XFields} {off : BitVec 20} {cmp : Word} {cond : BitVec 2} {gd : BitVec 5}

/-! #### What the operations of a wait keep -/

theorem KeepsBeside.trans (h : KeepsBeside b r s) (h' : KeepsBeside b s u) : KeepsBeside b r u :=
  ⟨h'.mem.trans h.mem, fun c hc => (h'.bays c hc).trans (h.bays c hc)⟩

theorem KeepsBeside.refl (s : State) (b : BayId) : KeepsBeside b s s := ⟨rfl, fun _ _ => rfl⟩

theorem KeepsBeside.of_eq (hm : u.mem = s.mem) (hb : u.bays = s.bays) : KeepsBeside b s u :=
  ⟨hm, fun c _ => congrArg (fun m => smapGet (fun _ => Bay.reset) m c.toNat) hb⟩

theorem KeepsBeside.fetched (s : State) (b : BayId) (t : Thread) : KeepsBeside b s (Safety.fetched s b t) :=
  ⟨fetched_mem s b t, fetched_keepsBays s b t⟩

theorem KeepsBeside.updThr (h : KeepsBeside b r s) (g : ThreadRec → ThreadRec) : KeepsBeside b r (s.updThr b t g) :=
  h.trans ⟨rfl, fun _ hc => State.bay_updThr_ne _ _ _ _ _ hc⟩

theorem KeepsBeside.enterWait (h : KeepsBeside b r s) {w : WaitFor} : KeepsBeside b r (s.enterWait b t w) := h.updThr _

theorem KeepsBeside.leaveWait (h : KeepsBeside b r s) {v : Word} : KeepsBeside b r (s.leaveWait b t gd v) := h.updThr _

theorem KeepsBeside.eccRead (h : KeepsBeside b r s) {o n : Nat} : KeepsBeside b r (s.eccRead b o n).1 :=
  h.trans (.of_eq (by simp) (by simp))

theorem KeepsBeside.scribeCopy (h : KeepsBeside b r s) : KeepsBeside b r (s.scribeCopy b).1 := h.trans (.of_eq rfl rfl)

/-- A launch that fires is recorded in registers and in the Ledger (R366, R368). -/
theorem launchFired_only (s : State) (mark now : Nat) :
    s.launchFired mark now = { s with regs := (s.launchFired mark now).regs, ldg := (s.launchFired mark now).ldg } := by
  unfold State.launchFired
  dsimp only
  split <;> split <;> (try rw [State.tickEvent_regs_only]) <;> rfl

theorem KeepsBeside.launchFired (s : State) (b : BayId) (mark now : Nat) : KeepsBeside b s (s.launchFired mark now) := by
  rw [launchFired_only]
  exact .of_eq rfl rfl

/-! #### The thread that waits -/

/-- A thread that leaves WAIT: its g destination, and the next instruction. -/
def ThreadRec.left (r : ThreadRec) (gd : BitVec 5) (v : Word) : ThreadRec :=
  { r.setG gd v with pc := r.pc + 8, waitFor := .none, status := { r.status with st := .run } }

theorem leaveWait_thr (s : State) (b : BayId) (t : Thread) (gd : BitVec 5) (v : Word) :
    (s.leaveWait b t gd v).thr b t = (s.thr b t).left gd v := by
  rw [State.leaveWait, State.thr_updThr_self]
  simp [ThreadRec.left, ThreadRec.advance, ThreadRec.setSt]

/-- A thread in RUN keeps its status. -/
theorem left_of_run {r : ThreadRec} (h : r.status.st = .run) (gd : BitVec 5) (v : Word) :
    r.left gd v = { r.setG gd v with pc := r.pc + 8, waitFor := .none } := by
  have hst : ({ r.status with st := .run } : ThreadStatus) = r.status := by rw [← h]
  rw [ThreadRec.left, hst, ← ThreadRec.setG_status r gd v]

theorem left_fetched (s : State) (b : BayId) (t : Thread) (gd : BitVec 5) (v : Word) :
    ((Safety.fetched s b t).thr b t).left gd v = { ((Safety.fetched s b t).thr b t).setG gd v with
      pc := (s.thr b t).pc + 8, waitFor := .none, status := { (s.thr b t).status with st := .run } } := by
  rw [ThreadRec.left, fetched_pc, fetched_status]

theorem launchFired_thr (s : State) (mark now : Nat) : (s.launchFired mark now).thr b t = s.thr b t := by
  rw [launchFired_only]
  rfl

theorem releaseScribe_thr (s : State) (mark now : Word) :
    (s.releaseScribe b t mark now gd).thr b t = (s.thr b t).left gd now := by
  rw [State.releaseScribe, leaveWait_thr, launchFired_thr]

theorem KeepsBeside.releaseScribe (h : KeepsBeside b r s) {mark now : Word} : KeepsBeside b r (s.releaseScribe b t mark now gd) :=
  (h.trans <| .launchFired s b mark.toNat now.toNat).leaveWait

theorem scribeCopy_thr (s : State) : (s.scribeCopy b).1.thr b t = s.thr b t := rfl

/-! #### WAIT.FLAG (R198) -/

/-- Whether an access is uncorrectable rests on the lists of errors alone (R55). -/
theorem eccRead_failed (s : State) (b : BayId) (o n : Nat) : (s.eccRead b o n).2
    = if n = 0 ∨ (s.ecc1 = [] ∧ s.ecc2 = []) then false else s.ecc2.any fun k => (wordsOf (bayAddr b o) n).contains k :=
  apply_ite Prod.snd ..

theorem eccRead_failed_scribeCopy (s : State) (o n : Nat) : ((s.scribeCopy b).1.eccRead b o n).2 = (s.eccRead b o n).2 := by
  rw [eccRead_failed, eccRead_failed]
  rfl

theorem eccRead_now (s : State) (b : BayId) (o n : Nat) : (s.eccRead b o n).1.now = s.now :=
  State.eccRead_getF _ _ _ _ _ (not_mem_issueRegs b .SCR_COUNT Nat.one_pos Nat.one_pos (by decide) (by decide))

theorem flagWord_congr (h : u.mem = s.mem) (off : BitVec 20) : u.flagWord b off = s.flagWord b off :=
  congrArg (fun l => BitVec.ofNat 64 (leNat l)) (State.memBytes_congr _ _ h _ _)

/-- A read of a flag word without an uncorrectable error: the condition decides. -/
theorem readFlag_of_correct (h : (s.eccRead b off.toNat 8).2 = false) (other : State → State) :
    s.readFlag b t off cmp cond gd other = if flagHolds cond (s.flagWord b off) cmp then (s.eccRead b off.toNat 8).1.leaveWait b t gd 0
      else other (s.eccRead b off.toNat 8).1 := by
  have hword : (s.eccRead b off.toNat 8).1.flagWord b off = s.flagWord b off := flagWord_congr (State.eccRead_mem ..) off
  unfold State.readFlag
  dsimp only
  rw [h, if_neg Bool.false_ne_true, hword]
  rfl

/-- The wait for a flag word that does not meet the condition. -/
def State.awaitFlag (s : State) (b : BayId) (t : Thread) (off : BitVec 20) (cmp : Word) (cond : BitVec 2) (limit : Nat)
    (gd : BitVec 5) : State :=
  if limit = 0 then s.enterWait b t (.flag off cmp cond none gd)
  else (s.scribeCopy b).1.enterWait b t (.flag off cmp cond (some ((s.scribeCopy b).2.toNat + limit)) gd)

/-- The wait has a deadline where a limit is given, no later than the limit from now. -/
theorem awaitFlag_thr (s : State) (limit : Nat) : ∃ d,
    (s.awaitFlag b t off cmp cond limit gd).thr b t = { s.thr b t with
      waitFor := .flag off cmp cond d gd, status := { (s.thr b t).status with st := .wait } }
    ∧ (d = none ↔ limit = 0) ∧ ∀ n, d = some n → n ≤ s.now + limit := by
  unfold State.awaitFlag
  split
  · next h => exact ⟨none, State.thr_updThr_self .., by simp [h], by simp⟩
  · next h =>
    refine ⟨some ((s.scribeCopy b).2.toNat + limit), State.thr_updThr_self .., by simp [h], fun n hn => ?_⟩
    rw [← Option.some.inj hn]
    exact Nat.add_le_add_right (scribeCopy_bounds s b).1 limit

theorem KeepsBeside.awaitFlag (h : KeepsBeside b r s) (limit : Nat) : KeepsBeside b r (s.awaitFlag b t off cmp cond limit gd) := by
  unfold State.awaitFlag
  split
  · exact h.enterWait
  · exact h.scribeCopy.enterWait

/-- An address below 2²⁰ as an offset in bay memory. -/
theorem toNat_setWidth_offset {x : Word} (h : x.toNat < 0x100000) : (x.setWidth 20).toNat = x.toNat := by
  rw [BitVec.toNat_setWidth]
  omega

theorem fieldOf_above_offset {x : Word} (h : x.toNat < 0x100000) : fieldOf x 20 44 = 0 := by
  rw [fieldOf, BitVec.extractLsb'_toNat, Nat.shiftRight_eq_div_pow]
  omega

/-- The state after the read of WAIT.FLAG's word. -/
def flagRead (s : State) (b : BayId) (t : Thread) (f : XFields) : State :=
  ((Safety.fetched s b t).eccRead b ((s.thr b t).getG f.ga).toNat 8).1

/-- WAIT.FLAG at an aligned offset of bay memory, its word without an uncorrectable error: the condition decides between the next
instruction and WAIT (R198). -/
theorem opWaitFlag_of_ready (h : Safety.ready s b t (.x .waitFlag f)) (hl : Safety.notLast s b t)
    (h8 : ((s.thr b t).getG f.ga).toNat % 8 = 0) (ha : ((s.thr b t).getG f.ga).toNat < 0x100000)
    (hecc : ((Safety.fetched s b t).eccRead b ((s.thr b t).getG f.ga).toNat 8).2 = false) :
    opWaitFlag b t f s =
      if flagHolds (f.mod.extractLsb' 0 2) (BitVec.ofNat 64 (leNat (s.bayBytes b ((s.thr b t).getG f.ga).toNat 8))) ((s.thr b t).getG f.gb)
      then (flagRead s b t f).leaveWait b t f.gd 0
      else (flagRead s b t f).awaitFlag b t (BitVec.ofNat 20 ((s.thr b t).getG f.ga).toNat) ((s.thr b t).getG f.gb)
        (f.mod.extractLsb' 0 2) ((s.thr b t).getG f.gc).toNat f.gd := by
  have hoff := toNat_setWidth_offset ha
  have hstart : ((s.thr b t).getG f.ga).setWidth 20 = BitVec.ofNat 20 ((s.thr b t).getG f.ga).toNat := BitVec.eq_of_toNat_eq (by simp)
  have hrun : opWaitFlag b t f s = (Safety.fetched s b t).readFlag b t (((s.thr b t).getG f.ga).setWidth 20) ((s.thr b t).getG f.gb)
      (f.mod.extractLsb' 0 2) f.gd fun u => u.awaitFlag b t (((s.thr b t).getG f.ga).setWidth 20) ((s.thr b t).getG f.gb)
        (f.mod.extractLsb' 0 2) ((s.thr b t).getG f.gc).toNat f.gd := by
    refine run_of_ready h ?_ ?_ _
    · simp [Check.and, endCheck, h8, fieldOf_above_offset ha]
    · simpa [Check.and, endCheck, Safety.notLast] using hl
  rw [hrun, readFlag_of_correct (by rwa [hoff]), hoff, flagWord_congr (fetched_mem s b t), State.flagWord, hoff, hstart]
  rfl

theorem flagRead_keeps (s : State) (b : BayId) (t : Thread) (f : XFields) : KeepsBeside b s (flagRead s b t f) :=
  (KeepsBeside.fetched s b t).eccRead

theorem flagRead_thr (s : State) (b : BayId) (t : Thread) (f : XFields) :
    (flagRead s b t f).thr b t = (Safety.fetched s b t).thr b t := State.eccRead_thr ..

theorem flagRead_now (s : State) (b : BayId) (t : Thread) (f : XFields) : (flagRead s b t f).now = s.now :=
  (eccRead_now ..).trans (fetched_now ..)

/-- A re-read that meets the condition ends the wait. -/
theorem opWaitFlagReread_meets {d : Option Nat} (hw : (s.thr b t).waitFor = .flag off cmp cond d gd) (hg : s.gated = false)
    (hecc : (s.eccRead b off.toNat 8).2 = false) (hf : flagHolds cond (s.flagWord b off) cmp = true) :
    opWaitFlagReread b t s = (s.eccRead b off.toNat 8).1.leaveWait b t gd 0 := by
  have hrun : opWaitFlagReread b t s = s.readFlag b t off cmp cond gd fun s => s := by
    unfold opWaitFlagReread
    rw [hw]
    exact if_neg (by simp [hg])
  rw [hrun, readFlag_of_correct hecc, if_pos hf]

/-- Past the deadline by the greatest lag, the bay's copy is past it too, and the wait ends: DONE wins over TIMEOUT. -/
theorem opWaitFlagTimeout_due {d : Nat} (hw : (s.thr b t).waitFor = .flag off cmp cond (some d) gd) (hg : s.gated = false)
    (hecc : (s.eccRead b off.toNat 8).2 = false) (hd : d + s.bayLagMax b ≤ s.now) :
    opWaitFlagTimeout b t s = ((s.scribeCopy b).1.eccRead b off.toNat 8).1.leaveWait b t gd
      (if flagHolds cond (s.flagWord b off) cmp then 0 else cTIMEOUT.setWidth 64) := by
  obtain ⟨-, hlag, -, -⟩ := scribeCopy_bounds s b
  have hrun : opWaitFlagTimeout b t s = (s.scribeCopy b).1.readFlag b t off cmp cond gd fun s =>
      s.leaveWait b t gd (cTIMEOUT.setWidth 64) := by
    unfold opWaitFlagTimeout
    rw [hw]
    exact if_neg (by simp [hg]; omega)
  rw [hrun, readFlag_of_correct ((eccRead_failed_scribeCopy s _ _).trans hecc), ← apply_ite (State.leaveWait _ b t gd)]
  rfl

/-! #### WAIT.SCRIBE (R199) -/

/-- Past the mark by the greatest lag, the bay's copy has reached it. -/
theorem opWaitScribeRelease_due {mark : Word} (hw : (s.thr b t).waitFor = .scribe mark gd) (hg : s.gated = false)
    (hm : mark.toNat + s.bayLagMax b ≤ s.now) :
    opWaitScribeRelease b t s = (s.scribeCopy b).1.releaseScribe b t mark (s.scribeCopy b).2 gd := by
  obtain ⟨-, hlag, -, -⟩ := scribeCopy_bounds s b
  unfold opWaitScribeRelease
  rw [hw]
  exact if_neg (by simp [hg]; omega)

/-- WAIT.SCRIBE compares its mark with the copy of the bay's domain. -/
theorem opWaitScribe_of_ready (h : Safety.ready s b t (.x .waitScribe f)) (hl : Safety.notLast s b t) :
    opWaitScribe b t f s = if ((s.thr b t).getG f.ga).toNat ≤ ((Safety.fetched s b t).scribeCopy b).2.toNat
      then ((Safety.fetched s b t).scribeCopy b).1.releaseScribe b t ((s.thr b t).getG f.ga) ((Safety.fetched s b t).scribeCopy b).2 f.gd
      else ((Safety.fetched s b t).scribeCopy b).1.enterWait b t (.scribe ((s.thr b t).getG f.ga) f.gd) :=
  run_endCheck h hl _

/-- The copy of a fetched state. -/
theorem scribeCopy_fetched_bounds (s : State) (b : BayId) (t : Thread) : ((Safety.fetched s b t).scribeCopy b).2.toNat ≤ s.now
    ∧ s.now ≤ ((Safety.fetched s b t).scribeCopy b).2.toNat + s.bayLagMax b := by
  obtain ⟨hle, hlag, -, -⟩ := scribeCopy_bounds (Safety.fetched s b t) b
  rw [fetched_now] at hle hlag
  rw [fetched_bayLagMax] at hlag
  exact ⟨hle, hlag⟩

end

end Sys2Proof.Machine

namespace Sys2Proof
open Machine

/-- Settles O25: a read of the flag word by `readFlag_of_correct`, the deadlines and marks by `scribeCopy_bounds`. -/
theorem waitsOnFlagsAndMarks : Obligations.WaitsOnFlagsAndMarks := by
  unfold Obligations.WaitsOnFlagsAndMarks
  refine ⟨fun b t f s a h hl ha h8 hlt hecc => ?_, fun b t s off cmp cond d gd hw hg hecc hf => ?_,
    fun b t s off cmp cond d gd hw hg hecc hd => ?_, fun b t f s h hl => ⟨fun hm => ?_, fun hm => ?_⟩,
    fun b t s mark gd hw hg hm => ?_⟩
  · subst ha
    have hkeeps := flagRead_keeps s b t f
    have hrun := opWaitFlag_of_ready h hl h8 hlt hecc
    by_cases hf : flagHolds (f.mod.extractLsb' 0 2) (BitVec.ofNat 64 (leNat (s.bayBytes b ((s.thr b t).getG f.ga).toNat 8)))
        ((s.thr b t).getG f.gb) = true
    · rw [if_pos hf] at hrun
      refine ⟨_, congrArg Host.Outcome.next hrun, hkeeps.leaveWait.mem, hkeeps.leaveWait.bays, fun _ => ?_,
        fun h => absurd (hf.symm.trans h) (by decide)⟩
      obtain ⟨-, hst, -⟩ := h
      rw [leaveWait_thr, flagRead_thr, left_of_run ((fetched_status ..).symm ▸ hst), fetched_pc]
    · rw [if_neg hf] at hrun
      refine ⟨_, congrArg Host.Outcome.next hrun, (hkeeps.awaitFlag _).mem, (hkeeps.awaitFlag _).bays, fun h => absurd h hf,
        fun _ => ?_⟩
      obtain ⟨d, hthr, hnone, hsome⟩ := awaitFlag_thr (flagRead s b t f) ((s.thr b t).getG f.gc).toNat
      rw [flagRead_thr, fetched_status] at hthr
      rw [flagRead_now] at hsome
      exact ⟨d, hthr, hnone.trans (BitVec.toNat_inj (y := 0)), hsome⟩
  · have hkeeps := (KeepsBeside.refl s b).eccRead (o := off.toNat) (n := 8)
    exact ⟨_, congrArg Host.Outcome.next (opWaitFlagReread_meets hw hg hecc hf), hkeeps.leaveWait.mem, hkeeps.leaveWait.bays,
      (leaveWait_thr ..).trans (by rw [State.eccRead_thr]; rfl)⟩
  · have hkeeps := (KeepsBeside.refl s b).scribeCopy.eccRead (o := off.toNat) (n := 8)
    exact ⟨_, congrArg Host.Outcome.next (opWaitFlagTimeout_due hw hg hecc hd), hkeeps.leaveWait.mem, hkeeps.leaveWait.bays,
      (leaveWait_thr ..).trans (by rw [State.eccRead_thr]; rfl)⟩
  · obtain ⟨hle, hlag⟩ := scribeCopy_fetched_bounds s b t
    have hkeeps := (KeepsBeside.fetched s b t).scribeCopy
    have hrun := (opWaitScribe_of_ready h hl).trans (if_pos (by omega))
    exact ⟨_, _, congrArg Host.Outcome.next hrun, hkeeps.releaseScribe.mem, hkeeps.releaseScribe.bays,
      (releaseScribe_thr ..).trans (left_fetched ..), by omega, hle⟩
  · obtain ⟨hle, -⟩ := scribeCopy_fetched_bounds s b t
    have hkeeps := (KeepsBeside.fetched s b t).scribeCopy
    have hrun := (opWaitScribe_of_ready h hl).trans (if_neg (by omega))
    refine ⟨_, congrArg Host.Outcome.next hrun, hkeeps.enterWait.mem, hkeeps.enterWait.bays, (State.thr_updThr_self ..).trans ?_⟩
    rw [scribeCopy_thr, ThreadRec.setSt, fetched_status]
  · obtain ⟨hle, hlag, -, -⟩ := scribeCopy_bounds s b
    have hkeeps := (KeepsBeside.refl s b).scribeCopy
    exact ⟨_, _, congrArg Host.Outcome.next (opWaitScribeRelease_due hw hg hm), hkeeps.releaseScribe.mem, hkeeps.releaseScribe.bays,
      releaseScribe_thr .., by omega, hle⟩

end Sys2Proof
end

section

/-! ### The firewall, engine events, the test port and stack temperatures (R33 to R39, R253, R498) -/

set_option Elab.async false

namespace Sys2Proof.Machine

section
variable {s : State} {p : RegPath} {v : Word}

/-! #### Writes of the firewall registers (R35) -/

theorem guarded_of_ok {r : RegId} {i j : Nat} {ok : Bool} (h : ok = true) (code : Code) (act : State → State × Code) :
    s.guarded r i j v ok code act = act s := if_pos (by rw [h]; rfl)

theorem writeFwCtrl_unlocked (h : s.getF Fld.OPT_FW_CTRL_LOCK = 0) : writeFwCtrl v s = (s.plainWrite .OPT_FW_CTRL 0 0 v, cDONE) :=
  guarded_of_ok (beq_iff_eq.mpr h) _ _

theorem writeFwWin_unlocked (h : s.getF Fld.OPT_FW_CTRL_LOCK = 0) (e w : Nat) :
    writeFwWin e w v s = (s.plainWrite .OPT_FW_WIN e w v, cDONE) :=
  guarded_of_ok (beq_iff_eq.mpr h) _ _

/-- No path but the MSC's may write the firewall's registers. -/
theorem pathMay_firewall {r : RegId} (hr : r = .OPT_FW_CTRL ∨ r = .OPT_FW_WIN) (hp : p ≠ .msc) (a : Nat) : pathMay p r a v = false := by
  have hport : portOnly.contains r = false := by obtain rfl | rfl := hr <;> decide
  have hfw : r = .OPT_FW_CTRL ∨ r = .OPT_FW_WIN ∨ r = .OPT_FW_STATUS := hr.imp_right .inl
  unfold pathMay
  rw [if_neg (by rw [hport]; decide), if_pos hfw]
  exact beq_false_of_ne hp

/-- A register of the firewall refuses such a path, without effect. -/
theorem write64_firewall_refused {r : RegId} {i j : Nat} (hr : r = .OPT_FW_CTRL ∨ r = .OPT_FW_WIN) (hi : i < r.spec.n1)
    (hj : j < r.spec.n2) (hp : p ≠ .msc) (hb : p ≠ .bar0) : s.write64 p r i j v = { s with lastCode := cACCESS_DENIED } := by
  have hlevel : (r == .ABR_LEVEL && levelHole i j) = false := by obtain rfl | rfl := hr <;> rfl
  rw [State.write64, State.regWriteBy_of_ne_bar0 hb, State.writeReg_mayNot hi hj hlevel (pathMay_firewall hr hp _)]

/-! #### An engine's own registers (R35) -/

/-- A window that covers an access ends within the engine's registers: LIMIT has 16 bits. -/
theorem windowOk_bound {e off len : Nat} {wr : Bool} (h : s.windowOk e wr off len = true) : off + len ≤ 65536 := by
  obtain ⟨w, -, hw⟩ := List.any_eq_true.mp h
  have hlimit : s.getF (Fld.OPT_FW_WIN_LIMIT e w) < 2 ^ 16 := fieldOf_lt ..
  simp only [Bool.and_eq_true, decide_eq_true_eq] at hw
  omega

theorem engWrite_opt_only (s : State) (e off : Nat) (l : List Byte) : s.engWrite e off l = { s with opt := (s.engWrite e off l).opt } := by
  induction l generalizing s off with
  | nil => rfl
  | cons x l ih => rw [State.engWrite, ih]; rfl

/-- A byte of an engine after a write: what was written there, or what it was. -/
theorem engByte_engWrite (s : State) (e off : Nat) (l : List Byte) (hl : off + l.length ≤ 65536) {e' o : Nat} (ho : o < 65536) :
    (s.engWrite e off l).engByte e' o
      = if e' = e ∧ off ≤ o ∧ o < off + l.length then l.getD (o - off) 0 else s.engByte e' o := by
  induction l generalizing s off with
  | nil => rw [if_neg (by rw [List.length_nil]; omega)]; rfl
  | cons x l ih =>
    rw [List.length_cons] at hl ⊢
    rw [State.engWrite, ih _ _ (by omega), State.engByte, State.updOpt, smapGet_set]
    by_cases here : e' = e ∧ o = off
    · obtain ⟨rfl, rfl⟩ := here
      rw [if_neg (by omega), if_pos rfl, if_pos (by omega), Nat.sub_self]
      rfl
    · rw [if_neg (show ¬ e' * 65536 + o = e * 65536 + off by omega)]
      refine if_ctx_congr (by omega) (fun h => ?_) fun _ => rfl
      rw [show o - off = o - (off + 1) + 1 by omega, List.getD_cons_succ]

/-- The part of the data that an access of `len` bytes takes. -/
theorem getD_take {l : List Byte} {len k : Nat} (h : k < len) : (l.take len).getD k 0 = l.getD k 0 := by
  simp [List.getD_eq_getElem?_getD, h]

/-- An access that a window covers, or that needs none, is performed. -/
theorem opEngineReg_allowed {who : EngineAgent} {e off len : Nat} {wr : Bool} (data : List Byte)
    (h : if who = .engine then 0 < len ∧ s.windowOk e wr off len = true else off + len ≤ 65536) :
    off + len ≤ 65536 ∧ opEngineReg who e wr off len data s = if wr then { s.engWrite e off (data.take len) with lastCode := cDONE }
      else { s with lastCode := cDONE, lastData := BitVec.ofNat 64 (leNat ((List.range len).map fun i => s.engByte e (off + i))) } := by
  unfold opEngineReg
  by_cases hw : who = .engine
  · rw [if_pos hw] at h
    obtain ⟨hlen, hwin⟩ := h
    have hb := windowOk_bound hwin
    rw [if_neg (by simp [hwin]; omega), if_neg (by omega)]
    exact ⟨hb, rfl⟩
  · rw [if_neg hw] at h
    rw [if_neg fun x => hw x.1, if_neg (by omega)]
    exact ⟨h, rfl⟩

theorem opEngineReg_refused {e off len : Nat} {wr : Bool} (data : List Byte) (h : len = 0 ∨ s.windowOk e wr off len = false) :
    opEngineReg .engine e wr off len data s = { s.incF (Fld.OPT_FW_STATUS_REFUSE_CNT e) with lastCode := cACCESS_DENIED } :=
  if_pos ⟨rfl, by simpa using h⟩

/-! #### Temperatures of the stacks (R253, R498) -/

theorem refreshRate_lt (old t : Nat) : refreshRate old t < 4 := by
  unfold refreshRate
  dsimp only
  repeat' split
  all_goals decide

/-- Once the two fields are written, a reading changes at most the step's status among the registers. -/
theorem stackTemp_confined (s : State) (k t : Nat) : Confined (· = RegId.LDG_STEP_STATUS.addr)
    (s.setFs [(Fld.HBM_STACK_TEMP k, min t 255), (Fld.HBM_STACK_RATE k, refreshRate (s.getF (Fld.HBM_STACK_RATE k)) t)])
    (s.stackTemp k t) := by
  unfold State.stackTemp
  extract_lets old rate s₁ s₂
  have h : Confined (· = RegId.LDG_STEP_STATUS.addr) s₁ s₂ := .ite (Confined.refl (s := s₁)).frame .refl
  exact .ite h (h.tickEvent 1 rfl)

/-- A temperature is shown, at most 255, with the refresh rate that it demands. -/
theorem stackTemp_shows {k : Nat} (hk : k < 8) (t : Nat) : (s.stackTemp k t).getF (Fld.HBM_STACK_TEMP k) = min t 255
    ∧ (s.stackTemp k t).getF (Fld.HBM_STACK_RATE k) = refreshRate (s.getF (Fld.HBM_STACK_RATE k)) t
    ∧ Safety.keepsRegs s (s.stackTemp k t) [RegId.HBM_STACK.addr k, RegId.LDG_STEP_STATUS.addr] ∧ (s.stackTemp k t).mem = s.mem := by
  have hne : RegId.HBM_STACK.addr k ≠ RegId.LDG_STEP_STATUS.addr :=
    RegId.addr_ne .HBM_STACK .LDG_STEP_STATUS hk Nat.one_pos Nat.one_pos Nat.one_pos (by decide)
  have h := stackTemp_confined s k t
  refine ⟨(h.getF _ hne).trans ?_, (h.getF _ hne).trans ?_, fun a ha => ?_, h.mem.trans (State.setFs_mem ..)⟩
  · simp (disch := decide) [setFs_cons, setFs_nil, Fld.HBM_STACK_TEMP, Fld.HBM_STACK_RATE, getF_setF_same, getF_setF_beside]
  · simp (disch := decide) [setFs_cons, setFs_nil, Fld.HBM_STACK_TEMP, Fld.HBM_STACK_RATE, getF_setF_same]
    exact refreshRate_lt _ _
  · simp only [List.mem_cons, List.not_mem_nil, or_false, not_or] at ha
    rw [h.reg a ha.2, setFs_cons, setFs_cons, setFs_nil, State.reg_setF_ne _ _ _ _ ha.1, State.reg_setF_ne _ _ _ _ ha.1]

/-- A stack's third failure in a row, counted as a sensor fault. -/
def thirdFailure (s : State) (k : Nat) : State :=
  ({ s with tpc := { s.tpc with hbmFails := smapSet (fun _ => 0) s.tpc.hbmFails k 3 } } : State).incF Fld.TPC_SENSOR_FAULT_HBM

/-- The third failure in a row stands for 96 degrees (R498). -/
theorem opHbmTempRead_third {k : Fin 8} (h : smapGet (fun _ => 0) s.tpc.hbmFails k.val = 2) :
    opHbmTempRead k none s = (thirdFailure s k).stackTemp k 96 := if_pos (by rw [h])

end

end Sys2Proof.Machine

namespace Sys2Proof
open Machine

/-- Settles O38, clause by clause. -/
theorem firewallAndTestPorts : Obligations.FirewallAndTestPorts := by
  unfold Obligations.FirewallAndTestPorts
  refine ⟨fun v s e w hlock => ⟨fun h => ?_, fun h => ?_⟩, fun p v s e w hp hb => ⟨?_, ?_⟩,
    fun who e wr off len data s => ⟨fun h => ?_, fun h => ?_⟩, fun e ev s h => ?_, fun p k w s => rfl, fun k t s => ?_, fun k s h => ?_⟩
  · have hw : writeBy .OPT_FW_CTRL 0 0 v s = (s.plainWrite .OPT_FW_CTRL 0 0 v, cDONE) := writeFwCtrl_unlocked hlock
    exact congrArg Host.Outcome.next ((State.write64_done h Nat.one_pos Nat.one_pos (by rw [hw])).trans (by rw [hw]))
  · have hw : writeBy .OPT_FW_WIN e.val w.val v s = (s.plainWrite .OPT_FW_WIN e.val w.val v, cDONE) := writeFwWin_unlocked hlock e w
    exact congrArg Host.Outcome.next ((State.write64_done h e.isLt w.isLt (by rw [hw])).trans (by rw [hw]))
  · exact congrArg Host.Outcome.next (write64_firewall_refused (.inl rfl) Nat.one_pos Nat.one_pos hp hb)
  · exact congrArg Host.Outcome.next (write64_firewall_refused (.inr rfl) e.isLt w.isLt hp hb)
  · obtain ⟨hb, hrun⟩ := opEngineReg_allowed data h
    refine ⟨fun hwr => ?_, fun hwr => congrArg Host.Outcome.next (hrun.trans (if_neg (by simp [hwr])))⟩
    have hregs : (s.engWrite e off.toNat (data.take len)).regs = s.regs := by rw [engWrite_opt_only]
    have hmem : (s.engWrite e off.toNat (data.take len)).mem = s.mem := by rw [engWrite_opt_only]
    refine ⟨_, congrArg Host.Outcome.next (hrun.trans (if_pos hwr)), rfl, hregs, hmem, fun e' o ho => ?_⟩
    refine (engByte_engWrite s e off.toNat (data.take len) (by rw [List.length_take]; omega) ho).trans ?_
    rw [List.length_take]
    exact if_ctx_congr Iff.rfl (fun h => getD_take (by omega)) fun _ => rfl
  · exact congrArg Host.Outcome.next (opEngineReg_refused data h)
  · have hrun : opEngineEvent e ev s = s.setEvq e (s.evqOf e ++ [ev]) := if_neg (by omega)
    exact ⟨_, congrArg Host.Outcome.next hrun, smapGet_set_self .., fun d hd => smapGet_set_ne _ _ _ _ _ hd, rfl⟩
  · obtain ⟨htemp, hrate, hregs, hmem⟩ := stackTemp_shows
      (s := { s with tpc := { s.tpc with hbmFails := smapSet (fun _ => 0) s.tpc.hbmFails k 0 } }) k.isLt t
    exact ⟨_, rfl, htemp, hrate, hregs, hmem⟩
  · have hne : RegId.TPC_SENSOR_FAULT.addr ∉ [RegId.HBM_STACK.addr k.val, RegId.LDG_STEP_STATUS.addr] := by
      simp only [List.mem_cons, List.not_mem_nil, or_false, not_or]
      exact ⟨RegId.addr_ne .TPC_SENSOR_FAULT .HBM_STACK Nat.one_pos Nat.one_pos k.isLt Nat.one_pos (by decide),
        RegId.addr_ne .TPC_SENSOR_FAULT .LDG_STEP_STATUS Nat.one_pos Nat.one_pos Nat.one_pos Nat.one_pos (by decide)⟩
    obtain ⟨htemp, -, hregs, -⟩ := stackTemp_shows (s := thirdFailure s k) k.isLt 96
    exact ⟨_, congrArg Host.Outcome.next (opHbmTempRead_third h), htemp,
      (congrArg (fieldOf · _ _) (hregs _ hne)).trans (getF_setF_same (by decide))⟩

end Sys2Proof
end

section

/-! ### The debug aperture (R411, R444) -/

set_option Elab.async false

namespace Sys2Proof.Machine

/-- The device in READY with its aperture at the start of bay memory, and a reserve of 1 GiB that LDG_RES places there. -/
def reserveOverBays : State :=
  State.reset.setFs [(Fld.MSC_STATE_STATE, stREADY), (Fld.MSC_DBG_WIN_EN, 1), (Fld.MSC_DBG_WIN_BASE, 0x1100), (Fld.LDG_RES_BASE, 0x440),
    (Fld.LDG_RES_LOCAL_GIB, 1)]

/-- The state is one that the statement speaks of. -/
theorem reserveOverBays_served : reserveOverBays.barsOff = false ∧ Safety.handedOver reserveOverBays ∧ reserveOverBays.host.late = []
    ∧ bayAddr 0 0 = reserveOverBays.getF Fld.MSC_DBG_WIN_BASE * 2 ^ 28 + (0 : BitVec 28).toNat
    ∧ reserveOverBays.getF Fld.MSC_DBG_WIN_EN = 1 ∧ regAligned (bayAddr 0 0) 8 = true ∧ reserveOverBays.clockOff = false
    ∧ reserveOverBays.cut 0 = false ∧ reserveOverBays.ecc1 = [] ∧ reserveOverBays.ecc2 = []
    ∧ (reserveOverBays.checkAccess .host reserveOverBays.devCoord permW (bayAddr 0 0) 8).2 = true := by
  unfold Safety.handedOver
  decide +kernel

/-- The outcome that a command reports. -/
def codeAfter (i : Instr) (s : State) : Code :=
  match exec i s with
  | .next t => t.lastCode
  | _ => 0

theorem codeAfter_of_next {i : Instr} {s t : State} (h : exec i s = .next t) : codeAfter i s = t.lastCode := by rw [codeAfter, h]

/-- The reserve refuses the host's write (R411). -/
theorem codeAfter_reserveOverBays : codeAfter (.debugApertureAccess true 0 8 0) reserveOverBays = cACCESS_DENIED := by decide +kernel

end Sys2Proof.Machine

namespace Sys2Proof
open Machine

/-- Refutes O37: the statement is about every state and asks the access tables alone, and BASE of LDG_RES has 18 bits. Where the reserve
lies over bay memory, as in `reserveOverBays`, a write through the aperture that the tables allow is refused with ACCESS_DENIED. -/
theorem not_debugAperture : ¬ Obligations.DebugAperture := by
  unfold Obligations.DebugAperture
  rintro ⟨h, -⟩
  obtain ⟨hbars, hover, hlate, haddr, hen, halign, hclock, hcut, hecc1, hecc2, hallowed⟩ := reserveOverBays_served
  obtain ⟨hserved, -⟩ := h true 0 8 (bayAddr 0 0) 0 reserveOverBays 0 hbars hover hlate haddr
  have hexec := hserved hen halign (Nat.le_refl _) (by decide) hclock hcut hecc1 hecc2 hallowed
  exact absurd ((codeAfter_of_next hexec).symm.trans codeAfter_reserveOverBays) (by decide)

end Sys2Proof
end

section

/-! ### Links carry frames (R26, R27, R34, R283 to R292) -/

set_option Elab.async false

namespace Sys2Proof.Machine

section
variable {s t : State} {P : Nat → Prop}

/-- What registers other than HBM_CAP hold does not rest on what is handed over. -/
theorem Confined.handedOver (h : Confined P s t) (hP : ¬ P RegId.HBM_CAP.addr) (hhbm : t.hbm = s.hbm) (hs : Safety.handedOver s) :
    Safety.handedOver t := by
  obtain ⟨hended, hlost, hfolds⟩ := hs
  refine ⟨by rw [h.fab, hended], by rw [h.fab, hlost], fun e => ?_⟩
  rw [hhbm]
  exact hfolds ((h.getF Fld.HBM_CAP_FOLDS hP).symm.trans e)

theorem Confined.incF {r : State} (h : Confined P r s) {f : Field} (n : Nat) (hf : P f.reg) : Confined P r (s.incF f n) := h.setF _ hf

end

/-! #### Replays between dies (R26, R27) -/

/-- The registers that a replay of flits counts in. -/
def flitRegs : List Nat := [RegId.SIL_LINK_STATUS.addr, RegId.LDG_STEP_STATUS.addr]

section
variable {s : State} {l : DieLink}

theorem not_mem_flitRegs {q : RegId} {i j : Nat} (hi : i < q.spec.n1) (hj : j < q.spec.n2) (h₁ : q ≠ .SIL_LINK_STATUS)
    (h₂ : q ≠ .LDG_STEP_STATUS) : q.addr i j ∉ flitRegs := by
  simp only [flitRegs, List.mem_cons, List.not_mem_nil, or_false, not_or]
  exact ⟨RegId.addr_ne q .SIL_LINK_STATUS hi hj Nat.one_pos Nat.one_pos h₁,
    RegId.addr_ne q .LDG_STEP_STATUS hi hj Nat.one_pos Nat.one_pos h₂⟩

/-- A replay counted, with the failures in a row that now stand against its link. -/
def State.flitCounted (s : State) (k m : Nat) : State :=
  { (s.incF Fld.SIL_LINK_STATUS_REPLAYS).tickEvent with flits := smapSet (fun _ => 0) s.flits k m }

theorem flitCounted_confined (s : State) (k m : Nat) : Confined (· ∈ flitRegs) s (s.flitCounted k m) :=
  ((Confined.refl.incF (P := (· ∈ flitRegs)) (f := Fld.SIL_LINK_STATUS_REPLAYS) 1 (List.mem_cons_self ..)).tickEvent 1
    (List.mem_cons_of_mem _ (List.mem_cons_self ..))).frame

theorem sill_ne_step : RegId.SIL_LINK_STATUS.addr ≠ RegId.LDG_STEP_STATUS.addr := by decide

theorem flitCounted_replays (s : State) (k m : Nat) : (s.flitCounted k m).getF Fld.SIL_LINK_STATUS_REPLAYS
    = (s.getF Fld.SIL_LINK_STATUS_REPLAYS + 1) % 2 ^ 32 :=
  (getF_tickEvent_ne (s := s.incF Fld.SIL_LINK_STATUS_REPLAYS) _ 1 sill_ne_step).trans (getF_setF_same (by decide))

theorem flitCounted_sillDown (s : State) (k m : Nat) : (s.flitCounted k m).getF Fld.SIL_LINK_STATUS_SILL_DOWN
    = s.getF Fld.SIL_LINK_STATUS_SILL_DOWN :=
  (getF_tickEvent_ne (s := s.incF Fld.SIL_LINK_STATUS_REPLAYS) _ 1 sill_ne_step).trans (getF_setF_beside (.inr (by decide)))

/-- A replay on a link that is not down: its failures in a row start again or gain one, and the sixteenth takes the link down. -/
theorem opFlitReplay_up (h : smapGet (fun _ => 0) s.flits (linkKey l) < 16) {ok : Bool} {m : Nat}
    (hm : (if ok then 0 else smapGet (fun _ => 0) s.flits (linkKey l) + 1) = m) :
    opFlitReplay l ok s = if m = 16 then (s.flitCounted (linkKey l) m).linkDown l else s.flitCounted (linkKey l) m := by
  subst hm
  have hflits : (s.incF Fld.SIL_LINK_STATUS_REPLAYS).tickEvent.flits = s.flits := State.tickEvent_flits ..
  unfold opFlitReplay State.flitCounted
  dsimp only
  rw [if_neg (by omega), hflits]

/-- A replay that leaves its link up: what it counts is all that it does. -/
theorem exec_flitReplay_up (hs : Safety.handedOver s) (h : smapGet (fun _ => 0) s.flits (linkKey l) < 16) {ok : Bool} {m : Nat}
    (hm : (if ok then 0 else smapGet (fun _ => 0) s.flits (linkKey l) + 1) = m) (hne : m ≠ 16) :
    exec (.flitReplay l ok) s = .next (s.flitCounted (linkKey l) m) := by
  have hkept : Safety.handedOver (s.flitCounted (linkKey l) m) := (flitCounted_confined s _ m).handedOver
    (not_mem_flitRegs Nat.one_pos Nat.one_pos (by decide) (by decide)) (State.tickEvent_hbm ..) hs
  change Host.Outcome.next (opFlitReplay l ok s).settledAll = _
  rw [opFlitReplay_up h hm, if_neg hne, State.settledAll_of_handedOver _ hkept]

/-- A link of a sill goes down at the sixteenth failure: its bit is set. -/
theorem exec_flitReplay_down {i : Fin 4} (hs : Safety.handedOver s) (h : smapGet (fun _ => 0) s.flits i.val = 15) :
    exec (.flitReplay (.sill i) false) s = .next ((s.flitCounted i.val 16).setF Fld.SIL_LINK_STATUS_SILL_DOWN
      (s.getF Fld.SIL_LINK_STATUS_SILL_DOWN ||| 2 ^ i.val)) := by
  have hlt : smapGet (fun _ => 0) s.flits (linkKey (.sill i)) < 16 := lt_of_eq_of_lt h (by decide)
  have hm : (if false then 0 else smapGet (fun _ => 0) s.flits (linkKey (.sill i)) + 1) = 16 := congrArg (· + 1) h
  have hdown : (s.flitCounted i.val 16).linkDown (.sill i) = (s.flitCounted i.val 16).setF Fld.SIL_LINK_STATUS_SILL_DOWN
      (s.getF Fld.SIL_LINK_STATUS_SILL_DOWN ||| 2 ^ i.val) := by
    rw [State.linkDown, flitCounted_sillDown]
  have hkept : Safety.handedOver ((s.flitCounted i.val 16).linkDown (.sill i)) :=
    ((flitCounted_confined s _ 16).setF _ (List.mem_cons_self ..)).handedOver
      (not_mem_flitRegs Nat.one_pos Nat.one_pos (by decide) (by decide)) (State.tickEvent_hbm ..) hs
  change Host.Outcome.next (opFlitReplay (.sill i) false s).settledAll = _
  rw [opFlitReplay_up hlt hm, if_pos rfl, ← hdown]
  exact congrArg _ (State.settledAll_of_handedOver _ hkept)

end

/-! #### Ports and the packets of a fabric engine -/

section
variable {s : State} {p h : Nat} {e : Bool}

@[simp] theorem port_setPort_self (s : State) (p : Nat) (x : Port) : (s.setPort p x).port p = x := smapGet_set_self ..

@[simp] theorem port_updPort_self (s : State) (p : Nat) (f : Port → Port) : (s.updPort p f).port p = f (s.port p) := smapGet_set_self ..

@[simp] theorem port_fitBursts (s : State) (p q : Nat) : (s.fitBursts p).port q = s.port q := rfl

@[simp] theorem lane_updLane (x : Port) (e : Bool) (f : LinkLane → LinkLane) : (x.updLane e f).lane e = f (x.lane e) := by cases e <;> rfl

theorem heldOf_hold (s : State) (h : Nat) (x : Held) : (s.hold h x).heldOf h = s.heldOf h ++ [x] := by
  unfold State.heldOf State.hold
  split <;> rfl

theorem heldOf_setHeld (s : State) (h : Nat) (l : List Held) : (s.setHeld h l).heldOf h = l := by
  unfold State.heldOf State.setHeld
  split <;> rfl

end

/-! #### A frame that lands (R34, R286, R289, R291) -/

section
variable {s : State} {p : Nat} {f : LinkHdr} {q : Packet}

/-- The codewords of a frame counted. -/
def State.codewords (s : State) (p corr uncorr : Nat) : State :=
  ((s.incF (Fld.OPT_PORT_FEC_CORR_CW p) corr).incF (Fld.OPT_PORT_FEC_UNCORR_CW p) uncorr).tickEvent corr

theorem codewords_confined (s : State) (p corr uncorr : Nat) :
    Confined (· ∈ [RegId.OPT_PORT_FEC.addr p, RegId.LDG_STEP_STATUS.addr]) s (s.codewords p corr uncorr) := by
  have hfec : RegId.OPT_PORT_FEC.addr p ∈ [RegId.OPT_PORT_FEC.addr p, RegId.LDG_STEP_STATUS.addr] := List.mem_cons_self ..
  have hstep : RegId.LDG_STEP_STATUS.addr ∈ [RegId.OPT_PORT_FEC.addr p, RegId.LDG_STEP_STATUS.addr] :=
    List.mem_cons_of_mem _ (List.mem_cons_self ..)
  exact ((Confined.refl.incF (f := Fld.OPT_PORT_FEC_CORR_CW p) corr hfec).incF (f := Fld.OPT_PORT_FEC_UNCORR_CW p) uncorr hfec).tickEvent
    corr hstep

/-- Registers of other kinds keep their fields. -/
theorem codewords_getF (hp : p < 16) {r : RegId} {i j lo width : Nat} (hi : i < r.spec.n1) (hj : j < r.spec.n2) (h₁ : r ≠ .OPT_PORT_FEC)
    (h₂ : r ≠ .LDG_STEP_STATUS) (corr uncorr : Nat) :
    (s.codewords p corr uncorr).getF ⟨r.addr i j, lo, width⟩ = s.getF ⟨r.addr i j, lo, width⟩ := by
  refine (codewords_confined s p corr uncorr).getF _ ?_
  simp only [List.mem_cons, List.not_mem_nil, or_false, not_or]
  exact ⟨RegId.addr_ne r .OPT_PORT_FEC hi hj hp Nat.one_pos h₁, RegId.addr_ne r .LDG_STEP_STATUS hi hj Nat.one_pos Nat.one_pos h₂⟩

theorem port_of_fab {t : State} (h : t.fab = s.fab) (p : Nat) : t.port p = s.port p := by rw [State.port, State.port, h]

theorem heldOf_of_fab {t : State} (h : t.fab = s.fab) (n : Nat) : t.heldOf n = s.heldOf n := by rw [State.heldOf, State.heldOf, h]

/-- A frame that passes its checks and is the next of its lane is taken. -/
theorem opFrameLanding_next (hp : p < 16) {lane : Bool} (corr : Nat) (heng : (s.getF Fld.OPT_FW_CTRL_ENG_EN).testBit (p / 2) = true)
    (hup : s.portUp p = true) (hok : s.landingOk p lane f = true) (hq : f.frame.packet = some q)
    (hseq : f.lseq = ((s.port p).lane f.express).rx) : opFrameLanding p lane f corr 0 s = (s.codewords p corr 0).takeFrame p f q := by
  have hport : (s.codewords p corr 0).port p = s.port p := port_of_fab (codewords_confined s p corr 0).fab p
  have heng' : ((s.codewords p corr 0).getF Fld.OPT_FW_CTRL_ENG_EN).testBit (p / 2) = true :=
    (congrArg (Nat.testBit · (p / 2)) (codewords_getF hp Nat.one_pos Nat.one_pos (by decide) (by decide) corr 0)).trans heng
  have hup' : (s.codewords p corr 0).portUp p = true :=
    (congrArg (· == 1) (codewords_getF hp (r := .ABR_PORT_STATUS) hp Nat.one_pos (by decide) (by decide) corr 0)).trans hup
  have hok' : (s.codewords p corr 0).landingOk p lane f = true := by
    unfold State.landingOk at hok ⊢
    rw [hport]
    exact hok
  change (if (!((s.codewords p corr 0).getF Fld.OPT_FW_CTRL_ENG_EN).testBit (p / 2) || !(s.codewords p corr 0).portUp p) = true then _
    else if (decide (0 < 0) || !(s.codewords p corr 0).landingOk p lane f) = true then _ else _) = _
  rw [if_neg (by simp [heng', hup']), if_neg (by simp [hok']), hq]
  exact if_pos (hseq.trans (congrArg (fun x : Port => (x.lane f.express).rx) hport.symm))

/-- The frame's link acknowledgement taken, and the next of its lane awaited. -/
def State.expectNext (s : State) (p : Nat) (f : LinkHdr) : State :=
  (s.updPort p fun x => x.updLane f.express fun l => { (l.acknowledge f.lack) with rx := l.rx + 1, nak := none }).fitBursts p

/-- Landing space taken by a port's frame. -/
def Port.occupy (x : Port) (f : LinkHdr) : Port :=
  if f.shared then { x with rxShared := x.rxShared + cellsOf f.flen }
  else { x with rxResv := takeCells x.rxResv f.vc f.rung (cellsOf f.flen) }

theorem lane_occupy (x : Port) (f : LinkHdr) (e : Bool) : (x.occupy f).lane e = x.lane e := by
  unfold Port.occupy
  split <;> rfl

/-- A frame of a type in use enters the fabric engine with its landing space; beside ports and packets at most the timebase hears of it. -/
theorem takeFrame_eq (ht : q.type.toNat < 13) : ∃ c, s.takeFrame p f q
    = State.hold { (s.expectNext p f).updPort p (·.occupy f) with scr := c } (p / 8) {
        p := q, by_ := .rung (f.rung % 4), space := some (p, f.shared, f.vc, f.rung, cellsOf f.flen), first := false } := by
  have hrun : s.takeFrame p f q = if 13 ≤ q.type.toNat then (s.expectNext p f).incF (Fld.OPT_FW_STATUS_DROP_CNT (p / 2))
      else State.hold (if q.type = 0xA ∧ devOf q.dst = ((s.expectNext p f).updPort p (·.occupy f)).devCoord then
          { (s.expectNext p f).updPort p (·.occupy f) with scr := { s.scr with landed := s.scr.landed ++ [(q.payload, s.now)] } }
        else (s.expectNext p f).updPort p (·.occupy f)) (p / 8)
        { p := q, by_ := .rung (f.rung % 4), space := some (p, f.shared, f.vc, f.rung, cellsOf f.flen), first := false } := rfl
  rw [hrun, if_neg (by omega)]
  split
  · exact ⟨_, rfl⟩
  · exact ⟨s.scr, rfl⟩

theorem port_hold (s : State) (h : Nat) (x : Held) (p : Nat) : (s.hold h x).port p = s.port p := by
  unfold State.port State.hold
  split <;> rfl

/-- What a frame taken leaves: the packet at the engine, and the lane that expects the next. -/
theorem takeFrame_shows (ht : q.type.toNat < 13) : (s.takeFrame p f q).heldOf (p / 8) = s.heldOf (p / 8) ++ [{
      p := q, by_ := .rung (f.rung % 4), space := some (p, f.shared, f.vc, f.rung, cellsOf f.flen), first := false }]
    ∧ (((s.takeFrame p f q).port p).lane f.express).rx = ((s.port p).lane f.express).rx + 1
    ∧ (s.takeFrame p f q).mem = s.mem ∧ (s.takeFrame p f q).bays = s.bays ∧ (s.takeFrame p f q).regs = s.regs := by
  obtain ⟨c, htake⟩ := takeFrame_eq (s := s) (p := p) (f := f) ht
  have hport : (s.takeFrame p f q).port p = ((s.expectNext p f).port p).occupy f := by
    rw [htake, port_hold]
    exact port_updPort_self (s.expectNext p f) p (·.occupy f)
  refine ⟨by rw [htake, heldOf_hold]; rfl, ?_, by rw [htake]; rfl, by rw [htake]; rfl, by rw [htake]; rfl⟩
  rw [hport, lane_occupy, State.expectNext, port_fitBursts, port_updPort_self, lane_updLane]

end

/-! #### Packets that are forwarded (R283, R291, R296) -/

section
variable {s : State} {x : Held} {h p : Nat}

/-- What a packet for this device waits for: nothing. -/
theorem waitsFor_own (hd : devOf x.p.dst = s.devCoord) : s.waitsFor x = none := by
  have hroute : s.route x.by_ (devOf x.p.src) (devOf x.p.dst) = .deliver := if_pos hd.symm
  rw [State.waitsFor, hroute]

/-- A packet delivered, with its congestion mark. -/
def State.delivered (s : State) (ce : Bool) (x : Held) : State :=
  { s with fab := { s.fab with arrived := s.fab.arrived ++ [{ x.p with ce := if ce then 1 else x.p.ce }] } }

theorem forward_own (hd : devOf x.p.dst = s.devCoord) (hx : x.space = none) (ce : Bool) : s.forward ce x = some (s.delivered ce x) := by
  have hroute : s.route x.by_ (devOf x.p.src) (devOf x.p.dst) = .deliver := if_pos hd.symm
  have hfree : s.freeSpace x = s := by rw [State.freeSpace, hx]
  unfold State.forward
  dsimp only
  rw [if_neg fun e => e.1 hd, hroute, hfree]
  rfl

/-- A packet for this device at the head of an engine is delivered. -/
theorem forwardFirst_own (hd : devOf x.p.dst = s.devCoord) (hx : x.space = none) (ce : Bool)
    (firsts : List ((Nat × Nat × Option Nat) × Bool)) (rest : List Held) :
    forwardFirst h ce [] firsts [] (x :: rest) s = (s.setHeld h rest).delivered ce x := by
  have hstay : s.mustStay [] firsts x = false := by
    rw [State.mustStay, waitsFor_own hd]
    rfl
  rw [forwardFirst, if_neg (by simp [hstay]), List.nil_append, forward_own (s := s.setHeld h rest) hd hx]

theorem opPacketForward_own (hs : Safety.handedOver s) (hstalled : s.fab.stalled = []) (hreplay : s.replayPort h = none)
    {rest : List Held} (hheld : s.heldOf h = x :: rest) (hd : devOf x.p.dst = s.devCoord) (hx : x.space = none) :
    opPacketForward h s
      = (s.setHeld h rest).delivered (decide (1024 * s.getF Fld.ABR_E2E_CTRL_CREASE_TH < s.queueBytes h)) x := by
  have hover (ce : Bool) : Safety.handedOver ((s.setHeld h rest).delivered ce x) := by
    obtain ⟨hended, hlost, hfolds⟩ := hs
    refine ⟨?_, ?_, hfolds⟩
    all_goals
      unfold State.delivered State.setHeld
      split
      all_goals assumption
  unfold opPacketForward
  rw [hreplay, hstalled]
  dsimp only [List.length_nil, State.unstall]
  rw [hheld, forwardFirst_own hd hx, State.settledAll_of_handedOver _ (hover _)]

theorem setHeld_arrived (s : State) (h : Nat) (l : List Held) : (s.setHeld h l).fab.arrived = s.fab.arrived := by
  unfold State.setHeld
  split <;> rfl

/-- A replay puts the next frame of its port on the link. -/
theorem opPacketForward_replay {q : BitVec 16} {rest : List (BitVec 16)} (hreplay : s.replayPort h = some p)
    (htodo : (s.port p).bulk.todo = q :: rest) : opPacketForward h s = s.updPort p fun x =>
      { x with
        bulk := { x.bulk with todo := rest }
        wire := (((s.port p).bulk.replay.find? fun t => t.lseq == q).map (s.frameOf p)).or x.wire } := by
  unfold opPacketForward
  rw [hreplay]
  dsimp only
  unfold State.sendTodo
  dsimp only
  rw [show ((s.port p).lane false).todo = q :: rest from htodo]
  rfl

end

/-! #### NAKs (R290, R291) -/

section
variable {s : State} {p : Nat} {e : Bool} {n : BitVec 16} {f : TxFrame} {l : LinkLane}

/-- A lane whose every unacknowledged frame leaves again. -/
def LinkLane.replayed (l : LinkLane) : LinkLane := { l with tries := l.tries + 1, todo := l.replay.map TxFrame.lseq }

/-- A port that replays a lane; where its oldest frame went on lead, lead sending pauses. -/
def Port.replayed (x : Port) (e : Bool) (l : LinkLane) (f : TxFrame) : Port :=
  { x.updLane e fun _ => l.replayed with leadPaused := x.leadPaused || f.lead }

theorem lane_replayed (x : Port) (e : Bool) (l : LinkLane) (f : TxFrame) : (x.replayed e l f).lane e = l.replayed := by cases e <;> rfl

/-- A NAK of the oldest frame, whose replays in a row are fewer than 16, lets every unacknowledged frame leave again. -/
theorem opNak_oldest (hup : s.portUp p = true) (hl : l = ((s.port p).lane e).acknowledge (n - 1)) (hf : l.replay.head? = some f)
    (hn : f.lseq = n) (htries : l.tries < 16) : opNak p e n s
      = (((s.updPort p (·.replayed e l f)).fitBursts p).incF (Fld.ABR_PORT_CNT_REPLAYS p)).tickEvent := by
  subst hl
  unfold opNak
  dsimp only
  rw [if_neg (by simp [hup]), hf]
  dsimp only
  rw [if_neg (not_not.mpr hn), if_neg (by omega)]
  rfl

theorem port_opNak (s : State) (p : Nat) (x : Port) (v : Nat) (f : Field) :
    ((((s.setPort p x).fitBursts p).incF f v).tickEvent).port p = x :=
  (port_of_fab (s := s.setPort p x) (State.tickEvent_fab (((s.setPort p x).fitBursts p).incF f v) 1) p).trans (port_setPort_self ..)

end

/-! #### Control frames (R289, R291, R292) -/

section
variable {s : State} {p : Nat} {e : Bool}

/-- The lane that a port's next control frame serves: the other than the last one's. -/
def Port.ctlLane (x : Port) : Bool := !((x.ctlDue.or x.ctl).elim true fun f => (linkHdr f).express)

/-- The first word of a control frame's link header. -/
def ctlWord (lseq lack : BitVec 16) (ptag : BitVec 4) (e : Bool) : Word :=
  lseq ++ lack ++ ptag ++ BitVec.ofBool e ++ (if e then 0 else 3 : BitVec 2) ++ (0 : BitVec 4) ++ (0 : BitVec 1) ++ (1 : BitVec 1)
    ++ (0 : BitVec 7) ++ (64 : BitVec 12)

/-- The control frame of a lane. -/
def State.ctlFrame (s : State) (p : Nat) (e : Bool) : Frame :=
  let l := (s.port p).lane e
  let cred : BitVec 32 := (s.port p).owed.getD 1 0 ++ (s.port p).owed.getD 0 0
  let l0 := ctlWord (l.nak.getD 0) (l.rx - 1) (BitVec.ofNat 4 (s.getF (Fld.ABR_PORT_STATUS_PEER_PORT p))) e
  { l0 := l0, l1 := cred ++ headerCheck l0 cred none, packet := none, pcrc := 0 }

/-- The same word, its width written as the sum of its parts'. -/
theorem ctlWord_getLsbD (lseq lack : BitVec 16) (ptag : BitVec 4) (e : Bool) (i : Nat) : (ctlWord lseq lack ptag e).getLsbD i
    = (lseq ++ lack ++ ptag ++ BitVec.ofBool e ++ (if e then 0 else 3 : BitVec 2) ++ (0 : BitVec 4) ++ (0 : BitVec 1) ++ (1 : BitVec 1)
      ++ (0 : BitVec 7) ++ (64 : BitVec 12)).getLsbD i := rfl

theorem ctlWord_fields (lseq lack : BitVec 16) (ptag : BitVec 4) (e : Bool) :
    (ctlWord lseq lack ptag e).extractLsb' 48 16 = lseq ∧ (ctlWord lseq lack ptag e).extractLsb' 32 16 = lack
      ∧ (ctlWord lseq lack ptag e).getLsbD 27 = e ∧ (ctlWord lseq lack ptag e).getLsbD 19 = true := by
  refine ⟨?_, ?_, ?_, ?_⟩
  · ext i hi
    rw [BitVec.getElem_extractLsb', ctlWord_getLsbD, ← BitVec.getLsbD_eq_getElem]
    simp (disch := omega) only [BitVec.getLsbD_append, if_neg]
    exact congrArg lseq.getLsbD (by omega)
  · ext i hi
    rw [BitVec.getElem_extractLsb', ctlWord_getLsbD, ← BitVec.getLsbD_eq_getElem]
    simp (disch := omega) only [BitVec.getLsbD_append, if_neg, if_pos]
    exact congrArg lack.getLsbD (by omega)
  · rw [ctlWord_getLsbD]
    simp only [BitVec.getLsbD_append, Nat.reduceLT, Nat.reduceSub, if_true, if_false]
    simp
  · rw [ctlWord_getLsbD]
    simp only [BitVec.getLsbD_append, Nat.reduceLT, Nat.reduceSub, if_true, if_false]
    simp

/-- What a control frame names: the first missing frame of its lane, or 0, and what was received. -/
theorem linkHdr_ctlFrame (s : State) (p : Nat) (e : Bool) : (linkHdr (s.ctlFrame p e)).express = e
    ∧ (linkHdr (s.ctlFrame p e)).lseq = ((s.port p).lane e).nak.getD 0 ∧ (linkHdr (s.ctlFrame p e)).control = true
    ∧ (linkHdr (s.ctlFrame p e)).lack = ((s.port p).lane e).rx - 1 := by
  obtain ⟨hlseq, hlack, hexp, hctl⟩ := ctlWord_fields (((s.port p).lane e).nak.getD 0) (((s.port p).lane e).rx - 1)
    (BitVec.ofNat 4 (s.getF (Fld.ABR_PORT_STATUS_PEER_PORT p))) e
  exact ⟨hexp, hlseq, hctl, hlack⟩

/-- A port whose lane has named its missing frame, with two credits fewer to return. -/
def Port.named (x : Port) (e : Bool) : Port := { x.updLane e fun l => { l with nak := none } with owed := x.owed.drop 2 }

theorem opControlFrame_up (hup : s.portUp p = true) (he : (s.port p).ctlLane = e) : opControlFrame p s =
    if e then (s.setPort p { (s.port p).named e with ctlDue := some (s.ctlFrame p e) }).fitBursts p
    else s.setPort p { (s.port p).named e with ctl := some (s.ctlFrame p e), wire := some (s.ctlFrame p e) } := by
  subst he
  exact if_neg (by simp [hup])

/-- The port after its control frame was formed: one on the express wavelength waits for its burst, another is on the link. -/
def State.ctlPort (s : State) (p : Nat) (e : Bool) : Port :=
  if e then { (s.port p).named e with ctlDue := some (s.ctlFrame p e) }
  else { (s.port p).named e with ctl := some (s.ctlFrame p e), wire := some (s.ctlFrame p e) }

theorem port_opControlFrame (hup : s.portUp p = true) : (opControlFrame p s).port p = s.ctlPort p (s.port p).ctlLane := by
  rw [opControlFrame_up hup rfl, State.ctlPort]
  split
  · rw [port_fitBursts, port_setPort_self]
  · rw [port_setPort_self]

theorem opControlFrame_keeps (hup : s.portUp p = true) :
    (opControlFrame p s).regs = s.regs ∧ (opControlFrame p s).mem = s.mem ∧ (opControlFrame p s).bays = s.bays := by
  rw [opControlFrame_up hup rfl]
  split <;> exact ⟨rfl, rfl, rfl⟩

theorem ctlPort_shows (s : State) (p : Nat) (e : Bool) :
    ((s.ctlPort p e).lane e).nak = none ∧ (s.ctlPort p e).owed = (s.port p).owed.drop 2
    ∧ if e then (s.ctlPort p e).ctlDue = some (s.ctlFrame p e)
      else (s.ctlPort p e).ctl = some (s.ctlFrame p e) ∧ (s.ctlPort p e).wire = some (s.ctlFrame p e) := by
  cases e
  · exact ⟨rfl, rfl, rfl, rfl⟩
  · exact ⟨rfl, rfl, rfl⟩

end

end Sys2Proof.Machine


namespace Sys2Proof
open Machine

/-- Settles O39, clause by clause. -/
theorem linksCarryFrames : Obligations.LinksCarryFrames := by
  unfold Obligations.LinksCarryFrames
  refine ⟨fun l s hs hlt => ⟨?_, fun h15 => ?_⟩, fun i s hs h15 => ?_, fun p ln fr f q corr s hf hq heng hup hok hseq ht => ?_,
    fun h s x rest hs hstalled hreplay hheld hx hd => ?_, fun h s p q rest hreplay htodo => ?_, fun p c s hup => ?_, fun p s => rfl,
    fun p ex n s t l hup hl ht hn htries => ?_, fun p s hup => ?_⟩
  · have hkept := flitCounted_confined s (linkKey l) 0
    exact ⟨_, exec_flitReplay_up hs hlt (m := 0) rfl (by decide), smapGet_set_self .., flitCounted_replays .., hkept.mem, hkept.bays,
      hkept.reg⟩
  · exact ⟨_, exec_flitReplay_up hs hlt (m := smapGet (fun _ => 0) s.flits (linkKey l) + 1) rfl (by omega), smapGet_set_self ..,
      flitCounted_replays ..⟩
  · have hkept := flitCounted_confined s i.val 16
    have hold : s.getF Fld.SIL_LINK_STATUS_SILL_DOWN < 2 ^ 4 := fieldOf_lt ..
    have hbit : 2 ^ i.val < 2 ^ 4 := Nat.pow_lt_pow_right (by decide) i.isLt
    exact ⟨_, exec_flitReplay_down hs h15, (getF_setF_same (by decide)).trans (Nat.mod_eq_of_lt (Nat.or_lt_two_pow hold hbit)),
      hkept.mem, hkept.bays⟩
  · subst hf
    have hkept := codewords_confined s p.val corr 0
    obtain ⟨hheld, hrx, hmem, hbays, hregs⟩ := takeFrame_shows (s := s.codewords p.val corr 0) (p := p.val) (f := linkHdr fr) ht
    exact ⟨_, congrArg Host.Outcome.next (opFrameLanding_next p.isLt corr heng hup hok hq hseq),
      hheld.trans (by rw [heldOf_of_fab hkept.fab]), hrx.trans (by rw [port_of_fab hkept.fab]), hmem.trans hkept.mem,
      hbays.trans hkept.bays, fun a ha => (reg_of_regs hregs a).trans (hkept.reg a ha)⟩
  · refine ⟨_, congrArg Host.Outcome.next (opPacketForward_own hs hstalled hreplay hheld hd hx), heldOf_setHeld .., ?_, rfl, rfl, rfl⟩
    simp only [State.delivered, setHeld_arrived, decide_eq_true_eq]
  · refine ⟨_, congrArg Host.Outcome.next (opPacketForward_replay hreplay htodo), by rw [port_updPort_self],
      by rw [port_updPort_self], rfl, fun t ht => ?_⟩
    rw [port_updPort_self, ht]
    rfl
  · exact congrArg Host.Outcome.next (if_pos hup)
  · have hne : RegId.ABR_PORT_CNT.addr p.val ≠ RegId.LDG_STEP_STATUS.addr :=
      RegId.addr_ne .ABR_PORT_CNT .LDG_STEP_STATUS p.isLt Nat.one_pos Nat.one_pos Nat.one_pos (by decide)
    have hport : (((((s.updPort p (·.replayed ex l t)).fitBursts p).incF (Fld.ABR_PORT_CNT_REPLAYS p)).tickEvent).port p)
        = (s.port p).replayed ex l t := port_opNak ..
    exact ⟨_, congrArg Host.Outcome.next (opNak_oldest hup hl ht hn htries),
      (getF_tickEvent_ne _ 1 hne).trans (getF_setF_same (by decide)), by rw [hport, lane_replayed]; rfl, by rw [hport]; rfl,
      State.tickEvent_mem .., State.tickEvent_bays ..⟩
  · have hport := port_opControlFrame hup
    obtain ⟨hregs, hmem, hbays⟩ := opControlFrame_keeps hup
    obtain ⟨hnak, howed, hframe⟩ := ctlPort_shows s p (s.port p).ctlLane
    obtain ⟨hexp, hlseq, hctl, hlack⟩ := linkHdr_ctlFrame s p (s.port p).ctlLane
    refine ⟨opControlFrame p s, s.ctlFrame p (s.port p).ctlLane, rfl, rfl, ?_⟩
    rw [hexp, hport]
    exact ⟨hframe, hlseq, hnak, hctl, hlack, howed, hregs, hmem, hbays⟩

end Sys2Proof
end

section

/-! ### Register-register arithmetic and division (R47, R184) -/

set_option Elab.async false

namespace Sys2Proof.Machine

/-- The high half of a signed product. -/
theorem MulOp.eval_mulh (x y : Word) :
    MulOp.mulh.eval x y = ((x.signExtend 128) * (y.signExtend 128)).extractLsb' 64 64 := by
  have hx : x.signExtend 128 = BitVec.ofInt 128 x.toInt := rfl
  have hy : y.signExtend 128 = BitVec.ofInt 128 y.toInt := rfl
  rw [hx, hy, ← BitVec.ofInt_mul, MulOp.eval]
  apply BitVec.eq_of_toNat_eq
  rw [BitVec.extractLsb'_toNat, BitVec.toNat_ofInt, BitVec.toNat_ofInt, Nat.shiftRight_eq_div_pow]
  push_cast
  omega

/-- The high half of an unsigned product. -/
theorem MulOp.eval_mulhu (x y : Word) :
    MulOp.mulhu.eval x y = ((x.setWidth 128) * (y.setWidth 128)).extractLsb' 64 64 := by
  have hlt : x.toNat * y.toNat < 2 ^ 128 := by
    have := Nat.mul_lt_mul'' x.isLt y.isLt
    omega
  apply BitVec.eq_of_toNat_eq
  rw [BitVec.extractLsb'_toNat, BitVec.toNat_mul, BitVec.toNat_setWidth_of_le (by decide), BitVec.toNat_setWidth_of_le (by decide),
    Nat.mod_eq_of_lt hlt, Nat.shiftRight_eq_div_pow]
  rfl

end Sys2Proof.Machine

namespace Sys2Proof
open Machine

/-- Settles O5: every row is a scalar instruction whose value is that of its operation. -/
theorem scalarRegisterResults : Obligations.ScalarRegisterResults := by
  unfold Obligations.ScalarRegisterResults
  intro p hp b t f s h hl
  simp only [List.mem_cons, List.not_mem_nil, or_false] at hp
  obtain rfl | rfl | rfl | rfl | rfl | rfl | rfl | rfl | rfl | rfl | rfl | rfl | rfl | rfl | rfl | rfl | rfl | rfl := hp
  all_goals refine opScalar_of_ready h hl ?_
  exacts [rfl, rfl, rfl, rfl, rfl, rfl, rfl, rfl, AluOp.eval_slt .., AluOp.eval_sltu .., rfl, AluOp.eval_min .., AluOp.eval_max ..,
    AluOp.eval_minu .., AluOp.eval_maxu .., rfl, MulOp.eval_mulh .., MulOp.eval_mulhu ..]

end Sys2Proof
end

section

/-! ### Division (R47) -/

set_option Elab.async false

namespace Sys2Proof.Machine

/-- What R47 asks of the quotient (`quot`) or the remainder `v` of `x` by `y`, signed or unsigned. -/
def divides (signed quot : Bool) (x y v : Word) : Prop :=
  (y = 0 → v = if quot then BitVec.allOnes 64 else x)
  ∧ (signed = true → x = BitVec.intMin 64 → y = -1 → v = if quot then BitVec.intMin 64 else 0)
  ∧ (signed = true → y ≠ 0 → ¬(x = BitVec.intMin 64 ∧ y = -1) →
    v.toInt = if quot then x.toInt.tdiv y.toInt else x.toInt.tmod y.toInt)
  ∧ (signed = false → y ≠ 0 → v.toNat = if quot then x.toNat / y.toNat else x.toNat % y.toNat)

theorem eval_div_of_ne_zero {x y : Word} (h : y ≠ 0) : MulOp.div.eval x y = x.sdiv y := by
  rw [MulOp.eval, if_neg h]
  exact BitVec.eq_of_toInt_eq (by rw [BitVec.toInt_ofInt, BitVec.toInt_sdiv])

theorem eval_rem_of_ne_zero {x y : Word} (h : y ≠ 0) : MulOp.rem.eval x y = x.srem y := by
  rw [MulOp.eval, if_neg h]
  exact BitVec.eq_of_toInt_eq (by rw [← BitVec.toInt_srem, BitVec.ofInt_toInt])

theorem div_divides (x y : Word) : divides true true x y (MulOp.div.eval x y) := by
  refine ⟨fun h => if_pos h, ?_, fun _ hy hcorner => ?_, nofun⟩
  · rintro - rfl rfl
    decide
  · rw [eval_div_of_ne_zero hy, if_pos rfl]
    exact BitVec.toInt_sdiv_of_ne_or_ne x y (Decidable.not_and_iff_or_not.mp hcorner)

theorem rem_divides (x y : Word) : divides true false x y (MulOp.rem.eval x y) := by
  refine ⟨fun h => if_pos h, ?_, fun _ hy _ => ?_, nofun⟩
  · rintro - rfl rfl
    decide
  · rw [eval_rem_of_ne_zero hy, if_neg Bool.false_ne_true]
    exact BitVec.toInt_srem x y

theorem divu_divides (x y : Word) : divides false true x y (MulOp.divu.eval x y) := by
  refine ⟨fun h => if_pos h, nofun, nofun, fun _ hy => ?_⟩
  rw [MulOp.eval, if_neg hy, if_pos rfl, BitVec.toNat_ofNat]
  exact Nat.mod_eq_of_lt ((Nat.div_le_self ..).trans_lt x.isLt)

theorem remu_divides (x y : Word) : divides false false x y (MulOp.remu.eval x y) := by
  refine ⟨fun h => if_pos h, nofun, nofun, fun _ hy => ?_⟩
  rw [MulOp.eval, if_neg hy, if_neg Bool.false_ne_true, BitVec.toNat_ofNat]
  exact Nat.mod_eq_of_lt ((Nat.mod_le ..).trans_lt x.isLt)

end Sys2Proof.Machine

namespace Sys2Proof
open Machine

/-- Settles O6: each of the four rows writes the value of its operation, which is the quotient or remainder of R47. -/
theorem scalarDivision : Obligations.ScalarDivision := by
  unfold Obligations.ScalarDivision
  intro p hp b t f s h hl
  simp only [List.mem_cons, List.not_mem_nil, or_false] at hp
  obtain rfl | rfl | rfl | rfl := hp
  all_goals refine ⟨_, opScalar_of_ready h hl rfl, ?_⟩
  all_goals
    rintro x y rfl rfl
  exacts [div_divides .., rem_divides .., divu_divides .., remu_divides ..]

end Sys2Proof
end

section

/-! ### Loads (R55, R184, R185) -/

set_option Elab.async false

namespace Sys2Proof.Machine

section
variable {s : State} {b : BayId} {t : Thread} {f : SFields}

theorem leNat_lt (l : List Byte) : leNat l < 2 ^ (8 * l.length) := by
  induction l with
  | nil => decide
  | cons x l ih =>
    have hx := x.isLt
    rw [leNat, List.length_cons, Nat.mul_succ, Nat.pow_add]
    omega

theorem bayBytes_length (s : State) (b : BayId) (o n : Nat) : (s.bayBytes b o n).length = n := memBytes_length _ _

theorem toNat_ofNat_leNat (s : State) (b : BayId) (o n : Nat) :
    (BitVec.ofNat (8 * n) (leNat (s.bayBytes b o n))).toNat = leNat (s.bayBytes b o n) := by
  have h := leNat_lt (s.bayBytes b o n)
  rw [bayBytes_length] at h
  exact Nat.mod_eq_of_lt h

/-- A loaded number is extended by its sign bit, or with zeros. -/
theorem loadExtend_toNat {n : Nat} (hn : n ≤ 8) (signed : Bool) (x : BitVec (8 * n)) :
    loadExtend signed n x.toNat = if signed then x.signExtend 64 else x.setWidth 64 := by
  have hx := x.isLt
  have hw : 2 ^ (8 * n) ≤ 2 ^ 64 := Nat.pow_le_pow_right Nat.two_pos (by omega)
  have hlow : (x.setWidth 64).toNat = x.toNat := BitVec.toNat_setWidth_of_le (by omega)
  apply BitVec.eq_of_toNat_eq
  cases signed with
  | false =>
    rw [loadExtend, if_neg fun h => Bool.false_ne_true h.1, if_neg Bool.false_ne_true, hlow, BitVec.toNat_ofNat]
    omega
  | true =>
    rw [if_pos rfl, BitVec.toNat_signExtend, hlow, BitVec.msb_eq_decide, loadExtend]
    by_cases hneg : 2 ^ (8 * n - 1) ≤ x.toNat
    · rw [if_pos ⟨rfl, hneg⟩, if_pos (decide_eq_true hneg), BitVec.toNat_ofNat]
      omega
    · rw [if_neg fun h => hneg h.2, if_neg (by simpa using hneg), BitVec.toNat_ofNat]
      omega

/-- An aligned access within bay memory by a ready instruction runs its effect on the fetched state (R178, R185). -/
theorem run_memCheck {i : BayInstr} {a : Word} {n : Nat} (h : Safety.ready s b t i) (hl : Safety.notLast s b t) (ha : a.toNat % n = 0)
    (hb : a.toNat + n ≤ 0x100000) (eff : State → State) :
    (issueGate s b t i (memCheck (s.thr b t).pc a n)).run s eff = eff (Safety.fetched s b t) := by
  have hlast : (s.thr b t).pc ≠ lastPc := hl
  refine run_of_ready h ?_ ?_ eff
  · simp [memCheck, endCheck, Check.and, ha]
  · simp only [memCheck, endCheck, Check.and, Bool.or_eq_false_iff, decide_eq_false_iff_not]
    exact ⟨hlast, Nat.not_lt.mpr hb⟩

/-- A load whose bytes have no uncorrectable error writes them to GD, extended. -/
theorem opLoad_of_ready {c : SCode} {n a : Nat} {signed : Bool} (hn : n ≤ 8) (h : Safety.ready s b t (.s c f)) (hl : Safety.notLast s b t)
    (ha : a = ((s.thr b t).getG f.ga + f.imm.signExtend 64).toNat) (h0 : a % n = 0) (hb : a + n ≤ 0x100000)
    (hecc : ((Safety.fetched s b t).eccRead b a n).2 = false) :
    opLoad c n signed b t f s = ((Safety.fetched s b t).eccRead b a n).1.updThr b t fun r =>
      { r.setG f.gd (if signed then (BitVec.ofNat (8 * n) (leNat (s.bayBytes b a n))).signExtend 64
          else (BitVec.ofNat (8 * n) (leNat (s.bayBytes b a n))).setWidth 64) with pc := (s.thr b t).pc + 8 } := by
  subst ha
  have hbytes : (Safety.fetched s b t).bayBytes b ((s.thr b t).getG f.ga + f.imm.signExtend 64).toNat n
      = s.bayBytes b ((s.thr b t).getG f.ga + f.imm.signExtend 64).toNat n := State.memBytes_congr _ _ (fetched_mem s b t) _ _
  refine (run_memCheck h hl h0 hb _).trans ((if_neg (by rw [sext32, hecc]; decide)).trans ?_)
  rw [sext32, hbytes, ← loadExtend_toNat hn, toNat_ofNat_leNat]
  exact updThr_congr (by simp [ThreadRec.advance])

end

end Sys2Proof.Machine

namespace Sys2Proof
open Machine

/-- Settles O8: each row loads one, two, four or eight bytes. -/
theorem scalarLoads : Obligations.ScalarLoads := by
  unfold Obligations.ScalarLoads
  intro p hp b t f s a h hl ha h0 hb hecc
  simp only [List.mem_cons, List.not_mem_nil, or_false] at hp
  obtain rfl | rfl | rfl | rfl | rfl | rfl | rfl := hp
  all_goals exact congrArg _ (opLoad_of_ready (by decide) h hl ha h0 hb hecc)

end Sys2Proof
end

section

/-! ### Stores (R55, R184, R185, R562) -/

set_option Elab.async false

namespace Sys2Proof.Machine

section
variable {s : State} {b : BayId} {t : Thread} {f : SFields}

@[simp] theorem Bay.setThr_setThr (y : Bay) (t : Thread) (q r : ThreadRec) : (y.setThr t q).setThr t r = y.setThr t r := by
  cases t <;> rfl

@[simp] theorem Bay.setThr_thr (y : Bay) (t : Thread) : y.setThr t (y.thr t) = y := by cases t <;> rfl

/-- Of its bay a fetch changes the thread alone. -/
theorem fetched_bay (s : State) (b : BayId) (t : Thread) :
    (Safety.fetched s b t).bay b = (s.bay b).setThr t ((Safety.fetched s b t).thr b t) := by
  obtain h | ⟨bad, h⟩ := fetched_cases s b t <;> rw [h]
  · exact (Bay.setThr_thr ..).symm
  · rw [State.bay_updThr_self, State.thr_updThr_self, State.eccRead_bay]

@[simp] theorem leBytes_length (n v : Nat) : (leBytes n v).length = n := by
  induction n generalizing v with
  | zero => rfl
  | succ n ih => rw [leBytes, List.length_cons, ih]

theorem leBytes_getElem (n v i : Nat) (h : i < (leBytes n v).length) : (leBytes n v)[i] = BitVec.ofNat 8 (v / 256 ^ i) := by
  induction n generalizing v i with
  | zero => exact absurd h (Nat.not_lt_zero i)
  | succ n ih =>
    cases i with
    | zero => simp [leBytes]
    | succ i => simp only [leBytes, List.getElem_cons_succ, ih, Nat.div_div_eq_div_mul, Nat.pow_succ']

/-- A byte of a word. -/
theorem leBytes_toNat_getElem (v : Word) (n i : Nat) (h : i < (leBytes n v.toNat).length) :
    (leBytes n v.toNat)[i] = v.extractLsb' (8 * i) 8 := by
  rw [leBytes_getElem, BitVec.extractLsb', Nat.shiftRight_eq_div_pow, Nat.pow_mul]

/-- A write of bay memory changes memory, the lists of errors and registers (R55, R562). -/
theorem State.bayWrite_only (s : State) (b : BayId) (o : Nat) (bs : List Byte) : (s.bayWrite b o bs).1 = { s with
    mem := (s.bayWrite b o bs).1.mem, regs := (s.bayWrite b o bs).1.regs
    ecc1 := (s.bayWrite b o bs).1.ecc1, ecc2 := (s.bayWrite b o bs).1.ecc2 } := by
  unfold State.bayWrite
  split
  · rfl
  · dsimp only
    split
    · rfl
    · rw [State.setMemBytes_mem_only]
      split
      · rfl
      · rw [State.tickEvent_regs_only]
        rfl

@[simp] theorem State.bayWrite_bays (s : State) (b : BayId) (o : Nat) (bs : List Byte) : (s.bayWrite b o bs).1.bays = s.bays := by
  rw [State.bayWrite_only]

/-- It counts in the bay's ECC counters and the open step. -/
theorem State.bayWrite_reg (s : State) (b : BayId) (o : Nat) (bs : List Byte) :
    Safety.keepsRegs s (s.bayWrite b o bs).1 (Safety.issueRegs b) := by
  intro a ha
  simp only [Safety.issueRegs, List.mem_cons, List.not_mem_nil, or_false, not_or] at ha
  unfold State.bayWrite
  split
  · rfl
  · dsimp only
    split
    · exact State.reg_incF_ne _ _ _ _ ha.1
    · split
      · exact State.setMemBytes_reg ..
      · rw [State.reg_tickEvent_ne _ _ _ ha.2, State.reg_incF_ne _ _ _ _ ha.1]
        exact State.setMemBytes_reg ..

/-- A write that does not fail stores its bytes. -/
theorem State.bayWrite_mem {s : State} {b : BayId} {o : Nat} {bs : List Byte} (h : (s.bayWrite b o bs).2 = false) :
    (s.bayWrite b o bs).1.mem = (s.setMemBytes (bayAddr b o) bs).mem := by
  revert h
  unfold State.bayWrite
  split
  · next e => rw [e]; intro; rfl
  · dsimp only
    split
    · nofun
    · split <;> simp

theorem memByte_of_mem {s t : State} (h : t.mem = s.mem) (a : Nat) : t.memByte a = s.memByte a := by rw [State.memByte, h]; rfl

/-- A store that does not fail writes the low bytes of GB and moves on. -/
theorem opStore_of_ready {c : SCode} {n a : Nat} (h : Safety.ready s b t (.s c f)) (hl : Safety.notLast s b t)
    (ha : a = ((s.thr b t).getG f.ga + f.imm.signExtend 64).toNat) (h0 : a % n = 0) (hb : a + n ≤ 0x100000)
    (hw : ((Safety.fetched s b t).bayWrite b a (leBytes n ((s.thr b t).getG f.gb).toNat)).2 = false) :
    opStore c n b t f s
      = ((Safety.fetched s b t).bayWrite b a (leBytes n ((s.thr b t).getG f.gb).toNat)).1.updThr b t ThreadRec.advance := by
  subst ha
  exact (run_memCheck h hl h0 hb _).trans (if_neg (by rw [sext32, hw]; decide))

/-- The state after a store, in the terms of the statement. -/
theorem bayWrite_advance {n a : Nat} {v : Word} (hw : ((Safety.fetched s b t).bayWrite b a (leBytes n v.toNat)).2 = false) {s' : State}
    (hs : s' = ((Safety.fetched s b t).bayWrite b a (leBytes n v.toNat)).1.updThr b t ThreadRec.advance) :
    (∀ i, i < n → s'.memByte (bayAddr b a + i) = v.extractLsb' (8 * i) 8) ∧ Safety.keepsMem s s' (bayAddr b a) n
      ∧ s'.bay b = (s.bay b).setThr t { (Safety.fetched s b t).thr b t with pc := (s.thr b t).pc + 8 }
      ∧ Safety.keepsBays s s' b ∧ Safety.keepsRegs s s' (Safety.issueRegs b) := by
  have hmem : ∀ x, s'.memByte x = ((Safety.fetched s b t).setMemBytes (bayAddr b a) (leBytes n v.toNat)).memByte x := by
    rw [hs]
    exact memByte_of_mem (State.bayWrite_mem hw)
  have hbay : ∀ c, ((Safety.fetched s b t).bayWrite b a (leBytes n v.toNat)).1.bay c = (Safety.fetched s b t).bay c := fun c => by
    rw [State.bay, State.bayWrite_bays]
    rfl
  refine ⟨fun i hi => ?_, fun x hx => ?_, ?_, fun c hc => ?_, fun r hr => ?_⟩
  · rw [hmem, State.memByte_setMemBytes, dif_pos (by simpa using hi)]
    simp only [Nat.add_sub_cancel_left, leBytes_toNat_getElem]
  · rw [hmem, State.memByte_setMemBytes, dif_neg (by rw [leBytes_length]; omega)]
    exact memByte_of_mem (fetched_mem s b t) x
  · rw [hs, State.bay_updThr_self, State.thr_eq, hbay, ← State.thr_eq, fetched_bay, Bay.setThr_setThr, ThreadRec.advance, fetched_pc]
  · rw [hs, State.bay_updThr_ne _ _ _ _ _ hc, hbay]
    exact fetched_keepsBays s b t c hc
  · rw [hs]
    exact (State.bayWrite_reg _ _ _ _ r hr).trans (fetched_reg s b t r hr)

end

end Sys2Proof.Machine

namespace Sys2Proof
open Machine

/-- Settles O9: each row stores one, two, four or eight bytes. -/
theorem scalarStores : Obligations.ScalarStores := by
  unfold Obligations.ScalarStores
  intro p hp b t f s a h hl ha h0 hb hw
  have hrun : Machine.exec (p.2.1 b t f) s = .next (opStore p.1 p.2.2 b t f s) := by
    simp only [List.mem_cons, List.not_mem_nil, or_false] at hp
    obtain rfl | rfl | rfl | rfl := hp <;> rfl
  rw [opStore_of_ready h hl ha h0 hb hw] at hrun
  obtain ⟨hbytes, hmem, hbay, hbays, hregs⟩ := bayWrite_advance hw rfl
  exact ⟨_, hrun, hbytes, hmem, hbay, fetched_thr s b t, hbays, hregs⟩

end Sys2Proof
end

section

/-! ### Encodings decode to their instruction (R175 to R177) -/

set_option Elab.async false

namespace Sys2Proof.Machine

section

theorem SCode.code_lt (c : SCode) : c.code.1 < 0x10 ∧ c.code.2 < 64 := by cases c <;> decide
theorem VCode.code_lt (c : VCode) : 0x10 ≤ c.code.1 ∧ c.code.1 < 0x20 ∧ c.code.2 < 64 := by cases c <;> decide
theorem PCode.code_lt (c : PCode) : 0x20 ≤ c.code.1 ∧ c.code.1 < 0x28 ∧ c.code.2 < 16 := by cases c <;> decide
theorem MCode.code_lt (c : MCode) : 0x28 ≤ c.code.1 ∧ c.code.1 < 0x30 ∧ c.code.2 < 16 := by cases c <;> decide
theorem XCode.code_lt (c : XCode) : 0x30 ≤ c.code.1 ∧ c.code.1 < 0x38 ∧ c.code.2 < 16 := by cases c <;> decide

theorem SCode.ofCode_code (c : SCode) : SCode.ofCode c.code.1 c.code.2 = some c := by cases c <;> rfl
theorem VCode.ofCode_code (c : VCode) : VCode.ofCode c.code.1 c.code.2 = some c := by cases c <;> rfl
theorem PCode.ofCode_code (c : PCode) : PCode.ofCode c.code.1 c.code.2 = some c := by cases c <;> rfl
theorem MCode.ofCode_code (c : MCode) : MCode.ofCode c.code.1 c.code.2 = some c := by cases c <;> rfl
theorem XCode.ofCode_code (c : XCode) : XCode.ofCode c.code.1 c.code.2 = some c := by cases c <;> rfl

/-! The major opcode stands in the highest six bits, the minor code in the next six or four (R175, R176). -/

theorem codes_encodeBay_s (c : SCode) (f : SFields) : ((encodeBay (.s c f)).extractLsb' 58 6).toNat = c.code.1
    ∧ ((encodeBay (.s c f)).extractLsb' 52 6).toNat = c.code.2 := by
  simp (disch := decide) only [encodeBay, BitVec.extractLsb'_append_eq_of_le, BitVec.extractLsb'_append_eq_of_add_le, Nat.reduceSub,
    BitVec.extractLsb'_eq_self, BitVec.toNat_ofNat]
  exact ⟨Nat.mod_eq_of_lt (c.code_lt.1.trans (by decide)), Nat.mod_eq_of_lt c.code_lt.2⟩

theorem codes_encodeBay_v (c : VCode) (f : VFields) : ((encodeBay (.v c f)).extractLsb' 58 6).toNat = c.code.1
    ∧ ((encodeBay (.v c f)).extractLsb' 52 6).toNat = c.code.2 := by
  simp (disch := decide) only [encodeBay, BitVec.extractLsb'_append_eq_of_le, BitVec.extractLsb'_append_eq_of_add_le, Nat.reduceSub,
    BitVec.extractLsb'_eq_self, BitVec.toNat_ofNat]
  exact ⟨Nat.mod_eq_of_lt (c.code_lt.2.1.trans (by decide)), Nat.mod_eq_of_lt c.code_lt.2.2⟩

theorem codes_encodeBay_p (c : PCode) (f : PFields) : ((encodeBay (.p c f)).extractLsb' 58 6).toNat = c.code.1
    ∧ ((encodeBay (.p c f)).extractLsb' 54 4).toNat = c.code.2 := by
  simp (disch := decide) only [encodeBay, BitVec.extractLsb'_append_eq_of_le, BitVec.extractLsb'_append_eq_of_add_le, Nat.reduceSub,
    BitVec.extractLsb'_eq_self, BitVec.toNat_ofNat]
  exact ⟨Nat.mod_eq_of_lt (c.code_lt.2.1.trans (by decide)), Nat.mod_eq_of_lt c.code_lt.2.2⟩

theorem codes_encodeBay_m (c : MCode) (f : MFields) : ((encodeBay (.m c f)).extractLsb' 58 6).toNat = c.code.1
    ∧ ((encodeBay (.m c f)).extractLsb' 54 4).toNat = c.code.2 := by
  simp (disch := decide) only [encodeBay, BitVec.extractLsb'_append_eq_of_le, BitVec.extractLsb'_append_eq_of_add_le, Nat.reduceSub,
    BitVec.extractLsb'_eq_self, BitVec.toNat_ofNat]
  exact ⟨Nat.mod_eq_of_lt (c.code_lt.2.1.trans (by decide)), Nat.mod_eq_of_lt c.code_lt.2.2⟩

theorem codes_encodeBay_x (c : XCode) (f : XFields) : ((encodeBay (.x c f)).extractLsb' 58 6).toNat = c.code.1
    ∧ ((encodeBay (.x c f)).extractLsb' 54 4).toNat = c.code.2 := by
  simp (disch := decide) only [encodeBay, BitVec.extractLsb'_append_eq_of_le, BitVec.extractLsb'_append_eq_of_add_le, Nat.reduceSub,
    BitVec.extractLsb'_eq_self, BitVec.toNat_ofNat]
  exact ⟨Nat.mod_eq_of_lt (c.code_lt.2.1.trans (by decide)), Nat.mod_eq_of_lt c.code_lt.2.2⟩

/-- The fields of a word decode as they were encoded. -/
theorem sFieldsOf_encodeBay (c : SCode) (f : SFields) : sFieldsOf (encodeBay (.s c f)) = f := by
  simp (disch := decide) only [sFieldsOf, encodeBay, BitVec.extractLsb'_append_eq_of_le, BitVec.extractLsb'_append_eq_of_add_le,
    Nat.reduceSub, BitVec.extractLsb'_eq_self]

theorem vFieldsOf_encodeBay (c : VCode) (f : VFields) : vFieldsOf (encodeBay (.v c f)) = f := by
  simp (disch := decide) only [vFieldsOf, encodeBay, BitVec.extractLsb'_append_eq_of_le, BitVec.extractLsb'_append_eq_of_add_le,
    Nat.reduceSub, BitVec.extractLsb'_eq_self]

theorem pFieldsOf_encodeBay (c : PCode) (f : PFields) : pFieldsOf (encodeBay (.p c f)) = f := by
  simp (disch := decide) only [pFieldsOf, encodeBay, BitVec.extractLsb'_append_eq_of_le, BitVec.extractLsb'_append_eq_of_add_le,
    Nat.reduceSub, BitVec.extractLsb'_eq_self]

theorem mFieldsOf_encodeBay (c : MCode) (f : MFields) : mFieldsOf (encodeBay (.m c f)) = f := by
  simp (disch := decide) only [mFieldsOf, encodeBay, BitVec.extractLsb'_append_eq_of_le, BitVec.extractLsb'_append_eq_of_add_le,
    Nat.reduceSub, BitVec.extractLsb'_eq_self]

theorem xFieldsOf_encodeBay (c : XCode) (f : XFields) : xFieldsOf (encodeBay (.x c f)) = f := by
  simp (disch := decide) only [xFieldsOf, encodeBay, BitVec.extractLsb'_append_eq_of_le, BitVec.extractLsb'_append_eq_of_add_le,
    Nat.reduceSub, BitVec.extractLsb'_eq_self]

/-- Every instruction decodes from its word: the major opcode names its format, the minor code the instruction. -/
theorem decodeBay_encodeBay (i : BayInstr) : decodeBay (encodeBay i) = some i := by
  cases i with
  | s c f =>
    obtain ⟨hmajor, hminor⟩ := codes_encodeBay_s c f
    dsimp only [decodeBay]
    rw [hmajor, hminor, if_pos c.code_lt.1, SCode.ofCode_code, sFieldsOf_encodeBay]
    rfl
  | v c f =>
    obtain ⟨hmajor, hminor⟩ := codes_encodeBay_v c f
    obtain ⟨hlo, hhi, -⟩ := c.code_lt
    dsimp only [decodeBay]
    rw [hmajor, hminor, if_neg (by omega), if_pos hhi, VCode.ofCode_code, vFieldsOf_encodeBay]
    rfl
  | p c f =>
    obtain ⟨hmajor, hminor⟩ := codes_encodeBay_p c f
    obtain ⟨hlo, hhi, -⟩ := c.code_lt
    dsimp only [decodeBay]
    rw [hmajor, hminor, if_neg (by omega), if_neg (by omega), if_pos hhi, PCode.ofCode_code, pFieldsOf_encodeBay]
    rfl
  | m c f =>
    obtain ⟨hmajor, hminor⟩ := codes_encodeBay_m c f
    obtain ⟨hlo, hhi, -⟩ := c.code_lt
    dsimp only [decodeBay]
    rw [hmajor, hminor, if_neg (by omega), if_neg (by omega), if_neg (by omega), if_pos hhi, MCode.ofCode_code, mFieldsOf_encodeBay]
    rfl
  | x c f =>
    obtain ⟨hmajor, hminor⟩ := codes_encodeBay_x c f
    obtain ⟨hlo, hhi, -⟩ := c.code_lt
    dsimp only [decodeBay]
    rw [hmajor, hminor, if_neg (by omega), if_neg (by omega), if_neg (by omega), if_neg (by omega), if_pos hhi,
      XCode.ofCode_code, xFieldsOf_encodeBay]
    rfl

/-- A word whose fields follow its row is no reserved encoding (R177). -/
theorem isReserved_encodeBay {i : BayInstr} (h : i.fieldsOk = true) : isReserved (encodeBay i) = false := by
  rw [isReserved, decodeBay_encodeBay]
  exact congrArg (!·) h

end

end Sys2Proof.Machine
end

section

/-! ### Precise faults: address checks and reserved encodings (R67, R68, R76, R177, R178) -/

set_option Elab.async false

namespace Sys2Proof.Machine

section
variable {s : State} {b : BayId} {t : Thread} {f : SFields} {cause : Code}

theorem preciseFault_keepsBays (s : State) (b : BayId) (t : Thread) (cause : Code) :
    Safety.keepsBays s (s.preciseFault b t cause) b := fun _ hc => State.bay_updThr_ne _ _ _ _ _ hc

@[simp] theorem fetched_stop (s : State) (b : BayId) (t : Thread) : ((Safety.fetched s b t).thr b t).stop = (s.thr b t).stop := by
  rw [fetched_thr]

/-- A thread in RUN that no stop condition has met takes the fault as its first. -/
theorem stopOn_of_run {r : ThreadRec} (hst : r.status.st = .run) (hstop : r.stop = none) (source flag : BitVec 4) (qseq : BitVec 12)
    (pc : BitVec 20) (gd : BitVec 5) (engine : Bool) :
    r.stopOn cause source flag qseq pc gd engine = r.record cause source flag qseq pc gd engine := by
  rw [ThreadRec.stopOn, hst, if_pos (by rfl), hstop]

/-- What a precise fault of the fetched state shows (R68, R76, R178). -/
theorem faulted_shows (hst : (s.thr b t).status.st = .run) (hstop : (s.thr b t).stop = none) {s' : State}
    (hs : s' = (Safety.fetched s b t).preciseFault b t cause) :
    (s'.thr b t).status = { (s.thr b t).status with
      faultPc := (s.thr b t).pc, cause := cause, source := 1, qseq := 0, flag := 0, pendG := 0, st := .drain }
      ∧ (s'.thr b t).g = (s.thr b t).g ∧ (s'.thr b t).pc = (s.thr b t).pc ∧ s'.mem = s.mem ∧ Safety.keepsBays s s' b
      ∧ Safety.keepsRegs s s' (Safety.issueRegs b) := by
  have hthr : s'.thr b t = ((Safety.fetched s b t).thr b t).record cause 1 0 0 (s.thr b t).pc 0 false := by
    rw [hs, State.preciseFault, State.thr_updThr_self, stopOn_of_run (by rwa [fetched_status]) (by rwa [fetched_stop]), fetched_pc]
  refine ⟨?_, ?_, ?_, hs ▸ fetched_mem s b t, fun c hc => ?_, hs ▸ fetched_reg s b t⟩
  · rw [hthr, ThreadRec.record, fetched_status]
  · rw [hthr, ThreadRec.record, fetched_thr]
  · rw [hthr, ThreadRec.record, fetched_pc]
  · rw [hs, preciseFault_keepsBays _ _ _ _ c hc, fetched_keepsBays s b t c hc]

/-- A ready instruction that fails a check stops with it, MALFORMED before RANGE (R178). -/
theorem run_of_failed {i : BayInstr} {chk : Check} (h : Safety.ready s b t i)
    (hchk : chk.mal = true ∧ cause = cMALFORMED ∨ chk.mal = false ∧ chk.rng = true ∧ cause = cRANGE) (eff : State → State) :
    (issueGate s b t i chk).run s eff = (Safety.fetched s b t).preciseFault b t cause := by
  rw [issueGate_of_ready chk h]
  obtain ⟨hm, rfl⟩ | ⟨hm, hr, rfl⟩ := hchk
  · rw [if_pos hm, run_stop]
  · rw [if_neg (by simp [hm]), if_pos hr, run_stop]

/-- The address of a load or store fails a check of R185. -/
theorem memCheck_failed {pc : BitVec 20} {a : Word} {n : Nat}
    (h : a.toNat % n ≠ 0 ∧ cause = cMALFORMED ∨ a.toNat % n = 0 ∧ 0x100000 < a.toNat + n ∧ cause = cRANGE) :
    (memCheck pc a n).mal = true ∧ cause = cMALFORMED
      ∨ (memCheck pc a n).mal = false ∧ (memCheck pc a n).rng = true ∧ cause = cRANGE := by
  refine h.imp (.imp_left fun hm => ?_) fun ⟨hm, hr, hc⟩ => ⟨?_, ?_, hc⟩
  · simp [memCheck, endCheck, Check.and, hm]
  · simp [memCheck, endCheck, Check.and, hm]
  · simp [memCheck, endCheck, Check.and, hr]

/-- So does the target of JALR: one above 0xF_FFF8. -/
theorem jalrCheck_failed {a : Word}
    (h : a.toNat % 8 ≠ 0 ∧ cause = cMALFORMED ∨ a.toNat % 8 = 0 ∧ 0x100000 < a.toNat + 8 ∧ cause = cRANGE) :
    decide (a.toNat % 8 ≠ 0) = true ∧ cause = cMALFORMED
      ∨ decide (a.toNat % 8 ≠ 0) = false ∧ decide (0xFFFF8 < a.toNat) = true ∧ cause = cRANGE :=
  h.imp (.imp_left decide_eq_true) fun ⟨hm, hr, hc⟩ => ⟨decide_eq_false (not_not_intro hm), decide_eq_true (by omega), hc⟩

/-- A reserved encoding stops the thread that reaches it (R177). -/
theorem opReserved_faults {w : Word} (hw : isReserved w = true) (hg : s.gated = false) (hst : (s.thr b t).status.st = .run)
    (hwait : (s.thr b t).waitFor = .none) (hfetch : (s.fetchLine b t).2 = false) :
    opReserved s b t w = (Safety.fetched s b t).preciseFault b t cMALFORMED := by
  unfold opReserved
  dsimp only
  rw [if_neg (by simp [hg, issues_of_run hst hwait, hw]), hfetch, if_neg Bool.false_ne_true]
  rfl

end

end Sys2Proof.Machine

namespace Sys2Proof
open Machine

/-- Settles O12: the failed check of the row decides the precise fault of the fetched state. -/
theorem loadAndStoreAddressChecks : Obligations.LoadAndStoreAddressChecks := by
  unfold Obligations.LoadAndStoreAddressChecks
  intro p hp b t f s a cause h hstop ha hbad
  have hrun : Machine.exec (p.2.1 b t f) s = .next ((Safety.fetched s b t).preciseFault b t cause) := by
    subst ha
    simp only [List.mem_cons, List.not_mem_nil, or_false] at hp
    obtain rfl | rfl | rfl | rfl | rfl | rfl | rfl | rfl | rfl | rfl | rfl | rfl := hp
    on_goal 12 => exact congrArg Host.Outcome.next (run_of_failed h (jalrCheck_failed hbad) _)
    all_goals exact congrArg Host.Outcome.next (run_of_failed h (memCheck_failed hbad) _)
  obtain ⟨-, hst, -⟩ := h
  obtain ⟨hstatus, hg, hpc, hmem, hbays, -⟩ := faulted_shows hst hstop rfl
  exact ⟨_, hrun, hstatus, hg, hpc, hmem, hbays⟩

/-- Settles O13: the fault is that of the fetched state, and an encoding that follows its row decodes to itself. -/
theorem reservedEncodingFaults : Obligations.ReservedEncodingFaults := by
  unfold Obligations.ReservedEncodingFaults
  refine ⟨fun b t w s hw hg hst hwait hfetch hstop => ?_, fun i hi => isReserved_encodeBay hi⟩
  obtain ⟨hstatus, -, -, hmem, hbays, hregs⟩ := faulted_shows hst hstop rfl
  exact ⟨_, congrArg Host.Outcome.next (opReserved_faults hw hg hst hwait hfetch), hstatus, hmem, hbays, hregs⟩

end Sys2Proof
end

section

/-! ### Branches and jumps (R49, R181, R184, R185) -/

set_option Elab.async false

namespace Sys2Proof.Machine

section
variable {s : State} {b : BayId} {t : Thread} {f : SFields}

/-- A target within bay memory. -/
theorem targetBad_of_le {x : Nat} (h : x ≤ 0xFFFF8) : targetBad (x : Int) = false := by
  simp only [targetBad, Bool.or_eq_false_iff, decide_eq_false_iff_not]
  omega

theorem ofInt_target (x : Nat) : BitVec.ofInt 20 (x : Int) = BitVec.ofNat 20 x := BitVec.ofInt_natCast 20 x

/-- A taken branch goes to its target and discards the buffered line. -/
theorem opBranch_taken {c : SCode} {o : CondOp} {x : Nat} (h : Safety.ready s b t (.s c f))
    (ho : o.holds ((s.thr b t).getG f.ga) ((s.thr b t).getG f.gb) = true) (hx : (x : Int) = relTarget (s.thr b t).pc f.imm)
    (hle : x ≤ 0xFFFF8) :
    opBranch c o b t f s = (Safety.fetched s b t).updThr b t fun r => { r with pc := BitVec.ofNat 20 x, line := none } := by
  unfold opBranch
  dsimp only
  rw [ho, ← hx, run_of_ready h rfl (targetBad_of_le hle), ofInt_target]
  rfl

/-- A branch that is not taken moves on. -/
theorem opBranch_passed {c : SCode} {o : CondOp} (h : Safety.ready s b t (.s c f)) (hl : Safety.notLast s b t)
    (ho : o.holds ((s.thr b t).getG f.ga) ((s.thr b t).getG f.gb) = false) :
    opBranch c o b t f s = (Safety.fetched s b t).updThr b t fun r => { r with pc := (s.thr b t).pc + 8 } := by
  unfold opBranch
  dsimp only
  rw [ho]
  exact (run_endCheck h hl _).trans (updThr_congr (by simp [ThreadRec.advance]))

/-- The link is written and the target follows. -/
theorem link_jump (s : State) (b : BayId) (t : Thread) (gd : BitVec 5) (x : BitVec 20) :
    ((Safety.fetched s b t).updThr b t fun r => (r.setG gd (linkOf r.pc)).jump x)
      = (Safety.fetched s b t).updThr b t fun r =>
        { r.setG gd (BitVec.ofNat 64 ((s.thr b t).pc.toNat + 8)) with pc := x, line := none } :=
  updThr_congr (by rw [ThreadRec.jump, linkOf, fetched_pc])

theorem opJal_of_ready {x : Nat} (h : Safety.ready s b t (.s .jal f)) (hx : (x : Int) = relTarget (s.thr b t).pc f.imm)
    (hle : x ≤ 0xFFFF8) : opJal b t f s = (Safety.fetched s b t).updThr b t fun r =>
      { r.setG f.gd (BitVec.ofNat 64 ((s.thr b t).pc.toNat + 8)) with pc := BitVec.ofNat 20 x, line := none } := by
  unfold opJal
  dsimp only
  rw [← hx, run_of_ready h rfl (targetBad_of_le hle), ofInt_target]
  exact link_jump ..

theorem opJalr_of_ready {x : Nat} (h : Safety.ready s b t (.s .jalr f))
    (hx : x = ((s.thr b t).getG f.ga + f.imm.signExtend 64).toNat) (h8 : x % 8 = 0) (hle : x ≤ 0xFFFF8) :
    opJalr b t f s = (Safety.fetched s b t).updThr b t fun r =>
      { r.setG f.gd (BitVec.ofNat 64 ((s.thr b t).pc.toNat + 8)) with pc := BitVec.ofNat 20 x, line := none } := by
  subst hx
  exact (run_of_ready h (decide_eq_false (not_not_intro h8)) (decide_eq_false (Nat.not_lt.mpr hle)) _).trans (link_jump ..)

end

end Sys2Proof.Machine

namespace Sys2Proof
open Machine

/-- Settles O10: a branch by its condition, the two jumps by their own lemmas. -/
theorem branchesAndJumps : Obligations.BranchesAndJumps := by
  unfold Obligations.BranchesAndJumps
  refine ⟨fun p hp b t f s h => ?_, fun b t f s x h hx hle => congrArg _ (opJal_of_ready h hx hle),
    fun b t f s x h hx h8 hle => congrArg _ (opJalr_of_ready h hx h8 hle)⟩
  obtain ⟨o, ho, hrun⟩ : ∃ o : CondOp, (∀ x y, o.holds x y = p.2.2 x y)
      ∧ Machine.exec (p.2.1 b t f) s = .next (opBranch p.1 o b t f s) := by
    simp only [List.mem_cons, List.not_mem_nil, or_false] at hp
    obtain rfl | rfl | rfl | rfl | rfl | rfl := hp
    exacts [⟨.eq, fun _ _ => rfl, rfl⟩, ⟨.ne, fun _ _ => rfl, rfl⟩, ⟨.lt, fun _ _ => rfl, rfl⟩, ⟨.ge, fun _ _ => rfl, rfl⟩,
      ⟨.ltu, fun _ _ => rfl, rfl⟩, ⟨.geu, fun _ _ => rfl, rfl⟩]
  rw [← ho, hrun]
  exact ⟨fun hc x hx hle => congrArg _ (opBranch_taken h hc hx hle), fun hc hl => congrArg _ (opBranch_passed h hl hc)⟩

end Sys2Proof
end

section

/-! ### What an instruction of the scalar pipe leaves (R41, R68, R178) -/

set_option Elab.async false

namespace Sys2Proof.Machine

/-- Between two states memory is kept, of bay `b` all but thread `t`, of that thread every g register but `gd`, and of the registers
all but those that issue counts in. -/
structure ScalarFrame (b : BayId) (t : Thread) (gd : BitVec 5) (s u : State) : Prop where
  mem : u.mem = s.mem
  bays : Safety.keepsBays s u b
  bay : u.bay b = (s.bay b).setThr t (u.thr b t)
  regs : Safety.keepsRegs s u (Safety.issueRegs b)
  g : ∀ i, i ≠ gd → (u.thr b t).getG i = (s.thr b t).getG i

section
variable {s u : State} {b : BayId} {t : Thread} {gd : BitVec 5}

theorem ThreadRec.getG_of_g {q r : ThreadRec} (h : q.g = r.g) (i : BitVec 5) : q.getG i = r.getG i := by
  rw [ThreadRec.getG, ThreadRec.getG, h]

theorem ThreadRec.getG_setG_ne (r : ThreadRec) {i gd : BitVec 5} (h : i ≠ gd) (v : Word) : (r.setG gd v).getG i = r.getG i := by
  rw [ThreadRec.getG_setG, if_neg fun x => h x.1]

@[simp] theorem ThreadRec.record_g (r : ThreadRec) (cause : Code) (source flag : BitVec 4) (qseq : BitVec 12) (pc : BitVec 20)
    (gd : BitVec 5) (engine : Bool) : (r.record cause source flag qseq pc gd engine).g = r.g := rfl

/-- A stop condition leaves the g registers (R68). -/
theorem ThreadRec.stopOn_g (r : ThreadRec) (cause : Code) (source flag : BitVec 4) (qseq : BitVec 12) (pc : BitVec 20)
    (gd : BitVec 5) (engine : Bool) : (r.stopOn cause source flag qseq pc gd engine).g = r.g := by
  unfold ThreadRec.stopOn
  split
  · split
    · rfl
    · split
      · exact (apply_ite ThreadRec.g ..).trans (ite_self _)
      · rfl
  · rfl

theorem ScalarFrame.refl (s : State) (b : BayId) (t : Thread) (gd : BitVec 5) : ScalarFrame b t gd s s :=
  ⟨rfl, fun _ _ => rfl, (Bay.setThr_thr ..).symm, fun _ _ => rfl, fun _ _ => rfl⟩

/-- The thread changed, its g registers but `gd` kept. -/
theorem ScalarFrame.updThr (h : ScalarFrame b t gd s u) {f : ThreadRec → ThreadRec} (hf : ∀ r i, i ≠ gd → (f r).getG i = r.getG i) :
    ScalarFrame b t gd s (u.updThr b t f) where
  mem := h.mem
  bays c hc := (State.bay_updThr_ne _ _ _ _ _ hc).trans (h.bays c hc)
  bay := by rw [State.bay_updThr_self, h.bay, Bay.setThr_setThr, State.thr_updThr_self]
  regs := h.regs
  g i hi := by rw [State.thr_updThr_self, hf _ _ hi, h.g i hi]

/-- Registers that issue counts in, and parts of the state that hold no bay. -/
theorem ScalarFrame.of_bays {v : State} (h : ScalarFrame b t gd s u) (hmem : v.mem = u.mem) (hbays : v.bays = u.bays)
    (hregs : Safety.keepsRegs u v (Safety.issueRegs b)) : ScalarFrame b t gd s v := by
  have hbay : ∀ c, v.bay c = u.bay c := fun c => congrArg (fun m => smapGet (fun _ => Bay.reset) m c.toNat) hbays
  have hthr : v.thr b t = u.thr b t := congrArg (·.thr t) (hbay b)
  exact ⟨hmem.trans h.mem, fun c hc => (hbay c).trans (h.bays c hc), by rw [hbay, hthr, h.bay],
    fun a ha => (hregs a ha).trans (h.regs a ha), fun i hi => by rw [hthr, h.g i hi]⟩

theorem ScalarFrame.fetched (s : State) (b : BayId) (t : Thread) (gd : BitVec 5) : ScalarFrame b t gd s (Safety.fetched s b t) where
  mem := fetched_mem s b t
  bays := fetched_keepsBays s b t
  bay := fetched_bay s b t
  regs := fetched_reg s b t
  g i _ := by rw [fetched_thr]; rfl

theorem ScalarFrame.preciseFault (h : ScalarFrame b t gd s u) {cause : Code} : ScalarFrame b t gd s (u.preciseFault b t cause) :=
  h.updThr fun r i _ => ThreadRec.getG_of_g (r.stopOn_g ..) i

theorem ScalarFrame.bitsEvent (h : ScalarFrame b t gd s u) {cause : Code} : ScalarFrame b t gd s (u.bitsEvent cause) :=
  h.of_bays (State.bitsEvent_mem ..) (State.bitsEvent_bays ..) fun _ ha =>
    State.reg_bitsEvent_ne _ _ _ fun e => ha (List.mem_cons_of_mem _ (List.mem_singleton.mpr e))

theorem ScalarFrame.putG (h : ScalarFrame b t gd s u) {v : Word} : ScalarFrame b t gd s (u.putG b t gd v) :=
  h.updThr fun r _ hi => r.getG_setG_ne hi v

theorem ScalarFrame.scribeCopy (h : ScalarFrame b t gd s u) : ScalarFrame b t gd s (u.scribeCopy b).1 :=
  h.of_bays rfl rfl fun _ _ => rfl

/-- Whatever becomes of an instruction at the gate, the frame holds where its effect keeps it. -/
theorem ScalarFrame.run {i : BayInstr} {chk : Check} {eff : State → State}
    (heff : ∀ u, ScalarFrame b t gd s u → ScalarFrame b t gd s (eff u)) :
    ScalarFrame b t gd s ((issueGate s b t i chk).run s eff) := by
  have hstall := ScalarFrame.refl s b t gd
  have hfetch : ScalarFrame b t gd s (s.fetchLine b t).1 := ScalarFrame.fetched s b t gd
  unfold issueGate
  dsimp only
  split
  · exact hstall
  · split
    · exact hfetch.bitsEvent.preciseFault
    · split
      · exact hfetch.preciseFault
      · split
        · rw [run_stop]
          exact hfetch.updThr fun r i _ => ThreadRec.getG_of_g (r.stopOn_g ..) i
        · split
          · exact hstall
          · split
            · exact hstall
            · split
              · exact hfetch.preciseFault
              · split
                · exact hfetch.preciseFault
                · exact heff _ hfetch

/-- RDSYS writes GD alone, whichever value it reads. -/
theorem ScalarFrame.rdsys (h : ScalarFrame b t gd s u) (n : Nat) (vl : Word) : ScalarFrame b t gd s (match n with
    | 0 => u.putG b t gd (b.setWidth 64)
    | 1 => u.putG b t gd (if t = .seam then 1 else 0)
    | 2 => u.putG b t gd (u.devCoord.setWidth 64)
    | 3 => (u.scribeCopy b).1.putG b t gd (u.scribeCopy b).2
    | _ => u.putG b t gd vl) := by
  split
  case h_4 => exact h.scribeCopy.putG
  all_goals exact h.putG

end

end Sys2Proof.Machine

namespace Sys2Proof
open Machine

/-- Settles O11: every row runs at the gate an effect that keeps the frame. -/
theorem scalarRegisterFrame : Obligations.ScalarRegisterFrame := by
  unfold Obligations.ScalarRegisterFrame
  intro c hc b t f s s' h
  obtain ⟨i, chk, eff, hrun, heff⟩ : ∃ (i : BayInstr) (chk : Check) (eff : State → State),
      Machine.exec (c b t f) s = .next ((issueGate s b t i chk).run s eff)
        ∧ ∀ u, ScalarFrame b t f.gd s u → ScalarFrame b t f.gd s (eff u) := by
    simp only [List.mem_cons, List.not_mem_nil, or_false] at hc
    obtain rfl | rfl | rfl | rfl | rfl | rfl | rfl | rfl | rfl | rfl | rfl | rfl | rfl | rfl | rfl | rfl | rfl | rfl | rfl | rfl | rfl
      | rfl | rfl | rfl | rfl | rfl | rfl | rfl | rfl | rfl | rfl | rfl | rfl | rfl | rfl | rfl | rfl | rfl | rfl | rfl | rfl | rfl
      | rfl | rfl | rfl | rfl | rfl | rfl | rfl := hc
    iterate 39 exact ⟨_, _, _, rfl, fun _ hu => hu.putG⟩
    iterate 6 exact ⟨_, _, _, rfl, fun _ hu => hu.updThr fun r i _ => ThreadRec.getG_of_g (by split <;> rfl) i⟩
    iterate 2 exact ⟨_, _, _, rfl, fun _ hu => hu.updThr fun r _ hi => r.getG_setG_ne hi _⟩
    · exact ⟨_, _, _, rfl, fun _ hu => hu.updThr fun r _ hi => r.getG_setG_ne hi _⟩
    · exact ⟨_, _, _, rfl, fun _ hu => hu.rdsys _ _⟩
  obtain ⟨hmem, hbays, hbay, hregs, hg⟩ : ScalarFrame b t f.gd s s' := by
    rw [hrun] at h
    exact Host.Outcome.next.inj h ▸ ScalarFrame.run heff
  exact ⟨hmem, hbays, hbay, hregs, hg⟩

end Sys2Proof
end

section

/-! ### Vector instructions enter their queue (R45, R48, R64, R148 to R153, R163) -/

set_option Elab.async false

namespace Sys2Proof.Machine

/-- What issue keeps: memory, every other bay, and the registers but those that it counts in. -/
structure IssueFrame (b : BayId) (s u : State) : Prop extends KeepsBeside b s u where
  regs : Safety.keepsRegs s u (Safety.issueRegs b)

section
variable {s u : State} {b : BayId} {t : Thread}

theorem IssueFrame.fetched (s : State) (b : BayId) (t : Thread) : IssueFrame b s (Safety.fetched s b t) :=
  ⟨.fetched s b t, fetched_reg s b t⟩

theorem IssueFrame.updBay (h : IssueFrame b s u) (f : Bay → Bay) : IssueFrame b s (u.updBay b f) :=
  ⟨h.trans ⟨rfl, fun _ hc => State.bay_updBay_ne _ _ _ _ hc⟩, h.regs⟩

theorem IssueFrame.eccRead (h : IssueFrame b s u) {o n : Nat} : IssueFrame b s (u.eccRead b o n).1 :=
  ⟨h.toKeepsBeside.eccRead, fun a ha => (State.eccRead_reg _ _ _ _ _ ha).trans (h.regs a ha)⟩

theorem fetched_getG (s : State) (b : BayId) (t : Thread) (i : BitVec 5) :
    ((Safety.fetched s b t).thr b t).getG i = (s.thr b t).getG i := by
  rw [fetched_thr]
  rfl

theorem fetched_qseq (s : State) (b : BayId) (t : Thread) : ((Safety.fetched s b t).thr b t).qseq = (s.thr b t).qseq := by
  rw [fetched_thr]

theorem fetched_vl (s : State) (b : BayId) (t : Thread) : ((Safety.fetched s b t).thr b t).vl = (s.thr b t).vl := by
  rw [fetched_thr]

theorem Bay.thr_setThr_ne (y : Bay) (r : ThreadRec) {t u : Thread} (h : u ≠ t) : (y.setThr t r).thr u = y.thr u :=
  match t, u, h with
  | .main, .seam, _ => rfl
  | .seam, .main, _ => rfl
  | .main, .main, h => absurd rfl h
  | .seam, .seam, h => absurd rfl h

/-- A fetch does not touch the other thread of the bay. -/
theorem fetched_thr_ne (s : State) (b : BayId) {t u : Thread} (h : u ≠ t) : (Safety.fetched s b t).thr b u = s.thr b u := by
  rw [State.thr_eq, fetched_bay, Bay.thr_setThr_ne _ _ h]
  rfl

/-- The g destination marked and the next QSEQ taken, as issue leaves a thread (R48, R64). -/
theorem mark_took (r : ThreadRec) (g : Option (BitVec 5)) : (r.mark g false).took = Safety.issued r g := by
  cases g with
  | none => simp [ThreadRec.mark, ThreadRec.took, Safety.issued]
  | some i =>
    dsimp only [ThreadRec.mark, ThreadRec.took, Safety.issued]
    by_cases h : i = 0
    · rw [if_pos ⟨h, rfl⟩, if_pos h, List.append_nil]
    · rw [if_neg fun x => h x.1, if_neg h]

/-- A bay with an entry behind those of a thread's vector queue. -/
def Bay.pushVec (y : Bay) (t : Thread) (e : VecEntry) : Bay :=
  match t with
  | .main => { y with mainVq := y.mainVq ++ [e] }
  | .seam => { y with seamVq := y.seamVq ++ [e] }

/-- Of its bay a vector issue changes the queue and the thread. -/
theorem pushVec_shows (y : Bay) (t : Thread) (e : VecEntry) (q r : ThreadRec) {y' : Bay}
    (h : y' = ((y.setThr t q).pushVec t e).setThr t r) : Safety.vecQueue y' t = Safety.vecQueue y t ++ [e] ∧ y'.thr t = r ∧ y'.v = y.v
      ∧ y'.m = y.m ∧ y'.pq = y.pq ∧ ∀ u, u ≠ t → Safety.vecQueue y' u = Safety.vecQueue y u ∧ y'.thr u = y.thr u := by
  subst h
  cases t with
  | main => exact ⟨rfl, rfl, rfl, rfl, rfl, fun u hu => match u, hu with | .seam, _ => ⟨rfl, rfl⟩⟩
  | seam => exact ⟨rfl, rfl, rfl, rfl, rfl, fun u hu => match u, hu with | .main, _ => ⟨rfl, rfl⟩⟩

/-! #### The checks of a V-format row -/

theorem fieldOf_offset {x : Word} (h : x.toNat < 0x100000) : fieldOf x 0 20 = x.toNat := by
  rw [fieldOf, BitVec.extractLsb'_toNat, Nat.shiftRight_zero]
  exact Nat.mod_eq_of_lt h

/-- The check of a whole-register copy (R155). -/
theorem wholeRegisterCheck {x : Word} (h : x.toNat % 64 = 0 ∧ x.toNat + 256 ≤ 0x100000) :
    (⟨decide (fieldOf x 0 20 % 64 ≠ 0) || fieldOf x 20 44 != 0, decide (0x100000 < fieldOf x 0 20 + 256)⟩ : Check) = .none := by
  obtain ⟨h64, hle⟩ := h
  have hlt : x.toNat < 0x100000 := by omega
  rw [fieldOf_offset hlt, fieldOf_above_offset hlt, h64, decide_eq_false (Nat.not_lt.mpr hle)]
  rfl

/-- Operands within the checks of the row pass them. -/
theorem vecCheck_none {r : ThreadRec} {c : VCode} {f : VFields} (h : Safety.vecOperands r c f) : vecCheck r c f = .none := by
  obtain ⟨hlast, hmask, hvl, hrow⟩ := h
  have hwidths : ((c.widths f).any fun w => decide (vCap w < r.vl.toNat)) = false := by
    simpa [List.any_eq_false] using hvl
  have hbase : ∀ k : Check, k = .none → (Check.mk (!c.maskNamesOk f)
      (decide (r.pc = lastPc) || (c.widths f).any fun w => decide (vCap w < r.vl.toNat))).and k = .none := by
    rintro k rfl
    simp [Check.and, Check.none, hmask, hwidths, hlast]
  refine hbase _ ?_
  cases c
  case vcvt => simpa [Check.none] using hrow
  case vld | vst => exact hrow
  case vldR | vstR => exact wholeRegisterCheck hrow
  case redTopk =>
    simp only [Check.none, Check.mk.injEq, true_and, Bool.and_eq_false_iff, decide_eq_false_iff_not]
    obtain h0 | hle := hrow
    · exact .inl (by simp [h0])
    · omega
  all_goals rfl

/-- The entry of a vector instruction. -/
def vecEntryOf (s : State) (b : BayId) (t : Thread) (c : VCode) (f : VFields) : VecEntry :=
  { qseq := (s.thr b t).qseq, pc := (s.thr b t).pc, vl := (s.thr b t).vl
    op := .instr c f ((s.thr b t).getG f.gx) ((s.thr b t).getG f.gy) }

/-- A ready vector instruction enters its queue. -/
theorem opVecIssue_bay {c : VCode} {f : VFields} (h : Safety.ready s b t (.v c f)) (ho : Safety.vecOperands (s.thr b t) c f) :
    ∃ g, opVecIssue c b t f s = (Safety.fetched s b t).updBay b g ∧ g ((Safety.fetched s b t).bay b)
      = (((Safety.fetched s b t).bay b).pushVec t (vecEntryOf s b t c f)).setThr t
        (Safety.issued ((Safety.fetched s b t).thr b t) (c.writes f)) := by
  have hchk := vecCheck_none ho
  refine ⟨_, run_of_ready h (congrArg Check.mal hchk) (congrArg Check.rng hchk) _, ?_⟩
  rw [← mark_took, vecEntryOf, ← fetched_qseq s b t, ← fetched_pc s b t, ← fetched_vl s b t,
    ← fetched_getG s b t, ← fetched_getG s b t]
  cases t <;> rfl

end

end Sys2Proof.Machine

namespace Sys2Proof
open Machine

/-- Settles O15: every row issues by `opVecIssue_bay`, and `pushVec_shows` says what that changes. -/
theorem vectorInstructionsIssue : Obligations.VectorInstructionsIssue := by
  unfold Obligations.VectorInstructionsIssue
  intro p hp b t f s h ho
  have hexec : Machine.exec (p.2 b t f) s = .next (opVecIssue p.1 b t f s) := by
    clear h ho
    revert p
    iterate 51 refine List.forall_mem_cons.mpr ⟨rfl, ?_⟩
    exact List.forall_mem_nil _
  obtain ⟨g, hrun, hg⟩ := opVecIssue_bay h ho
  have hframe := (IssueFrame.fetched s b t).updBay g
  have hbay := State.bay_updBay_self (Safety.fetched s b t) b g
  rw [hg, fetched_bay] at hbay
  obtain ⟨hqueue, hthr, hv, hm, hpq, hother⟩ := pushVec_shows _ _ _ _ _ hbay
  rw [hrun] at hexec
  exact ⟨_, hexec, hqueue, hthr, fetched_thr s b t, hv, hm, hpq, hother, hframe.mem, hframe.bays, hframe.regs⟩

end Sys2Proof
end

section

/-! ### Press instructions enter their queue (R45, R64, R94, R132) -/

set_option Elab.async false

namespace Sys2Proof.Machine

section
variable {s : State} {b : BayId} {t : Thread} {c : PCode} {f : PFields}

/-- The entry of a press instruction. -/
def pressEntryOf (s : State) (b : BayId) (t : Thread) (c : PCode) (f : PFields) : PressEntry :=
  { qseq := (s.thr b t).qseq, pc := (s.thr b t).pc, op := pressOpOf (s.bay b) (s.thr b t) c f }

/-- What an entry reads of a thread, it reads of the thread after the fetch. -/
theorem pressOpOf_fetched (y : Bay) (q : ThreadRec) : pressOpOf (y.setThr t q) ((Safety.fetched s b t).thr b t) c f
    = pressOpOf y (s.thr b t) c f := by
  unfold pressOpOf
  simp only [fetched_getG]
  cases t <;> rfl

/-- A press instruction whose checks pass enters the press queue and is recorded. -/
theorem opPressIssue_bay (h : Safety.ready s b t (.p c f)) (ho : pressCheck (s.bay b) (s.thr b t) c f = .none) :
    ∃ g, opPressIssue c b t f s = (Safety.fetched s b t).updBay b g ∧ g ((Safety.fetched s b t).bay b)
      = (Bay.recordPress { (s.bay b).setThr t ((Safety.fetched s b t).thr b t) with
          pq := (s.bay b).pq ++ [pressEntryOf s b t c f] } c f).setThr t (Safety.issued ((Safety.fetched s b t).thr b t) none) := by
  refine ⟨_, run_of_ready h (congrArg Check.mal ho) (congrArg Check.rng ho) _, ?_⟩
  have hop := pressOpOf_fetched (s := s) (b := b) (t := t) (c := c) (f := f) (s.bay b) ((Safety.fetched s b t).thr b t)
  have hpq : ((s.bay b).setThr t ((Safety.fetched s b t).thr b t)).pq = (s.bay b).pq := by cases t <;> rfl
  rw [pressEntryOf, ← hop, ← fetched_qseq s b t, ← fetched_pc s b t, ← mark_took, ← hpq, ← fetched_bay]
  rfl

/-- The record of the shadow bank after a press instruction (R94). -/
def shadowAfter (y : Bay) (c : PCode) (f : PFields) : BankFmt :=
  match c with
  | .lds => ⟨f.fmt, f.mod.getLsbD 0⟩
  | .turn => y.recAct
  | _ => y.recShadow

/-- Of its bay a press issue changes the queue, the thread and the issue records (R94, R132). -/
theorem recordPress_shows (y : Bay) (e : PressEntry) (q r : ThreadRec) {y' : Bay}
    (h : y' = (Bay.recordPress { y.setThr t q with pq := y.pq ++ [e] } c f).setThr t r) :
    y'.pq = y.pq ++ [e] ∧ y'.thr t = r
      ∧ y'.recShadow = shadowAfter y c f
      ∧ y'.recAct = (if c = .turn then y.recShadow else y.recAct)
      ∧ y'.recAuto0 = (if c = .accWin ∧ f.acc = 0 then f.mod.getLsbD 8 else y.recAuto0)
      ∧ y'.recAuto1 = (if c = .accWin ∧ f.acc = 1 then f.mod.getLsbD 8 else y.recAuto1)
      ∧ y'.active = y.active ∧ y'.shadow = y.shadow ∧ y'.acc0 = y.acc0 ∧ y'.acc1 = y.acc1 ∧ y'.v = y.v ∧ y'.m = y.m := by
  subst h
  cases c
  case accWin =>
    obtain h | h := f.acc.eq_zero_or_eq_one <;> cases t <;> simp [Bay.recordPress, Bay.setThr, Bay.thr, shadowAfter, h]
  all_goals cases t <;> exact ⟨rfl, rfl, rfl, rfl, rfl, rfl, rfl, rfl, rfl, rfl, rfl, rfl⟩

end

end Sys2Proof.Machine

namespace Sys2Proof
open Machine

/-- Settles O19: every row issues by `opPressIssue_bay`, and `recordPress_shows` says what that changes. -/
theorem pressInstructionsIssue : Obligations.PressInstructionsIssue := by
  unfold Obligations.PressInstructionsIssue
  intro p hp b t f s h ho
  have hexec : Machine.exec (p.2 b t f) s = .next (opPressIssue p.1 b t f s) := by
    clear h ho
    revert p
    iterate 7 refine List.forall_mem_cons.mpr ⟨rfl, ?_⟩
    exact List.forall_mem_nil _
  obtain ⟨g, hrun, hg⟩ := opPressIssue_bay h ho
  have hframe := (IssueFrame.fetched s b t).updBay g
  obtain ⟨hpq, hthr, hshadow, hact, hauto0, hauto1, hbank, hbank', hacc, hacc', hv, hm⟩ := recordPress_shows _ _ _ _
    ((State.bay_updBay_self (Safety.fetched s b t) b g).trans hg)
  rw [hrun] at hexec
  refine ⟨_, hexec, hpq.trans ?_, hthr, fetched_thr s b t, hshadow.trans ?_, hact, hauto0, hauto1, hbank,
    hbank', hacc, hacc', hv, hm, hframe.mem,
    hframe.bays, hframe.regs⟩
  all_goals
    obtain ⟨c, -⟩ := p
    cases c <;> rfl

end Sys2Proof
end

section

/-! ### SPLICE forms enter their queue (R200, R202, R205, R206) -/

set_option Elab.async false

namespace Sys2Proof.Machine

section
variable {s u : State} {b : BayId} {t : Thread} {c : XCode} {f : XFields}

/-- A block rests on memory alone. -/
theorem readBlock_of_mem (h : u.mem = s.mem) (b : BayId) (o : Nat) : u.readBlock b o = s.readBlock b o := by
  have hbytes : ∀ o n, u.bayBytes b o n = s.bayBytes b o n := fun o n => State.memBytes_congr _ _ h _ _
  simp only [State.readBlock, hbytes]

/-- A form goes to the press queue (SPLICE.MMB and SPLICE.MMR); the others go to the main vector queue (R200). -/
def XCode.onPress (c : XCode) : Bool := c == .spliceMmb || c == .spliceMmr

theorem XCode.onPress_iff (c : XCode) : c.onPress = true ↔ c = .spliceMmb ∨ c = .spliceMmr := by simp [XCode.onPress]

/-- A bay after a SPLICE form entered it: the block recorded once for its pair (R206), and the form in its queue. -/
def Bay.spliced (y : Bay) (k : CollBlock) (p : PressEntry) (v : VecEntry) (press : Bool) : Bay :=
  { y with
    recorded := if y.recorded.any (fun q => q.names k.group k.seq) then y.recorded else y.recorded ++ [k]
    pq := y.pq ++ (if press then [p] else [])
    mainVq := y.mainVq ++ (if press then [] else [v]) }

/-- The press entry of a form. -/
def splicePressEntry (s : State) (b : BayId) (t : Thread) (c : XCode) (f : XFields) (k : CollBlock) : PressEntry :=
  ⟨(s.thr b t).qseq, (s.thr b t).pc, .splice (c == .spliceMmr) f ((s.thr b t).getG f.ga) ((s.thr b t).getG f.gb)
    ((s.thr b t).getG f.gc) k⟩

/-- The vector entry of a form. -/
def spliceVecEntry (s : State) (b : BayId) (t : Thread) (c : XCode) (f : XFields) (k : CollBlock) : VecEntry :=
  ⟨(s.thr b t).qseq, (s.thr b t).pc, (s.thr b t).vl, .splice c f ((s.thr b t).getG f.ga) ((s.thr b t).getG f.gb)
    ((s.thr b t).getG f.gc) k⟩

/-- A SPLICE form whose checks pass and whose block can be read is recorded and enters its queue. -/
theorem opSplice_bay (h : Safety.ready s b t (.x c f)) (ho : spliceCheck s b (s.thr b t) c f = .none)
    (hecc : ((Safety.fetched s b t).eccRead b (fieldOf ((s.thr b t).getG f.gd) 0 20) 40).2 = false) {k : CollBlock}
    (hk : k = s.readBlock b (fieldOf ((s.thr b t).getG f.gd) 0 20)) :
    ∃ g, opSplice c b t f s = ((Safety.fetched s b t).eccRead b (fieldOf ((s.thr b t).getG f.gd) 0 20) 40).1.updBay b g
      ∧ g ((Safety.fetched s b t).bay b)
        = (Bay.spliced ((s.bay b).setThr t ((Safety.fetched s b t).thr b t)) k (splicePressEntry s b t c f k)
            (spliceVecEntry s b t c f k) c.onPress).setThr t (Safety.issued ((Safety.fetched s b t).thr b t) none) := by
  have hblock : ((Safety.fetched s b t).eccRead b (fieldOf ((s.thr b t).getG f.gd) 0 20) 40).1.readBlock b
      (fieldOf ((s.thr b t).getG f.gd) 0 20) = k :=
    (readBlock_of_mem ((State.eccRead_mem ..).trans (fetched_mem s b t)) _ _).trans hk.symm
  have hrun := run_of_ready h (congrArg Check.mal ho) (congrArg Check.rng ho)
  unfold opSplice
  rw [hrun]
  dsimp only
  rw [fetched_getG, if_neg (by rw [hecc]; decide), hblock]
  refine ⟨_, rfl, ?_⟩
  rw [splicePressEntry, spliceVecEntry, ← fetched_qseq s b t, ← fetched_pc s b t, ← fetched_vl s b t, ← fetched_getG s b t,
    ← fetched_getG s b t, ← fetched_getG s b t, ← mark_took, ← fetched_bay]
  simp only [State.thr_eq]
  generalize (Safety.fetched s b t).bay b = y
  by_cases hrec : (y.recorded.any fun q => q.names k.group k.seq) = true
  all_goals
    simp only [Bay.spliced, hrec, if_true]
    cases c <;> simp [XCode.onPress, ThreadRec.mark]

theorem setThr_spliced (y : Bay) (q : ThreadRec) (k : CollBlock) (p : PressEntry) (v : VecEntry) (press : Bool) :
    Bay.spliced (y.setThr t q) k p v press = (Bay.spliced y k p v press).setThr t q := by
  cases t <;> rfl

/-- What a SPLICE form leaves of its bay beside the thread. -/
theorem setThr_queues (y : Bay) (t : Thread) (r : ThreadRec) : (y.setThr t r).recorded = y.recorded ∧ (y.setThr t r).pq = y.pq
    ∧ (y.setThr t r).mainVq = y.mainVq ∧ (y.setThr t r).colls = y.colls := by
  cases t <;> exact ⟨rfl, rfl, rfl, rfl⟩

end

end Sys2Proof.Machine

namespace Sys2Proof
open Machine

/-- Settles O30: every form issues by `opSplice_bay`. -/
theorem spliceFormsIssue : Obligations.SpliceFormsIssue := by
  unfold Obligations.SpliceFormsIssue
  intro p hp b t f s k h ho hecc hk
  have hexec : Machine.exec (p.2 b t f) s = .next (opSplice p.1 b t f s) := by
    clear h ho
    revert p
    iterate 6 refine List.forall_mem_cons.mpr ⟨rfl, ?_⟩
    exact List.forall_mem_nil _
  obtain ⟨g, hrun, hg⟩ := opSplice_bay h ho hecc hk
  have hframe := ((IssueFrame.fetched s b t).eccRead (o := fieldOf ((s.thr b t).getG f.gd) 0 20) (n := 40)).updBay g
  have hbay := State.bay_updBay_self ((Safety.fetched s b t).eccRead b (fieldOf ((s.thr b t).getG f.gd) 0 20) 40).1 b g
  rw [State.eccRead_bay, hg, setThr_spliced, Bay.setThr_setThr] at hbay
  obtain ⟨hrec, hpq, hvq, hcolls⟩ := setThr_queues (Bay.spliced (s.bay b) k (splicePressEntry s b t p.1 f k)
    (spliceVecEntry s b t p.1 f k) p.1.onPress) t (Safety.issued ((Safety.fetched s b t).thr b t) none)
  rw [hrun] at hexec
  refine ⟨_, hexec, ?_, fetched_thr s b t, ?_, ?_, ?_, ?_, hframe.mem, hframe.bays, hframe.regs⟩
  · rw [State.thr_eq, hbay, Bay.thr_setThr_self]
  · rw [hbay, hrec]
    rfl
  · rw [hbay, hpq, Bay.spliced]
    simp only [XCode.onPress_iff]
    rfl
  · rw [hbay, hvq, Bay.spliced]
    simp only [XCode.onPress_iff]
    rfl
  · rw [hbay, hcolls]
    rfl

end Sys2Proof
end

section

/-! ### The end of a drain with a failed AMO (R63, R76) -/

set_option Elab.async false

namespace Sys2Proof.Machine

/-- A thread that drains towards IDLE after its END, with an AMO into g1 that answered ACCESS_DENIED and that no instruction has read. -/
def failedAmoThread (r : ThreadRec) : ThreadRec :=
  { r with
    stop := some { goal := .idle, qseq := 0, engine := false }
    status := { r.status with st := .drain }
    pend := [{ reg := 1, qseq := 0, amo := true, pc := 0, failed := some cACCESS_DENIED }] }

/-- The device after reset with such a main thread in bay 0. -/
def failedAmoAtEnd : State := State.reset.updThr 0 .main failedAmoThread

/-- The state is one that the statement speaks of. -/
theorem failedAmoAtEnd_served : ((failedAmoAtEnd.thr 0 .main).stop.map fun p => p.goal) = some .idle
    ∧ (failedAmoAtEnd.thr 0 .main).status.st = .drain ∧ failedAmoAtEnd.gated = false ∧ (failedAmoAtEnd.bay 0).drained .main = true
    ∧ Safety.handedOver failedAmoAtEnd := by
  unfold Safety.handedOver
  decide +kernel

/-- The state of the main thread of bay 0 as a command leaves it. -/
def mainStateAfter (i : Instr) (s : State) : ThreadState :=
  match exec i s with
  | .next t => (t.thr 0 .main).status.st
  | _ => .idle

theorem mainStateAfter_of_next {i : Instr} {s t : State} (h : exec i s = .next t) : mainStateAfter i s = (t.thr 0 .main).status.st := by
  rw [mainStateAfter, h]

/-- The failed AMO turns the drain towards FAULT (R63). -/
theorem mainStateAfter_failedAmoAtEnd : mainStateAfter (.threadDrainDone 0 .main) failedAmoAtEnd = .fault := by decide +kernel

end Sys2Proof.Machine

namespace Sys2Proof
open Machine

/-- Refutes O23: its clause about the end of a drain towards IDLE leaves out the AMOs of the thread that failed and that nothing has read.
Where there is one, as in `failedAmoAtEnd`, the thread ends in FAULT with the AMO's code (R63), not in IDLE. -/
theorem not_syncAndEnd : ¬ Obligations.SyncAndEnd := by
  unfold Obligations.SyncAndEnd
  rintro ⟨-, -, -, -, hdrain⟩
  obtain ⟨hgoal, hst, hgate, hdone, hover⟩ := failedAmoAtEnd_served
  obtain ⟨p, hstop, hp⟩ := Option.map_eq_some_iff.mp hgoal
  have hexec := hdrain 0 .main failedAmoAtEnd p hstop hp hst hgate hdone hover
  have hidle := (mainStateAfter_of_next hexec).symm.trans mainStateAfter_failedAmoAtEnd
  rw [State.thr_updThr_self] at hidle
  exact absurd hidle (by decide)

end Sys2Proof
end

section

/-! ### FENCE (R62, R63) -/

set_option Elab.async false

namespace Sys2Proof.Machine

section
variable {s u : State} {b : BayId} {t : Thread} {limit : Nat} {gd : BitVec 5} {seen : Option Code}

/-- Every PUT, PUT.F and AMO issued before `limit` has left its slot. -/
theorem fenceDone_iff {y : Bay} : y.fenceDone limit = true ↔ ∀ e ∈ y.usedSlots, e.2.kind = .get ∨ limit ≤ e.2.ord := by
  simp [Bay.fenceDone]

/-- The code that a FENCE returns (R62). -/
def fenceCode (l : List (Nat × Code)) (limit : Nat) (seen : Option Code) : Code :=
  (seen.orElse fun _ => firstFail l limit).getD cDONE

/-- The bay once a FENCE has returned: the failures returned are gone, and the other thread's FENCE keeps its own of them. -/
def Bay.fenced (y : Bay) (t : Thread) (limit : Nat) : Bay :=
  let y' := { y with fenceFails := y.fenceFails.filter fun e => decide (limit ≤ e.1) }
  y'.setThr (otherThread t) { y.thr (otherThread t) with
    waitFor := (y.thr (otherThread t)).waitFor.sees (y.fenceFails.filter fun e => decide (e.1 < limit)) }

theorem otherThread_ne (t : Thread) : otherThread t ≠ t := by cases t <;> decide

theorem eq_otherThread {t v : Thread} (h : v ≠ t) : v = otherThread t :=
  match t, v, h with
  | .main, .seam, _ => rfl
  | .seam, .main, _ => rfl
  | .main, .main, h => absurd rfl h
  | .seam, .seam, h => absurd rfl h

theorem Bay.fenced_thr_self (y : Bay) (t : Thread) (limit : Nat) : (y.fenced t limit).thr t = y.thr t := by
  cases t <;> rfl

theorem setThr_fenceFails (y : Bay) (t : Thread) (r : ThreadRec) : (y.setThr t r).fenceFails = y.fenceFails := by cases t <;> rfl

/-- `s` with a FENCE's failures returned. -/
def State.fenced (s : State) (b : BayId) (t : Thread) (limit : Nat) : State :=
  (s.updBay b fun y => { y with fenceFails := y.fenceFails.filter fun e => decide (limit ≤ e.1) }).updThr b (otherThread t) fun r =>
    { r with waitFor := r.waitFor.sees ((s.bay b).fenceFails.filter fun e => decide (e.1 < limit)) }

theorem fenced_bay (s : State) (b : BayId) (t : Thread) (limit : Nat) : (s.fenced b t limit).bay b = (s.bay b).fenced t limit := by
  rw [State.fenced, State.bay_updThr_self, State.thr_eq, State.bay_updBay_self]
  cases t <;> rfl

theorem KeepsBeside.fenced (h : KeepsBeside b s u) (t : Thread) (limit : Nat) : KeepsBeside b s (u.fenced b t limit) :=
  have hupd (g : Bay → Bay) : KeepsBeside b u (u.updBay b g) := ⟨rfl, fun _ hc => State.bay_updBay_ne _ _ _ _ hc⟩
  (h.trans (hupd _)).updThr _

/-- With no failed AMO of the thread, FENCE returns its code and forgets the failures that it returned. -/
theorem fenceFinish_of_clean (h : ∀ p ∈ (s.thr b t).pend, p.failed = none) :
    s.fenceFinish b t limit gd seen
      = (s.fenced b t limit).leaveWait b t gd ((fenceCode (s.bay b).fenceFails limit seen).setWidth 64) := by
  have hfind : ((s.bay b).thr t).pend.find? (fun p => p.failed.isSome) = none :=
    List.find?_eq_none.mpr fun p hp => by rw [h p hp]; decide
  unfold State.fenceFinish
  extract_lets y
  rw [hfind]
  rfl

/-- What a FENCE that returns shows. -/
theorem fenceFinish_shows (h : ∀ p ∈ (s.thr b t).pend, p.failed = none) :
    (s.fenceFinish b t limit gd seen).thr b t = (s.thr b t).left gd ((fenceCode (s.bay b).fenceFails limit seen).setWidth 64)
      ∧ ((s.fenceFinish b t limit gd seen).bay b).fenceFails = (s.bay b).fenceFails.filter (fun e => decide (limit ≤ e.1))
      ∧ (∀ v, v ≠ t → ((s.fenceFinish b t limit gd seen).thr b v).waitFor
          = (s.thr b v).waitFor.sees ((s.bay b).fenceFails.filter fun e => decide (e.1 < limit)))
      ∧ KeepsBeside b s (s.fenceFinish b t limit gd seen) ∧ (s.fenceFinish b t limit gd seen).regs = s.regs := by
  rw [fenceFinish_of_clean h]
  refine ⟨?_, ?_, fun v hv => ?_, ((KeepsBeside.refl s b).fenced t limit).leaveWait, rfl⟩
  · rw [leaveWait_thr, State.thr_eq, fenced_bay, Bay.fenced_thr_self]
    rfl
  · rw [State.leaveWait, State.bay_updThr_self, setThr_fenceFails, fenced_bay, Bay.fenced, setThr_fenceFails]
  · rw [State.thr_eq, State.leaveWait, State.bay_updThr_self, Bay.thr_setThr_ne _ _ hv, fenced_bay, eq_otherThread hv, Bay.fenced,
      Bay.thr_setThr_self]
    rfl

/-- Failures that all lie below the limit: the first is the list's head, and none is left. -/
theorem fenceCode_of_below {l : List (Nat × Code)} (h : ∀ e ∈ l, e.1 < limit) :
    fenceCode l limit none = (l.head?.map Prod.snd).getD cDONE ∧ l.filter (fun e => decide (limit ≤ e.1)) = [] := by
  refine ⟨?_, List.filter_eq_nil_iff.mpr fun e he => by simpa using h e he⟩
  cases l with
  | nil => rfl
  | cons e l => simp [fenceCode, firstFail, h e (List.mem_cons_self ..)]

/-- The first of the failures returned that another limit reaches. -/
theorem firstFail_filter (l : List (Nat × Code)) (limit limit' : Nat) : firstFail (l.filter fun e => decide (e.1 < limit)) limit'
    = (l.find? fun e => decide (e.1 < limit) && decide (e.1 < limit')).map Prod.snd := by
  rw [firstFail, List.find?_filter]
  simp only [Bool.decide_and, Bool.decide_eq_true]

end

section
variable {s : State} {b : BayId} {t : Thread} {f : XFields}

/-- No AMO of a thread that is ready for FENCE has failed (R63). -/
theorem fence_clean (h : Safety.ready s b t (.x .fence f)) : ∀ p ∈ ((Safety.fetched s b t).thr b t).pend, p.failed = none := by
  obtain ⟨-, -, -, -, -, -, hpend, -⟩ := h
  rw [fetched_thr]
  intro p hp
  obtain ⟨hgate, -⟩ := hpend p hp
  simpa [BayInstr.amoGate] using hgate

theorem opFence_of_ready (h : Safety.ready s b t (.x .fence f)) (hl : Safety.notLast s b t) :
    opFence b t f s = if (s.bay b).fenceDone (s.bay b).msgCount
      then (Safety.fetched s b t).fenceFinish b t (s.bay b).msgCount f.gd none
      else (Safety.fetched s b t).enterWait b t (.fence (s.bay b).msgCount f.gd none) := by
  refine (run_endCheck h hl _).trans ?_
  rw [fetched_bay]
  cases t <;> rfl

theorem opFenceComplete_due {limit : Nat} {gd : BitVec 5} {seen : Option Code} (hw : (s.thr b t).waitFor = .fence limit gd seen)
    (hg : s.gated = false) (hd : (s.bay b).fenceDone limit = true) :
    opFenceComplete b t s = s.fenceFinish b t limit gd seen := by
  unfold opFenceComplete
  rw [hw]
  exact if_pos (by rw [hg, hd]; rfl)

end

end Sys2Proof.Machine

namespace Sys2Proof
open Machine

/-- Settles O24: FENCE and FENCE_COMPLETE return by `fenceFinish_shows`, once `fenceDone_iff` says that nothing older is in a slot. -/
theorem fenceReportsTheFirstFailure : Obligations.FenceReportsTheFirstFailure := by
  unfold Obligations.FenceReportsTheFirstFailure
  refine ⟨fun b t f s h hl => ⟨fun hget hbelow => ?_, fun e he hkind hord => ?_⟩, fun b t s limit gd seen hw hg hdone hpend => ?_⟩
  · have hrun := (opFence_of_ready h hl).trans (if_pos (fenceDone_iff.mpr fun e he => .inl (hget e he)))
    obtain ⟨hthr, hfails, -, hkeeps, hregs⟩ :=
      fenceFinish_shows (limit := (s.bay b).msgCount) (gd := f.gd) (seen := none) (fence_clean h)
    have hlist : ((Safety.fetched s b t).bay b).fenceFails = (s.bay b).fenceFails := by rw [fetched_bay, setThr_fenceFails]
    obtain ⟨hcode, hnil⟩ := fenceCode_of_below hbelow
    have hkept := (KeepsBeside.fetched s b t).trans hkeeps
    rw [hlist] at hthr hfails
    rw [hcode] at hthr
    obtain ⟨-, hst, -⟩ := h
    rw [left_of_run ((fetched_status ..).symm ▸ hst), fetched_pc] at hthr
    exact ⟨_, congrArg Host.Outcome.next hrun, hthr, hfails.trans hnil, hkept.mem, hkept.bays, fun a ha =>
      (reg_of_regs hregs a).trans (fetched_reg s b t a ha)⟩
  · have hbusy : ¬ (s.bay b).fenceDone (s.bay b).msgCount = true := fun hd => by
      obtain hget | hle := fenceDone_iff.mp hd e he
      · exact hkind hget
      · omega
    exact congrArg Host.Outcome.next ((opFence_of_ready h hl).trans (if_neg hbusy))
  · have hrun := opFenceComplete_due hw hg (fenceDone_iff.mpr hdone)
    obtain ⟨hthr, hfails, hother, hkeeps, hregs⟩ := fenceFinish_shows (limit := limit) (gd := gd) (seen := seen) hpend
    refine ⟨_, congrArg Host.Outcome.next hrun, hthr, hfails, fun v limit' gd' seen' hv hwait => ?_, hkeeps.mem, hregs, hkeeps.bays⟩
    rw [hother v hv, hwait, WaitFor.sees, firstFail_filter]

end Sys2Proof
end

section

/-! ### BAY_CTRL (R73) -/

set_option Elab.async false

namespace Sys2Proof.Machine

section
variable {s : State} {b : BayId} {p : RegPath} {v : Word}

/-! #### The bits of the words written -/

theorem seamEn_lt (s : State) (b : BayId) : s.getF (Fld.BAY_CTRL_SEAM_EN b.toNat) < 2 := fieldOf_lt _ 1 1

/-- SEAM_EN with the trigger GO: STOP 0, GO 1 and SEAM_EN as it was. -/
theorem goWord_bits {e : Nat} (he : e < 2) (n : Nat) : (Fld.BAY_CTRL_STOP n).of (withBit (Fld.BAY_CTRL_GO n) (packWord [(1, e)])) = 0
    ∧ (Fld.BAY_CTRL_GO n).of (withBit (Fld.BAY_CTRL_GO n) (packWord [(1, e)])) = 1
    ∧ (Fld.BAY_CTRL_SEAM_EN n).of (withBit (Fld.BAY_CTRL_GO n) (packWord [(1, e)])) = e := by
  have h : ∀ e < 2, fieldOf (putField (packWord [(1, e)]) 0 1 1) 2 1 = 0 ∧ fieldOf (putField (packWord [(1, e)]) 0 1 1) 0 1 = 1
      ∧ fieldOf (putField (packWord [(1, e)]) 0 1 1) 1 1 = e := by decide
  exact h e he

/-- SEAM_EN with the trigger STOP. -/
theorem stopWord_bits {e : Nat} (he : e < 2) (n : Nat) : (Fld.BAY_CTRL_STOP n).of (withBit (Fld.BAY_CTRL_STOP n) (packWord [(1, e)])) = 1
    ∧ (Fld.BAY_CTRL_SEAM_EN n).of (withBit (Fld.BAY_CTRL_STOP n) (packWord [(1, e)])) = e := by
  have h : ∀ e < 2, fieldOf (putField (packWord [(1, e)]) 2 1 1) 2 1 = 1
      ∧ fieldOf (putField (packWord [(1, e)]) 2 1 1) 1 1 = e := by decide
  exact h e he

/-- SEAM_EN alone. -/
theorem seamWord_bits (en : Bool) (n : Nat) : (Fld.BAY_CTRL_STOP n).of (packWord [(1, if en then 1 else 0)]) = 0
    ∧ (Fld.BAY_CTRL_GO n).of (packWord [(1, if en then 1 else 0)]) = 0
    ∧ (Fld.BAY_CTRL_SEAM_EN n).of (packWord [(1, if en then 1 else 0)]) = if en then 1 else 0 := by
  have h : ∀ en : Bool, fieldOf (packWord [(1, if en then 1 else 0)]) 2 1 = 0 ∧ fieldOf (packWord [(1, if en then 1 else 0)]) 0 1 = 0
      ∧ fieldOf (packWord [(1, if en then 1 else 0)]) 1 1 = if en then 1 else 0 := by decide
  exact h en

theorem fieldOf_written_seamEn (old v : Word) : fieldOf (RegId.BAY_CTRL.written old v) 1 1 = fieldOf v 1 1 := by
  have hrw : RegId.BAY_CTRL.bits .rw = 2 := by decide
  have hw1c : RegId.BAY_CTRL.bits .w1c = 0 := by decide
  have hrw1s : RegId.BAY_CTRL.bits .rw1s = 0 := by decide
  unfold RegId.written fieldOf
  rw [hrw, hw1c, hrw1s]
  congr 1
  ext k hk
  interval_cases k
  simp

/-- SEAM_EN takes the value written. -/
theorem getF_plainWrite_seamEn (s : State) (b : BayId) (v : Word) :
    (s.plainWrite .BAY_CTRL b.toNat 0 v).getF (Fld.BAY_CTRL_SEAM_EN b.toNat) = (Fld.BAY_CTRL_SEAM_EN b.toNat).of v := by
  refine (congrArg (fieldOf · 1 1) (State.reg_setReg_self ..)).trans (fieldOf_written_seamEn _ v)

/-- Another register's field does not see the write. -/
theorem getF_plainWrite_bayCtrl (s : State) (b : BayId) (v : Word) {f : Field} (h : f.reg ≠ RegId.BAY_CTRL.addr b.toNat) :
    (s.plainWrite .BAY_CTRL b.toNat 0 v).getF f = s.getF f :=
  congrArg (fieldOf · f.lo f.width) (State.reg_setReg_ne _ _ _ _ h)

/-- SEAM_EN is kept by the word that a trigger writes. -/
theorem seamEn_plainWrite (h : (Fld.BAY_CTRL_SEAM_EN b.toNat).of v = s.getF (Fld.BAY_CTRL_SEAM_EN b.toNat)) :
    (s.plainWrite .BAY_CTRL b.toNat 0 v).seamEn b = s.seamEn b := by
  rw [State.seamEn, getF_plainWrite_seamEn, h]
  rfl

/-! #### The register's own rules -/

theorem writeBy_bayCtrl (b : BayId) (v : Word) (s : State) : writeBy .BAY_CTRL b.toNat 0 v s = writeBayCtrl b v s := by
  change writeBayCtrl (BitVec.ofNat 10 b.toNat) v s = _
  rw [BitVec.ofNat_toNat, BitVec.setWidth_eq]

/-- A word with GO and without STOP starts a bay that is not live. -/
theorem writeBayCtrl_go (hstop : (Fld.BAY_CTRL_STOP b.toNat).of v = 0) (hgo : (Fld.BAY_CTRL_GO b.toNat).of v = 1)
    (hlive : (s.bay b).live = false) :
    writeBayCtrl b v s = (((s.plainWrite .BAY_CTRL b.toNat 0 v).bayGo b).workBay b, cDONE) := by
  simp [writeBayCtrl, hstop, hgo, hlive]

/-- A word with STOP and SEAM_EN as it was stops the bay. -/
theorem writeBayCtrl_stop (hstop : (Fld.BAY_CTRL_STOP b.toNat).of v = 1)
    (hkeep : (Fld.BAY_CTRL_SEAM_EN b.toNat).of v = s.getF (Fld.BAY_CTRL_SEAM_EN b.toNat)) :
    writeBayCtrl b v s = ((s.plainWrite .BAY_CTRL b.toNat 0 v).bayStop b, cDONE) := by
  simp [writeBayCtrl, hstop, hkeep]

/-- A word without trigger in a bay that is not live only sets SEAM_EN. -/
theorem writeBayCtrl_seam (hstop : (Fld.BAY_CTRL_STOP b.toNat).of v = 0) (hgo : (Fld.BAY_CTRL_GO b.toNat).of v = 0)
    (hlive : (s.bay b).live = false) : writeBayCtrl b v s = (s.plainWrite .BAY_CTRL b.toNat 0 v, cDONE) := by
  simp [writeBayCtrl, hstop, hgo, hlive]

/-- GO, or a change of SEAM_EN, is refused in a live bay. -/
theorem writeBayCtrl_refused (hstop : (Fld.BAY_CTRL_STOP b.toNat).of v = 0)
    (h : (Fld.BAY_CTRL_GO b.toNat).of v = 1 ∨ (Fld.BAY_CTRL_SEAM_EN b.toNat).of v ≠ s.getF (Fld.BAY_CTRL_SEAM_EN b.toNat))
    (hlive : (s.bay b).live = true) : writeBayCtrl b v s = (s, cSTATE_REJECT) := by
  obtain hgo | hchange := h
  · simp [writeBayCtrl, hstop, hgo, hlive]
  · simp [writeBayCtrl, hstop, hchange, hlive]

/-! #### Paths to the register -/

/-- A completed write of BAY_CTRL answers DONE. -/
theorem write64_bayCtrl_done {u : State} (h : Safety.reaches s p .BAY_CTRL b.toNat 0 v) (hw : writeBayCtrl b v s = (u, cDONE)) :
    s.write64 p .BAY_CTRL b.toNat 0 v = u.answer cDONE := by
  have hby : writeBy .BAY_CTRL b.toNat 0 v s = (u, cDONE) := (writeBy_bayCtrl b v s).trans hw
  rw [State.write64_done h b.isLt Nat.one_pos (congrArg Prod.snd hby), hby]
  rfl

/-- A refused write by the MSC changes nothing. -/
theorem write64_bayCtrl_refused (h : Safety.reaches s .msc .BAY_CTRL b.toNat 0 v) (hw : writeBayCtrl b v s = (s, cSTATE_REJECT)) :
    s.write64 .msc .BAY_CTRL b.toNat 0 v = { s with lastCode := cSTATE_REJECT } := by
  rw [State.write64_of_reaches h b.isLt Nat.one_pos, if_neg fun x => absurd x.1 (by decide), (writeBy_bayCtrl b v s).trans hw]

/-- The commands of BAY_CTRL's triggers are writes of the word with the trigger's bit. -/
theorem opBayTrigger_eq {f : Field} (hv : v = withBit f (packWord [(1, s.getF (Fld.BAY_CTRL_SEAM_EN b.toNat))])) :
    opBayTrigger p b f s = s.write64 p .BAY_CTRL b.toNat 0 v := by
  rw [opBayTrigger, hv]

/-! #### GO and STOP -/

/-- A bay as GO leaves it. -/
def Bay.gone (y : Bay) (mpc spc : BitVec 20) (seam : Bool) : Bay :=
  { y with
    main := y.main.start mpc
    seam := if seam then y.seam.start spc else y.seam.wipe
    recAct := y.active.kind
    recShadow := y.shadow.kind
    recAuto0 := y.acc0.auto
    recAuto1 := y.acc1.auto }

/-- What GO shows of the bay. -/
theorem gone_shows {u : State} {y : Bay} {mpc spc : BitVec 20} {en : Bool} (h : u.bay b = y.gone mpc spc en) :
    u.thr b .main = y.main.start mpc ∧ u.thr b .seam = { y.seam with
        pc := if en then spc else y.seam.pc
        vl := 0, pend := [], stop := none, waitFor := .none, line := none
        status := if en then { ThreadStatus.clear with st := .run } else ThreadStatus.clear }
      ∧ (u.bay b).v = y.v ∧ (u.bay b).m = y.m ∧ (u.bay b).active = y.active ∧ (u.bay b).shadow = y.shadow
      ∧ (u.bay b).acc0 = y.acc0 ∧ (u.bay b).acc1 = y.acc1 ∧ (u.bay b).recAct = y.active.kind ∧ (u.bay b).recShadow = y.shadow.kind
      ∧ (u.bay b).recAuto0 = y.acc0.auto ∧ (u.bay b).recAuto1 = y.acc1.auto := by
  simp only [State.thr_eq, h]
  refine ⟨rfl, ?_, rfl, rfl, rfl, rfl, rfl, rfl, rfl, rfl, rfl, rfl⟩
  cases en <;> rfl

/-- `s` with the word written and the bay started at its two offsets. -/
def State.going (s : State) (b : BayId) (v : Word) : State :=
  (s.plainWrite .BAY_CTRL b.toNat 0 v).updBay b fun y =>
    y.gone (BitVec.ofNat 20 (8 * s.getF (Fld.BAY_MAIN_PC_PC b.toNat)))
      (BitVec.ofNat 20 (8 * s.getF (Fld.BAY_SEAM_PC_PC b.toNat))) (s.seamEn b)

theorem going_bay (s : State) (b : BayId) (v : Word) : (s.going b v).bay b = (s.bay b).gone
    (BitVec.ofNat 20 (8 * s.getF (Fld.BAY_MAIN_PC_PC b.toNat))) (BitVec.ofNat 20 (8 * s.getF (Fld.BAY_SEAM_PC_PC b.toNat)))
    (s.seamEn b) := State.bay_updBay_self (s.plainWrite .BAY_CTRL b.toNat 0 v) b _

theorem going_keepsBays (s : State) (b : BayId) (v : Word) : Safety.keepsBays s (s.going b v) b :=
  fun _ hc => State.bay_updBay_ne (s.plainWrite .BAY_CTRL b.toNat 0 v) _ _ _ hc

theorem handedOver_going (h : Safety.handedOver s) : Safety.handedOver (s.going b v) := by
  obtain ⟨hended, hlost, hfolds⟩ :=
    handedOver_plainWrite (r := .BAY_CTRL) (i := b.toNat) (j := 0) (v := v) b.isLt Nat.one_pos (by decide) h
  exact ⟨hended, hlost, fun e => hfolds <|
    (getF_of_regs (s := s.plainWrite .BAY_CTRL b.toNat 0 v) (t := s.going b v) rfl _).symm.trans e⟩

/-- GO with SEAM_EN kept: the bay started at its two offsets, as the registers have them. -/
theorem bayGo_written (h : (Fld.BAY_CTRL_SEAM_EN b.toNat).of v = s.getF (Fld.BAY_CTRL_SEAM_EN b.toNat)) :
    (s.plainWrite .BAY_CTRL b.toNat 0 v).bayGo b = s.going b v := by
  have hmain : RegId.BAY_MAIN_PC.addr b.toNat ≠ RegId.BAY_CTRL.addr b.toNat :=
    RegId.addr_ne .BAY_MAIN_PC .BAY_CTRL b.isLt Nat.one_pos b.isLt Nat.one_pos (by decide)
  have hseam : RegId.BAY_SEAM_PC.addr b.toNat ≠ RegId.BAY_CTRL.addr b.toNat :=
    RegId.addr_ne .BAY_SEAM_PC .BAY_CTRL b.isLt Nat.one_pos b.isLt Nat.one_pos (by decide)
  rw [State.going, ← seamEn_plainWrite h, ← getF_plainWrite_bayCtrl s b v (f := Fld.BAY_MAIN_PC_PC b.toNat) hmain,
    ← getF_plainWrite_bayCtrl s b v (f := Fld.BAY_SEAM_PC_PC b.toNat) hseam]
  rfl

theorem workBay_of_noColls (h : (s.bay b).colls = []) : s.workBay b = s := by
  rw [State.workBay, h]
  rfl

/-- GO in a bay that is not live and has no open collective. -/
theorem exec_bayGo_idle (hv : v = withBit (Fld.BAY_CTRL_GO b.toNat) (packWord [(1, s.getF (Fld.BAY_CTRL_SEAM_EN b.toNat))]))
    (hr : Safety.reaches s p .BAY_CTRL b.toNat 0 v) (hlive : (s.bay b).live = false) (hcolls : (s.bay b).colls = [])
    (hover : Safety.handedOver s) : exec (.bayGo p b) s = .next ((s.going b v).answer cDONE) := by
  obtain ⟨hstop, hgo, hkeep⟩ := goWord_bits (seamEn_lt s b) b.toNat
  rw [← hv] at hstop hgo hkeep
  have hnone : ((s.going b v).bay b).colls = [] := by
    rw [going_bay]
    exact hcolls
  have hrun := write64_bayCtrl_done hr (writeBayCtrl_go hstop hgo hlive)
  rw [bayGo_written hkeep, workBay_of_noColls hnone] at hrun
  change Host.Outcome.next (opBayTrigger p b (Fld.BAY_CTRL_GO b.toNat) s).settledAll = _
  rw [opBayTrigger_eq hv, hrun]
  exact congrArg Host.Outcome.next (State.settledAll_lastCode (handedOver_going hover) cDONE)

/-- A thread that STOP finds live and not on its way to FAULT drains towards STOPPED. -/
theorem halt_eq (r : ThreadRec) : r.halt = if r.status.st.live = true ∧ ∀ q, r.stop = some q → q.goal ≠ .fault then
    { r with
      stop := some { goal := .stopped, qseq := 0, engine := false }, waitFor := .none
      status := { r.status with st := .drain } }
    else r := by
  unfold ThreadRec.halt
  by_cases hl : r.status.st.live = true
  · rw [if_pos hl]
    cases hs : r.stop with
    | none => simp [hl, ThreadRec.setSt]
    | some q =>
      by_cases hq : q.goal = .fault
      · simp [hq]
      · simp [hl, hq, ThreadRec.setSt]
  · rw [if_neg hl, if_neg fun h => hl h.1]

theorem bayStop_shows (s : State) (b : BayId) :
    Safety.keepsBays s (s.bayStop b) b ∧ ∀ t, (s.bayStop b).thr b t = (s.thr b t).halt := by
  refine ⟨fun _ hc => State.bay_updBay_ne _ _ _ _ hc, fun t => ?_⟩
  rw [State.thr_eq, State.bayStop, State.bay_updBay_self]
  cases t <;> rfl

end

end Sys2Proof.Machine

namespace Sys2Proof
open Machine

/-- Settles O26: the five outcomes of `writeBayCtrl`, and what GO and STOP make of the bay. -/
theorem bayControl : Obligations.BayControl := by
  unfold Obligations.BayControl
  refine ⟨fun p b s v hv hr hlive hcolls hover => ?_, fun p b s v hv hr => ?_, fun p b s en hr hlive => ?_,
    fun b s v hv hr hlive hover => ?_, fun b s en hr hlive hen => ?_⟩
  · have hexec := exec_bayGo_idle hv hr hlive hcolls hover
    obtain ⟨hmain, hseam, hv', hm, hact, hshadow, hacc0, hacc1, hrecAct, hrecShadow, hauto0, hauto1⟩ :=
      gone_shows (u := (s.going b v).answer cDONE) (going_bay s b v)
    exact ⟨_, hexec, rfl, hmain, hseam, hv', hm, hact, hshadow, hacc0, hacc1, hrecAct, hrecShadow, hauto0, hauto1, rfl,
      going_keepsBays s b v⟩
  · obtain ⟨hstop, hkeep⟩ := stopWord_bits (seamEn_lt s b) b.toNat
    rw [← hv] at hstop hkeep
    have hrun := write64_bayCtrl_done hr (writeBayCtrl_stop hstop hkeep)
    obtain ⟨hkeeps, hthr⟩ := bayStop_shows (s.plainWrite .BAY_CTRL b.toNat 0 v) b
    exact ⟨_, congrArg Host.Outcome.next ((opBayTrigger_eq hv).trans hrun), rfl, rfl, hkeeps, fun t => (hthr t).trans (halt_eq _)⟩
  · obtain ⟨hstop, hgo, hseam⟩ := seamWord_bits en b.toNat
    have hrun := write64_bayCtrl_done hr (writeBayCtrl_seam hstop hgo hlive)
    refine ⟨_, congrArg Host.Outcome.next hrun, rfl, ?_, rfl,
      fun a ha => State.reg_setReg_ne _ _ _ _ fun h => ha (h ▸ List.mem_cons_self ..)⟩
    have hval := (getF_plainWrite_seamEn s b (packWord [(1, if en then 1 else 0)])).trans hseam
    exact (congrArg (· == 1) hval).trans (by cases en <;> rfl)
  · obtain ⟨hstop, hgo, -⟩ := goWord_bits (seamEn_lt s b) b.toNat
    rw [← hv] at hstop hgo
    have hrun := write64_bayCtrl_refused hr (writeBayCtrl_refused hstop (.inl hgo) hlive)
    exact congrArg Host.Outcome.next ((congrArg State.settledAll ((opBayTrigger_eq hv).trans hrun)).trans
      (State.settledAll_lastCode hover cSTATE_REJECT))
  · obtain ⟨hstop, -, hseam⟩ := seamWord_bits en b.toNat
    have hchange : (Fld.BAY_CTRL_SEAM_EN b.toNat).of (packWord [(1, if en then 1 else 0)]) ≠ s.getF (Fld.BAY_CTRL_SEAM_EN b.toNat) := by
      rw [hseam]
      rintro h
      refine hen ((congrArg (· == 1) h.symm).trans ?_)
      cases en <;> rfl
    exact congrArg Host.Outcome.next (write64_bayCtrl_refused hr (writeBayCtrl_refused hstop (.inr hchange) hlive))

end Sys2Proof
end

section

/-! ### Message requests take a slot (R58, R59, R61, R63, R64) -/

set_option Elab.async false

namespace Sys2Proof.Machine

section
variable {s u : State} {b : BayId} {t : Thread} {k : MsgKind} {f : MFields}

/-! #### The free slot -/

theorem smapGet_of_not_mem {α : Type} (d : Nat → α) (m : SMap α) {k : Nat} (h : ∀ e ∈ m, e.1 ≠ k) : smapGet d m k = d k := by
  induction m with
  | nil => rfl
  | cons e m ih =>
    rw [smapGet, if_neg (h e (List.mem_cons_self ..)).symm, ih fun e' he' => h e' (List.mem_cons_of_mem _ he'), ite_self]

/-- Of 256 numbers, one is the key of none of fewer than 256 slots. -/
theorem exists_freeSlot {y : Bay} (h : y.slots.length < 256) : ∃ i ∈ List.range 256, !(y.slots.any fun e => e.1 == i) := by
  by_contra hno
  have hsub : List.range 256 ⊆ y.slots.map Prod.fst := fun i hi => by
    by_contra hni
    refine hno ⟨i, hi, ?_⟩
    simp only [List.mem_map, not_exists, not_and] at hni
    simpa using fun e x he => hni (e, x) he
  have hle := (List.nodup_range.subperm hsub).length_le
  rw [List.length_range, List.length_map] at hle
  omega

/-- The slot that a request takes is one of the 256, and it is free. -/
theorem freeSlot_free {y : Bay} (h : y.slots.length < 256) : y.freeSlot < 256 ∧ y.slot y.freeSlot = none := by
  obtain ⟨i, hi, hfree⟩ := exists_freeSlot h
  cases hf : (List.range 256).find? (fun i => !(y.slots.any fun e => e.1 == i)) with
  | none => exact absurd hfree (List.find?_eq_none.mp hf i hi)
  | some j =>
    have hj : y.freeSlot = j := by rw [Bay.freeSlot, hf]; rfl
    have hnone := List.find?_some hf
    rw [hj]
    refine ⟨List.mem_range.mp (List.mem_of_find?_eq_some hf), smapGet_of_not_mem _ _ fun e he => ?_⟩
    simp only [Bool.not_eq_true', List.any_eq_false] at hnone
    simpa using hnone e he

theorem slots_of_ready {c : MCode} (h : Safety.ready s b t (.m c f)) : (s.bay b).slots.length < 256 := by
  obtain ⟨-, -, -, -, -, -, -, hfull⟩ := h
  simp only [Bay.full, Bool.or_eq_false_iff, decide_eq_false_iff_not] at hfull
  omega

/-! #### The slot taken -/

/-- The slot of a request whose destination lies inside the device. -/
def State.localSlot (s : State) (b : BayId) (t : Thread) (k : MsgKind) (f : MFields) : Slot :=
  let r := s.thr b t
  { t := t, kind := k, qseq := r.qseq, pc := r.pc, ord := (s.bay b).msgCount, loc := fieldOf (r.getG f.gl) 0 20, dest := r.getG f.gt
    dev := s.devCoord, len := if k = .amo then 8 else msgLen r f, flag := (r.getG f.gx).setWidth 48
    cw := if k = .get ∧ f.cw = 1 then some (fieldOf (r.getG f.gx) 0 20) else none
    aop := f.aop, x := r.getG f.gn, cmp := r.getG f.gx, gd := f.gl, moved := 0, flagDone := false, acks := [], acked := 0, pieces := []
    fail := none, gen := smapGet (fun _ => 0) (s.bay b).slotGen (s.bay b).freeSlot, smark := 0, spinc := 0, sends := 1, refused := false
    first := s.now, forColl := none, buf := [] }

/-- A bay in which a thread has taken a slot. -/
def Bay.tookSlot (y : Bay) (t : Thread) (i : Nat) (x : Slot) (r : ThreadRec) : Bay :=
  ({ y with msgCount := y.msgCount + 1 }.setSlot i (some x)).setThr t r

/-- The thread once its request has its slot: an AMO leaves its register pending. -/
def ThreadRec.requested (r : ThreadRec) (k : MsgKind) (f : MFields) : ThreadRec :=
  { r with
    pc := r.pc + 8, qseq := r.qseq + 1
    pend := r.pend ++ if k = .amo then [⟨f.gl, r.qseq, true, r.pc, none⟩] else [] }

theorem mark_requested (r : ThreadRec) (k : MsgKind) (f : MFields) :
    (r.mark (if k = .amo then some f.gl else none) true).took = r.requested k f := by
  by_cases hk : k = .amo
  · simp [hk, ThreadRec.mark, ThreadRec.took, ThreadRec.requested]
  · simp [hk, ThreadRec.mark, ThreadRec.took, ThreadRec.requested]

/-- A request inside the device waits for its packets to arrive. -/
theorem startSlot_local {i : Nat} {x : Slot} (h : x.dev = s.devCoord) : s.startSlot b i x = s := if_pos h

/-- A request inside the device takes its slot and does nothing else. -/
theorem takeSlot_local (h : u.destDev ((u.thr b t).getG f.gt) = u.devCoord) : u.takeSlot b t k f = u.updBay b fun y =>
    y.tookSlot t y.freeSlot (u.localSlot b t k f) ((y.thr t).requested k f) := by
  have hlocal : u.destDev (((u.bay b).thr t).getG f.gt) = u.devCoord := h
  unfold State.takeSlot
  simp only [hlocal, bne_self_eq_false, Bool.and_false, Bool.false_eq_true, if_false, mark_requested]
  exact startSlot_local rfl

/-- What the bay shows of a slot taken. -/
theorem tookSlot_shows (y : Bay) (t : Thread) (i : Nat) (x : Slot) (r : ThreadRec) : (y.tookSlot t i x r).slot i = some x
    ∧ (y.tookSlot t i x r).thr t = r ∧ (∀ v, v ≠ t → (y.tookSlot t i x r).thr v = y.thr v)
    ∧ (y.tookSlot t i x r).msgCount = y.msgCount + 1 ∧ ∀ j, j ≠ i → (y.tookSlot t i x r).slot j = y.slot j := by
  have hslot (j : Nat) : (y.tookSlot t i x r).slot j = ({ y with msgCount := y.msgCount + 1 }.setSlot i (some x)).slot j := by
    cases t <;> rfl
  refine ⟨(hslot i).trans (smapGet_set_self ..), Bay.thr_setThr_self .., fun v hv => Bay.thr_setThr_ne _ _ hv, ?_,
    fun j hj => (hslot j).trans (smapGet_set_ne _ _ _ _ _ hj)⟩
  cases t <;> rfl

/-! #### Issue on the fetched state -/

theorem opMsgIssue_of_ready (h : Safety.ready s b t (.m k.code f)) (hc : msgCheck (s.thr b t) k f = Check.none) :
    opMsgIssue k b t f s = (Safety.fetched s b t).takeSlot b t k f :=
  run_of_ready h (congrArg Check.mal hc) (congrArg Check.rng hc) _

theorem exec_message {p : MsgKind × (BayId → Thread → MFields → Instr)}
    (hp : p ∈ [(MsgKind.put, Instr.put), (.putF, .putF), (.get, .get), (.amo, .amo)]) (b : BayId) (t : Thread) (f : MFields) (s : State) :
    exec (p.2 b t f) s = .next (opMsgIssue p.1 b t f s).settleMsgs := by
  simp only [List.mem_cons, List.not_mem_nil, or_false] at hp
  obtain rfl | rfl | rfl | rfl := hp
  all_goals rfl

theorem setThr_slots (y : Bay) (t : Thread) (r : ThreadRec) : (y.setThr t r).slots = y.slots ∧ (y.setThr t r).slotGen = y.slotGen
    ∧ (y.setThr t r).msgCount = y.msgCount := by
  cases t <;> exact ⟨rfl, rfl, rfl⟩

theorem fetched_localSlot (s : State) (b : BayId) (t : Thread) (k : MsgKind) (f : MFields) :
    (Safety.fetched s b t).localSlot b t k f = s.localSlot b t k f := by
  obtain ⟨hslots, hgen, hcount⟩ := setThr_slots (s.bay b) t ((Safety.fetched s b t).thr b t)
  have hfree : ((Safety.fetched s b t).bay b).freeSlot = (s.bay b).freeSlot := by rw [fetched_bay, Bay.freeSlot, hslots]; rfl
  simp only [State.localSlot, msgLen, fetched_getG, fetched_qseq, fetched_pc, fetched_devCoord, fetched_now, hfree]
  rw [fetched_bay, hgen, hcount]

theorem fetched_pend (s : State) (b : BayId) (t : Thread) : ((Safety.fetched s b t).thr b t).pend = (s.thr b t).pend := by
  rw [fetched_thr]

/-- On the fetched state a local request takes the slot that was free before. -/
theorem takeSlot_fetched (h : s.destDev ((s.thr b t).getG f.gt) = s.devCoord) :
    (Safety.fetched s b t).takeSlot b t k f = (Safety.fetched s b t).updBay b fun y =>
      y.tookSlot t (s.bay b).freeSlot (s.localSlot b t k f) (((Safety.fetched s b t).thr b t).requested k f) := by
  have hlocal : (Safety.fetched s b t).destDev (((Safety.fetched s b t).thr b t).getG f.gt) = (Safety.fetched s b t).devCoord := by
    rw [State.destDev, fetched_getG, fetched_devCoord]
    exact h
  obtain ⟨hslots, -, -⟩ := setThr_slots (s.bay b) t ((Safety.fetched s b t).thr b t)
  have hfree : ((Safety.fetched s b t).bay b).freeSlot = (s.bay b).freeSlot := by rw [fetched_bay, Bay.freeSlot, hslots]; rfl
  rw [takeSlot_local hlocal, fetched_localSlot, State.updBay, hfree]
  rfl

theorem handedOver_fetched_updBay (h : Safety.handedOver s) (g : Bay → Bay) : Safety.handedOver ((Safety.fetched s b t).updBay b g) := by
  obtain ⟨hended, hlost, hfolds⟩ := h
  have hcap : (Safety.fetched s b t).getF Fld.HBM_CAP_FOLDS = s.getF Fld.HBM_CAP_FOLDS :=
    fetched_getF s b t _ (not_mem_issueRegs b .HBM_CAP Nat.one_pos Nat.one_pos (by decide) (by decide))
  have hhbm : (Safety.fetched s b t).hbm = s.hbm := by rw [fetched_only]
  exact ⟨(congrArg Fabric.ended (fetched_fab s b t)).trans hended, (congrArg Fabric.lost (fetched_fab s b t)).trans hlost,
    fun e => (congrArg Hbm.waiting hhbm).trans (hfolds (hcap.symm.trans e))⟩

end

end Sys2Proof.Machine

namespace Sys2Proof
open Machine

/-- Settles O27: the slot is free by `freeSlot_free`, and a request inside the device takes it by `takeSlot_local`. -/
theorem messageRequestsIssue : Obligations.MessageRequestsIssue := by
  unfold Obligations.MessageRequestsIssue
  intro p hp b t f s i hready hcheck hover hi
  have hexec : exec (p.2 b t f) s = .next ((Safety.fetched s b t).takeSlot b t p.1 f).settleMsgs := by
    refine (exec_message hp b t f s).trans ?_
    rw [opMsgIssue_of_ready hready hcheck]
  obtain ⟨hlt, hfree⟩ := freeSlot_free (slots_of_ready hready)
  subst hi
  refine ⟨hlt, hfree, hexec, fun hlocal => ?_⟩
  rw [takeSlot_fetched hlocal, State.settleMsgs_of_handedOver _ (handedOver_fetched_updBay hover _)] at hexec
  obtain ⟨hslot, hthr, hother, hcount, hslots⟩ := tookSlot_shows ((Safety.fetched s b t).bay b) t (s.bay b).freeSlot
    (s.localSlot b t p.1 f) (((Safety.fetched s b t).thr b t).requested p.1 f)
  rw [← State.bay_updBay_self (Safety.fetched s b t) b fun y =>
    y.tookSlot t (s.bay b).freeSlot (s.localSlot b t p.1 f) (((Safety.fetched s b t).thr b t).requested p.1 f)]
    at hslot hthr hother hcount hslots
  have hframe := (IssueFrame.fetched s b t).updBay fun y =>
    y.tookSlot t (s.bay b).freeSlot (s.localSlot b t p.1 f) (((Safety.fetched s b t).thr b t).requested p.1 f)
  refine ⟨_, s.localSlot b t p.1 f, hexec, hslot, rfl, rfl, rfl, rfl, rfl, rfl, rfl, rfl, rfl, rfl, rfl, rfl, rfl, rfl, rfl, rfl, rfl,
    rfl, rfl, rfl, rfl, hthr.trans ?_, fun u hu => (hother u hu).trans (fetched_thr_ne s b hu), hcount.trans ?_,
    fun j hj => (hslots j hj).trans ?_, ?_, hframe.mem, hframe.bays, hframe.regs⟩
  · rw [ThreadRec.requested, fetched_pc, fetched_qseq, fetched_pend]
  · rw [fetched_bay, (setThr_slots ..).2.2]
  · rw [fetched_bay, Bay.slot, (setThr_slots ..).1]
    rfl
  · exact fetched_fab s b t

end Sys2Proof
end

section

/-! ### Packets inside the device at bay memory (R58 to R63, R488) -/

set_option Elab.async false

namespace Sys2Proof.Machine

/-! #### One packet's range in a bay's memory -/

/-- A range of a packet's size lies in the memory of a bay. -/
structure InBay (b : BayId) (a n : Nat) : Prop where
  pos : 0 < n
  short : n ≤ 256
  low : bayAddr b 0 ≤ a
  high : a + n ≤ bayAddr b 0x100000

section
variable {s u : State} {b src : BayId} {a n i : Nat} {x : Slot} {bs : List Byte}

theorem llsBase_le_bayMemBase : llsBase ≤ bayMemBase := by decide

theorem llsEnd_le_bayMemBase : 0x010020000000 ≤ bayMemBase := by decide

theorem regionOf_bay (h : bayMemBase ≤ a) (h' : a < 0x011040000000) : regionOf a = .bay := by
  have hlls : ¬ a < llsBase := Nat.not_lt.mpr (Nat.le_trans llsBase_le_bayMemBase h)
  have hend : ¬ a < 0x010020000000 := Nat.not_lt.mpr (Nat.le_trans llsEnd_le_bayMemBase h)
  rw [regionOf, if_neg hlls, if_neg hend, if_pos ⟨h, h'⟩]

theorem InBay.bounds (h : InBay b a n) :
    bayMemBase + b.toNat * 0x100000 ≤ a ∧ a + n ≤ bayMemBase + b.toNat * 0x100000 + 0x100000 := by
  obtain ⟨-, -, hlow, hhigh⟩ := h
  rw [bayAddr] at hlow hhigh
  omega

theorem InBay.regions (h : InBay b a n) : regionOf a = .bay ∧ regionOf (a + n - 1) = .bay := by
  obtain ⟨hlow, hhigh⟩ := h.bounds
  have hpos := h.pos
  have hb := b.isLt
  simp only [bayMemBase] at hlow hhigh
  exact ⟨regionOf_bay (by simp only [bayMemBase]; omega) (by omega), regionOf_bay (by simp only [bayMemBase]; omega) (by omega)⟩

/-- The bay and the offset of the range's first byte. -/
theorem InBay.bay (h : InBay b a n) : (a - bayMemBase) / 0x100000 = b.toNat ∧ a % 0x100000 + n ≤ 0x100000
    ∧ bayAddr b (a % 0x100000) = a := by
  obtain ⟨hlow, hhigh⟩ := h.bounds
  have hpos := h.pos
  have hb := b.isLt
  simp only [bayMemBase, bayAddr] at hlow hhigh ⊢
  omega

theorem InBay.bayOf (h : InBay b a n) : bayOf a = (b, a % 0x100000) := by
  obtain ⟨hbay, -, -⟩ := h.bay
  rw [Machine.bayOf, hbay, BitVec.ofNat_toNat, BitVec.setWidth_eq]

/-- The range is one piece. -/
theorem InBay.pieces (h : InBay b a n) : bayPieces (n / 0x100000 + 2) a n = [(a, n)] := by
  obtain ⟨-, hfit, -⟩ := h.bay
  obtain ⟨m, hm⟩ : ∃ m, n = m + 1 := ⟨n - 1, by have := h.pos; omega⟩
  subst hm
  have hmin : min (m + 1) (0x100000 - a % 0x100000) = m + 1 := by omega
  have hsmall : (m + 1) / 0x100000 = 0 := by have := h.short; omega
  rw [hsmall, bayPieces, hmin, Nat.sub_self]
  · rfl
  · exact Nat.succ_ne_zero m

/-- The bay whose own memory holds the range is that bay. -/
theorem InBay.eq_of_own (h : InBay b a n) (h' : bayAddr src 0 ≤ a ∧ a + n ≤ bayAddr src 0x100000) : src = b := by
  obtain ⟨hlow, hhigh⟩ := h.bounds
  obtain ⟨hlow', hhigh'⟩ := h'
  have hpos := h.pos
  refine BitVec.eq_of_toNat_eq ?_
  simp only [bayMemBase, bayAddr] at hlow hhigh hlow' hhigh'
  omega

theorem InBay.bayRangeRead (h : InBay b a n) (h1 : s.ecc1 = []) (h2 : s.ecc2 = []) :
    s.bayRangeRead a n = (s, cDONE, s.memBytes a n) := by
  simp only [State.bayRangeRead, h.pieces, List.foldl_cons, List.foldl_nil, State.eccRead_clean _ _ _ _ h1 h2, Bool.or_false,
    Bool.false_eq_true, if_false]

theorem InBay.bayRangeWrite (h : InBay b a bs.length) (h1 : s.ecc1 = []) (h2 : s.ecc2 = []) :
    s.bayRangeWrite a bs = (s.setMemBytes a bs, cDONE) := by
  obtain ⟨-, -, haddr⟩ := h.bay
  simp only [State.bayRangeWrite, h.pieces, List.foldl_cons, List.foldl_nil, State.bayWrite_clean _ _ _ _ h1 h2, Bool.or_false,
    Bool.false_eq_true, if_false, h.bayOf, haddr, Nat.sub_self, List.drop_zero, List.take_length]

theorem InBay.reached (h : InBay b a n) (hcut : s.cut b = false) : s.mapped a n = true ∧ s.cutRange a n = false := by
  obtain ⟨hfirst, hlast⟩ := h.regions
  refine ⟨?_, ?_⟩
  · unfold State.mapped
    rw [if_neg (Nat.pos_iff_ne_zero.mp h.pos), hfirst, hlast]
    rfl
  · simp only [State.cutRange, h.pieces, List.any_cons, List.any_nil, h.bayOf, hcut, Bool.or_false]

theorem InBay.devRead (h : InBay b a n) (h1 : s.ecc1 = []) (h2 : s.ecc2 = []) (hcut : s.cut b = false) :
    s.devRead 0 a n = (s, cDONE, s.memBytes a n) := by
  obtain ⟨hmap, hreach⟩ := h.reached hcut
  obtain ⟨hfirst, -⟩ := h.regions
  unfold State.devRead
  rw [hmap, hfirst, hreach, h.bayRangeRead h1 h2]
  rfl

theorem InBay.devWrite (h : InBay b a bs.length) (h1 : s.ecc1 = []) (h2 : s.ecc2 = []) (hcut : s.cut b = false) :
    s.devWrite 0 a bs = (s.setMemBytes a bs, cDONE) := by
  obtain ⟨hmap, hreach⟩ := h.reached hcut
  obtain ⟨hfirst, -⟩ := h.regions
  unfold State.devWrite
  rw [hmap, hfirst, hreach, h.bayRangeWrite h1 h2]
  rfl

/-! #### How a packet reaches its target -/

/-- The read of a packet's target. -/
def partRead (src : BayId) (s : State) (a n : Nat) : State × Code × List Byte :=
  if regionOf a = .regs then
    let r := s.readRegs a n
    (s, r.1, r.2)
  else if sameDie src a n then s.bayRangeRead a n
  else s.devRead 0 a n

/-- The write of a packet's target. -/
def partWrite (src : BayId) (s : State) (a : Nat) (bs : List Byte) : State × Code :=
  if regionOf a = .regs then s.writeRegs src a bs
  else if sameDie src a bs.length then s.bayRangeWrite a bs
  else s.devWrite 0 a bs

/-- The atomic at a packet's target. -/
def partAmo (src : BayId) (s : State) (a k : Nat) (v c : Word) : State × Code × Word :=
  if sameDie src a 8 then s.bayAmo a k v c else s.devAmo 0 a k v c

theorem InBay.partRead (h : InBay b a n) (h1 : s.ecc1 = []) (h2 : s.ecc2 = []) (hcut : s.cut b = false) :
    partRead src s a n = (s, cDONE, s.memBytes a n) := by
  obtain ⟨hfirst, -⟩ := h.regions
  rw [Machine.partRead, hfirst, if_neg (by decide), h.bayRangeRead h1 h2, h.devRead h1 h2 hcut, ite_self]

theorem InBay.partWrite (h : InBay b a bs.length) (h1 : s.ecc1 = []) (h2 : s.ecc2 = []) (hcut : s.cut b = false) :
    partWrite src s a bs = (s.setMemBytes a bs, cDONE) := by
  obtain ⟨hfirst, -⟩ := h.regions
  rw [Machine.partWrite, hfirst, if_neg (by decide), h.bayRangeWrite h1 h2, h.devWrite h1 h2 hcut, ite_self]

/-- A packet that is the next of its slot, for this bay's memory, and that no older request must precede takes effect. -/
theorem opPacketArrival_ready {p : MsgPart} (h : InBay b p.range.1 n) (hslot : (s.bay src).slot i = some x) (hnext : x.nextPart = some p)
    (hclock : s.clockOff = false) (hdev : x.dev = s.devCoord) (hcoll : x.forColl = none) (hready : s.partReady src x p = true) :
    opPacketArrival b src i s = s.carryPart src i x p (partRead src) (partWrite src) (partAmo src) := by
  obtain ⟨hfirst, -⟩ := h.regions
  obtain ⟨hbay, -, -⟩ := h.bay
  unfold opPacketArrival
  simp only [hslot, hnext, hfirst, hbay, hclock, hdev, hcoll, hready, decide_true, Bool.not_true, bne_self_eq_false, Option.isSome_none,
    Bool.or_false, Bool.false_eq_true, if_false]
  rfl

/-! #### A packet that takes effect -/

/-- A packet's access as the message engine checks it: the requester's own memory is its own, the tables decide elsewhere. -/
def State.partCheck (s : State) (src : BayId) (q : Perms) (p : MsgPart) : State × Bool :=
  if decide (bayAddr src 0 ≤ p.range.1) && decide (p.range.1 + p.range.2 ≤ bayAddr src 0x100000) then (s, true)
  else s.access (.group (s.bayGroup src)) s.devCoord q p.range.1 p.range.2

theorem carryPart_put_done {u : State} {rd at_} {wr : State → Nat → List Byte → State × Code} (hcut : s.cut src = false)
    (h1 : s.ecc1 = []) (h2 : s.ecc2 = []) (hregs : regionOf a ≠ .regs) (hcheck : s.partCheck src permW (.put a n) = (s, true))
    (hwr : wr s a (s.bayBytes src (x.loc + x.moved) n) = (u, cDONE)) :
    s.carryPart src i x (.put a n) rd wr at_ = u.pushAck src i { x with moved := x.moved + n } ⟨cDONE, n, []⟩ := by
  unfold State.partCheck at hcheck
  simp only [State.carryPart, hcut, Bool.false_and, Bool.false_eq_true, if_false, State.eccRead_clean _ _ _ _ h1 h2, hregs, hcheck, hwr,
    Bool.not_true]

theorem carryPart_put_denied {u : State} {rd wr at_} (hcut : s.cut src = false) (h1 : s.ecc1 = []) (h2 : s.ecc2 = [])
    (hregs : regionOf a ≠ .regs) (hcheck : s.partCheck src permW (.put a n) = (u, false)) :
    s.carryPart src i x (.put a n) rd wr at_ = u.pushAck src i { x with moved := x.moved + n } ⟨cACCESS_DENIED, n, []⟩ := by
  unfold State.partCheck at hcheck
  simp only [State.carryPart, hcut, Bool.false_and, Bool.false_eq_true, if_false, State.eccRead_clean _ _ _ _ h1 h2, hregs, hcheck,
    Bool.not_false, if_true]

theorem carryPart_get_done {bs : List Byte} {rd : State → Nat → Nat → State × Code × List Byte} {wr at_} (hcut : s.cut src = false)
    (hcheck : s.partCheck src permR (.get a n) = (s, true)) (hrd : rd s a n = (s, cDONE, bs)) :
    s.carryPart src i x (.get a n) rd wr at_ = s.pushAck src i { x with moved := x.moved + n } ⟨cDONE, n, bs⟩ := by
  unfold State.partCheck at hcheck
  simp only [State.carryPart, hcut, Bool.false_and, Bool.false_eq_true, if_false, hcheck, hrd, Bool.not_true]

/-- The requester's own bay, or a bay that the tables allow. -/
theorem InBay.partCheck_allowed {p : MsgPart} {q : Perms} (h : InBay b p.range.1 p.range.2)
    (hacc : src = b ∨ s.access (.group (s.bayGroup src)) s.devCoord q p.range.1 p.range.2 = (s, true)) :
    s.partCheck src q p = (s, true) := by
  unfold State.partCheck
  obtain rfl | hacc := hacc
  · exact if_pos (by simpa using ⟨h.low, h.high⟩)
  · rw [hacc, ite_self]

/-- Another bay's memory is left to the tables. -/
theorem InBay.partCheck_other {p : MsgPart} {q : Perms} (h : InBay b p.range.1 p.range.2) (hne : src ≠ b) :
    s.partCheck src q p = s.access (.group (s.bayGroup src)) s.devCoord q p.range.1 p.range.2 :=
  if_neg fun hown => hne (h.eq_of_own (by simpa using hown))

/-! #### What a denied access leaves as it was -/

theorem logDeny_onlyRegs (s : State) (m : Master) (dev : DevCoord) (t page : Nat) (p : Perms) :
    Safety.onlyRegs s (s.logDeny m dev t page p) [RegId.MSC_ACC_DENY.addr, RegId.MSC_ACC_DENY_CNT.addr] := by
  unfold State.logDeny
  extract_lets s'
  have hcount : Safety.onlyRegs s s' [RegId.MSC_ACC_DENY.addr, RegId.MSC_ACC_DENY_CNT.addr] :=
    ⟨rfl, fun r hr => State.reg_incF_ne _ _ _ _ fun e => hr (by rw [e]; exact List.mem_cons_of_mem _ (List.mem_cons_self ..))⟩
  split
  · exact hcount
  · refine ⟨(State.setFs_regs_only ..), fun r hr => Eq.trans ?_ (hcount.2 r hr)⟩
    have hne : r ≠ RegId.MSC_ACC_DENY.addr := fun e => hr (e ▸ List.mem_cons_self ..)
    simp only [setFs_cons, setFs_nil]
    repeat rw [State.reg_setF_ne _ _ _ _ hne]

theorem checkPages_onlyRegs (s : State) (m : Master) (dev : DevCoord) (p : Perms) (n q : Nat) :
    Safety.onlyRegs s (checkPages s m dev p n q).1 [RegId.MSC_ACC_DENY.addr, RegId.MSC_ACC_DENY_CNT.addr] := by
  induction n generalizing q with
  | zero => exact ⟨rfl, fun _ _ => rfl⟩
  | succ n ih =>
    rw [checkPages]
    split
    · exact ih (q + 1)
    · dsimp only
      split
      · exact ih (q + 1)
      · exact logDeny_onlyRegs ..

/-- An access to memory touches at most the denial log (R494). -/
theorem access_onlyRegs (s : State) (m : Master) (dev : DevCoord) (p : Perms) (a n : Nat) :
    Safety.onlyRegs s (s.access m dev p a n).1 [RegId.MSC_ACC_DENY.addr, RegId.MSC_ACC_DENY_CNT.addr] := by
  have hsame : Safety.onlyRegs s s [RegId.MSC_ACC_DENY.addr, RegId.MSC_ACC_DENY_CNT.addr] := ⟨rfl, fun _ _ => rfl⟩
  unfold State.access State.checkAccess
  split
  · exact hsame
  · split
    · exact hsame
    · exact checkPages_onlyRegs ..

theorem handedOver_of_onlyRegs {l : List Nat} (h : Safety.handedOver s) (hu : Safety.onlyRegs s u l) (hl : RegId.HBM_CAP.addr ∉ l) :
    Safety.handedOver u := by
  obtain ⟨hended, hlost, hfolds⟩ := h
  obtain ⟨hu, hregs⟩ := hu
  have hcap : u.getF Fld.HBM_CAP_FOLDS = s.getF Fld.HBM_CAP_FOLDS := congrArg (fieldOf · _ _) (hregs _ hl)
  exact ⟨(congrArg (fun s => s.fab.ended) hu).trans hended, (congrArg (fun s => s.fab.lost) hu).trans hlost,
    fun e => (congrArg (fun s => s.hbm.waiting) hu).trans (hfolds (hcap.symm.trans e))⟩

theorem handedOver_setMemBytes (h : Safety.handedOver s) (a : Nat) (bs : List Byte) : Safety.handedOver (s.setMemBytes a bs) := by
  rw [State.setMemBytes_mem_only]
  exact h

theorem settledAll_setSlot (h : Safety.handedOver s) (b : BayId) (i : Nat) (x : Option Slot) :
    (s.setSlot b i x).settledAll = s.setSlot b i x := State.settledAll_of_handedOver _ h

end

end Sys2Proof.Machine

namespace Sys2Proof
open Machine

/-- Settles O28: a packet of bay memory takes effect by `opPacketArrival_ready`, its range being one piece (`InBay`). -/
theorem messagePacketsReachBayMemory : Obligations.MessagePacketsReachBayMemory := by
  unfold Obligations.MessagePacketsReachBayMemory
  intro b src slot s x a n hclock hover h1 h2 hslot hdev hcoll hcut hcut' hmoved ha hn hlow hhigh
  have hbay : InBay b a n := ⟨by omega, by omega, hlow, hhigh⟩
  have hregs : regionOf a ≠ .regs := by
    obtain ⟨hfirst, -⟩ := hbay.regions
    rw [hfirst]
    decide
  refine ⟨fun hkind hready => ?_, fun hkind hfail hready hacc => ?_⟩
  · have hnext : x.nextPart = some (.put a n) := by
      subst ha hn
      obtain hput | hput := hkind <;> simp only [Slot.nextPart, hput, hmoved, if_true]
    have harrive := opPacketArrival_ready (p := .put a n) hbay hslot hnext hclock hdev hcoll hready
    refine ⟨fun hacc => ?_, fun u hne hdeny => ?_⟩
    · have hwr : partWrite src s a (s.bayBytes src (x.loc + x.moved) n) = _ :=
        InBay.partWrite (by rwa [bayBytes_length]) h1 h2 hcut'
      have hcarry := carryPart_put_done (i := slot.toNat) (x := x) (rd := partRead src) (at_ := partAmo src) hcut h1 h2 hregs
        (hbay.partCheck_allowed hacc) hwr
      exact congrArg Host.Outcome.next ((congrArg State.settledAll (harrive.trans hcarry)).trans
        (settledAll_setSlot (handedOver_setMemBytes hover _ _) _ _ _))
    · have hcarry := carryPart_put_denied (i := slot.toNat) (x := x) (rd := partRead src) (wr := partWrite src) (at_ := partAmo src)
        hcut h1 h2 hregs ((hbay.partCheck_other hne).trans hdeny)
      have hover' : Safety.handedOver u := by
        have honly := access_onlyRegs s (.group (s.bayGroup src)) s.devCoord permW a n
        rw [hdeny] at honly
        exact handedOver_of_onlyRegs hover honly (by decide)
      exact congrArg Host.Outcome.next ((congrArg State.settledAll (harrive.trans hcarry)).trans (settledAll_setSlot hover' _ _ _))
  · have hnext : x.nextPart = some (.get a n) := by
      subst ha hn
      simp only [Slot.nextPart, hkind, hmoved, hfail, and_self, if_true]
    have harrive := opPacketArrival_ready (p := .get a n) hbay hslot hnext hclock hdev hcoll hready
    have hcarry := carryPart_get_done (i := slot.toNat) (x := x) (wr := partWrite src) (at_ := partAmo src) hcut
      (hbay.partCheck_allowed hacc) (hbay.partRead (src := src) h1 h2 hcut')
    exact congrArg Host.Outcome.next ((congrArg State.settledAll (harrive.trans hcarry)).trans (settledAll_setSlot hover _ _ _))

end Sys2Proof
end

section

/-! ### Acknowledgements of requests inside the device (R59, R60, R63, R77) -/

set_option Elab.async false

namespace Sys2Proof.Machine

section
variable {s : State} {b : BayId} {slot : BitVec 8} {i : Nat} {x : Slot} {a : MsgAck} {rest : List MsgAck}

/-! #### Slots read back -/

@[simp] theorem State.slot_setSlot_self (s : State) (b : BayId) (i : Nat) (x : Option Slot) : ((s.setSlot b i x).bay b).slot i = x := by
  rw [State.setSlot, State.bay_updBay_self]
  exact smapGet_set_self ..

theorem State.slot_setSlot_ne (s : State) (b : BayId) {i j : Nat} (x : Option Slot) (h : j ≠ i) :
    ((s.setSlot b i x).bay b).slot j = (s.bay b).slot j := by
  rw [State.setSlot, State.bay_updBay_self]
  exact smapGet_set_ne _ _ _ _ _ h

@[simp] theorem State.thr_setSlot (s : State) (b : BayId) (i : Nat) (x : Option Slot) (t : Thread) :
    (s.setSlot b i x).thr b t = s.thr b t := by
  rw [State.thr_eq, State.setSlot, State.bay_updBay_self]
  cases t <;> rfl

@[simp] theorem State.setSlot_fab (s : State) (b : BayId) (i : Nat) (x : Option Slot) : (s.setSlot b i x).fab = s.fab := rfl

theorem State.setSlot_keepsBays (s : State) (b : BayId) (i : Nat) (x : Option Slot) : Safety.keepsBays s (s.setSlot b i x) b :=
  fun _ hc => State.bay_updBay_ne _ _ _ _ hc

/-! #### The slot when an acknowledgement arrives, and when it is over -/

/-- The slot without its oldest acknowledgement. -/
def Slot.hears (x : Slot) (a : MsgAck) (rest : List MsgAck) : Slot :=
  { x with
    acks := rest, acked := if a.code = cDONE ∧ x.kind ≠ .amo ∧ x.fail = none then x.acked + a.n else x.acked }

/-- What an acknowledgement does before the slot is looked at again. -/
def State.hearAck (s : State) (b : BayId) (i : Nat) (x : Slot) (a : MsgAck) : State :=
  if a.code ≠ cDONE then s.failSlot b i a.code
  else
    match x.kind with
    | .get => if x.fail.isSome then s else (s.bayWrite b (x.loc + x.acked) a.data).1
    | .amo => s.deliverAmo b i (BitVec.ofNat 64 (leNat a.data))
    | _ => s

theorem opMessageAck_heard (hslot : (s.bay b).slot slot.toNat = some x) (hacks : x.acks = a :: rest) (hclock : s.clockOff = false) :
    opMessageAck b slot s = ((s.setSlot b slot.toNat (some (x.hears a rest))).hearAck b slot.toNat x a).endSlot b slot.toNat := by
  unfold opMessageAck
  simp only [hslot, hacks, hclock, Bool.false_eq_true, if_false]
  rfl

theorem endSlot_open (hslot : (s.bay b).slot i = some x) (hover : s.slotOver b i x = false) : s.endSlot b i = s := by
  unfold State.endSlot
  rw [hslot]
  exact if_pos (by rw [hover]; rfl)

/-- A PUT or an AMO that is over without a failure leaves its slot, and that is all. -/
theorem endSlot_clean (hslot : (s.bay b).slot i = some x) (hover : s.slotOver b i x = true) (hcoll : x.forColl = none)
    (hfail : x.fail = none) (hkind : x.kind ≠ .get) : s.endSlot b i = s.setSlot b i none := by
  unfold State.endSlot
  simp only [hslot, hover, hcoll, hfail]
  cases hk : x.kind with
  | get => exact absurd hk hkind
  | put | putF | amo => rfl

/-- The end of a slot stays in its bay, and counts in the registers of an access to bay memory alone. -/
theorem endSlot_keeps (s : State) (b : BayId) (i : Nat) :
    Safety.keepsBays s (s.endSlot b i) b ∧ Safety.keepsRegs s (s.endSlot b i) (Safety.issueRegs b) := by
  have hsame : Safety.keepsBays s s b ∧ Safety.keepsRegs s s (Safety.issueRegs b) := ⟨fun _ _ => rfl, fun _ _ => rfl⟩
  have hfree := s.setSlot_keepsBays b i none
  unfold State.endSlot
  split
  · exact hsame
  · split
    · exact hsame
    · split
      · split
        · exact ⟨fun c hc => Eq.trans (by rw [State.bay, State.bayWrite_bays]; rfl) (hfree c hc), State.bayWrite_reg _ _ _ _⟩
        · exact ⟨hfree, fun _ _ => rfl⟩
      · split
        · exact ⟨fun c hc => (State.bay_updBay_ne _ _ _ _ hc).trans (hfree c hc), fun _ _ => rfl⟩
        · exact ⟨hfree, fun _ _ => rfl⟩
      · split
        · exact ⟨fun c hc => (State.bay_updBay_ne _ _ _ _ hc).trans (hfree c hc), fun _ _ => rfl⟩
        · exact ⟨hfree, fun _ _ => rfl⟩
      · split
        · exact ⟨fun c hc => (State.bay_updThr_ne _ _ _ _ _ hc).trans ((State.bay_updBay_ne _ _ _ _ hc).trans (hfree c hc)),
            fun _ _ => rfl⟩
        · exact ⟨hfree, fun _ _ => rfl⟩

/-! #### A failure is counted, and the first recorded (R77) -/

/-- The failure counted and, where nothing is recorded, recorded. -/
def State.msgError (s : State) (b : BayId) (i : Nat) (x : Slot) (code : Code) : State :=
  let s := s.incF (Fld.BAY_MSG_ERR_CNT_COUNT b.toNat)
  if s.getF (Fld.BAY_MSG_ERR_VALID b.toNat) = 1 then s
  else s.setFs [(Fld.BAY_MSG_ERR_VALID b.toNat, 1), (Fld.BAY_MSG_ERR_THREAD b.toNat, if x.t = .seam then 1 else 0),
    (Fld.BAY_MSG_ERR_CODE b.toNat, code.toNat), (Fld.BAY_MSG_ERR_SLOT b.toNat, i), (Fld.BAY_MSG_ERR_DEST_DEV b.toNat, x.dev.toNat)]

theorem failSlot_first (hslot : (s.bay b).slot i = some x) (hfail : x.fail = none) (code : Code) :
    s.failSlot b i code = (s.msgError b i x code).setSlot b i (some { x with fail := some code }) := by
  unfold State.failSlot
  simp only [hslot, hfail]
  rfl

/-- The two registers of a bay's message errors are two. -/
theorem msgErr_ne (b : BayId) : RegId.BAY_MSG_ERR.addr b.toNat ≠ RegId.BAY_MSG_ERR_CNT.addr b.toNat :=
  RegId.addr_ne .BAY_MSG_ERR .BAY_MSG_ERR_CNT b.isLt Nat.one_pos b.isLt Nat.one_pos (by decide)

/-- A failure changes the two registers of the bay's message errors. -/
theorem msgError_onlyRegs (s : State) (b : BayId) (i : Nat) (x : Slot) (code : Code) :
    Safety.onlyRegs s (s.msgError b i x code) [RegId.BAY_MSG_ERR.addr b.toNat, RegId.BAY_MSG_ERR_CNT.addr b.toNat] := by
  unfold State.msgError
  extract_lets s'
  have hcount : Safety.onlyRegs s s' [RegId.BAY_MSG_ERR.addr b.toNat, RegId.BAY_MSG_ERR_CNT.addr b.toNat] :=
    ⟨rfl, fun r hr => State.reg_incF_ne _ _ _ _ fun e => hr (by rw [e]; exact List.mem_cons_of_mem _ (List.mem_cons_self ..))⟩
  split
  · exact hcount
  · refine ⟨(State.setFs_regs_only ..), fun r hr => Eq.trans ?_ (hcount.2 r hr)⟩
    have hne : r ≠ RegId.BAY_MSG_ERR.addr b.toNat := fun e => hr (e ▸ List.mem_cons_self ..)
    simp only [setFs_cons, setFs_nil]
    repeat rw [State.reg_setF_ne _ _ _ _ hne]

/-- COUNT gains one, and CODE takes the code where nothing is recorded. -/
theorem msgError_shows (s : State) (b : BayId) (i : Nat) (x : Slot) (code : Code) :
    (s.msgError b i x code).getF (Fld.BAY_MSG_ERR_CNT_COUNT b.toNat) = (s.getF (Fld.BAY_MSG_ERR_CNT_COUNT b.toNat) + 1) % 2 ^ 32
    ∧ (s.msgError b i x code).getF (Fld.BAY_MSG_ERR_CODE b.toNat)
      = if s.getF (Fld.BAY_MSG_ERR_VALID b.toNat) = 1 then s.getF (Fld.BAY_MSG_ERR_CODE b.toNat) else code.toNat := by
  have hcount : (s.incF (Fld.BAY_MSG_ERR_CNT_COUNT b.toNat)).getF (Fld.BAY_MSG_ERR_CNT_COUNT b.toNat)
      = (s.getF (Fld.BAY_MSG_ERR_CNT_COUNT b.toNat) + 1) % 2 ^ 32 := getF_setF_same (by decide)
  have hother (f : Field) (hf : f.reg = RegId.BAY_MSG_ERR.addr b.toNat) :
      (s.incF (Fld.BAY_MSG_ERR_CNT_COUNT b.toNat)).getF f = s.getF f :=
    congrArg (fieldOf · f.lo f.width) (State.reg_incF_ne _ _ _ _ fun e => msgErr_ne b (hf.symm.trans e))
  unfold State.msgError
  dsimp only
  rw [hother (Fld.BAY_MSG_ERR_VALID b.toNat) rfl]
  split
  · exact ⟨hcount, hother _ rfl⟩
  · constructor
    · rw [← hcount]
      simp only [setFs_cons, setFs_nil]
      refine congrArg (fieldOf · 0 32) ?_
      repeat rw [State.reg_setF_ne _ _ _ _ (msgErr_ne b).symm]
    · simp (disch := decide) only [setFs_cons, setFs_nil, Fld.BAY_MSG_ERR_SLOT, Fld.BAY_MSG_ERR_DEST_DEV, Fld.BAY_MSG_ERR_CODE,
        getF_setF_beside, getF_setF_same]
      exact Nat.mod_eq_of_lt code.isLt

/-! #### The three ends and the failure -/

/-- The last acknowledgement of a PUT. -/
theorem opMessageAck_putLast (hslot : (s.bay b).slot slot.toNat = some x) (hacks : x.acks = [a]) (hclock : s.clockOff = false)
    (hcoll : x.forColl = none) (hfail : x.fail = none) (hdone : a.code = cDONE) (hkind : x.kind = .put) (hall : x.acked + a.n = x.len)
    (hmoved : x.moved = x.len) (hleft : s.fab.reqsLeft (.msg b slot.toNat x.ord) = false) :
    opMessageAck b slot s = (s.setSlot b slot.toNat (some (x.hears a []))).setSlot b slot.toNat none := by
  have hhear : (s.setSlot b slot.toNat (some (x.hears a []))).hearAck b slot.toNat x a
      = s.setSlot b slot.toNat (some (x.hears a [])) := by
    simp [State.hearAck, hdone, hkind]
  have hover : (s.setSlot b slot.toNat (some (x.hears a []))).slotOver b slot.toNat (x.hears a []) = true := by
    simp [State.slotOver, Slot.hears, hkind, hleft, hmoved, hdone, hfail, hall]
  rw [opMessageAck_heard hslot hacks hclock, hhear,
    endSlot_clean (State.slot_setSlot_self ..) hover hcoll hfail (by simp [Slot.hears, hkind])]

/-- A response of a GET that is not the last. -/
theorem opMessageAck_getPart (hslot : (s.bay b).slot slot.toNat = some x) (hacks : x.acks = a :: rest) (hclock : s.clockOff = false)
    (hfail : x.fail = none) (hdone : a.code = cDONE) (hkind : x.kind = .get) (hmore : x.acked + a.n < x.len)
    (h1 : s.ecc1 = []) (h2 : s.ecc2 = []) :
    opMessageAck b slot s = (s.setSlot b slot.toNat (some { x with acks := rest, acked := x.acked + a.n })).setMemBytes
      (bayAddr b (x.loc + x.acked)) a.data := by
  have hx : x.hears a rest = { x with acks := rest, acked := x.acked + a.n } := by simp [Slot.hears, hdone, hkind, hfail]
  rw [← hx]
  have hhear : (s.setSlot b slot.toNat (some (x.hears a rest))).hearAck b slot.toNat x a
      = (s.setSlot b slot.toNat (some (x.hears a rest))).setMemBytes (bayAddr b (x.loc + x.acked)) a.data := by
    have hw := State.bayWrite_clean (s.setSlot b slot.toNat (some (x.hears a rest))) b (x.loc + x.acked) a.data h1 h2
    simp [State.hearAck, hdone, hkind, hfail, hw]
  have hslot' : (((s.setSlot b slot.toNat (some (x.hears a rest))).setMemBytes (bayAddr b (x.loc + x.acked)) a.data).bay b).slot
      slot.toNat = some (x.hears a rest) := by
    rw [State.setMemBytes_bay, State.slot_setSlot_self]
  rw [opMessageAck_heard hslot hacks hclock, hhear, endSlot_open hslot']
  have hlen : ¬ x.len ≤ x.acked + a.n := by omega
  simp [State.slotOver, Slot.hears, hkind, hdone, hfail, hlen]

/-- The first failing code of a request. -/
theorem opMessageAck_failed (hslot : (s.bay b).slot slot.toNat = some x) (hacks : x.acks = a :: rest) (hclock : s.clockOff = false)
    (hfail : x.fail = none) (hcode : a.code ≠ cDONE) : opMessageAck b slot s
      = (((s.setSlot b slot.toNat (some (x.hears a rest))).msgError b slot.toNat (x.hears a rest) a.code).setSlot b slot.toNat
        (some { x.hears a rest with fail := some a.code })).endSlot b slot.toNat := by
  rw [opMessageAck_heard hslot hacks hclock, State.hearAck, if_pos hcode,
    failSlot_first (x := x.hears a rest) (State.slot_setSlot_self ..) hfail]

/-- The old value of an AMO delivered, its slot is free. -/
theorem deliverAmo_endSlot (hslot : (s.bay b).slot i = some x) (hkind : x.kind = .amo) (hacks : x.acks = []) (hcoll : x.forColl = none)
    (hfail : x.fail = none) (v : Word) : (s.deliverAmo b i v).endSlot b i
      = ((s.setSlot b i (some { x with acked := x.len })).updThr b x.t fun r => r.deliver x.gd x.qseq v).setSlot b i none := by
  have hdeliver : s.deliverAmo b i v = (s.setSlot b i (some { x with acked := x.len })).updThr b x.t fun r => r.deliver x.gd x.qseq v := by
    unfold State.deliverAmo
    rw [hslot]
  have hslot' : (((s.setSlot b i (some { x with acked := x.len })).updThr b x.t fun r => r.deliver x.gd x.qseq v).bay b).slot i
      = some { x with acked := x.len } := by
    rw [State.bay_updThr_self, Bay.slot, (setThr_slots ..).1]
    exact State.slot_setSlot_self ..
  rw [hdeliver, endSlot_clean hslot' _ hcoll hfail (by simp [hkind])]
  simp [State.slotOver, hkind, hacks]

/-- The response of an AMO. -/
theorem opMessageAck_amo (hslot : (s.bay b).slot slot.toNat = some x) (hacks : x.acks = [a]) (hclock : s.clockOff = false)
    (hcoll : x.forColl = none) (hfail : x.fail = none) (hdone : a.code = cDONE) (hkind : x.kind = .amo) :
    opMessageAck b slot s = (((s.setSlot b slot.toNat (some (x.hears a []))).setSlot b slot.toNat
      (some { x.hears a [] with acked := x.len })).updThr b x.t fun r =>
        r.deliver x.gd x.qseq (BitVec.ofNat 64 (leNat a.data))).setSlot b slot.toNat none := by
  have hhear : (s.setSlot b slot.toNat (some (x.hears a []))).hearAck b slot.toNat x a
      = (s.setSlot b slot.toNat (some (x.hears a []))).deliverAmo b slot.toNat (BitVec.ofNat 64 (leNat a.data)) := by
    simp only [State.hearAck, hdone, hkind, ne_eq, not_true_eq_false, if_false]
  rw [opMessageAck_heard hslot hacks hclock, hhear]
  exact deliverAmo_endSlot (x := x.hears a []) (State.slot_setSlot_self ..) hkind rfl hcoll hfail _

end

end Sys2Proof.Machine

namespace Sys2Proof
open Machine

/-- Settles O29: the acknowledgement is heard by `opMessageAck_heard`; `endSlot_clean`, `endSlot_open` and `msgError_shows` say what
follows. -/
theorem messageAcknowledgementsComplete : Obligations.MessageAcknowledgementsComplete := by
  unfold Obligations.MessageAcknowledgementsComplete
  intro b slot s x a rest hclock hslot hacks hcoll hfail
  refine ⟨fun hdone hkind hlast hall hmoved hleft => ?_, fun hdone hkind hmore h1 h2 => ?_, fun hdone hkind hlast => ?_,
    fun hcode => ?_⟩
  · subst hlast
    refine ⟨_, congrArg Host.Outcome.next (opMessageAck_putLast hslot hacks hclock hcoll hfail hdone hkind hall hmoved hleft),
      State.slot_setSlot_self .., fun j hj => ?_, fun t => ?_, rfl, rfl, fun c hc => ?_⟩
    · rw [State.slot_setSlot_ne _ _ _ hj, State.slot_setSlot_ne _ _ _ hj]
    · rw [State.thr_setSlot, State.thr_setSlot]
    · rw [State.setSlot_keepsBays _ _ _ _ c hc, State.setSlot_keepsBays _ _ _ _ c hc]
  · exact congrArg Host.Outcome.next (opMessageAck_getPart hslot hacks hclock hfail hdone hkind hmore h1 h2)
  · subst hlast
    refine ⟨_, congrArg Host.Outcome.next (opMessageAck_amo hslot hacks hclock hcoll hfail hdone hkind),
      State.slot_setSlot_self .., ?_, rfl, rfl, fun c hc => ?_⟩
    · rw [State.thr_setSlot, State.thr_updThr_self, State.thr_setSlot, State.thr_setSlot]
    · rw [State.setSlot_keepsBays _ _ _ _ c hc, State.bay_updThr_ne _ _ _ _ _ hc, State.setSlot_keepsBays _ _ _ _ c hc,
        State.setSlot_keepsBays _ _ _ _ c hc]
  · obtain ⟨hcount, hrecord⟩ := msgError_shows (s.setSlot b slot.toNat (some (x.hears a rest))) b slot.toNat (x.hears a rest) a.code
    obtain ⟨honly, hregs⟩ := msgError_onlyRegs (s.setSlot b slot.toNat (some (x.hears a rest))) b slot.toNat (x.hears a rest) a.code
    obtain ⟨hbays, hend⟩ := endSlot_keeps (((s.setSlot b slot.toNat (some (x.hears a rest))).msgError b slot.toNat (x.hears a rest)
      a.code).setSlot b slot.toNat (some { x.hears a rest with fail := some a.code })) b slot.toNat
    refine ⟨_, congrArg Host.Outcome.next (opMessageAck_failed hslot hacks hclock hfail hcode),
      (congrArg (fieldOf · 0 32) (hend _ (not_mem_issueRegs b .BAY_MSG_ERR_CNT b.isLt Nat.one_pos (by decide) (by decide)))).trans hcount,
      (congrArg (fieldOf · 48 8) (hend _ (not_mem_issueRegs b .BAY_MSG_ERR b.isLt Nat.one_pos (by decide) (by decide)))).trans hrecord,
      fun c hc => ?_, fun r hr => ?_⟩
    · rw [hbays c hc, State.setSlot_keepsBays _ _ _ _ c hc, honly]
      exact State.setSlot_keepsBays s b _ _ c hc
    · simp only [List.mem_cons, List.not_mem_nil, or_false, not_or] at hr
      obtain ⟨herr, hcnt, hecc, hstep⟩ := hr
      exact (hend r (by simp [Safety.issueRegs, hecc, hstep])).trans (hregs r (by simp [herr, hcnt]))

end Sys2Proof
end

section

/-! ### What the routes of a device rest on (R281, R283, R285, R305) -/

set_option Elab.async false

namespace Sys2Proof.Machine

/-- Two states with the same ports and the same registers but for the open step and the counts of atomics: a packet takes the same way in
both. -/
structure SameRoutes (s t : State) : Prop where
  power : t.power = s.power
  ports : t.fab.ports = s.fab.ports
  regs : ∀ (r : RegId) (i j : Nat), i < r.spec.n1 → j < r.spec.n2 → r ≠ .LDG_STEP_STATUS → r ≠ .ABR_ATOM_STATS →
    t.reg (r.addr i j) = s.reg (r.addr i j)

section
variable {s t u : State} {by_ : ArrivedBy} {d src dst : DevCoord} {port : Nat}

theorem SameRoutes.of_regs (hpower : t.power = s.power) (hports : t.fab.ports = s.fab.ports) (hregs : t.regs = s.regs) : SameRoutes s t :=
  ⟨hpower, hports, fun _ _ _ _ _ _ _ => reg_of_regs hregs _⟩

theorem SameRoutes.trans (h : SameRoutes s t) (h' : SameRoutes t u) : SameRoutes s u :=
  ⟨h'.power.trans h.power, h'.ports.trans h.ports,
    fun r i j hi hj h₁ h₂ => (h'.regs r i j hi hj h₁ h₂).trans (h.regs r i j hi hj h₁ h₂)⟩

theorem SameRoutes.getF (h : SameRoutes s t) {r : RegId} {i lo width : Nat} (hi : i < r.spec.n1) (hj : 0 < r.spec.n2)
    (h₁ : r ≠ .LDG_STEP_STATUS) (h₂ : r ≠ .ABR_ATOM_STATS) : t.getF ⟨r.addr i, lo, width⟩ = s.getF ⟨r.addr i, lo, width⟩ :=
  congrArg (fieldOf · lo width) (h.regs r i 0 hi hj h₁ h₂)

theorem SameRoutes.bench (h : SameRoutes s t) : t.getF Fld.MSC_STATE_BENCH = s.getF Fld.MSC_STATE_BENCH :=
  h.getF (r := .MSC_STATE) Nat.one_pos Nat.one_pos (by decide) (by decide)

theorem SameRoutes.prof (h : SameRoutes s t) : t.getF Fld.ABR_CTRL_PROF = s.getF Fld.ABR_CTRL_PROF :=
  h.getF (r := .ABR_CTRL) Nat.one_pos Nat.one_pos (by decide) (by decide)

theorem SameRoutes.devCoord (h : SameRoutes s t) : t.devCoord = s.devCoord := by
  have hcause : t.getF Fld.MSC_STRAP_CAUSE = s.getF Fld.MSC_STRAP_CAUSE :=
    h.getF (r := .MSC_STRAP) Nat.one_pos Nat.one_pos (by decide) (by decide)
  have hdev : t.getF Fld.MSC_STRAP_DEV = s.getF Fld.MSC_STRAP_DEV :=
    h.getF (r := .MSC_STRAP) Nat.one_pos Nat.one_pos (by decide) (by decide)
  rw [State.devCoord, h.power, h.bench, hcause, hdev, State.devCoord]

/-- The status of a port. -/
theorem SameRoutes.status (h : SameRoutes s t) (hp : port < 16) (lo width : Nat) :
    t.getF ⟨RegId.ABR_PORT_STATUS.addr port, lo, width⟩ = s.getF ⟨RegId.ABR_PORT_STATUS.addr port, lo, width⟩ :=
  h.getF (r := .ABR_PORT_STATUS) hp Nat.one_pos (by decide) (by decide)

theorem SameRoutes.portUp (h : SameRoutes s t) (hp : port < 16) : t.portUp port = s.portUp port :=
  congrArg (· == 1) (h.status hp 63 1)

theorem SameRoutes.trayPort (h : SameRoutes s t) (slot : Nat) : t.trayPort slot = s.trayPort slot := by
  rw [State.trayPort, State.trayPort, h.devCoord]

theorem trayPort_lt (s : State) (slot : Nat) : s.trayPort slot < 16 :=
  (Nat.mod_lt _ (by decide : 0 < 8)).trans (by decide)

theorem nthPort_lt (mask n : Nat) : nthPort mask n < 16 := by
  unfold nthPort
  cases h : (((List.range 16).filter fun i => mask.testBit i)[n]?) with
  | none => decide
  | some p => exact List.mem_range.mp (List.mem_filter.mp (List.mem_of_getElem? h)).1

theorem SameRoutes.offer (h : SameRoutes s t) (hp : port < 16) (kind : Nat) : t.offer by_ d port kind = s.offer by_ d port kind := by
  have hpeer : t.getF (Fld.ABR_PORT_STATUS_PEER_DEV port) = s.getF (Fld.ABR_PORT_STATUS_PEER_DEV port) := h.status hp 40 16
  unfold State.offer
  rw [h.devCoord, hpeer, h.portUp hp]

theorem SameRoutes.detour (h : SameRoutes s t) (level value : Nat) :
    t.detour by_ d port level value = s.detour by_ d port level value := by
  have hport : t.port port = s.port port := by rw [State.port, State.port, h.ports]
  have halt (e : Word) : fieldOf e 4 4 < 16 := fieldOf_lt e 4 4
  unfold State.detour
  rw [hport, h.prof]
  simp only [h.offer (halt _), h.trayPort, h.offer (trayPort_lt _ _)]

theorem levelField_lt (l : Nat) (d : DevCoord) : levelField l d < 64 := by
  unfold levelField
  split
  · exact (fieldOf_lt _ 0 3).trans (by decide)
  · exact (fieldOf_lt _ 3 3).trans (by decide)
  · exact (fieldOf_lt _ 6 4).trans (by decide)
  · exact fieldOf_lt _ 10 6

theorem topLevel_lt (x d : DevCoord) : topLevel x d < 4 := by
  unfold topLevel
  repeat' split
  all_goals decide

theorem SameRoutes.route (h : SameRoutes s t) : t.route by_ src dst = s.route by_ src dst := by
  have hlevel : t.reg (RegId.ABR_LEVEL.addr (topLevel s.devCoord dst) (levelField (topLevel s.devCoord dst) dst))
      = s.reg (RegId.ABR_LEVEL.addr (topLevel s.devCoord dst) (levelField (topLevel s.devCoord dst) dst)) :=
    h.regs .ABR_LEVEL _ _ (topLevel_lt _ _) (levelField_lt _ _) (by decide) (by decide)
  have hdown (p : Nat) (hp : p < 16) : t.getF (Fld.ABR_PORT_STATUS_DOWN p) = s.getF (Fld.ABR_PORT_STATUS_DOWN p) := h.status hp 62 1
  unfold State.route
  simp only [h.devCoord, h.bench, h.prof, h.trayPort, hlevel, h.detour, hdown _ (trayPort_lt _ _), h.portUp (trayPort_lt _ _),
    h.offer (trayPort_lt _ _), hdown _ (nthPort_lt _ _), h.portUp (nthPort_lt _ _), h.offer (nthPort_lt _ _)]

/-- A packet of this device leaves by the same header. -/
theorem SameRoutes.headerFor (h : SameRoutes s t) : t.headerFor src dst = s.headerFor src dst := by
  rw [State.headerFor, h.route, State.headerFor]

theorem SameRoutes.of_onlyRegs (h : Safety.onlyRegs s t [RegId.ABR_ATOM_STATS.addr, RegId.LDG_STEP_STATUS.addr]) : SameRoutes s t := by
  obtain ⟨honly, hregs⟩ := h
  refine ⟨by rw [honly], by rw [honly], fun r i j hi hj h₁ h₂ => hregs _ fun hmem => ?_⟩
  simp only [List.mem_cons, List.not_mem_nil, or_false] at hmem
  obtain hmem | hmem := hmem
  · exact RegId.addr_ne r .ABR_ATOM_STATS hi hj Nat.one_pos Nat.one_pos h₂ hmem
  · exact RegId.addr_ne r .LDG_STEP_STATUS hi hj Nat.one_pos Nat.one_pos h₁ hmem

end

end Sys2Proof.Machine

end

section

/-! ### Pieces of a remote read (R60, R300) -/

set_option Elab.async false

namespace Sys2Proof.Machine

section
variable {s t u : State} {p : Packet} {b : BayId} {slot : BitVec 8} {x : Slot} {n i : Nat}

/-! #### Coordinates -/

@[simp] theorem devOf_coordOf (d : DevCoord) (ep : Nat) : devOf (coordOf d ep) = d := by
  ext i hi
  simp only [devOf, coordOf, BitVec.getElem_extractLsb', BitVec.getLsbD_append]
  simp [hi, BitVec.getLsbD_eq_getElem]

theorem epOf_coordOf (d : DevCoord) {ep : Nat} (h : ep < 4096) : epOf (coordOf d ep) = ep := by
  have he : (coordOf d ep).extractLsb' 0 12 = BitVec.ofNat 12 ep := by
    ext i hi
    simp only [coordOf, BitVec.getElem_extractLsb', BitVec.getLsbD_append]
    simp [hi, BitVec.getLsbD_eq_getElem]
  rw [epOf, he, BitVec.toNat_ofNat]
  exact Nat.mod_eq_of_lt h

theorem epOf_bay (d : DevCoord) (b : BayId) : epOf (coordOf d b.toNat) = b.toNat := epOf_coordOf d (b.isLt.trans (by decide))

theorem bayId_ofNat (b : BayId) : BitVec.ofNat 10 b.toNat = b := by rw [BitVec.ofNat_toNat, BitVec.setWidth_eq]

/-! #### Arrival -/

theorem handedOver_takeArrived (h : Safety.handedOver s) : Safety.handedOver (s.takeArrived p) := h

/-- A GET_RSP of a bay reaches the bay's slot. -/
theorem opGetRsp_bay (htype : p.type = 4) (hece : p.ece = 0) (hdst : p.dst = coordOf s.devCoord b.toNat) (hclock : s.clockOff = false) :
    opGetRsp p s = ((s.takeArrived p).getData b p).settledAll := by
  have hdev : devOf p.dst = s.devCoord := by rw [hdst, devOf_coordOf]
  have hep : epOf p.dst = b.toNat := by rw [hdst, epOf_bay]
  have hlt : b.toNat < 1024 := b.isLt
  have hpull : s.pullWaits p = false := by
    have hdma : (b.toNat == dmaEp) = false := beq_false_of_ne (Nat.ne_of_lt hlt)
    rw [State.pullWaits, hep, hdma, Bool.false_and]
  unfold opGetRsp
  simp only [htype, hdev, hep, hlt, hclock, hpull, hece, bayId_ofNat, ne_eq, not_true_eq_false, or_self, if_false, decide_true,
    Bool.and_false, Bool.or_self, Bool.false_eq_true, if_true]
  rfl

/-- A piece that has arrived already is discarded. -/
theorem getData_again (hslot : (s.bay b).slot p.slot.toNat = some x) (h : p.addr.toNat / 2048 ∈ x.pieces) : s.getData b p = s := by
  unfold State.getData
  simp only [hslot]
  exact if_pos (.inr (.inl (List.contains_iff_mem.mpr h)))

/-- A piece that is not the last is stored and counted. -/
theorem getData_piece (hslot : (s.bay b).slot p.slot.toNat = some x) (hkind : x.kind = .get) (hcoll : x.forColl = none)
    (hfail : x.fail = none) (hlt : p.addr.toNat < x.len) (hn : n = min 2048 (x.len - p.addr.toNat))
    (hnew : p.addr.toNat / 2048 ∉ x.pieces) (hdone : p.status = cDONE) (hmore : x.acked + n < x.len)
    (h1 : s.ecc1 = []) (h2 : s.ecc2 = []) :
    s.getData b p = (s.setSlot b p.slot.toNat
      (some { x with pieces := (p.addr.toNat / 2048) :: x.pieces, acked := x.acked + n })).setMemBytes
        (bayAddr b (x.loc + p.addr.toNat)) (p.payload.take n) := by
  subst hn
  have hguard : ¬ (x.kind ≠ .get ∨ x.pieces.contains (p.addr.toNat / 2048) = true ∨ x.fail.isSome = true
      ∨ x.len ≤ p.addr.toNat) := by
    simp only [hkind, hfail, List.contains_iff_mem]
    simp [hnew]
    omega
  have hw := State.bayWrite_clean (s.setSlot b p.slot.toNat
    (some { x with pieces := (p.addr.toNat / 2048) :: x.pieces, acked := x.acked + min 2048 (x.len - p.addr.toNat) })) b
    (x.loc + p.addr.toNat) (p.payload.take (min 2048 (x.len - p.addr.toNat))) h1 h2
  unfold State.getData
  simp only [hslot]
  rw [if_neg hguard, if_neg (by rw [hdone]; exact fun h => h rfl)]
  split
  · rw [hw]
    refine endSlot_open ((congrArg (Bay.slot · _) (State.setMemBytes_bay ..)).trans (State.slot_setSlot_self ..)) ?_
    have hlen : ¬ x.len ≤ x.acked + min 2048 (x.len - p.addr.toNat) := by omega
    simp [State.slotOver, hkind, hfail, hlen]
  · next e => exact absurd (hcoll.symm.trans e) (by simp)

/-- The missing pieces of a read are asked for again. -/
theorem opGetRetry_bay (hslot : (s.bay b).slot slot.toNat = some x) (hkind : x.kind = .get) (hdev : x.dev ≠ s.devCoord)
    (hleft : s.fab.reqsLeft (.msg b slot.toNat x.ord) = false) : opGetRetry (BitVec.ofNat 12 b.toNat).toNat slot.toNat s
      = ((s.sendReqs x.dev ((slotReqs b slot.toNat x).filter fun r => !x.pieces.contains (r.data / 2048))).tickEvent).settledAll := by
  have hlt : b.toNat < 1024 := b.isLt
  have hep : (BitVec.ofNat 12 b.toNat).toNat = b.toNat := by
    rw [BitVec.toNat_ofNat]
    omega
  unfold opGetRetry
  simp only [hep, hlt, if_true, bayId_ofNat, hslot, hkind, hdev, hleft, ne_eq, not_true_eq_false, Bool.false_eq_true, or_self, if_false]

end

end Sys2Proof.Machine

end

section

/-! ### Remote atomics (R303, R307 to R310) -/

set_option Elab.async false

namespace Sys2Proof.Machine

section
variable {s t u : State} {p q : Packet} {b : BayId} {slot : BitVec 8} {x : Slot} {h i : Nat} {c : Code} {v : Word}

/-! #### Packets handed to a fabric engine -/

/-- A packet as a fabric engine holds it, with its stage. -/
def State.formed (s : State) (q : Packet) : Held :=
  { p := { q with stage := BitVec.ofNat 2 (stageOf s.devCoord (devOf q.dst)) }, by_ := .here, space := none, first := false }

/-- A packet formed in a state that has the routes of another is held behind those of its header there. -/
theorem heldOf_inject (hsame : SameRoutes s u) {d : DevCoord} (hdst : devOf q.dst = d) {ep : Nat} (hsrc : q.src = coordOf u.devCoord ep) :
    (u.inject q).heldOf (s.headerFor s.devCoord d) = u.heldOf (s.headerFor s.devCoord d) ++ [u.formed q] := by
  have hheader : s.headerFor s.devCoord d = u.headerFor (devOf q.src) (devOf q.dst) := by
    rw [hsrc, devOf_coordOf, hdst, hsame.devCoord, hsame.headerFor]
  rw [hheader]
  exact heldOf_hold ..

@[simp] theorem State.inject_atoms (s : State) (q : Packet) : (s.inject q).fab.atoms = s.fab.atoms := by
  unfold State.inject State.hold
  dsimp only
  split <;> rfl

/-- A count of atomics and its tick event. -/
theorem incF_tickEvent_onlyRegs {f : Field} (hf : f.reg = RegId.ABR_ATOM_STATS.addr) :
    Safety.onlyRegs s ((s.incF f).tickEvent) [RegId.ABR_ATOM_STATS.addr, RegId.LDG_STEP_STATUS.addr] := by
  refine ⟨by rw [State.tickEvent_regs_only]; rfl, fun r hr => ?_⟩
  simp only [List.mem_cons, List.not_mem_nil, or_false, not_or] at hr
  obtain ⟨hstats, hstep⟩ := hr
  rw [State.reg_tickEvent_ne _ _ _ hstep, State.reg_incF_ne _ _ _ _ fun e => hstats (e.trans hf)]

/-- A field of the counts of atomics after its count and a tick event. -/
theorem getF_incF_tickEvent {lo width : Nat} (hfit : lo + width ≤ 64) :
    ((s.incF ⟨RegId.ABR_ATOM_STATS.addr, lo, width⟩).tickEvent).getF ⟨RegId.ABR_ATOM_STATS.addr, lo, width⟩
      = (s.getF ⟨RegId.ABR_ATOM_STATS.addr, lo, width⟩ + 1) % 2 ^ width :=
  (congrArg (fieldOf · lo width) (State.reg_tickEvent_ne _ _ _ (RegId.addr_ne .ABR_ATOM_STATS .LDG_STEP_STATUS Nat.one_pos Nat.one_pos
    Nat.one_pos Nat.one_pos (by decide)))).trans (getF_setF_same hfit)

/-- The counts of atomics, and the tick event that goes with them. -/
theorem incF_tickEvent_frame (s : State) (f : Field) : ((s.incF f).tickEvent).fab = s.fab ∧ ((s.incF f).tickEvent).mem = s.mem
    ∧ ((s.incF f).tickEvent).bays = s.bays :=
  ⟨State.tickEvent_fab .., State.tickEvent_mem .., State.tickEvent_bays ..⟩

/-! #### The responder -/

/-- An AMO_RSP is held for the requester's device. -/
theorem amoReply_held (hsame : SameRoutes s u) (p : Packet) (c : Code) (v : Word) :
    ∃ y, (u.amoReply p c v).heldOf (s.headerFor s.devCoord (devOf p.src)) = u.heldOf (s.headerFor s.devCoord (devOf p.src)) ++ [y]
      ∧ y.p.type = 7 ∧ y.p.dst = p.src ∧ y.p.status = c ∧ y.p.gen = p.gen ∧ y.p.slot = p.slot
      ∧ y.p.payload = leBytes 8 v.toNat :=
  ⟨_, heldOf_inject hsame rfl rfl, rfl, rfl, rfl, rfl, rfl, rfl⟩

/-- An AMO_REQ whose pair has caught up is handled at once. -/
theorem opAmoReq_ready (htype : p.type = 6) (hdst : devOf p.dst = s.devCoord) (hready : s.amoReady p = true) :
    opAmoReq p s = (s.takeArrived p).amoHandle p := by
  have hguard : ¬ (p.type ≠ 6 ∨ devOf p.dst ≠ s.devCoord) := by simp [htype, hdst]
  have hready' : (s.takeArrived p).amoReady p = true := hready
  unfold opAmoReq
  rw [if_neg hguard]
  exact if_pos hready'

/-- A duplicate is answered from the record. -/
theorem amoHandle_again {r : AtomRec} (hfind : s.fab.atoms.find? (fun x => x.is (atomHeader p) (devOf p.src) (epOf p.src) p.slot) = some r)
    (hgen : r.gen = p.gen) (htomb : r.tomb = false) :
    s.amoHandle p = ((s.incF Fld.ABR_ATOM_STATS_DUP_SERVED).tickEvent).amoReply p r.status r.result := by
  unfold State.amoHandle
  simp only [hfind, hgen, htomb, if_true, Bool.false_eq_true, if_false]

/-- The record of an atomic refused. -/
def State.refusedRec (s : State) (p : Packet) (c : Code) : AtomRec :=
  { hdr := atomHeader p, dev := devOf p.src, bay := BitVec.ofNat 10 (epOf p.src), slot := p.slot, gen := p.gen, tomb := false
    parked := false, status := c, result := 0, time := s.now }

/-- The log with a record behind those of other slots. -/
def State.withRecord (s : State) (p : Packet) (z : AtomRec) : State :=
  { s with fab := { s.fab with
    atoms := s.fab.atoms.filter (fun y => !y.is (atomHeader p) (devOf p.src) (epOf p.src) p.slot) ++ [z] } }

/-- An atomic without record is refused, and logged, where its target refuses it. -/
theorem amoHandle_refused (hfind : s.fab.atoms.find? (fun x => x.is (atomHeader p) (devOf p.src) (epOf p.src) p.slot) = none)
    (hroom : s.logUsed (atomHeader p) < 8192) (hc : c ≠ cDONE) (hrefuse : s.refusal p permA 8 = (s, c)) :
    s.amoHandle p = ((s.withRecord p (s.refusedRec p c)).unpark (atomHeader p)).amoReply p c 0 := by
  unfold State.amoHandle
  simp only [hfind, hroom, if_true]
  unfold State.amoPerform
  simp only [hrefuse, hc, ne_eq, not_false_eq_true, if_true]
  rfl

theorem amoHandle_full (hfind : s.fab.atoms.find? (fun x => x.is (atomHeader p) (devOf p.src) (epOf p.src) p.slot) = none)
    (hfull : 8192 ≤ s.logUsed (atomHeader p)) :
    s.amoHandle p = ((s.incF Fld.ABR_ATOM_STATS_CAP_REFUSED).tickEvent).amoReply p cCAPACITY 0 := by
  unfold State.amoHandle
  simp only [hfind, Nat.not_lt.mpr hfull, if_false]
  rfl

/-- A parked tombstone that moves is none of the records that are not parked. -/
theorem unpark_getLast (s : State) (h : Nat) {z : AtomRec} (hlast : s.fab.atoms.getLast? = some z) (hz : z.parked = false) :
    (s.unpark h).fab.atoms.getLast? = some z := by
  unfold State.unpark
  split
  · exact hlast
  · split
    · exact hlast
    · next y hy =>
      have hparked := List.find?_some hy
      have hne : z ≠ y := fun e => by simp [← e, hz] at hparked
      simp [List.getLast?_map, hlast, hne]

/-- A tombstone that moves is a change of the log alone. -/
theorem unpark_frame (s : State) (h : Nat) : (s.unpark h).regs = s.regs ∧ (s.unpark h).mem = s.mem ∧ (s.unpark h).bays = s.bays
    ∧ SameRoutes s (s.unpark h) ∧ ∀ n, (s.unpark h).heldOf n = s.heldOf n := by
  unfold State.unpark
  split
  · exact ⟨rfl, rfl, rfl, .of_regs rfl rfl rfl, fun _ => rfl⟩
  · split
    · exact ⟨rfl, rfl, rfl, .of_regs rfl rfl rfl, fun _ => rfl⟩
    · exact ⟨rfl, rfl, rfl, .of_regs rfl rfl rfl, fun _ => rfl⟩

/-- A refused atomic's record is the newest of the log. -/
theorem unpark_withRecord_getLast (s : State) (p : Packet) (c : Code) (h : Nat) :
    ((s.withRecord p (s.refusedRec p c)).unpark h).fab.atoms.getLast? = some (s.refusedRec p c) :=
  unpark_getLast _ h (List.getLast?_concat ..) rfl

/-- AMO_REL with room for its tombstone: the record becomes one. -/
theorem opAmoRel_shows {r : AtomRec} (htype : p.type = 8) (hdst : devOf p.dst = s.devCoord) (hr : r ∈ s.fab.atoms)
    (his : r.is (atomHeader p) (devOf p.src) (epOf p.src) p.slot = true) (hgen : r.gen = p.gen) (htomb : r.tomb = false)
    (hroom : s.tombs (atomHeader p) < 65536) : { r with tomb := true, parked := false, result := 0 } ∈ (opAmoRel p s).fab.atoms
      ∧ (opAmoRel p s).fab.atoms.length = s.fab.atoms.length ∧ opAmoRel p s = { s with fab := (opAmoRel p s).fab } := by
  have hguard : ¬ (p.type ≠ 8 ∨ devOf p.dst ≠ s.devCoord) := by simp [htype, hdst]
  have hfull : decide (65536 ≤ (s.takeArrived p).tombs (atomHeader p)) = false := decide_eq_false (Nat.not_le.mpr hroom)
  unfold opAmoRel
  rw [if_neg hguard]
  dsimp only
  rw [hfull]
  refine ⟨List.mem_map.mpr ⟨r, hr, ?_⟩, List.length_map .., rfl⟩
  rw [his, hgen, htomb]
  simp

theorem unpark_none (hnone : ∀ y ∈ s.fab.atoms, y.parked = false) (h : Nat) : s.unpark h = s := by
  have hfind : s.fab.atoms.find? (fun y => y.hdr == h && y.parked) = none :=
    List.find?_eq_none.mpr fun y hy => by simp [hnone y hy]
  unfold State.unpark
  rw [hfind, ite_self]

end

end Sys2Proof.Machine

end

section

/-! ### Remote atomics at the requester (R309, R310) -/

set_option Elab.async false

namespace Sys2Proof.Machine

section
variable {s u : State} {p : Packet} {b : BayId} {x : Slot} {i : Nat} {c : Code}

/-- What it takes for a slot to be a remote atomic that still waits. -/
theorem amoSlot_some (h : s.amoSlot b i = some x) : (s.bay b).slot i = some x ∧ x.kind = .amo ∧ x.fail = none := by
  obtain ⟨y, hslot, hy⟩ := Option.bind_eq_some_iff.mp h
  split at hy
  · next hcond =>
    obtain ⟨hkind, -, -, hfail⟩ := hcond
    obtain rfl : y = x := Option.some.inj hy
    exact ⟨hslot, hkind, hfail⟩
  · exact absurd hy (by simp)

theorem opAmoRsp_heard (htype : p.type = 7) (hdst : p.dst = coordOf s.devCoord b.toNat) (hclock : s.clockOff = false)
    (hslot : s.amoSlot b p.slot.toNat = some x) (hgen : x.gen = p.gen) :
    opAmoRsp p s = if p.status = cCAPACITY
      then ((s.takeArrived p).setSlot b p.slot.toNat (some { x with refused := true })).tickEvent
      else
        let u := (s.takeArrived p).amoRelease b p.slot.toNat x
        if p.status = cDONE then (u.deliverAmo b p.slot.toNat (BitVec.ofNat 64 (leNat (p.payload.take 8)))).endSlot b p.slot.toNat
        else ((u.bitsEvent p.status).failSlot b p.slot.toNat p.status).endSlot b p.slot.toNat := by
  have hdev : devOf p.dst = s.devCoord := by rw [hdst, devOf_coordOf]
  have hep : epOf p.dst = b.toNat := by rw [hdst, epOf_bay]
  have hslot' : (s.takeArrived p).amoSlot b p.slot.toNat = some x := hslot
  unfold opAmoRsp
  simp only [hep, bayId_ofNat, htype, hdev, hclock, ne_eq, not_true_eq_false, Bool.false_eq_true, or_self, if_false, hslot', hgen]

/-- AMO_REL is held for the responder's device. -/
theorem amoRelease_held (hsame : SameRoutes s u) (b : BayId) (slot : BitVec 8) (x : Slot) :
    ∃ y, (u.amoRelease b slot.toNat x).heldOf (s.headerFor s.devCoord x.dev) = u.heldOf (s.headerFor s.devCoord x.dev) ++ [y]
      ∧ y.p.type = 8 ∧ y.p.gen = x.gen ∧ y.p.slot = slot :=
  ⟨_, heldOf_inject hsame (devOf_coordOf ..) rfl, rfl, rfl, by
    change BitVec.ofNat 8 slot.toNat = slot
    rw [BitVec.ofNat_toNat, BitVec.setWidth_eq]⟩

/-- AMO_REQ is held for the responder's device. -/
theorem amoReq_held (hsame : SameRoutes s u) (b : BayId) (i : Nat) (x : Slot)
    (hform : (s.amoReq b i x).src = coordOf u.devCoord b.toNat) :
    ∃ y, (u.inject (s.amoReq b i x)).heldOf (s.headerFor s.devCoord x.dev) = u.heldOf (s.headerFor s.devCoord x.dev) ++ [y]
      ∧ y.p.type = 6 ∧ y.p.gen = x.gen ∧ y.p.aop = x.aop :=
  ⟨_, heldOf_inject hsame (devOf_coordOf ..) hform, rfl, rfl, rfl⟩

/-- A failed AMO leaves its slot, and its register pending with the code. -/
theorem endSlot_amoFailed (hslot : (s.bay b).slot i = some x) (hkind : x.kind = .amo) (hacks : x.acks = [])
    (hcoll : x.forColl = none) (hfail : x.fail = some c) :
    ((s.endSlot b i).bay b).slot i = none ∧ (s.endSlot b i).mem = s.mem ∧ (s.endSlot b i).regs = s.regs := by
  have hend : s.endSlot b i = ((s.setSlot b i none).updBay b fun y => { y with fenceFails := y.fenceFails ++ [(x.ord, c)] }).updThr b x.t
      fun r => { r with pend := r.pend.map fun (p : PendingG) =>
        if p.amo = true ∧ p.qseq = x.qseq then { p with failed := some c } else p } := by
    unfold State.endSlot
    simp only [hslot, State.slotOver, hkind, hacks, hcoll, hfail]
    rfl
  rw [hend]
  refine ⟨?_, rfl, rfl⟩
  rw [State.bay_updThr_self, Bay.slot, (setThr_slots ..).1, State.bay_updBay_self]
  exact State.slot_setSlot_self ..

/-- A failure of a remote atomic: counted, and its slot free. -/
theorem failSlot_endSlot_amo (hslot : (s.bay b).slot i = some x) (hkind : x.kind = .amo) (hacks : x.acks = [])
    (hcoll : x.forColl = none) (hfail : x.fail = none) (c : Code) : (((s.failSlot b i c).endSlot b i).bay b).slot i = none
      ∧ ((s.failSlot b i c).endSlot b i).regs = (s.msgError b i x c).regs ∧ ((s.failSlot b i c).endSlot b i).mem = s.mem
      ∧ Safety.keepsBays s ((s.failSlot b i c).endSlot b i) b := by
  obtain ⟨honly, -⟩ := msgError_onlyRegs s b i x c
  obtain ⟨hfree, hmem, hregs⟩ := endSlot_amoFailed (s := (s.msgError b i x c).setSlot b i (some { x with fail := some c }))
    (State.slot_setSlot_self ..) hkind hacks hcoll rfl
  obtain ⟨hbays, -⟩ := endSlot_keeps ((s.msgError b i x c).setSlot b i (some { x with fail := some c })) b i
  rw [failSlot_first hslot hfail]
  have herr : (s.msgError b i x c).mem = s.mem := by rw [honly]
  refine ⟨hfree, hregs, hmem.trans herr, fun d hd => ?_⟩
  rw [hbays d hd, State.setSlot_keepsBays _ _ _ _ d hd, honly]
  rfl

theorem setMemBytes_mem_congr (h : u.mem = s.mem) (a : Nat) (l : List Byte) : (u.setMemBytes a l).mem = (s.setMemBytes a l).mem := by
  induction l generalizing s u a with
  | nil => exact h
  | cons v l ih => exact ih (congrArg (fun m => smapSet (fun _ => 0) m a v) h) (a + 1)

/-! #### Sends without a reply -/

theorem opAmoResend_due (hclock : s.clockOff = false) (hslot : s.amoSlot b i = some x) (hrefused : x.refused = false)
    (hleft : s.fab.reqsLeft (.msg b i x.ord) = false) : opAmoResend b i s = if 9 ≤ x.sends ∨ x.first + 2000000 ≤ s.now
      then (((s.incF Fld.ABR_ATOM_STATS_UNKNOWN).bitsEvent cOUTCOME_UNKNOWN).failSlot b i cOUTCOME_UNKNOWN).endSlot b i
      else ((s.setSlot b i (some { x with sends := x.sends + 1 })).inject (s.amoReq b i x)).tickEvent := by
  unfold opAmoResend
  simp only [hslot, hclock, hleft, hrefused, Bool.or_self, Bool.false_eq_true, if_false]

/-- A Bits event leaves VALID 0. -/
theorem bitsEvent_valid (s : State) (c : Code) : (s.bitsEvent c).getF Fld.LDG_STEP_STATUS_VALID = 0 := by
  have hvalid : (s.setF Fld.LDG_STEP_STATUS_VALID 0).getF Fld.LDG_STEP_STATUS_VALID = 0 := getF_setF_same (by decide)
  unfold State.bitsEvent
  dsimp only
  split
  · exact (getF_setF_beside (by decide)).trans hvalid
  · exact hvalid

/-- The state in which an atomic's outcome is counted as unknown. -/
def State.unknownOutcome (s : State) : State := (s.incF Fld.ABR_ATOM_STATS_UNKNOWN).bitsEvent cOUTCOME_UNKNOWN

theorem unknownOutcome_regs (s : State) {r : Nat} (hstats : r ≠ RegId.ABR_ATOM_STATS.addr) (hstep : r ≠ RegId.LDG_STEP_STATUS.addr) :
    s.unknownOutcome.reg r = s.reg r :=
  (State.reg_bitsEvent_ne _ _ _ hstep).trans (State.reg_incF_ne _ _ _ _ hstats)

/-- An atomic whose outcome is unknown is counted twice, and breaks the step's Bits validity. -/
theorem unknownOutcome_shows (s : State) (b : BayId) (i : Nat) (x : Slot) :
    (s.unknownOutcome.msgError b i x cOUTCOME_UNKNOWN).getF Fld.ABR_ATOM_STATS_UNKNOWN
      = (s.getF Fld.ABR_ATOM_STATS_UNKNOWN + 1) % 2 ^ Fld.ABR_ATOM_STATS_UNKNOWN.width
    ∧ (s.unknownOutcome.msgError b i x cOUTCOME_UNKNOWN).getF (Fld.BAY_MSG_ERR_CNT_COUNT b.toNat)
      = (s.getF (Fld.BAY_MSG_ERR_CNT_COUNT b.toNat) + 1) % 2 ^ 32
    ∧ (s.unknownOutcome.msgError b i x cOUTCOME_UNKNOWN).getF Fld.LDG_STEP_STATUS_VALID = 0 := by
  obtain ⟨-, hregs⟩ := msgError_onlyRegs s.unknownOutcome b i x cOUTCOME_UNKNOWN
  obtain ⟨hcount, -⟩ := msgError_shows s.unknownOutcome b i x cOUTCOME_UNKNOWN
  have hother {r : RegId} (hn1 : 0 < r.spec.n1) (hn2 : 0 < r.spec.n2) (h : r ≠ .BAY_MSG_ERR) (h' : r ≠ .BAY_MSG_ERR_CNT) :
      r.addr ∉ [RegId.BAY_MSG_ERR.addr b.toNat, RegId.BAY_MSG_ERR_CNT.addr b.toNat] := by
    simp only [List.mem_cons, List.not_mem_nil, or_false, not_or]
    exact ⟨RegId.addr_ne r .BAY_MSG_ERR hn1 hn2 b.isLt Nat.one_pos h, RegId.addr_ne r .BAY_MSG_ERR_CNT hn1 hn2 b.isLt Nat.one_pos h'⟩
  have hstats : s.unknownOutcome.getF Fld.ABR_ATOM_STATS_UNKNOWN
      = (s.getF Fld.ABR_ATOM_STATS_UNKNOWN + 1) % 2 ^ Fld.ABR_ATOM_STATS_UNKNOWN.width :=
    (congrArg (fieldOf · 0 16) (State.reg_bitsEvent_ne _ _ _ (RegId.addr_ne .ABR_ATOM_STATS .LDG_STEP_STATUS Nat.one_pos Nat.one_pos
      Nat.one_pos Nat.one_pos (by decide)))).trans (getF_setF_same (by decide))
  have hbefore : s.unknownOutcome.getF (Fld.BAY_MSG_ERR_CNT_COUNT b.toNat) = s.getF (Fld.BAY_MSG_ERR_CNT_COUNT b.toNat) :=
    congrArg (fieldOf · 0 32) (unknownOutcome_regs s
      (RegId.addr_ne .BAY_MSG_ERR_CNT .ABR_ATOM_STATS b.isLt Nat.one_pos Nat.one_pos Nat.one_pos (by decide))
      (RegId.addr_ne .BAY_MSG_ERR_CNT .LDG_STEP_STATUS b.isLt Nat.one_pos Nat.one_pos Nat.one_pos (by decide)))
  refine ⟨Eq.trans ?_ hstats, hcount.trans (by rw [hbefore]),
    Eq.trans ?_ (bitsEvent_valid (s.incF Fld.ABR_ATOM_STATS_UNKNOWN) cOUTCOME_UNKNOWN)⟩
  · exact congrArg (fieldOf · 0 16) (hregs _ (hother (r := .ABR_ATOM_STATS) Nat.one_pos Nat.one_pos (by decide) (by decide)))
  · exact congrArg (fieldOf · 63 1) (hregs _ (hother (r := .LDG_STEP_STATUS) Nat.one_pos Nat.one_pos (by decide) (by decide)))

end

end Sys2Proof.Machine

namespace Sys2Proof
open Machine

/-- Settles O46, clause by clause: pieces by `getData_piece`, the responder's answers by `amoHandle_again`, `amoHandle_refused` and
`amoHandle_full`, the requester's ends by `deliverAmo_endSlot` and `failSlot_endSlot_amo`. -/
theorem remoteReadsAndAtomics : Obligations.RemoteReadsAndAtomics := by
  unfold Obligations.RemoteReadsAndAtomics
  refine ⟨fun p b s x n htype hece hdst hclock hover hslot hkind hcoll hfail hlt hn => ?_,
    fun b slot s x hslot hkind hdev hleft => congrArg Host.Outcome.next (opGetRetry_bay hslot hkind hdev hleft),
    fun p s h hd htype hdst hready hh hhd => ?_, fun p s x htype hdst hx his hgen htomb hroom => ?_,
    fun p b s x h htype hdst hclock hslot hgen hcoll hacks hlen hh => ?_,
    fun b slot s x h hclock hslot hrefused hcoll hacks hleft hh => ?_, fun h d b slot s hnone => ?_⟩
  · have hrun := opGetRsp_bay htype hece hdst hclock
    refine ⟨fun hagain => ?_, fun hnew hdone hmore h1 h2 => ?_⟩
    · rw [getData_again (s := s.takeArrived p) hslot hagain, State.settledAll_of_handedOver _ (handedOver_takeArrived hover)] at hrun
      exact congrArg Host.Outcome.next hrun
    · rw [getData_piece (s := s.takeArrived p) hslot hkind hcoll hfail hlt hn hnew hdone hmore h1 h2,
        State.settledAll_of_handedOver _ (handedOver_setMemBytes (s := (s.takeArrived p).setSlot ..) hover _ _)] at hrun
      refine ⟨_, congrArg Host.Outcome.next hrun, ?_, ?_, ?_, ?_, fun c hc => ?_⟩
      · rw [State.setMemBytes_bay, State.slot_setSlot_self]
      · refine setMemBytes_mem_congr ?_ _ _
        rfl
      · rw [State.setMemBytes_mem_only]
        rfl
      · rw [State.setMemBytes_mem_only]
        rfl
      · rw [State.setMemBytes_bay]
        exact State.setSlot_keepsBays _ _ _ _ c hc
  · subst hh hhd
    have hrun := opAmoReq_ready htype hdst hready
    have hsame : SameRoutes s (s.takeArrived p) := .of_regs rfl rfl rfl
    refine ⟨fun r hfind hgen htomb => ?_, fun hfind => ⟨fun c hroom hc hrefuse => ?_, fun hfull => ?_⟩⟩
    · have hsame := hsame.trans (.of_onlyRegs (incF_tickEvent_onlyRegs (f := Fld.ABR_ATOM_STATS_DUP_SERVED) rfl))
      obtain ⟨hfab, hmem, hbays⟩ := incF_tickEvent_frame (s.takeArrived p) Fld.ABR_ATOM_STATS_DUP_SERVED
      obtain ⟨y, hheld, ytype, ydst, ystatus, ygen, yslot, ydata⟩ := amoReply_held hsame p r.status r.result
      rw [amoHandle_again (s := s.takeArrived p) hfind hgen htomb] at hrun
      exact ⟨_, y, congrArg Host.Outcome.next hrun, hheld.trans (congrArg (· ++ [y]) (heldOf_of_fab hfab _)), ytype, ydst, ystatus, ygen,
        yslot, ydata, getF_incF_tickEvent (by decide), (State.inject_atoms ..).trans (by rw [hfab]; rfl), hmem, hbays⟩
    · have hlog := unpark_withRecord_getLast (s.takeArrived p) p c (atomHeader p)
      obtain ⟨hregs, hmem, hbays, hroutes, hheld'⟩ :=
        unpark_frame ((s.takeArrived p).withRecord p ((s.takeArrived p).refusedRec p c)) (atomHeader p)
      have hsame : SameRoutes s ((s.takeArrived p).withRecord p ((s.takeArrived p).refusedRec p c)) := .of_regs rfl rfl rfl
      obtain ⟨y, hheld, ytype, -, ystatus, -⟩ := amoReply_held (hsame.trans hroutes) p c 0
      rw [amoHandle_refused (s := s.takeArrived p) hfind hroom hc hrefuse] at hrun
      exact ⟨_, y, _, congrArg Host.Outcome.next hrun, hheld.trans (congrArg (· ++ [y]) (hheld' _)), ytype, ystatus,
        (congrArg List.getLast? (State.inject_atoms ..)).trans hlog, rfl, rfl, rfl, rfl, rfl, hregs, hmem, hbays⟩
    · have hsame := hsame.trans (.of_onlyRegs (incF_tickEvent_onlyRegs (f := Fld.ABR_ATOM_STATS_CAP_REFUSED) rfl))
      obtain ⟨hfab, hmem, hbays⟩ := incF_tickEvent_frame (s.takeArrived p) Fld.ABR_ATOM_STATS_CAP_REFUSED
      obtain ⟨y, hheld, ytype, -, ystatus, -⟩ := amoReply_held hsame p cCAPACITY 0
      rw [amoHandle_full (s := s.takeArrived p) hfind hfull] at hrun
      exact ⟨_, y, congrArg Host.Outcome.next hrun, hheld.trans (congrArg (· ++ [y]) (heldOf_of_fab hfab _)), ytype, ystatus,
        (State.inject_atoms ..).trans (by rw [hfab]; rfl), hmem, hbays⟩
  · exact ⟨_, rfl, opAmoRel_shows htype hdst hx his hgen htomb hroom⟩
  · subst hh
    obtain ⟨hslot', hkind, hfail⟩ := amoSlot_some hslot
    have hrun := opAmoRsp_heard htype hdst hclock hslot hgen
    refine ⟨fun hfull => ?_, fun hdone => ?_⟩
    · rw [if_pos hfull] at hrun
      refine ⟨_, congrArg Host.Outcome.next hrun, ?_, State.tickEvent_mem .., fun c hc => ?_⟩
      · rw [State.tickEvent_bay, State.slot_setSlot_self]
      · rw [State.tickEvent_bay]
        exact State.setSlot_keepsBays (s.takeArrived p) _ _ _ c hc
    · have hsame : SameRoutes s (s.takeArrived p) := .of_regs rfl rfl rfl
      obtain ⟨y, hheld, ytype, ygen, yslot⟩ := amoRelease_held hsame b p.slot x
      rw [if_neg (by rw [hdone]; decide)] at hrun
      dsimp only at hrun
      rw [if_pos hdone, deliverAmo_endSlot (s := (s.takeArrived p).amoRelease b p.slot.toNat x) hslot' hkind hacks hcoll hfail] at hrun
      refine ⟨_, y, congrArg Host.Outcome.next hrun, State.slot_setSlot_self .., ?_, hheld, ytype, ygen, yslot, rfl, rfl,
        fun c hc => ?_⟩
      · rw [State.thr_setSlot, State.thr_updThr_self, State.thr_setSlot]
        rfl
      · rw [State.setSlot_keepsBays _ _ _ _ c hc, State.bay_updThr_ne _ _ _ _ _ hc, State.setSlot_keepsBays _ _ _ _ c hc]
        rfl
  · subst hh
    obtain ⟨hslot', hkind, hfail⟩ := amoSlot_some hslot
    have hrun := opAmoResend_due hclock hslot hrefused hleft
    refine ⟨fun hsends hnow => ?_, fun hover => ?_⟩
    · have hsame : SameRoutes s (s.setSlot b slot.toNat (some { x with sends := x.sends + 1 })) := .of_regs rfl rfl rfl
      obtain ⟨y, hheld, ytype, ygen, yaop⟩ := amoReq_held hsame b slot.toNat x rfl
      rw [if_neg (by omega)] at hrun
      refine ⟨_, y, congrArg Host.Outcome.next hrun, ?_, (heldOf_of_fab (State.tickEvent_fab ..) _).trans hheld, ytype, ygen, yaop,
        State.tickEvent_mem .., fun c hc => ?_, fun r hr => ?_⟩
      · rw [State.tickEvent_bay]
        exact State.slot_setSlot_self s b _ _
      · rw [State.tickEvent_bay]
        exact State.setSlot_keepsBays s _ _ _ c hc
      · exact State.reg_tickEvent_ne _ _ _ fun e => hr (e ▸ List.mem_cons_self ..)
    · rw [if_pos hover] at hrun
      have hslot'' : (s.unknownOutcome.bay b).slot slot.toNat = some x := by
        rw [State.unknownOutcome, State.bitsEvent_bay]
        exact hslot'
      obtain ⟨hfree, hregs, hmem, hbays⟩ := failSlot_endSlot_amo hslot'' hkind hacks hcoll hfail cOUTCOME_UNKNOWN
      obtain ⟨hunknown, hcount, hvalid⟩ := unknownOutcome_shows s b slot.toNat x
      refine ⟨_, congrArg Host.Outcome.next hrun, hfree, (getF_of_regs hregs _).trans hunknown, (getF_of_regs hregs _).trans hcount,
        (getF_of_regs hregs _).trans hvalid, hmem.trans (State.bitsEvent_mem ..), fun c hc => (hbays c hc).trans ?_⟩
      exact State.bitsEvent_bay ..
  · have hrun := unpark_none (s := { s with fab := { s.fab with
      atoms := s.fab.atoms.filter fun x => !(x.is h d b.toNat slot && decide (x.time + 20000000 ≤ s.now)) } })
      (fun y hy => hnone y (List.mem_filter.mp hy).1) h
    exact ⟨_, congrArg Host.Outcome.next hrun, rfl, rfl⟩

end Sys2Proof
end

section

/-! ### Chunks, credits and acknowledgements (R212 to R218, R224) -/

set_option Elab.async false

namespace Sys2Proof.Machine

/-! #### The fields of a chunk header (R213) -/

theorem leNat_leBytes (n v : Nat) : leNat (leBytes n v) = v % 256 ^ n := by
  induction n generalizing v with
  | zero => rw [pow_zero, Nat.mod_one]; rfl
  | succ n ih =>
    have h : leNat (leBytes (n + 1) v) = v % 256 + 256 * (v / 256 % 256 ^ n) := by
      rw [leBytes, leNat, ih, BitVec.toNat_ofNat]
    rw [h, pow_succ', Nat.mod_mul]

/-- A field of a header, from the bytes before it. -/
theorem hdrField_of_split {h l m : List Byte} {n v : Nat} (hh : h = l ++ (leBytes n v ++ m)) :
    hdrField h l.length n = v % 256 ^ n := by
  rw [hdrField, hh, List.drop_left, List.take_left' (leBytes_length n v), leNat_leBytes]

section
variable {s : State} {b : BayId} {k : CollBlock} {c : Coll} {i r : Nat} {bs h payload : List Byte}

/-- The zero and last bits of a header. -/
def chunkBits (k : CollBlock) (i : Nat) (bs : List Byte) : Nat :=
  (if allZero bs then 1 else 0) + (if i + 1 = k.nc then 2 else 0)

theorem chunkHeader_fields (k : CollBlock) (d : BitVec 32) (e i : Nat) (bs : List Byte) :
    hdrField (chunkHeader k d e i bs) 0 2 = k.group.toNat % 256 ^ 2 ∧ hdrField (chunkHeader k d e i bs) 2 2 = i % 256 ^ 2
    ∧ hdrField (chunkHeader k d e i bs) 4 4 = k.seq.toNat % 256 ^ 4 ∧ hdrField (chunkHeader k d e i bs) 8 4 = d.toNat % 256 ^ 4
    ∧ hdrField (chunkHeader k d e i bs) 12 1 = chunkBits k i bs % 256 ^ 1
    ∧ hdrField (chunkHeader k d e i bs) 16 8 = (crc64 bs).toNat % 256 ^ 8 ∧ hdrField (chunkHeader k d e i bs) 24 4 = bs.length % 256 ^ 4
    ∧ hdrField (chunkHeader k d e i bs) 28 4 = e % 256 ^ 4 := by
  have hgroup := hdrField_of_split (h := chunkHeader k d e i bs) (l := []) (n := 2) (v := k.group.toNat)
    (by simp only [chunkHeader, List.append_assoc, List.nil_append]; rfl)
  have hidx := hdrField_of_split (h := chunkHeader k d e i bs) (l := leBytes 2 k.group.toNat) (n := 2) (v := i)
    (by simp only [chunkHeader, List.append_assoc]; rfl)
  have hseq := hdrField_of_split (h := chunkHeader k d e i bs) (l := leBytes 2 k.group.toNat ++ leBytes 2 i) (n := 4) (v := k.seq.toNat)
    (by simp only [chunkHeader, List.append_assoc]; rfl)
  have hdigest := hdrField_of_split (h := chunkHeader k d e i bs)
    (l := leBytes 2 k.group.toNat ++ leBytes 2 i ++ leBytes 4 k.seq.toNat) (n := 4) (v := d.toNat)
    (by simp only [chunkHeader, List.append_assoc]; rfl)
  have hbits := hdrField_of_split (h := chunkHeader k d e i bs)
    (l := leBytes 2 k.group.toNat ++ leBytes 2 i ++ leBytes 4 k.seq.toNat ++ leBytes 4 d.toNat) (n := 1) (v := chunkBits k i bs)
    (by simp only [chunkHeader, chunkBits, List.append_assoc]; rfl)
  have hcrc := hdrField_of_split (h := chunkHeader k d e i bs)
    (l := leBytes 2 k.group.toNat ++ leBytes 2 i ++ leBytes 4 k.seq.toNat ++ leBytes 4 d.toNat ++ leBytes 1 (chunkBits k i bs)
      ++ leBytes 3 0) (n := 8) (v := (crc64 bs).toNat)
    (by simp only [chunkHeader, chunkBits, List.append_assoc]; rfl)
  have hlen := hdrField_of_split (h := chunkHeader k d e i bs)
    (l := leBytes 2 k.group.toNat ++ leBytes 2 i ++ leBytes 4 k.seq.toNat ++ leBytes 4 d.toNat ++ leBytes 1 (chunkBits k i bs)
      ++ leBytes 3 0 ++ leBytes 8 (crc64 bs).toNat) (n := 4) (v := bs.length)
    (by simp only [chunkHeader, chunkBits, List.append_assoc]; rfl)
  have hepoch := hdrField_of_split (h := chunkHeader k d e i bs)
    (l := leBytes 2 k.group.toNat ++ leBytes 2 i ++ leBytes 4 k.seq.toNat ++ leBytes 4 d.toNat ++ leBytes 1 (chunkBits k i bs)
      ++ leBytes 3 0 ++ leBytes 8 (crc64 bs).toNat ++ leBytes 4 bs.length) (n := 4) (v := e) (m := [])
    (by simp only [chunkHeader, chunkBits, List.append_assoc, List.append_nil])
  simp only [List.length_append, leBytes_length, List.length_nil] at hgroup hidx hseq hdigest hbits hcrc hlen hepoch
  exact ⟨hgroup, hidx, hseq, hdigest, hbits, hcrc, hlen, hepoch⟩

/-- What a chunk's header and payload tell the member that receives it as chunk `i` of `k` with the bytes `bs`. -/
structure RightHeader (s : State) (k : CollBlock) (i : Nat) (bs h payload : List Byte) : Prop where
  group : BitVec.ofNat 12 (hdrField h 0 2) = k.group
  index : hdrField h 2 2 = i
  seq : BitVec.ofNat 32 (hdrField h 4 4) = k.seq
  digest : hdrField h 8 4 = (s.digestOf k).toNat
  epoch : hdrField h 28 4 = s.getF Fld.ABR_EPOCH_CURRENT
  bytes : (if hdrField h 12 1 % 2 = 1 then List.replicate (hdrField h 24 4) (0 : Byte) else payload) = bs
  check : crc64 bs = BitVec.ofNat 64 (hdrField h 16 8)
  length : bs.length = k.chunkLen i
  inRange : i < k.nc

theorem CollBlock.chunkLen_lt (k : CollBlock) (i : Nat) : k.chunkLen i < 2 ^ 21 := by
  have hlen : k.len < 2 ^ 21 := fieldOf_lt ..
  unfold CollBlock.chunkLen CollBlock.chunkEnd
  omega

/-- A region holds at most 2 MiB in chunks of at least 4 KiB, so an index fits the header (R203, R213). -/
theorem CollBlock.index_lt {k : CollBlock} {i : Nat} (hi : i < k.nc) : i < 2 ^ 16 := by
  have hlen : k.len < 2 ^ 21 := fieldOf_lt ..
  have hpos : 1 ≤ 2 ^ k.chunkCode := Nat.one_le_two_pow
  have hchunk : 4096 ≤ k.chunk := by unfold CollBlock.chunk; omega
  have hle : (i + 1) * k.chunk ≤ k.len + k.chunk - 1 := (Nat.le_div_iff_mul_le (by omega)).mp hi
  have hmul : i * 4096 ≤ i * k.chunk := Nat.mul_le_mul_left i hchunk
  rw [Nat.add_mul] at hle
  omega

theorem replicate_of_allZero (hz : allZero bs = true) : List.replicate bs.length 0 = bs :=
  (List.eq_replicate_of_mem fun x hx => beq_iff_eq.mp (List.all_eq_true.mp hz x hx)).symm

theorem chunkBits_mod_two (k : CollBlock) (i : Nat) (bs : List Byte) : chunkBits k i bs % 256 ^ 1 % 2 = 1 ↔ allZero bs = true := by
  unfold chunkBits
  by_cases hlast : i + 1 = k.nc <;> cases allZero bs <;> simp [hlast]

theorem rightHeader_of_chunkHeader (hh : h = chunkHeader k (s.digestOf k) (s.getF Fld.ABR_EPOCH_CURRENT) i bs)
    (hp : allZero bs = false → payload = bs) (hlen : bs.length = k.chunkLen i) (hi : i < k.nc) : RightHeader s k i bs h payload := by
  obtain ⟨hgroup, hindex, hseq, hdigest, hbits, hcrc, hsize, hepoch⟩ :=
    chunkHeader_fields k (s.digestOf k) (s.getF Fld.ABR_EPOCH_CURRENT) i bs
  rw [← hh] at hgroup hindex hseq hdigest hbits hcrc hsize hepoch
  have hsmall := k.chunkLen_lt i
  have hi16 := CollBlock.index_lt hi
  have hepochlt : s.getF Fld.ABR_EPOCH_CURRENT < 2 ^ 32 := fieldOf_lt ..
  exact {
    group := by rw [hgroup, Nat.mod_eq_of_lt (by omega), BitVec.ofNat_toNat, BitVec.setWidth_eq]
    index := by rw [hindex, Nat.mod_eq_of_lt (by omega)]
    seq := by rw [hseq, Nat.mod_eq_of_lt (by omega), BitVec.ofNat_toNat, BitVec.setWidth_eq]
    digest := by rw [hdigest, Nat.mod_eq_of_lt (by omega)]
    epoch := by rw [hepoch, Nat.mod_eq_of_lt (by omega)]
    bytes := by
      rw [hbits, hsize, Nat.mod_eq_of_lt (a := bs.length) (by omega)]
      cases hz : allZero bs with
      | true => rw [if_pos ((chunkBits_mod_two k i bs).mpr hz), replicate_of_allZero hz]
      | false => rw [if_neg (by rw [chunkBits_mod_two, hz]; decide), hp hz]
    check := by rw [hcrc, Nat.mod_eq_of_lt (by omega), BitVec.ofNat_toNat, BitVec.setWidth_eq]
    length := hlen
    inRange := hi }

/-! #### A chunk that arrives -/

theorem opChunk_unopened (hc : (s.bay b).coll (BitVec.ofNat 12 (hdrField h 0 2)) (BitVec.ofNat 32 (hdrField h 4 4)) = none) :
    opChunk b r h payload s = (s.takeInner b r h).answer cRANGE := by
  simp only [opChunk, hc]

theorem opChunk_waits (hc : (s.bay b).coll (BitVec.ofNat 12 (hdrField h 0 2)) (BitVec.ofNat 32 (hdrField h 4 4)) = some c)
    (hrun : s.seamRuns b = false) : opChunk b r h payload s = s := by
  simp only [opChunk, hc, hrun, Bool.not_false, if_true]

theorem opChunk_stale (hc : (s.bay b).coll (BitVec.ofNat 12 (hdrField h 0 2)) (BitVec.ofNat 32 (hdrField h 4 4)) = some c)
    (hj : c.joined = true) (hrun : s.seamRuns b = true) (he : hdrField h 28 4 ≠ s.getF Fld.ABR_EPOCH_CURRENT) :
    opChunk b r h payload s = (s.takeInner b r h).answer cEPOCH_STALE := by
  have he' : hdrField h 28 4 ≠ (s.takeInner b r h).getF Fld.ABR_EPOCH_CURRENT := he
  simp only [opChunk, hc, hj, hrun, Bool.not_true, Bool.false_eq_true, if_false, if_pos he']

/-- The state in which the handlers take a chunk of a collective: off the wire, its sender heard. -/
def State.hearing (s : State) (b : BayId) (r : Nat) (h : List Byte) (c : Coll) : State :=
  (s.takeInner b r h).setColl b (c.hear r s.now)

theorem State.bayWrite_hearing (h1 : s.ecc1 = []) (h2 : s.ecc2 = []) (o : Nat) :
    (s.hearing b r h c).bayWrite b o bs = ((s.hearing b r h c).setMemBytes (bayAddr b o) bs, false) :=
  State.bayWrite_clean _ b o bs h1 h2

/-- A chunk with a right header that reaches running handlers: a broadcast member stores its parent's next chunk in its region
(R214), a reduce member its child's next chunk in the child's free staging slot (R217). -/
theorem opChunk_taken (hh : RightHeader s c.blk i bs h payload) (hc : (s.bay b).coll c.blk.group c.blk.seq = some c)
    (hj : c.joined = true) (hrun : s.seamRuns b = true) (h1 : s.ecc1 = []) (h2 : s.ecc2 = []) :
    (c.blk.reduce = false → c.parent.map (fun n => n.rank) = some r → i = c.done →
      opChunk b r h payload s = ((((s.hearing b r h c).setMemBytes (bayAddr b (c.blk.region + i * c.blk.chunk)) bs).setColl b
        { c.hear r s.now with done := i + 1 }).work b c.blk.group c.blk.seq).answer cDONE)
    ∧ (∀ j m, c.blk.reduce = true → c.children.findIdx? (fun m => m.rank == r) = some j → c.children[j]? = some m →
        m.staged = none → i = m.sent →
      opChunk b r h payload s = ((((s.hearing b r h c).setMemBytes (bayAddr b (c.blk.stage + j * c.blk.chunk)) bs).setColl b
        ((c.hear r s.now).updChild r fun m => { m with staged := some i, sent := i + 1 })).work b c.blk.group c.blk.seq).answer
          cDONE) := by
  obtain ⟨hgroup, hindex, hseq, hdigest, hepoch, hbytes, hcheck, hlength, hrange⟩ := hh
  have hepoch' : ¬hdrField h 28 4 ≠ (s.takeInner b r h).getF Fld.ABR_EPOCH_CURRENT := fun hne => hne hepoch
  have hdigest' : ¬hdrField h 8 4 ≠ ((s.hearing b r h c).digestOf c.blk).toNat := fun hne => hne hdigest
  have hfit : ¬(crc64 bs ≠ BitVec.ofNat 64 (hdrField h 16 8) ∨ bs.length ≠ c.blk.chunkLen i ∨ c.blk.nc ≤ i) := by
    rintro (hne | hne | hle)
    · exact hne hcheck
    · exact hne hlength
    · exact absurd hrange (Nat.not_lt.mpr hle)
  have hnow : (s.takeInner b r h).now = s.now := rfl
  have hblk : (c.hear r s.now).blk = c.blk := rfl
  have hw := fun o => State.bayWrite_hearing (b := b) (r := r) (h := h) (c := c) (bs := bs) h1 h2 o
  unfold State.hearing at hw hdigest' ⊢
  refine ⟨fun hred hp hi => ?_, fun j m hred hidx hget hfree hi => ?_⟩
  · have hp' : (c.hear r s.now).parent.map (fun n => n.rank) = some r := hp
    have hdone : (c.hear r s.now).done = i := hi.symm
    simp only [opChunk, hgroup, hindex, hseq, hbytes, hc, hrun, hj, if_neg hepoch', hnow, hblk, if_neg hdigest', if_neg hfit, hred,
      Bool.not_true, Bool.false_eq_true, if_false, hp', hdone, ne_eq, not_true_eq_false, lt_irrefl, hw]
  · have hchildren : (c.hear r s.now).children = c.children := rfl
    simp only [opChunk, hgroup, hindex, hseq, hbytes, hc, hrun, hj, if_neg hepoch', hnow, hblk, if_neg hdigest', if_neg hfit, hred,
      Bool.not_true, Bool.false_eq_true, if_false, if_true, hchildren, hidx, hget, hfree, ← hi, Option.isSome_none, Bool.false_or,
      bne_self_eq_false, lt_irrefl, hw]

/-! #### Credits and acknowledgements -/

theorem opCredit_reduce {g : BitVec 12} {q : BitVec 32} {p : Neighbour} (hc : (s.bay b).coll g q = some c) (hj : c.joined = true)
    (hred : c.blk.reduce = true) (hp : c.parent = some p) :
    opCredit b g q s = (((((s.takeNote 9 b.toNat .credit [g.toNat, q.toNat]).setColl b
      ({ c with parent := some { p with credit := true } }.hear p.rank s.now)).work b g q).settled).answer cDONE) := by
  have hc' : ((s.takeNote 9 b.toNat .credit [g.toNat, q.toNat]).bay b).coll g q = some c := hc
  simp only [opCredit, hc', hp, hj, hred, Bool.and_self, if_true]
  rfl

theorem chunkAck_broadcast {g : BitVec 12} {q : BitVec 32} (hc : (s.bay b).coll g q = some c) (hred : c.blk.reduce = false) :
    s.chunkAck b g q r i cDONE = (s.setColl b (c.updChild r fun n =>
      if n.acked = i ∧ i < n.sent then { n with acked := n.acked + 1 } else n)).work b g q := by
  have hfar : farDetects cDONE = false := by decide
  cases hp : c.parent with
  | none => simp only [State.chunkAck, hc, hfar, hp, hred, Bool.false_eq_true, if_false, ne_eq, not_true_eq_false]
  | some p => simp only [State.chunkAck, hc, hfar, hp, hred, Bool.false_eq_true, if_false, ne_eq, not_true_eq_false, and_false]

theorem opChunkAck_broadcast {g : BitVec 12} {q : BitVec 32} {rank idx : BitVec 16} (hc : (s.bay b).coll g q = some c)
    (hred : c.blk.reduce = false) (hexp : c.blk.experts = false) :
    opChunkAck b g q rank idx cDONE s = ((s.setColl b (c.updChild rank.toNat fun n =>
      if n.acked = idx.toNat ∧ idx.toNat < n.sent then { n with acked := n.acked + 1 } else n)).work b g q).settled := by
  have hcap : (cDONE == cCAPACITY) = false := by decide
  simp only [opChunkAck, hc, hexp, hcap, Bool.or_self, Bool.false_eq_true, if_false, chunkAck_broadcast hc hred]

end

end Sys2Proof.Machine

namespace Sys2Proof
open Machine

/-- Settles O33: a chunk's header gives back the fields it was built from, so the handlers pass every check of R213 and store its
bytes; the refusals, credits and acknowledgements are branches of their operations. -/
theorem chunksCreditsAndAcknowledgements : Obligations.ChunksCreditsAndAcknowledgements := by
  unfold Obligations.ChunksCreditsAndAcknowledgements
  refine ⟨fun b r s c i data payload h hh hp hlen hi hc hj hrun h1 h2 => ?_,
    fun b r h payload s hand => ⟨fun hc => ?_, fun c hc hj hrun he => ?_, fun c hc hrun => ?_⟩,
    fun b s c p hc hj hred hp => congrArg Host.Outcome.next (opCredit_reduce hc hj hred hp),
    fun b r i s c hc hred hexp => congrArg Host.Outcome.next (opChunkAck_broadcast hc hred hexp)⟩
  · obtain ⟨hbroadcast, hreduce⟩ := opChunk_taken (rightHeader_of_chunkHeader hh hp hlen hi) hc hj hrun h1 h2
    exact ⟨fun hred hpar hnext => congrArg (fun u : State => Host.Outcome.next u.settled) (hbroadcast hred hpar hnext),
      fun j m hred hidx hget hfree hnext =>
        congrArg (fun u : State => Host.Outcome.next u.settled) (hreduce j m hred hidx hget hfree hnext)⟩
  · have hset := State.settled_of_handedOver ((s.takeInner b r.toNat h).answer cRANGE) hand
    exact congrArg Host.Outcome.next ((congrArg State.settled (opChunk_unopened hc)).trans hset)
  · have hset := State.settled_of_handedOver ((s.takeInner b r.toNat h).answer cEPOCH_STALE) hand
    exact congrArg Host.Outcome.next ((congrArg State.settled (opChunk_stale hc hj hrun he)).trans hset)
  · exact congrArg Host.Outcome.next ((congrArg State.settled (opChunk_waits hc hrun)).trans (State.settled_of_handedOver s hand))

end Sys2Proof

end

section

/-! ### What PRESS_ACCEPT does (R88, R97, R101, R105, R132) -/

set_option Elab.async false

namespace Sys2Proof.Machine

/-! #### Writing the same place twice -/

section
variable {α : Type}

theorem smapTrim_trim (k : Nat) (m : SMap α) : smapTrim k (smapTrim k m) = smapTrim k m := by
  induction m with
  | nil => rfl
  | cons p m ih =>
    by_cases h : k < p.1
    · simp [smapTrim, h]
    · simp [smapTrim, h, ih]

/-- A write at the key up to which a map was trimmed. -/
theorem smapSet_trim [DecidableEq α] (d : Nat → α) (m : SMap α) (k : Nat) (v : α) :
    smapSet d (smapTrim k m) k v = if v = d k then smapTrim k m else (k, v) :: smapTrim k m := by
  induction m with
  | nil => rfl
  | cons p m ih =>
    by_cases h : k < p.1
    · simp [smapTrim, smapSet, h]
    · simp [smapTrim, h, ih]

/-- The later of two writes at one key stands, whether or not the map is canonical. -/
theorem smapSet_smapSet [DecidableEq α] (d : Nat → α) (m : SMap α) (k : Nat) (v w : α) :
    smapSet d (smapSet d m k v) k w = smapSet d m k w := by
  induction m with
  | nil => by_cases hv : v = d k <;> simp [smapSet, smapTrim, hv]
  | cons p m ih =>
    obtain ⟨a, x⟩ := p
    obtain hlt | rfl | hgt := lt_trichotomy k a
    · by_cases hv : v = d k <;> simp [smapSet, smapTrim, hlt, hv]
    · by_cases hv : v = d k <;> simp [smapSet, smapSet_trim, smapTrim_trim, hv]
    · simp [smapSet, hgt.not_gt, hgt.ne', ih]

end

section
variable {s u : State} {b : BayId} {e : PressEntry} {rest : List PressEntry} {op : PressOp} {f : PFields}

theorem State.setBay_setBay (s : State) (b : BayId) (y z : Bay) : (s.setBay b y).setBay b z = s.setBay b z := by
  unfold State.setBay
  rw [smapSet_smapSet]

theorem State.updBay_updBay (s : State) (b : BayId) (g h : Bay → Bay) :
    (s.updBay b g).updBay b h = s.setBay b (h (g (s.bay b))) := by
  rw [State.updBay, State.bay_updBay_self, State.updBay, State.setBay_setBay]

theorem handedOver_updBay (hs : Safety.handedOver s) (g : Bay → Bay) : Safety.handedOver (s.updBay b g) := hs

/-! #### Accumulator blocks -/

/-- A bay's accumulator blocks after one of them is replaced. -/
theorem Bay.acc_setAcc (y : Bay) (one two : Bool) (a : AccBlock) : (y.setAcc one a).acc two = if two = one then a else y.acc two := by
  cases one <;> cases two <;> rfl

@[simp] theorem Bay.setAcc_pq (y : Bay) (one : Bool) (a : AccBlock) : (y.setAcc one a).pq = y.pq := by cases one <;> rfl

@[simp] theorem Bay.setAcc_active (y : Bay) (one : Bool) (a : AccBlock) : (y.setAcc one a).active = y.active := by cases one <;> rfl

@[simp] theorem Bay.setAcc_shadow (y : Bay) (one : Bool) (a : AccBlock) : (y.setAcc one a).shadow = y.shadow := by cases one <;> rfl

/-- Block ACC replaced, as the field of an instruction names it. -/
theorem Bay.setAcc_of_field (y : Bay) (c : BitVec 1) (a : AccBlock) :
    y.setAcc (c == 1) a = if c = 1 then { y with acc1 := a } else { y with acc0 := a } := by
  simp [Bay.setAcc]

theorem Bay.acc_of_field (y : Bay) (c : BitVec 1) : y.acc (c == 1) = if c = 1 then y.acc1 else y.acc0 := by simp [Bay.acc]

/-- ACC.WIN clears its block (R136). -/
theorem AccBlock.row_accWinOf (f : PFields) (a : AccBlock) (i : Nat) : (accWinOf f a).row i = AccRow.zero := rfl

theorem AccBlock.row_setRow (a : AccBlock) (i j : Nat) (r : AccRow) : (a.setRow i r).row j = if j = i then r else a.row j :=
  smapGet_set ..

/-- The clear path zeroes the rows listed and no other (R100). -/
theorem AccBlock.row_foldl_zero (l : List Nat) (a : AccBlock) (i : Nat) :
    (l.foldl (fun a r => a.setRow r .zero) a).row i = if i ∈ l then AccRow.zero else a.row i := by
  induction l generalizing a with
  | nil => simp
  | cons r l ih =>
    rw [List.foldl_cons, ih, AccBlock.row_setRow]
    by_cases hr : i = r <;> simp [hr]

/-! #### The head of the queue is accepted -/

/-- An instruction that completes leaves what it did, where nothing waits to be handed over. -/
theorem exec_pressAccept_done (hoff : s.clockOff = false) (hq : (s.bay b).pq = e :: rest) (hop : e.op = op) (hstrip : op.strips = false)
    (hrun : pressRun b op (s.updBay b fun y => { y with pq := rest }) = some (.done u)) (hu : Safety.handedOver u) :
    exec (.pressAccept b) s = .next u := by
  change Host.Outcome.next (opPressAccept b s) = _
  unfold opPressAccept
  simp [hoff, hq, hop, hstrip, hrun, State.settled_of_handedOver u hu]

/-- An instruction that changes its bay alone: the bay is the one after the change, its entry taken. -/
theorem exec_pressAccept_updBay {g : Bay → Bay} (hoff : s.clockOff = false) (hs : Safety.handedOver s) (hq : (s.bay b).pq = e :: rest)
    (hop : e.op = op) (hstrip : op.strips = false) (hrun : ∀ t, pressRun b op t = some (.done (t.updBay b g))) :
    exec (.pressAccept b) s = .next (s.setBay b (g { s.bay b with pq := rest })) := by
  rw [exec_pressAccept_done hoff hq hop hstrip (hrun _) (handedOver_updBay (handedOver_updBay hs _) _), State.updBay_updBay]

/-! #### An MM whose rows are folded out (R97) -/

/-- Rows whose mask bits are 0 are not fed: they are counted, and with ZR they are to be zeroed. -/
theorem mmRows_folded {k : Bank} {fa : Fmt} {depth : Nat} {a sc : Strided} {useS ow zr : Bool} {m : BitVec 128} {r0 pipe n i : Nat}
    {x : MmRun} (hx : x.over = false) (hm : ∀ j, i ≤ j → j < i + n → m.getLsbD j = false) :
    mmRows b k fa depth a sc useS ow zr (some m) r0 pipe n i x
      = { x with
          zero := if zr then x.zero ++ List.range' (r0 + i) n else x.zero
          cnt := { x.cnt with folded := x.cnt.folded + n } } := by
  induction n generalizing i x with
  | zero => simp [mmRows]
  | succ n ih =>
    have hi : m.getLsbD i = false := hm i (by omega) (by omega)
    rw [mmRows, if_neg (by simp [hx]), if_pos (by simp [hi])]
    refine (ih ?_ fun j h₁ h₂ => hm j (by omega) (by omega)).trans ?_
    · exact hx
    cases zr <;> simp [List.range'_succ, Nat.add_assoc, Nat.add_comm 1 n]

/-- What an MM that folds out `n` rows and feeds none leaves in the counters (R112). -/
def State.countFolded (s : State) (b : BayId) (n : Nat) : State := s.mmCount b { MmCounts.zero with folded := n }

theorem countFolded_eq (s : State) (b : BayId) (n : Nat) :
    s.countFolded b n = if n = 0 then s else s.incF (Fld.PRS_SKIPS_MASK_FOLDED b.toNat) n := rfl

theorem countFolded_onlyRegs (s : State) (b : BayId) (n : Nat) :
    Safety.onlyRegs s (s.countFolded b n) [RegId.PRS_SKIPS.addr b.toNat] := by
  rw [countFolded_eq]
  split
  · exact ⟨rfl, fun _ _ => rfl⟩
  · exact ⟨rfl, fun a ha => State.reg_incF_ne _ _ _ _ (List.mem_singleton.not.mp ha)⟩

theorem countFolded_bay (s : State) (b c : BayId) (n : Nat) : (s.countFolded b n).bay c = s.bay c :=
  congrArg (·.bay c) (countFolded_onlyRegs s b n).1

theorem countFolded_mem (s : State) (b : BayId) (n : Nat) : (s.countFolded b n).mem = s.mem :=
  congrArg (·.mem) (countFolded_onlyRegs s b n).1

theorem countFolded_ecc1 (s : State) (b : BayId) (n : Nat) : (s.countFolded b n).ecc1 = s.ecc1 :=
  congrArg (·.ecc1) (countFolded_onlyRegs s b n).1

theorem countFolded_updBay (s : State) (b : BayId) (g : Bay → Bay) (n : Nat) :
    (s.updBay b g).countFolded b n = (s.countFolded b n).updBay b g := by
  rw [countFolded_eq, countFolded_eq]
  split <;> rfl

theorem handedOver_countFolded (hs : Safety.handedOver s) (n : Nat) : Safety.handedOver (s.countFolded b n) :=
  handedOver_of_onlyRegs hs (countFolded_onlyRegs s b n)
    (List.mem_singleton.not.mpr (RegId.addr_ne .HBM_CAP .PRS_SKIPS Nat.one_pos Nat.one_pos b.isLt Nat.one_pos (by decide)))

/-- A block after an MM that folds out every row: rows `r0` to `r0` + m − 1 are zeroed where ZR is 1. -/
def foldedAcc (f : PFields) (gr : Word) (a : AccBlock) : AccBlock :=
  (if f.mod.getLsbD 1 then List.range' (rowRange gr).r0 (rowRange gr).m else []).foldl (fun a r => a.setRow r .zero) a

theorem row_foldedAcc (f : PFields) (gr : Word) (a : AccBlock) (i : Nat) : (foldedAcc f gr a).row i =
    if f.mod.getLsbD 1 = true ∧ (rowRange gr).r0 ≤ i ∧ i < (rowRange gr).r0 + (rowRange gr).m then AccRow.zero else a.row i := by
  rw [foldedAcc, AccBlock.row_foldl_zero]
  cases f.mod.getLsbD 1 <;> simp [List.mem_range'_1]

/-- An MM that folds out every row completes: it counts its rows and zeroes them under ZR. -/
theorem runMm_folded (b : BayId) (f : PFields) (ga gs gr : Word) (s : State) :
    runMm b f ga gs gr (some 0) s = .done ((s.countFolded b (rowRange gr).m).updBay b fun y =>
      y.setAcc (f.acc == 1) (foldedAcc f gr ((s.bay b).acc (f.acc == 1)))) := by
  unfold runMm
  dsimp only
  rw [mmRows_folded (m := 0) rfl fun j _ _ => BitVec.getLsbD_zero]
  simp [MmRun.start, State.countFolded, foldedAcc, MmCounts.zero]

/-- The bay after it, with its entry taken from the queue. -/
def foldedBay (y : Bay) (rest : List PressEntry) (f : PFields) (gr : Word) : Bay :=
  Bay.setAcc { y with pq := rest } (f.acc == 1) (foldedAcc f gr (y.acc (f.acc == 1)))

/-- Of the accumulator rows of both blocks, it changes those of its own range under ZR. -/
theorem row_foldedBay (y : Bay) (rest : List PressEntry) (f : PFields) (gr : Word) (one : Bool) (i : Nat) :
    ((foldedBay y rest f gr).acc one).row i =
      if one = (f.acc == 1) ∧ f.mod.getLsbD 1 = true ∧ (rowRange gr).r0 ≤ i ∧ i < (rowRange gr).r0 + (rowRange gr).m then AccRow.zero
      else (y.acc one).row i := by
  rw [foldedBay, Bay.acc_setAcc]
  by_cases hone : one = (f.acc == 1)
  · simp only [hone, if_true, row_foldedAcc, true_and]
  · simp only [hone, if_false, false_and]
    rfl

/-- Accepted, it counts its rows and changes its bay. -/
theorem exec_pressAccept_folded {ga gs gr : Word} (hoff : s.clockOff = false) (hs : Safety.handedOver s) (hq : (s.bay b).pq = e :: rest)
    (hop : e.op = .mm f ga gs gr (some 0)) :
    exec (.pressAccept b) s = .next ((s.countFolded b (rowRange gr).m).setBay b (foldedBay (s.bay b) rest f gr)) := by
  rw [exec_pressAccept_done hoff hq hop rfl (congrArg some (runMm_folded ..))
    (handedOver_updBay (handedOver_countFolded (handedOver_updBay hs _) _) _),
    countFolded_updBay, State.updBay_updBay, countFolded_bay, State.bay_updBay_self]
  rfl

end

end Sys2Proof.Machine

namespace Sys2Proof
open Machine

/-- Settles O21: no row is fed, so the MM completes with its rows counted, and zeroed under ZR. -/
theorem foldedRowsAreNotFed : Obligations.FoldedRowsAreNotFed := by
  unfold Obligations.FoldedRowsAreNotFed
  intro b s e rest f ga gs gr hoff hs hq hop
  refine ⟨_, exec_pressAccept_folded hoff hs hq hop, ?_, fun one i => ?_, ?_, ?_, countFolded_mem .., countFolded_ecc1 ..,
    fun c hc => ?_, (countFolded_onlyRegs ..).2⟩
  · rw [State.bay_setBay_self, foldedBay, Bay.setAcc_pq]
  · rw [State.bay_setBay_self, row_foldedBay]
  · rw [State.bay_setBay_self, foldedBay, Bay.setAcc_active]
  · rw [State.bay_setBay_self, foldedBay, Bay.setAcc_shadow]
  · rw [State.bay_setBay, if_neg hc, countFolded_bay]

/-- Settles O20: each of the three instructions changes its bay alone. -/
theorem pressTurnsAndClears : Obligations.PressTurnsAndClears := by
  unfold Obligations.PressTurnsAndClears
  intro b s e rest hoff hs hq
  refine ⟨fun hop => exec_pressAccept_updBay hoff hs hq hop rfl fun _ => rfl, fun f hop => ?_, fun f hop =>
    ⟨accWinOf f ((s.bay b).acc (f.acc == 1)), rfl, rfl, rfl, AccBlock.row_accWinOf f _, ?_⟩⟩
  · rw [exec_pressAccept_updBay hoff hs hq hop rfl fun _ => rfl, Bay.setAcc_of_field, Bay.acc_of_field]
    split <;> rfl
  · rw [exec_pressAccept_updBay hoff hs hq hop rfl fun _ => rfl, Bay.setAcc_of_field]
    split <;> rfl

end Sys2Proof

end

section

/-! ### Windowed sums do not depend on order or grouping (R127 to R130) -/

set_option Elab.async false

namespace Sys2Proof.Machine

/-! #### Products classified apart and together (R127) -/

/-- Two classifications of products of one element write, taken together. -/
def ProdSum.add (a b : ProdSum) : ProdSum :=
  ⟨a.nan || b.nan, a.pinf || b.pinf, a.ninf || b.ninf, a.clamped || b.clamped, a.sum + b.sum, a.uflow + b.uflow⟩

section
variable {win : Int} {l l' : List Num} {a b : ProdSum} {base : W128} {i : Int}

/-- The classification in which nothing was met is neutral. -/
theorem ProdSum.add_empty (a : ProdSum) : a.add ⟨false, false, false, false, 0, 0⟩ = a := by
  simp [ProdSum.add]

theorem ProdSum.take_add (win : Int) (a b : ProdSum) (p : Num) : (a.add b).take win p = a.add (b.take win p) := by
  cases p with
  | nan => simp [ProdSum.take, ProdSum.add]
  | inf neg => cases neg <;> simp [ProdSum.take, ProdSum.add]
  | fin neg m e => simp [ProdSum.take, ProdSum.add, Bool.or_assoc, Int.add_assoc, Nat.add_assoc]

theorem prodSum_append (win : Int) (l l' : List Num) : prodSum win (l ++ l') = (prodSum win l).add (prodSum win l') := by
  calc prodSum win (l ++ l')
      = l'.foldl (ProdSum.take win) ((prodSum win l).add ⟨false, false, false, false, 0, 0⟩) := by
        rw [ProdSum.add_empty, prodSum, List.foldl_append, prodSum]
    _ = (prodSum win l).add (prodSum win l') := List.foldl_hom _ fun b p => ProdSum.take_add win _ b p

theorem ProdSum.add_comm (a b : ProdSum) : a.add b = b.add a := by
  simp [ProdSum.add, Bool.or_comm, Int.add_comm, Nat.add_comm]

/-- Each product adds its own classification to what was met before it, so the order of the products is lost. -/
theorem prodSum_perm (win : Int) (h : l.Perm l') : prodSum win l = prodSum win l' := by
  induction h with
  | nil => rfl
  | cons p _ ih => rw [← List.singleton_append, prodSum_append, ih, ← prodSum_append, List.singleton_append]
  | swap p q l =>
    have hpq : prodSum win ([q] ++ [p]) = prodSum win ([p] ++ [q]) := by
      rw [prodSum_append, ProdSum.add_comm, ← prodSum_append]
    calc prodSum win ([q] ++ [p] ++ l)
        = (prodSum win ([q] ++ [p])).add (prodSum win l) := prodSum_append ..
      _ = prodSum win ([p] ++ [q] ++ l) := by rw [hpq, ← prodSum_append]
  | trans _ _ ih ih' => exact ih.trans ih'

/-! #### Accumulator integers (R126) -/

theorem clampW_eq_self_iff : clampW i = i ↔ -w128Max ≤ i ∧ i ≤ w128Max := by
  unfold clampW w128Max
  omega

/-- An integer that the clamp leaves alone is held exactly. -/
theorem toInt_ofInt_of_clampW_eq (h : clampW i = i) : (BitVec.ofInt 128 i).toInt = i := by
  obtain ⟨hlow, hhigh⟩ := clampW_eq_self_iff.mp h
  unfold w128Max at hlow hhigh
  exact BitVec.toInt_ofInt_eq_self (by decide) (by omega) (by omega)

/-- Its pattern is a value: NaR lies just below the integers of the clamp. -/
theorem ofInt_ne_nar_of_clampW_eq (h : clampW i = i) : BitVec.ofInt 128 i ≠ nar := by
  intro hnar
  have hi : i = -2 ^ 127 := by
    rw [← toInt_ofInt_of_clampW_eq h, hnar]
    decide
  rw [hi] at h
  exact absurd h (by decide)

/-! #### One element write (R128, R129) -/

/-- NaR stays, without an event. -/
theorem elemWrite_nar (a : ProdSum) : elemWrite nar a = ⟨nar, false, false, a.uflow⟩ := by
  rw [elemWrite, if_pos rfl]

/-- The underflow count is that of the products, whatever the value becomes. -/
theorem elemWrite_uflow (base : W128) (a : ProdSum) : (elemWrite base a).uflow = a.uflow := by
  unfold elemWrite
  split_ifs <;> rfl

/-- Nothing but finite products within the clamp was met. -/
structure ProdSum.Exact (a : ProdSum) : Prop where
  nan : a.nan = false
  pinf : a.pinf = false
  ninf : a.ninf = false
  clamped : a.clamped = false

theorem ProdSum.Exact.add (ha : a.Exact) (hb : b.Exact) : (a.add b).Exact :=
  ⟨by simp [ProdSum.add, ha.nan, hb.nan], by simp [ProdSum.add, ha.pinf, hb.pinf], by simp [ProdSum.add, ha.ninf, hb.ninf],
    by simp [ProdSum.add, ha.clamped, hb.clamped]⟩

/-- What a write adds when all products are exact and the sum is not clamped. -/
theorem elemWrite_exact (hbase : base ≠ nar) (ha : a.Exact) (hsum : clampW (base.toInt + a.sum) = base.toInt + a.sum) :
    elemWrite base a = ⟨BitVec.ofInt 128 (base.toInt + a.sum), false, false, a.uflow⟩ := by
  simp [elemWrite, hbase, ha.nan, ha.pinf, ha.ninf, ha.clamped, hsum]

/-- A write over a value is without an event only then. -/
theorem exact_of_elemWrite_event (hbase : base ≠ nar) (h : (elemWrite base a).event = false) :
    a.Exact ∧ clampW (base.toInt + a.sum) = base.toInt + a.sum := by
  rw [elemWrite, if_neg hbase] at h
  split_ifs at h with hnan hpinf hninf
  obtain ⟨hclamped, hsum⟩ := Bool.or_eq_false_iff.mp h
  rw [Bool.or_eq_true, not_or, Bool.not_eq_true] at hnan
  exact ⟨⟨hnan.1, eq_false_of_ne_true hpinf, eq_false_of_ne_true hninf, hclamped⟩, not_not.mp (of_decide_eq_false hsum)⟩

/-- Two writes without an event leave what one write of both classifications leaves, but for the underflows of the first. -/
theorem elemWrite_add (h : (elemWrite base a).event = false) (h' : (elemWrite (elemWrite base a).value b).event = false) :
    elemWrite base (a.add b) = { elemWrite (elemWrite base a).value b with uflow := a.uflow + b.uflow } := by
  by_cases hbase : base = nar
  · subst hbase
    simp only [elemWrite_nar]
    rfl
  · obtain ⟨ha, hsum⟩ := exact_of_elemWrite_event hbase h
    rw [elemWrite_exact hbase ha hsum] at h' ⊢
    have hnext := ofInt_ne_nar_of_clampW_eq hsum
    obtain ⟨hb, hsum'⟩ := exact_of_elemWrite_event hnext h'
    have hassoc : (BitVec.ofInt 128 (base.toInt + a.sum)).toInt + b.sum = base.toInt + (a.add b).sum := by
      rw [toInt_ofInt_of_clampW_eq hsum, Int.add_assoc, ProdSum.add]
    rw [elemWrite_exact hnext hb hsum']
    rw [hassoc] at hsum' ⊢
    rw [elemWrite_exact hbase (ha.add hb) hsum', ProdSum.add]

end

end Sys2Proof.Machine

namespace Sys2Proof
open Machine

/-- Settles O22: a classification forgets the order of its products, and writes without an event add exactly. -/
theorem windowedSumsAreOrderFree : Obligations.WindowedSumsAreOrderFree := by
  unfold Obligations.WindowedSumsAreOrderFree
  refine ⟨fun win base l l' h => by rw [prodSum_perm win h], fun win base l l' h h' => ?_, fun win l => ?_⟩
  · rw [prodSum_append, elemWrite_add h h', elemWrite_uflow, elemWrite_uflow]
    exact ⟨rfl, h', rfl⟩
  · rw [elemWrite_nar]
    exact ⟨rfl, rfl⟩

end Sys2Proof

end

section

/-! ### What VECTOR_START does (R45, R147, R149, R155, R156, R189) -/

set_option Elab.async false

namespace Sys2Proof.Machine

/-! #### Elements packed and taken apart (R147) -/

section
variable {w vl : Nat} {xs : List Nat}

theorem packElems_lt (w : Nat) (xs : List Nat) : packElems w xs < 2 ^ (w * xs.length) := by
  induction xs with
  | nil => simp [packElems]
  | cons x xs ih =>
    have hx : x % 2 ^ w < 2 ^ w := Nat.mod_lt _ (Nat.two_pow_pos w)
    calc packElems w (x :: xs) < 2 ^ w * (packElems w xs + 1) := by rw [packElems, Nat.mul_succ]; omega
      _ ≤ 2 ^ w * 2 ^ (w * xs.length) := Nat.mul_le_mul_left _ ih
      _ = 2 ^ (w * (x :: xs).length) := by rw [← Nat.pow_add, List.length_cons, Nat.mul_succ, Nat.add_comm]

theorem packElems_lt_of_le {n : Nat} (h : w * xs.length ≤ n) : packElems w xs < 2 ^ n :=
  (packElems_lt w xs).trans_le (Nat.pow_le_pow_right Nat.two_pos h)

/-- Element `i` of a packed bit string, zero past the last one. -/
theorem packElems_div_mod (w : Nat) (xs : List Nat) (i : Nat) : packElems w xs / 2 ^ (w * i) % 2 ^ w = xs.getD i 0 % 2 ^ w := by
  induction xs generalizing i with
  | nil => simp [packElems]
  | cons x xs ih =>
    have hx : x % 2 ^ w < 2 ^ w := Nat.mod_lt _ (Nat.two_pow_pos w)
    cases i with
    | zero => simp [packElems]
    | succ i =>
      have htail : packElems w (x :: xs) / 2 ^ w = packElems w xs := by
        rw [packElems, Nat.add_mul_div_left _ _ (Nat.two_pow_pos w), Nat.div_eq_of_lt hx, Nat.zero_add]
      rw [Nat.mul_succ, Nat.add_comm, Nat.pow_add, ← Nat.div_div_eq_div_mul, htail, ih, List.getD_cons_succ]

/-- An element of a bit string made of elements that fit. -/
theorem extractLsb'_ofNat_packElems {n : Nat} (h : w * xs.length ≤ n) (i : Nat) :
    (BitVec.ofNat n (packElems w xs)).extractLsb' (w * i) w = BitVec.ofNat w (xs.getD i 0) := by
  apply BitVec.eq_of_toNat_eq
  rw [BitVec.extractLsb'_toNat, BitVec.toNat_ofNat, Nat.mod_eq_of_lt (packElems_lt_of_le h), Nat.shiftRight_eq_div_pow,
    packElems_div_mod, BitVec.toNat_ofNat]

/-- Elements within the count of their width lie in the register (R146). -/
theorem mul_le_of_le_vCap (h : vl ≤ vCap w) : w * vl ≤ 2048 := by
  unfold vCap at h
  split at h
  · exact Nat.mul_le_mul (by omega : w ≤ 8) h
  · rw [Nat.mul_comm]
    exact Nat.mul_le_of_le_div _ _ _ h

/-- A lane of a destination register: zero from VL on, the value where active, else the old lane (R147). -/
theorem extractLsb'_writeActive (old : BitVec 2048) (act : Nat → Bool) (val : Nat → Nat) (h : w * vl ≤ 2048) (i : Nat) :
    (writeActive old w vl act val).extractLsb' (w * i) w =
      if vl ≤ i then 0 else if act i then BitVec.ofNat w (val i) else old.extractLsb' (w * i) w := by
  rw [writeActive, vPack, extractLsb'_ofNat_packElems (by simpa using h), List.getD_eq_getElem?_getD]
  by_cases hi : vl ≤ i
  · simp [hi]
  · have hlane : BitVec.ofNat w (vElem old w i) = old.extractLsb' (w * i) w := by rw [vElem, BitVec.ofNat_toNat, BitVec.setWidth_eq]
    by_cases ha : act i = true <;> simp [hi, ha, Nat.lt_of_not_le hi, hlane]

/-- Little-endian bytes are elements of eight bits. -/
theorem leNat_eq_packElems (l : List Byte) : leNat l = packElems 8 (l.map BitVec.toNat) := by
  induction l with
  | nil => rfl
  | cons x l ih => rw [List.map_cons, packElems, leNat, ih, Nat.mod_eq_of_lt x.isLt, show (256 : Nat) = 2 ^ 8 from rfl]

theorem bayAddr_add (b : BayId) (o i : Nat) : bayAddr b (o + i) = bayAddr b o + i := (Nat.add_assoc ..).symm

theorem memBytes_getElem (s : State) (a n i : Nat) (h : i < (s.memBytes a n).length) : (s.memBytes a n)[i] = s.memByte (a + i) := by
  induction n generalizing a i with
  | zero => exact absurd h (Nat.not_lt_zero i)
  | succ n ih =>
    cases i with
    | zero => rfl
    | succ i => simp only [State.memBytes, List.getElem_cons_succ, ih, Nat.add_assoc, Nat.add_comm 1]

/-- A byte of a register loaded whole (R155). -/
theorem extractLsb'_bayBytes (s : State) (b : BayId) (o : Nat) {i : Nat} (hi : i < 256) :
    (BitVec.ofNat 2048 (leNat (s.bayBytes b o 256))).extractLsb' (8 * i) 8 = s.memByte (bayAddr b (o + i)) := by
  have hlen : i < (s.memBytes (bayAddr b o) 256).length := by rwa [memBytes_length]
  rw [leNat_eq_packElems, extractLsb'_ofNat_packElems (by simp [bayBytes_length]),
    List.getD_eq_getElem _ _ (by simpa [bayBytes_length] using hi), List.getElem_map, BitVec.ofNat_toNat, BitVec.setWidth_eq]
  exact (memBytes_getElem s _ _ _ hlen).trans (by rw [bayAddr_add])

/-- A byte of a word of any width, as a register stored whole is (R155). -/
theorem leBytes_getElem_extractLsb' {k : Nat} (v : BitVec k) (n i : Nat) (h : i < (leBytes n v.toNat).length) :
    (leBytes n v.toNat)[i] = v.extractLsb' (8 * i) 8 := by
  rw [leBytes_getElem, BitVec.extractLsb', Nat.shiftRight_eq_div_pow, Nat.pow_mul]

end

/-! #### Integer lanes (R189)

`laneInt` computes on numbers; at width `w` it is the operation on words. Sums, products and the bitwise rows are so by definition. -/

section
variable {w : Nat} (arith : Bool) (a b : BitVec w)

theorem laneInt_visub : laneInt .visub arith w a.toNat b.toNat = (a - b).toNat := by
  have hb := b.isLt
  rw [laneInt, Nat.mod_eq_of_lt hb, BitVec.toNat_sub]
  congr 1
  omega

theorem laneInt_vshl : laneInt .vshl arith w a.toNat b.toNat = (a <<< (b.toNat % w)).toNat := by
  rw [laneInt, BitVec.toNat_shiftLeft, Nat.shiftLeft_eq]

theorem signedOf_toNat (hw : 0 < w) : signedOf w a.toNat = a.toInt := by
  have hpow : 2 ^ w = 2 * 2 ^ (w - 1) := by rw [← Nat.pow_succ', Nat.succ_eq_add_one, Nat.sub_add_cancel hw]
  rw [signedOf, Nat.mod_eq_of_lt a.isLt, BitVec.toInt_eq_toNat_cond]
  by_cases h : a.toNat < 2 ^ (w - 1)
  · rw [if_pos h, if_pos (by omega)]
  · rw [if_neg h, if_neg (by omega)]

theorem laneInt_vshr (hw : 0 < w) :
    laneInt .vshr arith w a.toNat b.toNat = (if arith then a.sshiftRight (b.toNat % w) else a >>> (b.toNat % w)).toNat := by
  cases arith with
  | false => rw [laneInt, if_neg Bool.false_ne_true, if_neg Bool.false_ne_true, Nat.mod_eq_of_lt a.isLt, BitVec.toNat_ushiftRight,
      Nat.shiftRight_eq_div_pow]
  | true =>
    rw [laneInt, if_pos rfl, if_pos rfl, signedOf_toNat a hw, Int.fdiv_eq_ediv_of_nonneg _ (by positivity), BitVec.sshiftRight_eq,
      BitVec.toNat_ofInt, Int.shiftRight_eq_div_pow]
    norm_cast

end

/-- What an integer row writes to VD (R147, R189). -/
def intLanes (c : VCode) (f : VFields) (vl : Nat) (r : VecRegs) : BitVec 2048 :=
  let w := widthOf f.fmt.toNat
  writeActive (r.vr f.vd) w vl (r.act f w) fun i =>
    laneInt c (f.mod.getLsbD 0) w (vElem (r.vr f.va) w i) (vElem (r.vr f.vb) w i)

/-- A lane of it, where the code's operation on numbers is `op` on words. -/
theorem extractLsb'_intLanes {c : VCode} {f : VFields} {vl w : Nat} {op : BitVec w → BitVec w → BitVec w} (r : VecRegs)
    (hw : w = widthOf f.fmt.toNat) (hvl : vl ≤ vCap w)
    (hlane : ∀ u v : BitVec w, laneInt c (f.mod.getLsbD 0) w u.toNat v.toNat = (op u v).toNat) (i : Nat) :
    (intLanes c f vl r).extractLsb' (w * i) w =
      if vl ≤ i then 0
      else if r.act f w i then op ((r.vr f.va).extractLsb' (w * i) w) ((r.vr f.vb).extractLsb' (w * i) w)
      else (r.vr f.vd).extractLsb' (w * i) w := by
  subst hw
  rw [intLanes, extractLsb'_writeActive _ _ _ (mul_le_of_le_vCap hvl), vElem, vElem, hlane, BitVec.ofNat_toNat, BitVec.setWidth_eq]

theorem widthOf_pos (c : Nat) : 0 < widthOf c := by
  unfold widthOf
  split <;> decide

/-! #### The head of the queue is executed (R45, R156) -/

/-- A bay after its vector engine took the head of a queue (R45). -/
def Bay.tookVec (y : Bay) (q : Thread) (rest : List VecEntry) : Bay :=
  match q with
  | .main => { y with mainVq := rest, seamLast := false }
  | .seam => { y with seamVq := rest, seamLast := true }

/-- A bay with vector and mask registers written. -/
def Bay.written (y : Bay) (vs : List (Nat × BitVec 2048)) (ms : List (Nat × Word)) : Bay :=
  { y with v := putVregs y.v vs, m := putMasks y.m ms }

section
variable {s : State} {b : BayId} {q : Thread} {c : VCode} {f : VFields} {x y : Word} {e : VecEntry} {rest : List VecEntry}
  {vs : List (Nat × BitVec 2048)} {ms : List (Nat × Word)}

@[simp] theorem Bay.tookVec_vecQueue (z : Bay) : Safety.vecQueue (z.tookVec q rest) q = rest := by cases q <;> rfl

@[simp] theorem Bay.tookVec_vecRegs (z : Bay) : (z.tookVec q rest).vecRegs = z.vecRegs := by cases q <;> rfl

@[simp] theorem Bay.tookVec_v (z : Bay) : (z.tookVec q rest).v = z.v := by cases q <;> rfl

@[simp] theorem Bay.tookVec_m (z : Bay) : (z.tookVec q rest).m = z.m := by cases q <;> rfl

@[simp] theorem Bay.written_vecQueue (z : Bay) : Safety.vecQueue (z.written vs ms) q = Safety.vecQueue z q := by cases q <;> rfl

@[simp] theorem Bay.written_v (z : Bay) : (z.written vs ms).v = putVregs z.v vs := rfl

@[simp] theorem Bay.written_m (z : Bay) : (z.written vs ms).m = putMasks z.m ms := rfl

@[simp] theorem putMasks_nil (m : Vector Word 8) : putMasks m [] = m := rfl

@[simp] theorem putVregs_nil (v : Vector (BitVec 2048) 32) : putVregs v [] = v := rfl

/-- A vector register after VD was written. -/
theorem putVregs_getElem (v : Vector (BitVec 2048) 32) (d k : BitVec 5) (r : BitVec 2048) :
    (putVregs v [(d.toNat, r)])[k.toNat]'k.isLt = if k = d then r else v[k.toNat]'k.isLt := by
  refine (Vector.getElem_setIfInBounds k.isLt).trans ?_
  by_cases h : k = d
  · rw [if_pos h, if_pos (congrArg _ h.symm)]
  · rw [if_neg h, if_neg fun hn => h (BitVec.eq_of_toNat_eq hn.symm)]

theorem putMasks_singleton (m : Vector Word 8) (d : Fin 8) (r : Word) : putMasks m [(d.val, r)] = m.set d.val r d.isLt := by
  apply Vector.ext
  intro i hi
  rw [Vector.getElem_set]
  exact Vector.getElem_setIfInBounds hi

theorem VecRegs.mr_fin (r : VecRegs) (i : Fin 8) : r.mr i.val = r.m[i.val] := by
  rw [VecRegs.mr, Vector.getElem?_eq_getElem i.isLt, Option.getD_some]

/-- The head of a queue whose turn it is leaves the queue and is executed. -/
theorem exec_vectorStart_instr (hoff : s.clockOff = false) (hq : Safety.vecQueue (s.bay b) q = e :: rest)
    (hturn : s.takesQueue b q = true) (hop : e.op = .instr c f x y) :
    exec (.vectorStart b q) s = .next (vecInstr b q e c f x y (s.updBay b fun z => z.tookVec q rest)) := by
  change Host.Outcome.next (opVectorStart b q s) = _
  cases q with
  | main =>
    have hq' : (s.bay b).mainVq = e :: rest := hq
    simp [opVectorStart, hoff, hturn, hq', hop, Bay.tookVec]
  | seam =>
    have hq' : (s.bay b).seamVq = e :: rest := hq
    simp [opVectorStart, hoff, hturn, hq', hop, Bay.tookVec]

/-- Results without a g register and events are vector and mask registers written. -/
theorem State.commitVec_written (s : State) (b : BayId) (q : Thread) (qseq : BitVec 12) (gd : Option (BitVec 5)) :
    s.commitVec b q qseq gd ⟨vs, ms, none, [], 0, 0⟩ = s.updBay b fun z => z.written vs ms := by
  unfold State.commitVec
  cases gd <;> rfl

/-- An instruction between registers that has no event writes its results. -/
theorem vecInstr_written (hmem : c ∉ [.vld, .vst, .vldR, .vstR]) (hcvt : c ≠ .vcvt)
    (ho : vecEval c f e.vl.toNat x y (s.bay b).vecRegs 0 = ⟨vs, ms, none, [], 0, 0⟩) :
    vecInstr b q e c f x y s = s.updBay b fun z => z.written vs ms := by
  have hfree : (c == .vcvt && vcvtTgtScaled f && f.mod.getLsbD 5 && decide (e.vl.toNat / 32 < 8)) = false := by simp [hcvt]
  unfold vecInstr
  split
  case h_5 =>
    simp only [hfree, Bool.false_eq_true, if_false, ho]
    exact State.commitVec_written s b q e.qseq (c.writes f)
  all_goals exact absurd (by decide) hmem

/-- VECTOR_START of such an instruction: of the state only its bay differs. -/
theorem exec_vectorStart_written (hoff : s.clockOff = false) (hq : Safety.vecQueue (s.bay b) q = e :: rest)
    (hturn : s.takesQueue b q = true) (hop : e.op = .instr c f x y) (hmem : c ∉ [.vld, .vst, .vldR, .vstR]) (hcvt : c ≠ .vcvt)
    (ho : vecEval c f e.vl.toNat x y (s.bay b).vecRegs 0 = ⟨vs, ms, none, [], 0, 0⟩) :
    exec (.vectorStart b q) s = .next (s.setBay b (((s.bay b).tookVec q rest).written vs ms)) := by
  rw [exec_vectorStart_instr hoff hq hturn hop, vecInstr_written hmem hcvt (by simpa using ho), State.updBay_updBay]

theorem keepsBays_setBay (s : State) (b : BayId) (z : Bay) : Safety.keepsBays s (s.setBay b z) b := fun k hk => by
  rw [State.bay_setBay, if_neg hk]

/-! #### Whole registers (R155) -/

/-- Without errors rows of bay memory are read without effect. -/
theorem readRows_clean (b : BayId) (l : List Nat) (h1 : s.ecc1 = []) (h2 : s.ecc2 = []) : readRows b l s = (s, false) := by
  induction l with
  | nil => rfl
  | cons r l ih =>
    simp only [readRows, State.eccRead_clean s b _ _ h1 h2, Bool.false_eq_true, if_false, ih]

/-- VLD.R writes VD with the 256 bytes. -/
theorem vecInstr_vldR (h1 : s.ecc1 = []) (h2 : s.ecc2 = []) :
    vecInstr b q e .vldR f x y s =
      s.updBay b fun z => z.written [(f.vd.toNat, BitVec.ofNat 2048 (leNat (s.bayBytes b (fieldOf x 0 20) 256)))] [] := by
  simp only [vecInstr, readRows_clean _ _ h1 h2, Bool.false_eq_true, if_false]
  exact State.commitVec_written s b q e.qseq none

/-- VST.R writes the 256 bytes of VD. -/
theorem vecInstr_vstR : vecInstr b q e .vstR f x y s =
    (s.bayWrite b (fieldOf x 0 20) (leBytes 256 ((s.bay b).vecRegs.vr f.vd).toNat)).1 := rfl

@[simp] theorem State.bayWrite_bay (s : State) (b c : BayId) (o : Nat) (bs : List Byte) : (s.bayWrite b o bs).1.bay c = s.bay c := by
  rw [State.bay, State.bayWrite_bays]
  rfl

/-- A write of whole words merges nothing: it neither fails nor counts a correction (R562). -/
theorem State.bayWrite_wholeWords {o : Nat} {bs : List Byte} (s : State) (b : BayId) (ho : o % 8 = 0) (hn : bs.length % 8 = 0) :
    (s.bayWrite b o bs).2 = false ∧ (s.bayWrite b o bs).1.regs = s.regs := by
  have hpart : ((wordsOf (bayAddr b o) bs.length).filter fun k =>
      !(decide (bayAddr b o ≤ k * 8) && decide (k * 8 + 8 ≤ bayAddr b o + bs.length))) = [] := by
    have hbase : bayAddr b o % 8 = 0 ∧ 0 < bayAddr b o := by
      rw [bayAddr, bayMemBase]
      omega
    rw [List.filter_eq_nil_iff]
    intro k hk
    obtain ⟨j, hj, rfl⟩ := List.mem_map.mp hk
    rw [List.mem_range] at hj
    simp only [Bool.not_eq_true', Bool.and_eq_false_iff, decide_eq_false_iff_not, not_or, not_not]
    omega
  unfold State.bayWrite
  split
  · exact ⟨rfl, rfl⟩
  · simp only [hpart]
    simp

end

end Sys2Proof.Machine

namespace Sys2Proof
open Machine

/-- Settles O16: each row computes its lanes, and the destination is masked. -/
theorem vectorIntegerLanes : Obligations.VectorIntegerLanes := by
  unfold Obligations.VectorIntegerLanes
  intro p hp b q f x y s e rest w hoff hq hturn hop _ hw hvl
  have hpos : 0 < w := hw ▸ widthOf_pos f.fmt.toNat
  obtain ⟨hmem, hcvt, heval, hlane⟩ : p.1 ∉ [.vld, .vst, .vldR, .vstR] ∧ p.1 ≠ .vcvt
      ∧ vecEval p.1 f e.vl.toNat x y (s.bay b).vecRegs 0
        = ⟨[(f.vd.toNat, intLanes p.1 f e.vl.toNat (s.bay b).vecRegs)], [], none, [], 0, 0⟩
      ∧ ∀ (arith : Bool) (u v : BitVec w), laneInt p.1 arith w u.toNat v.toNat = (p.2 arith w u v).toNat := by
    simp only [List.mem_cons, List.not_mem_nil, or_false] at hp
    obtain rfl | rfl | rfl | rfl | rfl | rfl | rfl | rfl := hp <;> refine ⟨by decide, by decide, rfl, fun arith u v => ?_⟩
    · rfl
    · exact laneInt_visub arith u v
    · rfl
    · rfl
    · rfl
    · rfl
    · exact laneInt_vshl arith u v
    · exact laneInt_vshr arith u v hpos
  refine ⟨_, exec_vectorStart_written hoff hq hturn hop hmem hcvt heval, ?_, fun i _ => ?_, fun k hk => ?_, ?_, rfl, rfl,
    keepsBays_setBay s b _⟩
  all_goals rw [State.bay_setBay_self]
  · rw [Bay.written_vecQueue, Bay.tookVec_vecQueue]
  · simp only [Bay.written_v, putVregs_getElem, if_true]
    exact extractLsb'_intLanes _ hw hvl (hlane _) i
  · simp only [Bay.written_v, putVregs_getElem, if_neg hk, Bay.tookVec_v]
  · rw [Bay.written_m, Bay.tookVec_m, putMasks_nil]

/-- Settles O17: each row combines its masks bit by bit. -/
theorem vectorMaskLogic : Obligations.VectorMaskLogic := by
  unfold Obligations.VectorMaskLogic
  intro p hp b q f x y s e rest d va vb hoff hq hturn hop hd hva hvb
  obtain ⟨hmem, hcvt, heval⟩ : p.1 ∉ [.vld, .vst, .vldR, .vstR] ∧ p.1 ≠ .vcvt
      ∧ vecEval p.1 f e.vl.toNat x y (s.bay b).vecRegs 0
        = ⟨[], [(f.vd.toNat % 8, p.2 ((s.bay b).vecRegs.mr (f.va.toNat % 8)) ((s.bay b).vecRegs.mr (f.vb.toNat % 8)))], none, [], 0, 0⟩ := by
    simp only [List.mem_cons, List.not_mem_nil, or_false] at hp
    obtain rfl | rfl | rfl | rfl := hp <;> exact ⟨by decide, by decide, rfl⟩
  rw [← hd, ← hva, ← hvb, VecRegs.mr_fin, VecRegs.mr_fin] at heval
  refine ⟨_, exec_vectorStart_written hoff hq hturn hop hmem hcvt heval, ?_, ?_, ?_, rfl, rfl, keepsBays_setBay s b _⟩
  all_goals rw [State.bay_setBay_self]
  · rw [Bay.written_vecQueue, Bay.tookVec_vecQueue]
  · rw [Bay.written_m, Bay.tookVec_m, putMasks_singleton]
    rfl
  · rw [Bay.written_v, Bay.tookVec_v, putVregs_nil]

/-- Settles O18: VLD.R packs the bytes it reads, and VST.R writes whole words. -/
theorem wholeRegisterCopies : Obligations.WholeRegisterCopies := by
  unfold Obligations.WholeRegisterCopies
  refine ⟨fun b q f x y s e rest hoff hq hturn hop _ hx h1 h2 => ?_, fun b q f x y s e rest hoff hq hturn hop ha hx => ?_⟩
  · have hrun := exec_vectorStart_instr hoff hq hturn hop
    rw [vecInstr_vldR (s := s.updBay b fun z => z.tookVec q rest) h1 h2, State.updBay_updBay, fieldOf_offset (by omega)] at hrun
    refine ⟨_, hrun, fun i hi => ?_, fun k hk => ?_, rfl, keepsBays_setBay s b _⟩
    all_goals rw [State.bay_setBay_self]
    · simp only [Bay.written_v, putVregs_getElem, if_true]
      exact extractLsb'_bayBytes (s.updBay b fun z => z.tookVec q rest) b x.toNat hi
    · simp only [Bay.written_v, putVregs_getElem, if_neg hk, Bay.tookVec_v]
  · have hrun := exec_vectorStart_instr hoff hq hturn hop
    rw [vecInstr_vstR, State.bay_updBay_self, Bay.tookVec_vecRegs, fieldOf_offset (by omega)] at hrun
    obtain ⟨hdone, hregs⟩ := State.bayWrite_wholeWords (s.updBay b fun z => z.tookVec q rest) b (o := x.toNat)
      (bs := leBytes 256 ((s.bay b).vecRegs.vr f.vd).toNat) (by omega) (by simp)
    have hbyte := fun a => memByte_of_mem (State.bayWrite_mem hdone) a
    refine ⟨_, hrun, fun i hi => ?_, fun a hout => ?_, ?_, ?_, hregs, fun c hc => ?_⟩
    · rw [bayAddr_add, hbyte, State.memByte_setMemBytes, dif_pos (by simpa using hi)]
      simp only [Nat.add_sub_cancel_left, leBytes_getElem_extractLsb']
      rfl
    · rw [hbyte, State.memByte_setMemBytes, dif_neg (by rw [leBytes_length]; omega), State.updBay_memByte]
    · rw [State.bayWrite_bay, State.bay_updBay_self, Bay.tookVec_v]
    · rw [State.bayWrite_bay, State.bay_updBay_self, Bay.tookVec_m]
    · rw [State.bayWrite_bay, State.bay_updBay_ne _ _ _ _ hc]

end Sys2Proof

end

section

/-! ### Every word that decodes is the word of its instruction (R175, R176, R183, R187, R191, R194, R196) -/

set_option Elab.async false

namespace Sys2Proof.Machine

section

/-! The codes that name an instruction are the instruction's own codes. -/

theorem SCode.code_of_ofCode {op fn : Nat} {c : SCode} (h : SCode.ofCode op fn = some c) : c.code = (op, fn) := by
  unfold SCode.ofCode at h
  split at h <;> cases h <;> rfl

theorem VCode.code_of_ofCode {op fn : Nat} {c : VCode} (h : VCode.ofCode op fn = some c) : c.code = (op, fn) := by
  unfold VCode.ofCode at h
  split at h <;> cases h <;> rfl

theorem PCode.code_of_ofCode {op fn : Nat} {c : PCode} (h : PCode.ofCode op fn = some c) : c.code = (op, fn) := by
  unfold PCode.ofCode at h
  split at h <;> cases h <;> rfl

theorem MCode.code_of_ofCode {op fn : Nat} {c : MCode} (h : MCode.ofCode op fn = some c) : c.code = (op, fn) := by
  unfold MCode.ofCode at h
  split at h <;> cases h <;> rfl

theorem XCode.code_of_ofCode {op fn : Nat} {c : XCode} (h : XCode.ofCode op fn = some c) : c.code = (op, fn) := by
  unfold XCode.ofCode at h
  split at h <;> cases h <;> rfl

/-! A word is its own fields side by side: each field ends where the one before it begins, from bit 63 down to bit 0. -/

variable {w : Word}

theorem encodeBay_sFieldsOf {c : SCode} (h : c.code = ((w.extractLsb' 58 6).toNat, (w.extractLsb' 52 6).toNat)) :
    encodeBay (.s c (sFieldsOf w)) = w := by
  simp (disch := decide) only [encodeBay, h, sFieldsOf, BitVec.ofNat_toNat, BitVec.setWidth_eq,
    BitVec.extractLsb'_append_extractLsb'_eq_extractLsb']
  exact BitVec.extractLsb'_eq_self

theorem encodeBay_vFieldsOf {c : VCode} (h : c.code = ((w.extractLsb' 58 6).toNat, (w.extractLsb' 52 6).toNat)) :
    encodeBay (.v c (vFieldsOf w)) = w := by
  simp (disch := decide) only [encodeBay, h, vFieldsOf, BitVec.ofNat_toNat, BitVec.setWidth_eq,
    BitVec.extractLsb'_append_extractLsb'_eq_extractLsb']
  exact BitVec.extractLsb'_eq_self

theorem encodeBay_pFieldsOf {c : PCode} (h : c.code = ((w.extractLsb' 58 6).toNat, (w.extractLsb' 54 4).toNat)) :
    encodeBay (.p c (pFieldsOf w)) = w := by
  simp (disch := decide) only [encodeBay, h, pFieldsOf, BitVec.ofNat_toNat, BitVec.setWidth_eq,
    BitVec.extractLsb'_append_extractLsb'_eq_extractLsb']
  exact BitVec.extractLsb'_eq_self

theorem encodeBay_mFieldsOf {c : MCode} (h : c.code = ((w.extractLsb' 58 6).toNat, (w.extractLsb' 54 4).toNat)) :
    encodeBay (.m c (mFieldsOf w)) = w := by
  simp (disch := decide) only [encodeBay, h, mFieldsOf, BitVec.ofNat_toNat, BitVec.setWidth_eq,
    BitVec.extractLsb'_append_extractLsb'_eq_extractLsb']
  exact BitVec.extractLsb'_eq_self

theorem encodeBay_xFieldsOf {c : XCode} (h : c.code = ((w.extractLsb' 58 6).toNat, (w.extractLsb' 54 4).toNat)) :
    encodeBay (.x c (xFieldsOf w)) = w := by
  simp (disch := decide) only [encodeBay, h, xFieldsOf, BitVec.ofNat_toNat, BitVec.setWidth_eq,
    BitVec.extractLsb'_append_extractLsb'_eq_extractLsb']
  exact BitVec.extractLsb'_eq_self

/-- A word that decodes has the codes of its instruction and, in the layout of the instruction's format, its fields; the
encoding puts both back where they stood. -/
theorem encodeBay_of_decodeBay {i : BayInstr} (h : decodeBay w = some i) : encodeBay i = w := by
  dsimp only [decodeBay] at h
  split_ifs at h with hS hV hP hM hX
  · obtain ⟨c, hc, rfl⟩ := Option.map_eq_some_iff.1 h
    exact encodeBay_sFieldsOf (SCode.code_of_ofCode hc)
  · obtain ⟨c, hc, rfl⟩ := Option.map_eq_some_iff.1 h
    exact encodeBay_vFieldsOf (VCode.code_of_ofCode hc)
  · obtain ⟨c, hc, rfl⟩ := Option.map_eq_some_iff.1 h
    exact encodeBay_pFieldsOf (PCode.code_of_ofCode hc)
  · obtain ⟨c, hc, rfl⟩ := Option.map_eq_some_iff.1 h
    exact encodeBay_mFieldsOf (MCode.code_of_ofCode hc)
  · obtain ⟨c, hc, rfl⟩ := Option.map_eq_some_iff.1 h
    exact encodeBay_xFieldsOf (XCode.code_of_ofCode hc)

end

end Sys2Proof.Machine

namespace Sys2Proof
open Machine

/-- Settles O14: an encoding decodes to its instruction, and a word that decodes is its fields side by side. -/
theorem instructionWordsRoundTrip : Obligations.InstructionWordsRoundTrip := by
  unfold Obligations.InstructionWordsRoundTrip
  exact ⟨decodeBay_encodeBay, fun _ _ => encodeBay_of_decodeBay⟩

end Sys2Proof

end

section

/-! ### Notices that reach a bay (R219, R223, R224, R234 to R236) -/

set_option Elab.async false

namespace Sys2Proof.Machine

section
variable {s : State} {b : BayId} {g : BitVec 12} {q : BitVec 32} {c : Coll} {r x : Nat} {kind : NoticeKind}
  {take : State → Coll → State} {keep : EarlyRec → EarlyRec}

/-- A notice for a joined collective is taken by it, and its sender is heard. -/
theorem notice_joined (hc : (s.bay b).coll g q = some c) (hj : c.joined = true) : s.notice kind b g q r x take keep
    = (take (s.noticeFate kind b g q r x true) (c.hear r s.now)).answer cDONE := by
  simp only [State.notice, hc, hj, if_true]

/-- The state with a new early record, whose making breaks tick-repeat (R223, R383). -/
def State.recorded (s : State) (e : EarlyRec) : State :=
  { s with fab := { s.fab with early := s.fab.early ++ [e] } }.tickEvent

theorem recorded_fab (s : State) (e : EarlyRec) : (s.recorded e).fab = { s.fab with early := s.fab.early ++ [e] } :=
  State.tickEvent_fab ..

theorem recorded_mem (s : State) (e : EarlyRec) : (s.recorded e).mem = s.mem := State.tickEvent_mem ..

theorem recorded_bays (s : State) (e : EarlyRec) : (s.recorded e).bays = s.bays := State.tickEvent_bays ..

theorem recorded_onlyRegs (s : State) (e : EarlyRec) :
    Safety.onlyRegs { s with fab := { s.fab with early := s.fab.early ++ [e] } } (s.recorded e) [RegId.LDG_STEP_STATUS.addr] :=
  ⟨State.tickEvent_regs_only .., fun a ha => State.reg_tickEvent_ne _ _ _ fun e => ha (by simp [e])⟩

/-- What comes first for a pair makes a record while fewer than the limit are in use. -/
theorem early_unrecorded (he : s.fab.earlyOf b g q = none) (limit : Nat) : s.early b g q limit keep
    = if s.fab.early.length < limit then (s.recorded (keep (EarlyRec.blank b g q)), true) else (s, false) := by
  simp only [State.early, he, State.recorded]

/-- A notice for a pair that is not open and has no early record is kept in one, or refused with CAPACITY. -/
theorem notice_unopened (hc : (s.bay b).coll g q = none) (he : s.fab.earlyOf b g q = none) : s.notice kind b g q r x take keep
    = if s.fab.early.length < 7168 then ((s.recorded (keep (EarlyRec.blank b g q))).noticeFate kind b g q r x true).answer cDONE
      else (s.noticeFate kind b g q r x false).answer cCAPACITY := by
  simp only [State.notice, hc, early_unrecorded he]
  by_cases hroom : s.fab.early.length < 7168
  · simp only [if_pos hroom, if_true]
  · simp only [if_neg hroom, Bool.false_eq_true, if_false]

/-- Of a notice that comes first nothing shows but its answer and its early record (R223, R224). -/
def KeptEarly (s t : State) (e : EarlyRec) : Prop :=
  t.mem = s.mem ∧ t.bays = s.bays ∧ t.lastCode = (if s.fab.early.length < 7168 then cDONE else cCAPACITY)
    ∧ t.fab.early = (if s.fab.early.length < 7168 then s.fab.early ++ [e] else s.fab.early)
    ∧ Safety.keepsRegs s t [RegId.LDG_STEP_STATUS.addr]

theorem handedOver_recorded (hs : Safety.handedOver s) (e : EarlyRec) : Safety.handedOver (s.recorded e) := by
  have hs' : Safety.handedOver { s with fab := { s.fab with early := s.fab.early ++ [e] } } := hs
  exact handedOver_of_onlyRegs hs' (recorded_onlyRegs s e) (by decide)

theorem notice_unopened_kept (hs : Safety.handedOver s) (hc : (s.bay b).coll g q = none) (he : s.fab.earlyOf b g q = none) :
    KeptEarly s (s.notice kind b g q r x take keep).settled (keep (EarlyRec.blank b g q)) := by
  rw [notice_unopened hc he, KeptEarly]
  generalize keep (EarlyRec.blank b g q) = e
  by_cases hroom : s.fab.early.length < 7168
  · have hset := State.settled_of_handedOver (((s.recorded e).noticeFate kind b g q r x true).answer cDONE) (handedOver_recorded hs e)
    obtain ⟨-, hregs⟩ := recorded_onlyRegs s e
    simp only [if_pos hroom, hset]
    exact ⟨recorded_mem s e, recorded_bays s e, rfl, congrArg Fabric.early (recorded_fab s e), hregs⟩
  · have hset := State.settled_of_handedOver ((s.noticeFate kind b g q r x false).answer cCAPACITY) hs
    simp only [if_neg hroom, hset]
    exact ⟨rfl, rfl, rfl, rfl, fun _ _ => rfl⟩

end

end Sys2Proof.Machine

namespace Sys2Proof
open Machine

/-- Settles O35: the three arrivals are one rule for notices, which a joined collective takes and which otherwise makes an early
record while there is room. -/
theorem expertNotices : Obligations.ExpertNotices := by
  unfold Obligations.ExpertNotices
  refine ⟨fun b g q r e s c hc hj => ?_, fun b g q r e s hc he hs x hx => ?_⟩
  · exact ⟨congrArg (fun u : State => Host.Outcome.next u.settled)
        (notice_joined (s := s.takeNote 9 b.toNat .tally [g.toNat, q.toNat, r.toNat, e.toNat]) hc hj),
      congrArg (fun u : State => Host.Outcome.next u.settled)
        (notice_joined (s := s.takeNote 9 b.toNat .release [g.toNat, q.toNat, r.toNat]) hc hj),
      congrArg (fun u : State => Host.Outcome.next u.settled)
        (notice_joined (s := s.takeNote 9 b.toNat .done [g.toNat, q.toNat, r.toNat]) hc hj)⟩
  · simp only [List.mem_cons, List.not_mem_nil, or_false] at hx
    obtain rfl | rfl | rfl := hx
    · exact ⟨_, rfl, notice_unopened_kept (s := s.takeNote 9 b.toNat .tally [g.toNat, q.toNat, r.toNat, e.toNat]) hs hc he⟩
    · exact ⟨_, rfl, notice_unopened_kept (s := s.takeNote 9 b.toNat .release [g.toNat, q.toNat, r.toNat]) hs hc he⟩
    · exact ⟨_, rfl, notice_unopened_kept (s := s.takeNote 9 b.toNat .done [g.toNat, q.toNat, r.toNat]) hs hc he⟩

end Sys2Proof

end

section

/-! ### Group entries (R207 to R209, R238) -/

set_option Elab.async false

namespace Sys2Proof.Machine

section
variable {s t : State} {g : BitVec 12} {v : Word} {l : List Nat} {n : Nat}

/-! #### The word written -/

/-- A field that software may write takes its value from the word written, where no bit of the register clears or sets. -/
theorem fieldOf_written_rw {r : RegId} {lo width : Nat} (hw1c : r.bits .w1c = 0#64) (hrw1s : r.bits .rw1s = 0#64)
    (hrw : ∀ k < width, (r.bits .rw).getLsbD (lo + k) = true) (old v : Word) : fieldOf (r.written old v) lo width = fieldOf v lo width := by
  simp only [RegId.written, hw1c, hrw1s, BitVec.and_zero, BitVec.or_zero, BitVec.not_zero, BitVec.and_allOnes, fieldOf]
  congr 1
  ext k hk
  simp [hrw k hk]

/-- A field of ABR_GRP_W0 that the check does not own reads as written. -/
theorem getF_plainWrite_grpW0 {lo width : Nat} (hrw : ∀ k < width, (0x80000700FFFFFFFF : Word).getLsbD (lo + k) = true) (i : Nat) :
    (s.plainWrite .ABR_GRP_W0 i 0 v).getF ⟨RegId.ABR_GRP_W0.addr i, lo, width⟩ = fieldOf v lo width := by
  have hbits : RegId.ABR_GRP_W0.bits .rw = 0x80000700FFFFFFFF := by decide
  refine (congrArg (fieldOf · lo width) (State.reg_setReg_self ..)).trans ?_
  exact fieldOf_written_rw (by decide) (by decide) (by rwa [hbits]) _ v

/-- VALID is bit 63 of the word. -/
theorem grpValid_of (i : Nat) (v : Word) : ((Fld.ABR_GRP_W0_VALID i).of v == 1) = v.getLsbD 63 := by
  have h : v.extractLsb' 63 1 = BitVec.ofBool (v.getLsbD 63) := by
    ext k hk
    obtain rfl : k = 0 := by omega
    simp
  rw [show (Fld.ABR_GRP_W0_VALID i).of v = (v.extractLsb' 63 1).toNat from rfl, h]
  cases v.getLsbD 63 <;> rfl

theorem ofNat_group (g : BitVec 12) : BitVec.ofNat 12 g.toNat = g := by rw [BitVec.ofNat_toNat, BitVec.setWidth_eq]

/-! #### An entry whose check ends, or that is emptied -/

/-- A group entry with a state, a code and its members. -/
def State.grpChecked (s : State) (i st code : Nat) (l : List Nat) : State :=
  let u := s.setFs [(Fld.ABR_GRP_W0_STATE i, st), (Fld.ABR_GRP_W0_CHECK_CODE i, code)]
  { u with fab := { u.fab with groups := smapSet (fun _ => []) u.fab.groups i l } }

theorem grpChecked_regs (s : State) (i st code : Nat) (l : List Nat) : (s.grpChecked i st code l).regs
    = ((s.setF (Fld.ABR_GRP_W0_STATE i) st).setF (Fld.ABR_GRP_W0_CHECK_CODE i) code).regs := rfl

theorem members_grpChecked (s : State) (g : BitVec 12) (st code : Nat) (l : List Nat) :
    (s.grpChecked g.toNat st code l).members g = l := smapGet_set_self ..

theorem grpChecked_shows (s : State) (g : BitVec 12) {st code : Nat} (hst : st < 4) (hcode : code < 256) (l : List Nat) :
    (s.grpChecked g.toNat st code l).getF (Fld.ABR_GRP_W0_STATE g.toNat) = st
    ∧ (s.grpChecked g.toNat st code l).getF (Fld.ABR_GRP_W0_CHECK_CODE g.toNat) = code
    ∧ (s.grpChecked g.toNat st code l).members g = l ∧ (s.grpChecked g.toNat st code l).mem = s.mem
    ∧ Safety.keepsRegs s (s.grpChecked g.toNat st code l) [RegId.ABR_GRP_W0.addr g.toNat] := by
  have hregs := grpChecked_regs s g.toNat st code l
  refine ⟨?_, ?_, members_grpChecked s g st code l, rfl, fun a ha => ?_⟩
  · rw [getF_of_regs hregs, Fld.ABR_GRP_W0_STATE, Fld.ABR_GRP_W0_CHECK_CODE, getF_setF_beside (by decide), getF_setF_same (by decide)]
    exact Nat.mod_eq_of_lt hst
  · rw [getF_of_regs hregs, Fld.ABR_GRP_W0_CHECK_CODE, getF_setF_same (by decide)]
    exact Nat.mod_eq_of_lt hcode
  · rw [List.mem_singleton] at ha
    rw [reg_of_regs hregs, State.reg_setF_ne _ _ _ _ ha, State.reg_setF_ne _ _ _ _ ha]

/-- Beside its state and code the entry's word keeps its fields. -/
theorem getF_grpChecked (s : State) (i st code : Nat) (l : List Nat) {lo width : Nat} (h : lo + width ≤ 48) :
    (s.grpChecked i st code l).getF ⟨RegId.ABR_GRP_W0.addr i, lo, width⟩ = s.getF ⟨RegId.ABR_GRP_W0.addr i, lo, width⟩ := by
  rw [getF_of_regs (grpChecked_regs s i st code l), Fld.ABR_GRP_W0_STATE, Fld.ABR_GRP_W0_CHECK_CODE, getF_setF_beside (.inr h),
    getF_setF_beside (.inr (by omega))]

/-! #### A write of the entry's word -/

theorem writeBy_grpW0_done (hv : v.getLsbD 63 = true ∨ s.getF (Fld.ABR_GRP_W0_VALID g.toNat) = 0 ∨ s.grpOpen g = 0)
    (hbusy : s.grpBusy g.toNat = false) : writeBy .ABR_GRP_W0 g.toNat 0 v s = (if v.getLsbD 63
      then (s.plainWrite .ABR_GRP_W0 g.toNat 0 v).setF (Fld.ABR_GRP_W0_STATE g.toNat) 1
      else (s.plainWrite .ABR_GRP_W0 g.toNat 0 v).grpChecked g.toNat 0 0 [], cDONE) := by
  have hmay : (!v.getLsbD 63 && s.getF (Fld.ABR_GRP_W0_VALID g.toNat) == 1 && s.grpOpen g != 0) = false := by
    obtain h | h | h := hv <;> rw [h]
    · rfl
    · exact congrArg (· && _) (Bool.and_false _)
    · exact Bool.and_false _
  change writeGroup g.toNat v s = _
  simp only [writeGroup, grpValid_of, hbusy, ofNat_group, hmay, Bool.false_eq_true, if_false]
  split <;> rfl

theorem write64_grpW0_done {p : RegPath} (hr : Safety.reaches s p .ABR_GRP_W0 g.toNat 0 v) {u : State}
    (hw : writeBy .ABR_GRP_W0 g.toNat 0 v s = (u, cDONE)) : s.write64 p .ABR_GRP_W0 g.toNat 0 v = u.answer cDONE := by
  rw [State.write64_done hr g.isLt Nat.one_pos (congrArg Prod.snd hw), hw]
  rfl

/-- With a collective of the group open, or recorded early, a valid entry is not emptied. -/
theorem writeBy_grpW0_open (hv : v.getLsbD 63 = false) (hvalid : s.getF (Fld.ABR_GRP_W0_VALID g.toNat) = 1) (hopen : s.grpOpen g ≠ 0) :
    writeBy .ABR_GRP_W0 g.toNat 0 v s = (s, cSTATE_REJECT) := by
  have hmayNot : (!v.getLsbD 63 && s.getF (Fld.ABR_GRP_W0_VALID g.toNat) == 1 && s.grpOpen g != 0) = true := by
    simp only [hv, hvalid, bne_iff_ne.mpr hopen, Bool.not_false, beq_self_eq_true, Bool.and_self]
  change writeGroup g.toNat v s = _
  simp only [writeGroup, grpValid_of, ofNat_group, hmayNot, if_true]

/-- The count, fan-out and root of an entry with its word as written. -/
theorem grp_of_written (hf : ∀ lo width, lo + width ≤ 48 → t.getF ⟨RegId.ABR_GRP_W0.addr g.toNat, lo, width⟩
      = (s.plainWrite .ABR_GRP_W0 g.toNat 0 v).getF ⟨RegId.ABR_GRP_W0.addr g.toNat, lo, width⟩) :
    t.grpN g = fieldOf v 0 16 + 1 ∧ t.grpF g = fieldOf v 40 3 + 1 ∧ t.grpRoot g = fieldOf v 16 16 :=
  ⟨congrArg (· + 1) ((hf 0 16 (by decide)).trans (getF_plainWrite_grpW0 (by decide) _)),
    congrArg (· + 1) ((hf 40 3 (by decide)).trans (getF_plainWrite_grpW0 (by decide) _)),
    (hf 16 16 (by decide)).trans (getF_plainWrite_grpW0 (by decide) _)⟩

theorem plainWrite_confined (s : State) (r : RegId) (i j : Nat) (v : Word) : Confined (· = r.addr i j) s (s.plainWrite r i j v) :=
  ⟨rfl, rfl, rfl, fun _ ha => State.reg_setReg_ne _ _ _ _ ha⟩

/-! #### The check of the member list -/

/-- Words put into bytes and read back. -/
theorem words_of_leBytes (hl : ∀ m ∈ l, m < 2 ^ 28) :
    (List.range l.length).map (fun j => leNat (((l.flatMap (leBytes 4)).drop (4 * j)).take 4)) = l := by
  induction l with
  | nil => rfl
  | cons m l ih =>
    obtain ⟨hm, hrest⟩ := List.forall_mem_cons.mp hl
    have hhead : leNat ((leBytes 4 m ++ l.flatMap (leBytes 4)).take 4) = m := by
      rw [List.take_left' (leBytes_length 4 m), leNat_leBytes]; omega
    have htail (j : Nat) : (leBytes 4 m ++ l.flatMap (leBytes 4)).drop (4 * (j + 1)) = (l.flatMap (leBytes 4)).drop (4 * j) := by
      rw [show 4 * (j + 1) = (leBytes 4 m).length + 4 * j by rw [leBytes_length]; omega, List.drop_length_add_append]
    rw [List.flatMap_cons, List.length_cons, List.range_succ_eq_map, List.map_cons, List.map_map]
    congr 1
    refine Eq.trans (List.map_congr_left fun j _ => ?_) (ih hrest)
    exact congrArg (fun x => leNat (x.take 4)) (htail j)

theorem eraseDups_of_nodup (h : l.Nodup) : l.eraseDups = l := by
  induction l with
  | nil => rfl
  | cons m l ih =>
    obtain ⟨hm, hl⟩ := List.nodup_cons.mp h
    have hkeep : l.filter (fun x => !x == m) = l := List.filter_eq_self.mpr fun x hx => by
      have hne : x ≠ m := fun e => hm (e ▸ hx)
      simp [hne]
    rw [List.eraseDups_cons, hkeep, ih hl]

theorem opGroupCheck_misaligned (hst : s.getF (Fld.ABR_GRP_W0_STATE g.toNat) = 1) (hbase : s.getF (Fld.ABR_GRP_W2_LIST g.toNat) % 64 ≠ 0) :
    opGroupCheck g s = s.grpChecked g.toNat 3 cMALFORMED.toNat [] := by
  have hcode : cMALFORMED ≠ cDONE := by decide
  simp only [opGroupCheck, hst, ne_eq, not_true_eq_false, if_false, if_pos hbase, if_pos hcode, if_neg hcode]
  rfl

/-- A list in HBM of the entry's members, which differ and are bays of devices, with the root among their ranks. -/
structure GoodList (s : State) (g : BitVec 12) (l : List Nat) : Prop where
  aligned : s.getF (Fld.ABR_GRP_W2_LIST g.toNat) % 64 = 0
  first : regionOf (s.getF (Fld.ABR_GRP_W2_LIST g.toNat)) = .hbm
  last : regionOf (s.getF (Fld.ABR_GRP_W2_LIST g.toNat) + 4 * s.grpN g - 1) = .hbm
  length : l.length = s.grpN g
  coords : ∀ m ∈ l, m < 2 ^ 28 ∧ m % 4096 < 1024
  nodup : l.Nodup
  root : s.grpRoot g < s.grpN g

theorem opGroupCheck_good (hst : s.getF (Fld.ABR_GRP_W0_STATE g.toNat) = 1) (hl : GoodList s g l)
    (hread : s.ownRead 7 (s.getF (Fld.ABR_GRP_W2_LIST g.toNat)) (4 * s.grpN g) = (t, cDONE, l.flatMap (leBytes 4))) :
    opGroupCheck g s = t.grpChecked g.toNat 2 cDONE.toNat l := by
  obtain ⟨haligned, hfirst, hlast, hlength, hcoords, hnodup, hroot⟩ := hl
  have hwords : (List.range (s.grpN g)).map (fun j => leNat (((l.flatMap (leBytes 4)).drop (4 * j)).take 4)) = l := by
    rw [← hlength]; exact words_of_leBytes fun m hm => (hcoords m hm).1
  have hany : (l.any fun m => decide (2 ^ 28 ≤ m) || decide (1024 ≤ m % 4096)) = false := by
    rw [List.any_eq_false]
    intro m hm
    obtain ⟨hsmall, hbay⟩ := hcoords m hm
    simp only [Bool.or_eq_true, decide_eq_true_eq]
    omega
  have hregion : ¬(regionOf (s.getF (Fld.ABR_GRP_W2_LIST g.toNat)) ≠ .hbm
      ∨ regionOf (s.getF (Fld.ABR_GRP_W2_LIST g.toNat) + 4 * s.grpN g - 1) ≠ .hbm) := by simp [hfirst, hlast]
  simp only [opGroupCheck, hst, haligned, if_neg hregion, hread, hwords, hany, eraseDups_of_nodup hnodup, hlength, Nat.not_le.mpr hroot,
    ne_eq, not_true_eq_false, if_false, decide_false, Bool.or_self, Bool.false_eq_true, if_true]
  rfl

end

end Sys2Proof.Machine

namespace Sys2Proof
open Machine

/-- Settles O31: a write of the entry's word and the end of its check are each an update of that word's fields and of the members. -/
theorem groupEntriesAreChecked : Obligations.GroupEntriesAreChecked := by
  unfold Obligations.GroupEntriesAreChecked
  refine ⟨fun p g v s hr hbusy hv => ?_, fun g v s hr hv hvalid hopen => ?_, fun g s hst hbase => ?_,
    fun g s t l base hst hbase haligned hlength hfirst hlast hread hcoords hnodup hroot => ?_⟩
  · have hw := writeBy_grpW0_done hv hbusy
    have hplain := plainWrite_confined s .ABR_GRP_W0 g.toNat 0 v
    cases hbit : v.getLsbD 63 with
    | true =>
      rw [hbit, if_pos rfl] at hw
      obtain ⟨u, hu⟩ : ∃ u, u = (s.plainWrite .ABR_GRP_W0 g.toNat 0 v).setF (Fld.ABR_GRP_W0_STATE g.toNat) 1 := ⟨_, rfl⟩
      have hset : Confined (· = RegId.ABR_GRP_W0.addr g.toNat) s u := hu ▸ hplain.setF 1 rfl
      have hst : u.getF (Fld.ABR_GRP_W0_STATE g.toNat) = 1 := hu ▸ getF_setF_same (by decide)
      have hfab : u.fab = s.fab := hset.fab
      obtain ⟨hN, hF, hR⟩ := grp_of_written (s := s) (v := v) (t := u) fun lo width h => hu ▸ getF_setF_beside (.inr (by omega))
      rw [← hu] at hw
      exact ⟨_, congrArg Host.Outcome.next (write64_grpW0_done hr hw), rfl, hN, hF, hR, fun _ => ⟨hst, hfab⟩,
        fun h => absurd h (by decide), hset.mem, fun a ha => hset.reg a fun e => ha (by simp [e])⟩
    | false =>
      rw [hbit, if_neg Bool.false_ne_true] at hw
      obtain ⟨u, hu⟩ : ∃ u, u = (s.plainWrite .ABR_GRP_W0 g.toNat 0 v).grpChecked g.toNat 0 0 [] := ⟨_, rfl⟩
      obtain ⟨hst, hcode, hmembers, hmem, hregs⟩ := grpChecked_shows (s.plainWrite .ABR_GRP_W0 g.toNat 0 v) g (st := 0) (code := 0)
        (by decide) (by decide) []
      obtain ⟨hN, hF, hR⟩ := grp_of_written (s := s) (v := v) (t := u) fun lo width h => hu ▸ getF_grpChecked _ g.toNat 0 0 [] h
      rw [← hu] at hw hst hcode hmembers hmem hregs
      exact ⟨_, congrArg Host.Outcome.next (write64_grpW0_done hr hw), rfl, hN, hF, hR, fun h => absurd h (by decide),
        fun _ => ⟨hst, hcode, hmembers⟩, hmem, fun a ha => (hregs a ha).trans (hplain.reg a fun e => ha (by simp [e]))⟩
  · have hw := writeBy_grpW0_open hv hvalid hopen
    refine congrArg Host.Outcome.next ((State.write64_of_reaches hr g.isLt Nat.one_pos).trans ?_)
    rw [if_neg fun h => absurd h.1 (by decide), hw]
  · exact ⟨_, congrArg Host.Outcome.next (opGroupCheck_misaligned hst hbase),
      grpChecked_shows s g (by decide) (by decide) []⟩
  · subst hbase
    exact ⟨_, congrArg Host.Outcome.next (opGroupCheck_good hst ⟨haligned, hfirst, hlast, hlength, hcoords, hnodup, hroot⟩ hread),
      grpChecked_shows t g (by decide) (by decide) l⟩

end Sys2Proof

end

section

/-! ### Notices that a bay sends (R219, R224, R225, R228, R288) -/

set_option Elab.async false

namespace Sys2Proof.Machine

section
variable {s t u : State} {b : BayId} {g : BitVec 12} {q : BitVec 32} {c d : Coll} {dst : BitVec 28} {kind : NoteKind} {fs : List Nat}

/-! #### Open collectives read back -/

theorem CollBlock.names_iff (k : CollBlock) : k.names g q = true ↔ k.group = g ∧ k.seq = q := by
  simp only [CollBlock.names, Bool.and_eq_true, beq_iff_eq]

theorem CollBlock.names_own (k : CollBlock) : k.names k.group k.seq = true := k.names_iff.mpr ⟨rfl, rfl⟩

theorem coll_of_bays (h : t.bays = s.bays) (b : BayId) : (t.bay b).coll g q = (s.bay b).coll g q := by
  rw [State.bay, h]; rfl

/-- A collective of the pair that is open takes its place. -/
theorem coll_setColl (hd : (s.bay b).coll g q = some d) (hc : c.blk.names g q = true) : ((s.setColl b c).bay b).coll g q = some c := by
  obtain ⟨hg, hq⟩ := c.blk.names_iff.mp hc
  have hsame : (fun e : Coll => (if e.blk.names c.blk.group c.blk.seq then c else e).blk.names g q) = fun e => e.blk.names g q := by
    funext e
    rw [hg, hq]
    cases he : e.blk.names g q with
    | true => exact hc
    | false => exact he
  have hnames : d.blk.names g q = true := List.find?_some (p := fun e : Coll => e.blk.names g q) hd
  unfold Bay.coll at hd
  rw [State.setColl, State.bay_updBay_self, Bay.coll, List.find?_map, Function.comp_def, hsame, hd, Option.map_some, hg, hq,
    if_pos hnames]

/-! #### What a NOTICE packet changes -/

/-- A NOTICE packet is handed to one of the fabric engines. -/
theorem sendNote_holds (s : State) (ep : Nat) (dst : BitVec 28) (kind : NoteKind) (fs : List Nat) : ∃ x : Held, x.p.type = 9 ∧ x.p.dst = dst
    ∧ x.p.src = coordOf s.devCoord ep ∧ x.p.payload = notePayload kind fs ∧ x.by_ = .here
    ∧ (s.sendNote 9 ep dst kind fs = { s with fab := { s.fab with held0 := s.fab.held0 ++ [x] } }
      ∨ s.sendNote 9 ep dst kind fs = { s with fab := { s.fab with held1 := s.fab.held1 ++ [x] } }) := by
  refine ⟨s.formed { s.blankPacket 9 ep dst with
    plen := BitVec.ofNat 9 ((notePayload kind fs).length / 8), payload := notePayload kind fs }, rfl, rfl, rfl, rfl, rfl, ?_⟩
  unfold State.sendNote State.inject State.hold
  dsimp only
  split
  · exact .inl rfl
  · exact .inr rfl

/-- The state in which a bay knows that a packet goes to a member: the count of the last packet to its rank (R225). -/
def State.toldTo (s : State) (b : BayId) (g : BitVec 12) (q : BitVec 32) (dst : BitVec 28) : State :=
  match s.rankOf g dst with
  | some r => s.tell b g q r
  | none => s

theorem toldTo_only (s : State) (b : BayId) (g : BitVec 12) (q : BitVec 32) (dst : BitVec 28) : s.toldTo b g q dst = { s with
    bays := (s.toldTo b g q dst).bays, fab := { s.fab with early := (s.toldTo b g q dst).fab.early } } := by
  unfold State.toldTo State.tell
  split
  · split <;> rfl
  · rfl

theorem toldTo_devCoord (s : State) (b : BayId) (g : BitVec 12) (q : BitVec 32) (dst : BitVec 28) :
    (s.toldTo b g q dst).devCoord = s.devCoord := by
  rw [toldTo_only]; rfl

/-- A member of this device needs no packet. -/
theorem noteTo_eq (s : State) (b : BayId) (g : BitVec 12) (q : BitVec 32) (dst : BitVec 28) (kind : NoteKind) (fs : List Nat) :
    s.noteTo b g q dst kind fs = if devOf dst = s.devCoord then s.toldTo b g q dst
      else (s.toldTo b g q dst).sendNote 9 b.toNat dst kind ([g.toNat, q.toNat] ++ fs) := by
  rw [← toldTo_devCoord s b g q dst]
  rfl

/-- Beside the bays and the early records, which know the rank told, only the packets held change. -/
theorem noteTo_only (s : State) (b : BayId) (g : BitVec 12) (q : BitVec 32) (dst : BitVec 28) (kind : NoteKind) (fs : List Nat) :
    ∃ h0 h1, s.noteTo b g q dst kind fs = { s with
      bays := (s.toldTo b g q dst).bays
      fab := { s.fab with early := (s.toldTo b g q dst).fab.early, held0 := h0, held1 := h1 } } := by
  rw [noteTo_eq]
  have honly := toldTo_only s b g q dst
  split
  · exact ⟨_, _, honly⟩
  · obtain ⟨x, -, -, -, -, -, hx | hx⟩ := sendNote_holds (s.toldTo b g q dst) b.toNat dst kind ([g.toNat, q.toNat] ++ fs)
    · rw [hx, honly]; exact ⟨_, _, rfl⟩
    · rw [hx, honly]; exact ⟨_, _, rfl⟩

/-- A collective open at the bay knows the rank told. -/
theorem toldTo_opened (hc : (s.bay b).coll g q = some c) (dst : BitVec 28) : (s.toldTo b g q dst).fab = s.fab
    ∧ ∃ l, ((s.toldTo b g q dst).bay b).coll g q = some { c with told := l } := by
  unfold State.toldTo
  split
  · next r _ =>
    have hnames : c.blk.names g q = true := List.find?_some (p := fun e : Coll => e.blk.names g q) hc
    simp only [State.tell, hc]
    exact ⟨rfl, _, coll_setColl hc hnames⟩
  · exact ⟨rfl, c.told, hc⟩

/-- The early records with those of a pair at a bay told otherwise. -/
def retold (b : BayId) (g : BitVec 12) (q : BitVec 32) (f : List (Nat × Nat) → List (Nat × Nat)) (l : List EarlyRec) : List EarlyRec :=
  l.map fun e => if e.bay = b ∧ e.group = g ∧ e.seq = q then { e with told := f e.told } else e

/-- The counts with that of the last packet to a rank. -/
def toldRank (r now : Nat) (l : List (Nat × Nat)) : List (Nat × Nat) := (r, now) :: l.filter fun e => e.1 != r

theorem retold_id (b : BayId) (g : BitVec 12) (q : BitVec 32) (l : List EarlyRec) : retold b g q id l = l :=
  List.map_id'' (fun e => by split <;> rfl) l

theorem retold_retold (b : BayId) (g : BitVec 12) (q : BitVec 32) (f f' : List (Nat × Nat) → List (Nat × Nat)) (l : List EarlyRec) :
    retold b g q f (retold b g q f' l) = retold b g q (f ∘ f') l := by
  rw [retold, retold, List.map_map]
  refine List.map_congr_left fun e _ => ?_
  by_cases he : e.bay = b ∧ e.group = g ∧ e.seq = q
  · simp only [Function.comp_apply, if_pos he]
  · simp only [Function.comp_apply, if_neg he]

/-- A new record is told behind those of other pairs. -/
theorem retold_append_blank {l : List EarlyRec} {e : EarlyRec} (hl : ∀ d ∈ l, ¬(d.bay = b ∧ d.group = g ∧ d.seq = q))
    (he : e.bay = b ∧ e.group = g ∧ e.seq = q) (f : List (Nat × Nat) → List (Nat × Nat)) :
    retold b g q f (l ++ [e]) = l ++ [{ e with told := f e.told }] := by
  have hkeep : retold b g q f l = l := (List.map_congr_left fun d hd => if_neg (hl d hd)).trans (List.map_id l)
  rw [retold, List.map_append, List.map_singleton, if_pos he]
  exact congrArg (· ++ _) hkeep

/-- Without a collective open at the bay its early record knows the rank told. -/
theorem toldTo_unopened (hc : (s.bay b).coll g q = none) (dst : BitVec 28) : (s.toldTo b g q dst).bays = s.bays
    ∧ ∃ f, (s.toldTo b g q dst).fab.early = retold b g q f s.fab.early := by
  unfold State.toldTo
  split
  · next r _ =>
    have htell : s.tell b g q r = { s with fab := { s.fab with early := retold b g q (toldRank r s.now) s.fab.early } } := by
      simp only [State.tell, hc]
      rfl
    rw [htell]
    exact ⟨rfl, _, rfl⟩
  · exact ⟨rfl, id, (retold_id b g q _).symm⟩

/-! #### Abort notices of a pair that is not open -/

/-- What a bay's notices of a pair that is not open there change: of what is read here, the counts of its early record. -/
structure NoticesSent (b : BayId) (g : BitVec 12) (q : BitVec 32) (s t : State) : Prop where
  bays : t.bays = s.bays
  mem : t.mem = s.mem
  regs : t.regs = s.regs
  early : ∃ f, t.fab.early = retold b g q f s.fab.early

theorem NoticesSent.refl (s : State) : NoticesSent b g q s s := ⟨rfl, rfl, rfl, id, (retold_id b g q _).symm⟩

theorem NoticesSent.trans (h : NoticesSent b g q s t) (h' : NoticesSent b g q t u) : NoticesSent b g q s u := by
  obtain ⟨f, hf⟩ := h.early
  obtain ⟨f', hf'⟩ := h'.early
  exact ⟨h'.bays.trans h.bays, h'.mem.trans h.mem, h'.regs.trans h.regs, f' ∘ f, by rw [hf', hf, retold_retold]⟩

theorem noteTo_unopened (hc : (s.bay b).coll g q = none) (dst : BitVec 28) (kind : NoteKind) (fs : List Nat) :
    NoticesSent b g q s (s.noteTo b g q dst kind fs) := by
  obtain ⟨h0, h1, honly⟩ := noteTo_only s b g q dst kind fs
  obtain ⟨hbays, hearly⟩ := toldTo_unopened hc dst
  rw [honly]
  exact ⟨hbays, rfl, rfl, hearly⟩

theorem notify_unopened (n : Notice) (hc : (s.bay n.src).coll n.group n.seq = none) :
    NoticesSent n.src n.group n.seq s (s.notify n) := by
  unfold State.notify
  dsimp only
  split
  · exact ⟨rfl, rfl, rfl, id, (retold_id ..).symm⟩
  · obtain ⟨hbays, hmem, hregs, hearly⟩ := noteTo_unopened (s := s.mapNotices fun l => l ++ [n]) hc n.dst n.note.1 n.note.2
    exact ⟨hbays, hmem, hregs, hearly⟩

theorem sendAborts_unopened (hc : (s.bay b).coll g q = none) (rank : Nat) (code : Code) (detector : Nat) (l : List Nat) :
    NoticesSent b g q s (s.sendAborts b g q rank code detector l) := by
  unfold State.sendAborts
  induction l generalizing s with
  | nil => exact .refl s
  | cons x l ih =>
    rw [List.foldl_cons]
    have hsent := notify_unopened (s := s) ⟨.abort, g, q, b, rank, BitVec.ofNat 28 x, 0, code, detector, 0, false, false⟩ hc
    exact hsent.trans (ih ((coll_of_bays hsent.bays b).trans hc))

/-! #### A refused notice sent again (R224) -/

theorem opNoticeResend_accepted {k : Nat} {n : Notice} (hn : s.fab.notices[k]? = some n) (hr : n.refused = false) :
    opNoticeResend k s = s := by
  simp only [opNoticeResend, hn, hr, Bool.not_false, if_true]

/-- The notices with the one at a place no longer refused. -/
def resentAt (k : Nat) (l : List Notice) : List Notice := l.mapIdx fun i m => if i = k then { m with refused := false } else m

theorem opNoticeResend_refused {k : Nat} {n : Notice} (hn : s.fab.notices[k]? = some n) (hr : n.refused = true) :
    opNoticeResend k s = (s.mapNotices (resentAt k)).sendNotice n := by
  simp only [opNoticeResend, hn, hr, Bool.not_true, Bool.false_eq_true, if_false]
  rfl

theorem getElem?_resentAt (k i : Nat) (l : List Notice) :
    (resentAt k l)[i]? = l[i]?.map fun n => if i = k then { n with refused := false } else n := List.getElem?_mapIdx

theorem sendNotice_only (s : State) (n : Notice) :
    (s.sendNotice n).fab.notices = s.fab.notices ∧ (s.sendNotice n).regs = s.regs ∧ (s.sendNotice n).mem = s.mem := by
  obtain ⟨h0, h1, honly⟩ := noteTo_only s n.src n.group n.seq n.dst n.note.1 n.note.2
  rw [State.sendNotice, honly]
  exact ⟨rfl, rfl, rfl⟩

/-- The NOTICE packet of a notice to a member of another device. -/
theorem sendNotice_holds (s : State) {n : Notice} (hdev : devOf n.dst ≠ s.devCoord) : ∃ x : Held, x.p.type = 9 ∧ x.p.dst = n.dst
    ∧ x.p.src = coordOf s.devCoord n.src.toNat ∧ x.p.payload = notePayload n.note.1 ([n.group.toNat, n.seq.toNat] ++ n.note.2)
    ∧ x.by_ = .here ∧ ((s.sendNotice n).fab.held0 = s.fab.held0 ++ [x] ∨ (s.sendNotice n).fab.held1 = s.fab.held1 ++ [x]) := by
  obtain ⟨x, htype, hdst, hsrc, hpayload, hby, hheld⟩ := sendNote_holds (s.toldTo n.src n.group n.seq n.dst) n.src.toNat n.dst n.note.1
    ([n.group.toNat, n.seq.toNat] ++ n.note.2)
  have honly := toldTo_only s n.src n.group n.seq n.dst
  rw [State.sendNotice, noteTo_eq, if_neg hdev]
  refine ⟨x, htype, hdst, hsrc.trans (by rw [toldTo_devCoord]), hpayload, hby, ?_⟩
  obtain hheld | hheld := hheld
  · exact .inl (by rw [hheld, honly])
  · exact .inr (by rw [hheld, honly])

end

end Sys2Proof.Machine

end

section

/-! ### Aborts of collectives and early records (R222 to R229) -/

set_option Elab.async false

namespace Sys2Proof.Machine

section
variable {s t u : State} {b : BayId} {g : BitVec 12} {q : BitVec 32} {c : Coll} {code : Code} {r detector : Nat}

/-! #### A collective completed by abort (R229) -/

/-- What the settling of flags at a bay keeps: the bays, and the registers but those that an access to its memory counts in. -/
structure FlagFrame (b : BayId) (s t : State) : Prop where
  bays : t.bays = s.bays
  regs : Safety.keepsRegs s t (Safety.issueRegs b)

theorem FlagFrame.refl (b : BayId) (s : State) : FlagFrame b s s := ⟨rfl, fun _ _ => rfl⟩

theorem FlagFrame.trans (h : FlagFrame b s t) (h' : FlagFrame b t u) : FlagFrame b s u :=
  ⟨h'.bays.trans h.bays, fun a ha => (h'.regs a ha).trans (h.regs a ha)⟩

theorem FlagFrame.foldl {f : State → Nat → State} (hf : ∀ s i, FlagFrame b s (f s i)) (l : List Nat) (s : State) :
    FlagFrame b s (l.foldl f s) := by
  induction l generalizing s with
  | nil => exact .refl b s
  | cons i l ih => exact (hf s i).trans (ih _)

theorem settle_frame (s : State) (b : BayId) (k : CollBlock) (i : Nat) (code : Code) : FlagFrame b s (s.settle b k i code) :=
  ⟨State.bayWrite_bays .., State.bayWrite_reg s b _ _⟩

theorem openBytes_frame (s : State) (b : BayId) (a n : Nat) : FlagFrame b s (s.openBytes a n) :=
  ⟨State.setMemBytes_bays .., fun r _ => State.setMemBytes_reg _ _ _ r⟩

/-- The flags of a collective that aborts settle with its code, and the region bytes of its unsettled chunks are open (R229). -/
def State.abortFlags (s : State) (b : BayId) (c : Coll) (code : Code) : State :=
  ((List.range c.blk.nc).filter fun i => !c.settled.contains i).foldl
    (fun s i => s.openBytes (bayAddr b (c.blk.region + i * c.blk.chunk)) (c.blk.chunkLen i))
    ((List.range (c.blk.nc + 1)).foldl (fun s i => if c.settled.contains i then s else s.settle b c.blk i code) s)

theorem abortFlags_frame (s : State) (b : BayId) (c : Coll) (code : Code) : FlagFrame b s (s.abortFlags b c code) := by
  refine (FlagFrame.foldl (fun s i => ?_) _ s).trans (.foldl (fun s i => openBytes_frame s b _ _) _ _)
  split
  · exact .refl b s
  · exact settle_frame s b c.blk i code

/-- The record of an abort. -/
def abortFields (g : BitVec 12) (q : BitVec 32) (code : Code) (detector : Nat) : List (Field × Nat) :=
  [(Fld.ABR_COLL_ABORT_VALID, 1), (Fld.ABR_COLL_ABORT_CODE, code.toNat), (Fld.ABR_COLL_ABORT_GROUP, g.toNat),
    (Fld.ABR_COLL_ABORT_DETECTOR, detector), (Fld.ABR_COLL_ABORT_SEQ_LO, q.toNat)]

theorem setFs_abortFields_confined (s : State) (g : BitVec 12) (q : BitVec 32) (code : Code) (detector : Nat) :
    Confined (· = RegId.ABR_COLL_ABORT.addr) s (s.setFs (abortFields g q code detector)) :=
  Confined.refl.setFs (by simp [abortFields, Fld.ABR_COLL_ABORT_VALID, Fld.ABR_COLL_ABORT_CODE, Fld.ABR_COLL_ABORT_GROUP,
    Fld.ABR_COLL_ABORT_DETECTOR, Fld.ABR_COLL_ABORT_SEQ_LO])

theorem setFs_abortFields_code (s : State) (g : BitVec 12) (q : BitVec 32) (code : Code) (detector : Nat) :
    (s.setFs (abortFields g q code detector)).getF Fld.ABR_COLL_ABORT_CODE = code.toNat := by
  rw [abortFields, setFs_cons, setFs_cons, setFs_cons, setFs_cons, setFs_cons, setFs_nil, Fld.ABR_COLL_ABORT_SEQ_LO,
    Fld.ABR_COLL_ABORT_DETECTOR, Fld.ABR_COLL_ABORT_GROUP, Fld.ABR_COLL_ABORT_CODE, getF_setF_beside (by decide),
    getF_setF_beside (by decide), getF_setF_beside (by decide), getF_setF_same (by decide)]
  exact Nat.mod_eq_of_lt code.isLt

/-- An abort counted, and recorded while none is (R240). -/
def State.abortLogged (s : State) (g : BitVec 12) (q : BitVec 32) (code : Code) (detector : Nat) : State :=
  if (s.incF Fld.ABR_COLL_ABORT_CNT_COUNT).getF Fld.ABR_COLL_ABORT_VALID = 1 then s.incF Fld.ABR_COLL_ABORT_CNT_COUNT
  else (s.incF Fld.ABR_COLL_ABORT_CNT_COUNT).setFs (abortFields g q code detector)

theorem abortColl_eq (hc : (s.bay b).coll g q = some c) : s.abortColl b g q code detector
    = ((((s.abortFlags b c code).dropColl b g q).dropNotices b g q).bitsEvent code).abortLogged g q code detector := by
  simp only [State.abortColl, hc]
  rfl

theorem coll_dropColl (s : State) (b : BayId) (g : BitVec 12) (q : BitVec 32) : ((s.dropColl b g q).bay b).coll g q = none := by
  rw [State.dropColl, State.bay_updBay_self, Bay.coll, List.find?_eq_none]
  intro d hd
  have hkept := (List.mem_filter.mp hd).2
  simpa using hkept

theorem dropColl_keepsBays (s : State) (b : BayId) (g : BitVec 12) (q : BitVec 32) : Safety.keepsBays s (s.dropColl b g q) b :=
  fun _ hk => State.bay_updBay_ne _ _ _ _ hk

/-- The registers in which an abort is counted and recorded. -/
def abortRegs : List Nat := [RegId.ABR_COLL_ABORT.addr, RegId.ABR_COLL_ABORT_CNT.addr]

theorem abortLogged_confined (s : State) (g : BitVec 12) (q : BitVec 32) (code : Code) (detector : Nat) :
    Confined (· ∈ abortRegs) s (s.abortLogged g q code detector) := by
  have hcnt : Confined (· ∈ abortRegs) s (s.incF Fld.ABR_COLL_ABORT_CNT_COUNT) := Confined.refl.incF 1 (by decide)
  exact .ite hcnt (hcnt.trans ((setFs_abortFields_confined _ g q code detector).mono fun a ha => by simp [ha, abortRegs]))

theorem abortLogged_shows (s : State) (g : BitVec 12) (q : BitVec 32) (code : Code) (detector : Nat) :
    (s.abortLogged g q code detector).getF Fld.ABR_COLL_ABORT_CNT_COUNT = (s.getF Fld.ABR_COLL_ABORT_CNT_COUNT + 1) % 2 ^ 32
    ∧ (s.abortLogged g q code detector).getF Fld.ABR_COLL_ABORT_CODE
      = if s.getF Fld.ABR_COLL_ABORT_VALID = 1 then s.getF Fld.ABR_COLL_ABORT_CODE else code.toNat := by
  have hcount : (s.incF Fld.ABR_COLL_ABORT_CNT_COUNT).getF Fld.ABR_COLL_ABORT_CNT_COUNT
      = (s.getF Fld.ABR_COLL_ABORT_CNT_COUNT + 1) % 2 ^ 32 := State.getF_setF_self _ _ _ (by decide)
  have hvalid : (s.incF Fld.ABR_COLL_ABORT_CNT_COUNT).getF Fld.ABR_COLL_ABORT_VALID = s.getF Fld.ABR_COLL_ABORT_VALID :=
    State.getF_setF_reg _ _ _ _ (by decide)
  have hcode : (s.incF Fld.ABR_COLL_ABORT_CNT_COUNT).getF Fld.ABR_COLL_ABORT_CODE = s.getF Fld.ABR_COLL_ABORT_CODE :=
    State.getF_setF_reg _ _ _ _ (by decide)
  unfold State.abortLogged
  rw [hvalid]
  by_cases hheld : s.getF Fld.ABR_COLL_ABORT_VALID = 1
  · simp only [if_pos hheld]
    exact ⟨hcount, hcode⟩
  · simp only [if_neg hheld]
    exact ⟨((setFs_abortFields_confined _ g q code detector).getF _ (by decide)).trans hcount, setFs_abortFields_code ..⟩

/-- An open collective completed by abort: closed at its bay alone, the step's Bits validity broken, the abort counted, and recorded
where nothing was. -/
structure CollAborted (b : BayId) (g : BitVec 12) (q : BitVec 32) (code : Code) (s t : State) : Prop where
  closed : (t.bay b).coll g q = none
  bits : t.getF Fld.LDG_STEP_STATUS_VALID = 0
  count : t.getF Fld.ABR_COLL_ABORT_CNT_COUNT = (s.getF Fld.ABR_COLL_ABORT_CNT_COUNT + 1) % 2 ^ 32
  code : t.getF Fld.ABR_COLL_ABORT_CODE
    = if s.getF Fld.ABR_COLL_ABORT_VALID = 1 then s.getF Fld.ABR_COLL_ABORT_CODE else code.toNat
  bays : Safety.keepsBays s t b

/-- What leaves bays and registers keeps it. -/
theorem CollAborted.of_eq (h : CollAborted b g q code s t) (hbays : u.bays = t.bays) (hregs : u.regs = t.regs) :
    CollAborted b g q code s u where
  closed := (coll_of_bays hbays b).trans h.closed
  bits := (getF_of_regs hregs _).trans h.bits
  count := (getF_of_regs hregs _).trans h.count
  code := (getF_of_regs hregs _).trans h.code
  bays k hk := by
    rw [← h.bays k hk, State.bay, hbays]; rfl

theorem abortColl_aborted (hc : (s.bay b).coll g q = some c) (code : Code) (detector : Nat) :
    CollAborted b g q code s (s.abortColl b g q code detector) := by
  obtain ⟨fbays, fregs⟩ := abortFlags_frame s b c code
  rw [abortColl_eq hc]
  obtain ⟨u, hu⟩ : ∃ u, u = ((s.abortFlags b c code).dropColl b g q).dropNotices b g q := ⟨_, rfl⟩
  have hregs (a : Nat) (ha : a ∉ Safety.issueRegs b) : u.reg a = s.reg a := by rw [hu]; exact fregs a ha
  have hclosed : (u.bay b).coll g q = none := by rw [hu]; exact coll_dropColl ..
  have hbays : Safety.keepsBays s u b := fun k hk => by
    rw [hu]
    refine (dropColl_keepsBays _ b g q k hk).trans ?_
    rw [State.bay, fbays]; rfl
  rw [← hu]
  have hbits (f : Field) (hf : f.reg ∉ Safety.issueRegs b) : (u.bitsEvent code).getF f = s.getF f := by
    have hstep : f.reg ≠ RegId.LDG_STEP_STATUS.addr := fun e => hf (by simp [Safety.issueRegs, e])
    rw [State.getF, State.reg_bitsEvent_ne u code _ hstep, hregs _ hf, State.getF]
  have hcountReg : RegId.ABR_COLL_ABORT_CNT.addr ∉ Safety.issueRegs b :=
    not_mem_issueRegs b .ABR_COLL_ABORT_CNT (by decide) (by decide) (by decide) (by decide)
  have hcnt := hbits Fld.ABR_COLL_ABORT_CNT_COUNT hcountReg
  have habort : RegId.ABR_COLL_ABORT.addr ∉ Safety.issueRegs b :=
    not_mem_issueRegs b .ABR_COLL_ABORT (by decide) (by decide) (by decide) (by decide)
  have hvalid := hbits Fld.ABR_COLL_ABORT_VALID habort
  have hcode := hbits Fld.ABR_COLL_ABORT_CODE habort
  have hlog := abortLogged_confined (u.bitsEvent code) g q code detector
  obtain ⟨hcount, hlogged⟩ := abortLogged_shows (u.bitsEvent code) g q code detector
  rw [hcnt] at hcount
  rw [hvalid, hcode] at hlogged
  have hsame : ((u.bitsEvent code).abortLogged g q code detector).bays = u.bays := hlog.bays.trans (State.bitsEvent_bays ..)
  exact {
    closed := (coll_of_bays hsame b).trans hclosed
    bits := (hlog.getF _ (by decide)).trans (bitsEvent_valid u code)
    count := hcount
    code := hlogged
    bays := fun k hk => by rw [← hbays k hk, State.bay, hsame]; rfl }

/-- The first detection at a member aborts there with its own code; the notices to the other members change no more of it (R227, R228). -/
theorem detect_aborted (hc : (s.bay b).coll g q = some c) (code : Code) : CollAborted b g q code s (s.detect b g q code) := by
  have habort := abortColl_aborted hc code c.blk.rank
  have hsent := sendAborts_unopened habort.closed c.blk.rank (otherCode code) c.blk.rank
    ((s.members g).filter fun m => m != (coordOf s.devCoord b.toNat).toNat)
  simp only [State.detect, hc]
  exact habort.of_eq hsent.bays hsent.regs

/-! #### An abort notice that arrives (R223, R228) -/

/-- An abort notice forwarded to the tree neighbours of a bay whose group is ready (R228). -/
def State.forwardAbort (s : State) (b : BayId) (g : BitVec 12) (q : BitVec 32) (code : Code) (detector rank : Nat) : State :=
  if s.grpReady g then s.sendAborts b g q rank code detector (s.treeNeighbours b g) else s

theorem forwardAbort_unopened (hc : (s.bay b).coll g q = none) (code : Code) (detector rank : Nat) :
    NoticesSent b g q s (s.forwardAbort b g q code detector rank) := by
  unfold State.forwardAbort
  split
  · exact sendAborts_unopened hc rank code detector _
  · exact .refl s

/-- The arrival of an abort notice takes its packet. -/
def State.takeAbort (s : State) (b : BayId) (g : BitVec 12) (q : BitVec 32) (code : Code) (detector : BitVec 16) : State :=
  s.takeNote 9 b.toNat .abort [g.toNat, q.toNat, code.toNat, detector.toNat]

theorem opAbortNotice_open (hc : (s.bay b).coll g q = some c) (code : Code) (detector : BitVec 16) :
    ∃ (f : List Notice → List Notice) (rank : Nat), opAbortNotice b g q code detector s
      = ((((s.takeAbort b g q code detector).abortColl b g q code detector.toNat).mapNotices f).forwardAbort b g q code detector.toNat
        rank).answer cDONE := by
  have hc' : ((s.takeNote 9 b.toNat .abort [g.toNat, q.toNat, code.toNat, detector.toNat]).bay b).coll g q = some c := hc
  simp only [opAbortNotice, hc']
  exact ⟨_, _, rfl⟩

theorem opAbortNotice_early (hc : (s.bay b).coll g q = none) (he : s.fab.earlyOf b g q = none) (code : Code) (detector : BitVec 16) :
    ∃ (f : List Notice → List Notice) (rank : Nat), opAbortNotice b g q code detector s
      = if s.fab.early.length < 8192 then
          ((((s.takeAbort b g q code detector).recorded { EarlyRec.blank b g q with
            abort := some (code, detector.toNat), since := s.now }).mapNotices f).forwardAbort b g q code detector.toNat rank).answer cDONE
        else ((s.takeAbort b g q code detector).mapNotices f).answer cCAPACITY := by
  have hc' : ((s.takeNote 9 b.toNat .abort [g.toNat, q.toNat, code.toNat, detector.toNat]).bay b).coll g q = none := hc
  have he' : (s.takeNote 9 b.toNat .abort [g.toNat, q.toNat, code.toNat, detector.toNat]).fab.earlyOf b g q = none := he
  have hlen : (s.takeNote 9 b.toNat .abort [g.toNat, q.toNat, code.toNat, detector.toNat]).fab.early = s.fab.early := rfl
  simp only [opAbortNotice, hc', early_unrecorded he', hlen, he', Option.bind_none, Option.isSome_none]
  by_cases hroom : s.fab.early.length < 8192
  · simp only [if_pos hroom, Bool.not_true, Bool.false_eq_true, if_false]
    exact ⟨_, _, rfl⟩
  · simp only [if_neg hroom, Bool.not_false, if_true]
    exact ⟨_, 0, rfl⟩

theorem early_others (he : s.fab.earlyOf b g q = none) : ∀ e ∈ s.fab.early, ¬(e.bay = b ∧ e.group = g ∧ e.seq = q) := by
  intro e hmem heq
  have hno := List.find?_eq_none.mp he e hmem
  simp [heq] at hno

/-- An abort that comes first is kept with its code, its detecting rank and the count, or refused with CAPACITY (R223, R224). -/
theorem opAbortNotice_kept (hc : (s.bay b).coll g q = none) (he : s.fab.earlyOf b g q = none) (code : Code) (detector : BitVec 16) :
    (opAbortNotice b g q code detector s).lastCode = (if s.fab.early.length < 8192 then cDONE else cCAPACITY)
    ∧ ∃ l, (opAbortNotice b g q code detector s).fab.early = (if s.fab.early.length < 8192 then
        s.fab.early ++ [{ EarlyRec.blank b g q with abort := some (code, detector.toNat), since := s.now, told := l }] else s.fab.early)
      ∧ (opAbortNotice b g q code detector s).bays = s.bays ∧ (opAbortNotice b g q code detector s).mem = s.mem := by
  obtain ⟨f, rank, heq⟩ := opAbortNotice_early hc he code detector
  rw [heq]
  by_cases hroom : s.fab.early.length < 8192
  · simp only [if_pos hroom]
    obtain ⟨u, hu⟩ : ∃ u, u = (s.takeAbort b g q code detector).recorded { EarlyRec.blank b g q with
      abort := some (code, detector.toNat), since := s.now } := ⟨_, rfl⟩
    have hbays : u.bays = s.bays := hu ▸ recorded_bays ..
    have hmem : u.mem = s.mem := hu ▸ recorded_mem ..
    have hearly : u.fab.early = s.fab.early ++ [{ EarlyRec.blank b g q with abort := some (code, detector.toNat), since := s.now }] :=
      hu ▸ congrArg Fabric.early (recorded_fab ..)
    obtain ⟨hbays', hmem', -, told, htold⟩ :=
      forwardAbort_unopened (s := u.mapNotices f) ((coll_of_bays hbays b).trans hc) code detector.toNat rank
    rw [← hu]
    have hlast := htold.trans ((congrArg (retold b g q told) hearly).trans (retold_append_blank (early_others he) ⟨rfl, rfl, rfl⟩ told))
    exact ⟨rfl, _, hlast, hbays'.trans hbays, hmem'.trans hmem⟩
  · simp only [if_neg hroom]
    exact ⟨rfl, [], rfl, rfl, rfl⟩

/-- An abort of an open collective completes it (R229). -/
theorem opAbortNotice_aborts (hc : (s.bay b).coll g q = some c) (code : Code) (detector : BitVec 16) :
    (opAbortNotice b g q code detector s).lastCode = cDONE ∧ CollAborted b g q code s (opAbortNotice b g q code detector s) := by
  obtain ⟨f, rank, heq⟩ := opAbortNotice_open hc code detector
  have habort : CollAborted b g q code s ((s.takeAbort b g q code detector).abortColl b g q code detector.toNat) := by
    obtain ⟨hclosed, hbits, hcount, hcode, hbays⟩ := abortColl_aborted (s := s.takeAbort b g q code detector) hc code detector.toNat
    exact ⟨hclosed, hbits, hcount, hcode, hbays⟩
  rw [heq]
  generalize (s.takeAbort b g q code detector).abortColl b g q code detector.toNat = u at habort
  have hsent := forwardAbort_unopened (s := u.mapNotices f) habort.closed code detector.toNat rank
  exact ⟨rfl, habort.of_eq hsent.bays hsent.regs⟩

/-! #### Early records, silence and slow notices (R223, R225, R226) -/

theorem opEarlyExpiry_due {e : EarlyRec} (he : s.fab.earlyOf b g q = some e) (ha : e.abort ≠ none) (hdue : e.since + 10000000 ≤ s.now) :
    opEarlyExpiry b g q s = { s with fab := s.fab.dropEarly b g q } := by
  simp only [opEarlyExpiry, he, Option.isSome_iff_ne_none.mpr ha, hdue, decide_true, Bool.and_self, if_true]

theorem opSilence_due {rank : BitVec 16} (hc : (s.bay b).coll g q = some c) (hj : c.joined = true)
    (hwait : s.waitsOn b c rank.toNat = true)
    (hdue : ((c.heard.find? fun e => e.1 == rank.toNat).map Prod.snd).getD c.opened + 2000000 ≤ s.now) :
    opSilence b g q rank s = s.detect b g q cABORTED_GROUP := by
  simp only [opSilence, hc, hj, hwait, hdue, decide_true, Bool.and_self, if_true]

theorem opSlowSend_told {rank : BitVec 16} {n : Nat} (hdue : s.slowDue b g q rank.toNat = some (some n))
    (htold : n / 100000 = s.now / 100000) : opSlowSend b g q rank s = s := by
  simp only [opSlowSend, hdue, Option.any_some, htold, decide_true, Bool.or_true, if_true]

theorem opSlowSend_due {rank : BitVec 16} {last : Option Nat} (hdue : s.slowDue b g q rank.toNat = some last)
    (hfault : (s.bay b).main.status.st ≠ .fault) (hstopped : (s.bay b).main.status.st ≠ .stopped)
    (hlast : ∀ n, last = some n → n / 100000 ≠ s.now / 100000) : opSlowSend b g q rank s
      = ((s.noteTo b g q (s.memberCoord g rank.toNat) .slow [(s.rankOf g (coordOf s.devCoord b.toNat)).getD 0]).incF
        Fld.ABR_COLL_STATS_SLOW_TX).tickEvent := by
  have hany : (last.any fun n => decide (n / 100000 = s.now / 100000)) = false := by
    cases last with
    | none => rfl
    | some n => exact decide_eq_false (hlast n rfl)
  simp only [opSlowSend, hdue, beq_false_of_ne hfault, beq_false_of_ne hstopped, hany, Bool.or_self, Bool.false_eq_true, if_false]

theorem opSlowSend_none {rank : BitVec 16} (hdue : s.slowDue b g q rank.toNat = none) : opSlowSend b g q rank s = s := by
  simp only [opSlowSend, hdue]

theorem opSlowArrival_open {rank : BitVec 16} (hc : (s.bay b).coll g q = some c) : opSlowArrival b g q rank s
    = (s.takeNote 9 b.toNat .slow [g.toNat, q.toNat, rank.toNat]).setColl b (c.hear rank.toNat s.now) := by
  have hc' : ((s.takeNote 9 b.toNat .slow [g.toNat, q.toNat, rank.toNat]).bay b).coll g q = some c := hc
  simp only [opSlowArrival, hc']
  rfl

end

end Sys2Proof.Machine

namespace Sys2Proof
open Machine

/-- Settles O34: an abort closes its collective in `abortColl`, and the notices that follow change only the counts of an early record,
for nothing of the pair is open then. -/
theorem abortNoticesAndEarlyRecords : Obligations.AbortNoticesAndEarlyRecords := by
  unfold Obligations.AbortNoticesAndEarlyRecords
  refine ⟨fun b g q code d s => ⟨fun hopen => ?_, fun hc he => ⟨_, rfl, opAbortNotice_kept hc he code d⟩⟩,
    fun b g q s e he ha hdue => congrArg Host.Outcome.next (opEarlyExpiry_due he ha hdue),
    fun k s n hn => ⟨fun hr => congrArg Host.Outcome.next (opNoticeResend_accepted hn hr), fun hr => ?_⟩,
    fun b g q r s c hc hj hwait hdue => ?_, fun b g q r s last hlast => ⟨?_, fun hf hs hl => ?_⟩,
    fun b g q r s hnone => congrArg Host.Outcome.next (opSlowSend_none hnone),
    fun b g q r s c hc => congrArg Host.Outcome.next (opSlowArrival_open hc)⟩
  · obtain ⟨c, hc⟩ := Option.ne_none_iff_exists'.mp hopen
    obtain ⟨hdone, hclosed, hbits, hcount, hcode, hbays⟩ := opAbortNotice_aborts hc code d
    exact ⟨_, rfl, hclosed, hdone, hbits, hcount, hcode, hbays⟩
  · obtain ⟨hnotices, hregs, hmem⟩ := sendNotice_only (s.mapNotices (resentAt k)) n
    refine ⟨_, congrArg Host.Outcome.next (opNoticeResend_refused hn hr), fun i => ?_, hregs, hmem, fun hdev => ?_⟩
    · rw [hnotices]
      exact getElem?_resentAt k i s.fab.notices
    · exact sendNotice_holds (s.mapNotices (resentAt k)) hdev
  · obtain ⟨hclosed, -, hcount, hcode, -⟩ := detect_aborted hc cABORTED_GROUP
    exact ⟨_, congrArg Host.Outcome.next (opSilence_due hc hj hwait hdue), hclosed, hcount, hcode⟩
  · rintro ⟨t, rfl, htold⟩
    exact congrArg Host.Outcome.next (opSlowSend_told hlast htold)
  · exact congrArg Host.Outcome.next (opSlowSend_due hlast hf hs hl)

end Sys2Proof

end

section

/-! ### Opening and joining (R206, R210, R219, R221) -/

set_option Elab.async false

namespace Sys2Proof.Machine

section
variable {s t : State} {b : BayId} {g : BitVec 12} {q : BitVec 32} {c : Coll} {k : CollBlock} {ga gb gc : Word} {fmt : BitVec 4}

/-! #### The unit whose head is the first SPLICE of a pair (R206) -/

theorem opCollectiveJoin_press {e : PressEntry} {rest : List PressEntry} {m : Bool} {f : XFields} (hc : (s.bay b).coll g q = none)
    (hq : (s.bay b).pq = e :: rest) (hop : e.op = .splice m f ga gb gc k) (hk : k.names g q = true) :
    opCollectiveJoin b g q s = opPressAccept b s := by
  have hnames : (s.bay b).pressNames g q = true := by simp only [Bay.pressNames, hq, hop, hk]
  simp only [opCollectiveJoin, hc, hnames, Option.isSome_none, Bool.false_eq_true, if_false, if_true]

theorem opCollectiveJoin_vector {e : VecEntry} {rest : List VecEntry} {x : XCode} {f : XFields} (hc : (s.bay b).coll g q = none)
    (hpq : (s.bay b).pq = []) (hq : (s.bay b).mainVq = e :: rest) (hop : e.op = .splice x f ga gb gc k) (hk : k.names g q = true) :
    opCollectiveJoin b g q s = opVectorStart b .main s := by
  have hpress : (s.bay b).pressNames g q = false := by simp only [Bay.pressNames, hpq]
  have hnames : (s.bay b).vecNames g q = true := by simp only [Bay.vecNames, hq, hop, hk]
  simp only [opCollectiveJoin, hc, hpress, hnames, Option.isSome_none, Bool.false_eq_true, if_false, if_true]

/-- A broadcast's SPLICE of a member that does not store opens its pair, and the handlers go on. -/
theorem vecSplice_receives {e : VecEntry} {f : XFields} (hc : (s.bay b).coll k.group k.seq = none) (hroom : (s.bay b).colls.length < 8)
    (hop : k.op = 3) (hroot : k.rank ≠ k.root) : vecSplice b e .spliceVb f ga gb gc k s
      = some ((s.openColl b k ga gb 0 (f.mod.extractLsb' 0 4)).work b k.group k.seq) := by
  have hexp : k.experts = false := by simp [CollBlock.experts, hop]
  have hred : k.reduce = false := by simp [CollBlock.reduce, hop]
  have hstores : k.stores = false := by simp [CollBlock.stores, hred, hroot]
  have hcmb : ¬(k.op = 6 ∧ gc.getLsbD 63 = true ∧ (!(s.bay b).quiet e.qseq) = true) := by rw [hop]; simp
  have haccept : s.acceptColl b k ga gb 0 (f.mod.extractLsb' 0 4) = some (s.openColl b k ga gb 0 (f.mod.extractLsb' 0 4)) := by
    simp only [State.acceptColl, hc, Option.isSome_none, Bool.false_eq_true, if_false, if_neg (Nat.not_le.mpr hroom)]
  simp only [vecSplice, if_neg hcmb, hexp, Bool.false_eq_true, if_false, haccept, Option.map_some, hstores]

theorem opVectorStart_splice {e : VecEntry} {rest : List VecEntry} {x : XCode} {f : XFields} {u : State} (hclock : s.clockOff = false)
    (hturn : s.takesQueue b .main = true) (hq : (s.bay b).mainVq = e :: rest) (hop : e.op = .splice x f ga gb gc k)
    (hu : vecSplice b e x f ga gb gc k (s.updBay b fun y => { y with mainVq := rest, seamLast := false }) = some u) :
    opVectorStart b .main s = u.settled := by
  simp only [opVectorStart, hclock, hturn, hq, hop, hu, Bool.not_true, Bool.or_self, Bool.false_eq_true, if_false, Option.map_some,
    Option.getD_some]

/-! #### Join notices (R219) -/

/-- What names a notice: its kind, its pair, its sender and the member it goes to. -/
def noticeKey (n : Notice) : NoticeKind × BitVec 12 × BitVec 32 × BayId × BitVec 28 := (n.kind, n.group, n.seq, n.src, n.dst)

/-- What the notices of a collective open at a bay change: the notices by one, and the counts of the packets told. -/
theorem notify_opened {n : Notice} (hheld : n.held = false) (hc : (s.bay n.src).coll n.group n.seq = some c) :
    (s.notify n).fab.notices = s.fab.notices ++ [n] ∧ (s.notify n).fab.early = s.fab.early ∧ (s.notify n).fab.groups = s.fab.groups
    ∧ ∃ l, ((s.notify n).bay n.src).coll n.group n.seq = some { c with told := l } := by
  have hnote : s.notify n = (s.mapNotices (· ++ [n])).sendNotice n := by
    unfold State.notify
    simp only [hheld, Bool.false_eq_true, if_false]
    rfl
  obtain ⟨h0, h1, honly⟩ := noteTo_only (s.mapNotices (· ++ [n])) n.src n.group n.seq n.dst n.note.1 n.note.2
  obtain ⟨hfab, l, hl⟩ := toldTo_opened (s := s.mapNotices (· ++ [n])) hc n.dst
  have hearly := congrArg Fabric.early hfab
  rw [hnote, State.sendNotice, honly]
  exact ⟨rfl, hearly, rfl, l, hl⟩

/-- Join notices of a bay's collective sent to ranks of its group. -/
def State.sendJoins (s : State) (b : BayId) (k : CollBlock) (ranks : List Nat) : State :=
  ranks.foldl (fun s r => s.notify (s.noticeTo .join b k r)) s

theorem sendJoins_opened (hc : (s.bay b).coll k.group k.seq = some c) (ranks : List Nat) :
    (s.sendJoins b k ranks).fab.early = s.fab.early
    ∧ (∃ l, ((s.sendJoins b k ranks).bay b).coll k.group k.seq = some { c with told := l })
    ∧ (s.sendJoins b k ranks).fab.notices.map noticeKey
      = s.fab.notices.map noticeKey ++ ranks.map fun r => (NoticeKind.join, k.group, k.seq, b, s.memberCoord k.group r) := by
  induction ranks generalizing s c with
  | nil => exact ⟨rfl, ⟨c.told, hc⟩, (List.append_nil _).symm⟩
  | cons r ranks ih =>
    obtain ⟨hnotices, hearly, hgroups, l, hl⟩ := notify_opened (s := s) (n := s.noticeTo .join b k r) rfl hc
    obtain ⟨hearly', hcoll', hkeys'⟩ := ih hl
    have hcoord (r' : Nat) : (s.notify (s.noticeTo .join b k r)).memberCoord k.group r' = s.memberCoord k.group r' := by
      simp only [State.memberCoord, State.members, hgroups]
    refine ⟨hearly'.trans hearly, hcoll', hkeys'.trans ?_⟩
    rw [hnotices, List.map_append, List.append_assoc]
    simp only [hcoord]
    rfl

/-! #### A pair that opens and joins -/

/-- A new collective stands behind the open ones. -/
theorem coll_append_new (hc : (s.bay b).coll k.group k.seq = none) (hk : c.blk = k) :
    ((s.updBay b fun y => { y with colls := y.colls ++ [c] }).bay b).coll k.group k.seq = some c := by
  have hnames : c.blk.names k.group k.seq = true := by rw [hk]; exact k.names_own
  unfold Bay.coll at hc
  rw [State.bay_updBay_self, Bay.coll, List.find?_append, hc, Option.none_or, List.find?_singleton, if_pos hnames]

/-- The tree neighbours of a collective as it opens (R210). -/
theorem newColl_neighbours (s : State) (ga gb gc : Word) (fmt : BitVec 4) (hexp : k.experts = false) :
    (s.newColl k ga gb gc fmt).parent.map (fun n => n.rank) = treeParent (s.grpF k.group) k.root k.rank
    ∧ (s.newColl k ga gb gc fmt).children.map (fun n => n.rank) = treeChildren (s.grpN k.group) (s.grpF k.group) k.root k.rank := by
  have hrank : (fun n : Neighbour => n.rank) ∘ Neighbour.fresh = id := rfl
  simp only [State.newColl, hexp, Bool.not_false, if_true, Option.map_map, List.map_map, hrank, Option.map_id, List.map_id, id_eq, and_self]

theorem joinTo_tree {c : Coll} (hexp : c.blk.experts = false) :
    s.joinTo c = (c.parent.map fun n => n.rank).toList ++ c.children.map fun n => n.rank := by
  simp only [State.joinTo, hexp, Bool.false_eq_true, if_false]

/-- A pair that opens, passes the checks of R219 and has no early record is joined, and its join notices leave. -/
theorem openColl_joined (hc : (s.bay b).coll k.group k.seq = none)
    (hcheck : (s.updBay b fun y => { y with colls := y.colls ++ [s.newColl k ga gb gc fmt] }).joinCheck b k = (t, none))
    (hbays : t.bays = (s.updBay b fun y => { y with colls := y.colls ++ [s.newColl k ga gb gc fmt] }).bays)
    (he : s.fab.earlyOf b k.group k.seq = none) (hfab : t.fab = s.fab) : ∃ u : State, u.fab = s.fab
      ∧ (u.bay b).coll k.group k.seq = some { s.newColl k ga gb gc fmt with joined := true }
      ∧ s.openColl b k ga gb gc fmt = u.sendJoins b k (u.joinTo (s.newColl k ga gb gc fmt)) := by
  have hopen : (t.bay b).coll k.group k.seq = some (s.newColl k ga gb gc fmt) := (coll_of_bays hbays b).trans (coll_append_new hc rfl)
  have hjoined := coll_setColl (c := { s.newColl k ga gb gc fmt with joined := true }) hopen k.names_own
  refine ⟨t.setColl b { s.newColl k ga gb gc fmt with joined := true }, hfab, hjoined, ?_⟩
  obtain ⟨hearly, -, -⟩ := sendJoins_opened hjoined
    ((t.setColl b { s.newColl k ga gb gc fmt with joined := true }).joinTo (s.newColl k ga gb gc fmt))
  have hnone := (congrArg (List.find? fun e : EarlyRec => e.bay == b && e.group == k.group && e.seq == k.seq)
    (hearly.trans (congrArg Fabric.early hfab))).trans he
  unfold State.sendJoins at hnone ⊢
  simp only [State.openColl, hcheck, Fabric.earlyOf, hnone]

end

end Sys2Proof.Machine

namespace Sys2Proof
open Machine

/-- Settles O32: the join notices of a pair that opens leave its collective as it is but for the counts told, and a join notice is one of
the notices of R223. -/
theorem collectivesJoin : Obligations.CollectivesJoin := by
  unfold Obligations.CollectivesJoin
  refine ⟨fun b g q s e rest m f ga gb gc k hc hq hop hk => congrArg Host.Outcome.next (opCollectiveJoin_press hc hq hop hk),
    fun b g q s e rest c f ga gb gc k hc hpq hq hop hk => congrArg Host.Outcome.next (opCollectiveJoin_vector hc hpq hq hop hk),
    fun b s e rest f ga gb gc k hc hpq hq hop hk3 hroot hclock hturn hroom => ?_,
    fun b s t k ga gb gc fmt hc hcheck hbays he hfab => ?_, fun b g q r d s hc he hs => ?_, fun b g q r s c hc hj => ?_⟩
  · have htook : ((s.updBay b fun y => { y with mainVq := rest, seamLast := false }).bay b)
        = { s.bay b with mainVq := rest, seamLast := false } := State.bay_updBay_self ..
    have hsplice := vecSplice_receives (s := s.updBay b fun y => { y with mainVq := rest, seamLast := false }) (b := b) (k := k) (ga := ga)
      (gb := gb) (gc := gc) (e := e) (f := f) (by rw [htook]; exact hc) (by rw [htook]; exact hroom) hk3 hroot
    exact congrArg Host.Outcome.next ((opCollectiveJoin_vector hc hpq hq hop k.names_own).trans
      (opVectorStart_splice hclock hturn hq hop hsplice))
  · obtain ⟨u, hu, hjoined, hopen⟩ := openColl_joined hc hcheck hbays he hfab
    obtain ⟨-, ⟨l, hl⟩, hkeys⟩ := sendJoins_opened hjoined (u.joinTo (s.newColl k ga gb gc fmt))
    rw [← hopen] at hl hkeys
    refine ⟨_, hl, rfl, rfl, fun hexp => ?_⟩
    obtain ⟨hparent, hchildren⟩ := newColl_neighbours s ga gb gc fmt hexp
    have hcoord (r : Nat) : u.memberCoord k.group r = s.memberCoord k.group r := by
      simp only [State.memberCoord, State.members, hu]
    rw [joinTo_tree (c := s.newColl k ga gb gc fmt) hexp, hparent, hchildren, hu] at hkeys
    simp only [hcoord] at hkeys
    exact ⟨hparent, hchildren, hkeys⟩
  · exact ⟨_, rfl, notice_unopened_kept (s := s.takeNote 9 b.toNat .join [g.toNat, q.toNat, r.toNat, d.toNat]) hs hc he⟩
  · refine congrArg (fun u : State => Host.Outcome.next u.settled)
      ((notice_joined (s := s.takeNote 9 b.toNat .join [g.toNat, q.toNat, r.toNat, (s.digestOf c.blk).toNat]) hc hj).trans ?_)
    exact congrArg (fun u : State => u.answer cDONE) (if_neg fun hne => hne rfl)

end Sys2Proof

end

section

/-! ### Corrected units, scrubbing and self-refresh (R250, R252, R253, R509) -/

set_option Elab.async false

namespace Sys2Proof.Machine

section
variable {s : State} {a : BitVec 48} {u pc : Nat} {errs : SymErrs}

/-- Where no failure waits beyond the sixteenth fold, no device is lost (R258). -/
theorem beyondFolds_of_none (h : s.getF Fld.HBM_CAP_FOLDS = 16 → s.hbm.waiting = []) : s.beyondFolds = s :=
  if_neg fun x => x.2 (h x.1)

/-- A unit that no line covers is written back as it was corrected. -/
theorem opEccWriteback_uncovered {e : Nat × List Byte} (he : s.hbm.writeback.find? (fun e => e.1 == a.toNat / 32) = some e)
    (hl : s.hbm.line (a.toNat / 32 / 8) = none) : opEccWriteback a s = s.unitStore (a.toNat / 32) e.2 := by
  unfold opEccWriteback
  simp only [he, hl]

/-- The bytes of a unit stored, and every other byte. -/
theorem unitStore_mem {bs : List Byte} (h : bs.length = 32) : (∀ k, k < 32 → (s.unitStore u bs).memByte (u * 32 + k) = bs.getD k 0)
    ∧ Safety.keepsMem s (s.unitStore u bs) (u * 32) 32 := by
  have hbyte (x : Nat) : (s.unitStore u bs).memByte x = (s.setMemBytes (u * 32) bs).memByte x := rfl
  constructor
  · intro k hk
    have hin : u * 32 ≤ u * 32 + k ∧ u * 32 + k - u * 32 < bs.length := by omega
    rw [hbyte, State.memByte_setMemBytes, dif_pos hin, List.getD_eq_getElem _ _ (by omega)]
    congr 1
    omega
  · intro x hx
    rw [hbyte, State.memByte_setMemBytes, dif_neg (by omega)]

theorem unitStore_keeps (s : State) (u : Nat) (bs : List Byte) :
    (s.unitStore u bs).hbm.writeback = s.hbm.writeback.filter (fun e => e.1 != u) ∧ (s.unitStore u bs).regs = s.regs
    ∧ (s.unitStore u bs).bays = s.bays := by
  unfold State.unitStore
  rw [State.setMemBytes_mem_only]
  exact ⟨rfl, rfl, rfl⟩

/-- A unit that is readable, read without an error. -/
theorem unitRead_readable (hpc : s.trainOf (s.placeOf (u * 32)).1 ≠ .dead) (hbad : u ∉ s.hbmBad) (src : Nat) :
    s.unitRead src u [] = (s, some (s.memBytes (u * 32) 32)) := by
  simp [State.unitRead, hpc, hbad]

/-- A unit whose errors the decoder corrects: it is counted, and waits for its write-back (R250). -/
theorem unitRead_corrected (hpc : s.trainOf (s.placeOf (u * 32)).1 ≠ .dead) (hbad : u ∉ s.hbmBad) {c : Nat × Byte} (hne : errs ≠ [])
    (hc : rsDecode errs = some (some c)) (src : Nat) : (s.unitRead src u errs).1 = s.corrected (s.placeOf (u * 32)).1 u
      ((List.range 32).map fun k => s.memByte (u * 32 + k) ^^^ residualByte errs (some c) k) := by
  simp [State.unitRead, hpc, hbad, hne, hc]

/-- The patrol reads a unit of a live band out of HOLD. -/
theorem opPatrolScrub_patrol (hu : u = a.toNat / 32) (hr : regionOf (u * 32) = .hbm) (hl : s.bandLive (bandOf (u * 32)) = true)
    (hst : s.devState ≠ stHOLD) (hret : s.hbm.retrains = []) (hopen : s.hbm.open_ = []) (hscrub : s.hbm.scrub = none)
    (hint : s.getF Fld.HBM_SCRUB_INTERVAL ≠ 0) : opPatrolScrub a errs s = (s.unitRead 5 u errs).1.beyondFolds := by
  subst hu
  simp [opPatrolScrub, State.rangeHeld, State.settleUnit, hr, hl, hst, hret, hopen, hscrub, hint]

/-- The registers that a corrected unit of a pseudo-channel is counted in, and the step's status. -/
def correctedRegs (pc : Nat) : List Nat := [RegId.HBM_ECC.addr, RegId.HBM_STACK.addr (pc % 8), RegId.LDG_STEP_STATUS.addr]

theorem stack_ne_step (k : Nat) (hk : k < 8) : RegId.HBM_STACK.addr k ≠ RegId.LDG_STEP_STATUS.addr :=
  RegId.addr_ne .HBM_STACK .LDG_STEP_STATUS hk Nat.one_pos Nat.one_pos Nat.one_pos (by decide)

theorem stack_ne_ecc (k : Nat) (hk : k < 8) : RegId.HBM_STACK.addr k ≠ RegId.HBM_ECC.addr :=
  RegId.addr_ne .HBM_STACK .HBM_ECC hk Nat.one_pos Nat.one_pos Nat.one_pos (by decide)

theorem corrected_confined (s : State) (pc u : Nat) (bs : List Byte) : Confined (· ∈ correctedRegs pc) s (s.corrected pc u bs) := by
  have hecc : RegId.HBM_ECC.addr ∈ correctedRegs pc := List.mem_cons_self ..
  have hstack : RegId.HBM_STACK.addr (pc % 8) ∈ correctedRegs pc := List.mem_cons_of_mem _ (List.mem_cons_self ..)
  have hstep : RegId.LDG_STEP_STATUS.addr ∈ correctedRegs pc := by simp [correctedRegs]
  exact (((Confined.refl.incF 1 hecc).incF 1 hstack).tickEvent 1 hstep).frame

/-- A counter field gains one. -/
theorem getF_incF_self (s : State) (f : Field) (h : f.lo + f.width ≤ 64) : (s.incF f).getF f = (s.getF f + 1) % 2 ^ f.width :=
  State.getF_setF_self s f _ h

/-- A tick event breaks the open step's tick-repeat (R384). -/
theorem tickEvent_clean (s : State) : s.tickEvent.getF Fld.LDG_STEP_STATUS_TICK_CLEAN = 0 := by
  unfold State.tickEvent State.incF
  rw [if_neg Nat.one_ne_zero, State.getF_setF_disjoint _ Fld.LDG_STEP_STATUS_TICK_EVENTS Fld.LDG_STEP_STATUS_TICK_CLEAN _ rfl
    (.inl (by decide)), State.getF_setF_self _ _ _ (by decide)]
  exact Nat.zero_mod _

/-- A corrected unit of a pseudo-channel counted. -/
def State.countCorrected (s : State) (pc : Nat) : State :=
  ((s.incF Fld.HBM_ECC_CORR_CNT).incF (Fld.HBM_STACK_CORR_CNT (pc % 8))).tickEvent

theorem corrected_regs (s : State) (pc u : Nat) (bs : List Byte) : (s.corrected pc u bs).regs = (s.countCorrected pc).regs := rfl

theorem corrected_waiting (s : State) (pc u : Nat) (bs : List Byte) : (s.corrected pc u bs).hbm.waiting = s.hbm.waiting := by
  have hhbm : (s.countCorrected pc).hbm = s.hbm := State.tickEvent_hbm ..
  change (s.countCorrected pc).hbm.waiting = _
  rw [hhbm]

/-- What a corrected unit is counted in. -/
theorem corrected_counts (s : State) (pc u : Nat) (bs : List Byte) :
    (s.corrected pc u bs).getF Fld.HBM_ECC_CORR_CNT = (s.getF Fld.HBM_ECC_CORR_CNT + 1) % 2 ^ 32
    ∧ (s.corrected pc u bs).getF (Fld.HBM_STACK_CORR_CNT (pc % 8)) = (s.getF (Fld.HBM_STACK_CORR_CNT (pc % 8)) + 1) % 2 ^ 32
    ∧ (s.corrected pc u bs).getF Fld.LDG_STEP_STATUS_TICK_CLEAN = 0 := by
  have hk : pc % 8 < 8 := Nat.mod_lt _ (by decide)
  have hecc : Fld.HBM_ECC_CORR_CNT.reg ≠ (Fld.HBM_STACK_CORR_CNT (pc % 8)).reg := (stack_ne_ecc _ hk).symm
  simp only [getF_of_regs (corrected_regs s pc u bs)]
  unfold State.countCorrected
  refine ⟨?_, ?_, tickEvent_clean _⟩
  · rw [getF_tickEvent_ne _ _ (by decide), State.incF, State.getF_setF_reg _ _ _ _ hecc, getF_incF_self _ _ (by decide)]
    rfl
  · rw [getF_tickEvent_ne _ _ (stack_ne_step _ hk), getF_incF_self _ _ (by decide : 32 + 32 ≤ 64), State.incF,
      State.getF_setF_reg _ _ _ _ hecc.symm]
    rfl

end

end Sys2Proof.Machine

namespace Sys2Proof
open Machine

/-- Settles O42, command by command: the write-back is the unit's store, the patrol's read is `State.unitRead`. -/
theorem scrubWritebackAndRefresh : Obligations.ScrubWritebackAndRefresh := by
  unfold Obligations.ScrubWritebackAndRefresh
  refine ⟨fun a e s he hl hlen => ?_, fun a errs s u pc hu hpc hr hl hst hret hopen hscrub hint htrain hbad hs => ?_,
    fun k s hst hk => ?_, fun pc bank s => rfl⟩
  · obtain ⟨hbytes, hkept⟩ := unitStore_mem (s := s) (u := a.toNat / 32) hlen
    exact ⟨_, congrArg Host.Outcome.next (opEccWriteback_uncovered he hl), hbytes, hkept, unitStore_keeps ..⟩
  · subst hpc
    obtain ⟨-, -, hfolds⟩ := hs
    have hread (errs : SymErrs) : exec (.patrolScrub a errs) s = .next (s.unitRead 5 u errs).1.beyondFolds :=
      congrArg Host.Outcome.next (opPatrolScrub_patrol hu hr hl hst hret hopen hscrub hint)
    constructor
    · rw [hread, unitRead_readable htrain hbad, beyondFolds_of_none hfolds]
    · intro c hne hc
      have hrun := hread errs
      rw [unitRead_corrected htrain hbad hne hc] at hrun
      generalize hbs : (List.range 32).map (fun k => s.memByte (u * 32 + k) ^^^ residualByte errs (some c) k) = bs at hrun ⊢
      have hkept := corrected_confined s (s.placeOf (u * 32)).1 u bs
      obtain ⟨hdev, hstack, hclean⟩ := corrected_counts s (s.placeOf (u * 32)).1 u bs
      have hcap : RegId.HBM_CAP.addr ∉ correctedRegs (s.placeOf (u * 32)).1 := by
        have hk : (s.placeOf (u * 32)).1 % 8 < 8 := Nat.mod_lt _ (by decide)
        simp only [correctedRegs, List.mem_cons, List.not_mem_nil, or_false, not_or]
        exact ⟨by decide, RegId.addr_ne .HBM_CAP .HBM_STACK Nat.one_pos Nat.one_pos hk Nat.one_pos (by decide), by decide⟩
      rw [beyondFolds_of_none fun h => (corrected_waiting ..).trans (hfolds ((hkept.getF Fld.HBM_CAP_FOLDS hcap).symm.trans h))] at hrun
      exact ⟨_, hrun, hdev, hstack, hclean, rfl, hkept.mem, hkept.bays⟩
  · exact congrArg Host.Outcome.next (if_pos ⟨hst, by simp [hk]⟩)

end Sys2Proof
end

section

/-! ### Changes of segments and bands (R265, R268, R271, R272) -/

set_option Elab.async false

namespace Sys2Proof.Machine

/-! #### Cache lines written back, dropped and placed again -/

/-- The registers that count and record the errors found in cache lines (R270). -/
def cacheRegs : List Nat := [RegId.LLS_ECC.addr, RegId.HBM_ECC.addr, RegId.HBM_UE_LOG.addr, RegId.LDG_STEP_STATUS.addr]

/-- What the upkeep of cache lines keeps: all but those registers of what `Confined` names, and which bands have open contents. -/
structure CacheKeeps (s t : State) : Prop extends Confined (· ∈ cacheRegs) s t where
  opened : t.hbm.open_ = s.hbm.open_

section
variable {r s t : State} {α : Type}

theorem not_mem_cacheRegs {q : RegId} {i j : Nat} (hi : i < q.spec.n1) (hj : j < q.spec.n2)
    (hq : q ∉ [.LLS_ECC, .HBM_ECC, .HBM_UE_LOG, .LDG_STEP_STATUS]) : q.addr i j ∉ cacheRegs := by
  simp only [List.mem_cons, List.not_mem_nil, or_false, not_or] at hq
  obtain ⟨h₁, h₂, h₃, h₄⟩ := hq
  simp only [cacheRegs, List.mem_cons, List.not_mem_nil, or_false, not_or]
  exact ⟨q.addr_ne .LLS_ECC hi hj Nat.one_pos Nat.one_pos h₁, q.addr_ne .HBM_ECC hi hj Nat.one_pos Nat.one_pos h₂,
    q.addr_ne .HBM_UE_LOG hi hj Nat.one_pos Nat.one_pos h₃, q.addr_ne .LDG_STEP_STATUS hi hj Nat.one_pos Nat.one_pos h₄⟩

theorem llsEcc_mem_cacheRegs : RegId.LLS_ECC.addr ∈ cacheRegs := by simp [cacheRegs]
theorem hbmEcc_mem_cacheRegs : RegId.HBM_ECC.addr ∈ cacheRegs := by simp [cacheRegs]
theorem ueLog_mem_cacheRegs : RegId.HBM_UE_LOG.addr ∈ cacheRegs := by simp [cacheRegs]
theorem step_mem_cacheRegs : RegId.LDG_STEP_STATUS.addr ∈ cacheRegs := by simp [cacheRegs]

theorem Confined.bitsEvent {P : Nat → Prop} (h : Confined P r s) (c : Code) (hP : P RegId.LDG_STEP_STATUS.addr) :
    Confined P r (s.bitsEvent c) := .ite ((h.setF 0 hP).setF _ hP) (h.setF 0 hP)

theorem CacheKeeps.refl : CacheKeeps s s := ⟨.refl, rfl⟩

theorem CacheKeeps.trans (h : CacheKeeps r s) (h' : CacheKeeps s t) : CacheKeeps r t :=
  ⟨h.toConfined.trans h'.toConfined, h'.opened.trans h.opened⟩

theorem CacheKeeps.foldl {f : State → α → State} (hf : ∀ s x, CacheKeeps s (f s x)) (l : List α) : CacheKeeps s (l.foldl f s) := by
  induction l generalizing s with
  | nil => exact .refl
  | cons x l ih => exact (hf s x).trans ih

theorem CacheKeeps.foldr {f : α → State → State} (hf : ∀ x s, CacheKeeps s (f x s)) (l : List α) : CacheKeeps s (l.foldr f s) := by
  induction l with
  | nil => exact .refl
  | cons x l ih => exact ih.trans (hf x _)

theorem llsFix_keeps (s : State) (p : Nat → Bool) : CacheKeeps s (s.llsFix p) := by
  unfold State.llsFix
  dsimp only
  split
  · exact .refl
  · exact ⟨(Confined.incF (s := { s with ecc1 := _ }) (Confined.frame .refl) _ llsEcc_mem_cacheRegs).tickEvent _ step_mem_cacheRegs,
      congrArg Hbm.open_ (State.tickEvent_hbm ..)⟩

theorem ueLog_keeps (s : State) (src pc a : Nat) : CacheKeeps s (s.ueLog src pc a) := by
  unfold State.ueLog
  extract_lets s₁ s₂
  have h₁ : Confined (· ∈ cacheRegs) s s₁ := Confined.refl.incF 1 hbmEcc_mem_cacheRegs
  have h₂ : Confined (· ∈ cacheRegs) s s₂ := .ite h₁ (h₁.setFs fun x hx => by
    simp only [List.mem_cons, List.not_mem_nil, or_false] at hx
    obtain rfl | rfl | rfl | rfl := hx <;> exact ueLog_mem_cacheRegs)
  have ho : s₂.hbm = s.hbm := by
    simp only [s₂]
    split
    · rfl
    · exact State.setFs_hbm ..
  split
  · exact ⟨h₂, congrArg Hbm.open_ ho⟩
  · exact ⟨h₂.bitsEvent _ step_mem_cacheRegs, congrArg Hbm.open_ ((State.bitsEvent_hbm ..).trans ho)⟩

theorem dropLine_keeps (s : State) (g : Nat) : CacheKeeps s (s.dropLine g) := ⟨⟨rfl, rfl, rfl, fun _ _ => rfl⟩, rfl⟩

/-- A line's write-back finds its bytes in memory already: it changes which of them are in error. -/
theorem writeBackLine_keeps (s : State) (g : Nat) : CacheKeeps s (s.writeBackLine g) := by
  unfold State.writeBackLine
  extract_lets s₁ pc s₂
  have h₁ : CacheKeeps s s₁ := llsFix_keeps s _
  have h₂ : CacheKeeps s₁ s₂ := by
    simp only [s₂]
    split
    · exact CacheKeeps.trans ⟨Confined.refl.incF _ llsEcc_mem_cacheRegs, rfl⟩ (ueLog_keeps ..)
    · exact .refl
  have h := h₁.trans h₂
  exact ⟨h.toConfined.frame, h.opened⟩

theorem evict_keeps (s : State) (l : LlsLine) : CacheKeeps s (s.evict l) := by
  unfold State.evict
  split
  · exact (writeBackLine_keeps s _).trans (dropLine_keeps ..)
  · exact dropLine_keeps ..

theorem placeLine_keeps (s : State) (l : LlsLine) : CacheKeeps s (s.placeLine l) := by
  unfold State.placeLine
  extract_lets h l' inSet s₁ d
  have h₁ : CacheKeeps s s₁ := ⟨Confined.refl.frame, rfl⟩
  have hd : CacheKeeps s₁ d.1 := ⟨Confined.refl.frame, rfl⟩
  split
  · exact h₁
  · split
    · exact (h₁.trans hd).trans (dropLine_keeps ..)
    · exact h₁.trans hd

theorem replaceSill_keeps (s : State) (sill : Nat) : CacheKeeps s (s.replaceSill sill) := by
  unfold State.replaceSill
  dsimp only
  split
  · exact .foldl (fun s _ => dropLine_keeps s _) _
  · have h : CacheKeeps s (s.updHbm fun h => { h with lines := h.lines.filter fun l => l.sill != sill }) := ⟨Confined.refl.frame, rfl⟩
    exact h.trans (.foldr (fun l s => placeLine_keeps s l) _)

end

/-! #### Registers after their writes -/

section
variable {s : State} {p : RegPath} {r : RegId} {i j : Nat} {v : Word}

theorem guarded_refused {code : Code} {act : State → State × Code} (h : s.regChanges r i j v = true) :
    s.guarded r i j v false code act = (s, code) := if_neg (by simp [h])

/-- A write that reaches its register and that the register refuses without effect answers the code. -/
theorem write64_refused {code : Code} (hp : p ≠ .bar0) (h : Safety.reaches s p r i j v) (hi : i < r.spec.n1) (hj : j < r.spec.n2)
    (hw : writeBy r i j v s = (s, code)) : s.write64 p r i j v = { s with lastCode := code } := by
  rw [State.write64_of_reaches h hi hj, if_neg fun x => hp x.1, hw]

/-! #### Segments -/

/-- A segment about to change, its sill's lines written back and, where it becomes a scratchpad, its own lines dropped. -/
def State.segCleared (s : State) (j mode : Nat) : State :=
  let place := ((List.range (j % 16)).filter fun k => s.getF (Fld.LLS_SEG_MODE (j / 16 * 16 + k)) == 0).length
  if mode = 1 then
    ((s.writeBackSill (j / 16)).hbm.lines.filter fun l => l.sill == j / 16 && l.slot == place).foldl (fun s l => s.dropLine l.gran)
      (s.writeBackSill (j / 16))
  else s.writeBackSill (j / 16)

theorem segCleared_keeps (s : State) (j mode : Nat) : CacheKeeps s (s.segCleared j mode) := by
  have hback : CacheKeeps s (s.writeBackSill (j / 16)) := .foldl (fun s _ => writeBackLine_keeps s _) _
  unfold State.segCleared
  dsimp only
  split
  · exact hback.trans (.foldl (fun s _ => dropLine_keeps s _) _)
  · exact hback

theorem changeSeg_eq (s : State) (j mode : Nat) : s.changeSeg j mode = (((s.segCleared j mode).setFs
    [(Fld.LLS_SEG_MODE j, mode), (Fld.LLS_SEG_BUSY j, 1)]).replaceSill (j / 16)).clearSeg j := rfl

/-- A byte of the map once a segment's window is cleared. -/
theorem memByte_clearSeg (h : memWf s.mem = true) (j x : Nat) : (s.clearSeg j).memByte x
    = if llsBase + j * 0x800000 ≤ x ∧ x < llsBase + (j + 1) * 0x800000 then memDefault x else s.memByte x := by
  refine (smapGet_filter memDefault s.mem
    (fun x => decide (x < llsBase + j * 0x800000) || decide (llsBase + j * 0x800000 + 0x800000 ≤ x)) x h).trans ?_
  by_cases hx : llsBase + j * 0x800000 ≤ x ∧ x < llsBase + (j + 1) * 0x800000
  · rw [if_pos hx, if_neg (by simp only [Bool.or_eq_true, decide_eq_true_eq]; omega)]
  · rw [if_neg hx, if_pos (by simp only [Bool.or_eq_true, decide_eq_true_eq]; omega)]
    rfl

/-- A change of a segment shows the new mode with BUSY, and clears the segment's window alone. -/
theorem changeSeg_shows (hj : j < 64) {mode : Nat} (hm : mode < 2) (h : memWf s.mem = true) :
    (s.changeSeg j mode).getF (Fld.LLS_SEG_MODE j) = mode ∧ (s.changeSeg j mode).getF (Fld.LLS_SEG_BUSY j) = 1
    ∧ (∀ x, (s.changeSeg j mode).memByte x
        = if llsBase + j * 0x800000 ≤ x ∧ x < llsBase + (j + 1) * 0x800000 then memDefault x else s.memByte x)
    ∧ (s.changeSeg j mode).bays = s.bays := by
  rw [changeSeg_eq]
  have hcleared := (segCleared_keeps s j mode).toConfined
  generalize s.segCleared j mode = u at hcleared ⊢
  have hplaced := (replaceSill_keeps (u.setFs [(Fld.LLS_SEG_MODE j, mode), (Fld.LLS_SEG_BUSY j, 1)]) (j / 16)).toConfined
  have hseg : RegId.LLS_SEG.addr j ∉ cacheRegs := not_mem_cacheRegs hj Nat.one_pos (by decide)
  generalize State.replaceSill _ (j / 16) = w at hplaced ⊢
  have hmem : w.mem = s.mem := hplaced.mem.trans hcleared.mem
  refine ⟨(hplaced.getF _ hseg).trans ?_, (hplaced.getF _ hseg).trans ?_, fun x => ?_, hplaced.bays.trans hcleared.bays⟩
  · simp (disch := decide) [setFs_cons, setFs_nil, Fld.LLS_SEG_MODE, Fld.LLS_SEG_BUSY, getF_setF_same, getF_setF_beside, hm]
  · simp (disch := decide) [setFs_cons, setFs_nil, Fld.LLS_SEG_MODE, Fld.LLS_SEG_BUSY, getF_setF_same]
  · rw [memByte_clearSeg (by rw [hmem]; exact h), State.memByte, State.memByte, hmem]

/-- A segment's word in READY while no change of it is taking effect. -/
theorem writeBy_seg (hst : s.devState = stREADY) (hb : s.getF (Fld.LLS_SEG_BUSY j) = 0) : writeBy .LLS_SEG j 0 v s
    = (if fieldOf v 0 1 = s.getF (Fld.LLS_SEG_MODE j) then s else s.changeSeg j (fieldOf v 0 1), cDONE) := by
  have hok : (s.devState == stREADY && s.getF (Fld.LLS_SEG_BUSY j) == 0) = true := by simp [hst, hb]
  change writeSeg j v s = _
  unfold writeSeg
  rw [guarded_of_ok hok]
  rfl

theorem writeBy_seg_refused (hst : s.devState ≠ stREADY) (hc : s.regChanges .LLS_SEG j 0 v = true) :
    writeBy .LLS_SEG j 0 v s = (s, cSTATE_REJECT) := by
  change writeSeg j v s = _
  unfold writeSeg
  rw [show (s.devState == stREADY && s.getF (Fld.LLS_SEG_BUSY j) == 0) = false by simp [hst]]
  exact guarded_refused hc

/-! #### Bands -/

variable {b m c : Nat}

/-- What a change of a band's mode or CACHE bit keeps, beside the band's own register. -/
theorem dropLines_keeps (s : State) (b : Nat) : CacheKeeps s (s.dropLines b) := .foldl (fun s _ => dropLine_keeps s _) _

/-- What a write of a band's register shows, and what it keeps. -/
structure BandShows (s t : State) (b m c busy : Nat) : Prop where
  mode : t.getF (Fld.HBM_BAND_MODE b) = m
  cache : t.getF (Fld.HBM_BAND_CACHE b) = c
  busy : t.getF (Fld.HBM_BAND_BUSY b) = busy
  mem : t.mem = s.mem
  bays : t.bays = s.bays

theorem band_not_mem_cacheRegs (hb : b < 256) : RegId.HBM_BAND.addr b ∉ cacheRegs := not_mem_cacheRegs hb Nat.one_pos (by decide)

/-- A change of mode shows the new mode; the band's contents are open. -/
theorem changeMode_shows (hb : b < 256) (hm : m < 2) :
    BandShows s (s.changeMode b m) b m (s.getF (Fld.HBM_BAND_CACHE b)) (s.getF (Fld.HBM_BAND_BUSY b))
    ∧ ∃ d, (s.changeMode b m).hbm.open_.head? = some (b, d) := by
  have hkept := (dropLines_keeps s b).toConfined
  have hfield (f : Field) (hf : f.reg = RegId.HBM_BAND.addr b) : (s.dropLines b).getF f = s.getF f :=
    hkept.getF f (by rw [hf]; exact band_not_mem_cacheRegs hb)
  refine ⟨⟨?_, ?_, ?_, hkept.mem, hkept.bays⟩, _, rfl⟩
  · exact (getF_setF_same (s := s.dropLines b) (by decide)).trans (Nat.mod_eq_of_lt hm)
  · exact (getF_setF_beside (s := s.dropLines b) (.inl (by decide))).trans (hfield (Fld.HBM_BAND_CACHE b) rfl)
  · exact (getF_setF_beside (s := s.dropLines b) (.inl (by decide))).trans (hfield (Fld.HBM_BAND_BUSY b) rfl)

/-- A change of the CACHE bit shows the new bit. -/
theorem changeCache_shows (hb : b < 256) (hc : c < 2) :
    BandShows s (s.changeCache b c) b (s.getF (Fld.HBM_BAND_MODE b)) c (s.getF (Fld.HBM_BAND_BUSY b))
    ∧ (s.changeCache b c).hbm.open_ = s.hbm.open_ := by
  unfold State.changeCache
  extract_lets u
  have hu : CacheKeeps s u := by
    simp only [u]
    split
    · exact .refl
    · exact .foldl evict_keeps _
  have hfield (f : Field) (hf : f.reg = RegId.HBM_BAND.addr b) : u.getF f = s.getF f :=
    hu.getF f (by rw [hf]; exact band_not_mem_cacheRegs hb)
  refine ⟨⟨?_, ?_, ?_, hu.mem, hu.bays⟩, hu.opened⟩
  · exact (getF_setF_beside (.inr (by decide))).trans (hfield (Fld.HBM_BAND_MODE b) rfl)
  · exact (getF_setF_same (by decide)).trans (Nat.mod_eq_of_lt hc)
  · exact (getF_setF_beside (.inl (by decide))).trans (hfield (Fld.HBM_BAND_BUSY b) rfl)

/-- A band's word taken: its mode, its CACHE bit, and BUSY where one of them is new. -/
def State.bandWritten (s : State) (b m c : Nat) : State :=
  let u := if m ≠ s.getF (Fld.HBM_BAND_MODE b) then s.changeMode b m else s
  let w := if c ≠ s.getF (Fld.HBM_BAND_CACHE b) then u.changeCache b c else u
  if m ≠ s.getF (Fld.HBM_BAND_MODE b) ∨ c ≠ s.getF (Fld.HBM_BAND_CACHE b) then w.setF (Fld.HBM_BAND_BUSY b) 1 else w

/-- A band's word in READY while no change of it is taking effect. -/
theorem writeBy_band (hst : s.devState = stREADY) (hb : s.getF (Fld.HBM_BAND_BUSY b) = 0) :
    writeBy .HBM_BAND b 0 v s = (s.bandWritten b (fieldOf v 0 1) (fieldOf v 1 1), cDONE) := by
  have hok : (s.devState == stREADY && s.getF (Fld.HBM_BAND_BUSY b) == 0) = true := by simp [hst, hb]
  change writeBand b v s = _
  unfold writeBand State.bandWritten
  rw [guarded_of_ok hok]
  simp only [Bool.or_eq_true, decide_eq_true_eq]
  rfl

theorem writeBy_band_refused (hst : s.devState ≠ stREADY) (hc : s.regChanges .HBM_BAND b 0 v = true) :
    writeBy .HBM_BAND b 0 v s = (s, cSTATE_REJECT) := by
  change writeBand b v s = _
  unfold writeBand
  rw [show (s.devState == stREADY && s.getF (Fld.HBM_BAND_BUSY b) == 0) = false by simp [hst]]
  exact guarded_refused hc

theorem BandShows.refl (s : State) (b : Nat) :
    BandShows s s b (s.getF (Fld.HBM_BAND_MODE b)) (s.getF (Fld.HBM_BAND_CACHE b)) (s.getF (Fld.HBM_BAND_BUSY b)) :=
  ⟨rfl, rfl, rfl, rfl, rfl⟩

/-- What a band's word shows once it is taken. -/
theorem bandWritten_shows (hb : b < 256) (hm : m < 2) (hc : c < 2) (hbusy : s.getF (Fld.HBM_BAND_BUSY b) = 0) :
    BandShows s (s.bandWritten b m c) b m c
      (if m ≠ s.getF (Fld.HBM_BAND_MODE b) ∨ c ≠ s.getF (Fld.HBM_BAND_CACHE b) then 1 else 0)
    ∧ (m ≠ s.getF (Fld.HBM_BAND_MODE b) → ∃ d, (s.bandWritten b m c).hbm.open_.head? = some (b, d)) := by
  unfold State.bandWritten
  extract_lets u w
  have hu : BandShows s u b m (s.getF (Fld.HBM_BAND_CACHE b)) 0
      ∧ (m ≠ s.getF (Fld.HBM_BAND_MODE b) → ∃ d, u.hbm.open_.head? = some (b, d)) := by
    simp only [u]
    by_cases h : m = s.getF (Fld.HBM_BAND_MODE b)
    · rw [if_neg (not_not.mpr h)]
      exact ⟨⟨h.symm, rfl, hbusy, rfl, rfl⟩, fun hne => absurd h hne⟩
    · rw [if_pos h]
      obtain ⟨h', hopen⟩ := changeMode_shows (s := s) hb hm
      exact ⟨⟨h'.mode, h'.cache, h'.busy.trans hbusy, h'.mem, h'.bays⟩, fun _ => hopen⟩
  obtain ⟨hu, huopen⟩ := hu
  have hw : BandShows s w b m c 0 ∧ w.hbm.open_ = u.hbm.open_ := by
    simp only [w]
    by_cases h : c = s.getF (Fld.HBM_BAND_CACHE b)
    · rw [if_neg (not_not.mpr h)]
      exact ⟨⟨hu.mode, hu.cache.trans h.symm, hu.busy, hu.mem, hu.bays⟩, rfl⟩
    · rw [if_pos h]
      obtain ⟨h', hopen⟩ := changeCache_shows (s := u) hb hc
      exact ⟨⟨h'.mode.trans hu.mode, h'.cache, h'.busy.trans hu.busy, h'.mem.trans hu.mem, h'.bays.trans hu.bays⟩, hopen⟩
  obtain ⟨hw, hwopen⟩ := hw
  rw [← hwopen] at huopen
  split
  · refine ⟨⟨?_, ?_, getF_setF_same (by decide), hw.mem, hw.bays⟩, huopen⟩
    · exact (getF_setF_beside (.inr (by decide))).trans hw.mode
    · exact (getF_setF_beside (.inr (by decide))).trans hw.cache
  · exact ⟨hw, huopen⟩

end

end Sys2Proof.Machine

namespace Sys2Proof
open Machine

/-- Settles O44: the registers' own rules, `writeSeg` and `writeBand`, give what is shown and what is kept. -/
theorem segmentsAndBandsChange : Obligations.SegmentsAndBandsChange := by
  unfold Obligations.SegmentsAndBandsChange
  refine ⟨fun p j v s h hst hbusy => ⟨fun hm => ?_, fun hm hwf => ?_⟩, fun p b v s h hst hbusy => ?_,
    fun p j b v s hp hst => ⟨fun h hc => ?_, fun h hc => ?_⟩, fun j b s => ⟨rfl, rfl⟩⟩
  · have hw := writeBy_seg (v := v) hst hbusy
    rw [if_pos hm] at hw
    refine congrArg Host.Outcome.next ((State.write64_done h j.isLt Nat.one_pos (by rw [hw])).trans ?_)
    rw [hw]
  · have hw := writeBy_seg (v := v) hst hbusy
    rw [if_neg hm] at hw
    obtain ⟨hmode, hbusy', hbytes, hbays⟩ := changeSeg_shows (s := s) j.isLt (fieldOf_lt v 0 1) hwf
    have hexec := State.write64_done h j.isLt Nat.one_pos (by rw [hw])
    rw [hw] at hexec
    generalize s.changeSeg j.val (fieldOf v 0 1) = t at hexec hmode hbusy' hbytes hbays
    exact ⟨_, congrArg Host.Outcome.next hexec, rfl, hmode, hbusy', hbytes, hbays⟩
  · have hw := writeBy_band (v := v) hst hbusy
    obtain ⟨hshows, hopen⟩ := bandWritten_shows (s := s) b.isLt (fieldOf_lt v 0 1) (fieldOf_lt v 1 1) hbusy
    have hexec := State.write64_done h b.isLt Nat.one_pos (by rw [hw])
    rw [hw] at hexec
    generalize s.bandWritten b.val (fieldOf v 0 1) (fieldOf v 1 1) = t at hexec hshows hopen
    exact ⟨_, congrArg Host.Outcome.next hexec, rfl, hshows.mode, hshows.cache, hshows.busy, hopen, hshows.mem, hshows.bays⟩
  · exact congrArg Host.Outcome.next (write64_refused hp h j.isLt Nat.one_pos (writeBy_seg_refused hst hc))
  · exact congrArg Host.Outcome.next (write64_refused hp h b.isLt Nat.one_pos (writeBy_band_refused hst hc))

end Sys2Proof
end

section

/-! ### What the bookkeeping of host commands and of the Ledger keeps (R260, R418, R452, R471) -/

set_option Elab.async false

namespace Sys2Proof.Machine

/-- What the end of a host command or of the Ledger's own work keeps: memory, the bays, HBM, what ended or was lost in the fabric, and
every register whose address is not in `P`. -/
structure LedgerKeeps (P : Nat → Prop) (s t : State) : Prop where
  mem : t.mem = s.mem
  bays : t.bays = s.bays
  hbm : t.hbm = s.hbm
  ended : t.fab.ended = s.fab.ended
  lost : t.fab.lost = s.fab.lost
  reg : ∀ a, ¬ P a → t.reg a = s.reg a

section
variable {P Q : Nat → Prop} {r s t : State} {α : Type}

theorem LedgerKeeps.refl : LedgerKeeps P s s := ⟨rfl, rfl, rfl, rfl, rfl, fun _ _ => rfl⟩

theorem LedgerKeeps.mono (h : LedgerKeeps P s t) (hPQ : ∀ a, P a → Q a) : LedgerKeeps Q s t :=
  { h with reg := fun a ha => h.reg a fun hP => ha (hPQ a hP) }

theorem LedgerKeeps.trans (h : LedgerKeeps P r s) (h' : LedgerKeeps P s t) : LedgerKeeps P r t :=
  ⟨h'.mem.trans h.mem, h'.bays.trans h.bays, h'.hbm.trans h.hbm, h'.ended.trans h.ended, h'.lost.trans h.lost,
    fun a ha => (h'.reg a ha).trans (h.reg a ha)⟩

theorem LedgerKeeps.getF (h : LedgerKeeps P s t) (f : Field) (hf : ¬ P f.reg) : t.getF f = s.getF f :=
  congrArg (fieldOf · _ _) (h.reg f.reg hf)

/-- An update of parts of the state beside those. -/
theorem LedgerKeeps.frame {pending ecc1 ecc2 hbmBad flits opt scr host ldg tpc power store fwWrite mgmt meas fresh lastCode lastData}
    (h : LedgerKeeps P r s) : LedgerKeeps P r ⟨pending, s.regs, s.bays, s.mem, ecc1, ecc2, hbmBad, flits, s.hbm, s.fab, opt, scr, host, ldg,
      tpc, power, store, fwWrite, mgmt, meas, fresh, lastCode, lastData⟩ := ⟨h.mem, h.bays, h.hbm, h.ended, h.lost, h.reg⟩

theorem LedgerKeeps.setReg (h : LedgerKeeps P r s) {a : Nat} (v : Word) (ha : P a) : LedgerKeeps P r (s.setReg a v) :=
  { h with reg := fun b hb => (State.reg_setReg_ne _ _ _ _ fun e => hb (by rwa [e])).trans (h.reg b hb) }

theorem LedgerKeeps.setF (h : LedgerKeeps P r s) {f : Field} (v : Nat) (hf : P f.reg) : LedgerKeeps P r (s.setF f v) := h.setReg _ hf

theorem LedgerKeeps.foldl {f : State → α → State} {l : List α} (h : LedgerKeeps P r s)
    (hf : ∀ s x, x ∈ l → LedgerKeeps P r s → LedgerKeeps P r (f s x)) : LedgerKeeps P r (l.foldl f s) := by
  induction l generalizing s with
  | nil => exact h
  | cons x l ih => exact ih (hf s x (List.mem_cons_self ..) h) fun t y hy => hf t y (List.mem_cons_of_mem x hy)

theorem LedgerKeeps.setFs (h : LedgerKeeps P r s) {l : List (Field × Nat)} (hl : ∀ x ∈ l, P x.1.reg) : LedgerKeeps P r (s.setFs l) :=
  h.foldl fun _ x hx h' => h'.setF x.2 (hl x hx)

theorem LedgerKeeps.ite {c : Prop} [Decidable c] (hs : LedgerKeeps P r s) (ht : LedgerKeeps P r t) :
    LedgerKeeps P r (if c then s else t) := by
  split <;> assumption

theorem LedgerKeeps.elim {o : Option α} {f : α → State} (h : LedgerKeeps P r s) (hf : ∀ x, LedgerKeeps P r (f x)) :
    LedgerKeeps P r (o.elim s f) := by
  cases o with
  | none => exact h
  | some x => exact hf x

theorem LedgerKeeps.ringOff (h : LedgerKeeps P r s) (q : Nat) (hP : q < 16 → P (RegId.MSC_SQ_CFG.addr q)) :
    LedgerKeeps P r (s.ringOff q) := by
  unfold State.ringOff
  split
  · next hq => exact h.setF 0 (hP hq.1)
  · exact h

theorem LedgerKeeps.post (h : LedgerKeeps P r s) (x : Record) : LedgerKeeps P r (s.post x) := .ite h h.frame

/-- The end of a command changes the state of its submission ring among the registers (R471). -/
theorem LedgerKeeps.finishCmd (h : LedgerKeeps P r s) (k : Nat) (code : Code) (detail : Nat) (result : Word)
    (hP : ∀ c, s.cmd k = some c → c.sq < 16 → P (RegId.MSC_SQ_CFG.addr c.sq)) : LedgerKeeps P r (s.finishCmd k code detail result) := by
  unfold State.finishCmd
  split
  · exact h
  · next c hc => exact .ringOff (.ite h.frame (.post h.frame _)) _ (hP c hc)

theorem LedgerKeeps.finishLong (h : LedgerKeeps P r s) (k : Nat) (code : Code) (detail : Nat)
    (hP : ∀ c, s.cmd k = some c → c.sq < 16 → P (RegId.MSC_SQ_CFG.addr c.sq)) : LedgerKeeps P r (s.finishLong k code detail) :=
  h.finishCmd k code detail _ hP

theorem LedgerKeeps.withdrawLedger (h : LedgerKeeps P r s) (u : LedgerUse) : LedgerKeeps P r (s.withdrawLedger u) :=
  ⟨h.mem, h.bays, h.hbm, h.ended, h.lost, h.reg⟩

/-- The end of a hem changes its progress register, and that of its command the ring's. -/
theorem LedgerKeeps.hemEnd (h : LedgerKeeps P r s) (j : HemJob) (code : Code) (hprog : P RegId.LDG_HEM_PROG.addr)
    (hP : ∀ k c, j.cmd = some k → s.cmd k = some c → c.sq < 16 → P (RegId.MSC_SQ_CFG.addr c.sq)) : LedgerKeeps P r (s.hemEnd j code) := by
  unfold State.hemEnd
  extract_lets u
  have hu : LedgerKeeps P r u := LedgerKeeps.setFs (LedgerKeeps.frame (h.withdrawLedger .hem))
    (List.forall_mem_cons.mpr ⟨hprog, List.forall_mem_singleton.mpr hprog⟩)
  cases hk : j.cmd with
  | none => exact hu
  | some k => exact hu.finishLong k code 0 fun c hc => hP k c hk hc

/-- What ended or was lost in the fabric is unchanged, so with nothing handed over nothing is. -/
theorem settled_of_none (hended : s.fab.ended = []) (hlost : s.fab.lost = []) : s.settled = s := by
  unfold State.settled State.settleEnded State.loseNeighbours
  simp [hended, hlost]

theorem LedgerKeeps.handedOver (h : LedgerKeeps P s t) (hP : ¬ P RegId.HBM_CAP.addr) (hs : Safety.handedOver s) : Safety.handedOver t := by
  obtain ⟨hended, hlost, hfolds⟩ := hs
  exact ⟨h.ended.trans hended, h.lost.trans hlost, fun e => h.hbm ▸ hfolds ((h.getF Fld.HBM_CAP_FOLDS hP).symm.trans e)⟩

end

end Sys2Proof.Machine
end

section

/-! ### Retraining and channel fold (R255 to R262, R274, R275) -/

set_option Elab.async false

namespace Sys2Proof.Machine

/-! #### Retraining (R255, R256) -/

section
variable {s t : State} {pc : Nat} {cause : RetrainCause} {r : Retrain} {P : Nat → Prop}

/-- A retraining recorded at full rate, and counted. -/
def State.retrainStarted (s : State) (pc : Nat) (cause : RetrainCause) : State :=
  ((s.updHbm fun h => { h with
    retrains := h.retrains ++ [⟨pc, cause, 0, .full⟩], fixed := h.fixed.filter fun e => e.1 != pc }).incF
      (Fld.HBM_STACK_RETRAIN_CNT (pc % 8))).tickEvent

/-- A retraining starts where its cause holds and its stack retrains no other pseudo-channel. -/
theorem opRetrainStart_due {pc : BitVec 8} (hmust : s.mustRetrain pc.toNat cause = true)
    (htrain : s.trainOf pc.toNat ≠ .dead ∨ cause = .host)
    (hfree : ∀ r ∈ s.hbm.retrains, r.pc % 8 ≠ pc.toNat % 8) : opRetrainStart pc cause s = s.retrainStarted pc.toNat cause := by
  have hnone : (s.hbm.retrains.any fun r => r.pc % 8 == pc.toNat % 8) = false := by
    rw [List.any_eq_false]
    exact fun r hr => by simpa using hfree r hr
  have hmay : (s.trainOf pc.toNat == .dead && cause != .host) = false := by
    rcases htrain with h | h <;> simp [h]
  unfold opRetrainStart State.startRetrain
  rw [if_pos hmust, if_neg (by rw [hnone, hmay]; decide)]
  rfl

theorem retrainStarted_shows (s : State) (pc : Nat) (cause : RetrainCause) :
    (s.retrainStarted pc cause).hbm = { s.hbm with
        retrains := s.hbm.retrains ++ [⟨pc, cause, 0, .full⟩], fixed := s.hbm.fixed.filter fun e => e.1 != pc }
    ∧ (s.retrainStarted pc cause).getF (Fld.HBM_STACK_RETRAIN_CNT (pc % 8)) = (s.getF (Fld.HBM_STACK_RETRAIN_CNT (pc % 8)) + 1) % 2 ^ 16
    ∧ Confined (· ∈ [RegId.HBM_STACK.addr (pc % 8), RegId.LDG_STEP_STATUS.addr]) s (s.retrainStarted pc cause) := by
  have hk : pc % 8 < 8 := Nat.mod_lt _ (by decide)
  unfold State.retrainStarted
  refine ⟨State.tickEvent_hbm .., ?_, ?_⟩
  · rw [getF_tickEvent_ne _ _ (stack_ne_step _ hk), getF_incF_self _ _ (by decide : 16 + 16 ≤ 64)]
    rfl
  · have hstart : Confined (· ∈ [RegId.HBM_STACK.addr (pc % 8), RegId.LDG_STEP_STATUS.addr]) s (s.updHbm fun h => { h with
        retrains := h.retrains ++ [⟨pc, cause, 0, .full⟩], fixed := h.fixed.filter fun e => e.1 != pc }) := Confined.refl.frame
    exact (hstart.incF 1 (List.mem_cons_self ..)).tickEvent 1 (List.mem_cons_of_mem _ (List.mem_cons_self ..))

/-- What the failure of a pseudo-channel changes: its bit, PENDING, and which pseudo-channels wait for a fold. -/
theorem failPc_keeps (s : State) (pc : Nat) :
    Confined (· ∈ [RegId.HBM_PC_FAILED.addr (pc / 64), RegId.HBM_FOLD_CTRL.addr]) s (s.failPc pc)
    ∧ (s.failPc pc).host = s.host ∧ ∃ w, (s.failPc pc).hbm = { s.hbm with waiting := w } := by
  unfold State.failPc
  dsimp only
  split
  · exact ⟨.refl, rfl, _, rfl⟩
  · refine ⟨Confined.setF ?_ _ (List.mem_cons_of_mem _ (List.mem_cons_self ..)), rfl, _, rfl⟩
    exact Confined.frame (Confined.refl.setF _ (List.mem_cons_self ..))

/-- The rate that a training of a pseudo-channel reached, recorded. -/
def State.trained (s : State) (pc : Nat) (t : PcTrain) : State :=
  s.updHbm fun h => { h with
    retrains := h.retrains.filter fun r => r.pc != pc
    train := smapSet (fun _ => PcTrain.full) h.train pc t
    trainTemp := smapSet (fun _ => 0) h.trainTemp pc (s.getF (Fld.HBM_STACK_TEMP (pc % 8)) + 1) }

/-- The same with the pseudo-channel failed where the rate is not the full one. -/
def State.trainedOrFailed (s : State) (pc : Nat) (t : PcTrain) : State := if t = .full then s.trained pc t else (s.trained pc t).failPc pc

theorem trainedOrFailed_keeps (s : State) (pc : Nat) (t : PcTrain) :
    Confined (· ∈ [RegId.HBM_PC_FAILED.addr (pc / 64), RegId.HBM_FOLD_CTRL.addr]) s (s.trainedOrFailed pc t)
    ∧ (s.trainedOrFailed pc t).host = s.host ∧ ∃ w, (s.trainedOrFailed pc t).hbm = { (s.trained pc t).hbm with waiting := w } := by
  have htrained : Confined (· ∈ [RegId.HBM_PC_FAILED.addr (pc / 64), RegId.HBM_FOLD_CTRL.addr]) s (s.trained pc t) := Confined.refl.frame
  unfold State.trainedOrFailed
  split
  · exact ⟨htrained, rfl, _, rfl⟩
  · obtain ⟨hkept, hhost, hhbm⟩ := failPc_keeps (s.trained pc t) pc
    exact ⟨htrained.trans hkept, hhost, hhbm⟩

theorem cap_ne_failRegs (hpc : pc < 256) : RegId.HBM_CAP.addr ∉ [RegId.HBM_PC_FAILED.addr (pc / 64), RegId.HBM_FOLD_CTRL.addr] := by
  have hw : pc / 64 < 4 := by omega
  simp only [List.mem_cons, List.not_mem_nil, or_false, not_or]
  exact ⟨RegId.addr_ne .HBM_CAP .HBM_PC_FAILED Nat.one_pos Nat.one_pos hw Nat.one_pos (by decide), by decide⟩

/-- A retraining that ends with no host command, no request waiting, and no failure beyond the sixteenth fold. -/
theorem endRetrain_eq (hpc : pc < 256) {rate : PcTrain} (hcmd : s.retrainCmd pc = none) (hq : s.hbm.queue = [])
    (hw : s.getF Fld.HBM_CAP_FOLDS = 16 → s.hbm.waiting = []) (hr : rate = .full ∨ s.getF Fld.HBM_CAP_FOLDS < 16) :
    s.endRetrain pc rate = s.trainedOrFailed pc rate := by
  obtain ⟨hkept, hhost, w, hhbm⟩ := trainedOrFailed_keeps s pc rate
  have hcmd' : (s.trainedOrFailed pc rate).retrainCmd pc = none := by
    rw [State.retrainCmd, hhost]
    exact hcmd
  have hqueue : (s.trainedOrFailed pc rate).hbm.queue = [] := by
    rw [hhbm]
    exact hq
  have hfolds : (s.trainedOrFailed pc rate).getF Fld.HBM_CAP_FOLDS = s.getF Fld.HBM_CAP_FOLDS := hkept.getF _ (cap_ne_failRegs hpc)
  have hnone : (s.trainedOrFailed pc rate).getF Fld.HBM_CAP_FOLDS = 16 → (s.trainedOrFailed pc rate).hbm.waiting = [] := by
    rw [hfolds]
    intro h
    rcases hr with rfl | hr
    · exact hw h
    · omega
  have hend : s.endRetrain pc rate = (((((s.trainedOrFailed pc rate).retrainCmd pc).elim (s.trainedOrFailed pc rate) fun c =>
      (s.trainedOrFailed pc rate).finishCmd c.k cDONE 0 (BitVec.ofNat 64 rate.rate))).serveHeld pc none true
        ((((s.trainedOrFailed pc rate).retrainCmd pc).elim (s.trainedOrFailed pc rate) fun c =>
          (s.trainedOrFailed pc rate).finishCmd c.k cDONE 0 (BitVec.ofNat 64 rate.rate)).hbm.queue.length)).beyondFolds := rfl
  rw [hend, hcmd']
  simp only [Option.elim_none, hqueue]
  exact beyondFolds_of_none hnone

/-- An attempt that failed counted, and the next one's rate. -/
def State.retried (s : State) (r : Retrain) (t : PcTrain) : State :=
  (s.updHbm fun h => { h with retrains := h.retrains.map fun q =>
    if q.pc = r.pc then { q with tries := q.tries + 1, rate := t } else q }).incF (Fld.HBM_STACK_RETRAIN_CNT (r.pc % 8))

/-- Below full rate at most two attempts are left (R256). -/
theorem opRetrainDone_failed {pc : BitVec 8} (hr : s.hbm.retrains.find? (fun r => r.pc == pc.toNat) = some r) (hq : r.rate ≠ .quarter)
    (hd : r.rate ≠ .dead) : opRetrainDone pc .failed s
      = s.retried r (if r.rate = .full then (if r.tries < 2 then .full else .half) else .quarter) := by
  unfold opRetrainDone
  simp only [hr]
  cases hrate : r.rate with
  | full =>
    by_cases htries : r.tries < 2
    · simp only [htries, if_true]; rfl
    · simp only [htries, if_true, if_false]; rfl
  | half => rfl
  | quarter => exact absurd hrate hq
  | dead => exact absurd hrate hd

/-- The attempt is the one that the pseudo-channel retrains with. -/
theorem retried_shows (hr : s.hbm.retrains.find? (fun r => r.pc == pc) = some r) (t : PcTrain) :
    (s.retried r t).hbm.retrains.find? (fun r => r.pc == pc) = some { r with tries := r.tries + 1, rate := t }
    ∧ (s.retried r t).getF (Fld.HBM_STACK_RETRAIN_CNT (pc % 8)) = (s.getF (Fld.HBM_STACK_RETRAIN_CNT (pc % 8)) + 1) % 2 ^ 16 := by
  have hpc : (r.pc == pc) = true := List.find?_some (p := fun r : Retrain => r.pc == pc) hr
  constructor
  · have hsame (q : Retrain) :
        ((if q.pc = r.pc then ({ q with tries := q.tries + 1, rate := t } : Retrain) else q).pc == pc) = (q.pc == pc) := by
      split <;> rfl
    change (s.hbm.retrains.map fun q => if q.pc = r.pc then ({ q with tries := q.tries + 1, rate := t } : Retrain) else q).find? _ = _
    rw [List.find?_map]
    simp only [Function.comp_def, hsame, hr, Option.map_some, if_true]
  · rw [← beq_iff_eq.mp hpc]
    exact getF_incF_self _ (Fld.HBM_STACK_RETRAIN_CNT (r.pc % 8)) (by decide : 16 + 16 ≤ 64)

/-- With no access of the aperture waiting, none is served. -/
theorem serveLate_of_none (h : s.host.late = []) : s.serveLate s.host.late.length = s := by
  rw [h]
  rfl

theorem exec_retrainDone {pc : BitVec 8} {res : TrainResult} (hd : opRetrainDone pc res s = t) (hhost : t.host.late = []) :
    exec (.retrainDone pc res) s = .next t := by
  have h := serveLate_of_none hhost
  rw [← hd] at h
  exact congrArg Host.Outcome.next (h.trans hd)

end

/-! #### A fold starts (R257 to R261) -/

/-- The registers that the end of a host command may write. -/
def ringRegs : List Nat := (List.range 16).map fun q => RegId.MSC_SQ_CFG.addr q

/-- What a fold's start may write beside its own registers: what lay of the reserve in the band given up, a full scrub that has read every
unit left, PENDING, and the rings of the commands that end. -/
def foldSideRegs : List Nat := [RegId.LDG_BASTE_STATUS.addr, RegId.LDG_HEM_PROG.addr, RegId.LDG_BASTE_STATS.addr,
  RegId.HBM_SCRUB_PROG.addr, RegId.HBM_FOLD_CTRL.addr] ++ ringRegs

section
variable {s t : State} {pc top : Nat}

theorem ring_mem_foldSideRegs {q : Nat} (h : q < 16) : RegId.MSC_SQ_CFG.addr q ∈ foldSideRegs :=
  List.mem_append_right _ (List.mem_map_of_mem (List.mem_range.mpr h))

theorem not_mem_foldSideRegs {q : RegId} {i j : Nat} (hi : i < q.spec.n1) (hj : j < q.spec.n2)
    (hq : q ∉ [.LDG_BASTE_STATUS, .LDG_HEM_PROG, .LDG_BASTE_STATS, .HBM_SCRUB_PROG, .HBM_FOLD_CTRL, .MSC_SQ_CFG]) :
    q.addr i j ∉ foldSideRegs := by
  simp only [List.mem_cons, List.not_mem_nil, or_false, not_or] at hq
  obtain ⟨h₁, h₂, h₃, h₄, h₅, h₆⟩ := hq
  simp only [foldSideRegs, ringRegs, List.mem_append, List.mem_cons, List.not_mem_nil, or_false, not_or, List.mem_map, List.mem_range]
  refine ⟨⟨?_, ?_, ?_, ?_, ?_⟩, ?_⟩
  · exact q.addr_ne .LDG_BASTE_STATUS hi hj Nat.one_pos Nat.one_pos h₁
  · exact q.addr_ne .LDG_HEM_PROG hi hj Nat.one_pos Nat.one_pos h₂
  · exact q.addr_ne .LDG_BASTE_STATS hi hj Nat.one_pos Nat.one_pos h₃
  · exact q.addr_ne .HBM_SCRUB_PROG hi hj Nat.one_pos Nat.one_pos h₄
  · exact q.addr_ne .HBM_FOLD_CTRL hi hj Nat.one_pos Nat.one_pos h₅
  · rintro ⟨k, hk, h⟩
    exact q.addr_ne .MSC_SQ_CFG hi hj hk Nat.one_pos h₆ h.symm

theorem LedgerKeeps.dropReserve {r : State} (h : LedgerKeeps (· ∈ foldSideRegs) r s) (band : Nat) :
    LedgerKeeps (· ∈ foldSideRegs) r (s.dropReserve band) := by
  have hstatus : RegId.LDG_BASTE_STATUS.addr ∈ foldSideRegs := by simp [foldSideRegs]
  have hhem : RegId.LDG_HEM_PROG.addr ∈ foldSideRegs := by simp [foldSideRegs]
  have hstats : RegId.LDG_BASTE_STATS.addr ∈ foldSideRegs := by simp [foldSideRegs]
  unfold State.dropReserve
  extract_lets x _ _ _ s₁ s₂ s₃ s₄
  have h₁ : LedgerKeeps (· ∈ foldSideRegs) r s₁ :=
    LedgerKeeps.frame (h.setFs (List.forall_mem_cons.mpr ⟨hstatus, List.forall_mem_singleton.mpr hstatus⟩))
  have h₂ : LedgerKeeps (· ∈ foldSideRegs) r s₂ := h₁.withdrawLedger .baste
  have h₃ : LedgerKeeps (· ∈ foldSideRegs) r s₃ :=
    .ite (h₂.elim fun c => .ite (h₂.finishCmd _ _ _ _ fun _ _ hq => ring_mem_foldSideRegs hq) h₂) h
  have h₄ : LedgerKeeps (· ∈ foldSideRegs) r s₄ :=
    .ite (h₃.elim fun j => h₃.hemEnd j _ hhem fun _ _ _ _ hq => ring_mem_foldSideRegs hq) h₃
  exact .ite (h₄.setF _ hstats) h₄

theorem endScrub_keeps (s : State) : LedgerKeeps (· ∈ foldSideRegs) (s.updHbm fun h => { h with scrub := none }) s.endScrub := by
  have hprog : RegId.HBM_SCRUB_PROG.addr ∈ foldSideRegs := by simp [foldSideRegs]
  unfold State.endScrub
  extract_lets u
  have hu : LedgerKeeps (· ∈ foldSideRegs) (s.updHbm fun h => { h with scrub := none }) u :=
    LedgerKeeps.refl.setFs (List.forall_mem_cons.mpr ⟨hprog, List.forall_mem_singleton.mpr hprog⟩)
  exact hu.elim fun c => hu.finishLong _ _ _ fun _ _ hq => ring_mem_foldSideRegs hq

/-- What HBM_CAP and the fold's registers show as a fold starts (R258, R259, R275). -/
def State.foldShown (s : State) (pc : Nat) : State :=
  s.setFs [(Fld.HBM_CAP_LIVE_BANDS, s.getF Fld.HBM_CAP_LIVE_BANDS - 1), (Fld.HBM_CAP_FOLDS, s.getF Fld.HBM_CAP_FOLDS + 1),
    (Fld.HBM_CAP_LIVE_PC, s.getF Fld.HBM_CAP_LIVE_PC - 1), (Fld.HBM_FOLD_PROG_PCT, 0), (Fld.HBM_FOLD_PROG_STATE, 1),
    (Fld.HBM_FOLD_PROG_PC, pc), (Fld.HBM_FOLD_PROG_POSITION, 0), (Fld.HBM_FOLD_LOST_UNITS, 0)]

/-- The state as its oldest failed pseudo-channel is taken up. -/
def State.takenUp (s : State) (pc : Nat) : State := s.updHbm fun h => { h with waiting := h.waiting.filter fun p => p != pc }

theorem setFs_updHbm (s : State) (g : Hbm → Hbm) (l : List (Field × Nat)) : (s.updHbm g).setFs l = (s.setFs l).updHbm g := by
  induction l generalizing s with
  | nil => rfl
  | cons p l ih => exact ih (s.setF p.1 p.2)

/-- The registers do not rest on what waits. -/
theorem foldShown_takenUp (s : State) (pc : Nat) : (s.takenUp pc).foldShown pc = (s.foldShown pc).takenUp pc := setFs_updHbm ..

/-- The fold with its moves, recorded in a state whose band `top` is given up. -/
def State.foldBegun (s : State) (pc top : Nat) (moves : List SliceEntry) : State :=
  ((s.dropBand top).updHbm fun h => { h with fold := some ⟨pc, moves, 0⟩ }).foldPending

theorem startFold_eq (h : s.getF Fld.HBM_CAP_FOLDS ≠ 16) : s.startFold pc
    = (let top := s.getF Fld.HBM_CAP_LIVE_BANDS - 1
      let u := (((s.takenUp pc).foldShown pc).dropReserve top).foldBegun pc top ((s.takenUp pc).foldMoves pc top)
      if u.hbm.scrub.any fun u' => decide (u.liveUnits ≤ u') then u.endScrub else u) := by
  have hfolds : (s.takenUp pc).getF Fld.HBM_CAP_FOLDS ≠ 16 := h
  unfold State.startFold
  dsimp only
  rw [if_neg (show ¬ (s.updHbm fun h => { h with waiting := h.waiting.filter fun p => p != pc }).getF Fld.HBM_CAP_FOLDS = 16 from hfolds)]
  rfl

/-- What a fold that starts keeps of the state `u` that shows it. -/
structure FoldStarts (u t : State) (pc top : Nat) (moves : List SliceEntry) : Prop where
  shown : ∀ f : Field, f.reg ∉ foldSideRegs → t.getF f = u.getF f
  fold : t.hbm.fold = some ⟨pc, moves, 0⟩
  mem : t.mem = u.mem.filter fun c => regionOf c.1 != .hbm || bandOf c.1 != top
  bays : t.bays = u.bays
  ended : t.fab.ended = u.fab.ended
  lost : t.fab.lost = u.fab.lost

/-- The fold begun once the band's part of the reserve is given up. -/
theorem foldBegun_starts {u w : State} (h : LedgerKeeps (· ∈ foldSideRegs) (u.takenUp pc) w) (top : Nat) (moves : List SliceEntry) :
    FoldStarts u (w.foldBegun pc top moves) pc top moves := by
  have hctrl : RegId.HBM_FOLD_CTRL.addr ∈ foldSideRegs := by simp [foldSideRegs]
  have hfilter : (w.foldBegun pc top moves).mem = w.mem.filter fun c => regionOf c.1 != .hbm || bandOf c.1 != top := rfl
  refine ⟨fun f hf => ?_, rfl, hfilter.trans (congrArg (List.filter _) h.mem), h.bays, h.ended, h.lost⟩
  have hne : f.reg ≠ Fld.HBM_FOLD_CTRL_PENDING.reg := fun e => hf (e ▸ hctrl)
  unfold State.foldBegun State.foldPending
  rw [State.getF_setF_reg _ _ _ _ hne]
  exact (getF_of_regs rfl f).trans ((h.getF f hf).trans (getF_of_regs rfl f))

/-- A full scrub that ends with the fold changes none of it. -/
theorem FoldStarts.endScrub {u : State} {moves : List SliceEntry} (h : FoldStarts u t pc top moves) :
    FoldStarts u t.endScrub pc top moves := by
  have hscrub := endScrub_keeps t
  exact ⟨fun f hf => (hscrub.getF f hf).trans ((getF_of_regs rfl f).trans (h.shown f hf)), (congrArg Hbm.fold hscrub.hbm).trans h.fold,
    hscrub.mem.trans h.mem, hscrub.bays.trans h.bays, hscrub.ended.trans h.ended, hscrub.lost.trans h.lost⟩

theorem startFold_starts (h : s.getF Fld.HBM_CAP_FOLDS ≠ 16) : FoldStarts (s.foldShown pc) (s.startFold pc) pc
    (s.getF Fld.HBM_CAP_LIVE_BANDS - 1) ((s.takenUp pc).foldMoves pc (s.getF Fld.HBM_CAP_LIVE_BANDS - 1)) := by
  rw [startFold_eq h, foldShown_takenUp]
  generalize s.foldShown pc = u
  have hu := foldBegun_starts (u := u) (pc := pc) (LedgerKeeps.refl.dropReserve (s.getF Fld.HBM_CAP_LIVE_BANDS - 1))
    (s.getF Fld.HBM_CAP_LIVE_BANDS - 1) ((s.takenUp pc).foldMoves pc (s.getF Fld.HBM_CAP_LIVE_BANDS - 1))
  dsimp only
  split
  · exact hu.endScrub
  · exact hu

theorem foldShown_keeps (s : State) (pc : Nat) :
    (s.foldShown pc).mem = s.mem ∧ (s.foldShown pc).bays = s.bays ∧ (s.foldShown pc).fab = s.fab := by
  unfold State.foldShown
  exact ⟨State.setFs_mem .., State.setFs_bays .., State.setFs_fab ..⟩

theorem foldShown_fields (hpc : pc < 256) :
    (s.foldShown pc).getF Fld.HBM_CAP_LIVE_BANDS = s.getF Fld.HBM_CAP_LIVE_BANDS - 1
    ∧ (s.foldShown pc).getF Fld.HBM_CAP_LIVE_PC = s.getF Fld.HBM_CAP_LIVE_PC - 1
    ∧ (s.foldShown pc).getF Fld.HBM_FOLD_PROG_STATE = 1 ∧ (s.foldShown pc).getF Fld.HBM_FOLD_PROG_PC = pc := by
  have hbands : s.getF Fld.HBM_CAP_LIVE_BANDS < 2 ^ 9 := fieldOf_lt ..
  have hlive : s.getF Fld.HBM_CAP_LIVE_PC < 2 ^ 9 := fieldOf_lt ..
  unfold State.foldShown
  simp (disch := decide) only [setFs_cons, setFs_nil, State.getF_setF_apart, State.getF_setF_self]
  exact ⟨Nat.mod_eq_of_lt (show _ < 2 ^ 9 by omega), Nat.mod_eq_of_lt (show _ < 2 ^ 9 by omega), rfl, Nat.mod_eq_of_lt hpc⟩

/-- The count of folds is a field of five bits, so it shows one more below 31. -/
theorem foldShown_folds (hfolds : s.getF Fld.HBM_CAP_FOLDS < 31) :
    (s.foldShown pc).getF Fld.HBM_CAP_FOLDS = s.getF Fld.HBM_CAP_FOLDS + 1 := by
  unfold State.foldShown
  simp (disch := decide) only [setFs_cons, setFs_nil, State.getF_setF_apart, State.getF_setF_self]
  exact Nat.mod_eq_of_lt (show _ < 2 ^ 5 by omega)

/-- Without command the oldest failed pseudo-channel is folded where AUTO is set; nothing is handed over (R257). -/
theorem exec_foldStart {pc : BitVec 8} (hfold : s.hbm.fold = none) (hhead : s.hbm.waiting.head? = some pc.toNat)
    (hauto : s.getF Fld.HBM_FOLD_CTRL_AUTO = 1) (hfolds : s.getF Fld.HBM_CAP_FOLDS ≠ 16) (hs : Safety.handedOver s) :
    exec (.foldStart pc) s = .next (s.startFold pc.toNat) := by
  have hstarts := startFold_starts (pc := pc.toNat) hfolds
  obtain ⟨-, -, hfab⟩ := foldShown_keeps s pc.toNat
  have hrun : opFoldStart pc s = s.startFold pc.toNat := if_pos ⟨hfold, hhead, .inl hauto⟩
  change Host.Outcome.next (opFoldStart pc s).settled = _
  rw [hrun, settled_of_none (hstarts.ended.trans ((congrArg Fabric.ended hfab).trans hs.1))
    (hstarts.lost.trans ((congrArg Fabric.lost hfab).trans hs.2.1))]

/-- The bytes of the band given up are discarded, and no others (R259). -/
theorem memByte_dropped (hmem : t.mem = s.mem.filter fun c => regionOf c.1 != .hbm || bandOf c.1 != top) (h : memWf s.mem = true)
    (x : Nat) :
    t.memByte x = if regionOf x = .hbm ∧ bandOf x = top then memDefault x else s.memByte x := by
  have hread := smapGet_filter memDefault s.mem (fun x => regionOf x != .hbm || bandOf x != top) x h
  rw [State.memByte, hmem, hread]
  by_cases hx : regionOf x = .hbm ∧ bandOf x = top
  · rw [if_pos hx, if_neg (by simp [hx.1, hx.2])]
  · rw [if_neg hx, if_pos (by simpa [Decidable.imp_iff_not_or] using hx)]
    rfl

end

/-! #### Pieces of a fold (R262, R263) -/

section
variable {s t : State} {j : FoldJob} {e : SliceEntry}

/-- The cached and corrected contents of the next piece gone, and the piece counted as copied. -/
def State.pieceCopied (s : State) (j : FoldJob) (e : SliceEntry) : State :=
  ((s.updHbm fun h => { h with
      writeback := h.writeback.filter fun w => !s.inPiece e (j.copied % 256) (w.1 / 8)
      fold := some { j with copied := j.copied + 1 } }).setFs
    [(Fld.HBM_FOLD_PROG_PCT, 10000 * (j.copied + 1) / (256 * j.moves.length)), (Fld.HBM_FOLD_PROG_POSITION, j.copied + 1)])

theorem pieceCopied_keeps (s : State) (j : FoldJob) (e : SliceEntry) :
    Confined (· ∈ [RegId.HBM_FOLD_PROG.addr]) s (s.pieceCopied j e)
    ∧ (s.pieceCopied j e).hbm.fold = some { j with copied := j.copied + 1 } ∧ (s.pieceCopied j e).host = s.host
    ∧ (s.pieceCopied j e).getF Fld.HBM_FOLD_PROG_POSITION = (j.copied + 1) % 2 ^ 32 := by
  have hprog : RegId.HBM_FOLD_PROG.addr ∈ [RegId.HBM_FOLD_PROG.addr] := List.mem_singleton_self _
  unfold State.pieceCopied
  refine ⟨Confined.setFs Confined.refl.frame (List.forall_mem_cons.mpr ⟨hprog, List.forall_mem_singleton.mpr hprog⟩), ?_,
    State.setFs_host .., ?_⟩
  · rw [State.setFs_hbm]
    rfl
  · simp (disch := decide) only [setFs_cons, setFs_nil, State.getF_setF_self]
    rfl

/-- A good piece of which nothing is cached is copied; the last one ends the fold. -/
theorem opFoldPiece_good (hfold : s.hbm.fold = some j) (he : j.moves[j.copied / 256]? = some e) (hst : s.devState ≠ stHOLD)
    (hret : s.hbm.retrains = []) (hlines : s.hbm.lines = []) (hbad : s.hbmBad = []) (htrain : s.trainOf j.pc ≠ .dead)
    (hcmd : s.running 0x31 = none) :
    opFoldPiece [] s = if j.copied + 1 = 256 * j.moves.length then (s.pieceCopied j e).endFold else s.pieceCopied j e := by
  have hlost : s.lostUnits j e (j.copied % 256) [] = [] := by
    unfold State.lostUnits
    simp [hbad, htrain]
  have hrun : (s.pieceCopied j e).running 0x31 = none := by
    obtain ⟨-, -, hhost, -⟩ := pieceCopied_keeps s j e
    rw [State.running, hhost]
    exact hcmd
  have hshow : (s.pieceCopied j e).showProgress 0x31 = s.pieceCopied j e := by
    rw [State.showProgress, hrun]
  unfold opFoldPiece
  simp only [hfold, he]
  rw [if_neg (by simp [hst, hret])]
  simp only [hlines, List.filter_nil, List.foldl_nil, hlost]
  change (if _ then ((s.pieceCopied j e).showProgress 0x31).endFold else (s.pieceCopied j e).showProgress 0x31) = _
  rw [hshow]

/-- The moves of the fold that ends are in the slice table (R262). -/
theorem foldOver_slices {h : Hbm} (hfold : h.fold = some j) : h.foldOver.fold = none ∧ ∀ m ∈ j.moves, m ∈ h.foldOver.slices := by
  unfold Hbm.foldOver
  rw [hfold]
  exact ⟨rfl, fun m hm => List.mem_append_right _ hm⟩

/-- The end of a fold that no host command waits for. -/
theorem endFold_shows (hfold : s.hbm.fold = some j) (hcmd : s.running 0x31 = none) : s.endFold.hbm.fold = none
    ∧ s.endFold.getF Fld.HBM_FOLD_PROG_STATE = 2 ∧ (∀ m ∈ j.moves, m ∈ s.endFold.hbm.slices) ∧ s.endFold.mem = s.mem
    ∧ s.endFold.bays = s.bays := by
  have hfab : s.endFold.hbm = s.hbm.foldOver ∧ Confined (· ∈ [RegId.HBM_FOLD_CTRL.addr, RegId.LDG_STEP_STATUS.addr])
      ((s.updHbm Hbm.foldOver).setF Fld.HBM_FOLD_PROG_STATE 2) s.endFold := by
    unfold State.endFold
    extract_lets u v w
    have hv : Confined (· ∈ [RegId.HBM_FOLD_CTRL.addr, RegId.LDG_STEP_STATUS.addr])
        ((s.updHbm Hbm.foldOver).setF Fld.HBM_FOLD_PROG_STATE 2) v := Confined.refl.setF _ (List.mem_cons_self ..)
    have hw : w.hbm = s.hbm.foldOver ∧ w.host = s.host ∧ Confined (· ∈ [RegId.HBM_FOLD_CTRL.addr, RegId.LDG_STEP_STATUS.addr])
        ((s.updHbm Hbm.foldOver).setF Fld.HBM_FOLD_PROG_STATE 2) w := by
      simp only [w]
      split
      · exact ⟨State.tickEvent_hbm .., State.tickEvent_host .., hv.tickEvent 1 (by simp)⟩
      · exact ⟨rfl, rfl, hv⟩
    obtain ⟨hhbm, hhost, hkept⟩ := hw
    have hrun : w.running 0x31 = none := by
      rw [State.running, hhost]
      exact hcmd
    rw [hrun]
    exact ⟨hhbm, hkept⟩
  obtain ⟨hhbm, hkept⟩ := hfab
  obtain ⟨hnone, hslices⟩ := foldOver_slices hfold
  rw [hhbm]
  refine ⟨hnone, (hkept.getF _ (by decide)).trans ?_, hslices, hkept.mem, hkept.bays⟩
  exact State.getF_setF_self _ _ _ (by decide)

end

end Sys2Proof.Machine

namespace Sys2Proof
open Machine

/-- Settles O43, command by command. -/
theorem retrainingAndFolding : Obligations.RetrainingAndFolding := by
  unfold Obligations.RetrainingAndFolding
  refine ⟨fun pc cause s => ⟨fun h => ?_, fun hmust htrain hfree => ?_⟩,
    fun pc r s hr hcmd hq hlate hs => ⟨fun hrate => ?_, fun h₁ h₂ => ?_⟩,
    fun pc s top hfold hhead hauto hfolds hs hwf htop => ?_,
    fun s j e hfold he hst hret hlines hbad htrain hcmd => ⟨fun hn => ?_, fun hn => ?_⟩⟩
  · exact congrArg Host.Outcome.next (if_neg (by rw [h]; decide))
  · obtain ⟨hhbm, hcount, hkept⟩ := retrainStarted_shows s pc.toNat cause
    exact ⟨_, congrArg Host.Outcome.next (opRetrainStart_due hmust htrain hfree), hhbm, hcount, hkept.mem, hkept.bays, hkept.reg⟩
  · obtain ⟨-, -, hwaits⟩ := hs
    have hend := endRetrain_eq (rate := r.rate) pc.isLt hcmd hq hwaits hrate
    obtain ⟨hkept, hhost, w, hhbm⟩ := trainedOrFailed_keeps s pc.toNat r.rate
    have hdone : opRetrainDone pc .ok s = s.trainedOrFailed pc.toNat r.rate := by
      rw [← hend]
      unfold opRetrainDone
      simp only [hr]
    refine ⟨_, exec_retrainDone hdone ((congrArg HostIf.late hhost).trans hlate), ?_, ?_, fun hfull => ?_, hkept.mem⟩
    · rw [State.trainOf, hhbm]
      exact smapGet_set_self ..
    · rw [hhbm]
      rfl
    · rw [hfull]
      rfl
  · obtain ⟨hfind, hcount⟩ := retried_shows hr (if r.rate = .full then (if r.tries < 2 then .full else .half) else .quarter)
    exact ⟨_, exec_retrainDone (opRetrainDone_failed hr h₁ h₂) hlate, hfind, hcount, rfl⟩
  · subst htop
    have hne : s.getF Fld.HBM_CAP_FOLDS ≠ 16 := by omega
    have hstarts := startFold_starts (pc := pc.toNat) hne
    obtain ⟨hmem, hbays, -⟩ := foldShown_keeps s pc.toNat
    obtain ⟨hbands, hlive, hstate, hpc⟩ := foldShown_fields (s := s) pc.isLt
    have hcount := foldShown_folds (s := s) (pc := pc.toNat) (by omega)
    have hcap : RegId.HBM_CAP.addr ∉ foldSideRegs := not_mem_foldSideRegs Nat.one_pos Nat.one_pos (by decide)
    have hprog : RegId.HBM_FOLD_PROG.addr ∉ foldSideRegs := not_mem_foldSideRegs Nat.one_pos Nat.one_pos (by decide)
    refine ⟨_, exec_foldStart hfold hhead hauto hne hs, (hstarts.shown _ hcap).trans hbands, (hstarts.shown _ hcap).trans hcount,
      (hstarts.shown _ hcap).trans hlive, (hstarts.shown _ hprog).trans hstate, (hstarts.shown _ hprog).trans hpc, hstarts.fold, ?_,
      hstarts.bays.trans hbays⟩
    exact memByte_dropped (by rw [hstarts.mem, hmem]) hwf
  · obtain ⟨hkept, hfold', -, hpos⟩ := pieceCopied_keeps s j e
    have hrun := opFoldPiece_good hfold he hst hret hlines hbad htrain hcmd
    rw [if_neg hn] at hrun
    exact ⟨_, congrArg Host.Outcome.next hrun, hfold', hpos, hkept.mem, hkept.bays, hkept.reg⟩
  · obtain ⟨hkept, hfold', hhost, -⟩ := pieceCopied_keeps s j e
    have hrun := opFoldPiece_good hfold he hst hret hlines hbad htrain hcmd
    rw [if_pos hn] at hrun
    have hcmd' : (s.pieceCopied j e).running 0x31 = none := by
      rw [State.running, hhost]
      exact hcmd
    obtain ⟨hnone, hstate, hslices, hmem, hbays⟩ := endFold_shows hfold' hcmd'
    exact ⟨_, congrArg Host.Outcome.next hrun, hnone, hstate, hslices, hmem.trans hkept.mem, hbays.trans hkept.bays⟩

end Sys2Proof
end

section

/-! ### The start and the end of a host command (R452 to R454, R471) -/

set_option Elab.async false

namespace Sys2Proof.Machine

section
variable {s t u : State} {k op : Nat} {c d : HostCmd} {st : CmdStage} {l : List RegId}

/-- The registers of some kinds. -/
def ofKinds (l : List RegId) (a : Nat) : Prop := ∃ q ∈ l, ∃ i j, i < q.spec.n1 ∧ j < q.spec.n2 ∧ a = q.addr i j

theorem ofKinds_addr {q : RegId} {i j : Nat} (hq : q ∈ l) (hi : i < q.spec.n1) (hj : j < q.spec.n2) : ofKinds l (q.addr i j) :=
  ⟨q, hq, i, j, hi, hj, rfl⟩

theorem ofKinds_mono {l' : List RegId} (h : ∀ q ∈ l, q ∈ l') (a : Nat) : ofKinds l a → ofKinds l' a := fun ⟨q, hq, ha⟩ => ⟨q, h q hq, ha⟩

theorem not_ofKinds {q : RegId} {i j : Nat} (hi : i < q.spec.n1) (hj : j < q.spec.n2) (hq : q ∉ l) : ¬ ofKinds l (q.addr i j) := by
  rintro ⟨r, hr, i', j', hi', hj', e⟩
  exact hq ((RegId.addr_inj q r hi hj hi' hj' e).1 ▸ hr)

/-- Fields of one register may be written where its kind may change. -/
theorem LedgerKeeps.setFsOf {q : RegId} {p : List (Field × Nat)} (h : LedgerKeeps (ofKinds l) s t) (hq : q ∈ l) (hi : 0 < q.spec.n1)
    (hj : 0 < q.spec.n2) (hp : (p.map fun x => x.1.reg) = List.replicate p.length q.addr) : LedgerKeeps (ofKinds l) s (t.setFs p) :=
  h.setFs fun x hx => by
    rw [List.eq_of_mem_replicate (hp ▸ List.mem_map_of_mem hx : x.1.reg ∈ _)]
    exact ofKinds_addr hq hi hj

/-- The register of a command's own ring. -/
def ringOf (c : HostCmd) (a : Nat) : Prop := c.sq < 16 ∧ a = RegId.MSC_SQ_CFG.addr c.sq

theorem not_ringOf {q : RegId} {i j : Nat} (hi : i < q.spec.n1) (hj : j < q.spec.n2) (hq : q ≠ .MSC_SQ_CFG) : ¬ ringOf c (q.addr i j) :=
  fun ⟨hsq, e⟩ => RegId.addr_ne q .MSC_SQ_CFG hi hj hsq Nat.one_pos hq e

/-- Kinds of one register each: the registers by their addresses. -/
theorem mem_of_ofKinds (hl : ∀ q ∈ l, q.spec.n1 = 1 ∧ q.spec.n2 = 1) {a : Nat} (ha : ofKinds l a) : a ∈ l.map fun q => q.addr := by
  obtain ⟨q, hq, i, j, hi, hj, rfl⟩ := ha
  obtain ⟨h₁, h₂⟩ := hl q hq
  obtain ⟨rfl, rfl⟩ : i = 0 ∧ j = 0 := by omega
  exact List.mem_map_of_mem hq

theorem LedgerKeeps.keepsRegs (h : LedgerKeeps (ofKinds l) s t) (hl : ∀ q ∈ l, q.spec.n1 = 1 ∧ q.spec.n2 = 1) :
    Safety.keepsRegs s t (l.map fun q => q.addr) := fun a ha => h.reg a fun h' => ha (mem_of_ofKinds hl h')

theorem LedgerKeeps.keepsRegs_ring (h : LedgerKeeps (fun a => ofKinds l a ∨ ringOf c a) s t)
    (hl : ∀ q ∈ l, q.spec.n1 = 1 ∧ q.spec.n2 = 1) : Safety.keepsRegs s t ((l.map fun q => q.addr) ++ [RegId.MSC_SQ_CFG.addr c.sq]) := by
  refine fun a ha => h.reg a ?_
  rintro (h' | ⟨-, rfl⟩)
  · exact ha (List.mem_append_left _ (mem_of_ofKinds hl h'))
  · exact ha (List.mem_append_right _ (List.mem_singleton_self _))

/-! #### The checks of R453 -/

/-- The state in which a command's meaning starts. -/
def State.begun (s : State) (c : HostCmd) : State := s.setCmd { c with stage := .running }

/-- A fetched command that passes the checks of R453 and names no range runs. -/
theorem begin_of_starts (h : Safety.starts s k op c) {chk : State → HostCmd → CmdChecks} {run : HostCmd → State → State}
    (hchk : chk s c = ⟨false, cDONE, []⟩) :
    s.begin k op chk run = run { c with stage := .running } (s.begun c) := by
  obtain ⟨hcmd, hop, hstage, hend, hstate, hentry⟩ := h
  unfold State.begin
  simp [hcmd, hop, hstage, hend, hchk, hstate, hentry, passRanges, State.begun]

/-- A fetched command whose operands are refused ends with their code. -/
theorem begin_refused (h : Safety.starts s k op c) {chk : State → HostCmd → CmdChecks} {run : HostCmd → State → State} {code : Code}
    (hcode : code ≠ cDONE) (hchk : chk s c = ⟨false, code, []⟩) : s.begin k op chk run = s.finishCmd k code := by
  obtain ⟨hcmd, hop, hstage, hend, hstate, hentry⟩ := h
  unfold State.begin
  simp [hcmd, hop, hstage, hend, hchk, hstate, hentry, hcode]

/-! #### The command held while it runs -/

theorem cmd_of_host (h : t.host = s.host) : t.cmd k = s.cmd k := by simp only [State.cmd, h]

theorem waitingOf_of_host (h : t.host.waiting = s.host.waiting) (q : Nat) : t.waitingOf q = s.waitingOf q := by
  simp only [State.waitingOf, h]

theorem cmd_setCmd (h : s.cmd k = some c) (hd : d.k = k) : (s.setCmd d).cmd k = some d := by
  have hp : ((fun x : HostCmd => x.k == k) ∘ fun x => if x.k = d.k then d else x) = fun x => x.k == k := by
    funext x
    by_cases hx : x.k = d.k <;> simp [hx, ← hd]
  have hk : c.k = d.k := (beq_iff_eq.mp (List.find?_some (p := fun x : HostCmd => x.k == k) h)).trans hd.symm
  change List.find? _ (s.host.cmds.map _) = _
  rw [List.find?_map, hp]
  change Option.map _ (s.cmd k) = _
  rw [h, Option.map_some, if_pos hk]

/-- A state that still holds a command of `s`, with the records that wait and the command's ring as in `s`. -/
structure InCommand (s t : State) (k : Nat) (c : HostCmd) (st : CmdStage) : Prop where
  cmd : t.cmd k = some { c with stage := st }
  waiting : t.host.waiting = s.host.waiting
  ring : ∀ q < 16, t.reg (RegId.MSC_SQ_CFG.addr q) = s.reg (RegId.MSC_SQ_CFG.addr q)

theorem InCommand.start (h : s.cmd k = some c) (hk : c.k = k) :
    InCommand s (s.begun c) k c .running := ⟨cmd_setCmd h hk, rfl, fun _ _ => rfl⟩

theorem InCommand.refl (h : s.cmd k = some c) : InCommand s s k c c.stage := ⟨h, rfl, fun _ _ => rfl⟩

/-- Registers of other kinds and everything but the host interface may change. -/
theorem InCommand.keeps (h : InCommand s t k c st) (hhost : u.host = t.host) (hkept : LedgerKeeps (ofKinds l) t u)
    (hl : .MSC_SQ_CFG ∉ l) : InCommand s u k c st :=
  ⟨(cmd_of_host hhost).trans h.cmd, (congrArg HostIf.waiting hhost).trans h.waiting,
    fun q hq => (hkept.reg _ (not_ofKinds hq Nat.one_pos hl)).trans (h.ring q hq)⟩

/-! #### The end of a command -/

theorem ringOff_host (s : State) (q : Nat) : (s.ringOff q).host = s.host := by
  unfold State.ringOff
  split <;> rfl

/-- A final record is appended to those that wait for the completion ring. -/
theorem post_final {r : Record} (hsq : r.sq < 16) (hflag : r.flags.testBit 1 = false) :
    (s.post r).waitingOf (s.getF (Fld.MSC_SQ_CFG_CQ r.sq)) = s.waitingOf (s.getF (Fld.MSC_SQ_CFG_CQ r.sq)) ++ [r] := by
  unfold State.post
  rw [if_neg (show ¬ noRing ≤ r.sq from Nat.not_le.mpr hsq)]
  dsimp only
  simp only [hflag, Bool.false_and, Bool.not_false, List.filter_true]
  exact smapGet_set_self ..

/-- The state in which a command's number is given up. -/
def State.dropCmd (s : State) (k : Nat) : State := s.updHost fun h => { h with cmds := h.cmds.filter fun d => d.k != k }

theorem finishCmd_eq (h : s.cmd k = some c) (code : Code) (detail : Nat) (result : Word) : s.finishCmd k code detail result
    = (if c.flags.testBit 2 ∧ code = cDONE then s.dropCmd k
        else (s.dropCmd k).post (s.recordOf c 0 code detail result)).ringOff c.sq := by
  unfold State.finishCmd
  rw [h]
  rfl

theorem post_cmd (s : State) (r : Record) (k : Nat) : (s.post r).cmd k = s.cmd k := by
  unfold State.post
  split <;> rfl

theorem dropCmd_cmd (s : State) (k : Nat) : (s.dropCmd k).cmd k = none := by
  refine List.find?_eq_none.mpr fun d hd => ?_
  have := (List.mem_filter.mp hd).2
  simpa using this

/-- A command that ends leaves its final record (R452, R454). -/
theorem InCommand.recorded (h : InCommand s t k c st) (hk : c.k = k) (code : Code) (detail : Nat) (result : Word) :
    Safety.recorded s (t.finishCmd k code detail result) c code := by
  subst hk
  rw [finishCmd_eq h.cmd]
  have hcmd (u : State) (q j : Nat) : (u.ringOff q).cmd j = u.cmd j := cmd_of_host (ringOff_host u q)
  have hwait (u : State) (q j : Nat) : (u.ringOff q).waitingOf j = u.waitingOf j :=
    waitingOf_of_host (congrArg HostIf.waiting (ringOff_host u q)) j
  refine ⟨?_, fun hsq hshown => ?_⟩
  · rw [hcmd]
    split
    · exact dropCmd_cmd ..
    · exact (post_cmd ..).trans (dropCmd_cmd ..)
  · have hring : (t.dropCmd c.k).getF (Fld.MSC_SQ_CFG_CQ c.sq) = s.getF (Fld.MSC_SQ_CFG_CQ c.sq) :=
      congrArg (fieldOf · _ _) (h.ring c.sq hsq)
    rw [hwait, if_neg (by rcases hshown with e | e <;> simp [e])]
    generalize hr : t.recordOf { c with stage := st } 0 code detail result = r
    have hsame : r.cid = c.cid ∧ r.op = c.op ∧ r.code = code ∧ r.sq = c.sq := by
      subst hr
      exact ⟨rfl, rfl, rfl, rfl⟩
    have hflag : r.flags.testBit 1 = false := by
      subst hr
      change (0 + if _ then 8 else 0).testBit 1 = false
      split <;> rfl
    have hpost := post_final (s := t.dropCmd c.k) (r := r) (by rw [hsame.2.2.2]; exact hsq) hflag
    rw [hsame.2.2.2, hring, waitingOf_of_host (s := s) (t := t.dropCmd c.k) h.waiting] at hpost
    exact ⟨r, hpost, hsame⟩

/-- The end of a command changes its ring's register alone, and of the host interface neither memory. -/
theorem InCommand.finish_keeps (h : InCommand s t k c st) (code : Code) (detail : Nat) (result : Word) :
    LedgerKeeps (ringOf c) t (t.finishCmd k code detail result) := by
  refine LedgerKeeps.refl.finishCmd k code detail result fun d hd hsq => ?_
  obtain rfl : _ = d := Option.some.inj (h.cmd.symm.trans hd)
  exact ⟨hsq, rfl⟩

theorem ringOff_regs_only (s : State) (q : Nat) : s.ringOff q = { s with regs := (s.ringOff q).regs } := by
  unfold State.ringOff
  split <;> rfl

theorem finishCmd_keeps (s : State) (k : Nat) (code : Code) (detail : Nat) (result : Word) :
    (s.finishCmd k code detail result).ldg = s.ldg ∧ (s.finishCmd k code detail result).store = s.store
    ∧ (s.finishCmd k code detail result).host.mem = s.host.mem := by
  cases h : s.cmd k with
  | none =>
    unfold State.finishCmd
    rw [h]
    exact ⟨rfl, rfl, rfl⟩
  | some c =>
    rw [finishCmd_eq h, ringOff_regs_only]
    split
    · exact ⟨rfl, rfl, rfl⟩
    · unfold State.post
      split <;> exact ⟨rfl, rfl, rfl⟩

end

end Sys2Proof.Machine
end

section

/-! ### The commands of the Ledger, of HBM and of circuits (R252, R255, R257, R345, R389, R392, R412, R418) -/

set_option Elab.async false

namespace Sys2Proof.Machine

section
variable {s t u : State} {k : Nat} {c : HostCmd} {st : CmdStage} {h : HemJob}

/-! #### BASTE (R412) -/

/-- With threads running a forced baste is due and does not start yet. -/
theorem basteForce_threads (h : s.noThread = false) : s.basteForce = s.updBaste fun b => { b with forced := true } := by
  have hno : (s.updBaste fun b => { b with forced := true }).noThread = false := h
  unfold State.basteForce
  dsimp only
  rw [hno]
  rfl

theorem opBaste_forced (h : Safety.starts s k 0x20 c) (hruns : s.basteRuns = false) (hthreads : s.noThread = false) :
    opBaste k s = (s.begun c).updBaste fun b => { b with forced := true } := by
  unfold opBaste
  rw [begin_of_starts h (by rw [hruns])]
  exact basteForce_threads hthreads

/-! #### HEM (R418) -/

/-- A hem of a held baste starts with nothing sent. -/
theorem hemStart_held (hst : s.basteState = 4 ∨ s.basteState = 5) (hhem : s.ldg.hem = none) (k : Nat) (coord : BitVec 28)
    (obj rate : Nat) : ∃ h, s.hemStart k coord obj rate = some ((s.updLdg fun x => { x with hem := some h }).setFs
        [(Fld.LDG_HEM_PROG_PCT, 0), (Fld.LDG_HEM_PROG_STATE, 1), (Fld.LDG_HEM_PROG_CODE, 0), (Fld.LDG_HEM_PROG_POSITION, 0)])
      ∧ h.cmd = some k ∧ h.coord = coord ∧ h.obj = obj ∧ h.rate = rate ∧ h.sent = 0 := by
  have hheld : (!(s.basteState == 3 || s.basteState == 4 || s.basteState == 5) || s.ldg.hem.isSome) = false := by
    rcases hst with e | e <;> simp [e, hhem]
  unfold State.hemStart
  dsimp only
  rw [hheld]
  exact ⟨_, rfl, rfl, rfl, rfl, rfl, rfl⟩

/-- HEM starts the hem that its operands name. -/
theorem opHem_held (h : Safety.starts s k 0x21 c) (hst : s.basteState = 4 ∨ s.basteState = 5) (hhem : s.ldg.hem = none)
    (hrate : c.f 2 0 8 ≤ 100) :
    ∃ j, opHem k s = ((s.begun c).updLdg fun x => { x with hem := some j }).setFs
        [(Fld.LDG_HEM_PROG_PCT, 0), (Fld.LDG_HEM_PROG_STATE, 1), (Fld.LDG_HEM_PROG_CODE, 0), (Fld.LDG_HEM_PROG_POSITION, 0)]
      ∧ j.cmd = some k ∧ j.coord.toNat = c.f 0 0 28 ∧ j.obj = c.f 1 0 48 ∧ j.rate = (if c.f 2 0 8 = 0 then 25 else c.f 2 0 8)
      ∧ j.sent = 0 := by
  obtain ⟨_, hstart, -⟩ := hemStart_held hst hhem k 0 0 0
  obtain ⟨j, hrun, hcmd, hcoord, hobj, hj, hsent⟩ := hemStart_held (s := s.begun c) hst hhem k (BitVec.ofNat 28 (c.f 0 0 28))
    (c.f 1 0 48) (if c.f 2 0 8 = 0 then 25 else c.f 2 0 8)
  refine ⟨j, ?_, hcmd, ?_, hobj, hj, hsent⟩
  · unfold opHem
    rw [begin_of_starts h (by rw [hstart]; simp [operandCode, hrate])]
    exact (congrArg (Option.getD · _) hrun).trans rfl
  · rw [hcoord, BitVec.toNat_ofNat]
    exact Nat.mod_eq_of_lt (fieldOf_lt ..)

/-- A hem begun shows its state, and changes its progress register alone. -/
theorem hemProg_shows (s : State) :
    let t := s.setFs [(Fld.LDG_HEM_PROG_PCT, 0), (Fld.LDG_HEM_PROG_STATE, 1), (Fld.LDG_HEM_PROG_CODE, 0), (Fld.LDG_HEM_PROG_POSITION, 0)]
    LedgerKeeps (ofKinds [.LDG_HEM_PROG]) s t ∧ t.host = s.host ∧ t.ldg = s.ldg ∧ t.getF Fld.LDG_HEM_PROG_STATE = 1 := by
  refine ⟨.setFsOf .refl (List.mem_singleton_self _) Nat.one_pos Nat.one_pos rfl, State.setFs_host .., State.setFs_ldg .., ?_⟩
  simp (disch := decide) only [setFs_cons, setFs_nil, State.getF_setF_apart, State.getF_setF_self]
  rfl

/-! #### HEM_DONE (R418, R419) -/

/-- A hem that ended, before its command's record. -/
def State.hemEnded (s : State) (code : Code) : State :=
  ((s.withdrawLedger .hem).updLdg fun l => { l with hem := none }).setFs
    [(Fld.LDG_HEM_PROG_STATE, if code = cDONE then 2 else 3), (Fld.LDG_HEM_PROG_CODE, code.toNat)]

theorem hemEnd_eq (hcmd : h.cmd = some k) (code : Code) : s.hemEnd h code = (s.hemEnded code).finishLong k code := by
  unfold State.hemEnd
  rw [hcmd]
  rfl

theorem hemEnded_keeps (s : State) (code : Code) : LedgerKeeps (ofKinds [.LDG_HEM_PROG]) s (s.hemEnded code) := by
  exact .setFsOf (.frame (.withdrawLedger .refl .hem)) (List.mem_singleton_self _) Nat.one_pos Nat.one_pos rfl

theorem hemEnded_shows (s : State) (code : Code) : (s.hemEnded code).getF Fld.LDG_HEM_PROG_STATE = (if code = cDONE then 2 else 3)
    ∧ (s.hemEnded code).getF Fld.LDG_HEM_PROG_CODE = code.toNat
    ∧ (s.hemEnded code).getF Fld.LDG_HEM_PROG_PCT = s.getF Fld.LDG_HEM_PROG_PCT := by
  unfold State.hemEnded
  simp (disch := decide) only [setFs_cons, setFs_nil, State.getF_setF_apart, State.getF_setF_self]
  refine ⟨?_, Nat.mod_eq_of_lt code.isLt, getF_of_regs rfl _⟩
  split <;> rfl

/-- What a hem's end shows, with its command held as in `s`. -/
theorem hemEnd_shows (hin : InCommand s t k c st) (hk : c.k = k) (hcmd : h.cmd = some k) (code : Code) :
    (t.hemEnd h code).ldg.hem = none ∧ (t.hemEnd h code).getF Fld.LDG_HEM_PROG_STATE = (if code = cDONE then 2 else 3)
    ∧ (t.hemEnd h code).getF Fld.LDG_HEM_PROG_CODE = code.toNat
    ∧ (t.hemEnd h code).getF Fld.LDG_HEM_PROG_PCT = t.getF Fld.LDG_HEM_PROG_PCT
    ∧ Safety.recorded s (t.hemEnd h code) c code ∧ (t.hemEnd h code).mem = t.mem ∧ (t.hemEnd h code).bays = t.bays := by
  rw [hemEnd_eq hcmd]
  have hkept := hemEnded_keeps t code
  obtain ⟨hstate, hcode, hpct⟩ := hemEnded_shows t code
  have hin' : InCommand s (t.hemEnded code) k c st := hin.keeps (State.setFs_host ..) hkept (by decide)
  have hhem : (t.hemEnded code).ldg.hem = none := congrArg Ledger.hem (State.setFs_ldg ..)
  generalize t.hemEnded code = u at hkept hstate hcode hpct hin' hhem ⊢
  have hend := hin'.finish_keeps code 0 (BitVec.ofNat 64 ((u.cmd k).elim 0 fun c => u.positionOf c.op))
  have hprog : ¬ ringOf c RegId.LDG_HEM_PROG.addr := not_ringOf Nat.one_pos Nat.one_pos (by decide)
  obtain ⟨hldg, -, -⟩ := finishCmd_keeps u k code 0 (BitVec.ofNat 64 ((u.cmd k).elim 0 fun c => u.positionOf c.op))
  exact ⟨(congrArg Ledger.hem hldg).trans hhem, (hend.getF _ hprog).trans hstate, (hend.getF _ hprog).trans hcode,
    (hend.getF _ hprog).trans hpct, hin'.recorded hk .., hend.mem.trans hkept.mem, hend.bays.trans hkept.bays⟩

/-- A failed hem ends with its code. -/
theorem opHemDone_failed {code : Code} (hhem : s.ldg.hem = some h) (hfail : h.fail = some code) : opHemDone code s = s.hemEnd h code := by
  unfold opHemDone
  simp [hhem, hfail]

/-- A hem of which every store is acknowledged, the manifest last, ends with DONE at 100 %. -/
theorem opHemDone_done (hhem : s.ldg.hem = some h) (hfail : h.fail = none) (hclosing : h.closing = true)
    (hleft : s.fab.reqsLeft (.ledger .hem) = false) : opHemDone cDONE s = (s.setF Fld.LDG_HEM_PROG_PCT 10000).hemEnd h cDONE := by
  unfold opHemDone
  simp [hhem, hfail, hclosing, hleft]

/-! #### SCRUB and CIRCUIT (R252, R345) -/

theorem opScrub_starts (h : Safety.starts s k 0x30 c) (hscrub : s.hbm.scrub = none) :
    opScrub k s = ((s.begun c).updHbm fun h => { h with scrub := some 0 }).setFs
      [(Fld.HBM_SCRUB_PROG_PCT, 0), (Fld.HBM_SCRUB_PROG_STATE, 1), (Fld.HBM_SCRUB_PROG_POSITION, 0)] := by
  unfold opScrub
  rw [begin_of_starts h (by rw [hscrub]; rfl)]

theorem scrubProg_shows (s : State) :
    let t := s.setFs [(Fld.HBM_SCRUB_PROG_PCT, 0), (Fld.HBM_SCRUB_PROG_STATE, 1), (Fld.HBM_SCRUB_PROG_POSITION, 0)]
    LedgerKeeps (ofKinds [.HBM_SCRUB_PROG]) s t ∧ t.host = s.host ∧ t.getF Fld.HBM_SCRUB_PROG_STATE = 1 := by
  refine ⟨.setFsOf .refl (List.mem_singleton_self _) Nat.one_pos Nat.one_pos rfl, State.setFs_host .., ?_⟩
  simp (disch := decide) only [setFs_cons, setFs_nil, State.getF_setF_apart, State.getF_setF_self]
  rfl

theorem opCircuit_arms (h : Safety.starts s k 0x33 c) (hopen : s.circuitOpen = true) :
    opCircuit k s = ((s.begun c).setFs [(Fld.OPT_CIRCUIT_PORTS, c.f 0 0 16), (Fld.OPT_CIRCUIT_MARK_MARK, (c.op_ 1).toNat)]).circuitArm := by
  unfold opCircuit
  rw [begin_of_starts h (by rw [hopen]; rfl)]
  rfl

/-- A field of 64 bits is its register. -/
theorem reg_of_getF {f : Field} {w : Word} (hlo : f.lo = 0) (hwidth : f.width = 64) (h : s.getF f = w.toNat) : s.reg f.reg = w := by
  rw [State.getF, hlo, hwidth] at h
  refine BitVec.eq_of_toNat_eq (Eq.trans ?_ h)
  simp [fieldOf]

theorem circuitArmed_shows (s : State) (ports : Nat) (mark : Word) (hports : ports < 2 ^ 16) :
    let t := (s.setFs [(Fld.OPT_CIRCUIT_PORTS, ports), (Fld.OPT_CIRCUIT_MARK_MARK, mark.toNat)]).circuitArm
    t.getF Fld.OPT_CIRCUIT_STATE = 1 ∧ t.getF Fld.OPT_CIRCUIT_PORTS = ports ∧ t.reg RegId.OPT_CIRCUIT_MARK.addr = mark := by
  have hmark (t : State) (h : t.getF Fld.OPT_CIRCUIT_MARK_MARK = mark.toNat) : t.reg RegId.OPT_CIRCUIT_MARK.addr = mark :=
    reg_of_getF rfl rfl h
  refine ⟨?_, ?_, hmark _ ?_⟩
  all_goals
    unfold State.circuitArm
    simp (disch := decide) only [setFs_cons, setFs_nil, State.getF_setF_apart, State.getF_setF_self]
  · rfl
  · exact Nat.mod_eq_of_lt hports
  · exact Nat.mod_eq_of_lt mark.isLt

theorem circuitArmed_host (s : State) (ports mark : Nat) :
    (s.setFs [(Fld.OPT_CIRCUIT_PORTS, ports), (Fld.OPT_CIRCUIT_MARK_MARK, mark)]).circuitArm.host = s.host :=
  (State.setFs_host ..).trans (State.setFs_host ..)

theorem circuitArmed_keeps (s : State) (ports mark : Nat) : LedgerKeeps (ofKinds [.OPT_CIRCUIT, .OPT_CIRCUIT_MARK]) s
    (s.setFs [(Fld.OPT_CIRCUIT_PORTS, ports), (Fld.OPT_CIRCUIT_MARK_MARK, mark)]).circuitArm := by
  rw [setFs_cons]
  refine .setFsOf (.setFsOf (.setF .refl _ ?_) (List.mem_cons_of_mem _ (List.mem_singleton_self _)) Nat.one_pos Nat.one_pos rfl)
    (List.mem_cons_self ..) Nat.one_pos Nat.one_pos rfl
  exact ofKinds_addr (List.mem_cons_self ..) Nat.one_pos Nat.one_pos

end

end Sys2Proof.Machine
end

section

/-! ### Digests, provenance records and the host's fold (R257, R389, R392) -/

set_option Elab.async false

namespace Sys2Proof.Machine

section
variable {s t u : State} {k : Nat} {c : HostCmd} {st : CmdStage} {l : List RegId}

/-! #### The map and the reserve rest on few registers -/

theorem lls_segment_lt {a : Nat} (h : regionOf a = .lls) : (a - llsBase) / 0x800000 < 64 := by
  unfold regionOf at h
  unfold llsBase at h ⊢
  split_ifs at h
  omega

/-- The map rests on the live bands and the segments' modes. -/
theorem mapped_of_getF (hbands : t.getF Fld.HBM_CAP_LIVE_BANDS = s.getF Fld.HBM_CAP_LIVE_BANDS)
    (hseg : ∀ j < 64, t.getF (Fld.LLS_SEG_MODE j) = s.getF (Fld.LLS_SEG_MODE j)) (a n : Nat) : t.mapped a n = s.mapped a n := by
  unfold State.mapped State.bandLive
  rw [hbands]
  dsimp only
  split
  · rfl
  · split
    · rfl
    · next ha =>
      by_cases hz : regionOf (a + n - 1) = .lls
      · have hlast := lls_segment_lt hz
        refine congrArg (decide _ && ·) (Bool.eq_iff_iff.mpr ?_)
        simp only [List.all_eq_true, List.mem_range]
        exact forall₂_congr fun j hj => by rw [hseg _ (by omega)]
      · simp [hz]
    · rfl
    · rfl
    · rfl

/-- Neither the map nor the reserve rests on registers of other kinds. -/
theorem mapped_of_keeps (h : LedgerKeeps (ofKinds l) s t) (hcap : .HBM_CAP ∉ l) (hseg : .LLS_SEG ∉ l) (a n : Nat) :
    t.mapped a n = s.mapped a n :=
  mapped_of_getF (h.getF _ (not_ofKinds Nat.one_pos Nat.one_pos hcap)) (fun _ hj => h.getF _ (not_ofKinds hj Nat.one_pos hseg)) a n

theorem reserve_of_keeps (h : LedgerKeeps (ofKinds l) s t) (hres : .LDG_RES ∉ l) : t.reserve = s.reserve := by
  have hfield (lo width : Nat) : t.getF ⟨RegId.LDG_RES.addr, lo, width⟩ = s.getF ⟨RegId.LDG_RES.addr, lo, width⟩ :=
    h.getF _ (not_ofKinds Nat.one_pos Nat.one_pos hres)
  unfold State.reserve
  rw [show t.getF Fld.LDG_RES_BASE = s.getF Fld.LDG_RES_BASE from hfield ..,
    show t.getF Fld.LDG_RES_LOCAL_GIB = s.getF Fld.LDG_RES_LOCAL_GIB from hfield ..,
    show t.getF Fld.LDG_RES_PEER_GIB = s.getF Fld.LDG_RES_PEER_GIB from hfield ..]

/-! #### DIGEST (R389) -/

/-- The leaves of a class's regions. -/
def State.classLeaves (s : State) (cls : Nat) : List Leaf := (s.regionsOf cls).flatMap fun i => leavesOf i (s.regionAt i).1 (s.regionAt i).2

theorem cutParts_ne_nil {n m : Nat} (hn : 0 < n) (hm : 0 < m) : cutParts n m ≠ [] := by
  intro e
  have hlen := congrArg List.length e
  simp only [cutParts, List.length_map, List.length_range, List.length_nil, Nat.div_eq_zero_iff] at hlen
  omega

theorem classLeaves_ne_nil {cls : Nat} (h : s.regionsOf cls ≠ []) : s.classLeaves cls ≠ [] := by
  obtain ⟨i, hi⟩ := List.exists_mem_of_ne_nil _ h
  have hon := (List.mem_filter.mp hi).2
  have hlen : 0 < (s.regionAt i).2 := by
    simp only [State.regionOn, Bool.and_eq_true, decide_eq_true_eq] at hon
    exact hon.2
  intro e
  have := List.flatMap_eq_nil_iff.mp e i hi
  exact cutParts_ne_nil (by decide : 0 < leafSize) hlen (List.map_eq_nil_iff.mp this)

/-- The state of a class digest that starts. -/
def State.digestBegun (s : State) (cls : Nat) : State :=
  (s.updLdg fun x => { x with digest := some ⟨cls, s.classLeaves cls, (s.classLeaves cls).length, []⟩ }).digestProg 1 0
    (s.classLeaves cls).length cDONE

theorem digestBegun_keeps (s : State) (cls : Nat) : LedgerKeeps (ofKinds [.LDG_DIGEST_PROG]) s (s.digestBegun cls) := by
  exact .setFsOf (.frame .refl) (List.mem_singleton_self _) Nat.one_pos Nat.one_pos rfl

theorem digestBegun_shows (s : State) (cls : Nat) : (s.digestBegun cls).host = s.host
    ∧ (s.digestBegun cls).ldg.digest = some ⟨cls, s.classLeaves cls, (s.classLeaves cls).length, []⟩ :=
  ⟨State.setFs_host .., congrArg Ledger.digest (State.setFs_ldg ..)⟩

/-- A digest starts with every leaf of its regions where none was digested as it was written and all lie in memory. -/
theorem digestStart_begun {cls : Nat} (hnone : s.ldg.digest = none) (hcls : cls < 4) (hne : s.regionsOf cls ≠ [])
    (hregions : ∀ i ∈ s.regionsOf cls, s.writtenDigest i = none ∧ s.inMemory (s.regionAt i).1 (s.regionAt i).2 = true) :
    s.digestStart cls = (s.digestBegun cls, cDONE) := by
  have hfilter : (s.regionsOf cls).filter (fun i => (s.writtenDigest i).isNone) = s.regionsOf cls :=
    List.filter_eq_self.mpr fun i hi => by rw [(hregions i hi).1]; rfl
  have hkept := digestBegun_keeps s cls
  have hin : ((s.regionsOf cls).all fun i =>
      (s.digestBegun cls).inMemory ((s.digestBegun cls).regionAt i).1 ((s.digestBegun cls).regionAt i).2) = true := by
    refine List.all_eq_true.mpr fun i hi => ?_
    have hi64 : i < 64 := List.mem_range.mp (List.mem_filter.mp hi).1
    have hat : (s.digestBegun cls).regionAt i = s.regionAt i :=
      Prod.ext (hkept.getF _ (not_ofKinds hi64 Nat.one_pos (by decide))) (hkept.getF _ (not_ofKinds hi64 Nat.one_pos (by decide)))
    rw [hat, State.inMemory, mapped_of_keeps hkept (by decide) (by decide)]
    exact (hregions i hi).2
  have hleaves : (s.classLeaves cls).isEmpty = false := by simpa using classLeaves_ne_nil hne
  unfold State.digestStart
  rw [hnone, if_neg (by decide), if_neg (Nat.not_le.mpr hcls)]
  dsimp only
  rw [hfilter]
  change (if (!(s.regionsOf cls).all fun i =>
      (s.digestBegun cls).inMemory ((s.digestBegun cls).regionAt i).1 ((s.digestBegun cls).regionAt i).2) = true
    then _ else if (s.classLeaves cls).isEmpty = true then _ else (s.digestBegun cls, cDONE)) = _
  rw [hin, hleaves]
  rfl

theorem opDigest_begun (h : Safety.starts s k 0x23 c) (hnone : s.ldg.digest = none) (hcls : c.f 0 0 3 < 4)
    (hne : s.regionsOf (c.f 0 0 3) ≠ [])
    (hregions : ∀ i ∈ s.regionsOf (c.f 0 0 3), s.writtenDigest i = none ∧ s.inMemory (s.regionAt i).1 (s.regionAt i).2 = true) :
    opDigest k s = (s.begun c).digestBegun (c.f 0 0 3) := by
  unfold opDigest
  rw [begin_of_starts h (by rw [hnone]; simp [operandCode, hcls])]
  exact congrArg Prod.fst (digestStart_begun (s := s.begun c) hnone hcls hne hregions)

/-! #### RECORD (R392, R393) -/

theorem hostWrite_host_only (s : State) (a : Nat) (l : List Byte) :
    s.hostWrite a l = { s with host := { s.host with mem := (s.hostWrite a l).host.mem } } := by
  induction l generalizing s a with
  | nil => rfl
  | cons v l ih =>
    rw [State.hostWrite, ih]
    rfl

/-- What the host's memory holds after a write rests on what it held. -/
theorem hostWrite_mem_congr (h : t.host.mem = s.host.mem) (a : Nat) (l : List Byte) :
    (t.hostWrite a l).host.mem = (s.hostWrite a l).host.mem := by
  induction l generalizing s t a with
  | nil => exact h
  | cons v l ih => exact ih (congrArg (smapSet memDefault · a v) h) _

theorem signedRecord_begun (s : State) (c : HostCmd) (first last : Nat) (rs : List StepRec) (sign : Bool) :
    (s.begun c).signedRecord first last rs sign = s.signedRecord first last rs sign := rfl

/-- RECORD of steps in the history: the record is counted, written to the host, and the command ends. -/
theorem opRecord_records (h : Safety.starts s k 0x24 c) (hnone : s.ldg.digest = none) {rs : List StepRec}
    (hsteps : s.ldg.steps (c.op_ 0).toNat (c.op_ 1).toNat = some rs) :
    opRecord k s = (({ s.begun c with store := { s.store with records := s.store.records + 1 } }).hostWrite (c.op_ 2).toNat
      (s.signedRecord (c.op_ 0).toNat (c.op_ 1).toNat rs (c.f 3 0 1 == 1))).finishCmd k cDONE 0 (if c.f 3 0 1 = 1 then 5267 else 640) := by
  have hrun : (s.begun c).ldg.steps (c.op_ 0).toNat (c.op_ 1).toNat = some rs := hsteps
  unfold opRecord
  rw [begin_of_starts h (by rw [hnone, hsteps]; rfl)]
  change (match (s.begun c).ldg.steps (c.op_ 0).toNat (c.op_ 1).toNat with
    | none => _
    | some rs => _) = _
  rw [hrun, ← signedRecord_begun s c]
  rfl

/-- RECORD of steps that the history does not hold ends with RANGE. -/
theorem opRecord_range (h : Safety.starts s k 0x24 c) (hnone : s.ldg.digest = none)
    (hsteps : s.ldg.steps (c.op_ 0).toNat (c.op_ 1).toNat = none) : opRecord k s = s.finishCmd k cRANGE :=
  begin_refused h (by decide) (by rw [hnone, hsteps]; rfl)

/-- The record written: what the host's memory then holds, and what is kept. -/
theorem recordWritten_keeps (s : State) (c : HostCmd) (a : Nat) (bs : List Byte) :
    let t := ({ s.begun c with store := { s.store with records := s.store.records + 1 } }).hostWrite a bs
    t.host.mem = (s.hostWrite a bs).host.mem ∧ t.host.cmds = (s.begun c).host.cmds ∧ t.host.waiting = s.host.waiting ∧ t.regs = s.regs
    ∧ t.mem = s.mem ∧ t.bays = s.bays ∧ t.store = { s.store with records := s.store.records + 1 } := by
  intro t
  have ht : t = _ := hostWrite_host_only ..
  refine ⟨hostWrite_mem_congr (s := s) (t := { s.begun c with store := _ }) rfl a bs, ?_⟩
  rw [ht]
  exact ⟨rfl, rfl, rfl, rfl, rfl, rfl⟩

/-! #### The host's fold (R257) -/

theorem opHostFold_range (h : Safety.starts s k 0x31 c) (hfold : s.hbm.fold = none) (hfail : c.f 0 8 1 = 0)
    (hwait : c.f 0 0 8 ∉ s.hbm.waiting) : opHostFold k s = s.finishCmd k cRANGE :=
  begin_refused h (by decide) (by simp [hfold, hfail, hwait, operandCode])

theorem opHostFold_starts (h : Safety.starts s k 0x31 c) (hfold : s.hbm.fold = none) (hfail : c.f 0 8 1 = 0)
    (hwait : c.f 0 0 8 ∈ s.hbm.waiting) (hfolds : s.getF Fld.HBM_CAP_FOLDS ≠ 16) :
    opHostFold k s = (s.begun c).startFold (c.f 0 0 8) := by
  have hrun : ¬ ((s.begun c).hbm.fold.isSome ∨ (!(s.begun c).hbm.waiting.contains (c.f 0 0 8)) = true) := by
    simp [State.begun, State.setCmd, State.updHost, hfold, hwait]
  have hstarts := startFold_starts (s := s.begun c) (pc := c.f 0 0 8) hfolds
  unfold opHostFold
  rw [begin_of_starts h (by simp [hfold, hfail, hwait, operandCode])]
  have hoperand (i lo width : Nat) : ({ c with stage := .running } : HostCmd).f i lo width = c.f i lo width := rfl
  simp only [hoperand, hfail, zero_ne_one, if_false]
  rw [if_neg hrun, if_pos (by rw [hstarts.fold]; rfl)]

end

end Sys2Proof.Machine
end

section

/-! ### Restores (R421 to R424) -/

set_option Elab.async false

namespace Sys2Proof.Machine

section
variable {s t u r : State} {k : Nat} {c : HostCmd} {st : CmdStage} {l : List RegId} {P : Nat → Prop} {a : RestoreArgs} {j : RestoreJob}
  {m : List Byte} {x : Code × List Byte}

/-! #### What a restore reads first (step 1 of R422) -/

/-- The parameters that a RESTORE's operands name. -/
def State.restoreArgs (s : State) (c : HostCmd) : RestoreArgs :=
  ⟨s.restoreSource (c.f 0 0 2) (BitVec.ofNat 28 (c.f 1 0 28)) (c.f 2 0 48),
    if c.f 0 4 1 = 1 then some (s.restoreSource (c.f 0 2 2) (BitVec.ofNat 28 (c.f 3 0 28)) (c.f 4 0 48)) else none, c.f 0 5 2,
    c.f 0 7 1 == 1⟩

/-- A restore in execution, before it reads anything. -/
def State.restoreBegun (s : State) (c : HostCmd) (k : Nat) (a : RestoreArgs) (x : Code × List Byte) : State :=
  ((s.begun c).setFs [(Fld.LDG_RESTORE_PROG_PCT, 0), (Fld.LDG_RESTORE_PROG_STATE, 1), (Fld.LDG_RESTORE_PROG_CODE, 0)]).updLdg
    fun l => { l with restore := some ⟨k, a, x, [], none, [], []⟩ }

/-- The status of a restore as it starts to read. -/
def State.statusCleared (s : State) : State :=
  s.setFs [(Fld.LDG_RESTORE_STATUS_FIRST_FAIL, 0xFF), (Fld.LDG_RESTORE_STATUS_SKEW_ITEM, 0xFF), (Fld.LDG_RESTORE_STATUS_FAILS, 0),
    (Fld.LDG_RESTORE_STATUS_REFETCHED, 0), (Fld.LDG_RESTORE_PROG_POSITION, 0)]

theorem opRestore_begun (h : Safety.starts s k 0x22 c) (hnone : s.ldg.restore = none)
    (hmal : ((c.f 0 0 2 == 2 || (c.f 0 4 1 == 1 && c.f 0 2 2 == 2)) && c.f 0 5 2 != 1) = false) (hset : c.f 0 5 2 ≠ 3)
    (v w : HostReadResult) : opRestore k v w s = (s.restoreBegun c k (s.restoreArgs c) (hostBytes v w)).restoreGo := by
  unfold opRestore
  rw [begin_of_starts h (by rw [hnone, hmal, beq_eq_false_iff_ne.mpr hset]; rfl)]
  rfl

theorem restoreBegun_keeps (s : State) (c : HostCmd) (k : Nat) (a : RestoreArgs) (x : Code × List Byte) :
    LedgerKeeps (ofKinds [.LDG_RESTORE_PROG]) (s.begun c) (s.restoreBegun c k a x) := by
  exact .frame (.setFsOf .refl (List.mem_singleton_self _) Nat.one_pos Nat.one_pos rfl)

theorem restoreBegun_shows (s : State) (c : HostCmd) (k : Nat) (a : RestoreArgs) (x : Code × List Byte) :
    (s.restoreBegun c k a x).getF Fld.LDG_RESTORE_PROG_STATE = 1 ∧ (s.restoreBegun c k a x).host = (s.begun c).host
    ∧ (s.restoreBegun c k a x).fab = s.fab := by
  refine ⟨(getF_of_regs (s := (s.begun c).setFs _) rfl _).trans ?_, State.setFs_host .., State.setFs_fab ..⟩
  simp (disch := decide) only [setFs_cons, setFs_nil, State.getF_setF_apart, State.getF_setF_self]
  rfl

theorem statusCleared_keeps (s : State) : LedgerKeeps (ofKinds [.LDG_RESTORE_STATUS, .LDG_RESTORE_PROG]) s s.statusCleared := by
  refine .setFs .refl ?_
  have hstatus : ofKinds [.LDG_RESTORE_STATUS, .LDG_RESTORE_PROG] RegId.LDG_RESTORE_STATUS.addr :=
    ofKinds_addr (List.mem_cons_self ..) Nat.one_pos Nat.one_pos
  have hprog : ofKinds [.LDG_RESTORE_STATUS, .LDG_RESTORE_PROG] RegId.LDG_RESTORE_PROG.addr :=
    ofKinds_addr (List.mem_cons_of_mem _ (List.mem_cons_self ..)) Nat.one_pos Nat.one_pos
  exact List.forall_mem_cons.mpr ⟨hstatus, List.forall_mem_cons.mpr ⟨hstatus, List.forall_mem_cons.mpr ⟨hstatus,
    List.forall_mem_cons.mpr ⟨hstatus, List.forall_mem_singleton.mpr hprog⟩⟩⟩⟩

/-- Up to its first read a restore changes its own progress and status alone. -/
theorem restoreCleared_keeps (s : State) (c : HostCmd) (k : Nat) (a : RestoreArgs) (x : Code × List Byte) :
    LedgerKeeps (ofKinds [.LDG_RESTORE_STATUS, .LDG_RESTORE_PROG]) s (s.restoreBegun c k a x).statusCleared := by
  have hbegun : LedgerKeeps (ofKinds [.LDG_RESTORE_STATUS, .LDG_RESTORE_PROG]) s (s.begun c) := .frame .refl
  exact (hbegun.trans ((restoreBegun_keeps s c k a x).mono (ofKinds_mono fun _ => List.mem_cons_of_mem _))).trans (statusCleared_keeps _)

/-- A part of the local slot is read there. -/
theorem sourceRead_here {n : Nat} (hn : n ≠ 0) (hhere : a.primary.here = true) (hlives : s.slotLives = true)
    (hread : s.ownRead 3 s.reserve.1 n = (s, cDONE, m)) : s.sourceRead a false 0 n = (s, cDONE, m) := by
  unfold State.sourceRead
  simp only [Bool.false_eq_true, if_false, if_neg hn, hhere, hlives, if_true, Nat.add_zero]
  exact hread

/-- A part of another device's slot of which the fabric has brought nothing is noted as the one to be read. -/
theorem sourceRead_away {n : Nat} (hn : n ≠ 0) (hhere : a.primary.here = false) (hj : s.ldg.restore = some j) (hgot : j.got = [])
    (hwant : j.want = none) : s.sourceRead a false 0 n
      = (s.updLdg fun l => { l with restore := some { j with want := some ⟨false, 0, n⟩ } }, cLINK_LOST, []) := by
  unfold State.sourceRead State.restorePart
  simp only [Bool.false_eq_true, if_false, if_neg hn, hhere, hj, hgot, hwant, List.find?_nil, Option.none_or]

/-! #### How a restore runs (R422 to R424) -/

theorem restoreRun_failed {code : Code} {bs : List Byte} (h : u.statusCleared.restoreManifest a = (r, code, bs)) (hcode : code ≠ cDONE) :
    u.restoreRun a x = (r, code) := by
  unfold State.statusCleared at h
  unfold State.restoreRun
  simp only [h, ne_eq, hcode, not_false_eq_true, if_true]

/-- With a sound manifest of no regions, whose own values are taken, the cursor, the step number and the streams are set. -/
theorem restoreRun_noRegions (h : u.statusCleared.restoreManifest a = (r, cDONE, m)) (hregions : manRegions m = []) (hset : a.set = 0)
    (hman : a.fromManifest = true) : u.restoreRun a x = (r.restoreCursor m, cDONE) := by
  have hnone : inSet 0 m = [] := by simp [inSet, hregions]
  unfold State.statusCleared at h
  unfold State.restoreRun
  have hok : r.regionsOk ([] : List ManRegion) = true := rfl
  simp [h, hnone, hman, hset, hok, restoreRegions]

theorem restoreManifest_sound (h : s.sourceRead a false 0 8192 = (s, cDONE, m)) (hmagic : manMagic m = true) (hself : manSelf m = true) :
    s.restoreManifest a = (s, cDONE, m) := by
  unfold State.restoreManifest
  simp [h, hmagic, hself]

theorem restoreManifest_magic (h : s.sourceRead a false 0 8192 = (s, cDONE, m)) (hmagic : manMagic m = false) :
    s.restoreManifest a = (s, cRANGE, []) := by
  unfold State.restoreManifest
  simp [h, hmagic]

theorem restoreManifest_unread {bs : List Byte} {code : Code} (h : s.sourceRead a false 0 8192 = (r, code, bs)) (hcode : code ≠ cDONE) :
    s.restoreManifest a = (r, code, bs) := by
  unfold State.restoreManifest
  simp [h, hcode]

/-! #### The end of a restore -/

/-- What a restore's progress shows at its end. -/
def State.restoreEnded (s : State) (code : Code) : State :=
  (s.updLdg fun l => { l with restore := none }).setFs [(Fld.LDG_RESTORE_PROG_PCT, if code = cDONE then 10000 else 0),
    (Fld.LDG_RESTORE_PROG_STATE, if code = cDONE then 2 else 3), (Fld.LDG_RESTORE_PROG_CODE, code.toNat)]

theorem restoreEnded_keeps (s : State) (code : Code) : LedgerKeeps (ofKinds [.LDG_RESTORE_PROG]) s (s.restoreEnded code) := by
  exact .setFsOf (.frame .refl) (List.mem_singleton_self _) Nat.one_pos Nat.one_pos rfl

theorem restoreEnded_shows (s : State) (code : Code) :
    (s.restoreEnded code).getF Fld.LDG_RESTORE_PROG_STATE = (if code = cDONE then 2 else 3)
    ∧ (s.restoreEnded code).getF Fld.LDG_RESTORE_PROG_CODE = code.toNat := by
  unfold State.restoreEnded
  simp (disch := decide) only [setFs_cons, setFs_nil, State.getF_setF_apart, State.getF_setF_self]
  refine ⟨?_, Nat.mod_eq_of_lt code.isLt⟩
  split <;> rfl

/-- A restore that wants no part of another device ends. -/
theorem restoreGo_ends {code : Code} (hj : u.ldg.restore = some j) (hwant : j.want = none)
    (hrun : u.restoreRun j.args j.supplied = (r, code)) (hr : r.ldg.restore = some j) :
    ∃ detail, u.restoreGo = (r.restoreEnded code).finishLong j.cmd code detail := by
  unfold State.restoreGo
  simp only [hj, hwant, hrun, hr, Option.bind_some, Option.isSome_none, Bool.false_eq_true, if_false]
  exact ⟨_, rfl⟩

/-- What the end of a restore shows, with its command held as in `s`. -/
theorem restoreEnd_shows (hin : InCommand s r k c st) (hk : c.k = k) (code : Code) (detail : Nat) :
    Safety.recorded s ((r.restoreEnded code).finishLong k code detail) c code
    ∧ ((r.restoreEnded code).finishLong k code detail).getF Fld.LDG_RESTORE_PROG_STATE = (if code = cDONE then 2 else 3)
    ∧ ((r.restoreEnded code).finishLong k code detail).getF Fld.LDG_RESTORE_PROG_CODE = code.toNat
    ∧ LedgerKeeps (fun a => ofKinds [.LDG_RESTORE_PROG] a ∨ ringOf c a) r ((r.restoreEnded code).finishLong k code detail) := by
  have hkept := restoreEnded_keeps r code
  obtain ⟨hstate, hcode⟩ := restoreEnded_shows r code
  have hin' : InCommand s (r.restoreEnded code) k c st := hin.keeps (State.setFs_host ..) hkept (by decide)
  generalize r.restoreEnded code = u at hkept hstate hcode hin' ⊢
  have hend := hin'.finish_keeps code detail (BitVec.ofNat 64 ((u.cmd k).elim 0 fun c => u.positionOf c.op))
  have hprog : ¬ ringOf c RegId.LDG_RESTORE_PROG.addr := not_ringOf Nat.one_pos Nat.one_pos (by decide)
  exact ⟨hin'.recorded hk .., (hend.getF _ hprog).trans hstate, (hend.getF _ hprog).trans hcode,
    (hkept.mono fun _ => .inl).trans (hend.mono fun _ => .inr)⟩

/-! #### The streams, the cursor and the step number (R424) -/

/-- A stream's key and counter set. -/
def State.rngSet (s : State) (p : (Word × Word) × Nat) : State :=
  (s.setReg (RegId.LDG_RNG_KEY.addr p.2) p.1.1).setReg (RegId.LDG_RNG_CTR.addr p.2) p.1.2

theorem restoreCursor_eq (s : State) (m : List Byte) : s.restoreCursor m
    = (((manRng m).zipIdx.foldl State.rngSet s).setF Fld.LDG_CURSOR_CURSOR (manNum m 32 8)).setF Fld.LDG_STEP_NUMBER (manNum m 8 8) := rfl

theorem rngSet_keeps {n : Nat} (p : List ((Word × Word) × Nat)) (h : ∀ q ∈ p, n ≤ q.2 ∧ q.2 < 64) :
    LedgerKeeps (fun a => ∃ i, n ≤ i ∧ i < 64 ∧ (a = RegId.LDG_RNG_KEY.addr i ∨ a = RegId.LDG_RNG_CTR.addr i)) s
      (p.foldl State.rngSet s) :=
  .foldl .refl fun _ q hq h' =>
    (h'.setReg _ ⟨q.2, (h q hq).1, (h q hq).2, .inl rfl⟩).setReg _ ⟨q.2, (h q hq).1, (h q hq).2, .inr rfl⟩

theorem zipIdx_bounds {p : List (Word × Word)} {n : Nat} (hlen : n + p.length ≤ 64) : ∀ q ∈ p.zipIdx n, n ≤ q.2 ∧ q.2 < 64 :=
  fun _ hq => ⟨List.le_snd_of_mem_zipIdx hq, by have := List.snd_lt_of_mem_zipIdx hq; omega⟩

/-- Streams set in ascending order show what they were set to. -/
theorem reg_foldl_rngSet {p : List (Word × Word)} {n i : Nat} {q : Word × Word} (hlen : n + p.length ≤ 64) (hq : p[i]? = some q) :
    ((p.zipIdx n).foldl State.rngSet s).reg (RegId.LDG_RNG_KEY.addr (n + i)) = q.1
    ∧ ((p.zipIdx n).foldl State.rngSet s).reg (RegId.LDG_RNG_CTR.addr (n + i)) = q.2 := by
  induction p generalizing s n i with
  | nil => simp at hq
  | cons y p ih =>
    rw [List.length_cons] at hlen
    rw [List.zipIdx_cons, List.foldl_cons]
    cases i with
    | succ i =>
      rw [List.getElem?_cons_succ] at hq
      rw [show n + (i + 1) = n + 1 + i by omega]
      exact ih (by omega) hq
    | zero =>
      obtain rfl : y = q := by simpa using hq
      have hn : n < 64 := by omega
      have hkept := rngSet_keeps (s := s.rngSet (y, n)) (p.zipIdx (n + 1)) (zipIdx_bounds (by omega))
      have hctr : RegId.LDG_RNG_KEY.addr n ≠ RegId.LDG_RNG_CTR.addr n := RegId.addr_ne _ _ hn Nat.one_pos hn Nat.one_pos (by decide)
      have hlater (q : RegId) (hq : q = .LDG_RNG_KEY ∨ q = .LDG_RNG_CTR) : ¬ ∃ i, n + 1 ≤ i ∧ i < 64
          ∧ (q.addr n = RegId.LDG_RNG_KEY.addr i ∨ q.addr n = RegId.LDG_RNG_CTR.addr i) := by
        rintro ⟨i, hi, hi', e⟩
        have hspec : n < q.spec.n1 ∧ 0 < q.spec.n2 := by rcases hq with rfl | rfl <;> exact ⟨hn, Nat.one_pos⟩
        have hsame : n = i := by
          rcases e with e | e
          · exact (RegId.addr_inj q .LDG_RNG_KEY hspec.1 hspec.2 hi' Nat.one_pos e).2.1
          · exact (RegId.addr_inj q .LDG_RNG_CTR hspec.1 hspec.2 hi' Nat.one_pos e).2.1
        omega
      rw [Nat.add_zero]
      exact ⟨(hkept.reg _ (hlater _ (.inl rfl))).trans ((State.reg_setReg_ne _ _ _ _ hctr).trans (State.reg_setReg_self ..)),
        (hkept.reg _ (hlater _ (.inr rfl))).trans (State.reg_setReg_self ..)⟩

theorem manNum_lt (m : List Byte) (o : Nat) : manNum m o 8 < 2 ^ 64 := by
  refine lt_of_lt_of_le (leNat_lt _) (Nat.pow_le_pow_right (by decide) ?_)
  rw [List.length_take]
  omega

/-- The registers that a restore's end sets (R424). -/
def restoredKinds : List RegId := [.LDG_RNG_KEY, .LDG_RNG_CTR, .LDG_CURSOR, .LDG_STEP]

theorem restoreCursor_keeps (s : State) (m : List Byte) : LedgerKeeps (ofKinds restoredKinds) s (s.restoreCursor m) := by
  have hrng := (rngSet_keeps (s := s) ((manRng m).zipIdx) (zipIdx_bounds (by simp [manRng]))).mono (Q := ofKinds restoredKinds) (by
    rintro a ⟨i, -, hi, rfl | rfl⟩
    · exact ofKinds_addr (by decide) hi Nat.one_pos
    · exact ofKinds_addr (by decide) hi Nat.one_pos)
  rw [restoreCursor_eq]
  exact (hrng.setF _ (ofKinds_addr (by decide) Nat.one_pos Nat.one_pos)).setF _ (ofKinds_addr (by decide) Nat.one_pos Nat.one_pos)

theorem foldl_rngSet_beside (s : State) (p : List ((Word × Word) × Nat)) :
    (p.foldl State.rngSet s).host = s.host ∧ (p.foldl State.rngSet s).ldg = s.ldg := by
  induction p generalizing s with
  | nil => exact ⟨rfl, rfl⟩
  | cons q p ih => exact ih (s.rngSet q)

/-- Neither the host interface nor the Ledger's own state changes. -/
theorem restoreCursor_beside (s : State) (m : List Byte) : (s.restoreCursor m).host = s.host ∧ (s.restoreCursor m).ldg = s.ldg := by
  obtain ⟨hhost, hldg⟩ := foldl_rngSet_beside s (manRng m).zipIdx
  rw [restoreCursor_eq]
  exact ⟨((State.setF_host ..).trans (State.setF_host ..)).trans hhost, ((State.setF_ldg ..).trans (State.setF_ldg ..)).trans hldg⟩

theorem restoreCursor_shows (s : State) (m : List Byte) : (s.restoreCursor m).getF Fld.LDG_CURSOR_CURSOR = manNum m 32 8
    ∧ (s.restoreCursor m).getF Fld.LDG_STEP_NUMBER = manNum m 8 8 % 2 ^ 48
    ∧ ∀ i < 64, (s.restoreCursor m).reg (RegId.LDG_RNG_KEY.addr i) = BitVec.ofNat 64 (manNum m (128 + 16 * i) 8)
      ∧ (s.restoreCursor m).reg (RegId.LDG_RNG_CTR.addr i) = BitVec.ofNat 64 (manNum m (136 + 16 * i) 8) := by
  rw [restoreCursor_eq]
  refine ⟨?_, State.getF_setF_self _ _ _ (by decide), fun i hi => ?_⟩
  · rw [State.getF_setF_apart _ _ _ _ (by decide), State.getF_setF_self _ _ _ (by decide)]
    exact Nat.mod_eq_of_lt (manNum_lt m 32)
  · have hq : (manRng m)[i]? = some (BitVec.ofNat 64 (manNum m (128 + 16 * i) 8), BitVec.ofNat 64 (manNum m (136 + 16 * i) 8)) := by
      simp [manRng, hi]
    have h := reg_foldl_rngSet (s := s) (n := 0) (by simp [manRng]) hq
    rw [Nat.zero_add] at h
    have hne (q : RegId) (hq : i < q.spec.n1) (hq' : 0 < q.spec.n2) (hstep : q ≠ .LDG_STEP) (hcursor : q ≠ .LDG_CURSOR) (w : State) :
        ((w.setF Fld.LDG_CURSOR_CURSOR (manNum m 32 8)).setF Fld.LDG_STEP_NUMBER (manNum m 8 8)).reg (q.addr i) = w.reg (q.addr i) := by
      rw [State.reg_setF_ne _ _ _ _ (RegId.addr_ne q .LDG_STEP hq hq' Nat.one_pos Nat.one_pos hstep),
        State.reg_setF_ne _ _ _ _ (RegId.addr_ne q .LDG_CURSOR hq hq' Nat.one_pos Nat.one_pos hcursor)]
    rw [hne .LDG_RNG_KEY hi Nat.one_pos (by decide) (by decide), hne .LDG_RNG_CTR hi Nat.one_pos (by decide) (by decide)]
    exact h

end

end Sys2Proof.Machine
end

section

/-! ### RESTORE from the local slot and from another device's (R421, R422, R424) -/

set_option Elab.async false

namespace Sys2Proof.Machine

section
variable {s t u r : State} {k : Nat} {c : HostCmd} {st : CmdStage} {l : List RegId} {a : RestoreArgs} {j : RestoreJob}
  {m : List Byte} {x : Code × List Byte} {v w : HostReadResult} {y : PairSrc} {rs : List Req} {d : DevCoord}

/-! #### The local slot -/

/-- A restore that ends at once, whatever it changed among the registers of some kinds. -/
theorem exec_restore_ends {code : Code} (h : Safety.starts s k 0x22 c) (hk : c.k = k) (hs : Safety.handedOver s)
    (hgo : opRestore k v w s = (s.restoreBegun c k a x).restoreGo) (hrun : (s.restoreBegun c k a x).restoreRun a x = (r, code))
    (hbeside : r.host = (s.restoreBegun c k a x).statusCleared.host ∧ r.ldg = (s.restoreBegun c k a x).statusCleared.ldg)
    (hkept : LedgerKeeps (ofKinds l) (s.restoreBegun c k a x).statusCleared r) (hring : .MSC_SQ_CFG ∉ l) (hcap : .HBM_CAP ∉ l) :
    ∃ s', exec (.restore k v w) s = .next s' ∧ Safety.recorded s s' c code
      ∧ s'.getF Fld.LDG_RESTORE_PROG_STATE = (if code = cDONE then 2 else 3) ∧ s'.getF Fld.LDG_RESTORE_PROG_CODE = code.toNat
      ∧ LedgerKeeps (fun a => ofKinds [.LDG_RESTORE_PROG] a ∨ ringOf c a) r s'
      ∧ LedgerKeeps (fun a => ofKinds (.LDG_RESTORE_STATUS :: .LDG_RESTORE_PROG :: l) a ∨ ringOf c a) s s' := by
  obtain ⟨-, hhost, -⟩ := restoreBegun_shows s c k a x
  have hbefore := restoreCleared_keeps s c k a x
  have hldg : (s.restoreBegun c k a x).statusCleared.ldg.restore = some ⟨k, a, x, [], none, [], []⟩ :=
    congrArg Ledger.restore (State.setFs_ldg ..)
  have hhost' : (s.restoreBegun c k a x).statusCleared.host = (s.begun c).host := (State.setFs_host ..).trans hhost
  obtain ⟨detail, hend⟩ := restoreGo_ends (j := ⟨k, a, x, [], none, [], []⟩) rfl rfl hrun ((congrArg Ledger.restore hbeside.2).trans hldg)
  rw [hend] at hgo
  generalize (s.restoreBegun c k a x).statusCleared = t at hbefore hkept hbeside hhost'
  have hin : InCommand s r k c .running :=
    ((InCommand.start h.1 hk).keeps hhost' ⟨hbefore.mem, hbefore.bays, hbefore.hbm, hbefore.ended, hbefore.lost, hbefore.reg⟩
      (by decide)).keeps hbeside.1 hkept hring
  obtain ⟨hrecorded, hstate, hcode, hkept'⟩ := restoreEnd_shows hin hk code detail
  generalize (r.restoreEnded code).finishLong k code detail = s' at hgo hrecorded hstate hcode hkept'
  have hall : LedgerKeeps (fun a => ofKinds (.LDG_RESTORE_STATUS :: .LDG_RESTORE_PROG :: l) a ∨ ringOf c a) s s' := by
    refine ((hbefore.mono ?_).trans (hkept.mono ?_)).trans (hkept'.mono ?_)
    · exact fun a ha => .inl (ofKinds_mono (fun _ => List.mem_append_left l) a ha)
    · exact fun a ha => .inl (ofKinds_mono (fun _ => List.mem_append_right [RegId.LDG_RESTORE_STATUS, .LDG_RESTORE_PROG]) a ha)
    · exact fun a ha => ha.imp_left (ofKinds_mono (fun _ hq => List.mem_append_left l (List.mem_cons_of_mem _ hq)) a)
  have hcap' : ¬ (ofKinds (.LDG_RESTORE_STATUS :: .LDG_RESTORE_PROG :: l) RegId.HBM_CAP.addr ∨ ringOf c RegId.HBM_CAP.addr) := by
    rintro (h' | h')
    · exact not_ofKinds Nat.one_pos Nat.one_pos (by simp [hcap]) h'
    · exact not_ringOf Nat.one_pos Nat.one_pos (by decide) h'
  refine ⟨s', ?_, hrecorded, hstate, hcode, hkept', hall⟩
  change Host.Outcome.next (opRestore k v w s).settledAll = _
  rw [hgo, State.settledAll_of_handedOver _ (hall.handedOver hcap' hs)]

/-- The manifest of the local slot, read as the restore starts. -/
theorem sourceRead_local (hhere : a.primary.here = true) (hlives : s.slotLives = true)
    (hread : (s.restoreBegun c k a x).statusCleared.ownRead 3 s.reserve.1 8192 = ((s.restoreBegun c k a x).statusCleared, cDONE, m)) :
    (s.restoreBegun c k a x).statusCleared.sourceRead a false 0 8192 = ((s.restoreBegun c k a x).statusCleared, cDONE, m) := by
  have hkept := restoreCleared_keeps s c k a x
  generalize (s.restoreBegun c k a x).statusCleared = t at hread hkept ⊢
  have hres : t.reserve = s.reserve := reserve_of_keeps hkept (by decide)
  refine sourceRead_here (by decide) hhere ?_ (by rw [hres]; exact hread)
  rw [State.slotLives, hres, mapped_of_keeps hkept (by decide) (by decide)]
  exact hlives

/-- The parameters of a restore of all regions from the local slot, the values taken from its manifest. -/
def localArgs (c : HostCmd) : RestoreArgs := ⟨⟨true, BitVec.ofNat 28 (c.f 1 0 28), c.f 2 0 48⟩, none, 0, true⟩

theorem opRestore_local (h : Safety.starts s k 0x22 c) (hnone : s.ldg.restore = none) (hfrom : c.f 0 0 2 = 0) (hfall : c.f 0 4 1 = 0)
    (hset : c.f 0 5 2 = 0) (hman : c.f 0 7 1 = 1) : opRestore k v w s = (s.restoreBegun c k (localArgs c) (hostBytes v w)).restoreGo := by
  have hargs : s.restoreArgs c = localArgs c := by simp [State.restoreArgs, State.restoreSource, localArgs, hfrom, hfall, hset, hman]
  rw [← hargs]
  exact opRestore_begun h hnone (by rw [hfrom, hfall]; rfl) (by rw [hset]; decide) v w

/-- A sound manifest without regions sets the cursor, the step number and the streams (R424). -/
theorem exec_restore_done (h : Safety.starts s k 0x22 c) (hk : c.k = k) (hs : Safety.handedOver s)
    (hgo : opRestore k v w s = (s.restoreBegun c k a x).restoreGo) (hset : a.set = 0) (hman : a.fromManifest = true)
    (hsrc : (s.restoreBegun c k a x).statusCleared.sourceRead a false 0 8192 = ((s.restoreBegun c k a x).statusCleared, cDONE, m))
    (hmagic : manMagic m = true) (hself : manSelf m = true) (hregions : manRegions m = []) :
    ∃ s', exec (.restore k v w) s = .next s' ∧ Safety.recorded s s' c cDONE ∧ s'.getF Fld.LDG_CURSOR_CURSOR = manNum m 32 8
      ∧ s'.getF Fld.LDG_STEP_NUMBER = manNum m 8 8 % 2 ^ 48
      ∧ (∀ i < 64, s'.reg (RegId.LDG_RNG_KEY.addr i) = BitVec.ofNat 64 (manNum m (128 + 16 * i) 8)
        ∧ s'.reg (RegId.LDG_RNG_CTR.addr i) = BitVec.ofNat 64 (manNum m (136 + 16 * i) 8))
      ∧ s'.getF Fld.LDG_RESTORE_PROG_STATE = 2 ∧ s'.mem = s.mem ∧ s'.bays = s.bays := by
  have hrun := restoreRun_noRegions (x := x) (restoreManifest_sound hsrc hmagic hself) hregions hset hman
  obtain ⟨s', hexec, hrecorded, hstate, -, hlast, hall⟩ := exec_restore_ends h hk hs hgo hrun (restoreCursor_beside ..)
    (restoreCursor_keeps ..) (by decide) (by decide)
  obtain ⟨hcursor, hstep, hrng⟩ := restoreCursor_shows (s.restoreBegun c k a x).statusCleared m
  have hapart (q : RegId) {i : Nat} (hi : i < q.spec.n1) (hj : 0 < q.spec.n2) (hq : q ∉ [.LDG_RESTORE_PROG, .MSC_SQ_CFG]) :
      ¬ (ofKinds [.LDG_RESTORE_PROG] (q.addr i) ∨ ringOf c (q.addr i)) := by
    simp only [List.mem_cons, List.not_mem_nil, or_false, not_or] at hq
    exact not_or.mpr ⟨not_ofKinds hi hj (by simpa using hq.1), not_ringOf hi hj hq.2⟩
  exact ⟨s', hexec, hrecorded, (hlast.getF _ (hapart .LDG_CURSOR Nat.one_pos Nat.one_pos (by decide))).trans hcursor,
    (hlast.getF _ (hapart .LDG_STEP Nat.one_pos Nat.one_pos (by decide))).trans hstep,
    fun i hi => ⟨(hlast.reg _ (hapart .LDG_RNG_KEY hi Nat.one_pos (by decide))).trans (hrng i hi).1,
      (hlast.reg _ (hapart .LDG_RNG_CTR hi Nat.one_pos (by decide))).trans (hrng i hi).2⟩, hstate, hall.mem, hall.bays⟩

/-! #### Another device's slot -/

theorem src_setSrc {f : Fabric} {z : PairSrc} (h : f.src d = some y) (hz : z.dev = y.dev) : (f.setSrc z).src d = some z := by
  have hd : y.dev = d := by simpa using List.find?_some (p := fun p : PairSrc => p.dev == d) h
  have hany : (f.srcs.any fun p => p.dev == z.dev) = true :=
    List.any_eq_true.mpr ⟨y, List.mem_of_find?_eq_some h, by simp [hz]⟩
  have hp : ((fun p : PairSrc => p.dev == d) ∘ fun p => if p.dev = z.dev then z else p) = fun p => p.dev == d := by
    funext p
    by_cases e : p.dev = z.dev
    · simp [e]
    · simp [if_neg e]
  unfold Fabric.setSrc
  rw [if_pos hany]
  change List.find? _ (f.srcs.map _) = _
  rw [List.find?_map, hp]
  change Option.map _ (f.src d) = _
  rw [h, Option.map_some, if_pos hz.symm]

/-- Nothing leaves a pair whose window is full. -/
theorem pump_full (n : Nat) (hy : s.fab.src d = some y) (hwindow : y.window ≤ y.unacked.length) (htype : ∀ q ∈ y.waiting, q.type ≠ 6) :
    s.pump d n = s := by
  cases n with
  | zero => rfl
  | succ n =>
    unfold State.pump
    rw [hy]
    dsimp only
    split
    · rfl
    · next q rest e => rw [if_neg (htype q (e ▸ List.mem_cons_self ..)), if_pos (.inl hwindow)]

/-- Requests handed to a pair whose window is full wait there (R296). -/
theorem sendReqs_full (hstalled : s.fab.stalled = []) (hy : s.fab.src d = some y) (hbroken : y.broken = false) (hwaiting : y.waiting = [])
    (hwindow : y.window ≤ y.unacked.length) (htype : ∀ q ∈ rs, q.type ≠ 6) : s.sendReqs d rs = s.setSrc { y with waiting := rs } := by
  have hsrc : (s.setSrc { y with waiting := rs }).fab.src d = some { y with waiting := rs } := src_setSrc hy rfl
  unfold State.sendReqs State.sendNow
  rw [hstalled, List.any_nil, if_neg (by decide)]
  simp only [hy]
  rw [if_neg (by rw [hbroken]; decide), hwaiting, List.nil_append, State.pumpAll, hsrc]
  exact pump_full _ hsrc hwindow htype

/-- A restore of which no part is here asks for its manifest. -/
def manifestAsked (k : Nat) (a : RestoreArgs) (x : Code × List Byte) : RestoreJob := ⟨k, a, x, [], some ⟨false, 0, 8192⟩, [], []⟩

theorem manifestAsked_reqs (k : Nat) (a : RestoreArgs) (x : Code × List Byte) :
    (∀ q ∈ (manifestAsked k a x).reqs, q.type ≠ 6)
    ∧ (manifestAsked k a x).reqs.map (fun r => (r.org, r.type, r.addr, r.len))
      = (List.range 4).map fun i => (Origin.ledger .restore, 3, BitVec.ofNat 48 (a.primary.addr + 2048 * i), 2048) := by
  have hcut : cutParts 2048 (min 65536 (8192 - 0)) = [(0, 2048), (2048, 2048), (4096, 2048), (6144, 2048)] := by decide
  have hreqs : (manifestAsked k a x).reqs = (cutParts 2048 (min 65536 (8192 - 0))).map fun p =>
      { org := .ledger .restore, type := 3, srcEp := ledgerEp, dstEp := epOf a.primary.coord,
        addr := BitVec.ofNat 48 (a.primary.addr + p.1), len := p.2, data := p.1, given := [], hdr := [], slot := 0 } := by
    have hasked : (manifestAsked k a x).asked = some (⟨false, 0, 8192⟩, a.primary) := rfl
    unfold RestoreJob.reqs
    have hbytes : (manifestAsked k a x).bytes.length = 0 := rfl
    simp only [hasked, hbytes, Option.elim_some, Nat.add_zero]
  rw [hreqs, hcut]
  refine ⟨fun q hq => ?_, ?_⟩
  · obtain ⟨p, -, rfl⟩ := List.mem_map.mp hq
    exact (by decide : (3 : BitVec 4) ≠ 6)
  · rfl

/-- A restore from another device's slot waits for its manifest. -/
theorem restoreGo_away (hhere : a.primary.here = false) :
    (s.restoreBegun c k a x).restoreGo = (s.restoreBegun c k a x).restoreAsk (manifestAsked k a x) := by
  have hldg : (s.restoreBegun c k a x).statusCleared.ldg.restore = some ⟨k, a, x, [], none, [], []⟩ :=
    congrArg Ledger.restore (State.setFs_ldg ..)
  have hread := sourceRead_away (n := 8192) (by decide) hhere hldg rfl rfl
  have hrun := restoreRun_failed (x := x) (restoreManifest_unread hread (by decide)) (by decide)
  have hj : (s.restoreBegun c k a x).ldg.restore = some ⟨k, a, x, [], none, [], []⟩ := rfl
  generalize s.restoreBegun c k a x = u at hrun hj ⊢
  unfold State.restoreGo
  simp only [hj, Option.isSome_none, Bool.false_eq_true, if_false, hrun]
  rfl

/-- A restore waiting for a part, whose requests wait at their pair. -/
def State.manifestAwaited (s : State) (j : RestoreJob) (y : PairSrc) : State :=
  (s.updLdg fun l => { l with restore := some j }).setSrc { y with waiting := j.reqs }

theorem exec_restore_away (h : Safety.starts s k 0x22 c) (hk : c.k = k) (hs : Safety.handedOver s)
    (hgo : opRestore k v w s = (s.restoreBegun c k a x).restoreGo) (hhere : a.primary.here = false) (hstalled : s.fab.stalled = [])
    (hy : s.fab.src (devOf a.primary.coord) = some y) (hbroken : y.broken = false) (hwaiting : y.waiting = [])
    (hwindow : y.window ≤ y.unacked.length) :
    ∃ s', exec (.restore k v w) s = .next s' ∧ s'.ldg.restore = some (manifestAsked k a x)
      ∧ s'.fab.src y.dev = some { y with waiting := (manifestAsked k a x).reqs } ∧ s'.getF Fld.LDG_RESTORE_PROG_STATE = 1
      ∧ s'.cmd k = some { c with stage := .running } ∧ LedgerKeeps (ofKinds [.LDG_RESTORE_PROG]) s s' := by
  obtain ⟨hstate, hhost, hfab⟩ := restoreBegun_shows s c k a x
  have hkept := restoreBegun_keeps s c k a x
  obtain ⟨htype, -⟩ := manifestAsked_reqs k a x
  rw [restoreGo_away hhere] at hgo
  generalize s.restoreBegun c k a x = u at hgo hstate hhost hfab hkept
  rw [← hfab] at hstalled hy
  have hdev : y.dev = devOf a.primary.coord := by simpa using List.find?_some (p := fun p : PairSrc => p.dev == devOf a.primary.coord) hy
  have hask : u.restoreAsk (manifestAsked k a x) = u.manifestAwaited (manifestAsked k a x) y :=
    sendReqs_full hstalled hy hbroken hwaiting hwindow htype
  have hkept' : LedgerKeeps (ofKinds [.LDG_RESTORE_PROG]) s (u.manifestAwaited (manifestAsked k a x) y) :=
    ⟨hkept.mem, hkept.bays, hkept.hbm, hkept.ended, hkept.lost, hkept.reg⟩
  have hexec : exec (.restore k v w) s = .next (u.manifestAwaited (manifestAsked k a x) y) := by
    change Host.Outcome.next (opRestore k v w s).settledAll = _
    rw [hgo, hask, State.settledAll_of_handedOver _ (hkept'.handedOver (not_ofKinds Nat.one_pos Nat.one_pos (by decide)) hs)]
  have hsrc : (u.manifestAwaited (manifestAsked k a x) y).fab.src (devOf a.primary.coord)
      = some { y with waiting := (manifestAsked k a x).reqs } :=
    src_setSrc (z := { y with waiting := (manifestAsked k a x).reqs }) hy rfl
  rw [← hdev] at hsrc
  exact ⟨_, hexec, rfl, hsrc, (getF_of_regs (s := u) rfl _).trans hstate,
    (cmd_of_host (s := s.begun c) hhost).trans (cmd_setCmd h.1 hk), hkept'⟩

end

end Sys2Proof.Machine
end

section

/-! ### Host commands of the Ledger, of HBM and of circuits -/

set_option Elab.async false

namespace Sys2Proof
open Machine

/-- Settles O55: each command starts by `begin_of_starts`, and one that ends does so by `InCommand.recorded`. -/
theorem hostCommandsOfTheLedger : Obligations.HostCommandsOfTheLedger := by
  unfold Obligations.HostCommandsOfTheLedger
  intro k s c hk
  have hbegun {l : List RegId} : LedgerKeeps (ofKinds l) s (s.begun c) := .frame .refl
  have hheld {op : Nat} (h : Safety.starts s k op c) : (s.begun c).cmd k = some { c with stage := .running } := cmd_setCmd h.1 hk
  refine ⟨fun h hruns hthreads => ?_, fun h hst hhem hrate => ?_, fun j st hj hcmd hc hends => ?_,
    fun v w y h hs hnone hfrom hfall hset hstalled hy hbroken hwaiting hwindow => ?_,
    fun v w m t h hs hnone hfrom hfall hset hman hlives ht hread => ?_, fun h hnone hcls hne hregions => ?_,
    fun h hnone => ⟨fun rs hsteps => ?_, fun hsteps => ?_⟩, fun h hscrub => ?_,
    fun h hfold hfail => ⟨fun hwait => ?_, fun hwait hfolds => ?_⟩, fun h => ?_, fun h hopen => ?_⟩
  -- BASTE
  · exact ⟨_, congrArg Host.Outcome.next (opBaste_forced h hruns hthreads), rfl, hheld h, rfl, rfl, rfl⟩
  -- HEM
  · obtain ⟨j, hrun, hcmd, hcoord, hobj, hrate', hsent⟩ := opHem_held h hst hhem hrate
    obtain ⟨hkept, hhost, hldg, hstate⟩ := hemProg_shows ((s.begun c).updLdg fun x => { x with hem := some j })
    have hkept' := (hbegun.frame (s := s.begun c)).trans hkept
    exact ⟨_, j, congrArg Host.Outcome.next hrun, congrArg Ledger.hem hldg, hcmd, hcoord, hobj, hrate', hsent, hstate,
      (cmd_of_host hhost).trans (hheld h), hkept'.keepsRegs (by decide), hkept'.mem, hkept'.bays⟩
  -- HEM_DONE
  · have hin : InCommand s s k c c.stage := .refl hc
    rcases hends with hfail | ⟨hfail, hclosing, hleft, rfl⟩
    · obtain ⟨hhem, hstate, hcode, -, hrecorded, hmem, hbays⟩ := hemEnd_shows hin hk hcmd st
      exact ⟨_, congrArg Host.Outcome.next (opHemDone_failed hj hfail), hhem, hstate, hcode, fun e => by simp [e] at hfail, hrecorded, hmem,
        hbays⟩
    · have hin' : InCommand s (s.setF Fld.LDG_HEM_PROG_PCT 10000) k c c.stage :=
        hin.keeps (l := [.LDG_HEM_PROG]) rfl (.setF .refl _ (ofKinds_addr (List.mem_singleton_self _) Nat.one_pos Nat.one_pos)) (by decide)
      obtain ⟨hhem, hstate, hcode, hpct, hrecorded, hmem, hbays⟩ := hemEnd_shows hin' hk hcmd cDONE
      exact ⟨_, congrArg Host.Outcome.next (opHemDone_done hj hfail hclosing hleft), hhem, hstate, hcode,
        fun _ => hpct.trans (State.getF_setF_self _ _ _ (by decide)), hrecorded, hmem, hbays⟩
  -- RESTORE from another device's slot
  · have hargs : (s.restoreArgs c).primary = ⟨false, BitVec.ofNat 28 (c.f 1 0 28), s.reserve.2.1⟩ := by
      simp [State.restoreArgs, State.restoreSource, hfrom]
    have hgo := opRestore_begun h hnone (by rw [hfrom]; simpa using fun h₁ h₂ => absurd h₂ (hfall h₁)) hset v w
    generalize s.restoreArgs c = a at hargs hgo
    obtain ⟨s', hexec, hjob, hsrc, hstate, hcmd, hkept⟩ := exec_restore_away h hk hs hgo (by rw [hargs]) hstalled (by rw [hargs]; exact hy)
      hbroken hwaiting hwindow
    have hreqs := (manifestAsked_reqs k a (hostBytes v w)).2
    rw [hargs] at hreqs
    exact ⟨s', _, _, hexec, hjob, rfl, rfl, hsrc, rfl, hreqs, hstate, hcmd, hkept.keepsRegs (by decide), hkept.mem, hkept.bays⟩
  -- RESTORE of the local slot
  · have ht' : t = (s.restoreBegun c k (localArgs c) (hostBytes v w)).statusCleared := ht
    clear ht
    subst ht'
    have hgo := opRestore_local (v := v) (w := w) h hnone hfrom hfall hset hman
    have hsrc := sourceRead_local (a := localArgs c) rfl hlives hread
    refine ⟨fun hmagic hself hregions => ?_, fun hmagic => ?_⟩
    · obtain ⟨s', hexec, hrecorded, hcursor, hstep, hrng, hstate, hmem, hbays⟩ :=
        exec_restore_done h hk hs hgo rfl rfl hsrc hmagic hself hregions
      exact ⟨s', hexec, hrecorded, hcursor, hstep, fun i => hrng i i.isLt, hstate, hmem, hbays⟩
    · have hrun := restoreRun_failed (x := hostBytes v w) (restoreManifest_magic hsrc hmagic) (by decide)
      obtain ⟨s', hexec, hrecorded, hstate, hcode, -, hall⟩ := exec_restore_ends (l := []) h hk hs hgo hrun ⟨rfl, rfl⟩ .refl (by decide)
        (by decide)
      exact ⟨s', hexec, hrecorded, hstate, hcode, hall.keepsRegs_ring (by decide), hall.mem⟩
  -- DIGEST
  · have hrun := opDigest_begun h hnone hcls hne hregions
    have hkept := hbegun.trans (digestBegun_keeps (s.begun c) (c.f 0 0 3))
    obtain ⟨hhost, hdigest⟩ := digestBegun_shows (s.begun c) (c.f 0 0 3)
    exact ⟨_, _, congrArg Host.Outcome.next hrun, hdigest, rfl, rfl, rfl, (cmd_of_host hhost).trans (hheld h), hkept.keepsRegs (by decide),
      hkept.mem⟩
  -- RECORD of steps in the history
  · have hrun := opRecord_records h hnone hsteps
    obtain ⟨hhost, hcmds, hwaiting, hregs, hmem, hbays, hstore⟩ := recordWritten_keeps s c (c.op_ 2).toNat
      (s.signedRecord (c.op_ 0).toNat (c.op_ 1).toNat rs (c.f 3 0 1 == 1))
    generalize State.hostWrite { s.begun c with store := _ } _ _ = t at hrun hhost hcmds hwaiting hregs hmem hbays hstore
    have hin : InCommand s t k c .running :=
      ⟨by rw [State.cmd, hcmds]; exact hheld h, hwaiting, fun q _ => reg_of_regs hregs _⟩
    have hend := hin.finish_keeps cDONE 0 (if c.f 3 0 1 = 1 then 5267 else 640)
    obtain ⟨-, hstore', hhost'⟩ := finishCmd_keeps t k cDONE 0 (if c.f 3 0 1 = 1 then 5267 else 640)
    exact ⟨_, congrArg Host.Outcome.next hrun, hin.recorded hk .., hstore'.trans hstore, hhost'.trans hhost, hend.mem.trans hmem,
      hend.bays.trans hbays⟩
  -- RECORD of others
  · obtain ⟨-, hstore, hhost⟩ := finishCmd_keeps s k cRANGE 0 0
    exact ⟨_, congrArg Host.Outcome.next (opRecord_range h hnone hsteps), (InCommand.refl h.1).recorded hk .., hhost, hstore⟩
  -- SCRUB
  · obtain ⟨hkept, hhost, hstate⟩ := scrubProg_shows ((s.begun c).updHbm fun h => { h with scrub := some 0 })
    have hrun := opScrub_starts h hscrub
    exact ⟨_, congrArg Host.Outcome.next hrun, hkept.hbm, hstate, (cmd_of_host hhost).trans (hheld h), hkept.keepsRegs (by decide),
      hkept.mem, hkept.bays⟩
  -- FOLD of a pseudo-channel that does not wait
  · have hend := (InCommand.refl h.1).finish_keeps cRANGE 0 0
    exact ⟨_, congrArg Host.Outcome.next (opHostFold_range h hfold hfail hwait), (InCommand.refl h.1).recorded hk .., hend.hbm, hend.mem,
      hend.bays⟩
  -- FOLD of one that waits
  · have hstarts := startFold_starts (s := s.begun c) (pc := c.f 0 0 8) hfolds
    obtain ⟨-, hbays, -⟩ := foldShown_keeps (s.begun c) (c.f 0 0 8)
    obtain ⟨hbands, -, hstate, hpc⟩ := foldShown_fields (s := s.begun c) (pc := c.f 0 0 8) (fieldOf_lt ..)
    have hcap : RegId.HBM_CAP.addr ∉ foldSideRegs := not_mem_foldSideRegs Nat.one_pos Nat.one_pos (by decide)
    have hprog : RegId.HBM_FOLD_PROG.addr ∉ foldSideRegs := not_mem_foldSideRegs Nat.one_pos Nat.one_pos (by decide)
    exact ⟨_, _, congrArg Host.Outcome.next (opHostFold_starts h hfold hfail hwait hfolds), hstarts.fold, rfl, rfl,
      (hstarts.shown _ hprog).trans hstate, (hstarts.shown _ hprog).trans hpc, (hstarts.shown _ hcap).trans hbands,
      hstarts.bays.trans hbays⟩
  -- RETRAIN
  · have hrun : opRetrain k s = s.begun c := begin_of_starts h rfl
    exact ⟨_, congrArg Host.Outcome.next hrun, hheld h, rfl⟩
  -- CIRCUIT
  · have hrun := opCircuit_arms h hopen
    obtain ⟨hstate, hports, hmark⟩ := circuitArmed_shows (s.begun c) (c.f 0 0 16) (c.op_ 1) (fieldOf_lt ..)
    have hkept := hbegun.trans (circuitArmed_keeps (s.begun c) (c.f 0 0 16) (c.op_ 1).toNat)
    exact ⟨_, congrArg Host.Outcome.next hrun, hstate, hports, hmark, (cmd_of_host (circuitArmed_host ..)).trans (hheld h),
      hkept.keepsRegs (by decide), hkept.mem, hkept.bays⟩

end Sys2Proof
end

section

/-! ### Sequenced packets at the destination of a pair (R293 to R296) -/

set_option Elab.async false

namespace Sys2Proof.Machine

/-! #### A store over several bays' memories (R5) -/

section
variable {s : State} {a base n : Nat} {bs : List Byte}

/-- The write of one piece of a range of bay memories, as `State.bayRangeWrite` makes it. -/
def bayPieceWrite (base : Nat) (bs : List Byte) (acc : State × Bool) (q : Nat × Nat) : State × Bool :=
  let x := acc.1.bayWrite (bayOf q.1).1 (bayOf q.1).2 ((bs.drop (q.1 - base)).take q.2)
  (x.1, acc.2 || x.2)

/-- An address of bay memory is that of its bay and offset. -/
theorem bayAddr_bayOf (hlow : bayMemBase ≤ a) (hhigh : a < bayMemBase + 1024 * 0x100000) : bayAddr (bayOf a).1 (bayOf a).2 = a := by
  have hbay : (a - bayMemBase) / 0x100000 < 1024 := by omega
  simp only [bayAddr, bayOf, BitVec.toNat_ofNat, Nat.mod_eq_of_lt (show _ < 2 ^ 10 from hbay)]
  simp only [bayMemBase] at hlow hhigh ⊢
  omega

theorem setMemBytes_append (s : State) (a : Nat) (l m : List Byte) :
    s.setMemBytes a (l ++ m) = (s.setMemBytes a l).setMemBytes (a + l.length) m := by
  induction l generalizing s a with
  | nil => rfl
  | cons v l ih =>
    rw [List.length_cons, ← Nat.add_assoc, Nat.add_right_comm]
    exact ih (s.setMem a v) (a + 1)

theorem bayPieceWrite_clean {q : Nat × Nat} (h1 : s.ecc1 = []) (h2 : s.ecc2 = []) (hlow : bayMemBase ≤ q.1)
    (hhigh : q.1 < bayMemBase + 1024 * 0x100000) :
    bayPieceWrite base bs (s, false) q = (s.setMemBytes q.1 ((bs.drop (q.1 - base)).take q.2), false) := by
  simp only [bayPieceWrite, State.bayWrite_clean _ _ _ _ h1 h2, bayAddr_bayOf hlow hhigh, Bool.or_false]

/-- The pieces of a range that lies in bay memories store its bytes in order. -/
theorem foldl_bayPieceWrite (k : Nat) (h1 : s.ecc1 = []) (h2 : s.ecc2 = []) (hbase : base ≤ a) (hlow : bayMemBase ≤ a)
    (hhigh : a + n ≤ bayMemBase + 1024 * 0x100000) (hlen : (bs.drop (a - base)).length = n)
    (hk : 0 < n → a % 0x100000 + n ≤ k * 0x100000) :
    (bayPieces k a n).foldl (bayPieceWrite base bs) (s, false) = (s.setMemBytes a (bs.drop (a - base)), false) := by
  induction k generalizing s a n with
  | zero =>
    have hnil : bs.drop (a - base) = [] := List.eq_nil_of_length_eq_zero (by omega)
    rw [hnil]
    rfl
  | succ k ih =>
    cases n with
    | zero =>
      rw [List.eq_nil_of_length_eq_zero hlen]
      rfl
    | succ n =>
      obtain ⟨m, hm⟩ : ∃ m, m = min (n + 1) (0x100000 - a % 0x100000) := ⟨_, rfl⟩
      have hsplit : (bs.drop (a - base)).drop m = bs.drop (a + m - base) := by
        rw [List.drop_drop]
        congr 1
        omega
      have htake : ((bs.drop (a - base)).take m).length = m := by
        rw [List.length_take]
        omega
      have hwhole : s.setMemBytes a (bs.drop (a - base))
          = (s.setMemBytes a ((bs.drop (a - base)).take m)).setMemBytes (a + m) (bs.drop (a + m - base)) := by
        conv_lhs => rw [← List.take_append_drop m (bs.drop (a - base)), setMemBytes_append, htake, hsplit]
      have hrest : (bs.drop (a + m - base)).length = n + 1 - m := by rw [← hsplit, List.length_drop, hlen]
      have hpieces : bayPieces (k + 1) a (n + 1) = (a, m) :: bayPieces k (a + m) (n + 1 - m) := by rw [hm]; rfl
      rw [hpieces, List.foldl_cons, bayPieceWrite_clean h1 h2 hlow (by simp only; omega), hwhole]
      exact ih (by rw [State.setMemBytes_ecc1, h1]) (by rw [State.setMemBytes_ecc2, h2]) (by omega) (by omega) (by omega) hrest
        fun _ => by omega

/-- A write of a range of bay memories without errors stores its bytes. -/
theorem bayRangeWrite_clean (h1 : s.ecc1 = []) (h2 : s.ecc2 = []) (hlow : bayMemBase ≤ a)
    (hhigh : a + bs.length ≤ bayMemBase + 1024 * 0x100000) : s.bayRangeWrite a bs = (s.setMemBytes a bs, cDONE) := by
  have hfold := foldl_bayPieceWrite (base := a) (bs := bs) (n := bs.length) (bs.length / 0x100000 + 2) h1 h2 (Nat.le_refl a) hlow hhigh
    (by rw [Nat.sub_self, List.drop_zero]) (fun _ => by omega)
  rw [Nat.sub_self, List.drop_zero] at hfold
  change (if ((bayPieces _ a _).foldl (bayPieceWrite a bs) (s, false)).2 = true then _
    else (((bayPieces _ a _).foldl (bayPieceWrite a bs) (s, false)).1, cDONE)) = _
  rw [hfold]
  exact if_neg Bool.false_ne_true

/-- A range of bay memories lies in the map, both its ends in the range of the bays. -/
theorem regionOf_bays (hn : 0 < n) (hlow : bayAddr 0 0 ≤ a) (hhigh : a + n ≤ bayAddr 1023 0x100000) :
    regionOf a = .bay ∧ regionOf (a + n - 1) = .bay := by
  have h0 : bayAddr 0 0 = bayMemBase := rfl
  have h1 : bayAddr 1023 0x100000 = 0x011040000000 := rfl
  rw [h0] at hlow
  rw [h1] at hhigh
  exact ⟨regionOf_bay hlow (by omega), regionOf_bay (by omega) (by omega)⟩

/-- A write of a range of bay memories that are reached and without errors. -/
theorem devWrite_bays (src : Nat) (hne : bs ≠ []) (h1 : s.ecc1 = []) (h2 : s.ecc2 = []) (hlow : bayAddr 0 0 ≤ a)
    (hhigh : a + bs.length ≤ bayAddr 1023 0x100000) (hcut : s.cutRange a bs.length = false) :
    s.devWrite src a bs = (s.setMemBytes a bs, cDONE) := by
  have hpos : 0 < bs.length := List.length_pos_iff.mpr hne
  obtain ⟨hfirst, hlast⟩ := regionOf_bays hpos hlow hhigh
  have hmapped : s.mapped a bs.length = true := by
    unfold State.mapped
    rw [if_neg (Nat.pos_iff_ne_zero.mp hpos), hfirst, hlast]
    rfl
  unfold State.devWrite
  rw [hmapped, hfirst, hcut, bayRangeWrite_clean h1 h2 hlow hhigh]
  rfl

end

/-! #### What a store does, and what refuses it -/

section
variable {s u : State} {p : Packet} {c : Code} {x : PairDst}

/-- A store to bay memory that is allowed stores its bytes. -/
theorem applyStore_bays (hserved : s.served p.addr.toNat p.payload.length = true) (hne : p.payload ≠ []) (h1 : s.ecc1 = [])
    (h2 : s.ecc2 = []) (hlow : bayAddr 0 0 ≤ p.addr.toNat) (hhigh : p.addr.toNat + p.payload.length ≤ bayAddr 1023 0x100000)
    (hpeer : s.inPeerSlot p.addr.toNat p.payload.length = false) (hcut : s.cutRange p.addr.toNat p.payload.length = false)
    (hallowed : s.refusal p permW p.payload.length = (s, cDONE)) :
    s.applyStore p = some (s.setMemBytes p.addr.toNat p.payload, cDONE) := by
  obtain ⟨hfirst, -⟩ := regionOf_bays (List.length_pos_iff.mpr hne) hlow hhigh
  have hwake : s.wakeStacks p.addr.toNat p.payload.length = s := by
    unfold State.wakeStacks
    rw [hfirst]
    exact if_pos (by simp)
  have hpeer' : (s.setMemBytes p.addr.toNat p.payload).inPeerSlot p.addr.toNat p.payload.length = false := by
    rw [State.setMemBytes_mem_only]
    exact hpeer
  have hmanifest : (s.setMemBytes p.addr.toNat p.payload).peerManifest p.addr.toNat p.payload.length
      = s.setMemBytes p.addr.toNat p.payload := by
    unfold State.peerManifest
    dsimp only
    rw [hpeer', Bool.and_false]
    rfl
  unfold State.applyStore
  simp only [hserved, hallowed, hwake, devWrite_bays 2 hne h1 h2 hlow hhigh hcut, hmanifest, Bool.not_true, Bool.false_eq_true, ne_eq,
    not_true_eq_false, if_false]

/-- A store of another epoch is answered EPOCH_STALE (R433). -/
theorem applyStore_stale (hserved : s.served p.addr.toNat p.payload.length = true) (hheld : s.devState ≠ stHELD)
    (hledger : s.ledgerPacket p p.payload.length = false) (hepoch : p.epoch ≠ BitVec.ofNat 32 (s.getF Fld.ABR_EPOCH_CURRENT)) :
    s.applyStore p = some (s, cEPOCH_STALE) := by
  have hrefused : s.refusal p permW p.payload.length = (s, cEPOCH_STALE) := by
    unfold State.refusal
    dsimp only
    rw [if_neg fun h => hheld h.1, hledger, if_pos (by simpa using hepoch)]
  have hstale : cEPOCH_STALE ≠ cDONE := by decide
  unfold State.applyStore
  simp only [hserved, hrefused, Bool.not_true, Bool.false_eq_true, if_false, ne_eq, hstale, not_false_eq_true, if_true]

/-! #### The pair's destination state -/

theorem dst_dev {f : Fabric} {d : DevCoord} (h : f.dst d = some x) : x.dev = d := by
  simpa using List.find?_some (p := fun y : PairDst => y.dev == d) h

theorem dst_setDst (s : State) (x : PairDst) : (s.setDst x).fab.dst x.dev = some x := by
  have hnone : (s.fab.dsts.filter fun y => y.dev != x.dev).find? (fun y => y.dev == x.dev) = none := by
    simp [List.find?_eq_none]
  simp only [Fabric.dst, State.setDst, List.find?_append, hnone, Option.none_or, List.find?_singleton, beq_self_eq_true, if_true]

/-- A packet of the incarnation that the pair is in belongs to it. -/
theorem pairFor_same (hdst : s.fab.dst (devOf p.src) = some x) (hpinc : x.pinc = p.pinc) : s.pairFor p = some (s, x) := by
  unfold State.pairFor
  simp only [hdst]
  exact if_pos hpinc

/-- A packet formed changes nothing but what the fabric engines hold. -/
theorem inject_held_only (s : State) (q : Packet) : s.inject q
    = { s with fab := { s.fab with held0 := (s.inject q).fab.held0, held1 := (s.inject q).fab.held1 } } := by
  unfold State.inject State.hold
  dsimp only
  split <;> rfl

/-- The held packet is the ACK of a packet that a pair received: for its sender, with its crease echo (R294 to R296). -/
structure Held.Acks (y : Held) (x : PairDst) (p : Packet) (q : BitVec 16) (c : Code) : Prop where
  type : y.p.type = 5
  dst : y.p.dst = p.src
  ackSeq : y.p.ackSeq = q
  status : y.p.status = c
  pinc : y.p.pinc = x.pinc
  ece : y.p.ece = p.ce
  space : y.space = none

/-- An ACK is held for the device that sent the packet. -/
theorem sendAck_held (hsame : SameRoutes s u) (x : PairDst) (p : Packet) (q : BitVec 16) (c : Code) :
    ∃ y, (u.sendAck x p q c).heldOf (s.headerFor s.devCoord (devOf p.src)) = u.heldOf (s.headerFor s.devCoord (devOf p.src)) ++ [y]
      ∧ y.Acks x p q c :=
  ⟨_, heldOf_inject hsame rfl rfl, rfl, rfl, rfl, rfl, rfl, rfl, rfl⟩

/-! #### The packet that a pair expects -/

/-- The pair once it has applied a packet. -/
def PairDst.advanced (x : PairDst) (p : Packet) (now : Nat) : PairDst := { x with expect := p.seq + 1, last := now }

/-- The packet taken, its pair advanced and its acknowledgement formed. -/
def State.advanced (s : State) (x : PairDst) (p : Packet) (c : Code) : State :=
  ((s.setDst (x.advanced p s.now)).sendAck (x.advanced p s.now) p p.seq c).takeArrived p

theorem acceptSeq_applied (happly : s.applySeq p = some (u, c)) (hdst : u.fab.dst (devOf p.src) = some x) (hahead : x.ahead = []) :
    s.acceptSeq p = some ((u.setDst (x.advanced p u.now)).sendAck (x.advanced p u.now) p p.seq c) := by
  have hx : ({ x with expect := p.seq + 1, ahead := x.ahead.filter fun q => q.seq != p.seq, last := u.now } : PairDst)
      = x.advanced p u.now := by simp only [PairDst.advanced, hahead, List.filter_nil]
  unfold State.acceptSeq
  simp only [happly, hdst, Option.map_some, hx]

theorem drainAhead_nil (n : Nat) {d : DevCoord} (hdst : s.fab.dst d = some x) (hahead : x.ahead = []) : s.drainAhead d n = s := by
  cases n with
  | zero => rfl
  | succ n =>
    unfold State.drainAhead
    simp only [hdst, hahead, List.find?_nil]

theorem amoWaiting_nil (h : s.fab.amoWait = []) : s.amoWaiting = s := by
  unfold State.amoWaiting
  simp only [h, List.filter_nil, List.foldl_nil]
  rw [← h]

/-- What the advance of a pair shows: a change of the fabric alone. -/
theorem advanced_shows (s : State) (x : PairDst) (p : Packet) (c : Code) :
    s.advanced x p c = { s with fab := (s.advanced x p c).fab }
      ∧ (s.advanced x p c).fab.dst x.dev = some (x.advanced p s.now)
      ∧ (s.advanced x p c).fab.arrived = s.fab.arrived.erase p ∧ (s.advanced x p c).fab.amoWait = s.fab.amoWait
      ∧ (s.advanced x p c).fab.ended = s.fab.ended ∧ (s.advanced x p c).fab.lost = s.fab.lost := by
  have hdst : (s.setDst (x.advanced p s.now)).fab.dst x.dev = some (x.advanced p s.now) := dst_setDst s (x.advanced p s.now)
  have heq : s.advanced x p c = State.takeArrived (State.inject (s.setDst (x.advanced p s.now)) _) p := rfl
  rw [heq, inject_held_only]
  exact ⟨rfl, hdst, rfl, rfl, rfl, rfl⟩

/-- The acknowledgement of a packet applied. -/
theorem advanced_held (hsame : SameRoutes s u) (x : PairDst) (p : Packet) (c : Code) :
    ∃ y, (u.advanced x p c).heldOf (s.headerFor s.devCoord (devOf p.src)) = u.heldOf (s.headerFor s.devCoord (devOf p.src)) ++ [y]
      ∧ y.Acks (x.advanced p u.now) p p.seq c :=
  sendAck_held (u := u.setDst (x.advanced p u.now)) (hsame.trans (.of_regs rfl rfl rfl)) (x.advanced p u.now) p p.seq c

/-- A store applied: its bytes, the pair advanced and the acknowledgement. -/
theorem stored_shows (s : State) (x : PairDst) (p : Packet) (c : Code) {t : State}
    (ht : t = (s.setMemBytes p.addr.toNat p.payload).advanced x p c) : t = { s with mem := t.mem, fab := t.fab }
      ∧ (∀ k, k < p.payload.length → t.memByte (p.addr.toNat + k) = p.payload.getD k 0)
      ∧ Safety.keepsMem s t p.addr.toNat p.payload.length ∧ t.fab.dst x.dev = some (x.advanced p s.now)
      ∧ t.fab.arrived = s.fab.arrived.erase p
      ∧ ∃ y, t.heldOf (s.headerFor s.devCoord (devOf p.src)) = s.heldOf (s.headerFor s.devCoord (devOf p.src)) ++ [y]
        ∧ y.Acks (x.advanced p s.now) p p.seq c := by
  have hbytes := s.memByte_setMemBytes p.addr.toNat p.payload
  have hu := State.setMemBytes_mem_only s p.addr.toNat p.payload
  generalize s.setMemBytes p.addr.toNat p.payload = u at ht hbytes hu
  subst ht
  have hfab : u.fab = s.fab := by rw [hu]
  have hregs : u.regs = s.regs := by rw [hu]
  obtain ⟨honly, hpair, harrived, -⟩ := advanced_shows u x p c
  obtain ⟨y, hheld, hack⟩ := advanced_held (s := s) (u := u) (.of_regs (by rw [hu]) (by rw [hfab]) hregs) x p c
  have hnow : u.now = s.now := getF_of_regs hregs _
  have hmem : (u.advanced x p c).mem = u.mem := by rw [honly]
  have hread (a : Nat) : (u.advanced x p c).memByte a = u.memByte a := memByte_of_mem hmem a
  have hheld' := hheld.trans (congrArg (· ++ [y]) (heldOf_of_fab hfab _))
  rw [hnow] at hpair hack
  refine ⟨?_, fun k hk => ?_, fun a ha => ?_, hpair, hfab ▸ harrived, y, hheld', hack⟩
  · rw [hmem]
    exact honly.trans (congrArg (fun v : State => { v with fab := (u.advanced x p c).fab }) hu)
  · rw [hread, hbytes, dif_pos (by omega), List.getD_eq_getElem _ _ hk]
    simp only [Nat.add_sub_cancel_left]
  · rw [hread, hbytes, dif_neg (by omega)]

/-- What an acknowledgement given again shows: a tick event, and no other register (R384). -/
theorem ackAgain_shows (s : State) (x : PairDst) (p : Packet) (q : BitVec 16) (c : Code) {t : State}
    (ht : t = ((s.takeArrived p).sendAck x p q c).tickEvent) : t.mem = s.mem ∧ t.fab.dsts = s.fab.dsts
      ∧ t.getF Fld.LDG_STEP_STATUS_TICK_CLEAN = 0 ∧ Safety.keepsRegs s t [RegId.LDG_STEP_STATUS.addr]
      ∧ ∃ y, t.heldOf (s.headerFor s.devCoord (devOf p.src)) = s.heldOf (s.headerFor s.devCoord (devOf p.src)) ++ [y]
        ∧ y.Acks x p q c := by
  obtain ⟨y, hheld, hack⟩ := sendAck_held (s := s) (u := s.takeArrived p) (.of_regs rfl rfl rfl) x p q c
  have hform : (s.takeArrived p).sendAck x p q c = _ := inject_held_only ..
  generalize (s.takeArrived p).sendAck x p q c = u at ht hheld hform
  subst ht
  have hmem : u.mem = s.mem := by rw [hform]; rfl
  have hdsts : u.fab.dsts = s.fab.dsts := by rw [hform]; rfl
  have hregs : u.regs = s.regs := by rw [hform]; rfl
  exact ⟨(State.tickEvent_mem ..).trans hmem, by rw [State.tickEvent_fab, hdsts], tickEvent_clean u,
    fun r hr => (State.reg_tickEvent_ne _ _ _ (by simpa using hr)).trans (reg_of_regs hregs r), y,
    (heldOf_of_fab (State.tickEvent_fab ..) _).trans hheld, hack⟩

/-- The packet that a pair expects, where none waits behind it. -/
theorem opSequenced_expected (htype : p.type = 0) (hdev : devOf p.dst = s.devCoord) (hdst : s.fab.dst (devOf p.src) = some x)
    (hpinc : x.pinc = p.pinc) (hseq : p.seq = x.expect) (hahead : x.ahead = []) (hwait : s.fab.amoWait = [])
    (happly : s.applyStore p = some (u, c)) (hfab : u.fab = s.fab) (hover : Safety.handedOver u) : opSequenced p s = u.advanced x p c := by
  rw [← hfab] at hdst hwait
  have happly' : s.applySeq p = some (u, c) := by rw [State.applySeq, htype]; exact happly
  obtain ⟨honly, hpair, -, hamo, hended, hlost⟩ := advanced_shows u x p c
  rw [dst_dev hdst] at hpair
  have hover' : Safety.handedOver (u.advanced x p c) := by
    obtain ⟨hended', hlost', hfolds⟩ := hover
    exact ⟨hended.trans hended', hlost.trans hlost', by rw [honly]; exact hfolds⟩
  unfold opSequenced
  rw [if_neg (by simp [htype, hdev]), pairFor_same (hfab ▸ hdst) hpinc]
  simp only [hseq, if_true, acceptSeq_applied happly' hdst hahead]
  rw [← hseq]
  change (((u.advanced x p c).drainAhead (devOf p.src) 16).amoWaiting).settledAll = _
  rw [drainAhead_nil 16 hpair hahead, amoWaiting_nil (hamo.trans hwait), State.settledAll_of_handedOver _ hover']

/-- A packet that the pair has applied already is acknowledged again (R294). -/
theorem opSequenced_again (htype : p.type = 0) (hdev : devOf p.dst = s.devCoord) (hdst : s.fab.dst (devOf p.src) = some x)
    (hpinc : x.pinc = p.pinc) (hseq : p.seq ≠ x.expect) (hcovered : seqCovered p.seq (x.expect - 1) = true) :
    opSequenced p s = ((s.takeArrived p).sendAck x p (x.expect - 1) cDONE).tickEvent := by
  unfold opSequenced
  rw [if_neg (by simp [htype, hdev]), pairFor_same hdst hpinc]
  simp only [hseq, hcovered, if_false, if_true]

/-- A packet ahead of its turn is kept (R294). -/
theorem opSequenced_ahead (htype : p.type = 0) (hdev : devOf p.dst = s.devCoord) (hdst : s.fab.dst (devOf p.src) = some x)
    (hpinc : x.pinc = p.pinc) (hseq : p.seq ≠ x.expect) (hcovered : seqCovered p.seq (x.expect - 1) = false)
    (hroom : x.ahead.length < 16) (hnew : ∀ q ∈ x.ahead, q.seq ≠ p.seq) :
    opSequenced p s = (s.takeArrived p).setDst { x with ahead := x.ahead ++ [p], last := s.now } := by
  have hany : (!x.ahead.any fun q => q.seq == p.seq) = true := by simpa using hnew
  unfold opSequenced
  rw [if_neg (by simp [htype, hdev]), pairFor_same hdst hpinc]
  simp only [hseq, hcovered, if_false, Bool.false_eq_true, hroom, hany, and_self, if_true]

end

end Sys2Proof.Machine

end

section

/-! ### Acknowledgements and resends at the source of a pair (R293, R296, R297) -/

set_option Elab.async false

namespace Sys2Proof.Machine

section
variable {s : State} {p : Packet} {x y : PairSrc} {d : DevCoord}

/-! #### The window (R296) -/

/-- The window of a pair widens and narrows, the rest of the pair is untouched. -/
theorem windowed_frame (x : PairSrc) (ack : BitVec 16) (ece : Bool) : x.windowed ack ece = { x with
    window := (x.windowed ack ece).window, roundEnd := (x.windowed ack ece).roundEnd, echoed := (x.windowed ack ece).echoed } := by
  unfold PairSrc.windowed PairSrc.echo
  dsimp only
  split <;> split <;> rfl

/-- Without an echo the window grows by one at the end of a round trip that returned none. -/
theorem windowed_noEcho (x : PairSrc) (ack : BitVec 16) : (x.windowed ack false).window
    = if seqCovered x.roundEnd ack = true ∧ x.echoed = false then min 128 (x.window + 1) else x.window := by
  have hecho : x.echo false = x := if_neg fun h => Bool.false_ne_true h.1
  unfold PairSrc.windowed
  rw [hecho]
  dsimp only
  cases x.echoed <;> cases seqCovered x.roundEnd ack <;> rfl

/-- The first echo of a round trip halves the window, whether or not the round trip ends. -/
theorem windowed_firstEcho (ack : BitVec 16) (h : x.echoed = false) : (x.windowed ack true).window = max 8 (x.window / 2) := by
  have hecho : x.echo true = { x with window := max 8 (x.window / 2), echoed := true } := if_pos ⟨rfl, by rw [h]; rfl⟩
  unfold PairSrc.windowed
  rw [hecho]
  dsimp only
  split <;> rfl

/-! #### ACK_ARRIVAL -/

/-- The pair once an ACK has taken the packets that it covers. -/
def PairSrc.acked (x : PairSrc) (p : Packet) (now : Nat) : PairSrc :=
  { x with unacked := x.unacked.filter fun e => !seqCovered e.1 p.ackSeq, unheard := false, last := now }.windowed p.ackSeq (p.ece == 1)

theorem acked_frame (x : PairSrc) (p : Packet) (now : Nat) : (x.acked p now).dev = x.dev
    ∧ (x.acked p now).unacked = x.unacked.filter (fun e => !seqCovered e.1 p.ackSeq) ∧ (x.acked p now).next = x.next
    ∧ (x.acked p now).broken = x.broken ∧ (x.acked p now).waiting = x.waiting ∧ (x.acked p now).last = now := by
  rw [PairSrc.acked, windowed_frame]
  exact ⟨rfl, rfl, rfl, rfl, rfl, rfl⟩

theorem acked_noEcho (hece : p.ece = 0) (now : Nat) : (x.acked p now).window
    = if seqCovered x.roundEnd p.ackSeq = true ∧ x.echoed = false then min 128 (x.window + 1) else x.window := by
  rw [PairSrc.acked, hece]
  exact windowed_noEcho ..

theorem acked_firstEcho (hece : p.ece = 1) (h : x.echoed = false) (now : Nat) : (x.acked p now).window = max 8 (x.window / 2) := by
  rw [PairSrc.acked, hece]
  exact windowed_firstEcho _ h

/-- An ACK taken, and its echo counted. -/
def State.ackTaken (s : State) (p : Packet) : State :=
  if p.ece = 1 then ((s.takeArrived p).incF Fld.ABR_E2E_STATS_ECHOES).tickEvent else s.takeArrived p

/-- The pair replaced; a narrower window breaks tick-repeat (R383). -/
def State.reopened (s : State) (x y : PairSrc) : State := if y.window < x.window then (s.setSrc y).tickEvent else s.setSrc y

/-- The echoes of a device and the open step. -/
def echoRegs : List Nat := [RegId.ABR_E2E_STATS.addr, RegId.LDG_STEP_STATUS.addr]

theorem mem_echoRegs : RegId.ABR_E2E_STATS.addr ∈ echoRegs ∧ RegId.LDG_STEP_STATUS.addr ∈ echoRegs := by simp [echoRegs]

theorem not_mem_echoRegs {r : RegId} {i j : Nat} (hi : i < r.spec.n1) (hj : j < r.spec.n2) (h : r ≠ .ABR_E2E_STATS)
    (h' : r ≠ .LDG_STEP_STATUS) : r.addr i j ∉ echoRegs := by
  simp only [echoRegs, List.mem_cons, List.not_mem_nil, or_false, not_or]
  exact ⟨RegId.addr_ne r .ABR_E2E_STATS hi hj Nat.one_pos Nat.one_pos h,
    RegId.addr_ne r .LDG_STEP_STATUS hi hj Nat.one_pos Nat.one_pos h'⟩

theorem ackTaken_confined (s : State) (p : Packet) : Confined (· ∈ echoRegs) (s.takeArrived p) (s.ackTaken p) :=
  .ite ((Confined.refl.incF 1 mem_echoRegs.1).tickEvent 1 mem_echoRegs.2) .refl

theorem ackTaken_hbm (s : State) (p : Packet) : (s.ackTaken p).hbm = s.hbm := by
  unfold State.ackTaken
  split
  · exact State.tickEvent_hbm ..
  · rfl

theorem ackTaken_now (s : State) (p : Packet) : (s.ackTaken p).now = s.now :=
  (ackTaken_confined s p).getF Fld.SCR_COUNT_COUNT (not_mem_echoRegs (r := .SCR_COUNT) Nat.one_pos Nat.one_pos (by decide) (by decide))

theorem ackTaken_echoes (hece : p.ece = 1) :
    (s.ackTaken p).getF Fld.ABR_E2E_STATS_ECHOES = (s.getF Fld.ABR_E2E_STATS_ECHOES + 1) % 2 ^ 32 := by
  have hapart : Fld.ABR_E2E_STATS_ECHOES.reg ≠ RegId.LDG_STEP_STATUS.addr :=
    RegId.addr_ne .ABR_E2E_STATS .LDG_STEP_STATUS Nat.one_pos Nat.one_pos Nat.one_pos Nat.one_pos (by decide)
  unfold State.ackTaken
  rw [if_pos hece, getF_tickEvent_ne _ _ hapart]
  exact getF_incF_self (s.takeArrived p) Fld.ABR_E2E_STATS_ECHOES (by decide)

theorem reopened_confined (s : State) (x y : PairSrc) : Confined (· ∈ [RegId.LDG_STEP_STATUS.addr]) (s.setSrc y) (s.reopened x y) :=
  .ite (Confined.refl.tickEvent 1 (List.mem_singleton_self _)) .refl

theorem reopened_hbm (s : State) (x y : PairSrc) : (s.reopened x y).hbm = s.hbm := by
  unfold State.reopened
  split
  · exact State.tickEvent_hbm ..
  · rfl

/-- An ACK without an echo changes the fabric alone. -/
theorem ackTaken_reopened_noEcho (hece : p.ece = 0) (hwindow : x.window ≤ 128) :
    ((s.ackTaken p).reopened x (x.acked p s.now)).regs = s.regs := by
  have hwide : ¬ (x.acked p s.now).window < x.window := by
    rw [acked_noEcho hece]
    split <;> omega
  have htaken : s.ackTaken p = s.takeArrived p := if_neg (by rw [hece]; decide)
  rw [State.reopened, if_neg hwide, htaken]
  rfl

/-- The echo of an ACK is counted. -/
theorem ackTaken_reopened_echoes (hece : p.ece = 1) : ((s.ackTaken p).reopened x y).getF Fld.ABR_E2E_STATS_ECHOES
    = (s.getF Fld.ABR_E2E_STATS_ECHOES + 1) % 2 ^ 32 := by
  have hapart : Fld.ABR_E2E_STATS_ECHOES.reg ∉ [RegId.LDG_STEP_STATUS.addr] := by
    rw [List.mem_singleton]
    exact RegId.addr_ne .ABR_E2E_STATS .LDG_STEP_STATUS Nat.one_pos Nat.one_pos Nat.one_pos Nat.one_pos (by decide)
  exact ((reopened_confined (s.ackTaken p) x y).getF _ hapart).trans (ackTaken_echoes hece)

/-- Packets of chunks that are not the last of theirs end without a trace. -/
theorem foldl_endChunks (l : List (BitVec 16 × Req)) (h : ∀ e ∈ l, ∃ b g q rank idx, e.2.org = .chunk b g q rank idx false)
    (s : State) : l.foldl (fun s e => if e.2.own then s.endReq e.2 cDONE else s.reqDone e.2 cDONE) s = s := by
  induction l with
  | nil => rfl
  | cons e l ih =>
    obtain ⟨b, g, q, rank, idx, horg⟩ := h e (List.mem_cons_self ..)
    have hstep : (if e.2.own then s.endReq e.2 cDONE else s.reqDone e.2 cDONE) = s := by
      simp [Req.own, State.reqDone, horg]
    rw [List.foldl_cons, hstep]
    exact ih fun e' he' => h e' (List.mem_cons_of_mem e he')

theorem pumpAll_idle (hsrc : s.fab.src d = some x) (hwaiting : x.waiting = []) : s.pumpAll d = s := by
  unfold State.pumpAll
  simp only [hsrc, hwaiting]
  rfl

theorem unstall_nil (n : Nat) (h : s.fab.stalled = []) : s.unstall n = s := by
  cases n with
  | zero => rfl
  | succ n =>
    unfold State.unstall
    simp only [h]

/-- The pair and the fabric's lists after an ACK. -/
theorem ackTaken_reopened_src (hsrc : s.fab.src d = some x) (hdev : y.dev = x.dev) :
    ((s.ackTaken p).reopened x y).fab.src d = some y
      ∧ ((s.ackTaken p).reopened x y).fab.stalled = s.fab.stalled ∧ ((s.ackTaken p).reopened x y).fab.ended = s.fab.ended
      ∧ ((s.ackTaken p).reopened x y).fab.lost = s.fab.lost := by
  have hfab : (s.ackTaken p).fab = (s.takeArrived p).fab := (ackTaken_confined s p).fab
  rw [(reopened_confined (s.ackTaken p) x y).fab]
  change ((s.ackTaken p).fab.setSrc y).src d = some y ∧ (s.ackTaken p).fab.stalled = _ ∧ (s.ackTaken p).fab.ended = _
    ∧ (s.ackTaken p).fab.lost = _
  rw [hfab]
  exact ⟨src_setSrc (f := (s.takeArrived p).fab) hsrc hdev, rfl, rfl, rfl⟩

/-- Memory, the bays and every register but two are untouched by an ACK. -/
theorem ackTaken_reopened_frame (s : State) (p : Packet) (x y : PairSrc) : ((s.ackTaken p).reopened x y).mem = s.mem
    ∧ ((s.ackTaken p).reopened x y).bays = s.bays ∧ Safety.keepsRegs s ((s.ackTaken p).reopened x y) echoRegs := by
  have htaken := ackTaken_confined s p
  have hopened := reopened_confined (s.ackTaken p) x y
  refine ⟨hopened.mem.trans htaken.mem, hopened.bays.trans htaken.bays,
    fun r hr => (hopened.reg r fun h => hr ?_).trans (htaken.reg r hr)⟩
  exact List.mem_cons_of_mem _ h

/-- The covered packets of an ACK with DONE, all of chunks: they leave the pair, and nothing else follows. -/
theorem opAck_covers (htype : p.type = 5) (hdev : devOf p.dst = s.devCoord) (hsrc : s.fab.src (devOf p.src) = some x)
    (hbroken : x.broken = false) (hpinc : x.pinc = p.pinc) (hdone : p.status = cDONE) (hwaiting : x.waiting = [])
    (hstalled : s.fab.stalled = []) (hover : Safety.handedOver s) (hcovers : ∃ e ∈ x.unacked, seqCovered e.1 p.ackSeq = true)
    (hchunks : ∀ e ∈ x.unacked, seqCovered e.1 p.ackSeq = true → ∃ b g q rank idx, e.2.org = .chunk b g q rank idx false) :
    opAck p s = (s.ackTaken p).reopened x (x.acked p s.now) := by
  obtain ⟨hdev', -, -, -, hwaiting', -⟩ := acked_frame x p s.now
  obtain ⟨hpair, hstalled', hended', hlost'⟩ := ackTaken_reopened_src (s := s) (p := p) hsrc hdev'
  obtain ⟨hmem', hbays', hregs'⟩ := ackTaken_reopened_frame s p x (x.acked p s.now)
  have hsrc' : (s.ackTaken p).fab.src (devOf p.src) = some x := by rw [(ackTaken_confined s p).fab]; exact hsrc
  have hempty : (x.unacked.filter fun e => seqCovered e.1 p.ackSeq).isEmpty = false := by
    obtain ⟨e, he, hcovered⟩ := hcovers
    exact List.isEmpty_eq_false_iff_exists_mem.mpr ⟨e, List.mem_filter.mpr ⟨he, hcovered⟩⟩
  have hends := foldl_endChunks (x.unacked.filter fun e => seqCovered e.1 p.ackSeq)
    (fun e he => hchunks e (List.mem_filter.mp he).1 (List.mem_filter.mp he).2)
  have hover' : Safety.handedOver ((s.ackTaken p).reopened x (x.acked p s.now)) := by
    obtain ⟨hended, hlost, hfolds⟩ := hover
    have hcap : ((s.ackTaken p).reopened x (x.acked p s.now)).getF Fld.HBM_CAP_FOLDS = s.getF Fld.HBM_CAP_FOLDS :=
      congrArg (fieldOf · _ _) (hregs' _ (not_mem_echoRegs (r := .HBM_CAP) Nat.one_pos Nat.one_pos (by decide) (by decide)))
    rw [Safety.handedOver, hended', hlost', hcap, reopened_hbm, ackTaken_hbm]
    exact ⟨hended, hlost, hfolds⟩
  have hnow : (s.ackTaken p).now = s.now := ackTaken_now s p
  have hguard : (x.broken || x.pinc != p.pinc) = false := by simp [hbroken, hpinc]
  unfold opAck
  rw [if_neg (by simp [htype, hdev])]
  extract_lets t u code
  have hu : u = s.ackTaken p := rfl
  have hcode : ∀ e, code e = cDONE := fun e => (congrArg (fun c => if e.1 = p.ackSeq then c else cDONE) hdone).trans (ite_self _)
  clear_value u code
  subst hu
  simp only [hsrc', hguard, Bool.false_eq_true, if_false, hempty, hdone, ne_eq, not_true_eq_false,
    decide_false, Bool.false_and, hnow, hcode]
  rw [hends]
  change ((((s.ackTaken p).reopened x (x.acked p s.now)).pumpAll (devOf p.src)).unstall _).settledAll = _
  rw [pumpAll_idle hpair (hwaiting'.trans hwaiting), unstall_nil _ (hstalled'.trans hstalled), State.settledAll_of_handedOver _ hover']

/-! #### RTO_EXPIRY and the hold-off -/

/-- The one unacknowledged packet of a pair is sent again. -/
theorem opRto_one {q : BitVec 16} {r : Req} {data : List Byte} (hsrc : s.fab.src d = some x) (hunacked : x.unacked = [(q, r)])
    (hwaits : s.reqWaits r = false) (hread : s.payloadOf r = (s, cDONE, data)) :
    opRto d s = ((s.tellChunk r).inject (s.packetOf x r q (q == 0 && x.unheard) data)).tickEvent := by
  unfold opRto
  simp only [hsrc, hunacked, List.isEmpty_cons, List.any_cons, List.any_nil, hwaits, Bool.or_false, Bool.false_eq_true, or_self, if_false,
    List.foldl_cons, List.foldl_nil, hread, ne_eq, not_true_eq_false]

/-- The fabric without the pair to a device, whose next incarnation is one higher. -/
def Fabric.retired (f : Fabric) (d : DevCoord) (x : PairSrc) : Fabric :=
  { f with srcs := f.srcs.filter fun y => y.dev != d, pincs := smapSet (fun _ => 0) f.pincs d.toNat (x.pinc + 1) }

theorem opHoldoff_broken (hsrc : s.fab.src d = some x) (hbroken : x.broken = true) (hstalled : s.fab.stalled = [])
    (hover : Safety.handedOver s) : opHoldoff d s = { s with fab := s.fab.retired d x } := by
  have hstalled' : (s.fab.retired d x).stalled = [] := hstalled
  unfold opHoldoff
  simp only [hsrc, hbroken, Bool.not_true, Bool.false_eq_true, if_false]
  change (State.unstall { s with fab := s.fab.retired d x } _).settledAll = _
  rw [unstall_nil (s := { s with fab := s.fab.retired d x }) _ hstalled',
    State.settledAll_of_handedOver { s with fab := s.fab.retired d x } hover]

theorem retired_src (f : Fabric) (d : DevCoord) (x : PairSrc) :
    (f.retired d x).src d = none ∧ ∀ e, e ≠ d → (f.retired d x).src e = f.src e := by
  refine ⟨?_, fun e he => ?_⟩
  · simp [Fabric.src, Fabric.retired, List.find?_eq_none]
  · have hp : (fun y : PairSrc => decide ((y.dev != d) = true ∧ (y.dev == e) = true)) = fun y => y.dev == e := by
      funext y
      by_cases h : y.dev = e <;> simp [h, he]
    simp only [Fabric.src, Fabric.retired, List.find?_filter, hp]

end

end Sys2Proof.Machine

end

section

/-! ### Pairs that break (R298, R299, R315) -/

set_option Elab.async false

namespace Sys2Proof.Machine

section
variable {s u : State} {x : PairSrc} {d : DevCoord} {h : HemJob}

/-! #### The failure seen -/

/-- A failure to reach a device: made known, counted and recorded, and a Bits event. -/
def State.lossSeen (s : State) (d : DevCoord) : State :=
  (({ s with fab := { s.fab with lost := s.fab.lost ++ [d] } } : State).fabErr cLINK_LOST d 0).bitsEvent cLINK_LOST

theorem fabLog_regs_only (s : State) (c : Code) (d : DevCoord) (port : Nat) :
    s.fabLog c d port = { s with regs := (s.fabLog c d port).regs } := by
  unfold State.fabLog
  split
  · rfl
  · exact State.setFs_regs_only ..

theorem lossSeen_only (s : State) (d : DevCoord) : s.lossSeen d
    = { s with regs := (s.lossSeen d).regs, fab := { s.fab with lost := s.fab.lost ++ [d] } } := by
  unfold State.lossSeen State.fabErr
  rw [State.bitsEvent_regs_only, fabLog_regs_only]
  rfl

theorem fabLog_reg_ne {r : Nat} (hr : r ≠ RegId.ABR_FAB_ERR.addr) (c : Code) (port : Nat) : (s.fabLog c d port).reg r = s.reg r := by
  unfold State.fabLog
  split
  · rfl
  · simp only [setFs_cons, setFs_nil]
    rw [State.reg_setF_ne, State.reg_setF_ne, State.reg_setF_ne, State.reg_setF_ne] <;> exact hr

/-- Beside the failure's own registers the open step alone changes. -/
theorem lossSeen_reg {r : Nat} (herr : r ≠ RegId.ABR_FAB_ERR.addr) (hcnt : r ≠ RegId.ABR_FAB_ERR_CNT.addr)
    (hstep : r ≠ RegId.LDG_STEP_STATUS.addr) : (s.lossSeen d).reg r = s.reg r := by
  rw [State.lossSeen, State.reg_bitsEvent_ne _ _ _ hstep, State.fabErr, fabLog_reg_ne herr, State.reg_incF_ne _ _ _ _ hcnt]
  rfl

theorem fabErr_ne_step : RegId.ABR_FAB_ERR.addr ≠ RegId.LDG_STEP_STATUS.addr :=
  RegId.addr_ne .ABR_FAB_ERR .LDG_STEP_STATUS Nat.one_pos Nat.one_pos Nat.one_pos Nat.one_pos (by decide)

theorem fabErrCnt_ne_step : RegId.ABR_FAB_ERR_CNT.addr ≠ RegId.LDG_STEP_STATUS.addr :=
  RegId.addr_ne .ABR_FAB_ERR_CNT .LDG_STEP_STATUS Nat.one_pos Nat.one_pos Nat.one_pos Nat.one_pos (by decide)

theorem fabErr_ne_fabErrCnt : RegId.ABR_FAB_ERR.addr ≠ RegId.ABR_FAB_ERR_CNT.addr :=
  RegId.addr_ne .ABR_FAB_ERR .ABR_FAB_ERR_CNT Nat.one_pos Nat.one_pos Nat.one_pos Nat.one_pos (by decide)

/-- What the registers show of a failure to reach a device (R14, R315, R383): it is counted, recorded where none is held, and the open
step's bits are no longer valid. -/
structure LossShown (s t : State) (d : DevCoord) : Prop where
  count : t.getF Fld.ABR_FAB_ERR_CNT_COUNT = (s.getF Fld.ABR_FAB_ERR_CNT_COUNT + 1) % 2 ^ 32
  first : s.getF Fld.ABR_FAB_ERR_VALID = 0 → t.getF Fld.ABR_FAB_ERR_VALID = 1 ∧ t.getF Fld.ABR_FAB_ERR_CODE = cLINK_LOST.toNat
    ∧ t.getF Fld.ABR_FAB_ERR_DEST_DEV = d.toNat
  later : s.getF Fld.ABR_FAB_ERR_VALID = 1 → t.reg RegId.ABR_FAB_ERR.addr = s.reg RegId.ABR_FAB_ERR.addr
  bits : t.getF Fld.LDG_STEP_STATUS_VALID = 0
  folds : t.getF Fld.HBM_CAP_FOLDS = s.getF Fld.HBM_CAP_FOLDS

/-- Beside the open step's, the registers of the failure stay as they are shown. -/
theorem LossShown.keeps {t : State} (hs : LossShown s t d) (hregs : Safety.keepsRegs t u [RegId.LDG_STEP_STATUS.addr])
    (hbits : u.getF Fld.LDG_STEP_STATUS_VALID = 0) : LossShown s u d := by
  have hreg {r : Nat} (hr : r ≠ RegId.LDG_STEP_STATUS.addr) : u.reg r = t.reg r := hregs r (by simpa using hr)
  have hf (f : Field) (hr : f.reg ≠ RegId.LDG_STEP_STATUS.addr) : u.getF f = t.getF f := congrArg (fieldOf · _ _) (hreg hr)
  refine ⟨(hf _ fabErrCnt_ne_step).trans hs.count, fun hv => ?_, fun hv => (hreg fabErr_ne_step).trans (hs.later hv), hbits,
    (hf _ (RegId.addr_ne .HBM_CAP .LDG_STEP_STATUS Nat.one_pos Nat.one_pos Nat.one_pos Nat.one_pos (by decide))).trans hs.folds⟩
  obtain ⟨hvalid, hcode, hdest⟩ := hs.first hv
  exact ⟨(hf _ fabErr_ne_step).trans hvalid, (hf _ fabErr_ne_step).trans hcode, (hf _ fabErr_ne_step).trans hdest⟩

/-- The failure counted, before it is recorded. -/
def State.lossCounted (s : State) (d : DevCoord) : State :=
  ({ s with fab := { s.fab with lost := s.fab.lost ++ [d] } } : State).incF Fld.ABR_FAB_ERR_CNT_COUNT

theorem lossSeen_shown (s : State) (d : DevCoord) : LossShown s (s.lossSeen d) d := by
  have herr : (s.lossCounted d).reg RegId.ABR_FAB_ERR.addr = s.reg RegId.ABR_FAB_ERR.addr :=
    State.reg_incF_ne _ _ _ _ fabErr_ne_fabErrCnt
  have hvalid : (s.lossCounted d).getF Fld.ABR_FAB_ERR_VALID = s.getF Fld.ABR_FAB_ERR_VALID := congrArg (fieldOf · _ _) herr
  have hstep {r : Nat} (hr : r ≠ RegId.LDG_STEP_STATUS.addr) :
      (s.lossSeen d).reg r = ((s.lossCounted d).fabLog cLINK_LOST d 0).reg r := State.reg_bitsEvent_ne _ _ _ hr
  have hcount : (s.lossSeen d).reg RegId.ABR_FAB_ERR_CNT.addr = (s.lossCounted d).reg RegId.ABR_FAB_ERR_CNT.addr :=
    (hstep fabErrCnt_ne_step).trans (fabLog_reg_ne fabErr_ne_fabErrCnt.symm _ _)
  refine ⟨?_, fun hv => ?_, fun hv => ?_, bitsEvent_valid _ _, ?_⟩
  · exact (congrArg (fieldOf · 0 32) hcount).trans (getF_incF_self _ Fld.ABR_FAB_ERR_CNT_COUNT (by decide))
  · obtain ⟨h₁, h₂, h₃⟩ := fabLog_fields (hvalid.trans hv) cLINK_LOST d 0
    exact ⟨(congrArg (fieldOf · _ _) (hstep fabErr_ne_step)).trans h₁, (congrArg (fieldOf · _ _) (hstep fabErr_ne_step)).trans h₂,
      (congrArg (fieldOf · _ _) (hstep fabErr_ne_step)).trans h₃⟩
  · have hheld : (s.lossCounted d).fabLog cLINK_LOST d 0 = s.lossCounted d := if_pos (hvalid.trans hv)
    rw [hstep fabErr_ne_step, hheld, herr]
  · exact congrArg (fieldOf · _ _) (lossSeen_reg (r := RegId.HBM_CAP.addr)
      (RegId.addr_ne .HBM_CAP .ABR_FAB_ERR Nat.one_pos Nat.one_pos Nat.one_pos Nat.one_pos (by decide))
      (RegId.addr_ne .HBM_CAP .ABR_FAB_ERR_CNT Nat.one_pos Nat.one_pos Nat.one_pos Nat.one_pos (by decide))
      (RegId.addr_ne .HBM_CAP .LDG_STEP_STATUS Nat.one_pos Nat.one_pos Nat.one_pos Nat.one_pos (by decide)))

/-! #### The pair breaks -/

theorem lossSeen_fab (s : State) (d : DevCoord) : (s.lossSeen d).fab = { s.fab with lost := s.fab.lost ++ [d] } := by
  rw [lossSeen_only]

/-- A failure to a device whose pair is broken already is seen, and ends nothing. -/
theorem breakPair_broken (hsrc : s.fab.src d = some x) (hbroken : x.broken = true) : s.breakPair d cLINK_LOST 0 = s.lossSeen d := by
  have hsrc' : (s.lossSeen d).fab.src d = some x := by rw [lossSeen_fab]; exact hsrc
  unfold State.breakPair
  change (match (if ((s.lossSeen d).fab.src d).isSome = true then some (s.lossSeen d).fab else _).bind fun f => f.src d with
    | none => s.lossSeen d
    | some x => _) = _
  rw [hsrc', Option.isSome_some, if_pos rfl, Option.bind_some, hsrc']
  exact if_pos hbroken

/-- The pair without its requests, broken. -/
def PairSrc.cut (x : PairSrc) : PairSrc := { x with unacked := [], waiting := [], broken := true }

/-- The requests of a pair, sent and waiting. -/
def PairSrc.reqs (x : PairSrc) : List Req := x.unacked.map Prod.snd ++ x.waiting

/-- A pair breaks: all its requests end with LINK_LOST (R298). -/
theorem breakPair_live (hsrc : s.fab.src d = some x) (hbroken : x.broken = false) (hstalled : s.fab.stalled = []) :
    s.breakPair d cLINK_LOST 0 = x.reqs.foldl (fun s r => s.endReq r cLINK_LOST) ((s.lossSeen d).setSrc x.cut) := by
  have hsrc' : (s.lossSeen d).fab.src d = some x := by rw [lossSeen_fab]; exact hsrc
  have hstalled' : (s.lossSeen d).fab.stalled = [] := by rw [lossSeen_fab]; exact hstalled
  have hempty : ({ (s.lossSeen d).fab.setSrc x.cut with stalled := [] } : Fabric) = (s.lossSeen d).fab.setSrc x.cut := by
    conv_lhs => rw [← hstalled']
    rfl
  unfold State.breakPair
  extract_lets _ t fab f
  have hfab : fab = some (s.lossSeen d).fab := if_pos (by rw [show t = s.lossSeen d from rfl, hsrc']; rfl)
  have hf : f = (s.lossSeen d).fab := by rw [show f = fab.getD t.fab from rfl, hfab]; rfl
  rw [hfab, hf]
  simp only [Option.bind_some, hsrc', hbroken, Bool.false_eq_true, if_false, hstalled', List.filter_nil, List.map_nil,
    List.append_nil]
  exact congrArg (fun f => x.reqs.foldl (fun s r => s.endReq r cLINK_LOST) { s.lossSeen d with fab := f }) hempty

/-- Requests that a lost link ends: they wait to be handed to their requesters, and the open step's bits are not valid (R383). -/
theorem foldl_endReq_lost (l : List Req) (s : State) :
    l.foldl (fun s r => s.endReq r cLINK_LOST) s = { s with
        regs := (l.foldl (fun s r => s.endReq r cLINK_LOST) s).regs
        fab := { s.fab with ended := s.fab.ended ++ l.map fun r => (r, cLINK_LOST) } }
      ∧ Safety.keepsRegs s (l.foldl (fun s r => s.endReq r cLINK_LOST) s) [RegId.LDG_STEP_STATUS.addr]
      ∧ (s.getF Fld.LDG_STEP_STATUS_VALID = 0 →
          (l.foldl (fun s r => s.endReq r cLINK_LOST) s).getF Fld.LDG_STEP_STATUS_VALID = 0) := by
  induction l generalizing s with
  | nil => exact ⟨by simp, fun _ _ => rfl, id⟩
  | cons r l ih =>
    have hend : s.endReq r cLINK_LOST
        = { s.bitsEvent cLINK_LOST with fab := { s.fab with ended := s.fab.ended ++ [(r, cLINK_LOST)] } } := by
      rw [State.endReq, if_pos rfl, State.bitsEvent_fab]
    obtain ⟨honly, hregs, hvalid⟩ := ih (s.endReq r cLINK_LOST)
    rw [List.foldl_cons]
    refine ⟨?_, fun a ha => (hregs a ha).trans ?_, fun _ => hvalid ?_⟩
    · rw [honly, hend, State.bitsEvent_regs_only, List.map_cons, List.append_cons, List.append_assoc]
      simp
    · rw [hend]
      exact State.reg_bitsEvent_ne _ _ _ (by simpa using ha)
    · rw [hend]
      exact bitsEvent_valid s cLINK_LOST

/-! #### The Ledger hears of its stores (R418) -/

/-- The hem of a Ledger whose store a lost link ended. -/
def State.hemLost (s : State) : State := s.ledgerFails .hem cLINK_LOST

/-- The hem hears of each of a list of stores ended. -/
def State.hemLosses (s : State) (l : List (Req × Code)) : State := l.foldl (fun t _ => t.hemLost) s

/-- Only stores of the hem have ended, by a lost link. -/
def Fabric.hemEnded (f : Fabric) : Prop := ∀ e ∈ f.ended, e.1.org = .ledger .hem ∧ e.2 = cLINK_LOST

/-- The fabric with no device newly lost. -/
def State.lossTold (s : State) : State := { s with fab := { s.fab with lost := [] } }

/-- With no collective open, the end of the hem's stores and the loss of a device are told to none. -/
theorem settled_hemEnded (hcolls : s.openColls = []) (hended : s.fab.hemEnded) : s.settled = s.lossTold := by
  have hown : (s.fab.ended.filter fun e => !e.1.own) = [] :=
    List.filter_eq_nil_iff.mpr fun e he => by simp [Req.own, (hended e he).1]
  unfold State.settled State.settleEnded
  simp only [hown, List.isEmpty_nil, if_true]
  unfold State.loseNeighbours
  dsimp only
  rw [hcolls, List.foldl_nil]
  split
  · next hlost => rw [State.lossTold, ← List.isEmpty_iff.mp hlost]
  · rfl

/-- Header DMA hears nothing of the hem's stores. -/
theorem settleDma_hemEnded (hended : s.fab.hemEnded) : s.settleDma = s := by
  unfold State.settleDma
  extract_lets l _ t u
  have hl : l = [] := List.filter_eq_nil_iff.mpr fun e he => by simp [(hended e he).1]
  have hrest : t.fab.ended = s.fab.ended := List.filter_eq_self.mpr fun e he => by simp [(hended e he).1]
  have ht : t = s := by
    rw [show t = { s with fab := { s.fab with ended := t.fab.ended } } from rfl, hrest]
  rw [show u = l.foldl (fun s e => s.dmaEnd e.1 e.2) t from rfl, hl, ht]
  rfl

/-- The hem hears of all its stores that ended, and they are handed over. -/
theorem settleLedger_hemEnded (hended : s.fab.hemEnded) :
    s.settleLedger = State.hemLosses { s with fab := { s.fab with ended := [] } } s.fab.ended := by
  have hfails : cLINK_LOST ≠ cDONE := by decide
  unfold State.settleLedger
  extract_lets l _ t
  have hl : l = s.fab.ended.map fun _ => (LedgerUse.hem, cLINK_LOST) :=
    (List.filterMap_congr fun e he => by simp [(hended e he).1, (hended e he).2]).trans (congrFun List.filterMap_eq_map s.fab.ended)
  have hrest : t.fab.ended = [] := List.filter_eq_nil_iff.mpr fun e he => by simp [(hended e he).1]
  have ht : t = { s with fab := { s.fab with ended := [] } } := by
    rw [show t = { s with fab := { s.fab with ended := t.fab.ended } } from rfl, hrest]
  rw [hl, ht, List.foldl_map]
  simp only [hfails, if_false]
  rfl

theorem beyondFolds_within (hfolds : s.getF Fld.HBM_CAP_FOLDS = 16 → s.hbm.waiting = []) : s.beyondFolds = s :=
  if_neg fun hcond => hcond.2 (hfolds hcond.1)

/-- Nothing of the fabric waits to be told. -/
def State.allTold (s : State) : State := { s with fab := { s.fab with ended := [], lost := [] } }

/-- With only stores of the hem ended and no collective open, the hem alone hears, once for each. -/
theorem settledAll_hemEnded (hcolls : s.openColls = []) (hended : s.fab.hemEnded) :
    s.settledAll = (s.allTold.hemLosses s.fab.ended).beyondFolds := by
  have hended' : s.lossTold.fab.hemEnded := hended
  rw [State.settledAll, settled_hemEnded hcolls hended, settleDma_hemEnded hended', settleLedger_hemEnded hended']
  rfl

/-- What the Ledger hears changes none of the registers. -/
theorem hemLosses_keeps (l : List (Req × Code)) (s : State) :
    LedgerKeeps (fun _ => False) s (s.hemLosses l) :=
  LedgerKeeps.refl.foldl fun _ _ _ h => (h.withdrawLedger .hem).frame

theorem dropReqs_src {f : Fabric} (P : Req → Bool) (hsrc : f.src d = some x) (hwaiting : x.waiting = []) :
    (f.dropReqs P).src d = some x := by
  have hx : ({ x with waiting := x.waiting.filter fun r => !P r } : PairSrc) = x := by
    rw [hwaiting, List.filter_nil, ← hwaiting]
  change List.find? _ (f.srcs.map _) = _
  rw [List.find?_map]
  change (f.src d).map _ = _
  rw [hsrc, Option.map_some, hx]

/-- A pair with nothing to send is left as it is. -/
theorem hemLosses_src (l : List (Req × Code)) (hsrc : s.fab.src d = some x) (hwaiting : x.waiting = []) :
    (s.hemLosses l).fab.src d = some x := by
  induction l generalizing s with
  | nil => exact hsrc
  | cons e l ih => exact ih (s := s.hemLost) (dropReqs_src _ hsrc hwaiting)

/-- A hem keeps the first failure that it heard of. -/
theorem hemLosses_failed (l : List (Req × Code)) {c : Code} (hhem : s.ldg.hem = some h) (hfail : h.fail = some c) :
    (s.hemLosses l).ldg.hem = some h := by
  induction l generalizing s with
  | nil => exact hhem
  | cons e l ih =>
    have hkept : ({ h with fail := h.fail.or (some cLINK_LOST) } : HemJob) = h := by rw [hfail, Option.some_or, ← hfail]
    refine ih (s := s.hemLost) ?_
    change s.ldg.hem.map _ = _
    rw [hhem, Option.map_some, hkept]

/-- A hem that hears of a lost store fails with LINK_LOST. -/
theorem hemLosses_hem {l : List (Req × Code)} (hl : l ≠ []) (hhem : s.ldg.hem = some h) (hfail : h.fail = none) :
    (s.hemLosses l).ldg.hem = some { h with fail := some cLINK_LOST } := by
  cases l with
  | nil => exact absurd rfl hl
  | cons e l =>
    refine hemLosses_failed l (s := s.hemLost) (c := cLINK_LOST) ?_ rfl
    change s.ldg.hem.map _ = _
    rw [hhem, Option.map_some, hfail]
    rfl

/-- A failure seen with no request that it ends. -/
theorem lossSeen_settled (hsrc : s.fab.src d = some x) (hover : Safety.handedOver s) (hcolls : s.openColls = []) :
    LossShown s (s.lossSeen d).settledAll d ∧ (s.lossSeen d).settledAll.fab.src d = some x
      ∧ (s.lossSeen d).settledAll.mem = s.mem ∧ (s.lossSeen d).settledAll.bays = s.bays := by
  obtain ⟨hended, -, hfolds⟩ := hover
  have hshown := lossSeen_shown s d
  have honly := lossSeen_only s d
  generalize s.lossSeen d = u at hshown honly
  have hended' : u.fab.ended = [] := by rw [honly]; exact hended
  have hfolds' : u.getF Fld.HBM_CAP_FOLDS = 16 → u.hbm.waiting = [] := by rw [hshown.folds, honly]; exact hfolds
  have hcolls' : u.openColls = [] := by rw [honly]; exact hcolls
  have hnone : u.fab.hemEnded := fun e he => absurd (hended' ▸ he) List.not_mem_nil
  have hsettled : u.settledAll = u.allTold := by
    rw [settledAll_hemEnded hcolls' hnone, hended']
    exact beyondFolds_within (s := u.allTold) hfolds'
  rw [hsettled]
  exact ⟨hshown.keeps (fun _ _ => rfl) hshown.bits, by rw [honly]; exact hsrc, by rw [honly]; rfl, by rw [honly]; rfl⟩

/-- What the break of a pair of the hem's stores shows (R298, R418). -/
theorem breakPair_hem (hsrc : s.fab.src d = some x) (hover : Safety.handedOver s) (hcolls : s.openColls = [])
    (hstalled : s.fab.stalled = []) (hbroken : x.broken = false) (hhem : s.ldg.hem = some h) (hfail : h.fail = none) (hreqs : x.reqs ≠ [])
    (horg : ∀ r ∈ x.reqs, r.org = .ledger .hem) {t : State} (ht : t = (s.breakPair d cLINK_LOST 0).settledAll) :
    LossShown s t d ∧ t.fab.src d = some x.cut ∧ t.ldg.hem = some { h with fail := some cLINK_LOST } ∧ t.fab.ended = []
      ∧ t.mem = s.mem ∧ t.bays = s.bays := by
  obtain ⟨hended, -, hfolds⟩ := hover
  obtain ⟨honly, hregs, hbits⟩ := foldl_endReq_lost x.reqs ((s.lossSeen d).setSrc x.cut)
  have hshown := (lossSeen_shown s d).keeps hregs (hbits (lossSeen_shown s d).bits)
  rw [breakPair_live hsrc hbroken hstalled] at ht
  generalize x.reqs.foldl (fun s r => s.endReq r cLINK_LOST) ((s.lossSeen d).setSrc x.cut) = u at ht honly hshown
  rw [State.setSrc, lossSeen_only] at honly
  have hended' : u.fab.ended = x.reqs.map fun r => (r, cLINK_LOST) := by
    rw [honly]
    exact congrArg (· ++ _) hended
  have hsrc' : u.fab.src d = some x.cut := by
    rw [honly]
    exact src_setSrc (f := { s.fab with lost := s.fab.lost ++ [d] }) hsrc rfl
  have hhem' : u.ldg.hem = some h := by rw [honly]; exact hhem
  have hfolds' : u.getF Fld.HBM_CAP_FOLDS = 16 → u.hbm.waiting = [] := by rw [hshown.folds, honly]; exact hfolds
  have hmem : u.mem = s.mem := by rw [honly]
  have hbays : u.bays = s.bays := by rw [honly]
  have hheard : u.fab.hemEnded := by
    rw [Fabric.hemEnded, hended']
    exact List.forall_mem_map.mpr fun r hr => ⟨horg r hr, rfl⟩
  have hne : u.fab.ended ≠ [] := by rw [hended']; exact fun e => hreqs (List.map_eq_nil_iff.mp e)
  have hkept := hemLosses_keeps u.fab.ended u.allTold
  have hpair := hemLosses_src u.fab.ended (s := u.allTold) hsrc' rfl
  have hlost := hemLosses_hem (s := u.allTold) hne hhem' hfail
  have hcolls' : u.openColls = [] := by rw [honly]; exact hcolls
  rw [settledAll_hemEnded hcolls' hheard, beyondFolds_within fun e => hkept.hbm ▸ hfolds' ((hkept.getF _ id).symm.trans e)] at ht
  subst ht
  exact ⟨hshown.keeps (fun r _ => hkept.reg r id) ((hkept.getF _ id).trans hshown.bits), hpair, hlost, hkept.ended, hkept.mem.trans hmem,
    hkept.bays.trans hbays⟩

/-! #### The commands -/

/-- The notices of a device that is not reached, taken. -/
def State.noticesTaken (s : State) (d : DevCoord) : State :=
  { s with fab := { s.fab with arrived := s.fab.arrived.filter fun p => !(p.type == 0xC && p.addr == d.setWidth 48) } }

theorem opUnreachable_eq (d : DevCoord) (s : State) : opUnreachable d s = ((s.noticesTaken d).breakPair d cLINK_LOST 0).settledAll := rfl

theorem opPairBreak_eq (hsrc : s.fab.src d = some x) (hunacked : x.unacked ≠ []) :
    opPairBreak d s = (s.breakPair d cLINK_LOST 0).settledAll := by
  unfold opPairBreak
  simp only [hsrc]
  exact if_neg (by simpa using hunacked)

end

end Sys2Proof.Machine

namespace Sys2Proof
open Machine

/-- Settles O45, clause by clause: the destination by `opSequenced_expected`, `opSequenced_again` and `opSequenced_ahead`, the source by
`opAck_covers` and `opRto_one`, its breaks by `lossSeen_settled` and `breakPair_hem`, the hold-off by `opHoldoff_broken`. -/
theorem sequencedPackets : Obligations.SequencedPackets := by
  unfold Obligations.SequencedPackets
  refine ⟨fun p s x h htype hdev hdst hpinc hover hh => ?_,
    fun p s x htype hdev hsrc hbroken hpinc hdone hwindow hwaiting hstalled hover hcovers hchunks => ?_,
    fun d s x q r data hsrc hunacked hwaits hread => congrArg Host.Outcome.next (opRto_one hsrc hunacked hwaits hread),
    fun d s x hsrc hover hcolls hstalled => ⟨fun hbroken => ?_, fun h hbroken hhem hfail hreqs horg c hc hsent => ?_⟩,
    fun d s x hsrc hbroken hstalled hover => ?_⟩
  · subst hh
    have hxdev := dst_dev hdst
    refine ⟨fun hseq hahead hwait hserved => ⟨fun h1 h2 hne hlow hhigh hpeer hcut hallowed => ?_, fun hnotHeld hledger hepoch => ?_⟩,
      fun hseq hcovered => ?_, fun hseq hcovered hroom hnew => ?_⟩
    -- the packet expected, a store to bay memory
    · have hrun := opSequenced_expected htype hdev hdst hpinc hseq hahead hwait
        (applyStore_bays hserved hne h1 h2 hlow hhigh hpeer hcut hallowed) (State.setMemBytes_fab ..) (handedOver_setMemBytes hover _ _)
      obtain ⟨honly, hbytes, hkept, hpair, harrived, y, hheld, hack⟩ := stored_shows s x p cDONE rfl
      exact ⟨_, y, congrArg Host.Outcome.next hrun, honly, hbytes, hkept, hxdev ▸ hpair, hheld, hack.type, hack.dst, hack.ackSeq,
        hack.status, hack.pinc, hack.ece, hack.space, harrived⟩
    -- the packet expected, of another epoch
    · have hrun := opSequenced_expected htype hdev hdst hpinc hseq hahead hwait
        (applyStore_stale hserved hnotHeld hledger hepoch) rfl hover
      obtain ⟨honly, hpair, -⟩ := advanced_shows s x p cEPOCH_STALE
      obtain ⟨y, hheld, hack⟩ := advanced_held (s := s) (u := s) (.of_regs rfl rfl rfl) x p cEPOCH_STALE
      rw [hxdev] at hpair
      exact ⟨_, y, congrArg Host.Outcome.next hrun, honly, hpair, hheld, hack.type, hack.ackSeq, hack.status⟩
    -- a packet applied already
    · have hrun := opSequenced_again htype hdev hdst hpinc hseq hcovered
      obtain ⟨hmem, hdsts, hclean, hregs, y, hheld, hack⟩ := ackAgain_shows s x p (x.expect - 1) cDONE rfl
      exact ⟨_, y, congrArg Host.Outcome.next hrun, hmem, hdsts, hheld, hack.type, hack.ackSeq, hack.status, hclean,
        hregs⟩
    -- a packet ahead of its turn
    · have hrun := opSequenced_ahead htype hdev hdst hpinc hseq hcovered hroom hnew
      have hpair := dst_setDst (s.takeArrived p) { x with ahead := x.ahead ++ [p], last := s.now }
      exact ⟨_, congrArg Host.Outcome.next hrun, rfl, hxdev ▸ hpair, rfl, rfl⟩
  -- an ACK
  · have hrun := opAck_covers htype hdev hsrc hbroken hpinc hdone hwaiting hstalled hover hcovers hchunks
    obtain ⟨hdev', hunacked, hnext, hbroken', -, hlast⟩ := acked_frame x p s.now
    obtain ⟨hpair, -⟩ := ackTaken_reopened_src (s := s) (p := p) hsrc hdev'
    obtain ⟨hmem, hbays, hregs⟩ := ackTaken_reopened_frame s p x (x.acked p s.now)
    exact ⟨_, x.acked p s.now, congrArg Host.Outcome.next hrun, hpair, hmem, hbays, hunacked, hnext, hbroken'.trans hbroken, hlast,
      fun hece => ⟨ackTaken_reopened_noEcho hece hwindow, acked_noEcho hece _⟩,
      fun hece hfirst => ⟨acked_firstEcho hece hfirst _, ackTaken_reopened_echoes hece, hregs⟩⟩
  -- a notice about a broken pair
  · obtain ⟨hshown, hpair, hmem, hbays⟩ := lossSeen_settled (s := s.noticesTaken d) hsrc hover hcolls
    have hrun : opUnreachable d s = ((s.noticesTaken d).lossSeen d).settledAll :=
      (opUnreachable_eq d s).trans (congrArg State.settledAll (breakPair_broken (s := s.noticesTaken d) hsrc hbroken))
    exact ⟨_, congrArg Host.Outcome.next hrun, hshown.count, hpair, hmem, hbays⟩
  -- a pair that breaks
  · simp only [List.mem_cons, List.not_mem_nil, or_false] at hc
    obtain rfl | rfl := hc
    · obtain ⟨hshown, hpair, hhem', hended, hkept⟩ := breakPair_hem hsrc hover hcolls hstalled hbroken hhem hfail hreqs horg rfl
      exact ⟨_, congrArg Host.Outcome.next (opPairBreak_eq hsrc (hsent rfl)), hpair, hhem', hended, hshown.count, hshown.first,
        hshown.later, hshown.bits, hkept⟩
    · obtain ⟨hshown, hpair, hhem', hended, hkept⟩ :=
        breakPair_hem (s := s.noticesTaken d) hsrc hover hcolls hstalled hbroken hhem hfail hreqs horg rfl
      exact ⟨_, congrArg Host.Outcome.next (opUnreachable_eq d s), hpair, hhem', hended, hshown.count, hshown.first, hshown.later,
        hshown.bits, hkept⟩
  -- the hold-off ends
  · obtain ⟨hgone, hothers⟩ := retired_src s.fab d x
    exact ⟨_, congrArg Host.Outcome.next (opHoldoff_broken hsrc hbroken hstalled hover), hgone, smapGet_set_self .., hothers, rfl⟩

end Sys2Proof
end

section

/-! ### Light control read back (R319 to R349) -/

set_option Elab.async false

namespace Sys2Proof.Machine

section
variable {s t : State} {p w : Nat}

/-- The fields that light control writes, by their places: address, lowest bit and width (R7). With the places as numbers, `omega`
decides whether two fields lie apart. -/
theorem lightFields :
    ((∀ p w, Fld.OPT_LANE_STATE p w = ⟨0x1f007010000 + p * 128 + w * 8, 61, 3⟩)
      ∧ (∀ p w, Fld.OPT_LANE_RUNG p w = ⟨0x1f007010000 + p * 128 + w * 8, 59, 2⟩)
      ∧ (∀ p w, Fld.OPT_LANE_TX_RUNG p w = ⟨0x1f007010000 + p * 128 + w * 8, 57, 2⟩)
      ∧ (∀ p w, Fld.OPT_LANE_SNR p w = ⟨0x1f007010000 + p * 128 + w * 8, 48, 8⟩)
      ∧ (∀ p w, Fld.OPT_LANE_PATCHED p w = ⟨0x1f007010000 + p * 128 + w * 8, 47, 1⟩)
      ∧ (∀ p w, Fld.OPT_LANE_PATCH p w = ⟨0x1f007010000 + p * 128 + w * 8, 45, 2⟩)
      ∧ (∀ p w, Fld.OPT_LANE_LADDER_CNT p w = ⟨0x1f007010000 + p * 128 + w * 8, 16, 16⟩)
      ∧ ∀ p w, Fld.OPT_LANE_HOLD_CNT p w = ⟨0x1f007010000 + p * 128 + w * 8, 0, 16⟩)
    ∧ ((∀ e l, Fld.OPT_LASER_STATE e l = ⟨0x1f007020000 + e * 512 + l * 8, 59, 3⟩)
      ∧ (∀ e l, Fld.OPT_LASER_POWER e l = ⟨0x1f007020000 + e * 512 + l * 8, 32, 16⟩)
      ∧ ∀ e l, Fld.OPT_LASER_CHAN e l = ⟨0x1f007020000 + e * 512 + l * 8, 0, 5⟩)
    ∧ ((∀ e, Fld.OPT_ENG_STATUS_PATCH_FREE e = ⟨0x1f007000100 + e * 8, 61, 3⟩)
      ∧ (∀ e, Fld.OPT_ENG_STATUS_LANES_REMOVED e = ⟨0x1f007000100 + e * 8, 8, 6⟩)
      ∧ (∀ e, Fld.OPT_ENG_STATUS_EXP_LOST e = ⟨0x1f007000100 + e * 8, 1, 1⟩)
      ∧ ∀ e, Fld.OPT_ENG_STATUS_SWAP_BUSY e = ⟨0x1f007000100 + e * 8, 0, 1⟩)
    ∧ ((∀ e, Fld.OPT_PATCH_PROG_STEP e = ⟨0x1f007000300 + e * 8, 61, 3⟩)
      ∧ (∀ e, Fld.OPT_PATCH_PROG_PATCH e = ⟨0x1f007000300 + e * 8, 56, 2⟩)
      ∧ (∀ e, Fld.OPT_PATCH_PROG_EXPRESS e = ⟨0x1f007000300 + e * 8, 53, 1⟩)
      ∧ (∀ e, Fld.OPT_PATCH_PROG_LANE e = ⟨0x1f007000300 + e * 8, 48, 5⟩)
      ∧ ∀ e, Fld.OPT_PATCH_PROG_SWAPS e = ⟨0x1f007000300 + e * 8, 0, 32⟩)
    ∧ (Fld.OPT_FLAGS_FADE = ⟨0x1f007000000, 0, 1⟩ ∧ Fld.OPT_FLAGS_WRONG_LINE = ⟨0x1f007000000, 1, 1⟩
      ∧ Fld.OPT_FADE_CNT_COUNT = ⟨0x1f007000008, 0, 32⟩ ∧ Fld.OPT_WRONG_LINE_CNT_COUNT = ⟨0x1f007000010, 0, 32⟩
      ∧ Fld.OPT_WRONG_LINE_LOG_VALID = ⟨0x1f007000018, 63, 1⟩ ∧ Fld.OPT_WRONG_LINE_LOG_ENGINE = ⟨0x1f007000018, 56, 3⟩
      ∧ Fld.OPT_WRONG_LINE_LOG_RING = ⟨0x1f007000018, 48, 8⟩ ∧ Fld.OPT_WRONG_LINE_LOG_EXPECTED = ⟨0x1f007000018, 32, 5⟩
      ∧ Fld.OPT_WRONG_LINE_LOG_FOUND = ⟨0x1f007000018, 0, 5⟩)
    ∧ (Fld.OPT_CIRCUIT_STATE = ⟨0x1f007000020, 61, 2⟩ ∧ Fld.OPT_CIRCUIT_CODE = ⟨0x1f007000020, 48, 8⟩
      ∧ Fld.OPT_CIRCUIT_UP = ⟨0x1f007000020, 32, 16⟩ ∧ Fld.OPT_CIRCUIT_PORTS = ⟨0x1f007000020, 0, 16⟩)
    ∧ ((∀ p, Fld.ABR_PORT_STATUS_UP p = ⟨0x1f006000100 + p * 8, 63, 1⟩)
      ∧ (∀ p, Fld.ABR_PORT_STATUS_DOWN p = ⟨0x1f006000100 + p * 8, 62, 1⟩)
      ∧ (∀ p, Fld.ABR_PORT_STATUS_CAUSE p = ⟨0x1f006000100 + p * 8, 56, 4⟩)
      ∧ (∀ p, Fld.ABR_PORT_STATUS_PEER_DEV p = ⟨0x1f006000100 + p * 8, 40, 16⟩)
      ∧ ∀ p, Fld.ABR_PORT_STATUS_PEER_PORT p = ⟨0x1f006000100 + p * 8, 36, 4⟩) := by
  exact ⟨⟨fun _ _ => rfl, fun _ _ => rfl, fun _ _ => rfl, fun _ _ => rfl, fun _ _ => rfl, fun _ _ => rfl, fun _ _ => rfl, fun _ _ => rfl⟩,
    ⟨fun _ _ => rfl, fun _ _ => rfl, fun _ _ => rfl⟩,
    ⟨fun _ => rfl, fun _ => rfl, fun _ => rfl, fun _ => rfl⟩,
    ⟨fun _ => rfl, fun _ => rfl, fun _ => rfl, fun _ => rfl, fun _ => rfl⟩,
    ⟨rfl, rfl, rfl, rfl, rfl, rfl, rfl, rfl, rfl⟩,
    ⟨rfl, rfl, rfl, rfl⟩,
    ⟨fun _ => rfl, fun _ => rfl, fun _ => rfl, fun _ => rfl, fun _ => rfl⟩⟩

/-- How a field reads after light control's operations: a write shows in its own field; what lies apart from a write of a field, of a
lane's state with its engine's count of removed lanes, or of a tick event reads as before; and so does every field where light control
changes beside the registers. -/
theorem lightReads :
    ((∀ (s : State) (a lo width v : Nat), lo + width ≤ 64 → (s.setF ⟨a, lo, width⟩ v).getF ⟨a, lo, width⟩ = v % 2 ^ width)
      ∧ ∀ (s : State) (a lo width v a' lo' width' : Nat), a' ≠ a ∨ lo + width ≤ lo' ∨ lo' + width' ≤ lo →
        (s.setF ⟨a, lo, width⟩ v).getF ⟨a', lo', width'⟩ = s.getF ⟨a', lo', width'⟩)
    ∧ ((∀ (s : State) (p w st : Nat), p < 16 → (s.setLane p w st).getF ⟨0x1f007010000 + p * 128 + w * 8, 61, 3⟩ = st % 2 ^ 3)
      ∧ ∀ (s : State) (p w st a lo width : Nat), a ≠ 0x1f007010000 + p * 128 + w * 8 ∨ lo + width ≤ 61 →
        a ≠ 0x1f007000100 + p / 2 * 8 ∨ lo + width ≤ 8 → (s.setLane p w st).getF ⟨a, lo, width⟩ = s.getF ⟨a, lo, width⟩)
    ∧ (∀ (s : State) (n a lo width : Nat), a ≠ 0x1f009000008 → (s.tickEvent n).getF ⟨a, lo, width⟩ = s.getF ⟨a, lo, width⟩)
    ∧ ((∀ (s : State) (f : Optics → Optics) (g : Field), (s.updOpt f).getF g = s.getF g)
      ∧ (∀ (s : State) (p w n : Nat) (g : Field), (s.agree p w n).getF g = s.getF g)
      ∧ (∀ (s : State) (p w : Nat) (x : Option Nat) (g : Field), (s.setRise p w x).getF g = s.getF g)
      ∧ ∀ (s : State) (e k : Nat) (x : RingState) (g : Field), (s.setRing e k x).getF g = s.getF g) := by
  have hset (s : State) (a lo width v a' lo' width' : Nat) (h : a' ≠ a ∨ lo + width ≤ lo' ∨ lo' + width' ≤ lo) :
      (s.setF ⟨a, lo, width⟩ v).getF ⟨a', lo', width'⟩ = s.getF ⟨a', lo', width'⟩ := s.getF_setF_apart _ _ _ h
  have hself (s : State) (a lo width v : Nat) (h : lo + width ≤ 64) : (s.setF ⟨a, lo, width⟩ v).getF ⟨a, lo, width⟩ = v % 2 ^ width :=
    s.getF_setF_self _ _ h
  refine ⟨⟨hself, hset⟩, ⟨fun s p w st hp => ?_, fun s p w st a lo width h₁ h₂ => ?_⟩, fun s n a lo width h => getF_tickEvent_ne _ n h,
    fun _ _ _ => rfl, fun _ _ _ _ _ => rfl, fun _ _ _ _ _ => rfl, fun _ _ _ _ _ => rfl⟩
  · have hne : 0x1f007010000 + p * 128 + w * 8 ≠ 0x1f007000100 + p / 2 * 8 := by omega
    exact (hset _ _ _ _ _ _ _ _ (.inl hne)).trans (hself _ _ _ _ _ (by decide))
  · exact (hset _ _ _ _ _ _ _ _ (h₂.imp_right .inr)).trans (hset _ _ _ _ _ _ _ _ (h₁.imp_right .inr))

/-- Operations of light control by the fields that they write. -/
theorem lightWrites :
    (∀ (s : State) (p w : Nat), s.laneState p w = s.getF (Fld.OPT_LANE_STATE p w))
    ∧ (∀ (s : State) (e l : Nat), s.laserState e l = s.getF (Fld.OPT_LASER_STATE e l))
    ∧ (∀ (s : State) (f : Field) (n : Nat), s.incF f n = s.setF f (s.getF f + n))
    ∧ (∀ (s : State) (f g : Field), s.stick f g = (s.setF f 1).setF g ((s.setF f 1).getF g + 1))
    ∧ (∀ (s : State) (p w x y : Nat), s.setRungs p w x y = (s.setF (Fld.OPT_LANE_RUNG p w) x).setF (Fld.OPT_LANE_TX_RUNG p w) y)
    ∧ (∀ (s : State) (x : Field × Nat) (l : List (Field × Nat)), s.setFs (x :: l) = (s.setF x.1 x.2).setFs l)
    ∧ ∀ s : State, s.setFs [] = s :=
  ⟨fun _ _ _ => rfl, fun _ _ _ => rfl, fun _ _ _ => rfl, fun _ _ _ => rfl, fun _ _ _ _ _ => rfl, fun _ _ _ => rfl, fun _ => rfl⟩

end

end Sys2Proof.Machine
end

section

/-! ### Lanes and their ladders (R329 to R333) -/

set_option Elab.async false

namespace Sys2Proof.Machine

/-! #### What a lane's operations keep -/

section
variable {r s t : State} {l : List Nat} {f : Field} {p w : Nat}

theorem onlyRegs_refl (s : State) : Safety.onlyRegs s s l := ⟨rfl, fun _ _ => rfl⟩

theorem onlyRegs_trans (r s t : State) (h : Safety.onlyRegs r s l) (h' : Safety.onlyRegs s t l) : Safety.onlyRegs r t l :=
  ⟨by rw [h'.1, h.1], fun a ha => (h'.2 a ha).trans (h.2 a ha)⟩

theorem onlyRegs_setF (h : Safety.onlyRegs r s l) (hf : f.reg ∈ l) (v : Nat) : Safety.onlyRegs r (s.setF f v) l :=
  onlyRegs_trans r s _ h ⟨rfl, fun _ ha => State.reg_setF_ne _ _ _ _ fun e => ha (e ▸ hf)⟩

theorem onlyRegs_incF (h : Safety.onlyRegs r s l) (hf : f.reg ∈ l) (n : Nat) : Safety.onlyRegs r (s.incF f n) l := onlyRegs_setF h hf _

theorem onlyRegs_tickEvent (h : Safety.onlyRegs r s l) (hl : RegId.LDG_STEP_STATUS.addr ∈ l) : Safety.onlyRegs r s.tickEvent l :=
  onlyRegs_trans r s _ h ⟨State.tickEvent_regs_only .., fun _ ha => State.reg_tickEvent_ne _ _ _ fun e => ha (e ▸ hl)⟩

theorem onlyRegs_setRungs (h : Safety.onlyRegs r s l) (hl : RegId.OPT_LANE.addr p w ∈ l) (x y : Nat) :
    Safety.onlyRegs r (s.setRungs p w x y) l :=
  onlyRegs_setF (onlyRegs_setF h hl x) hl y

theorem onlyRegs_setLane (h : Safety.onlyRegs r s l) (hl : RegId.OPT_LANE.addr p w ∈ l) (he : RegId.OPT_ENG_STATUS.addr (p / 2) ∈ l)
    (st : Nat) : Safety.onlyRegs r (s.setLane p w st) l :=
  onlyRegs_setF (onlyRegs_setF h hl st) he _

theorem Confined.of_onlyRegs (h : Safety.onlyRegs s t l) : Confined (· ∈ l) s t :=
  ⟨by rw [h.1], by rw [h.1], by rw [h.1], h.2⟩

theorem reg_agree (s : State) (p w n a : Nat) : (s.agree p w n).reg a = s.reg a := rfl

/-- A codeword count agreed on, after changes of registers. -/
theorem agree_only (h : t = { s with regs := t.regs }) (p w n : Nat) :
    t.agree p w n = { s with regs := t.regs, opt := (s.agree p w n).opt } :=
  (congrArg (State.agree · p w n) h).trans rfl

theorem tickEvent_only {o : Optics} (h : t = { s with regs := t.regs, opt := o }) :
    t.tickEvent = { s with regs := t.tickEvent.regs, opt := o } :=
  (State.tickEvent_regs_only t 1).trans (congrArg (fun u : State => ({ u with regs := t.tickEvent.regs } : State)) h)

end

section
variable {P : Nat → Prop} {r s t : State} {p w x y n : Nat}

theorem Confined.setRungsOf (h : Confined P r s) (hl : P (RegId.OPT_LANE.addr p w)) (x y : Nat) : Confined P r (s.setRungs p w x y) :=
  h.setFs (List.forall_mem_cons.mpr ⟨hl, List.forall_mem_singleton.mpr hl⟩)

theorem Confined.setLaneOf (h : Confined P r s) (hl : P (RegId.OPT_LANE.addr p w)) (he : P (RegId.OPT_ENG_STATUS.addr (p / 2)))
    (st : Nat) : Confined P r (s.setLane p w st) :=
  (h.setF st hl).setF _ he

@[simp] theorem setLane_opt (s : State) (p w st : Nat) : (s.setLane p w st).opt = s.opt := (State.setF_opt ..).trans (State.setF_opt ..)

@[simp] theorem setLane_store (s : State) (p w st : Nat) : (s.setLane p w st).store = s.store :=
  (State.setF_store ..).trans (State.setF_store ..)

@[simp] theorem setRungs_opt (s : State) (p w x y : Nat) : (s.setRungs p w x y).opt = s.opt := State.setFs_opt ..

@[simp] theorem setRungs_store (s : State) (p w x y : Nat) : (s.setRungs p w x y).store = s.store := State.setFs_store ..

/-- With no change of a lane that waits, none follows the end of a stripe change. -/
theorem changeEnds_none (h : s.opt.due = []) (p : Nat) : s.changeEnds p = s := by
  simp only [State.changeEnds, State.updOpt, h, List.filter_nil, List.foldl_nil]
  rw [← h]

/-! #### DRAIN and DRAINED (R332, R340) -/

theorem opLaneDrain_stripe (hup : s.portUp p = true) (hst : s.laneState p w = 2) :
    opLaneDrain p w n s = (((s.setRungs p w 0 0).setLane p w 4).agree p w n).tickEvent := by
  simp [opLaneDrain, hup, hst]

theorem drained_shows (hp : p < 16) (hw : w < 16) (n : Nat) :
    let t := (((s.setRungs p w 0 0).setLane p w 4).agree p w n).tickEvent
    t.laneState p w = 4 ∧ t.getF (Fld.OPT_LANE_RUNG p w) = 0 ∧ t.getF (Fld.OPT_LANE_TX_RUNG p w) = 0 := by
  simp (disch := omega) only [lightWrites, lightFields, lightReads]
  exact ⟨rfl, rfl, rfl⟩

/-- The registers of a lane, of its engine's status and of the open step. -/
def laneStepRegs (p w : Nat) : List Nat :=
  [RegId.OPT_LANE.addr p w, RegId.OPT_ENG_STATUS.addr (p / 2), RegId.LDG_STEP_STATUS.addr]

theorem lane_mem_laneStepRegs (p w : Nat) : RegId.OPT_LANE.addr p w ∈ laneStepRegs p w := List.mem_cons_self ..

theorem eng_mem_laneStepRegs (p w : Nat) : RegId.OPT_ENG_STATUS.addr (p / 2) ∈ laneStepRegs p w :=
  List.mem_cons_of_mem _ (List.mem_cons_self ..)

theorem step_mem_laneStepRegs (p w : Nat) : RegId.LDG_STEP_STATUS.addr ∈ laneStepRegs p w :=
  List.mem_cons_of_mem _ (List.mem_cons_of_mem _ (List.mem_singleton_self _))

theorem outOfStripe_onlyRegs (s : State) (p w x y st : Nat) :
    Safety.onlyRegs s ((s.setRungs p w x y).setLane p w st) (laneStepRegs p w) :=
  have hl := lane_mem_laneStepRegs p w
  onlyRegs_setLane (onlyRegs_setRungs (onlyRegs_refl s) hl x y) hl (eng_mem_laneStepRegs p w) st

theorem drained_keeps (s : State) (p w n : Nat) :
    let t := (((s.setRungs p w 0 0).setLane p w 4).agree p w n).tickEvent
    t = { s with regs := t.regs, opt := (s.agree p w n).opt } ∧ Safety.keepsRegs s t (laneStepRegs p w) := by
  obtain ⟨honly, hregs⟩ := outOfStripe_onlyRegs s p w 0 0 4
  refine ⟨tickEvent_only (agree_only honly p w n), fun a ha => ?_⟩
  have hstep : a ≠ RegId.LDG_STEP_STATUS.addr := fun e => ha (e ▸ step_mem_laneStepRegs p w)
  rw [State.reg_tickEvent_ne _ _ _ hstep, reg_agree, hregs a ha]

/-- Port and lane of a lane's number in its engine. -/
theorem portOf_laneNo (hw : w < 16) : portOf (p / 2) (laneNo p w) = p := by unfold portOf laneNo; omega

theorem waveOf_laneNo (hw : w < 16) : waveOf (laneNo p w) = w := by unfold waveOf laneNo; omega

theorem leaveLane_stays (h : s.opt.leaving.find? (fun x => x.1 == laneKey p w) = none) : s.leaveLane p w = s := by
  simp [State.leaveLane, h]

theorem drainedStays (h : s.opt.leaving.find? (fun x => x.1 == laneKey p w) = none) (u : State) (hu : u.opt = s.opt) (n : Nat) :
    (u.agree p w n).leaveLane p w = u.agree p w n := by
  have hleaving : (u.agree p w n).opt.leaving = u.opt.leaving := rfl
  exact leaveLane_stays (by rw [hleaving, hu, h])

/-- A lane that leaves for good goes with its laser. -/
theorem leaveLane_forGood (h : s.opt.leaving.find? (fun x => x.1 == laneKey p w) = some (laneKey p w, true)) :
    s.leaveLane p w = (s.laserOff (p / 2) (s.laserOf (p / 2) (laneNo p w))).removeLane p w true := by
  simp [State.leaveLane, h]

/-- Of the registers, a lane removed changes those of a lane that stands on no rung. -/
theorem removeLane_regs (s : State) (p w : Nat) (keep : Bool) :
    (s.removeLane p w keep).regs = ((s.setRungs p w 0 0).setLane p w 5).regs := by
  unfold State.removeLane
  dsimp only
  split <;> rfl

theorem removeLane_opt (s : State) (p w : Nat) (keep : Bool) :
    (s.removeLane p w keep).opt = { s.opt with leaving := s.opt.leaving.filter fun x => x.1 != laneKey p w } := by
  unfold State.removeLane
  dsimp only
  split <;> rfl

theorem removeLane_state (hp : p < 16) (s : State) (keep : Bool) : (s.removeLane p w keep).laneState p w = 5 := by
  rw [State.laneState, getF_of_regs (removeLane_regs s p w keep)]
  simp (disch := omega) only [lightWrites, lightFields, lightReads]
  rfl

theorem mem_gone_removeLane (s : State) (p w : Nat) : laneKey p w ∈ (s.removeLane p w true).store.gone := by
  unfold State.removeLane
  dsimp only
  split
  · exact List.mem_append_right _ (List.mem_singleton_self _)
  · next h =>
    simp only [true_and, Bool.not_eq_true', Bool.not_eq_false, List.contains_iff_mem] at h
    exact h

theorem leaveLane_due (s : State) (p w : Nat) : (s.leaveLane p w).opt.due = s.opt.due := by
  unfold State.leaveLane
  split
  · rfl
  · rw [removeLane_opt]
    split <;> simp [State.laserOff]

theorem opLaneDrained_eq (hup : s.portUp p = true) (hd : s.laneDrains p w = true) (hdue : s.opt.due = []) :
    opLaneDrained p w n s = ((s.setF (Fld.OPT_LANE_RUNG p w) 0).agree p w n).leaveLane p w := by
  unfold opLaneDrained
  rw [if_neg (by simp [hup, hd])]
  refine changeEnds_none ?_ p
  rw [leaveLane_due]
  exact hdue

/-- A lane that leaves for good once its receive direction has ended. -/
theorem drainedOut_shows (hp : p < 16) (hw : w < 16) {u : State}
    (hu : u = (s.setF (Fld.OPT_LANE_RUNG p w) 0).agree p w n)
    (h : s.opt.leaving.find? (fun x => x.1 == laneKey p w) = some (laneKey p w, true)) :
    (u.leaveLane p w).laneState p w = 5 ∧ laneKey p w ∈ (u.leaveLane p w).store.gone
      ∧ (u.leaveLane p w).getF (Fld.OPT_LASER_STATE (p / 2) (s.laserOf (p / 2) (laneNo p w))) = 0
      ∧ (u.leaveLane p w).mem = s.mem ∧ (u.leaveLane p w).fab = s.fab := by
  have hkept : Confined (· ∈ laneRegs p) s (u.leaveLane p w) := by
    rw [hu]
    exact .leaveLane ((Confined.refl.setF 0 (lane_mem_laneRegs hw)).updOpt _) hw
  have hlaser : u.laserOf (p / 2) (laneNo p w) = s.laserOf (p / 2) (laneNo p w) := by
    rw [hu]
    simp (disch := omega) only [State.laserOf, lightFields, lightReads]
  have hleave : u.leaveLane p w = (u.laserOff (p / 2) (s.laserOf (p / 2) (laneNo p w))).removeLane p w true := by
    rw [leaveLane_forGood (by rw [hu]; exact h), hlaser]
  refine ⟨?_, ?_, ?_, hkept.mem, hkept.fab⟩ <;> rw [hleave]
  · exact removeLane_state hp _ _
  · exact mem_gone_removeLane ..
  · rw [getF_of_regs (removeLane_regs ..)]
    simp (disch := omega) only [State.laserOff, lightWrites, lightFields, lightReads]
    rfl

/-! #### RUNG and JOIN (R329, R332) -/

/-- The far end's new rung taken at once. -/
theorem opLaneRung_stripe (hup : s.portUp p = true) (hst : s.laneState p w = 2) (hx : x ≠ s.getF (Fld.OPT_LANE_TX_RUNG p w))
    (hch : s.changing p = false) :
    opLaneRung p w x s = ((s.setF (Fld.OPT_LANE_TX_RUNG p w) x).incF (Fld.OPT_LANE_LADDER_CNT p w)).tickEvent := by
  simp [opLaneRung, State.farRung, hup, hst, hx, hch]

theorem rung_shows (hp : p < 16) (hw : w < 16) (hx : x < 4) :
    let t := ((s.setF (Fld.OPT_LANE_TX_RUNG p w) x).incF (Fld.OPT_LANE_LADDER_CNT p w)).tickEvent
    t.getF (Fld.OPT_LANE_TX_RUNG p w) = x ∧ t.getF (Fld.OPT_LANE_RUNG p w) = s.getF (Fld.OPT_LANE_RUNG p w)
      ∧ t.getF (Fld.OPT_LANE_LADDER_CNT p w) = (s.getF (Fld.OPT_LANE_LADDER_CNT p w) + 1) % 2 ^ 16 := by
  simp (disch := omega) only [lightWrites, lightFields, lightReads, Nat.mod_eq_of_lt, and_self]

theorem rung_onlyRegs (s : State) (p w x : Nat) :
    Safety.onlyRegs s ((s.setF (Fld.OPT_LANE_TX_RUNG p w) x).incF (Fld.OPT_LANE_LADDER_CNT p w)).tickEvent
      [RegId.OPT_LANE.addr p w, RegId.LDG_STEP_STATUS.addr] := by
  have hl : RegId.OPT_LANE.addr p w ∈ [RegId.OPT_LANE.addr p w, RegId.LDG_STEP_STATUS.addr] := List.mem_cons_self ..
  refine onlyRegs_tickEvent (onlyRegs_incF (f := Fld.OPT_LANE_LADDER_CNT p w) ?_ hl 1) (by simp)
  exact onlyRegs_setF (f := Fld.OPT_LANE_TX_RUNG p w) (onlyRegs_refl s) hl x

theorem swapStep_none (h : s.swapLaser (p / 2) = none) : s.swapStep p w = 0 := by
  have h' : smapGet (fun _ => none) s.opt.swapOf (p / 2) = none := h
  simp [State.swapStep, h']

/-- A lane outside the stripe and outside a swap, with a receive rung, comes back at the rung that JOIN names. -/
theorem farJoin_rejoins (hp : p < 16) (hw : w < 16) (hup : s.portUp p = true) (hst : s.laneState p w = 1 ∨ s.laneState p w = 4)
    (hx : x ≠ 0) (hx4 : x < 4) (hrung : s.getF (Fld.OPT_LANE_RUNG p w) ≠ 0) (hswap : s.swapLaser (p / 2) = none)
    (hothers : ∀ v : Fin 16, v.val ≠ w → s.laneDrains p v = false) :
    s.farJoin p w x = (s.setF (Fld.OPT_LANE_TX_RUNG p w) x).setLane p w 2 := by
  have hnone : ((List.range 16).any fun v => v != w && s.laneDrains p v) = false := by
    simp only [List.any_eq_false, List.mem_range, Bool.and_eq_true, bne_iff_ne, not_and, Bool.not_eq_true]
    exact fun v hv hne => hothers ⟨v, hv⟩ hne
  have hjoin (u : State) (hu : u = s.setF (Fld.OPT_LANE_TX_RUNG p w) x) : u.joinLane p w = u.setLane p w 2 := by
    have h₁ : u.portUp p = true := by
      rw [← hup, hu]
      simp (disch := omega) only [State.portUp, lightFields, lightReads]
    have h₂ : u.laneState p w = s.laneState p w := by
      rw [hu]
      simp (disch := omega) only [lightWrites, lightFields, lightReads]
    have h₃ : u.getF (Fld.OPT_LANE_RUNG p w) ≠ 0 := by
      rw [hu]
      simpa (disch := omega) only [lightFields, lightReads] using hrung
    have h₄ : u.getF (Fld.OPT_LANE_TX_RUNG p w) ≠ 0 := by
      rw [hu]
      simpa (disch := omega) only [lightFields, lightReads, Nat.mod_eq_of_lt] using hx
    have h₅ : u.swapStep p w = 0 := swapStep_none (by rw [hu]; exact hswap)
    unfold State.joinLane
    exact if_pos ⟨h₁, by rwa [h₂], h₃, h₄, .inl h₅⟩
  unfold State.farJoin
  dsimp only
  rw [if_neg (by simp only [hup, hx, Bool.not_true, Bool.false_eq_true, false_or]; omega), if_neg (by simp [hnone]), hjoin _ rfl]

theorem rejoined_state (hp : p < 16) (s : State) (w x : Nat) : ((s.setF (Fld.OPT_LANE_TX_RUNG p w) x).setLane p w 2).laneState p w = 2 := by
  simp (disch := omega) only [lightWrites, lightFields, lightReads]
  rfl

theorem rejoined_shows (hp : p < 16) (hw : w < 16) (hx : x < 4) (n : Nat) :
    let t := ((s.setF (Fld.OPT_LANE_TX_RUNG p w) x).setLane p w 2).agree p w n
    t.laneState p w = 2 ∧ t.getF (Fld.OPT_LANE_TX_RUNG p w) = x := by
  simp (disch := omega) only [lightWrites, lightFields, lightReads, Nat.mod_eq_of_lt, and_self]

theorem rejoined_keeps (s : State) (p w x n : Nat) :
    let t := ((s.setF (Fld.OPT_LANE_TX_RUNG p w) x).setLane p w 2).agree p w n
    t = { s with regs := t.regs, opt := (s.agree p w n).opt }
      ∧ Safety.keepsRegs s t [RegId.OPT_LANE.addr p w, RegId.OPT_ENG_STATUS.addr (p / 2)] := by
  have hl : RegId.OPT_LANE.addr p w ∈ [RegId.OPT_LANE.addr p w, RegId.OPT_ENG_STATUS.addr (p / 2)] := List.mem_cons_self ..
  obtain ⟨honly, hregs⟩ := onlyRegs_setLane (onlyRegs_setF (f := Fld.OPT_LANE_TX_RUNG p w) (onlyRegs_refl s) hl x) hl (by simp) 2
  exact ⟨agree_only honly p w n, fun a ha => (reg_agree ..).trans (hregs a ha)⟩

theorem opLaneJoin_rejoins (hfar : s.farJoin p w x = t) (hst : s.laneState p w ≠ 2) (ht : t.laneState p w = 2) (hdue : t.opt.due = []) :
    opLaneJoin p w x n s = t.agree p w n := by
  unfold opLaneJoin
  dsimp only
  rw [hfar, if_pos ⟨hst, ht⟩]
  exact changeEnds_none (s := t.agree p w n) hdue p

/-! #### The ladder (R329) -/

/-- An SNR shown leaves the stripe as it is. -/
theorem changing_setSnr (m : Nat) : (s.setF (Fld.OPT_LANE_SNR p w) m).changing p = s.changing p := by
  simp (disch := omega) only [State.changing, State.laneDrains, State.portUp, lightWrites, lightFields, lightReads]

theorem stepRung_pos (hx : x ≠ 0) : s.stepRung p w x
    = (((s.setRise p w none).incF (Fld.OPT_LANE_LADDER_CNT p w)).tickEvent).setF (Fld.OPT_LANE_RUNG p w) x := if_neg hx

/-- Below what its rung holds, a lane steps down (R329). -/
theorem opSnr_stepsDown (hw : w < 16) {snr u : Nat} (hst : s.laneState p w = 2) (hch : s.changing p = false)
    (hr : 2 ≤ s.getF (Fld.OPT_LANE_RUNG p w)) (hlow : snr < holdSnr (s.getF (Fld.OPT_LANE_RUNG p w)) ∨ 4 ≤ u) :
    opSnr p w snr u s = ((s.setF (Fld.OPT_LANE_SNR p w) snr).setRise p w none).stepRung p w (s.getF (Fld.OPT_LANE_RUNG p w) - 1) := by
  have hrung : (s.setF (Fld.OPT_LANE_SNR p w) snr).getF (Fld.OPT_LANE_RUNG p w) = s.getF (Fld.OPT_LANE_RUNG p w) := by
    simp (disch := omega) only [lightFields, lightReads]
  have hstate : (s.setF (Fld.OPT_LANE_SNR p w) snr).laneState p w = 2 := by
    rw [← hst]
    simp (disch := omega) only [lightWrites, lightFields, lightReads]
  have hch' : (s.setF (Fld.OPT_LANE_SNR p w) snr).changing p = false := (changing_setSnr snr).trans hch
  unfold opSnr
  dsimp only
  rw [if_neg (by omega), hrung, if_neg (by rw [hstate]; omega), if_pos hlow]
  unfold State.dueStep
  rw [if_neg (fun h => h hstate), if_neg (by rw [Bool.not_eq_true]; exact hch')]

theorem steppedDown_shows (hp : p < 16) (hw : w < 16) {snr : Nat} (hsnr : snr < 256) (hx : x < 4) :
    let t := ((((s.setF (Fld.OPT_LANE_SNR p w) snr).setRise p w none).setRise p w none).incF (Fld.OPT_LANE_LADDER_CNT p w)).tickEvent.setF
      (Fld.OPT_LANE_RUNG p w) x
    t.getF (Fld.OPT_LANE_SNR p w) = snr ∧ t.getF (Fld.OPT_LANE_RUNG p w) = x
      ∧ t.getF (Fld.OPT_LANE_LADDER_CNT p w) = (s.getF (Fld.OPT_LANE_LADDER_CNT p w) + 1) % 2 ^ 16
      ∧ t.getF (Fld.OPT_LANE_TX_RUNG p w) = s.getF (Fld.OPT_LANE_TX_RUNG p w) ∧ t.laneState p w = s.laneState p w := by
  simp (disch := omega) only [lightWrites, lightFields, lightReads, Nat.mod_eq_of_lt, and_self]

theorem steppedDown_keeps (s : State) (p w snr x : Nat) : Confined (· ∈ [RegId.OPT_LANE.addr p w, RegId.LDG_STEP_STATUS.addr]) s
    (((((s.setF (Fld.OPT_LANE_SNR p w) snr).setRise p w none).setRise p w none).incF (Fld.OPT_LANE_LADDER_CNT p w)).tickEvent.setF
      (Fld.OPT_LANE_RUNG p w) x) := by
  have hl : RegId.OPT_LANE.addr p w ∈ [RegId.OPT_LANE.addr p w, RegId.LDG_STEP_STATUS.addr] := List.mem_cons_self ..
  refine .setF (.tickEvent (.incF ?_ 1 hl) 1 (by simp)) x hl
  exact ((Confined.refl.setF (f := Fld.OPT_LANE_SNR p w) snr hl).updOpt _).updOpt _

/-- Rung 3 held: the SNR is shown, and nothing rises. -/
theorem opSnr_holds (hw : w < 16) {snr u : Nat} (hst : s.laneState p w = 2) (hr : s.getF (Fld.OPT_LANE_RUNG p w) = 3)
    (hsnr : holdSnr 3 ≤ snr) (hu : u < 4) : opSnr p w snr u s = (s.setF (Fld.OPT_LANE_SNR p w) snr).setRise p w none := by
  have hrung : (s.setF (Fld.OPT_LANE_SNR p w) snr).getF (Fld.OPT_LANE_RUNG p w) = 3 := by
    rw [← hr]
    simp (disch := omega) only [lightFields, lightReads]
  have hstate : (s.setF (Fld.OPT_LANE_SNR p w) snr).laneState p w = 2 := by
    rw [← hst]
    simp (disch := omega) only [lightWrites, lightFields, lightReads]
  unfold opSnr
  dsimp only
  rw [if_neg (by omega), hrung, if_neg (by rw [hstate]; omega), if_neg (by omega)]
  rfl

theorem setRise_frame (s : State) (p w : Nat) (m : Option Nat) :
    (s.setRise p w m).regs = s.regs ∧ (s.setRise p w m).mem = s.mem ∧ (s.setRise p w m).fab = s.fab := ⟨rfl, rfl, rfl⟩

/-! #### HOLD (R333) -/

theorem holdLane_waits (hst : s.laneState p w = 2) (hch : s.changing p = true) : s.holdLane p w = s.later p w .hold := by
  unfold State.holdLane
  rw [if_neg (fun h => h hst), if_pos hch]

theorem holdLane_holds (hst : s.laneState p w = 2) (hch : s.changing p = false) (hup : s.portUp p = true) :
    s.holdLane p w = (((s.setRungs p w (s.getF (Fld.OPT_LANE_RUNG p w)) 0).setLane p w 3).incF (Fld.OPT_LANE_HOLD_CNT p w)).tickEvent := by
  unfold State.holdLane
  rw [if_neg (fun h => h hst), if_neg (by rw [hch]; decide)]
  dsimp only
  rw [if_pos hup]

theorem held_shows (hp : p < 16) (hw : w < 16) :
    let t := (((s.setRungs p w (s.getF (Fld.OPT_LANE_RUNG p w)) 0).setLane p w 3).incF (Fld.OPT_LANE_HOLD_CNT p w)).tickEvent
    t.laneState p w = 3 ∧ t.getF (Fld.OPT_LANE_RUNG p w) = s.getF (Fld.OPT_LANE_RUNG p w) ∧ t.getF (Fld.OPT_LANE_TX_RUNG p w) = 0
      ∧ t.getF (Fld.OPT_LANE_HOLD_CNT p w) = (s.getF (Fld.OPT_LANE_HOLD_CNT p w) + 1) % 2 ^ 16 := by
  have hr : s.getF (Fld.OPT_LANE_RUNG p w) < 4 := fieldOf_lt ..
  simp (disch := omega) only [lightWrites, lightFields, lightReads] at hr ⊢
  simp (disch := omega) only [Nat.mod_eq_of_lt, and_self]

theorem held_onlyRegs (s : State) (p w x : Nat) :
    Safety.onlyRegs s (((s.setRungs p w x 0).setLane p w 3).incF (Fld.OPT_LANE_HOLD_CNT p w)).tickEvent (laneStepRegs p w) := by
  refine onlyRegs_tickEvent (onlyRegs_incF (f := Fld.OPT_LANE_HOLD_CNT p w) ?_ (lane_mem_laneStepRegs p w) 1) (step_mem_laneStepRegs p w)
  exact outOfStripe_onlyRegs s p w x 0 3

end

end Sys2Proof.Machine
end

section

/-! ### Ports without light (R329 to R331, R341, R343) -/

set_option Elab.async false

namespace Sys2Proof.Machine

section
variable {α β : Type} {K : β → β → Prop} {f : β → α → β}

/-- What every step keeps, a run over a list keeps. -/
theorem foldl_keeps (hrefl : ∀ s, K s s) (htrans : ∀ r s t, K r s → K s t → K r t) {l : List α} (hf : ∀ s x, x ∈ l → K s (f s x))
    (s : β) : K s (l.foldl f s) := by
  induction l generalizing s with
  | nil => exact hrefl s
  | cons x l ih =>
    exact htrans _ _ _ (hf s x (List.mem_cons_self ..)) (ih (fun s y hy => hf s y (List.mem_cons_of_mem x hy)) (f s x))

/-- A run in which every step but that of `w` keeps something: `w` has its turn on a state that keeps it, and the run keeps what that
turn makes of it. -/
theorem foldl_turn (hrefl : ∀ s, K s s) (htrans : ∀ r s t, K r s → K s t → K r t) {l : List α} {w : α} (hl : l.Nodup) (hw : w ∈ l)
    (hf : ∀ s x, x ∈ l → x ≠ w → K s (f s x)) (s : β) : ∃ u, K s u ∧ K (f u w) (l.foldl f s) := by
  obtain ⟨l₁, l₂, rfl⟩ := List.append_of_mem hw
  have hne : w ∉ l₁ ∧ w ∉ l₂ := by simpa using List.nodup_middle.mp hl |>.notMem
  refine ⟨l₁.foldl f s, foldl_keeps hrefl htrans (fun s x hx => ?_) s, ?_⟩
  · exact hf s x (List.mem_append_left _ hx) fun e => hne.1 (e ▸ hx)
  · rw [List.foldl_append, List.foldl_cons]
    refine foldl_keeps hrefl htrans (fun s x hx => ?_) _
    exact hf s x (List.mem_append_right _ (List.mem_cons_of_mem w hx)) fun e => hne.2 (e ▸ hx)

end

section
variable {P : Nat → Prop} {r s t : State} {p w x y n : Nat}

/-- What a state shows and stores of a lane is what another one does. -/
structure SameLane (p w : Nat) (s t : State) : Prop where
  reg : t.reg (RegId.OPT_LANE.addr p w) = s.reg (RegId.OPT_LANE.addr p w)
  store : t.store = s.store

theorem SameLane.refl (s : State) : SameLane p w s s := ⟨rfl, rfl⟩

theorem SameLane.trans (r s t : State) (h : SameLane p w r s) (h' : SameLane p w s t) : SameLane p w r t :=
  ⟨h'.reg.trans h.reg, h'.store.trans h.store⟩

theorem SameLane.laneState (h : SameLane p w s t) : t.laneState p w = s.laneState p w := congrArg (fieldOf · _ _) h.reg

theorem SameLane.rung (h : SameLane p w s t) : t.getF (Fld.OPT_LANE_RUNG p w) = s.getF (Fld.OPT_LANE_RUNG p w) :=
  congrArg (fieldOf · _ _) h.reg

/-- The registers of two lanes. -/
theorem lane_ne {v : Nat} (hp : p < 16) (hw : w < 16) (hv : v < 16) (h : v ≠ w) : RegId.OPT_LANE.addr p w ≠ RegId.OPT_LANE.addr p v :=
  fun e => h (RegId.addr_inj .OPT_LANE .OPT_LANE hp hw hp hv e).2.2.symm

theorem lane_ne_engStatus (hp : p < 16) (hw : w < 16) {q : Nat} (hq : q < 16) :
    RegId.OPT_LANE.addr p w ≠ RegId.OPT_ENG_STATUS.addr (q / 2) :=
  RegId.addr_ne .OPT_LANE .OPT_ENG_STATUS hp hw (show q / 2 < 8 by omega) Nat.one_pos (by decide)

theorem restLane_confined (s : State) (p w : Nat) :
    Confined (· ∈ [RegId.OPT_LANE.addr p w, RegId.OPT_ENG_STATUS.addr (p / 2)]) s (s.restLane p w) :=
  ((Confined.refl.setRungsOf (by simp) 0 0).updOpt _).setLaneOf (by simp) (by simp) 1

theorem restLane_shows (hp : p < 16) (s : State) (w : Nat) :
    (s.restLane p w).laneState p w = 1 ∧ (s.restLane p w).getF (Fld.OPT_LANE_RUNG p w) = 0 := by
  unfold State.restLane
  simp (disch := omega) only [lightWrites, lightFields, lightReads]
  exact ⟨rfl, rfl⟩

/-- Another lane of the port. -/
theorem sameLane_restLane {v : Nat} (hp : p < 16) (hw : w < 16) (hv : v < 16) (h : v ≠ w) (s : State) :
    SameLane p w s (s.restLane p v) :=
  ⟨(restLane_confined s p v).reg _ (by simp [lane_ne hp hw hv h, lane_ne_engStatus hp hw hp]), rfl⟩

/-- A lane before its port's next link-up: what is not off and not gone for good waits for light on no rung (R329, R330). -/
theorem freshLanes_lane (hp : p < 16) (hw : w < 16) (hst : s.laneState p w ≠ 0) (hgone : laneKey p w ∉ s.store.gone) :
    (s.freshLanes p).laneState p w = 1 ∧ (s.freshLanes p).getF (Fld.OPT_LANE_RUNG p w) = 0 := by
  have hothers (s : State) (v : Nat) (hv : v ∈ List.range 16) (h : v ≠ w) :
      SameLane p w s (if s.laneState p v = 0 ∨ s.store.gone.contains (laneKey p v) then s else s.restLane p v) := by
    split
    · exact .refl s
    · exact sameLane_restLane hp hw (List.mem_range.mp hv) h s
  obtain ⟨u, hu, hend⟩ := foldl_turn SameLane.refl SameLane.trans List.nodup_range (List.mem_range.mpr hw) hothers s
  have hturn : ¬ (u.laneState p w = 0 ∨ u.store.gone.contains (laneKey p w) = true) := by
    rw [hu.laneState, hu.store]
    simp [hst, hgone]
  rw [if_neg hturn] at hend
  obtain ⟨hstate, hrung⟩ := restLane_shows hp u w
  exact ⟨hend.laneState.trans hstate, hend.rung.trans hrung⟩

/-- The lanes of a port before its next link-up change the registers of lanes alone; what is stored stays, and whether the express
wavelength is lost. -/
theorem freshLanes_keeps (s : State) (p : Nat) : Confined (· ∈ laneRegs p) s (s.freshLanes p) ∧ (s.freshLanes p).store = s.store
    ∧ (s.freshLanes p).getF (Fld.OPT_ENG_STATUS_EXP_LOST (p / 2)) = s.getF (Fld.OPT_ENG_STATUS_EXP_LOST (p / 2)) := by
  have hrest (s : State) (w : Nat) :
      (s.restLane p w).getF (Fld.OPT_ENG_STATUS_EXP_LOST (p / 2)) = s.getF (Fld.OPT_ENG_STATUS_EXP_LOST (p / 2)) := by
    unfold State.restLane
    simp (disch := omega) only [lightWrites, lightFields, lightReads]
  refine ⟨Confined.refl.foldl fun s w hw h => .ite h (h.restLane (List.mem_range.mp hw)), ?_, ?_⟩
  · refine foldl_keeps (K := fun s t => t.store = s.store) (fun _ => rfl) (fun _ _ _ => flip Eq.trans) (fun s w _ => ?_) s
    split <;> rfl
  · refine foldl_keeps (K := fun s t => t.getF (Fld.OPT_ENG_STATUS_EXP_LOST (p / 2)) = s.getF (Fld.OPT_ENG_STATUS_EXP_LOST (p / 2)))
      (fun _ => rfl) (fun _ _ _ => flip Eq.trans) (fun s w _ => ?_) s
    split
    · rfl
    · exact hrest s w

/-! #### A port without light (R331, R341, R343) -/

/-- What a state shows of a port and of its lanes is what another one does. -/
structure SamePort (p : Nat) (s t : State) : Prop where
  status : t.reg (RegId.ABR_PORT_STATUS.addr p) = s.reg (RegId.ABR_PORT_STATUS.addr p)
  lane : ∀ w < 16, t.reg (RegId.OPT_LANE.addr p w) = s.reg (RegId.OPT_LANE.addr p w)

theorem SamePort.refl (s : State) : SamePort p s s := ⟨rfl, fun _ _ => rfl⟩

theorem SamePort.trans (r s t : State) (h : SamePort p r s) (h' : SamePort p s t) : SamePort p r t :=
  ⟨h'.status.trans h.status, fun w hw => (h'.lane w hw).trans (h.lane w hw)⟩

theorem SamePort.getF (h : SamePort p s t) {lo width : Nat} :
    t.getF ⟨RegId.ABR_PORT_STATUS.addr p, lo, width⟩ = s.getF ⟨RegId.ABR_PORT_STATUS.addr p, lo, width⟩ :=
  congrArg (fieldOf · _ _) h.status

theorem SamePort.portUp (h : SamePort p s t) : t.portUp p = s.portUp p := congrArg (· == 1) h.getF

theorem SamePort.laneF (h : SamePort p s t) (hw : w < 16) {lo width : Nat} :
    t.getF ⟨RegId.OPT_LANE.addr p w, lo, width⟩ = s.getF ⟨RegId.OPT_LANE.addr p w, lo, width⟩ :=
  congrArg (fieldOf · _ _) (h.lane w hw)

/-- The registers of a port that changes in its lanes alone. -/
def lightRegs (p : Nat) (a : Nat) : Prop := a = RegId.ABR_PORT_STATUS.addr p ∨ a ∈ laneRegs p

/-- A port's changes leave the other ports as they are. -/
theorem SamePort.of_confined {q : Nat} (hp : p < 16) (hq : q < 16) (h : q ≠ p) (hc : Confined (lightRegs p) s t) : SamePort q s t := by
  have he : p / 2 < 8 := by omega
  refine ⟨hc.reg _ ?_, fun w hw => hc.reg _ ?_⟩
  · rintro (e | e)
    · exact h (RegId.addr_inj .ABR_PORT_STATUS .ABR_PORT_STATUS hq Nat.one_pos hp Nat.one_pos e).2.1
    · exact not_mem_laneRegs hp hq Nat.one_pos (by decide) e
  · rintro (e | e)
    · exact RegId.addr_ne .OPT_LANE .ABR_PORT_STATUS hq hw hp Nat.one_pos (by decide) e
    · obtain e | ⟨v, hv, e⟩ | ⟨l, hl, e⟩ := mem_laneRegs.mp e
      · exact lane_ne_engStatus hq hw hp e
      · exact h (RegId.addr_inj .OPT_LANE .OPT_LANE hp hv hq hw e).2.1.symm
      · exact RegId.addr_ne .OPT_LASER .OPT_LANE he hl hq hw (by decide) e

theorem opLossOfSignal_down (hup : s.portUp p = false) (hd : s.getF (Fld.ABR_PORT_STATUS_DOWN p) = 1) : opLossOfSignal p s = s := by
  simp [opLossOfSignal, hup, hd]

theorem opLossOfSignal_waits (hup : s.portUp p = false) (hd : s.getF (Fld.ABR_PORT_STATUS_DOWN p) ≠ 1) :
    opLossOfSignal p s = (s.freshLanes p).setF (Fld.ABR_PORT_STATUS_CAUSE p) 1 := by
  simp [opLossOfSignal, hup, hd]

/-- A port that shows that it waits for light, with its lanes on no rung. -/
structure WaitsForLight (p : Nat) (s t : State) : Prop where
  cause : t.getF (Fld.ABR_PORT_STATUS_CAUSE p) = 1
  lane : ∀ w < 16, s.laneState p w ≠ 0 → laneKey p w ∉ s.store.gone → t.laneState p w = 1 ∧ t.getF (Fld.OPT_LANE_RUNG p w) = 0

theorem WaitsForLight.before {u : State} (h : WaitsForLight p u t) (hs : SamePort p s u) (hstore : u.store = s.store) :
    WaitsForLight p s t :=
  ⟨h.cause, fun w hw hst hgone => h.lane w hw (fun e => hst ((hs.laneF hw).symm.trans e)) (by rwa [hstore])⟩

theorem WaitsForLight.after {u : State} (h : WaitsForLight p s u) (ht : SamePort p u t) : WaitsForLight p s t :=
  ⟨ht.getF.trans h.cause, fun w hw hst hgone =>
    ⟨(ht.laneF hw).trans (h.lane w hw hst hgone).1, (ht.laneF hw).trans (h.lane w hw hst hgone).2⟩⟩

/-- What a port without light changes while it is not up. -/
structure LightLost (p : Nat) (s t : State) : Prop where
  kept : Confined (lightRegs p) s t
  store : t.store = s.store
  express : t.getF (Fld.OPT_ENG_STATUS_EXP_LOST (p / 2)) = s.getF (Fld.OPT_ENG_STATUS_EXP_LOST (p / 2))
  waits : s.getF (Fld.ABR_PORT_STATUS_DOWN p) = 0 → WaitsForLight p s t

theorem opLossOfSignal_lightLost (hp : p < 16) (hup : s.portUp p = false) : LightLost p s (opLossOfSignal p s) := by
  by_cases hd : s.getF (Fld.ABR_PORT_STATUS_DOWN p) = 1
  · rw [opLossOfSignal_down hup hd]
    exact ⟨.refl, rfl, rfl, fun h => absurd (hd.symm.trans h) (by decide)⟩
  · obtain ⟨hkept, hstore, hexp⟩ := freshLanes_keeps s p
    rw [opLossOfSignal_waits hup hd]
    refine ⟨(hkept.mono fun a ha => Or.inr ha).setF 1 (.inl rfl), hstore, hexp ▸ ?_, fun _ => ⟨?_, fun w hw hst hgone => ?_⟩⟩
    · simp (disch := omega) only [lightFields, lightReads]
    · simp (disch := omega) only [lightFields, lightReads]
      rfl
    · obtain ⟨hstate, hrung⟩ := freshLanes_lane hp hw hst hgone
      have hne : RegId.OPT_LANE.addr p w ≠ RegId.ABR_PORT_STATUS.addr p :=
        RegId.addr_ne .OPT_LANE .ABR_PORT_STATUS hp hw hp Nat.one_pos (by decide)
      exact ⟨(State.getF_setF_reg _ (Fld.ABR_PORT_STATUS_CAUSE p) (Fld.OPT_LANE_STATE p w) 1 hne).trans hstate,
        (State.getF_setF_reg _ (Fld.ABR_PORT_STATUS_CAUSE p) (Fld.OPT_LANE_RUNG p w) 1 hne).trans hrung⟩

end

section
variable {e q : Nat} {s : State}

theorem setExpLost_samePort (hp : q < 16) (he : e < 8) (s : State) : SamePort q s (s.setF (Fld.OPT_ENG_STATUS_EXP_LOST e) 1) :=
  ⟨State.reg_setF_ne _ _ _ _ (RegId.addr_ne .ABR_PORT_STATUS .OPT_ENG_STATUS hp Nat.one_pos he Nat.one_pos (by decide)),
    fun _ hw => State.reg_setF_ne _ _ _ _ (RegId.addr_ne .OPT_LANE .OPT_ENG_STATUS hp hw he Nat.one_pos (by decide))⟩

/-- The express wavelength lost while neither port is up: each port loses its light in turn. -/
theorem expressLost_turns (he : e < 8) (h₀ : s.portUp (2 * e) = false) (h₁ : s.portUp (2 * e + 1) = false) :
    ∃ u, LightLost (2 * e) (s.setF (Fld.OPT_ENG_STATUS_EXP_LOST e) 1) u ∧ LightLost (2 * e + 1) u (s.expressLost e) := by
  have hlow : 2 * e < 16 := by omega
  have hhigh : 2 * e + 1 < 16 := by omega
  have hlost := opLossOfSignal_lightLost hlow ((setExpLost_samePort hlow he s).portUp.trans h₀)
  refine ⟨_, hlost, opLossOfSignal_lightLost hhigh ?_⟩
  rw [(SamePort.of_confined hlow hhigh (by omega) hlost.kept).portUp, (setExpLost_samePort hhigh he s).portUp, h₁]

/-- Ports that wait show that the signal is lost (R331, R343). -/
theorem expressLost_waits (he : e < 8) (h₀ : s.portUp (2 * e) = false) (h₁ : s.portUp (2 * e + 1) = false)
    (hq : q = 2 * e ∨ q = 2 * e + 1) (hd : s.getF (Fld.ABR_PORT_STATUS_DOWN q) = 0) : WaitsForLight q s (s.expressLost e) := by
  have hlow : 2 * e < 16 := by omega
  have hhigh : 2 * e + 1 < 16 := by omega
  obtain ⟨u, hu, ht⟩ := expressLost_turns he h₀ h₁
  have hsame (q : Nat) (hq : q < 16) := setExpLost_samePort hq he s
  obtain rfl | rfl := hq
  · have hw := hu.waits ((hsame _ hlow).getF.trans hd)
    exact (hw.before (hsame _ hlow) rfl).after (.of_confined hhigh hlow (by omega) ht.kept)
  · have hu' : SamePort (2 * e + 1) s u := (hsame _ hhigh).trans _ _ _ (.of_confined hlow hhigh (by omega) hu.kept)
    exact (ht.waits (hu'.getF.trans hd)).before hu' hu.store

theorem expressLost_keeps (he : e < 8) (h₀ : s.portUp (2 * e) = false) (h₁ : s.portUp (2 * e + 1) = false) :
    (s.expressLost e).getF (Fld.OPT_ENG_STATUS_EXP_LOST e) = 1
    ∧ (s.expressLost e).mem = s.mem ∧ (s.expressLost e).fab = s.fab ∧ (s.expressLost e).bays = s.bays := by
  obtain ⟨u, hu, ht⟩ := expressLost_turns he h₀ h₁
  have hexp := ht.express.trans (show (2 * e + 1) / 2 = 2 * e / 2 by omega ▸ hu.express)
  rw [show (2 * e + 1) / 2 = e by omega] at hexp
  exact ⟨hexp.trans (getF_setF_same (by decide)), ht.kept.mem.trans hu.kept.mem,
    ht.kept.fab.trans hu.kept.fab, ht.kept.bays.trans hu.kept.bays⟩

/-- Ports that are down show what they showed. -/
theorem expressLost_down (he : e < 8) (h₀ : s.portUp (2 * e) = false) (h₁ : s.portUp (2 * e + 1) = false)
    (hd₀ : s.getF (Fld.ABR_PORT_STATUS_DOWN (2 * e)) = 1) (hd₁ : s.getF (Fld.ABR_PORT_STATUS_DOWN (2 * e + 1)) = 1) :
    s.expressLost e = s.setF (Fld.OPT_ENG_STATUS_EXP_LOST e) 1 := by
  have hsame (q : Nat) (hq : q < 16) := setExpLost_samePort hq he s
  unfold State.expressLost
  rw [opLossOfSignal_down ((hsame (2 * e) (by omega)).portUp.trans h₀) ((hsame (2 * e) (by omega)).getF.trans hd₀),
    opLossOfSignal_down ((hsame (2 * e + 1) (by omega)).portUp.trans h₁) ((hsame (2 * e + 1) (by omega)).getF.trans hd₁)]

end

end Sys2Proof.Machine
end

section

/-! ### Training (R330) -/

set_option Elab.async false

namespace Sys2Proof.Machine

section
variable {r s t : State} {p w x : Nat}

/-! #### Training (R330) -/

/-- The registers of a port's lanes but one. -/
def otherLanes (p w : Nat) : List Nat := ((List.range 16).filter (· != w)).map fun v => RegId.OPT_LANE.addr p v

theorem mem_otherLanes {v : Nat} (hv : v < 16) (h : v ≠ w) : RegId.OPT_LANE.addr p v ∈ otherLanes p w :=
  List.mem_map_of_mem (List.mem_filter.mpr ⟨List.mem_range.mpr hv, bne_iff_ne.mpr h⟩)

theorem lane_not_mem_otherLanes (hp : p < 16) (hw : w < 16) : RegId.OPT_LANE.addr p w ∉ otherLanes p w := by
  simp only [otherLanes, List.mem_map, List.mem_filter, List.mem_range, bne_iff_ne]
  rintro ⟨v, ⟨hv, h⟩, e⟩
  exact lane_ne hp hw hv h e.symm

/-- Registers of other kinds are not among them. -/
theorem not_mem_otherLanes (hp : p < 16) {q : RegId} {i j : Nat} (hi : i < q.spec.n1) (hj : j < q.spec.n2) (hq : q ≠ .OPT_LANE) :
    q.addr i j ∉ otherLanes p w := by
  simp only [otherLanes, List.mem_map, List.mem_filter, List.mem_range]
  rintro ⟨v, ⟨hv, -⟩, e⟩
  exact RegId.addr_ne q .OPT_LANE hi hj hp hv hq e.symm

theorem noLight_onlyRegs {v : Nat} (hv : v < 16) (h : v ≠ w) (s : State) : Safety.onlyRegs s (s.noLight p v) (otherLanes p w) := by
  unfold State.noLight
  split
  · exact onlyRegs_refl s
  · exact onlyRegs_setRungs (onlyRegs_refl s) (mem_otherLanes hv h) 0 0

/-- The readings of a port where light lets one lane alone train. -/
theorem getD_oneReading (w v : Nat) (m : BitVec 8) :
    (List.replicate w none ++ [some m]).getD v none = if v = w then some m else none := by
  obtain h | rfl | h := Nat.lt_trichotomy v w
  · rw [if_neg (by omega), List.getD_append _ _ _ _ (by simpa using h)]
    simp [List.getD_eq_getElem?_getD, h]
  · rw [if_pos rfl, List.getD_append_right _ _ _ _ (by simp)]
    simp
  · rw [if_neg (by omega), List.getD_eq_default _ _ (by simpa using h)]

/-- A lane of a port that is not up trains unless it is gone for good, its rings are out or its patch is being swapped. -/
theorem mayTrain_notUp (hup : s.portUp p = false) (hgone : laneKey p w ∉ s.store.gone)
    (hrings : s.ringsOut (p / 2) (laneNo p w) = false) (hswap : s.swapLaser (p / 2) = none) : s.mayTrain p w = true := by
  simp [State.mayTrain, hup, hgone, hrings, swapStep_none hswap]

/-- The rings of a lane locked, and its SNR shown. -/
def State.lightFound (s : State) (p w x : Nat) : State :=
  ((s.setRing (p / 2) (laneNo p w) .locked).setRing (p / 2) (32 + laneNo p w) .locked).setF (Fld.OPT_LANE_SNR p w) x

/-- A lane of a port that is not up, trained: onto its rung, or removed where its SNR gives none. -/
def State.trainedLane (s : State) (p w x : Nat) : State :=
  if trainRung x = 0 then (s.lightFound p w x).removeLane p w false
  else ((s.lightFound p w x).setF (Fld.OPT_LANE_RUNG p w) (trainRung x)).setLane p w 1

theorem rejoin_notUp (hup : s.portUp p = false) (hdue : s.opt.due = []) : s.rejoin p w = s := by
  unfold State.rejoin State.joinLane
  rw [if_neg (by simp [hup])]
  exact changeEnds_none hdue p

theorem trainLane_notUp (hp : p < 16) (hup : s.portUp p = false) (hmay : s.mayTrain p w = true) (hdue : s.opt.due = []) :
    s.trainLane p w x = s.trainedLane p w x := by
  have hup' (u : State) (m : Nat) (hu : u = (s.lightFound p w x).setF (Fld.OPT_LANE_RUNG p w) m) :
      u.portUp p = false ∧ (u.setLane p w 1).portUp p = false := by
    rw [hu, ← hup]
    unfold State.lightFound
    constructor <;> simp (disch := omega) only [State.portUp, lightFields, lightReads]
  obtain ⟨h₁, h₂⟩ := hup' _ (trainRung x) rfl
  unfold State.trainLane State.trainedLane
  rw [if_neg (by simp [hmay])]
  dsimp only
  refine if_ctx_congr Iff.rfl (fun _ => rfl) fun _ => ?_
  change (if _ ∧ _ then State.rejoin ((s.lightFound p w x).setF _ _) p w else _) = _
  rw [if_neg fun h => absurd (h₁.symm.trans h.1) (by decide)]
  exact rejoin_notUp h₂ hdue

theorem trainRung_lt (x : Nat) : trainRung x < 4 := by
  unfold trainRung
  repeat' split
  all_goals decide

/-- A ring read after its own write. -/
theorem ring_setRing_self (s : State) (e k : Nat) (m : RingState) : (s.setRing e k m).ring e k = m := smapGet_set_self ..

/-- Another ring of the engine. -/
theorem ring_setRing_ne (s : State) (e : Nat) {k k' : Nat} (m : RingState) (h : k' ≠ k) : (s.setRing e k m).ring e k' = s.ring e k' :=
  smapGet_set_ne _ _ _ _ _ (by omega)

/-- What light control holds beside the registers rules the rings. -/
theorem ring_of_rings (h : t.opt.rings = s.opt.rings) (e k : Nat) : t.ring e k = s.ring e k := by rw [State.ring, State.ring, h]

theorem trainedLane_shows (hp : p < 16) (hx : x < 256) :
    (s.trainedLane p w x).getF (Fld.OPT_LANE_SNR p w) = x
    ∧ (trainRung x ≠ 0 → (s.trainedLane p w x).laneState p w = 1 ∧ (s.trainedLane p w x).getF (Fld.OPT_LANE_RUNG p w) = trainRung x)
    ∧ (trainRung x = 0 → (s.trainedLane p w x).laneState p w = 5) := by
  have hlt := trainRung_lt x
  unfold State.trainedLane
  split
  · next h =>
    refine ⟨?_, fun h' => absurd h h', fun _ => removeLane_state hp _ _⟩
    rw [getF_of_regs (removeLane_regs ..), State.lightFound]
    simp (disch := omega) only [lightWrites, lightFields, lightReads, Nat.mod_eq_of_lt]
  · next h =>
    refine ⟨?_, fun _ => ?_, fun h' => absurd h' h⟩
    all_goals
      unfold State.lightFound
      simp (disch := omega) only [lightWrites, lightFields, lightReads, Nat.mod_eq_of_lt, and_self]

theorem removeLane_store (s : State) (p w : Nat) : (s.removeLane p w false).store = s.store := by
  unfold State.removeLane
  dsimp only
  rw [if_neg (by simp)]
  rfl

/-- The registers that a lane removed changes. -/
theorem Confined.removeLaneOf {P : Nat → Prop} (h : Confined P r s) (hl : P (RegId.OPT_LANE.addr p w))
    (he : P (RegId.OPT_ENG_STATUS.addr (p / 2))) (keep : Bool) : Confined P r (s.removeLane p w keep) := by
  have h' := ((h.setRungsOf hl 0 0).setLaneOf hl he 5).updOpt fun o => { o with leaving := o.leaving.filter fun x => x.1 != laneKey p w }
  exact .ite h'.frame h'

theorem trainedLane_keeps (s : State) (p w x : Nat) :
    Confined (· ∈ [RegId.OPT_LANE.addr p w, RegId.OPT_ENG_STATUS.addr (p / 2)]) s (s.trainedLane p w x)
    ∧ (s.trainedLane p w x).store = s.store ∧ (s.trainedLane p w x).opt.rings = (s.lightFound p w x).opt.rings := by
  have hfound : Confined (· ∈ [RegId.OPT_LANE.addr p w, RegId.OPT_ENG_STATUS.addr (p / 2)]) s (s.lightFound p w x) :=
    ((Confined.refl.updOpt _).updOpt _).setF x (List.mem_cons_self ..)
  unfold State.trainedLane
  split
  · exact ⟨hfound.removeLaneOf (by simp) (by simp) false, removeLane_store .., by rw [removeLane_opt]⟩
  · exact ⟨(hfound.setF _ (List.mem_cons_self ..)).setLaneOf (by simp) (by simp) 1, by rw [setLane_store, State.setF_store]; rfl,
      by rw [setLane_opt, State.setF_opt]⟩

/-- The rings of a trained lane are locked. -/
theorem trainedLane_rings (s : State) (p w x : Nat) : (s.trainedLane p w x).ring (p / 2) (laneNo p w) = .locked
    ∧ (s.trainedLane p w x).ring (p / 2) (32 + laneNo p w) = .locked := by
  obtain ⟨-, -, hrings⟩ := trainedLane_keeps s p w x
  have hfound : (s.lightFound p w x).opt.rings
      = ((s.setRing (p / 2) (laneNo p w) .locked).setRing (p / 2) (32 + laneNo p w) .locked).opt.rings := rfl
  rw [ring_of_rings (hrings.trans hfound), ring_of_rings (hrings.trans hfound)]
  exact ⟨(ring_setRing_ne _ _ _ (by omega)).trans (ring_setRing_self ..), ring_setRing_self ..⟩

theorem status_not_mem_lane (hp : p < 16) (hw : w < 16) {q : Nat} (hq : q < 16) :
    RegId.ABR_PORT_STATUS.addr q ∉ [RegId.OPT_LANE.addr p w, RegId.OPT_ENG_STATUS.addr (p / 2)] := by
  simp only [List.mem_cons, List.not_mem_nil, or_false, not_or]
  exact ⟨RegId.addr_ne .ABR_PORT_STATUS .OPT_LANE hq Nat.one_pos hp hw (by decide),
    RegId.addr_ne .ABR_PORT_STATUS .OPT_ENG_STATUS hq Nat.one_pos (show p / 2 < 8 by omega) Nat.one_pos (by decide)⟩

/-- What decides whether a lane may train does not rest on the other lanes. -/
theorem ringsOut_otherLanes (hp : p < 16) (hw : w < 16) (h : Safety.onlyRegs s t (otherLanes p w)) (hswap : s.swapLaser (p / 2) = none) :
    t.ringsOut (p / 2) (laneNo p w) = s.ringsOut (p / 2) (laneNo p w) := by
  obtain ⟨honly, hregs⟩ := h
  have hopt : t.opt = s.opt := by rw [honly]
  have hring (k : Nat) : t.ring (p / 2) k = s.ring (p / 2) k := ring_of_rings (by rw [hopt]) _ _
  have hswap' : t.swapLaser (p / 2) = none := by rw [← hswap, State.swapLaser, hopt, State.swapLaser]
  have hlane : t.getF (Fld.OPT_LANE_PATCHED p w) = s.getF (Fld.OPT_LANE_PATCHED p w) :=
    congrArg (fieldOf · _ _) (hregs _ (lane_not_mem_otherLanes hp hw))
  simp [State.ringsOut, State.onPatch, portOf_laneNo hw, waveOf_laneNo hw, hring, hswap, hswap', hlane]

/-- The turn of a wavelength in the training of its port. -/
def State.lightTurn (p : Nat) (snrs : List (Option (BitVec 8))) (s : State) (v : Nat) : State :=
  match snrs.getD v none with
  | none => s.noLight p v
  | some x => s.trainLane p v x.toNat

theorem opTraining_waits {snrs : List (Option (BitVec 8))} {v : State} (hv : v = (List.range 16).foldl (State.lightTurn p snrs) s)
    (hup : v.portUp p = false) (hd : v.getF (Fld.ABR_PORT_STATUS_DOWN p) = 0) :
    opTraining p snrs s = v.setF (Fld.ABR_PORT_STATUS_CAUSE p) (if v.onRung p then 0 else 1) := by
  have htrain : opTraining p snrs s
      = if v.portUp p || v.getF (Fld.ABR_PORT_STATUS_DOWN p) == 1 then v
        else v.setF (Fld.ABR_PORT_STATUS_CAUSE p) (if v.onRung p then 0 else 1) := by
    rw [hv]
    rfl
  rw [htrain, if_neg (by rw [hup, hd]; decide)]

/-- One lane trains while no light reaches the others. -/
theorem opTraining_one (hp : p < 16) (hw : w < 16) (m : BitVec 8) (hup : s.portUp p = false)
    (hd : s.getF (Fld.ABR_PORT_STATUS_DOWN p) = 0) (hgone : laneKey p w ∉ s.store.gone)
    (hrings : s.ringsOut (p / 2) (laneNo p w) = false) (hswap : s.swapLaser (p / 2) = none) (hdue : s.opt.due = []) :
    ∃ u v, Safety.onlyRegs s u (otherLanes p w) ∧ Safety.onlyRegs (u.trainedLane p w m.toNat) v (otherLanes p w)
      ∧ opTraining p (List.replicate w none ++ [some m]) s
        = v.setF (Fld.ABR_PORT_STATUS_CAUSE p) (if v.onRung p then 0 else 1) := by
  obtain ⟨u, hu, hv⟩ := foldl_turn (f := State.lightTurn p (List.replicate w none ++ [some m]))
    (K := (Safety.onlyRegs · · (otherLanes p w))) (fun _ => onlyRegs_refl _) onlyRegs_trans List.nodup_range
    (List.mem_range.mpr hw) (fun s v hv h => by
      rw [State.lightTurn, getD_oneReading, if_neg h]
      exact noLight_onlyRegs (List.mem_range.mp hv) h s) s
  have hstatus {s t : State} (h : Safety.onlyRegs s t (otherLanes p w)) :
      t.reg (RegId.ABR_PORT_STATUS.addr p) = s.reg (RegId.ABR_PORT_STATUS.addr p) :=
    h.2 _ (not_mem_otherLanes hp hp Nat.one_pos (by decide))
  have hup' : u.portUp p = false := (congrArg (fun x => fieldOf x 63 1 == 1) (hstatus hu)).trans hup
  have htrain : State.lightTurn p (List.replicate w none ++ [some m]) u w = u.trainedLane p w m.toNat := by
    rw [State.lightTurn, getD_oneReading, if_pos rfl]
    refine trainLane_notUp hp hup' (mayTrain_notUp hup' ?_ ?_ ?_) ?_
    · rwa [hu.1]
    · rw [ringsOut_otherLanes hp hw hu hswap, hrings]
    · rwa [hu.1]
    · rwa [hu.1]
  rw [htrain] at hv
  have hkept := (hstatus hv).trans
    (((trainedLane_keeps u p w m.toNat).1.reg _ (status_not_mem_lane hp hw hp)).trans (hstatus hu))
  exact ⟨u, _, hu, hv, opTraining_waits rfl ((congrArg (fun x => fieldOf x 63 1 == 1) hkept).trans hup)
    ((congrArg (fieldOf · 62 1) hkept).trans hd)⟩

/-- What a port shows of a lane that has trained while it was not up, whatever cause it shows then. -/
structure TrainedOne (p w x : Nat) (s t : State) : Prop where
  snr : t.getF (Fld.OPT_LANE_SNR p w) = x
  mux : t.ring (p / 2) (laneNo p w) = .locked
  demux : t.ring (p / 2) (32 + laneNo p w) = .locked
  store : t.store = s.store
  rung : trainRung x ≠ 0 → t.laneState p w = 1 ∧ t.getF (Fld.OPT_LANE_RUNG p w) = trainRung x
  removed : trainRung x = 0 → t.laneState p w = 5
  regs : Safety.keepsRegs s t (RegId.OPT_ENG_STATUS.addr (p / 2) :: RegId.ABR_PORT_STATUS.addr p
    :: (List.range 16).map fun v => RegId.OPT_LANE.addr p v)

theorem trainedOne (hp : p < 16) (hw : w < 16) (hx : x < 256) {u v : State} (hu : Safety.onlyRegs s u (otherLanes p w))
    (hv : Safety.onlyRegs (u.trainedLane p w x) v (otherLanes p w)) (c : Nat) :
    TrainedOne p w x s (v.setF (Fld.ABR_PORT_STATUS_CAUSE p) c) := by
  have hne : RegId.OPT_LANE.addr p w ≠ RegId.ABR_PORT_STATUS.addr p :=
    RegId.addr_ne .OPT_LANE .ABR_PORT_STATUS hp hw hp Nat.one_pos (by decide)
  have hfield (lo width : Nat) : (v.setF (Fld.ABR_PORT_STATUS_CAUSE p) c).getF ⟨RegId.OPT_LANE.addr p w, lo, width⟩
      = (u.trainedLane p w x).getF ⟨RegId.OPT_LANE.addr p w, lo, width⟩ :=
    congrArg (fieldOf · _ _) ((State.reg_setF_ne _ _ _ _ hne).trans (hv.2 _ (lane_not_mem_otherLanes hp hw)))
  have hopt : (v.setF (Fld.ABR_PORT_STATUS_CAUSE p) c).opt = (u.trainedLane p w x).opt := by rw [State.setF_opt, hv.1]
  have hring (k : Nat) : (v.setF (Fld.ABR_PORT_STATUS_CAUSE p) c).ring (p / 2) k = (u.trainedLane p w x).ring (p / 2) k :=
    ring_of_rings (congrArg Optics.rings hopt) _ _
  obtain ⟨hsnr, htrained, hremoved⟩ := trainedLane_shows (s := u) (w := w) hp hx
  obtain ⟨hkept, hstore, -⟩ := trainedLane_keeps u p w x
  obtain ⟨hmux, hdemux⟩ := trainedLane_rings u p w x
  refine ⟨(hfield 48 8).trans hsnr, (hring _).trans hmux, (hring _).trans hdemux, ?_,
    fun hr => ⟨(hfield 61 3).trans (htrained hr).1, (hfield 59 2).trans (htrained hr).2⟩,
    fun hr => (hfield 61 3).trans (hremoved hr), fun a ha => ?_⟩
  · have hvs : v.store = (u.trainedLane p w x).store := by rw [hv.1]
    have hus : u.store = s.store := by rw [hu.1]
    rw [State.setF_store, hvs, hstore, hus]
  · simp only [List.mem_cons, not_or] at ha
    obtain ⟨heng, hstatus, hlanes⟩ := ha
    have hother : a ∉ otherLanes p w := fun h => hlanes (List.map_subset _ (List.filter_subset_self _) h)
    have hlane : a ≠ RegId.OPT_LANE.addr p w := fun e => hlanes (e ▸ List.mem_map_of_mem (List.mem_range.mpr hw))
    rw [State.reg_setF_ne _ _ _ _ hstatus, hv.2 a hother, hkept.reg a (by simp [hlane, heng]), hu.2 a hother]

/-- A lane that trained onto a rung shows that its port has light. -/
theorem onRung_trained (hp : p < 16) (hw : w < 16) (hx : x < 256) {v : State}
    (hv : Safety.onlyRegs (s.trainedLane p w x) v (otherLanes p w)) (hr : trainRung x ≠ 0) : v.onRung p = true := by
  obtain ⟨-, htrained, -⟩ := trainedLane_shows (s := s) (w := w) hp hx
  have hfield (lo width : Nat) : v.getF ⟨RegId.OPT_LANE.addr p w, lo, width⟩
      = (s.trainedLane p w x).getF ⟨RegId.OPT_LANE.addr p w, lo, width⟩ :=
    congrArg (fieldOf · _ _) (hv.2 _ (lane_not_mem_otherLanes hp hw))
  have hstate : v.laneState p w = 1 := (hfield 61 3).trans (htrained hr).1
  have hrung : v.getF (Fld.OPT_LANE_RUNG p w) = trainRung x := (hfield 59 2).trans (htrained hr).2
  exact List.any_eq_true.mpr ⟨w, List.mem_range.mpr hw, by simp [hstate, hrung, hr]⟩

end

end Sys2Proof.Machine
end

section

set_option Elab.async false

namespace Sys2Proof
open Machine

/-- Settles O47: each message or measurement is brought to an equation of the model's operation, and what the lane shows and what the
rest of the state keeps are read off it. -/
theorem lanesAndLadders : Obligations.LanesAndLadders := by
  unfold Obligations.LanesAndLadders
  refine ⟨fun p w n s hup hst => ?drain, fun p w n s hup hd hdue => ⟨fun h => ?stays, fun h => ?leaves⟩, fun p w x s hup hst hx hch => ?rung,
    fun p w x n s hup hst hx hrung hswap hdue hothers => ?join,
    fun p w snr u r s hst hr hch => ⟨fun hr₂ hlow => ?down, fun hr₃ hsnr hu => ?holds⟩, fun p snr u e s he hsnr h₀ h₁ => ?express,
    fun p w m s hup hd hgone hrings hswap hdue => ?train, fun p w s hup hst => ⟨fun hch => ?hold, fun hch => ?waits⟩⟩
  case drain =>
    obtain ⟨hstate, hrung, htx⟩ := drained_shows (s := s) p.isLt w.isLt n
    obtain ⟨honly, hregs⟩ := drained_keeps s p w n
    exact ⟨_, congrArg Host.Outcome.next (opLaneDrain_stripe hup hst), hstate, hrung, htx, tickEvent_clean _, honly, hregs⟩
  case stays =>
    refine congrArg Host.Outcome.next ((opLaneDrained_eq hup hd hdue).trans ?_)
    exact drainedStays h _ (State.setF_opt ..) n
  case leaves =>
    obtain ⟨hstate, hgone, hlaser, hmem, hfab⟩ := drainedOut_shows (n := n) p.isLt w.isLt rfl h
    exact ⟨_, congrArg Host.Outcome.next (opLaneDrained_eq hup hd hdue), hstate, hgone, hlaser, hmem, hfab⟩
  case rung =>
    obtain ⟨htx, hrx, hcnt⟩ := rung_shows (s := s) p.isLt w.isLt x.isLt
    exact ⟨_, congrArg Host.Outcome.next (opLaneRung_stripe hup hst hx hch), htx, hcnt, hrx, rung_onlyRegs ..⟩
  case join =>
    have hfar := farJoin_rejoins p.isLt w.isLt hup hst hx x.isLt hrung hswap fun v hv => hothers v fun e => hv (by rw [e])
    have hrun := opLaneJoin_rejoins (n := n) hfar (by omega) (rejoined_state p.isLt ..) (by rw [setLane_opt, State.setF_opt, hdue])
    obtain ⟨hstate, htx⟩ := rejoined_shows (s := s) p.isLt w.isLt x.isLt n
    obtain ⟨honly, hregs⟩ := rejoined_keeps s p w x n
    exact ⟨_, congrArg Host.Outcome.next hrun, hstate, htx, honly, hregs⟩
  case down =>
    subst hr
    have hr₄ : s.getF (Fld.OPT_LANE_RUNG p w) < 4 := fieldOf_lt ..
    have hrun := (opSnr_stepsDown (snr := snr.toNat) (u := u) w.isLt hst hch hr₂ hlow).trans (stepRung_pos (by omega))
    obtain ⟨hsnr, hrung, hcnt, htx, hstate⟩ := steppedDown_shows (s := s) (x := s.getF (Fld.OPT_LANE_RUNG p w) - 1) p.isLt w.isLt snr.isLt
      (by omega)
    have hkept := steppedDown_keeps s p w snr.toNat (s.getF (Fld.OPT_LANE_RUNG p w) - 1)
    exact ⟨_, congrArg Host.Outcome.next hrun, hsnr, hrung, hcnt, htx, hstate.trans hst, hkept.mem, hkept.fab, hkept.reg⟩
  case holds =>
    obtain ⟨hregs, hmem, hfab⟩ := setRise_frame (s.setF (Fld.OPT_LANE_SNR p w) snr.toNat) p w none
    exact ⟨_, congrArg Host.Outcome.next (opSnr_holds w.isLt hst (hr.symm.trans hr₃) hsnr hu), hregs, hmem.trans (State.setF_mem ..),
      hfab.trans (State.setF_fab ..)⟩
  case express =>
    subst he
    have he : p.val / 2 < 8 := by omega
    obtain ⟨hexp, hmem, hfab, hbays⟩ := expressLost_keeps he h₀ h₁
    refine ⟨_, congrArg Host.Outcome.next (if_pos hsnr), hexp, fun q hq hd => ?_, fun hd₀ hd₁ => ?_, hmem, hfab, hbays⟩
    · have hwaits := expressLost_waits he h₀ h₁ hq hd
      exact ⟨hwaits.cause, fun w hst hgone => hwaits.lane w w.isLt hst hgone⟩
    · rw [expressLost_down he h₀ h₁ hd₀ hd₁]
      exact onlyRegs_setF (onlyRegs_refl s) (List.mem_singleton_self _) 1
  case train =>
    obtain ⟨u, v, hu, hv, hrun⟩ := opTraining_one p.isLt w.isLt m hup hd hgone hrings hswap hdue
    have h := trainedOne p.isLt w.isLt m.isLt hu hv (if v.onRung p then 0 else 1)
    refine ⟨_, congrArg Host.Outcome.next hrun, h.snr, h.mux, h.demux, h.store, fun hr => ?_, h.removed, h.regs⟩
    obtain ⟨hstate, hrung⟩ := h.rung hr
    exact ⟨hstate, hrung, by rw [if_pos (onRung_trained p.isLt w.isLt m.isLt hv hr)]; exact getF_setF_same (by decide)⟩
  case hold =>
    obtain ⟨hstate, hrung, htx, hcnt⟩ := held_shows (s := s) p.isLt w.isLt
    exact ⟨_, congrArg Host.Outcome.next (holdLane_holds hst hch hup), hstate, hrung, htx, hcnt, held_onlyRegs ..⟩
  case waits =>
    exact ⟨_, congrArg Host.Outcome.next (holdLane_waits hst hch), List.mem_append_right _ (List.mem_singleton_self _), rfl⟩

end Sys2Proof
end

section

/-! ### Rings (R334 to R336, R348) -/

set_option Elab.async false

namespace Sys2Proof.Machine

section
variable {r s t : State} {p w e k n : Nat}

/-! #### A lane that is held, or back -/

/-- What holding a lane changes: its registers, those of its engine's status and of the open step, and the changes that wait. -/
structure LaneOnly (s t : State) : Prop where
  only : t = { s with regs := t.regs, opt := { s.opt with due := t.opt.due } }
  reg : ∀ a, ¬ ofKinds [.OPT_LANE, .OPT_ENG_STATUS, .LDG_STEP_STATUS] a → t.reg a = s.reg a

theorem LaneOnly.refl (s : State) : LaneOnly s s := ⟨rfl, fun _ _ => rfl⟩

theorem LaneOnly.trans (h : LaneOnly r s) (h' : LaneOnly s t) : LaneOnly r t :=
  ⟨by rw [h'.only, h.only], fun a ha => (h'.reg a ha).trans (h.reg a ha)⟩

theorem LaneOnly.of_onlyRegs {l : List Nat} (h : Safety.onlyRegs s t l)
    (hl : ∀ a ∈ l, ofKinds [.OPT_LANE, .OPT_ENG_STATUS, .LDG_STEP_STATUS] a) : LaneOnly s t := by
  obtain ⟨honly, hregs⟩ := h
  have hopt : t.opt = s.opt := by rw [honly]
  refine ⟨?_, fun a ha => hregs a fun h => ha (hl a h)⟩
  rw [hopt]
  exact honly

theorem LaneOnly.mem (h : LaneOnly s t) : t.mem = s.mem := by rw [h.only]

theorem LaneOnly.fab (h : LaneOnly s t) : t.fab = s.fab := by rw [h.only]

theorem LaneOnly.opt (h : LaneOnly s t) : t.opt = { s.opt with due := t.opt.due } := by
  have h' := congrArg State.opt h.only
  exact h'

theorem LaneOnly.ring (h : LaneOnly s t) (e k : Nat) : t.ring e k = s.ring e k := ring_of_rings (by rw [h.opt]) e k

theorem LaneOnly.evqOf (h : LaneOnly s t) (e : Nat) : t.evqOf e = s.evqOf e := by rw [State.evqOf, State.evqOf, h.opt]

/-- A field of another register reads as before. -/
theorem LaneOnly.getF (h : LaneOnly s t) {q : RegId} {i j lo width : Nat} (hi : i < q.spec.n1) (hj : j < q.spec.n2)
    (hq : q ∉ [.OPT_LANE, .OPT_ENG_STATUS, .LDG_STEP_STATUS]) : t.getF ⟨q.addr i j, lo, width⟩ = s.getF ⟨q.addr i j, lo, width⟩ :=
  congrArg (fieldOf · _ _) (h.reg _ (not_ofKinds hi hj hq))

theorem laneOnly_laneStepRegs (hp : p < 16) (hw : w < 16) (h : Safety.onlyRegs s t (laneStepRegs p w)) : LaneOnly s t := by
  refine .of_onlyRegs h fun a ha => ?_
  simp only [laneStepRegs, List.mem_cons, List.not_mem_nil, or_false] at ha
  obtain rfl | rfl | rfl := ha
  · exact ofKinds_addr (by decide) hp hw
  · exact ofKinds_addr (by decide) (show p / 2 < 8 by omega) Nat.one_pos
  · exact ofKinds_addr (by decide) Nat.one_pos Nat.one_pos

theorem laneOnly_tickEvent (s : State) : LaneOnly s s.tickEvent := by
  refine .of_onlyRegs (onlyRegs_tickEvent (onlyRegs_refl s) (List.mem_singleton_self _)) fun a ha => ?_
  rw [List.mem_singleton.mp ha]
  exact ofKinds_addr (by decide) Nat.one_pos Nat.one_pos

theorem laneOnly_later (s : State) (p w : Nat) (x : LaneDue) : LaneOnly s (s.later p w x) := ⟨rfl, fun _ _ => rfl⟩

theorem laneOnly_holdLane (hp : p < 16) (hw : w < 16) (s : State) : LaneOnly s (s.holdLane p w) := by
  unfold State.holdLane
  refine iteInduction (fun _ => .refl s) fun _ => iteInduction (fun _ => laneOnly_later ..) fun _ => ?_
  exact laneOnly_laneStepRegs hp hw (held_onlyRegs s p w _)

theorem laneOnly_laneBack (he : e < 8) {i : Nat} (hi : i < 32) (s : State) : LaneOnly s (s.laneBack e i) := by
  have hp : portOf e i < 16 := by unfold portOf; omega
  have hw : waveOf i < 16 := Nat.mod_lt _ (by decide)
  unfold State.laneBack
  refine iteInduction (fun _ => ?_) fun _ => .refl s
  exact laneOnly_laneStepRegs hp hw (onlyRegs_setLane (onlyRegs_refl s) (lane_mem_laneStepRegs _ _) (eng_mem_laneStepRegs _ _) 1)

/-- The lane that a ring serves is one of the 32 of its engine. -/
theorem ringLane_lt {i : Nat} (h : ringLane k = some i) : i < 32 := by
  unfold ringLane at h
  split at h
  · rw [← Option.some.inj h]
    omega
  · nomatch h

theorem laneOnly_elim {o : Option Nat} {f : Nat → State} (hf : ∀ i, o = some i → LaneOnly s (f i)) : LaneOnly s (o.elim s f) := by
  cases o with
  | none => exact .refl s
  | some i => exact hf i rfl

theorem laneOnly_holdRing (he : e < 8) (s : State) (k : Nat) : LaneOnly s (s.holdRing e k) :=
  laneOnly_elim fun i hi => laneOnly_holdLane (by have := ringLane_lt hi; unfold portOf; omega) (Nat.mod_lt _ (by decide)) s

/-- The lane of a ring that locks comes back. -/
theorem laneOnly_ringBack (he : e < 8) (s : State) (k : Nat) : LaneOnly s ((ringLane k).elim s fun i => s.laneBack e i) :=
  laneOnly_elim fun _ hi => laneOnly_laneBack he (ringLane_lt hi) s

/-! #### The loop of a ring (R334, R335) -/

theorem ring_setEvq (s : State) (e : Nat) (l : List Word) (k : Nat) : (s.setEvq e l).ring e k = s.ring e k := rfl

theorem evqOf_setEvq (s : State) (e : Nat) (l : List Word) : (s.setEvq e l).evqOf e = l := smapGet_set_self ..

theorem setRing_frame (s : State) (e k : Nat) (x : RingState) : (s.setRing e k x).evqOf e = s.evqOf e ∧ (s.setRing e k x).regs = s.regs
    ∧ (s.setRing e k x).mem = s.mem ∧ (s.setRing e k x).fab = s.fab := ⟨rfl, rfl, rfl, rfl⟩

theorem setEvq_frame (s : State) (e : Nat) (l : List Word) : (s.setEvq e l).regs = s.regs ∧ (s.setEvq e l).mem = s.mem
    ∧ (s.setEvq e l).fab = s.fab := ⟨rfl, rfl, rfl⟩

/-- The state of a ring by the size of its error in MHz (R334). -/
def ringAfter (m : Nat) : RingState := if m ≤ 500 then .locked else if m ≤ 3000 then .drifting else .lost

variable {err : Int} {tags : List (Fin 17)}

theorem opRingLoop_ownTag (h : s.ring e k = .locked ∨ s.ring e k = .drifting) (hown : ∀ t ∈ tags, t.val = ringTarget k) :
    opRingLoop e k err tags s = let u := (s.setEvq e ((s.evqOf e).drop 1)).setRing e k (ringAfter err.natAbs)
      if err.natAbs ≤ 3000 then u else u.holdRing e k := by
  have hfind : tags.find? (fun t => t.val != ringTarget k) = none := by
    simpa [List.find?_eq_none] using hown
  unfold opRingLoop ringAfter
  rw [← ring_setEvq s e ((s.evqOf e).drop 1)] at h
  by_cases h₁ : err.natAbs ≤ 500
  · have h₂ : err.natAbs ≤ 3000 := by omega
    obtain h | h := h <;> simp only [h, hfind, if_pos h₁, if_pos h₂]
  · by_cases h₂ : err.natAbs ≤ 3000 <;> obtain h | h := h <;> simp only [h, hfind, h₁, h₂, if_true, if_false]

theorem opRingLoop_otherTag (h : s.ring e k = .locked ∨ s.ring e k = .drifting) {t : Fin 17}
    (hfind : tags.find? (fun t => t.val != ringTarget k) = some t) :
    opRingLoop e k err tags s = (s.setEvq e ((s.evqOf e).drop 1)).wrongLine e k t.val := by
  rw [← ring_setEvq s e ((s.evqOf e).drop 1)] at h
  unfold opRingLoop
  obtain h | h := h <;> simp only [h, hfind]

/-! #### A wrong line (R335, R336, R348) -/

/-- A ring found on a wrong line in the log, where it is free. -/
def State.wrongLogged (s : State) (e k found : Nat) : State :=
  if s.getF Fld.OPT_WRONG_LINE_LOG_VALID = 1 then s
  else s.setFs [(Fld.OPT_WRONG_LINE_LOG_VALID, 1), (Fld.OPT_WRONG_LINE_LOG_ENGINE, e), (Fld.OPT_WRONG_LINE_LOG_RING, k),
    (Fld.OPT_WRONG_LINE_LOG_EXPECTED, ringTarget k), (Fld.OPT_WRONG_LINE_LOG_FOUND, found)]

/-- A ring found on a wrong line: logged, flagged, counted, and its sweep begun. -/
def State.wrongSeen (s : State) (e k found : Nat) : State :=
  ((s.wrongLogged e k found).stick Fld.OPT_FLAGS_WRONG_LINE Fld.OPT_WRONG_LINE_CNT_COUNT).setRing e k (.sweeping 0)

theorem wrongLine_laneOnly (he : e < 8) (s : State) (k found : Nat) : LaneOnly (s.wrongSeen e k found) (s.wrongLine e k found) := by
  have hheld : LaneOnly (s.wrongSeen e k found) ((s.wrongSeen e k found).tickEvent.holdRing e k) :=
    (laneOnly_tickEvent _).trans (laneOnly_holdRing he _ k)
  unfold State.wrongLine
  refine iteInduction (fun h => hheld.trans ?_) fun _ => hheld
  exact laneOnly_holdLane (by unfold portOf; omega) h.2 _

theorem wrongSeen_counts (s : State) (e k found : Nat) : (s.wrongSeen e k found).getF Fld.OPT_FLAGS_WRONG_LINE = 1
    ∧ (s.wrongSeen e k found).getF Fld.OPT_WRONG_LINE_CNT_COUNT = (s.getF Fld.OPT_WRONG_LINE_CNT_COUNT + 1) % 2 ^ 32 := by
  have hcnt : (s.wrongLogged e k found).getF Fld.OPT_WRONG_LINE_CNT_COUNT = s.getF Fld.OPT_WRONG_LINE_CNT_COUNT := by
    unfold State.wrongLogged
    split
    · rfl
    · simp (disch := omega) only [lightWrites, lightFields, lightReads]
  rw [← hcnt]
  unfold State.wrongSeen
  simp (disch := omega) only [lightWrites, lightFields, lightReads]
  exact ⟨rfl, trivial⟩

theorem wrongSeen_log (he : e < 8) (hk : k < 101) {found : Nat} (hf : found < 17) (hfree : s.getF Fld.OPT_WRONG_LINE_LOG_VALID = 0) :
    (s.wrongSeen e k found).getF Fld.OPT_WRONG_LINE_LOG_VALID = 1 ∧ (s.wrongSeen e k found).getF Fld.OPT_WRONG_LINE_LOG_ENGINE = e
      ∧ (s.wrongSeen e k found).getF Fld.OPT_WRONG_LINE_LOG_RING = k
      ∧ (s.wrongSeen e k found).getF Fld.OPT_WRONG_LINE_LOG_EXPECTED = ringTarget k
      ∧ (s.wrongSeen e k found).getF Fld.OPT_WRONG_LINE_LOG_FOUND = found := by
  have htarget : ringTarget k < 32 := by
    unfold ringTarget
    split <;> omega
  unfold State.wrongSeen State.wrongLogged
  rw [if_neg (by rw [hfree]; decide)]
  simp (disch := omega) only [lightWrites, lightFields, lightReads, Nat.mod_eq_of_lt, and_self]

/-! #### A ring that locks again (R334, R336) -/

theorem opRelock_lost (h : s.ring e k = .lost) :
    opRelock e k s = (ringLane k).elim (s.setRing e k .locked) fun i => (s.setRing e k .locked).laneBack e i := by
  simp only [opRelock, h]

theorem opSweep_found (h : s.ring e k = .sweeping n) :
    opSweep e k true s = (ringLane k).elim (s.setRing e k .locked) fun i => (s.setRing e k .locked).laneBack e i := by
  simp only [opSweep, h, if_true]

theorem opSweep_again (h : s.ring e k = .sweeping 0) : opSweep e k false s = s.setRing e k (.sweeping 1) := by
  simp only [opSweep, h, Bool.false_eq_true, if_false, if_true]

/-- The second sweep without the tag removes the lane for good. -/
theorem opSweep_gone (h : s.ring e k = .sweeping n) (hn : n ≠ 0) (hk : k < 96) :
    opSweep e k false s = (s.setRing e k .parked).removeLane (portOf e (k % 32)) (waveOf (k % 32)) true := by
  simp only [opSweep, h, hn, Bool.false_eq_true, if_false, ringLane, if_pos hk, Option.elim_some]

theorem ring_removeLane (s : State) (p w : Nat) (keep : Bool) (e k : Nat) : (s.removeLane p w keep).ring e k = s.ring e k :=
  ring_of_rings (by rw [removeLane_opt]) e k

end

end Sys2Proof.Machine
end

section

set_option Elab.async false

namespace Sys2Proof.Machine

section
variable {s : State} {e k n : Nat} {err : Int} {tags : List (Fin 17)}

/-! #### What a ring's events leave -/

theorem ownTag_shows (he : e < 8) (h : s.ring e k = .locked ∨ s.ring e k = .drifting) (hown : ∀ t ∈ tags, t.val = ringTarget k) :
    ∃ t, opRingLoop e k err tags s = t ∧ t.ring e k = ringAfter err.natAbs ∧ t.evqOf e = (s.evqOf e).drop 1
      ∧ (err.natAbs ≤ 3000 → t.regs = s.regs) ∧ t.mem = s.mem ∧ t.fab = s.fab := by
  have hrun := opRingLoop_ownTag (err := err) h hown
  obtain ⟨hevq, hregs, hmem, hfab⟩ := setRing_frame (s.setEvq e ((s.evqOf e).drop 1)) e k (ringAfter err.natAbs)
  obtain ⟨hregs', hmem', hfab'⟩ := setEvq_frame s e ((s.evqOf e).drop 1)
  have hring := ring_setRing_self (s.setEvq e ((s.evqOf e).drop 1)) e k (ringAfter err.natAbs)
  rw [evqOf_setEvq] at hevq
  by_cases hm : err.natAbs ≤ 3000
  · exact ⟨_, hrun.trans (if_pos hm), hring, hevq, fun _ => hregs.trans hregs', hmem.trans hmem', hfab.trans hfab'⟩
  · have hheld := laneOnly_holdRing he ((s.setEvq e ((s.evqOf e).drop 1)).setRing e k (ringAfter err.natAbs)) k
    exact ⟨_, hrun.trans (if_neg hm), (hheld.ring e k).trans hring, (hheld.evqOf e).trans hevq, fun h => absurd h hm,
      hheld.mem.trans (hmem.trans hmem'), hheld.fab.trans (hfab.trans hfab')⟩

/-- What stands once a ring is found on a wrong line. -/
structure WrongLineSeen (e k found : Nat) (s t : State) : Prop where
  ring : t.ring e k = .sweeping 0
  flag : t.getF Fld.OPT_FLAGS_WRONG_LINE = 1
  count : t.getF Fld.OPT_WRONG_LINE_CNT_COUNT = (s.getF Fld.OPT_WRONG_LINE_CNT_COUNT + 1) % 2 ^ 32
  log : s.getF Fld.OPT_WRONG_LINE_LOG_VALID = 0 → t.getF Fld.OPT_WRONG_LINE_LOG_VALID = 1 ∧ t.getF Fld.OPT_WRONG_LINE_LOG_ENGINE = e
    ∧ t.getF Fld.OPT_WRONG_LINE_LOG_RING = k ∧ t.getF Fld.OPT_WRONG_LINE_LOG_EXPECTED = ringTarget k
    ∧ t.getF Fld.OPT_WRONG_LINE_LOG_FOUND = found

theorem wrongLineSeen (he : e < 8) (hk : k < 101) {found : Nat} (hf : found < 17) (s : State) :
    WrongLineSeen e k found s (s.wrongLine e k found) := by
  have h := wrongLine_laneOnly he s k found
  have hlog {lo width : Nat} : (s.wrongLine e k found).getF ⟨RegId.OPT_WRONG_LINE_LOG.addr, lo, width⟩
      = (s.wrongSeen e k found).getF ⟨RegId.OPT_WRONG_LINE_LOG.addr, lo, width⟩ := h.getF Nat.one_pos Nat.one_pos (by decide)
  obtain ⟨hflag, hcount⟩ := wrongSeen_counts s e k found
  refine ⟨(h.ring e k).trans (ring_setRing_self ..), (h.getF (q := .OPT_FLAGS) Nat.one_pos Nat.one_pos (by decide)).trans hflag,
    (h.getF (q := .OPT_WRONG_LINE_CNT) Nat.one_pos Nat.one_pos (by decide)).trans hcount, fun hfree => ?_⟩
  obtain ⟨hvalid, heng, hring, hexp, hfound⟩ := wrongSeen_log he hk hf hfree
  exact ⟨hlog.trans hvalid, hlog.trans heng, hlog.trans hring, hlog.trans hexp, hlog.trans hfound⟩

/-- Reading an event changes no register. -/
theorem otherTag_shows (he : e < 8) (hk : k < 101) (h : s.ring e k = .locked ∨ s.ring e k = .drifting) {t : Fin 17}
    (hfind : tags.find? (fun t => t.val != ringTarget k) = some t) : WrongLineSeen e k t.val s (opRingLoop e k err tags s) := by
  rw [opRingLoop_otherTag h hfind]
  have hregs (f : Field) : (s.setEvq e ((s.evqOf e).drop 1)).getF f = s.getF f := rfl
  obtain ⟨hring, hflag, hcount, hlog⟩ := wrongLineSeen he hk t.isLt (s.setEvq e ((s.evqOf e).drop 1))
  exact ⟨hring, hflag, by rw [hcount, hregs], fun hfree => hlog (by rw [hregs, hfree])⟩

/-- An express ring serves no lane. -/
theorem ringBack_express (h : 96 ≤ k) (s : State) : ((ringLane k).elim s fun i => s.laneBack e i) = s := by
  simp only [ringLane, if_neg (Nat.not_lt.mpr h), Option.elim_none]

theorem relocked_shows (he : e < 8) (s : State) (k : Nat) :
    let t := (ringLane k).elim (s.setRing e k .locked) fun i => (s.setRing e k .locked).laneBack e i
    t.ring e k = .locked ∧ (96 ≤ k → t.regs = s.regs) ∧ t.mem = s.mem ∧ t.fab = s.fab := by
  have h := laneOnly_ringBack he (s.setRing e k .locked) k
  obtain ⟨-, hregs, hmem, hfab⟩ := setRing_frame s e k .locked
  exact ⟨(h.ring e k).trans (ring_setRing_self ..), fun hk => by rw [ringBack_express hk, hregs], h.mem.trans hmem, h.fab.trans hfab⟩

theorem sweptOut_shows (he : e < 8) (s : State) (k : Nat) :
    let t := (s.setRing e k .parked).removeLane (portOf e (k % 32)) (waveOf (k % 32)) true
    t.ring e k = .parked ∧ t.laneState (portOf e (k % 32)) (waveOf (k % 32)) = 5
      ∧ laneKey (portOf e (k % 32)) (waveOf (k % 32)) ∈ t.store.gone :=
  ⟨(ring_removeLane ..).trans (ring_setRing_self ..), removeLane_state (by unfold portOf; omega) _ true, mem_gone_removeLane ..⟩

end

end Sys2Proof.Machine
end

section

/-! ### Lasers and the swaps of their patches (R337 to R342) -/

set_option Elab.async false

namespace Sys2Proof.Machine

section
variable {s t : State} {e l k n power : Nat}

/-! #### What a measurement shows (R337, R338) -/

theorem laserState_setPower (e l power l' : Nat) : (s.setF (Fld.OPT_LASER_POWER e l) power).laserState e l' = s.laserState e l' := by
  simp (disch := omega) only [lightWrites, lightFields, lightReads]

/-- A laser that is not below 65 % asks for no patch: it fades or is restored, and its lane may come back. -/
theorem opLaserPower_bright (hl : l ≤ 32) (hst : s.laserState e l = 2 ∨ s.laserState e l = 3) (hp : 6500 ≤ power) :
    opLaserPower e l power s = let t := (s.setF (Fld.OPT_LASER_POWER e l) power).fade e l power
      (if l < 32 then some l else none).elim t fun i => t.laneBack e i := by
  have hlane : (if l < 32 then some l else if l = 32 then none else (s.patchLane e (l - 33)).filter fun i => i < 32)
      = if l < 32 then some l else none := by
    by_cases h : l < 32
    · rw [if_pos h, if_pos h]
    · rw [if_neg h, if_neg h, if_pos (by omega)]
  unfold opLaserPower
  dsimp only
  rw [if_neg (by rw [laserState_setPower]; omega), if_neg (show ¬ power < 3000 by omega),
    if_neg (show ¬ (l ≤ 32 ∧ power < 6500) by omega), if_neg (show ¬ (32 < l ∧ _) by omega)]
  by_cases h : l < 32
  · simp only [h, if_true]
  · simp only [show l = 32 by omega, if_true, lt_self_iff_false, if_false]

/-- A faded laser between 30 % and 65 % asks for a patch. -/
theorem opLaserPower_faded (hl : l ≤ 32) (hst : s.laserState e l = 3) (hp : 3000 ≤ power) (hp' : power < 6500) :
    opLaserPower e l power s = (s.setF (Fld.OPT_LASER_POWER e l) power).askSwap e l := by
  have hfade : (s.setF (Fld.OPT_LASER_POWER e l) power).fade e l power = s.setF (Fld.OPT_LASER_POWER e l) power := by
    unfold State.fade
    rw [laserState_setPower, hst, if_neg (by omega), if_neg (by omega)]
  unfold opLaserPower
  dsimp only
  rw [if_neg (by rw [laserState_setPower]; omega), if_neg (show ¬ power < 3000 by omega), hfade, if_pos ⟨hl, hp'⟩]

theorem laneOnly_laserBack (he : e < 8) (s : State) (l : Nat) :
    LaneOnly s ((if l < 32 then some l else none).elim s fun i => s.laneBack e i) := by
  refine laneOnly_elim fun i hi => laneOnly_laneBack he ?_ s
  by_cases h : l < 32
  · rw [if_pos h] at hi
    rw [← Option.some.inj hi]
    exact h
  · rw [if_neg h] at hi
    nomatch hi

theorem faded_shows (he : e < 8) (hl : l < 37) (hpow : power < 2 ^ 16) :
    let t := ((s.setF (Fld.OPT_LASER_POWER e l) power).stick Fld.OPT_FLAGS_FADE Fld.OPT_FADE_CNT_COUNT).setF (Fld.OPT_LASER_STATE e l) 3
    t.getF (Fld.OPT_LASER_POWER e l) = power ∧ t.laserState e l = 3 ∧ t.getF Fld.OPT_FLAGS_FADE = 1
      ∧ t.getF Fld.OPT_FADE_CNT_COUNT = (s.getF Fld.OPT_FADE_CNT_COUNT + 1) % 2 ^ 32 := by
  simp (disch := omega) only [lightWrites, lightFields, lightReads, Nat.mod_eq_of_lt, and_self]

theorem restored_shows (hpow : power < 2 ^ 16) :
    let t := (s.setF (Fld.OPT_LASER_POWER e l) power).setF (Fld.OPT_LASER_STATE e l) 2
    t.getF (Fld.OPT_LASER_POWER e l) = power ∧ t.laserState e l = 2 := by
  simp (disch := omega) only [lightWrites, lightFields, lightReads, Nat.mod_eq_of_lt, and_self]

theorem laserFades (he : e < 8) (hl : l ≤ 32) (hst : s.laserState e l = 2) (hp : 6500 ≤ power) (hp' : power < 8000) :
    ∃ t, opLaserPower e l power s = t ∧ t.getF (Fld.OPT_LASER_POWER e l) = power ∧ t.laserState e l = 3
      ∧ t.getF Fld.OPT_FLAGS_FADE = 1 ∧ t.getF Fld.OPT_FADE_CNT_COUNT = (s.getF Fld.OPT_FADE_CNT_COUNT + 1) % 2 ^ 32
      ∧ t.mem = s.mem ∧ t.fab = s.fab := by
  have hfade : (s.setF (Fld.OPT_LASER_POWER e l) power).fade e l power
      = ((s.setF (Fld.OPT_LASER_POWER e l) power).stick Fld.OPT_FLAGS_FADE Fld.OPT_FADE_CNT_COUNT).setF (Fld.OPT_LASER_STATE e l) 3 :=
    if_pos ⟨by rw [laserState_setPower, hst], hp'⟩
  have hrun := opLaserPower_bright hl (.inl hst) hp
  have hback := laneOnly_laserBack he ((s.setF (Fld.OPT_LASER_POWER e l) power).fade e l power) l
  have hlaser : l < RegId.OPT_LASER.spec.n2 := show l < 37 by omega
  obtain ⟨hpow, hstate, hflag, hcnt⟩ := faded_shows (s := s) (power := power) he hlaser (by omega)
  rw [← hfade] at hpow hstate hflag hcnt
  refine ⟨_, hrun, (hback.getF (q := .OPT_LASER) he hlaser (by decide)).trans hpow,
    (hback.getF (q := .OPT_LASER) he hlaser (by decide)).trans hstate,
    (hback.getF (q := .OPT_FLAGS) Nat.one_pos Nat.one_pos (by decide)).trans hflag,
    (hback.getF (q := .OPT_FADE_CNT) Nat.one_pos Nat.one_pos (by decide)).trans hcnt, hback.mem.trans ?_, hback.fab.trans ?_⟩
  · simp only [hfade, State.stick, State.incF, State.setF_mem]
  · simp only [hfade, State.stick, State.incF, State.setF_fab]

theorem laserRestored (he : e < 8) (hl : l ≤ 32) (hst : s.laserState e l = 3) (hp : 8500 ≤ power) (hpow : power < 2 ^ 16) :
    ∃ t, opLaserPower e l power s = t ∧ t.getF (Fld.OPT_LASER_POWER e l) = power ∧ t.laserState e l = 2 := by
  have hfade : (s.setF (Fld.OPT_LASER_POWER e l) power).fade e l power
      = (s.setF (Fld.OPT_LASER_POWER e l) power).setF (Fld.OPT_LASER_STATE e l) 2 := by
    unfold State.fade
    rw [laserState_setPower, hst, if_neg (by omega), if_pos ⟨rfl, hp⟩]
  have hrun := opLaserPower_bright hl (.inr hst) (show 6500 ≤ power by omega)
  have hback := laneOnly_laserBack he ((s.setF (Fld.OPT_LASER_POWER e l) power).fade e l power) l
  have hlaser : l < RegId.OPT_LASER.spec.n2 := show l < 37 by omega
  obtain ⟨hpow, hstate⟩ := restored_shows (s := s) (e := e) (l := l) hpow
  rw [← hfade] at hpow hstate
  exact ⟨_, hrun, (hback.getF (q := .OPT_LASER) he hlaser (by decide)).trans hpow,
    (hback.getF (q := .OPT_LASER) he hlaser (by decide)).trans hstate⟩

/-! #### A swap begins (R339) -/

theorem spare_lt (h : s.spare e = some k) : k < 4 := List.mem_range.mp (List.mem_of_find?_eq_some h)

theorem spare_setPower (e l power : Nat) : (s.setF (Fld.OPT_LASER_POWER e l) power).spare e = s.spare e := by
  simp only [State.spare, laserState_setPower]

/-- What light control holds beside the registers rules which swaps run and wait. -/
theorem swaps_of_opt (h : t.opt = s.opt) (e : Nat) : t.swapLaser e = s.swapLaser e ∧ t.swapWait e = s.swapWait e := by
  simp only [State.swapLaser, State.swapWait, h, and_self]

theorem askSwap_begins (hk : s.spare e = some k) (hswap : s.swapLaser e = none) (hwait : s.swapWait e = []) :
    s.askSwap e l = s.swapBegin e l k := by
  simp [State.askSwap, hk, hswap, hwait]

theorem swapBegin_opt (s : State) (e l k : Nat) :
    (s.swapBegin e l k).opt = { s.opt with swapOf := smapSet (fun _ => none) s.opt.swapOf e (some l) } := by
  simp only [State.swapBegin, setFs_cons, setFs_nil, State.tickEvent_opt, State.setF_opt]
  rfl

theorem swapBegin_laser (s : State) (e l k : Nat) : (s.swapBegin e l k).swapLaser e = some l := by
  rw [State.swapLaser, swapBegin_opt]
  exact smapGet_set_self ..

theorem laserChan_lt (l : Nat) : laserChan l < 32 := by
  unfold laserChan
  split <;> omega

theorem swapBegin_shows (he : e < 8) (hk : k < 4) (s : State) (l : Nat) :
    (s.swapBegin e l k).getF (Fld.OPT_PATCH_PROG_STEP e) = 1 ∧ (s.swapBegin e l k).getF (Fld.OPT_PATCH_PROG_PATCH e) = k
      ∧ (s.swapBegin e l k).getF (Fld.OPT_ENG_STATUS_SWAP_BUSY e) = 1 ∧ (s.swapBegin e l k).laserState e (33 + k) = 1
      ∧ (s.swapBegin e l k).getF (Fld.OPT_LASER_CHAN e (33 + k)) = laserChan l := by
  have hchan := laserChan_lt l
  unfold State.swapBegin
  simp (disch := omega) only [lightWrites, lightFields, lightReads, Nat.mod_eq_of_lt, and_self]

theorem laserAsks (hl : l ≤ 32) (hst : s.laserState e l = 3) (hp : 3000 ≤ power) (hp' : power < 6500) (hk : s.spare e = some k)
    (hswap : s.swapLaser e = none) (hwait : s.swapWait e = []) :
    opLaserPower e l power s = (s.setF (Fld.OPT_LASER_POWER e l) power).swapBegin e l k := by
  obtain ⟨hswap', hwait'⟩ := swaps_of_opt (s.setF_opt (Fld.OPT_LASER_POWER e l) power) e
  rw [opLaserPower_faded hl hst hp hp']
  exact askSwap_begins ((spare_setPower e l power).trans hk) (hswap'.trans hswap) (hwait'.trans hwait)

end

end Sys2Proof.Machine
end

section

set_option Elab.async false

namespace Sys2Proof.Machine

section
variable {s t : State} {e l k n : Nat}

/-! #### The steps of a swap (R339, R342) -/

theorem regs_setF_of_regs (h : t.regs = s.regs) (f : Field) (v : Nat) : (t.setF f v).regs = (s.setF f v).regs := by
  simp only [State.setF, State.setReg, reg_of_regs h, h]

theorem swapTo_shows (hn : n < 8) (s : State) (e : Nat) : (s.swapTo e n).getF (Fld.OPT_PATCH_PROG_STEP e) = n := by
  unfold State.swapTo
  simp (disch := omega) only [lightFields, lightReads, Nat.mod_eq_of_lt]

theorem opSwapStep_data (h : s.swapLaser e = some l) (hl : l < 32) : opSwapStep e s = s.swapData e l := by
  unfold opSwapStep
  simp only [h, if_neg (Nat.ne_of_lt hl)]

section
variable (hpause : s.swapPauses e l = false) (hup : s.portUp (portOf e l) = false)
include hpause hup

/-- Step 1 on a port that is not up: nothing is to be drained; a lane that waits for light stands on no rung. -/
theorem swapData_one (h : s.getF (Fld.OPT_PATCH_PROG_STEP e) = 1) : s.swapData e l
    = if s.laneState (portOf e l) (waveOf l) = 1 then (s.setRungs (portOf e l) (waveOf l) 0 0).swapTo e 2 else s.swapTo e 2 := by
  simp [State.swapData, hpause, hup, h]

theorem swapData_two (h : s.getF (Fld.OPT_PATCH_PROG_STEP e) = 2) : s.swapData e l = (s.setRing e (64 + l) .lost).swapTo e 3 := by
  simp [State.swapData, hpause, hup, h]

omit hup in
theorem swapData_three (h : s.getF (Fld.OPT_PATCH_PROG_STEP e) = 3) : s.swapData e l = (s.setRing e (64 + l) .locked).swapTo e 4 := by
  simp [State.swapData, hpause, h]

theorem swapData_four (hp : portOf e l < 16) (h : s.getF (Fld.OPT_PATCH_PROG_STEP e) = 4) (hdue : s.opt.due = []) :
    s.swapData e l = s.swapTo e 5 := by
  have hup' : (s.swapTo e 5).portUp (portOf e l) = false := by
    rw [← hup]
    unfold State.swapTo State.portUp
    simp (disch := omega) only [lightFields, lightReads]
  have hdue' : (s.swapTo e 5).opt.due = [] := by rw [State.swapTo, State.setF_opt, hdue]
  simp [State.swapData, hpause, hup, h, rejoin_notUp hup' hdue']

theorem swapData_five (h : s.getF (Fld.OPT_PATCH_PROG_STEP e) = 5) : s.swapData e l = s.swapEnd e l := by
  simp [State.swapData, hpause, hup, h]

end

/-- What a step of a swap without traffic shows: step `m` reached; but for a waiting lane's rungs nothing else among the registers. -/
structure SwapAt (s : State) (e l m : Nat) (waits : Prop) (t : State) : Prop where
  step : t.getF (Fld.OPT_PATCH_PROG_STEP e) = m
  mem : t.mem = s.mem
  regs : ¬ waits → t.regs = (s.setF (Fld.OPT_PATCH_PROG_STEP e) m).regs
  rung : waits → t.getF (Fld.OPT_LANE_RUNG (portOf e l) (waveOf l)) = 0

theorem swapAt_next (hm : n < 8) (e l : Nat) (hregs : t.regs = s.regs) (hmem : t.mem = s.mem) : SwapAt s e l n False (t.swapTo e n) :=
  ⟨swapTo_shows hm t e, by rw [State.swapTo, State.setF_mem, hmem], fun _ => regs_setF_of_regs hregs _ _, False.elim⟩

theorem swapAt_two (he : e < 8) (hl : l < 32) (hpause : s.swapPauses e l = false) (hup : s.portUp (portOf e l) = false)
    (h : s.getF (Fld.OPT_PATCH_PROG_STEP e) = 1) :
    SwapAt s e l 2 (s.laneState (portOf e l) (waveOf l) = 1) (s.swapData e l) := by
  rw [swapData_one hpause hup h]
  by_cases hst : s.laneState (portOf e l) (waveOf l) = 1
  · rw [if_pos hst]
    refine ⟨swapTo_shows (by decide) _ e, ?_, fun h => absurd hst h, fun _ => ?_⟩
    · simp only [State.swapTo, State.setRungs, setFs_cons, setFs_nil, State.setF_mem]
    · have hp : portOf e l < 16 := by unfold portOf; omega
      unfold State.swapTo
      simp (disch := omega) only [lightWrites, lightFields, lightReads, Nat.zero_mod]
  · rw [if_neg hst]
    exact ⟨swapTo_shows (by decide) s e, State.setF_mem .., fun _ => rfl, fun h => absurd h hst⟩

/-- The four steps before the last, on a port that is not up (R342). -/
theorem opSwapStep_at (he : e < 8) (hl : l < 32) (hlaser : s.swapLaser e = some l) (hpause : s.swapPauses e l = false)
    (hup : s.portUp (portOf e l) = false) (hdue : s.opt.due = []) {c : Nat × Nat} (hc : c ∈ [(1, 2), (2, 3), (3, 4), (4, 5)])
    (h : s.getF (Fld.OPT_PATCH_PROG_STEP e) = c.1) :
    SwapAt s e l c.2 (c.1 = 1 ∧ s.laneState (portOf e l) (waveOf l) = 1) (opSwapStep e s) := by
  rw [opSwapStep_data hlaser hl]
  simp only [List.mem_cons, List.not_mem_nil, or_false] at hc
  obtain rfl | rfl | rfl | rfl := hc
  · simpa using swapAt_two he hl hpause hup h
  · simpa [swapData_two hpause hup h] using swapAt_next (s := s) (t := s.setRing e (64 + l) .lost) (n := 3) (by decide) e l rfl rfl
  · simpa [swapData_three hpause h] using swapAt_next (s := s) (t := s.setRing e (64 + l) .locked) (n := 4) (by decide) e l rfl rfl
  · simpa [swapData_four hpause hup (by unfold portOf; omega) h hdue] using swapAt_next (s := s) (n := 5) (by decide) e l rfl rfl

/-! #### The end of a swap (R339, R341, R353) -/

theorem circuitGo_unarmed (h : s.getF Fld.OPT_CIRCUIT_STATE ≠ 1) : s.circuitGo = s := by
  unfold State.circuitGo
  exact if_pos (.inl h)

theorem swapNext_none (h : s.swapWait e = []) : s.swapNext e = s := by
  unfold State.swapNext
  rw [h]

/-- What the registers show once patch `k` serves in place of laser `l`. -/
def State.swapShown (s : State) (e l k : Nat) : State :=
  let s := (s.setFs [(Fld.OPT_LASER_STATE e l, 4), (Fld.OPT_LASER_CHAN e l, 0x1F), (Fld.OPT_LASER_STATE e (33 + k), 2),
    (Fld.OPT_PATCH_PROG_STEP e, 0), (Fld.OPT_ENG_STATUS_SWAP_BUSY e, 0)]).incF (Fld.OPT_PATCH_PROG_SWAPS e)
  if l = 32 then s.setF (Fld.OPT_ENG_STATUS_EXP_LOST e) 0
  else s.setFs [(Fld.OPT_LANE_PATCHED (portOf e l) (waveOf l), 1), (Fld.OPT_LANE_PATCH (portOf e l) (waveOf l), k)]

/-- What the on-module store keeps of it, and no swap in progress. -/
def State.swapKept (s : State) (e l k : Nat) : State :=
  ({ s with store := { s.store with
      retired := s.store.retired ++ [37 * e + l], patched := smapSet (fun _ => none) s.store.patched (33 * e + l) (some k) } }).updOpt
    fun o => { o with swapOf := smapSet (fun _ => none) o.swapOf e none }

theorem swapKept_frame (s : State) (e l k : Nat) : (s.swapKept e l k).regs = s.regs ∧ (s.swapKept e l k).mem = s.mem
    ∧ (s.swapKept e l k).fab = s.fab ∧ (s.swapKept e l k).opt = { s.opt with swapOf := smapSet (fun _ => none) s.opt.swapOf e none } :=
  ⟨rfl, rfl, rfl, rfl⟩

theorem swapShown_frame (s : State) (e l k : Nat) : (s.swapShown e l k).mem = s.mem ∧ (s.swapShown e l k).fab = s.fab
    ∧ (s.swapShown e l k).opt = s.opt := by
  unfold State.swapShown
  dsimp only
  split <;> simp only [setFs_cons, setFs_nil, State.incF, State.setF_mem, State.setF_fab, State.setF_opt, and_self]

theorem swapShown_circuit (he : e < 8) (hl : l ≤ 32) (hk : k < 4) (s : State) :
    (s.swapShown e l k).getF Fld.OPT_CIRCUIT_STATE = s.getF Fld.OPT_CIRCUIT_STATE := by
  unfold State.swapShown
  dsimp only
  split <;> simp (disch := omega) only [lightWrites, lightFields, lightReads]

/-- With no circuit change armed and no laser waiting, nothing follows a swap. -/
theorem swapEnd_eq (he : e < 8) (hl : l ≤ 32) (hk : k = s.getF (Fld.OPT_PATCH_PROG_PATCH e)) (hwait : s.swapWait e = [])
    (hcirc : s.getF Fld.OPT_CIRCUIT_STATE ≠ 1) : s.swapEnd e l = (s.swapShown e l k).swapKept e l k := by
  have hk₄ : k < 4 := hk ▸ fieldOf_lt ..
  obtain ⟨hregs, -, -, hopt⟩ := swapKept_frame (s.swapShown e l k) e l k
  obtain ⟨-, -, hopt'⟩ := swapShown_frame s e l k
  have hcirc' : ((s.swapShown e l k).swapKept e l k).getF Fld.OPT_CIRCUIT_STATE ≠ 1 := by
    rw [getF_of_regs hregs, swapShown_circuit he hl hk₄]
    exact hcirc
  have hwait' : ((s.swapShown e l k).swapKept e l k).swapWait e = [] := by
    rw [State.swapWait, hopt, hopt']
    exact hwait
  calc s.swapEnd e l = (((s.swapShown e l k).swapKept e l k).circuitGo).swapNext e := by rw [hk]; rfl
    _ = (s.swapShown e l k).swapKept e l k := by rw [circuitGo_unarmed hcirc', swapNext_none hwait']

/-- The patch serves in place of the laser, which is retired. -/
structure Swapped (e l k : Nat) (s t : State) : Prop where
  idle : t.swapLaser e = none
  step : t.getF (Fld.OPT_PATCH_PROG_STEP e) = 0
  old : t.laserState e l = 4
  patch : t.laserState e (33 + k) = 2
  swaps : t.getF (Fld.OPT_PATCH_PROG_SWAPS e) = (s.getF (Fld.OPT_PATCH_PROG_SWAPS e) + 1) % 2 ^ 32
  mem : t.mem = s.mem
  fab : t.fab = s.fab

theorem swapShown_reads (he : e < 8) (hl : l ≤ 32) (hk : k < 4) (s : State) :
    (s.swapShown e l k).getF (Fld.OPT_PATCH_PROG_STEP e) = 0 ∧ (s.swapShown e l k).laserState e l = 4
      ∧ (s.swapShown e l k).laserState e (33 + k) = 2
      ∧ (s.swapShown e l k).getF (Fld.OPT_PATCH_PROG_SWAPS e) = (s.getF (Fld.OPT_PATCH_PROG_SWAPS e) + 1) % 2 ^ 32
      ∧ (s.swapShown e l k).getF (Fld.OPT_ENG_STATUS_SWAP_BUSY e) = 0 := by
  unfold State.swapShown
  dsimp only
  by_cases h : l = 32
  · rw [if_pos h]
    simp (disch := omega) only [lightWrites, lightFields, lightReads, Nat.mod_eq_of_lt, and_self]
  · have hp : portOf e l < 16 := by unfold portOf; omega
    have hw : waveOf l < 16 := Nat.mod_lt _ (by decide)
    rw [if_neg h]
    simp (disch := omega) only [lightWrites, lightFields, lightReads, Nat.mod_eq_of_lt, and_self]

theorem swapEnd_swapped (he : e < 8) (hl : l ≤ 32) (hk : k = s.getF (Fld.OPT_PATCH_PROG_PATCH e)) (hwait : s.swapWait e = [])
    (hcirc : s.getF Fld.OPT_CIRCUIT_STATE ≠ 1) : Swapped e l k s (s.swapEnd e l) := by
  have hk₄ : k < 4 := hk ▸ fieldOf_lt ..
  obtain ⟨hregs, hmem, hfab, hopt⟩ := swapKept_frame (s.swapShown e l k) e l k
  obtain ⟨hmem', hfab', -⟩ := swapShown_frame s e l k
  obtain ⟨hstep, hold, hpatch, hswaps, -⟩ := swapShown_reads he hl hk₄ s
  rw [swapEnd_eq he hl hk hwait hcirc]
  refine ⟨?_, (getF_of_regs hregs _).trans hstep, (getF_of_regs hregs _).trans hold, (getF_of_regs hregs _).trans hpatch,
    (getF_of_regs hregs _).trans hswaps, hmem.trans hmem', hfab.trans hfab'⟩
  rw [State.swapLaser, hopt]
  exact smapGet_set_self ..

/-- A data lane names the patch that serves it. -/
theorem swapEnd_lane (he : e < 8) (hl : l < 32) (hk : k = s.getF (Fld.OPT_PATCH_PROG_PATCH e)) (hwait : s.swapWait e = [])
    (hcirc : s.getF Fld.OPT_CIRCUIT_STATE ≠ 1) : (s.swapEnd e l).getF (Fld.OPT_LANE_PATCHED (portOf e l) (waveOf l)) = 1
      ∧ (s.swapEnd e l).getF (Fld.OPT_LANE_PATCH (portOf e l) (waveOf l)) = k
      ∧ (s.swapEnd e l).getF (Fld.OPT_ENG_STATUS_SWAP_BUSY e) = 0 := by
  have hk₄ : k < 4 := hk ▸ fieldOf_lt ..
  obtain ⟨hregs, -⟩ := swapKept_frame (s.swapShown e l k) e l k
  obtain ⟨-, -, -, -, hbusy⟩ := swapShown_reads he (Nat.le_of_lt hl) hk₄ s
  rw [swapEnd_eq he (Nat.le_of_lt hl) hk hwait hcirc, getF_of_regs hregs, getF_of_regs hregs, getF_of_regs hregs]
  refine (and_assoc.mp ⟨?_, hbusy⟩)
  unfold State.swapShown
  dsimp only
  rw [if_neg (Nat.ne_of_lt hl)]
  simp (disch := omega) only [lightWrites, lightFields, lightReads, Nat.mod_eq_of_lt, and_self]

theorem swapEnd_express (he : e < 8) (hk : k = s.getF (Fld.OPT_PATCH_PROG_PATCH e)) (hwait : s.swapWait e = [])
    (hcirc : s.getF Fld.OPT_CIRCUIT_STATE ≠ 1) : (s.swapEnd e 32).getF (Fld.OPT_ENG_STATUS_EXP_LOST e) = 0
      ∧ ∀ r, (s.swapEnd e 32).ring e r = s.ring e r := by
  obtain ⟨hregs, -, -, hopt⟩ := swapKept_frame (s.swapShown e 32 k) e 32 k
  obtain ⟨-, -, hopt'⟩ := swapShown_frame s e 32 k
  rw [swapEnd_eq he (Nat.le_refl _) hk hwait hcirc, getF_of_regs hregs]
  refine ⟨?_, ring_of_rings (by rw [hopt, hopt']) e⟩
  unfold State.swapShown
  rw [if_pos rfl]
  exact getF_setF_same (by decide)

end

end Sys2Proof.Machine
end

section

/-! ### Express bursts and circuits (R343 to R345, R349) -/

set_option Elab.async false

namespace Sys2Proof.Machine

section
variable {s t : State} {e k n p : Nat} {v : Word}

/-! #### EXPRESS_BURST (R343, R344) -/

theorem updPort_only (s : State) (p : Nat) (g : Port → Port) :
    s.updPort p g = { s with fab := { s.fab with ports := (s.updPort p g).fab.ports } } := rfl

/-- Another port. -/
theorem port_updPort_ne (s : State) {p q : Nat} (g : Port → Port) (h : q ≠ p) : (s.updPort p g).port q = s.port q := smapGet_set_ne _ _ _ _ _ h

/-- A burst changes its port alone. -/
theorem burst_keeps (s : State) (p : Nat) : (∀ r, r ≠ p → (s.burst p).port r = s.port r)
    ∧ s.burst p = { s with fab := { s.fab with ports := (s.burst p).fab.ports } } := by
  unfold State.burst State.sendTodo
  dsimp only
  split
  · exact ⟨fun _ h => port_updPort_ne s _ h, updPort_only ..⟩
  · split
    · exact ⟨fun _ _ => rfl, rfl⟩
    · exact ⟨fun _ h => port_updPort_ne s _ h, updPort_only ..⟩

theorem burst_ctl {f : Frame} (h : (s.port p).ctlDue = some f) :
    (s.burst p).port p = { s.port p with ctlDue := none, ctl := some f, wire := some f } := by
  simp only [State.burst, h, port_updPort_self]

theorem burst_todo {m : BitVec 16} {l : List (BitVec 16)} (h : (s.port p).ctlDue = none) (ht : (s.port p).express.todo = m :: l) :
    ((s.burst p).port p).express.todo = l := by
  have htodo : ((s.port p).lane true).todo = m :: l := ht
  simp only [State.burst, h, State.sendTodo, htodo, port_updPort_self]
  rfl

/-- An engine's next express burst left its queue, its switch at the port served. -/
def State.steered (s : State) (e port : Nat) (q : List Nat) : State :=
  s.updOpt fun o => { o with expressQ := smapSet (fun _ => []) o.expressQ e q, steer := smapSet (fun _ => 0) o.steer e port }

theorem steered_shows (s : State) (e port : Nat) (q : List Nat) : smapGet (fun _ => []) (s.steered e port q).opt.expressQ e = q
    ∧ smapGet (fun _ => 0) (s.steered e port q).opt.steer e = port := ⟨smapGet_set_self .., smapGet_set_self ..⟩

theorem port_steered (s : State) (e port : Nat) (q : List Nat) (r : Nat) : (s.steered e port q).port r = s.port r := rfl

theorem steered_only {port : Nat} {q : List Nat} (h : t = { s with fab := { s.fab with ports := t.fab.ports } }) :
    t.steered e port q = { s with
      fab := { s.fab with ports := (t.steered e port q).fab.ports }
      opt := { s.opt with expressQ := (t.steered e port q).opt.expressQ, steer := (t.steered e port q).opt.steer } } := by
  generalize t.fab.ports = x at h
  subst h
  rfl

/-- The engine serves the port with the older frame, and turns to it. -/
theorem opBurst_serves {port : Nat} {q : List Nat} (hq : smapGet (fun _ => []) s.opt.expressQ e = port :: q)
    (hswap : s.swapLaser e ≠ some 32 ∨ s.getF (Fld.OPT_PATCH_PROG_STEP e) ≠ 3) :
    opBurst e port s = (s.burst (2 * e + port)).steered e port q := by
  have hgo : ¬ (port ≠ port ∨ s.swapLaser e = some 32 ∧ s.getF (Fld.OPT_PATCH_PROG_STEP e) = 3) := by
    rintro (h | ⟨h₁, h₂⟩)
    · exact h rfl
    · exact hswap.elim (· h₁) (· h₂)
  unfold opBurst
  rw [hq]
  exact if_neg hgo

/-! #### CIRCUIT_START (R345, R349) -/

theorem circuitStart_bit (v : Word) : Fld.OPT_CIRCUIT_START.of (withBit Fld.OPT_CIRCUIT_START v) = 1 :=
  fieldOf_putField v 63 1 1 (by decide)

/-- The ports that the word names are those asked for. -/
theorem circuitPorts_bits (v : Word) : fieldOf (withBit Fld.OPT_CIRCUIT_START v) 0 16 = fieldOf v 0 16 :=
  fieldOf_putField_ne v 63 1 1 0 16 (.inr (by decide))

theorem writeBy_circuit (hopen : s.circuitOpen = true) (hv : Fld.OPT_CIRCUIT_START.of v = 1) :
    writeBy .OPT_CIRCUIT 0 0 v s = ((s.plainWrite .OPT_CIRCUIT 0 0 v).circuitArm, cDONE) := by
  change writeCircuit v s = _
  unfold writeCircuit
  rw [guarded_of_ok hopen]
  simp only [hv, if_true]

theorem writeBy_circuit_refused (hopen : s.circuitOpen = false) (hc : s.regChanges .OPT_CIRCUIT 0 0 v = true) :
    writeBy .OPT_CIRCUIT 0 0 v s = (s, cSTATE_REJECT) := by
  change writeCircuit v s = _
  unfold writeCircuit
  rw [hopen]
  exact guarded_refused hc

theorem circuitArm_onlyRegs (s : State) (v : Word) :
    Safety.onlyRegs s (s.plainWrite .OPT_CIRCUIT 0 0 v).circuitArm [RegId.OPT_CIRCUIT.addr] := by
  have hwritten : Safety.onlyRegs s (s.plainWrite .OPT_CIRCUIT 0 0 v) [RegId.OPT_CIRCUIT.addr] :=
    ⟨rfl, fun a ha => State.reg_setReg_ne _ _ _ _ (List.mem_singleton.not.mp ha)⟩
  have hl := List.mem_singleton_self RegId.OPT_CIRCUIT.addr
  exact onlyRegs_setF (f := Fld.OPT_CIRCUIT_UP) (onlyRegs_setF (f := Fld.OPT_CIRCUIT_CODE)
    (onlyRegs_setF (f := Fld.OPT_CIRCUIT_STATE) hwritten hl 1) hl 0) hl 0

theorem circuitArm_shows (s : State) (v : Word) : let t := (s.plainWrite .OPT_CIRCUIT 0 0 v).circuitArm
    t.getF Fld.OPT_CIRCUIT_STATE = 1 ∧ t.getF Fld.OPT_CIRCUIT_CODE = 0 ∧ t.getF Fld.OPT_CIRCUIT_UP = 0
      ∧ t.getF Fld.OPT_CIRCUIT_PORTS = fieldOf v 0 16 := by
  have hwritten : (s.plainWrite .OPT_CIRCUIT 0 0 v).getF Fld.OPT_CIRCUIT_PORTS = fieldOf v 0 16 := by
    have hbits : RegId.OPT_CIRCUIT.bits .rw = 0xFFFF := by decide
    refine (congrArg (fieldOf · 0 16) (State.reg_setReg_self ..)).trans ?_
    exact fieldOf_written_rw (by decide) (by decide) (by rw [hbits]; decide) _ v
  rw [← hwritten]
  generalize s.plainWrite .OPT_CIRCUIT 0 0 v = u
  unfold State.circuitArm
  simp (disch := omega) only [lightWrites, lightFields, lightReads]
  exact ⟨rfl, rfl, rfl, trivial⟩

theorem circuitStart_arms {path : RegPath} (hreach : Safety.reaches s path .OPT_CIRCUIT 0 0 (withBit Fld.OPT_CIRCUIT_START v))
    (hs : Safety.handedOver s) (hopen : s.circuitOpen = true) :
    ∃ u, u = (s.plainWrite .OPT_CIRCUIT 0 0 (withBit Fld.OPT_CIRCUIT_START v)).circuitArm
      ∧ exec (.circuitStart path v) s = .next { u with lastCode := cDONE } := by
  have hw := writeBy_circuit hopen (circuitStart_bit v)
  have hdone := State.write64_done hreach Nat.one_pos Nat.one_pos (by rw [hw])
  rw [hw] at hdone
  have hs' := handedOver_of_onlyRegs hs (circuitArm_onlyRegs s (withBit Fld.OPT_CIRCUIT_START v)) (by decide)
  refine ⟨_, rfl, ?_⟩
  change Host.Outcome.next (s.write64 path .OPT_CIRCUIT 0 0 (withBit Fld.OPT_CIRCUIT_START v)).settledAll = _
  rw [hdone, State.settledAll_lastCode hs']

theorem circuitStart_refused {path : RegPath} (hreach : Safety.reaches s path .OPT_CIRCUIT 0 0 (withBit Fld.OPT_CIRCUIT_START v))
    (hs : Safety.handedOver s) (hp : path ≠ .bar0) (hopen : s.circuitOpen = false)
    (hc : s.regChanges .OPT_CIRCUIT 0 0 (withBit Fld.OPT_CIRCUIT_START v) = true) :
    exec (.circuitStart path v) s = .next { s with lastCode := cSTATE_REJECT } := by
  have hrefused := write64_refused hp hreach Nat.one_pos Nat.one_pos (writeBy_circuit_refused hopen hc)
  change Host.Outcome.next (s.write64 path .OPT_CIRCUIT 0 0 (withBit Fld.OPT_CIRCUIT_START v)).settledAll = _
  rw [hrefused, State.settledAll_lastCode hs]

/-! #### CIRCUIT_TIMEOUT (R349) -/

/-- No circuit change in progress. -/
def State.noCircuit (s : State) : State := s.updOpt fun o => { o with circuitAt := none }

theorem noCircuit_frame (s : State) : (s.noCircuit).opt.circuitAt = none ∧ s.noCircuit.host = s.host ∧ s.noCircuit.regs = s.regs :=
  ⟨rfl, rfl, rfl⟩

theorem Confined.noCircuit {P : Nat → Prop} (h : Confined P s t) : Confined P s t.noCircuit := h.updOpt _

/-- A circuit change over, with its code. -/
def State.circuitOver (s : State) (code : Nat) : State :=
  ((s.setF Fld.OPT_CIRCUIT_STATE 3).setF Fld.OPT_CIRCUIT_CODE code).noCircuit

theorem circuitOver_keeps (s : State) (code : Nat) : Confined (· ∈ [RegId.OPT_CIRCUIT.addr]) s (s.circuitOver code)
    ∧ (s.circuitOver code).opt.circuitAt = none ∧ (s.circuitOver code).host = s.host := by
  have hl := List.mem_singleton_self RegId.OPT_CIRCUIT.addr
  have hset := onlyRegs_setF (f := Fld.OPT_CIRCUIT_CODE) (onlyRegs_setF (f := Fld.OPT_CIRCUIT_STATE) (onlyRegs_refl s) hl 3) hl code
  have hhost := (State.setF_host (s.setF Fld.OPT_CIRCUIT_STATE 3) Fld.OPT_CIRCUIT_CODE code).trans (State.setF_host s _ _)
  obtain ⟨hat, hhost', -⟩ := noCircuit_frame ((s.setF Fld.OPT_CIRCUIT_STATE 3).setF Fld.OPT_CIRCUIT_CODE code)
  exact ⟨Confined.noCircuit (.of_onlyRegs hset), hat, hhost'.trans hhost⟩

theorem circuitOver_shows {code : Nat} (hcode : code < 256) : (s.circuitOver code).getF Fld.OPT_CIRCUIT_STATE = 3
    ∧ (s.circuitOver code).getF Fld.OPT_CIRCUIT_CODE = code
    ∧ (s.circuitOver code).getF Fld.OPT_CIRCUIT_UP = s.getF Fld.OPT_CIRCUIT_UP := by
  unfold State.circuitOver State.noCircuit
  simp (disch := omega) only [lightFields, lightReads, Nat.mod_eq_of_lt, and_self]

theorem opCircuitTimeout_over {at_ : Nat} (hat : s.opt.circuitAt = some at_) (hst : s.getF Fld.OPT_CIRCUIT_STATE = 2)
    (hnow : at_ + 5000000 ≤ s.now) (hrun : s.running 0x33 = none) : opCircuitTimeout s = s.circuitOver cTIMEOUT.toNat := by
  have hrun' : (s.circuitOver cTIMEOUT.toNat).running 0x33 = none := by
    obtain ⟨-, -, hhost⟩ := circuitOver_keeps s cTIMEOUT.toNat
    rw [State.running, hhost]
    exact hrun
  unfold opCircuitTimeout
  rw [hat]
  dsimp only
  rw [if_neg (by omega)]
  change ((s.circuitOver cTIMEOUT.toNat).running 0x33).elim (s.circuitOver cTIMEOUT.toNat) _ = _
  rw [hrun', Option.elim_none]

end

end Sys2Proof.Machine
end

section

/-! ### A circuit change at its mark (R345) -/

set_option Elab.async false

namespace Sys2Proof.Machine

section
variable {P Q : Nat → Prop} {r s t : State} {p q w v n : Nat}

/-! #### What a change of circuits keeps -/

/-- What a state keeps of another one while circuits change: bytes, bays, when the change began, the lanes gone for good, and all but
some registers. -/
structure CircuitKeeps (P : Nat → Prop) (s t : State) : Prop where
  mem : t.mem = s.mem
  bays : t.bays = s.bays
  began : t.opt.circuitAt = s.opt.circuitAt
  gone : s.store.gone ⊆ t.store.gone
  reg : ∀ a, ¬ P a → t.reg a = s.reg a

theorem CircuitKeeps.refl (s : State) : CircuitKeeps P s s := ⟨rfl, rfl, rfl, fun _ h => h, fun _ _ => rfl⟩

theorem CircuitKeeps.trans (r s t : State) (h : CircuitKeeps P r s) (h' : CircuitKeeps P s t) : CircuitKeeps P r t :=
  ⟨h'.mem.trans h.mem, h'.bays.trans h.bays, h'.began.trans h.began, fun _ hx => h'.gone (h.gone hx),
    fun a ha => (h'.reg a ha).trans (h.reg a ha)⟩

theorem CircuitKeeps.mono (h : CircuitKeeps P s t) (hPQ : ∀ a, P a → Q a) : CircuitKeeps Q s t :=
  ⟨h.mem, h.bays, h.began, h.gone, fun a ha => h.reg a fun hP => ha (hPQ a hP)⟩

theorem CircuitKeeps.getF (h : CircuitKeeps P s t) (f : Field) (hf : ¬ P f.reg) : t.getF f = s.getF f :=
  congrArg (fieldOf · f.lo f.width) (h.reg _ hf)

/-- A port's changes leave the other ports as they are. -/
theorem CircuitKeeps.samePort (hp : p < 16) (hq : q < 16) (hne : q ≠ p) (h : CircuitKeeps (lightRegs p) s t) : SamePort q s t := by
  have hregs : Confined (lightRegs p) s { s with regs := t.regs } := ⟨rfl, rfl, rfl, h.reg⟩
  obtain ⟨hstatus, hlane⟩ := SamePort.of_confined hp hq hne hregs
  exact ⟨hstatus, hlane⟩

/-! #### Lanes while their port stops (R340, R342) -/

/-- A lane that is not off is not off later; the lanes gone for good stay so. -/
structure LaneStays (p w : Nat) (s t : State) : Prop where
  began : t.opt.circuitAt = s.opt.circuitAt
  gone : s.store.gone ⊆ t.store.gone
  alive : s.laneState p w ≠ 0 → t.laneState p w ≠ 0

theorem LaneStays.refl (s : State) : LaneStays p w s s := ⟨rfl, fun _ h => h, fun h => h⟩

theorem LaneStays.trans (r s t : State) (h : LaneStays p w r s) (h' : LaneStays p w s t) : LaneStays p w r t :=
  ⟨h'.began.trans h.began, fun _ hx => h'.gone (h.gone hx), fun hx => h'.alive (h.alive hx)⟩

theorem LaneStays.of_reg (hopt : t.opt = s.opt) (hstore : t.store = s.store) (hst : t.laneState p w = s.laneState p w) :
    LaneStays p w s t := ⟨by rw [hopt], by rw [hstore]; exact fun _ h => h, fun h => by rwa [hst]⟩

theorem laneStays_setF {f : Field} (hf : RegId.OPT_LANE.addr p w ≠ f.reg) (s : State) (x : Nat) : LaneStays p w s (s.setF f x) :=
  .of_reg (State.setF_opt ..) (State.setF_store ..) (State.getF_setF_reg _ _ (Fld.OPT_LANE_STATE p w) _ hf)

theorem laneStays_setRungs (s : State) (v x y : Nat) : LaneStays p w s (s.setRungs p v x y) := by
  refine .of_reg (setRungs_opt ..) (setRungs_store ..) ?_
  simp (disch := omega) only [lightWrites, lightFields, lightReads]

theorem laneStays_setLane (hp : p < 16) {st : Nat} (hst : st % 2 ^ 3 ≠ 0) (s : State) (v : Nat) : LaneStays p w s (s.setLane p v st) := by
  refine ⟨by rw [setLane_opt], by rw [setLane_store]; exact fun _ h => h, fun h => ?_⟩
  by_cases hv : v = w
  · subst hv
    simp (disch := omega) only [lightWrites, lightFields, lightReads]
    exact hst
  · have hkept : (s.setLane p v st).laneState p w = s.laneState p w := by
      simp (disch := omega) only [lightWrites, lightFields, lightReads]
    rwa [hkept]

theorem laneStays_updOpt {g : Optics → Optics} (hg : (g s.opt).circuitAt = s.opt.circuitAt) : LaneStays p w s (s.updOpt g) :=
  ⟨hg, fun _ h => h, fun h => h⟩

theorem laneStays_setRise (s : State) (v : Nat) (x : Option Nat) : LaneStays p w s (s.setRise p v x) := laneStays_updOpt rfl

theorem laneStays_restLane (hp : p < 16) (s : State) (v : Nat) : LaneStays p w s (s.restLane p v) := by
  unfold State.restLane
  exact .trans _ _ _ (.trans _ _ _ (laneStays_setRungs s v 0 0) (laneStays_setRise _ v none)) (laneStays_setLane hp (by decide) _ v)

/-- What is noted of a lane removed: no drain of it waits, and for good it is stored. -/
def State.noteRemoved (s : State) (p w : Nat) (keep : Bool) : State :=
  let s := s.updOpt fun o => { o with leaving := o.leaving.filter fun x => x.1 != laneKey p w }
  if keep ∧ !s.store.gone.contains (laneKey p w) then
    { s with store := { s.store with gone := s.store.gone ++ [laneKey p w] } }
  else s

theorem removeLane_eq (s : State) (p w : Nat) (keep : Bool) :
    s.removeLane p w keep = ((s.setRungs p w 0 0).setLane p w 5).noteRemoved p w keep := rfl

theorem laneStays_noteRemoved (s : State) (v : Nat) (keep : Bool) : LaneStays p w s (s.noteRemoved p v keep) := by
  unfold State.noteRemoved
  refine iteInduction (fun _ => ?_) fun _ => laneStays_updOpt rfl
  exact ⟨rfl, fun _ h => List.mem_append_left _ h, fun h => h⟩

theorem laneStays_removeLane (hp : p < 16) (s : State) (v : Nat) (keep : Bool) : LaneStays p w s (s.removeLane p v keep) := by
  have hstate : LaneStays p w s ((s.setRungs p v 0 0).setLane p v 5) :=
    .trans _ _ _ (laneStays_setRungs s v 0 0) (laneStays_setLane hp (by decide) _ v)
  rw [removeLane_eq]
  exact .trans _ _ _ hstate (laneStays_noteRemoved ..)

theorem laneStays_leaveLane (hp : p < 16) (hw : w < 16) (hv : v < 16) (s : State) : LaneStays p w s (s.leaveLane p v) := by
  have hlaser : LaneStays p w s (s.laserOff (p / 2) (s.laserOf (p / 2) (laneNo p v))) := by
    have hl : s.laserOf (p / 2) (laneNo p v) < 37 := laserOf_lt (by unfold laneNo; omega) _
    have hne : RegId.OPT_LANE.addr p w ≠ RegId.OPT_LASER.addr (p / 2) (s.laserOf (p / 2) (laneNo p v)) :=
      RegId.addr_ne .OPT_LANE .OPT_LASER hp hw (show p / 2 < 8 by omega) hl (by decide)
    exact .trans _ _ _ (laneStays_setF (f := Fld.OPT_LASER_STATE ..) hne s 0) (laneStays_setF (f := Fld.OPT_LASER_CHAN ..) hne _ 0x1F)
  unfold State.leaveLane
  split
  · exact .refl s
  · refine .trans _ _ _ ?_ (laneStays_removeLane hp _ v _)
    split
    · exact hlaser
    · exact .refl s

theorem laneStays_stopLanes (hp : p < 16) (hw : w < 16) (s : State) : LaneStays p w s (s.stopLanes p) := by
  unfold State.stopLanes
  refine .trans _ _ _ (laneStays_updOpt rfl) (foldl_keeps LaneStays.refl LaneStays.trans (fun s v hv => ?_) _)
  have hleft := laneStays_leaveLane hp hw (List.mem_range.mp hv) s
  exact iteInduction (fun _ => hleft) fun _ => hleft.trans _ _ _ (laneStays_restLane hp _ v)

theorem laneStays_freshLanes (hp : p < 16) (s : State) : LaneStays p w s (s.freshLanes p) :=
  foldl_keeps LaneStays.refl LaneStays.trans (fun s v _ => iteInduction (fun _ => .refl s) fun _ => laneStays_restLane hp s v) s

theorem laneStays_stopPort (hp : p < 16) (hw : w < 16) (s : State) : LaneStays p w s (s.stopPort p) := by
  have hframe (u : State) (x : Port) (l : List Held) : LaneStays p w u (((u.setHeld (p / 8) l).setPort p x).fitBursts p) :=
    ⟨rfl, fun _ h => h, fun h => h⟩
  have hne : RegId.OPT_LANE.addr p w ≠ RegId.ABR_PORT_STATUS.addr p :=
    RegId.addr_ne .OPT_LANE .ABR_PORT_STATUS hp hw hp Nat.one_pos (by decide)
  unfold State.stopPort
  dsimp only
  exact .trans _ _ _ (.trans _ _ _ (hframe ..) (laneStays_stopLanes hp hw _)) (laneStays_setF (f := Fld.ABR_PORT_STATUS_UP p) hne _ 0)

/-! #### One port of the change -/

/-- A port of a change stopped and forgotten: not down, waiting for its light, its peer unknown. -/
def State.circuitDown (s : State) (p : Nat) : State :=
  ((s.stopPort p).updPort p fun x => { x with wasUp := false, detours := [] }).setFs [(Fld.ABR_PORT_STATUS_DOWN p, 0),
    (Fld.ABR_PORT_STATUS_CAUSE p, 1), (Fld.ABR_PORT_STATUS_PEER_DEV p, 0), (Fld.ABR_PORT_STATUS_PEER_PORT p, 0)]

/-- The states of rings alone differ. -/
def RingsOnly (s t : State) : Prop := t = { s with opt := { s.opt with rings := t.opt.rings } }

theorem RingsOnly.refl (s : State) : RingsOnly s s := rfl

theorem RingsOnly.trans (r s t : State) (h : RingsOnly r s) (h' : RingsOnly s t) : RingsOnly r t := by
  unfold RingsOnly at *
  rw [h', h]

theorem ringsOnly_setRing (s : State) (e k : Nat) (x : RingState) : RingsOnly s (s.setRing e k x) := rfl

theorem RingsOnly.keeps (h : RingsOnly s t) : t.regs = s.regs ∧ t.store = s.store ∧ CircuitKeeps P s t := by
  unfold RingsOnly at h
  generalize t.opt.rings = x at h
  subst h
  exact ⟨rfl, rfl, rfl, rfl, rfl, fun _ h => h, fun _ _ => rfl⟩

theorem circuitPort_ringsOnly (s : State) (p : Nat) : RingsOnly ((s.circuitDown p).freshLanes p) (s.circuitPort p) :=
  .trans _ _ _ (foldl_keeps RingsOnly.refl RingsOnly.trans (fun s _ _ => ringsOnly_setRing s ..) _) (ringsOnly_setRing ..)

theorem circuitDown_status (s : State) (p : Nat) : (s.circuitDown p).getF (Fld.ABR_PORT_STATUS_UP p) = 0
    ∧ (s.circuitDown p).getF (Fld.ABR_PORT_STATUS_DOWN p) = 0 ∧ (s.circuitDown p).getF (Fld.ABR_PORT_STATUS_PEER_DEV p) = 0 := by
  have hport (u : State) (f : Field) : (u.updPort p fun x => { x with wasUp := false, detours := [] }).getF f = u.getF f := rfl
  have hup : (s.stopPort p).getF (Fld.ABR_PORT_STATUS_UP p) = 0 := getF_setF_same (by decide)
  have hup' : (s.circuitDown p).getF (Fld.ABR_PORT_STATUS_UP p) = (s.stopPort p).getF (Fld.ABR_PORT_STATUS_UP p) := by
    unfold State.circuitDown
    simp (disch := omega) only [lightWrites, lightFields, lightReads, hport]
  refine ⟨hup'.trans hup, ?_⟩
  unfold State.circuitDown
  simp (disch := omega) only [lightWrites, lightFields, lightReads, Nat.zero_mod, and_self]

theorem circuitDown_regs (s : State) (p : Nat) : Confined (lightRegs p) { s with fab := (s.circuitDown p).fab } (s.circuitDown p) := by
  have hstop := stopPort_confined s p
  have hport (u : State) (g : Port → Port) : (u.updPort p g).mem = u.mem ∧ (u.updPort p g).bays = u.bays
      ∧ (u.updPort p g).regs = u.regs := ⟨rfl, rfl, rfl⟩
  obtain ⟨hmem, hbays, hregs⟩ := hport (s.stopPort p) fun x => { x with wasUp := false, detours := [] }
  have hdown : Confined (lightRegs p) ((s.stopPort p).updPort p fun x => { x with wasUp := false, detours := [] }) (s.circuitDown p) := by
    refine Confined.refl.setFs fun x hx => .inl ?_
    simp only [List.mem_cons, List.not_mem_nil, or_false] at hx
    obtain rfl | rfl | rfl | rfl := hx <;> rfl
  refine ⟨hdown.mem.trans (hmem.trans hstop.mem), hdown.bays.trans (hbays.trans hstop.bays), rfl, fun a ha => ?_⟩
  have hstopped : (s.stopPort p).reg a = s.reg a := hstop.reg a (by simpa [lightRegs] using ha)
  exact (hdown.reg a ha).trans ((reg_of_regs hregs a).trans hstopped)

theorem laneStays_circuitDown (hp : p < 16) (hw : w < 16) (s : State) : LaneStays p w s (s.circuitDown p) := by
  have hne : RegId.OPT_LANE.addr p w ≠ RegId.ABR_PORT_STATUS.addr p :=
    RegId.addr_ne .OPT_LANE .ABR_PORT_STATUS hp hw hp Nat.one_pos (by decide)
  have hport (u : State) (g : Port → Port) : LaneStays p w u (u.updPort p g) := ⟨rfl, fun _ h => h, fun h => h⟩
  have hset {l : List (Field × Nat)} (hl : ∀ x ∈ l, x.1.reg = RegId.ABR_PORT_STATUS.addr p) (u : State) : LaneStays p w u (u.setFs l) :=
    foldl_keeps LaneStays.refl LaneStays.trans (fun u x hx => laneStays_setF (hl x hx ▸ hne) u x.2) u
  unfold State.circuitDown
  refine .trans _ _ _ (.trans _ _ _ (laneStays_stopPort hp hw s) (hport ..)) (hset (fun x hx => ?_) _)
  simp only [List.mem_cons, List.not_mem_nil, or_false] at hx
  obtain rfl | rfl | rfl | rfl := hx <;> rfl

theorem circuitPort_keeps (hp : p < 16) (s : State) : CircuitKeeps (lightRegs p) s (s.circuitPort p) := by
  have hdown := circuitDown_regs s p
  obtain ⟨hfresh, -, -⟩ := freshLanes_keeps (s.circuitDown p) p
  have hlanes := (laneStays_circuitDown hp (w := 0) (by decide) s).trans _ _ _ (laneStays_freshLanes hp _)
  obtain ⟨-, -, hrings⟩ := (circuitPort_ringsOnly s p).keeps (P := lightRegs p)
  refine .trans _ _ _ ⟨hfresh.mem.trans hdown.mem, hfresh.bays.trans hdown.bays, hlanes.began, hlanes.gone, fun a ha => ?_⟩ hrings
  exact (hfresh.reg a fun h => ha (.inr h)).trans (hdown.reg a ha)

/-- A port out of routing, its lanes to be trained. -/
structure OutOfRouting (p : Nat) (s t : State) : Prop where
  up : t.getF (Fld.ABR_PORT_STATUS_UP p) = 0
  down : t.getF (Fld.ABR_PORT_STATUS_DOWN p) = 0
  peer : t.getF (Fld.ABR_PORT_STATUS_PEER_DEV p) = 0
  lane : ∀ w < 16, s.laneState p w ≠ 0 → laneKey p w ∉ t.store.gone → t.laneState p w = 1

theorem circuitPort_outOfRouting (hp : p < 16) (s : State) : OutOfRouting p s (s.circuitPort p) := by
  obtain ⟨hregs, hstore, -⟩ := (circuitPort_ringsOnly s p).keeps (P := lightRegs p)
  obtain ⟨hfresh, hgone, -⟩ := freshLanes_keeps (s.circuitDown p) p
  have hstatus : RegId.ABR_PORT_STATUS.addr p ∉ laneRegs p := not_mem_laneRegs hp hp Nat.one_pos (by decide)
  obtain ⟨hup, hdown, hpeer⟩ := circuitDown_status s p
  refine ⟨?_, ?_, ?_, fun w hw hst hkey => ?_⟩
  · exact (getF_of_regs hregs _).trans ((hfresh.getF (Fld.ABR_PORT_STATUS_UP p) hstatus).trans hup)
  · exact (getF_of_regs hregs _).trans ((hfresh.getF (Fld.ABR_PORT_STATUS_DOWN p) hstatus).trans hdown)
  · exact (getF_of_regs hregs _).trans ((hfresh.getF (Fld.ABR_PORT_STATUS_PEER_DEV p) hstatus).trans hpeer)
  · rw [hstore, hgone] at hkey
    obtain ⟨hlane, -⟩ := freshLanes_lane hp hw ((laneStays_circuitDown hp hw s).alive hst) hkey
    exact (getF_of_regs hregs _).trans hlane

/-! #### The ports in turn -/

/-- What a state shows of a port is what another one does, and the lanes gone for good stay so. -/
structure PortWaits (p : Nat) (s t : State) : Prop where
  same : SamePort p s t
  gone : s.store.gone ⊆ t.store.gone

theorem PortWaits.refl (s : State) : PortWaits p s s := ⟨.refl s, fun _ h => h⟩

theorem PortWaits.trans (r s t : State) (h : PortWaits p r s) (h' : PortWaits p s t) : PortWaits p r t :=
  ⟨h.same.trans _ _ _ h'.same, fun _ hx => h'.gone (h.gone hx)⟩

theorem portWaits_circuitPort (hp : p < 16) (hq : q < 16) (h : q ≠ p) (s : State) : PortWaits p s (s.circuitPort q) :=
  ⟨(circuitPort_keeps hq s).samePort hq hp (Ne.symm h), (circuitPort_keeps hq s).gone⟩

section
variable {l : List Nat} (hl : ∀ q ∈ l, q < 16)
include hl

/-- A port that the change names is out of routing after it. -/
theorem circuitPorts_listed (hnodup : l.Nodup) (hp : p ∈ l) (s : State) : OutOfRouting p s (l.foldl State.circuitPort s) := by
  obtain ⟨u, hu, ht⟩ := foldl_turn PortWaits.refl PortWaits.trans hnodup hp
    (fun s q hq hne => portWaits_circuitPort (hl p hp) (hl q hq) hne s) s
  have h := circuitPort_outOfRouting (hl p hp) u
  refine ⟨ht.same.getF.trans h.up, ht.same.getF.trans h.down, ht.same.getF.trans h.peer, fun w hw hst hkey => ?_⟩
  refine (ht.same.laneF hw).trans (h.lane w hw (fun e => hst ?_) fun hx => hkey (ht.gone hx))
  exact (hu.same.laneF hw).symm.trans e

/-- Another port keeps its status. -/
theorem circuitPorts_unlisted (hp : p < 16) (hnot : p ∉ l) (s : State) : SamePort p s (l.foldl State.circuitPort s) :=
  foldl_keeps SamePort.refl SamePort.trans
    (fun s q hq => (portWaits_circuitPort hp (hl q hq) (fun e => hnot (e ▸ hq)) s).same) s

theorem circuitPorts_keeps (s : State) : CircuitKeeps (· ≠ RegId.OPT_CIRCUIT.addr) s (l.foldl State.circuitPort s) := by
  refine foldl_keeps CircuitKeeps.refl CircuitKeeps.trans (fun s q hq => (circuitPort_keeps (hl q hq) s).mono ?_) s
  rintro a ha rfl
  obtain ha | ha := ha
  · exact RegId.addr_ne .OPT_CIRCUIT .ABR_PORT_STATUS Nat.one_pos Nat.one_pos (hl q hq) Nat.one_pos (by decide) ha
  · exact not_mem_laneRegs (hl q hq) Nat.one_pos Nat.one_pos (by decide) ha

end

end

end Sys2Proof.Machine
end

section

set_option Elab.async false

namespace Sys2Proof.Machine

section
variable {s : State} {p n : Nat}

/-! #### The change begins -/

/-- The registers of launches and of the open step. -/
def launchRegs : List Nat := [RegId.SCR_LAUNCH.addr, RegId.LDG_STEP_STATUS.addr]

theorem launchFired_reg (s : State) (mark now : Nat) {a : Nat} (ha : a ∉ launchRegs) : (s.launchFired mark now).reg a = s.reg a := by
  have hlaunch : a ≠ RegId.SCR_LAUNCH.addr := fun e => ha (e ▸ List.mem_cons_self ..)
  have hstep : a ≠ RegId.LDG_STEP_STATUS.addr := fun e => ha (e ▸ List.mem_cons_of_mem _ (List.mem_singleton_self _))
  have hset (u : State) (f : Field) (hf : f.reg = RegId.SCR_LAUNCH.addr) : (u.incF f).reg a = u.reg a :=
    State.reg_setF_ne _ _ _ _ fun e => hlaunch (e.trans hf)
  have hlate (u : State) : ((u.incF Fld.SCR_LAUNCH_LATE).tickEvent).reg a = u.reg a :=
    (State.reg_tickEvent_ne _ _ _ hstep).trans (hset u _ rfl)
  unfold State.launchFired
  dsimp only
  split <;> split
  · rw [hset _ _ rfl, hlate]
    rfl
  · rw [hlate]
    rfl
  · rw [hset _ _ rfl]
    rfl
  · rfl

theorem launchFired_keeps (s : State) (mark now : Nat) : CircuitKeeps (· ∈ launchRegs) s (s.launchFired mark now) := by
  refine ⟨?_, ?_, ?_, ?_, fun a ha => launchFired_reg s mark now ha⟩
  all_goals rw [launchFired_only]
  exact fun _ h => h

/-- The change under way since now: STATE 2, no port up again yet. -/
def State.circuitRuns (s : State) : State :=
  ((s.setF Fld.OPT_CIRCUIT_STATE 2).setF Fld.OPT_CIRCUIT_UP 0).updOpt fun o => { o with circuitAt := some s.now }

theorem circuitRuns_shows (s : State) : s.circuitRuns.getF Fld.OPT_CIRCUIT_STATE = 2 ∧ s.circuitRuns.opt.circuitAt = some s.now := by
  refine ⟨?_, rfl⟩
  unfold State.circuitRuns
  simp (disch := omega) only [lightFields, lightReads]
  rfl

theorem circuitRuns_frame (s : State) : s.circuitRuns.mem = s.mem ∧ s.circuitRuns.bays = s.bays ∧ s.circuitRuns.store = s.store
    ∧ ∀ a, a ≠ RegId.OPT_CIRCUIT.addr → s.circuitRuns.reg a = s.reg a := by
  have hopt (u : State) (g : Optics → Optics) : (u.updOpt g).mem = u.mem ∧ (u.updOpt g).bays = u.bays ∧ (u.updOpt g).store = u.store
      ∧ ∀ a, (u.updOpt g).reg a = u.reg a := ⟨rfl, rfl, rfl, fun _ => rfl⟩
  obtain ⟨hmem, hbays, hstore, hreg⟩ := hopt ((s.setF Fld.OPT_CIRCUIT_STATE 2).setF Fld.OPT_CIRCUIT_UP 0)
    fun o => { o with circuitAt := some s.now }
  refine ⟨hmem.trans ?_, hbays.trans ?_, hstore.trans ?_, fun a ha => (hreg a).trans ?_⟩
  · rw [State.setF_mem, State.setF_mem]
  · rw [State.setF_bays, State.setF_bays]
  · rw [State.setF_store, State.setF_store]
  · exact (State.reg_setF_ne _ Fld.OPT_CIRCUIT_UP _ _ ha).trans (State.reg_setF_ne _ Fld.OPT_CIRCUIT_STATE _ _ ha)

/-- The ports that a circuit change names. -/
def State.circuitPorts (s : State) : List Nat := (List.range 16).filter fun p => (s.getF Fld.OPT_CIRCUIT_PORTS).testBit p

theorem mem_circuitPorts (hp : p < 16) : p ∈ s.circuitPorts ↔ (s.getF Fld.OPT_CIRCUIT_PORTS).testBit p = true := by
  simp [State.circuitPorts, hp]

theorem circuitPorts_lt (h : p ∈ s.circuitPorts) : p < 16 := List.mem_range.mp (List.mem_filter.mp h).1

theorem circuitPorts_nodup (s : State) : s.circuitPorts.Nodup := List.nodup_range.filter _

/-- PORTS has sixteen bits: one that is set names a port. -/
theorem circuitPorts_isEmpty (h : s.getF Fld.OPT_CIRCUIT_PORTS ≠ 0) : s.circuitPorts.isEmpty = false := by
  obtain ⟨i, hi⟩ := Nat.exists_testBit_of_ne_zero h
  have hlt : s.getF Fld.OPT_CIRCUIT_PORTS < 2 ^ 16 := fieldOf_lt ..
  have hi16 : i < 16 := by
    refine Nat.lt_of_not_le fun hle => ?_
    rw [Nat.testBit_lt_two_pow (hlt.trans_le (Nat.pow_le_pow_right (by decide) hle))] at hi
    nomatch hi
  rw [List.isEmpty_eq_false_iff]
  exact List.ne_nil_of_mem ((mem_circuitPorts hi16).mpr hi)

/-- At its mark an armed change begins, and its ports leave routing in turn. -/
theorem circuitGo_begins (harmed : s.getF Fld.OPT_CIRCUIT_STATE = 1) (hmark : s.getF Fld.OPT_CIRCUIT_MARK_MARK ≤ s.now)
    (hhold : s.devState ≠ stHOLD) (hswap : ∀ e, s.swapLaser e = none) (hports : s.getF Fld.OPT_CIRCUIT_PORTS ≠ 0) :
    s.circuitGo = s.circuitPorts.foldl State.circuitPort (s.launchFired (s.getF Fld.OPT_CIRCUIT_MARK_MARK) s.now).circuitRuns := by
  have hwait : ¬ (s.getF Fld.OPT_CIRCUIT_STATE ≠ 1 ∨ s.devState = stHOLD ∨ s.now < s.getF Fld.OPT_CIRCUIT_MARK_MARK
      ∨ s.circuitPorts.any (fun p => (s.swapLaser (p / 2)).isSome) = true) := by
    simp [harmed, hhold, hmark, hswap]
  have hempty := circuitPorts_isEmpty hports
  unfold State.circuitPorts at hwait hempty
  unfold State.circuitGo
  dsimp only
  rw [if_neg hwait, if_neg (by rw [hempty]; decide)]
  rfl

/-- Before the ports' turns they stand as they did. -/
theorem circuitRuns_samePort (hp : p < 16) (s : State) (mark : Nat) : SamePort p s (s.launchFired mark s.now).circuitRuns := by
  obtain ⟨-, -, -, hreg⟩ := circuitRuns_frame (s.launchFired mark s.now)
  have hkept {a : Nat} (hc : a ≠ RegId.OPT_CIRCUIT.addr) (ha : a ∉ launchRegs) :
      (s.launchFired mark s.now).circuitRuns.reg a = s.reg a := (hreg a hc).trans (launchFired_reg s mark s.now ha)
  have hother {q : RegId} {i j : Nat} (hi : i < q.spec.n1) (hj : j < q.spec.n2)
      (hq : q ∉ [.OPT_CIRCUIT, .SCR_LAUNCH, .LDG_STEP_STATUS]) :
      (s.launchFired mark s.now).circuitRuns.reg (q.addr i j) = s.reg (q.addr i j) := by
    simp only [List.mem_cons, List.not_mem_nil, or_false, not_or] at hq
    obtain ⟨h₁, h₂, h₃⟩ := hq
    refine hkept (RegId.addr_ne q .OPT_CIRCUIT hi hj Nat.one_pos Nat.one_pos h₁) ?_
    simp only [launchRegs, List.mem_cons, List.not_mem_nil, or_false, not_or]
    exact ⟨RegId.addr_ne q .SCR_LAUNCH hi hj Nat.one_pos Nat.one_pos h₂, RegId.addr_ne q .LDG_STEP_STATUS hi hj Nat.one_pos Nat.one_pos h₃⟩
  exact ⟨hother (q := .ABR_PORT_STATUS) hp Nat.one_pos (by decide), fun w hw => hother (q := .OPT_LANE) hp hw (by decide)⟩

theorem now_launchFired (s : State) (mark now : Nat) : (s.launchFired mark now).now = s.now :=
  (launchFired_keeps s mark now).getF Fld.SCR_COUNT_COUNT (by decide)

/-- What a circuit change at its mark leaves. -/
structure CircuitBegun (s t : State) : Prop where
  state : t.getF Fld.OPT_CIRCUIT_STATE = 2
  began : t.opt.circuitAt = some s.now
  listed : ∀ p < 16, (s.getF Fld.OPT_CIRCUIT_PORTS).testBit p = true → OutOfRouting p s t
  unlisted : ∀ p < 16, (s.getF Fld.OPT_CIRCUIT_PORTS).testBit p = false → SamePort p s t
  mem : t.mem = s.mem
  bays : t.bays = s.bays

theorem OutOfRouting.before {t u : State} (h : OutOfRouting p u t) (hs : SamePort p s u) : OutOfRouting p s t :=
  ⟨h.up, h.down, h.peer, fun w hw hst => h.lane w hw fun e => hst ((hs.laneF hw).symm.trans e)⟩

theorem circuitBegun (s : State) (mark : Nat) :
    CircuitBegun s (s.circuitPorts.foldl State.circuitPort (s.launchFired mark s.now).circuitRuns) := by
  have hlt (q : Nat) (hq : q ∈ s.circuitPorts) : q < 16 := circuitPorts_lt hq
  have hlaunch := launchFired_keeps s mark s.now
  have hstart (p : Nat) (hp : p < 16) := circuitRuns_samePort hp s mark
  obtain ⟨hstate, hat⟩ := circuitRuns_shows (s.launchFired mark s.now)
  obtain ⟨hmem, hbays, -, -⟩ := circuitRuns_frame (s.launchFired mark s.now)
  have hkept := circuitPorts_keeps hlt (s.launchFired mark s.now).circuitRuns
  rw [now_launchFired] at hat
  refine ⟨(hkept.getF Fld.OPT_CIRCUIT_STATE (fun h => h rfl)).trans hstate, hkept.began.trans hat, fun p hp hbit => ?_,
    fun p hp hbit => ?_, hkept.mem.trans (hmem.trans hlaunch.mem), hkept.bays.trans (hbays.trans hlaunch.bays)⟩
  · exact (circuitPorts_listed hlt (circuitPorts_nodup s) ((mem_circuitPorts hp).mpr hbit) _).before (hstart p hp)
  · have hnot : p ∉ s.circuitPorts := fun h => by rw [(mem_circuitPorts hp).mp h] at hbit; nomatch hbit
    exact (hstart p hp).trans _ _ _ (circuitPorts_unlisted hlt hp hnot _)

end

end Sys2Proof.Machine
end

section

set_option Elab.async false

namespace Sys2Proof
open Machine

/-- Settles O48: each event is brought to an equation of the model's operation, and what the state then shows is read off it; at a
circuit's mark every named port has its turn, which the other ports' turns leave standing. -/
theorem ringsLasersAndCircuits : Obligations.RingsLasersAndCircuits := by
  unfold Obligations.RingsLasersAndCircuits
  refine ⟨fun e k err tags s h => ⟨fun hown => ?ownTag, fun t hfind => ?otherTag⟩,
    fun e k s => ⟨fun h => ?relock, fun n h => ⟨?found, fun hn => ?again, fun hn hk => ?gone⟩⟩,
    fun e l power s hl => ⟨fun hst hp hp' => ?fades, fun hst hp => ?restored, fun k hst hp hp' hk hswap hwait => ?asks⟩,
    fun e l k s hlaser hl hpause hup hdue => ⟨fun c hc h => ?step, fun h hk hwait hcirc => ?swapped⟩,
    fun e k s hlaser hstep hwait hk hcirc => ?express, fun e port q s hq hswap => ?burst,
    fun path v s hreach hs => ⟨fun hopen => ?start, fun hp hopen hc => ?refused⟩,
    fun s harmed hmark hhold hswap hports => ?mark, fun at_ s hat hst hnow hrun => ?timeout⟩
  case ownTag =>
    obtain ⟨t, hrun, ht⟩ := ownTag_shows (err := err) e.isLt h hown
    exact ⟨t, congrArg Host.Outcome.next hrun, ht⟩
  case otherTag =>
    obtain ⟨hring, hflag, hcount, hlog⟩ := otherTag_shows (err := err) e.isLt k.isLt h hfind
    exact ⟨_, rfl, hring, hflag, hcount, hlog⟩
  case relock => exact ⟨_, congrArg Host.Outcome.next (opRelock_lost h), relocked_shows e.isLt s k⟩
  case found =>
    obtain ⟨hring, -⟩ := relocked_shows e.isLt s k
    exact ⟨_, congrArg Host.Outcome.next (opSweep_found h), hring⟩
  case again => exact congrArg Host.Outcome.next (opSweep_again (hn ▸ h))
  case gone => exact ⟨_, congrArg Host.Outcome.next (opSweep_gone h hn hk), sweptOut_shows e.isLt s k⟩
  case fades =>
    obtain ⟨t, hrun, ht⟩ := laserFades e.isLt hl hst hp hp'
    exact ⟨t, congrArg Host.Outcome.next hrun, ht⟩
  case restored =>
    obtain ⟨t, hrun, ht⟩ := laserRestored e.isLt hl hst hp power.isLt
    exact ⟨t, congrArg Host.Outcome.next hrun, ht⟩
  case asks =>
    exact ⟨_, congrArg Host.Outcome.next (laserAsks hl hst hp hp' hk hswap hwait), swapBegin_laser ..,
      swapBegin_shows e.isLt (spare_lt hk) _ l⟩
  case step =>
    obtain ⟨hstep, hmem, hregs, hrung⟩ := opSwapStep_at e.isLt hl hlaser hpause hup hdue hc h
    exact ⟨_, rfl, hstep, hmem, fun hst => hregs fun hw => hst hw.1 hw.2, fun h₁ hst => hrung ⟨h₁, hst⟩⟩
  case swapped =>
    have hrun := (opSwapStep_data hlaser hl).trans (swapData_five hpause hup h)
    have hend := swapEnd_swapped e.isLt (Nat.le_of_lt hl) hk hwait hcirc
    obtain ⟨hpatched, hpatch, hbusy⟩ := swapEnd_lane e.isLt hl hk hwait hcirc
    exact ⟨_, congrArg Host.Outcome.next hrun, hend.idle, hend.step, hend.old, hend.patch, hpatched, hpatch, hend.swaps, hbusy, hend.mem,
      hend.fab⟩
  case express =>
    obtain ⟨-, hregs, hmem, hfab⟩ := setRing_frame s e 100 .locked
    have hwait' : (s.setRing e 100 .locked).swapWait e = [] := hwait
    have hcirc' : (s.setRing e 100 .locked).getF Fld.OPT_CIRCUIT_STATE ≠ 1 := by rwa [getF_of_regs hregs]
    have hk' : k = (s.setRing e 100 .locked).getF (Fld.OPT_PATCH_PROG_PATCH e) := by rwa [getF_of_regs hregs]
    have hend := swapEnd_swapped e.isLt (Nat.le_refl 32) hk' hwait' hcirc'
    obtain ⟨hlost, hring⟩ := swapEnd_express e.isLt hk' hwait' hcirc'
    have hswaps := hend.swaps
    rw [getF_of_regs hregs] at hswaps
    exact ⟨_, congrArg Host.Outcome.next (if_pos ⟨hlaser, hstep⟩), hend.idle, (hring 100).trans (ring_setRing_self ..), hlost, hend.old,
      hend.patch, hswaps, hend.mem.trans hmem, hend.fab.trans hfab⟩
  case burst =>
    obtain ⟨hothers, honly⟩ := burst_keeps s (2 * e + port)
    obtain ⟨hqueue, hsteer⟩ := steered_shows (s.burst (2 * e + port)) e port q
    have hport (r : Nat) := port_steered (s.burst (2 * e + port)) e port q r
    refine ⟨_, congrArg Host.Outcome.next (opBurst_serves hq hswap), hqueue, hsteer, fun f hf => (hport _).trans (burst_ctl hf),
      fun m l hc ht => ?_, fun r hr => (hport r).trans (hothers r hr), steered_only honly⟩
    rw [hport]
    exact burst_todo hc ht
  case start =>
    obtain ⟨u, hu, hrun⟩ := circuitStart_arms hreach hs hopen
    obtain ⟨hstate, hcode, hup, hports⟩ := circuitArm_shows s (withBit Fld.OPT_CIRCUIT_START v)
    obtain ⟨honly, hregs⟩ := circuitArm_onlyRegs s (withBit Fld.OPT_CIRCUIT_START v)
    rw [← hu] at hstate hcode hup hports honly hregs
    exact ⟨_, hrun, rfl, hstate, hcode, hup, hports.trans (circuitPorts_bits v), hregs,
      congrArg (fun u : State => ({ u with lastCode := cDONE } : State)) honly⟩
  case refused => exact circuitStart_refused hreach hs hp hopen hc
  case mark =>
    have h := circuitBegun s (s.getF Fld.OPT_CIRCUIT_MARK_MARK)
    refine ⟨_, congrArg Host.Outcome.next (circuitGo_begins harmed hmark hhold hswap hports), h.state, h.began, fun p hbit => ?_,
      fun p hbit => (h.unlisted p p.isLt hbit).status, h.mem, h.bays⟩
    obtain ⟨hup, hdown, hpeer, hlane⟩ := h.listed p p.isLt hbit
    exact ⟨by rw [State.portUp, hup]; rfl, hdown, hpeer, fun w => hlane w w.isLt⟩
  case timeout =>
    obtain ⟨hkept, hat', -⟩ := circuitOver_keeps s cTIMEOUT.toNat
    obtain ⟨hstate, hcode, hup⟩ := circuitOver_shows (s := s) cTIMEOUT.isLt
    exact ⟨_, congrArg Host.Outcome.next (opCircuitTimeout_over hat hst hnow hrun), hstate, hcode, hup, hat', hkept.reg, hkept.mem, hkept.fab⟩

end Sys2Proof
end
